-- ==== Sys2Proof/Word.lean ====
section
/-!
DEFINITION. The words of the device: every multi-byte value is little-endian and bit 0 is the least
significant bit of its field (spec 00 R3).
-/
namespace Sys2Proof

/-- One byte of memory. -/
abbrev Byte := BitVec 8

/-- One 64-bit register, stack entry or quadword. -/
abbrev Word := BitVec 64

end Sys2Proof
end

