-- ==== Sys2Proof/Machine/Bits.lean ====
section
/-!
DEFINITION. Bit fields, byte order and sparse maps: the helpers every later file of the model shares.
Multi-byte values are little-endian (00 R3); a field [msb:lsb] includes both ends.
-/
namespace Sys2Proof.Machine

/-- The field [hi:lo] of a word as a natural number (00 R3). -/
def field (x : Word) (hi lo : Nat) : Nat := (x.toNat >>> lo) % 2 ^ (hi + 1 - lo)

/-- Bit `i` of a word. -/
def bit (x : Word) (i : Nat) : Bool := x.getLsbD i

/-- A natural number placed at bit `lo`, truncated to `w` bits. -/
def place (v w lo : Nat) : Word := BitVec.ofNat 64 ((v % 2 ^ w) <<< lo)

/-- A Boolean placed at bit `lo`. -/
def flagAt (b : Bool) (lo : Nat) : Word := if b then BitVec.ofNat 64 (1 <<< lo) else 0

/-- `x` with the field [hi:lo] replaced by the same field of `v`. -/
def mergeField (x v : Word) (hi lo : Nat) : Word :=
  let m : Word := BitVec.ofNat 64 ((2 ^ (hi + 1 - lo) - 1) <<< lo)
  (x &&& ~~~ m) ||| (v &&& m)

/-- The natural number that little-endian bytes spell (00 R3). -/
def leNat : List Byte → Nat
  | [] => 0
  | b :: bs => b.toNat + 256 * leNat bs

/-- The `n` little-endian bytes of a natural number (00 R3). -/
def leBytes : Nat → Nat → List Byte
  | 0, _ => []
  | n + 1, v => BitVec.ofNat 8 v :: leBytes n (v / 256)

/-- Little-endian bytes as a 64-bit word. -/
def leWord (bs : List Byte) : Word := BitVec.ofNat 64 (leNat bs)

/-- The signed value of the low `w` bits of a natural number. -/
def signedOf (w v : Nat) : Int :=
  let u := v % 2 ^ w
  if w ≠ 0 ∧ 2 ^ (w - 1) ≤ u then (u : Int) - 2 ^ w else u

/-- The low `w` bits of an integer in two's complement. -/
def toTwos (w : Nat) (i : Int) : Nat := (i % (2 ^ w : Int)).toNat

/-- ⌊log₂ n⌋ for n > 0 (0 for n = 0). -/
def log2 (n : Nat) : Nat := Nat.log2 n

/-- A count that stays at its largest value. -/
def satAdd (limit c n : Nat) : Nat := min limit (c + n)

/-- ⌈a / b⌉. -/
def ceilDiv (a b : Nat) : Nat := (a + b - 1) / b

/-! ### Sparse maps: a list of (key, value) pairs, an absent key reading as a given default -/

/-- The value at key `k`, `d` where the map lists none. -/
def mget {α : Type} (d : α) : List (Nat × α) → Nat → α
  | [], _ => d
  | (k', v) :: m, k => if k' = k then v else mget d m k

/-- The map with `v` at key `k`, keeping keys in rising order. -/
def mput {α : Type} : List (Nat × α) → Nat → α → List (Nat × α)
  | [], k, v => [(k, v)]
  | (k', v') :: m, k, v =>
    if k' = k then (k, v) :: m
    else if k < k' then (k, v) :: (k', v') :: m
    else (k', v') :: mput m k v

/-- The map with no entry for key `k`. -/
def mdrop {α : Type} (m : List (Nat × α)) (k : Nat) : List (Nat × α) := m.filter (fun e => e.1 != k)

/-- Replace list element `i` (no change past the end). -/
def lset {α : Type} (l : List α) (i : Nat) (v : α) : List α := l.set i v

/-- The natural numbers `lo`, `lo + 1`, … (`n` of them). -/
def rangeFrom (lo n : Nat) : List Nat := (List.range n).map (lo + ·)

end Sys2Proof.Machine
end

