-- ==== Sys2Proof/Machine/Topology.lean ====
section
/-!
DEFINITION. Where everything lies: coordinates of cores and clusters (R7 to R9), stacks and ports (R10,
R11), the physical address map (R12 to R16) and the master IDs (R19, R20).
-/
namespace Sys2Proof.Machine

/-- Cores 0 to 767; 768 stands for the maltster's own control core (R168, R203). -/
abbrev CoreId := Fin 769
abbrev ClusterId := Fin 48
abbrev StackId := Fin 12
abbrev HostPort := Fin 4
abbrev PortGroup := Fin 16
abbrev PartId := Fin 4

/-- The index of the maltster among the control cores of the model. -/
def maltsterCore : Nat := 768

/-! ### Coordinates (R7, R8, R9) -/

def coreRow (k : Nat) : Nat := k / 24
def coreCol (k : Nat) : Nat := k % 24
def clusterOf (k : Nat) : Nat := (coreRow k / 4) * 6 + coreCol k / 4
def localIndex (k : Nat) : Nat := (coreRow k % 4) * 4 + coreCol k % 4
def groupOf (c : Nat) : Nat := (c / 6 / 2) * 3 + (c % 6) / 2

/-- The core at local index j of cluster c (R7, R8). -/
def coreAt (c j : Nat) : Nat := (4 * (c / 6) + j / 4) * 24 + 4 * (c % 6) + j % 4

/-- The cores of a cluster. -/
def clusterCores (c : Nat) : List Nat := (List.range 16).map (coreAt c)

/-- The clusters of a group (R8). -/
def groupClusters (g : Nat) : List Nat := (List.range 48).filter (fun c => groupOf c == g)

/-- The four mesh directions; the order of the neighbour bits and of the router's links. -/
inductive Dir where
  | w | e | n | s
  deriving DecidableEq, Repr

/-- The neighbour of core k in a direction; none at a die edge (R9). -/
def neighbour (k : Nat) : Dir → Option Nat
  | .w => if 0 < coreCol k then some (k - 1) else none
  | .e => if coreCol k < 23 then some (k + 1) else none
  | .n => if 0 < coreRow k then some (k - 24) else none
  | .s => if coreRow k < 31 then some (k + 24) else none

/-- Whether a link crosses the seam between rows 15 and 16 (R6). -/
def seamLink (k : Nat) : Dir → Bool
  | .n => coreRow k == 16
  | .s => coreRow k == 15
  | _ => false

/-! ### Master IDs (R19) -/

def maltsterId : Nat := 0x410
def engineId (c e : Nat) : Nat := 0x300 + 5 * c + e
def hostId (h : Nat) : Nat := 0x400 + h
def portId (p : Nat) : Nat := 0x420 + p
def caskId (p : Nat) : Nat := 0x430 + p

/-- The kind of master an ID names. -/
inductive Master where
  | core (k : Nat)
  | engine (c e : Nat)
  | host (h : Nat)
  | maltster
  | port (p : Nat)
  | cask (p : Nat)
  deriving DecidableEq, Repr

/-- The master of an ID; none for an unassigned one (R19). -/
def masterOf (id : Nat) : Option Master :=
  if id < 0x300 then some (.core id)
  else if id < 0x3F0 then some (.engine ((id - 0x300) / 5) ((id - 0x300) % 5))
  else if 0x400 ≤ id ∧ id < 0x404 then some (.host (id - 0x400))
  else if id = 0x410 then some .maltster
  else if 0x420 ≤ id ∧ id < 0x430 then some (.port (id - 0x420))
  else if 0x430 ≤ id ∧ id < 0x434 then some (.cask (id - 0x430))
  else none

def Master.id : Master → Nat
  | .core k => k
  | .engine c e => engineId c e
  | .host h => hostId h
  | .maltster => maltsterId
  | .port p => portId p
  | .cask p => caskId p

/-- Whether an ID is assigned (R19). -/
def idAssigned (id : Nat) : Bool := (masterOf id).isSome

/-- The control core `k` of the model as a master: 768 is the maltster. -/
def coreMaster (k : Nat) : Master := if k = maltsterCore then .maltster else .core k

/-! ### The physical address map (R12 to R16) -/

/-- What a physical address names. -/
inductive Place where
  | mem (a : Nat)
  | tun (c off : Nat)
  | spad (k off : Nat)
  | coreReg (k off : Nat)
  | clReg (c off : Nat)
  | devReg (blk inst off : Nat)
  | hole
  deriving DecidableEq, Repr

def memEnd : Nat := 0x9000000000
def sliceBytes : Nat := 0xC00000000
def tunBase : Nat := 0x400000000000
def spadBase : Nat := 0x410000000000
def coreRegBase : Nat := 0x420000000000
def clRegBase : Nat := 0x430000000000
def devBase : Nat := 0x440000000000

/-- Instances of each device block (R16). -/
def devInstances : Nat → Nat
  | 0 => 1 | 1 => 1 | 2 => 4 | 3 => 12 | 4 => 16 | 5 => 4 | 6 => 1 | 7 => 1
  | _ => 0

/-- The place of a physical address (R12, R14, R15, R16). [log 9: DESIGN CHOICE] -/
def placeOf (a : Nat) : Place :=
  if a < memEnd then .mem a
  else if tunBase ≤ a ∧ a < tunBase + 0x30000000 then
    let o := a - tunBase
    if o % 0x1000000 < 0x800000 then .tun (o / 0x1000000) (o % 0x1000000) else .hole
  else if spadBase ≤ a ∧ a < spadBase + 0x30000000 then
    .spad ((a - spadBase) / 0x100000) ((a - spadBase) % 0x100000)
  else if coreRegBase ≤ a ∧ a < coreRegBase + 0x3000000 then
    .coreReg ((a - coreRegBase) / 0x10000) ((a - coreRegBase) % 0x10000)
  else if clRegBase ≤ a ∧ a < clRegBase + 0x3000000 then
    let o := a - clRegBase
    if o % 0x100000 < 0x80000 then .clReg (o / 0x100000) (o % 0x100000) else .hole
  else if devBase ≤ a ∧ a < devBase + 0x8000000 then
    let o := a - devBase
    let blk := o / 0x1000000
    let inst := o % 0x1000000 / 0x100000
    if inst < devInstances blk then .devReg blk inst (o % 0x100000) else .hole
  else .hole

def spadAddr (k off : Nat) : Nat := spadBase + k * 0x100000 + off
def tunAddr (c off : Nat) : Nat := tunBase + c * 0x1000000 + off
def coreRegAddr (k off : Nat) : Nat := coreRegBase + k * 0x10000 + off
def clRegAddr (c off : Nat) : Nat := clRegBase + c * 0x100000 + off
def devRegAddr (blk inst off : Nat) : Nat := devBase + blk * 0x1000000 + inst * 0x100000 + off

/-- Whether a place is addressed memory (device memory, a tun or a scratchpad). -/
def Place.isMemory : Place → Bool
  | .mem _ | .tun _ _ | .spad _ _ => true
  | _ => false

end Sys2Proof.Machine
end

