-- ==== Sys2Proof/Syntax.lean ====
section
/-!
DEFINITION. The commands of the block and their operands: one constructor per row of the table of
operations and events. Core instructions carry the issuing control core and their decoded operand
fields (R185, R186); events carry the unit they happen at and, where the outside world or a physical
array decides something, what it decided.
-/
namespace Sys2Proof

open Sys2Proof.Machine (CoreId ClusterId StackId HostPort PortGroup PartId)

/-- A displacement with the width its prefix gives it (R187, R189). -/
inductive Disp where
  | d8 (v : BitVec 8)
  | d16 (v : BitVec 16)
  | d32 (v : BitVec 32)
  | d48 (v : BitVec 48)
  deriving DecidableEq, Repr

/-- The result of one protected read of a memory array (R136, R302); `onDie` is a correction inside a DRAM die,
which its controller counts. -/
inductive Ecc where
  | clean | onDie | corrected | uncorrectable
  deriving DecidableEq, Repr

/-- What the arrays report on one control-core memory access: a parity error in the L1 or L2 line it
hits (R213), and the check of the scratchpad, tun or device-memory entry it reads (R136, R303). -/
structure Finding where
  l1 : Bool := false
  l2 : Bool := false
  ecc : Ecc := .clean
  deriving DecidableEq, Repr

/-- What the arrays report on one event that makes several protected accesses (R136, R302): a result and the
number of the access it falls on, counted from 0 in the order the event makes them; every other access is
clean. -/
abbrev Hit := Option (Nat × Ecc)

/-- The result of the access the event makes next. -/
def Hit.now : Hit → Ecc
  | some (0, e) => e
  | _ => .clean

/-- What is left to report after n further accesses. -/
def Hit.skip (h : Hit) (n : Nat) : Hit :=
  match h with
  | some (m, e) => if n ≤ m then some (m - n, e) else none
  | none => none

/-- The result of one of the n accesses that come next, made together. -/
def Hit.among (h : Hit) (n : Nat) : Ecc :=
  match h with
  | some (m, e) => if m < n then e else .clean
  | none => .clean

/-- What is left to report after the next access. -/
def Hit.next (h : Hit) : Hit := h.skip 1

/-- The target of TZERO (R191). -/
inductive TZeroTarget where
  | tile (t : Fin 8)
  | acc (a : Fin 2)
  deriving DecidableEq, Repr

/-- The engines ENGQ and ENGW name (R192). -/
inductive EngKind where
  | gather | select | sampler | fingerprint
  deriving DecidableEq, Repr

/-- What a page of a partition's address space stands for (R18, R326): physical memory, or the page PVA
of the peer on a connection, with its RKIND. -/
inductive PageTarget where
  | phys (pa : Nat)
  | remote (rkind conn pva : Nat)
  deriving DecidableEq, Repr

/-- One translation: base, log₂ of the page size (16, 21 or 30), target, permissions, the rings it
admits, and the schedule whose image it maps when it is one of the pages of R376. -/
structure Page where
  va : Nat
  bits : Nat
  target : PageTarget
  writable : Bool
  exec : Bool
  rings : BitVec 4
  image : Option Nat
  deriving DecidableEq, Repr


/-- A detected hardware error (R389): SOURCE, UKIND, unit index, requesting master and physical address. -/
structure Detection where
  source : Nat
  ukind : Nat
  unit : Nat
  master : Nat
  addr : Nat
  deriving DecidableEq, Repr

/-- A flag of the device: a core's binary or counted flag, or a cluster flag. -/
inductive FlagTarget where
  | bin (k f : Nat)
  | cnt (k c : Nat)
  | cl (c f : Nat)
  deriving DecidableEq, Repr

/-- The memory that a background scrubber reads (R136). -/
inductive ScrubUnit where
  | spad (k : CoreId)
  | tun (c : ClusterId)
  deriving DecidableEq, Repr

/-- A link port of a router (R142). -/
inductive MeshLink where
  | n | s | e | w
  deriving DecidableEq, Repr

/-- The result of a kiln test's steps (R396). -/
inductive KilnRes where
  | transient | lasting | inconclusive
  deriving DecidableEq, Repr

/-- A CLT packet as it arrives (R328): its header quadwords H0 to H3, its extension E0 and E1, and its payload. -/
structure CltPkt where
  h0 : Word
  h1 : Word
  h2 : Word
  h3 : Word
  e0 : Word
  e1 : Word
  payload : List Byte
  deriving DecidableEq, Repr

/-- How a queued tile instruction ran (R75, R90): none where it ends, n where it has come as far as its first n stored
rows; and what the arrays report on one of its rows. -/
structure TileRun where
  rows : Option Nat := none
  found : Option (Nat × Finding) := none
  deriving DecidableEq, Repr

/-- VEXEC's displacement, and what the arrays report on the read of its descriptor. -/
structure DescRead where
  disp : Disp
  hit : Hit := none
  deriving DecidableEq, Repr

/-- The blocks of a mapped-out pseudo-channel that could not be corrected, and the cellar lines among them (R311). -/
structure PcLoss where
  bad : List Nat := []
  lines : List Nat := []
  deriving DecidableEq, Repr

/-- How many lanes the far end of a link takes, and whether it offers link-level retry (R314, R318). -/
structure FarEnd where
  lanes : Nat
  llr : Bool
  deriving DecidableEq, Repr

/-- The PTP messages of the delay request-response mechanism (R322). -/
inductive PtpKind where
  | sync | followUp | delayReq | delayResp
  deriving DecidableEq, Repr

/-- A PTP message: its kind, its sequence number, and the time that a general message carries. -/
structure PtpMsg where
  kind : PtpKind
  seq : Nat := 0
  time : Word := 0
  deriving DecidableEq, Repr

/-- What the bytes of a frame behind its headers hold. -/
inductive FrameBody where
  | clt (k : CltPkt)
  | ptp (m : PtpMsg)
  | bytes (bs : List Byte)
  deriving DecidableEq, Repr

/-- A received frame (R315, R317, R318): its length from the destination address through the FCS, its VLAN tags and
PCP, its EtherType and MAC control opcode, for an IP packet its DSCP and the destination port of its UDP header, its
number on a link that runs link-level retry, what it holds, and whether its FCS is good and its FEC codewords could
be corrected. -/
structure Frame where
  len : Nat
  body : FrameBody
  tags : Nat := 0
  pcp : Nat := 0
  etype : Nat := 0x0800
  opcode : Nat := 0
  dscp : Nat := 0
  udp : Option Nat := none
  num : Nat := 0
  fcs : Bool := true
  fec : Bool := true
  deriving DecidableEq, Repr

/-- An MCTP binding (R428): SMBus, or PCIe VDM on a host port. -/
inductive Binding where
  | smbus
  | vdm (h : HostPort)
  deriving DecidableEq, Repr

/-- The board configuration block as read at boot (R436): the PCIe vendor ID, subsystem vendor ID and subsystem ID, the
pairs, MCTP over VDM by host port, and whether the block's CRC-32C holds. -/
structure BoardCfg where
  vendor : BitVec 16
  subVendor : BitVec 16
  subId : BitVec 16
  pair01 : Bool
  pair23 : Bool
  vdm : BitVec 4
  crcOk : Bool
  deriving DecidableEq, Repr

/-- An image slot as read (R437, R438): its header, whether the SHA-384 of its key matches an intact fuse key, and
whether its signature verifies. -/
structure SlotImage where
  header : List Byte
  keyOk : Bool
  sigOk : Bool
  deriving DecidableEq, Repr

/-- Where a command packet comes from: a queue pair of a host port, or the management path (R352). -/
inductive CmdSrc where
  | qp (h : HostPort) (q : Fin 64)
  | mgmt
  deriving DecidableEq, Repr

/-- Who writes a register (R17, R447): a control core (768 is the maltster), or a host port through BAR0. -/
inductive Writer where
  | core (k : CoreId)
  | host (h : HostPort)
  deriving DecidableEq, Repr

/-! ### A schedule image as the firmware reads it (R377, R402)

The layout of the image is the toolchain's and no part of the specification, so SCHED_LOAD carries what
the firmware reads from it. -/

/-- The route program of a task: route words by index, the stream table and CORE_RTCTL.TMOEXP (R144). -/
structure RouteProg where
  words : List (BitVec 128) := []
  inj : List Word := []
  dlv : List Word := []
  tmoexp : Nat := 8
  deriving DecidableEq, Repr

/-- One task: its entry and the values of R183, its gate table and its route program. -/
structure TaskDef where
  entry : Word := 0
  tmode : Bool := false
  preciseM : Bool := false
  gtb : Nat := 0
  /-- CORE_DS0 to CORE_DS3 and CORE_RS0 to CORE_RS3 as register values -/
  ds : List Word := []
  rs : List Word := []
  vbase : List Word := []
  gates : List (Nat × BitVec 128) := []
  route : RouteProg := {}
  deriving DecidableEq, Repr

/-- A window of a core: slot, SP_WnA and SP_WnS values, resident or not, and the initial bytes of a
resident window (none: zero). In a variant, `moved` names the core and slot of the full schedule whose resident
window it holds (R411). -/
structure WinDef where
  core : Nat
  slot : Nat
  wordA : Word
  wordS : Word
  resident : Bool
  initial : Option (List Byte)
  moved : Option (Nat × Nat) := none
  deriving DecidableEq, Repr

/-- A live declaration of a task, at the launch boundary (point none) or at a yield point (R110, R126,
R377, R386): live tile registers and accumulators, carried scratchpad ranges (offset, bytes) and live
operand-cache ranges. -/
structure LiveDecl where
  task : Nat
  point : Option Nat
  tiles : List Nat := []
  accs : List Nat := []
  carried : List (Nat × Nat) := []
  opcache : List (Nat × Nat) := []
  deriving DecidableEq, Repr

/-- A variant (R377): its absent cluster, its tasks by core, its route programs by task and the windows
it places. -/
structure Variant where
  absent : Nat
  map : List (Nat × List Nat)
  routes : List (Nat × RouteProg) := []
  windows : List WinDef := []
  deriving DecidableEq, Repr

/-- A schedule image. `dma` lists, by cluster × 16 + channel, the virtual addresses of descriptor lists;
`paces` the DMA_CHnPACE values; `logged` the logged ranges of device memory (first line, lines) and
`loggedSp` those of scratchpads (core, offset, bytes); `content` the bytes that the firmware copies into the
system area, by physical address. -/
structure SchedImage where
  tasks : List TaskDef := []
  map : List (Nat × List Nat) := []
  variants : List Variant := []
  dma : List (Nat × List Nat) := []
  paces : List (Nat × Word) := []
  windows : List WinDef := []
  live : List LiveDecl := []
  logged : List (Nat × Nat) := []
  loggedSp : List (Nat × Nat × Nat) := []
  pages : List Page := []
  content : List (Nat × List Byte) := []
  yg : Nat := 0
  deriving DecidableEq, Repr

/-- The commands of the block: one constructor per row of the table of operations and events. -/
inductive Instr where
  /-- NOP (R197): Control-core instruction that does nothing. -/
  | nop (k : CoreId)
  /-- DROP (R197): Discards the top of the data stack. -/
  | drop (k : CoreId)
  /-- DUP (R197): Copies the top of the data stack. -/
  | dup (k : CoreId)
  /-- SWAP (R197): Exchanges the top two data-stack entries. -/
  | swap (k : CoreId)
  /-- OVER (R197): Copies the second data-stack entry to the top. -/
  | over (k : CoreId)
  /-- ROT (R197): Rotates the third data-stack entry to the top. -/
  | rot (k : CoreId)
  /-- NIP (R197): Discards the second data-stack entry. -/
  | nip (k : CoreId)
  /-- TUCK (R197): Copies the top below the second entry. -/
  | tuck (k : CoreId)
  /-- TWO_DROP (R197): 2DROP discards the top two entries. -/
  | twoDrop (k : CoreId)
  /-- TWO_DUP (R197): 2DUP copies the top two entries. -/
  | twoDup (k : CoreId)
  /-- PICK (R197): Copies entry n below the top, or raises STACK_UNDERFLOW. -/
  | pick (k : CoreId) (n : BitVec 8)
  /-- TO_R (R197): >R moves the top of the data stack to the return stack. -/
  | toR (k : CoreId)
  /-- FROM_R (R197): R> moves the top of the return stack to the data stack. -/
  | fromR (k : CoreId)
  /-- FETCH_R (R197): R@ copies the top of the return stack to the data stack. -/
  | fetchR (k : CoreId)
  /-- RDROP (R197): Discards the top of the return stack. -/
  | rdrop (k : CoreId)
  /-- LIT8 (R197): Pushes a sign-extended 8-bit immediate. -/
  | lit8 (k : CoreId) (v : BitVec 8)
  /-- LIT16 (R197): Pushes a sign-extended 16-bit immediate. -/
  | lit16 (k : CoreId) (v : BitVec 16)
  /-- LIT32 (R197): Pushes a sign-extended 32-bit immediate. -/
  | lit32 (k : CoreId) (v : BitVec 32)
  /-- LIT64 (R197): Pushes a 64-bit immediate. -/
  | lit64 (k : CoreId) (v : BitVec 64)
  /-- LITU32 (R197): Pushes a zero-extended 32-bit immediate. -/
  | litu32 (k : CoreId) (v : BitVec 32)
  /-- LEAPC (R197): Pushes the PC-relative target address. -/
  | leapc (k : CoreId) (rel : BitVec 32)
  /-- ADDI8 (R197): Adds a sign-extended 8-bit immediate to the top. -/
  | addi8 (k : CoreId) (v : BitVec 8)
  /-- ADDI32 (R197): Adds a sign-extended 32-bit immediate to the top. -/
  | addi32 (k : CoreId) (v : BitVec 32)
  /-- ADD (R197): Adds the top two entries modulo 2^64. -/
  | add (k : CoreId)
  /-- SUB (R197): Subtracts the top entry from the second modulo 2^64. -/
  | sub (k : CoreId)
  /-- MUL (R197): Pushes the low 64 bits of the product. -/
  | mul (k : CoreId)
  /-- MULHS (R197): Pushes the high 64 bits of the signed 128-bit product. -/
  | mulhs (k : CoreId)
  /-- MULHU (R197): Pushes the high 64 bits of the unsigned 128-bit product. -/
  | mulhu (k : CoreId)
  /-- DIVS (R198): Signed division truncated toward zero with defined results for zero and overflow. -/
  | divs (k : CoreId)
  /-- DIVU (R198): Unsigned division with a defined result for a zero divisor. -/
  | divu (k : CoreId)
  /-- REMS (R198): Signed remainder with the sign of the dividend. -/
  | rems (k : CoreId)
  /-- REMU (R198): Unsigned remainder with a defined result for a zero divisor. -/
  | remu (k : CoreId)
  /-- NEG (R197): Negates the top entry. -/
  | neg (k : CoreId)
  /-- ABS (R197): Pushes the absolute value of the top entry. -/
  | abs (k : CoreId)
  /-- MINS (R197): Signed minimum of the top two entries. -/
  | mins (k : CoreId)
  /-- MAXS (R197): Signed maximum of the top two entries. -/
  | maxs (k : CoreId)
  /-- MINU (R197): Unsigned minimum of the top two entries. -/
  | minu (k : CoreId)
  /-- MAXU (R197): Unsigned maximum of the top two entries. -/
  | maxu (k : CoreId)
  /-- AND (R197): Bitwise AND of the top two entries. -/
  | and (k : CoreId)
  /-- OR (R197): Bitwise OR of the top two entries. -/
  | or (k : CoreId)
  /-- XOR (R197): Bitwise XOR of the top two entries. -/
  | xor (k : CoreId)
  /-- NOT (R197): Bitwise complement of the top entry. -/
  | not (k : CoreId)
  /-- SHL (R197): Shifts left by n mod 64. -/
  | shl (k : CoreId)
  /-- SHR (R197): Logical shift right by n mod 64. -/
  | shr (k : CoreId)
  /-- SAR (R197): Arithmetic shift right by n mod 64. -/
  | sar (k : CoreId)
  /-- ROL (R197): Rotates left by n mod 64. -/
  | rol (k : CoreId)
  /-- ROR (R197): Rotates right by n mod 64. -/
  | ror (k : CoreId)
  /-- POPC (R197): Counts the one bits. -/
  | popc (k : CoreId)
  /-- CLZ (R197): Counts leading zeros. -/
  | clz (k : CoreId)
  /-- CTZ (R197): Counts trailing zeros. -/
  | ctz (k : CoreId)
  /-- SEXT8 (R197): Sign-extends bits 7:0. -/
  | sext8 (k : CoreId)
  /-- SEXT16 (R197): Sign-extends bits 15:0. -/
  | sext16 (k : CoreId)
  /-- SEXT32 (R197): Sign-extends bits 31:0. -/
  | sext32 (k : CoreId)
  /-- ZEXT32 (R197): Zero-extends bits 31:0. -/
  | zext32 (k : CoreId)
  /-- EQ (R197): Pushes 1 when x equals y. -/
  | eq (k : CoreId)
  /-- NE (R197): Pushes 1 when x differs from y. -/
  | ne (k : CoreId)
  /-- LTS (R197): Signed less-than comparison. -/
  | lts (k : CoreId)
  /-- LTU (R197): Unsigned less-than comparison. -/
  | ltu (k : CoreId)
  /-- LES (R197): Signed less-or-equal comparison. -/
  | les (k : CoreId)
  /-- LEU (R197): Unsigned less-or-equal comparison. -/
  | leu (k : CoreId)
  /-- GTS (R197): Signed greater-than comparison. -/
  | gts (k : CoreId)
  /-- GTU (R197): Unsigned greater-than comparison. -/
  | gtu (k : CoreId)
  /-- GES (R197): Signed greater-or-equal comparison. -/
  | ges (k : CoreId)
  /-- GEU (R197): Unsigned greater-or-equal comparison. -/
  | geu (k : CoreId)
  /-- ZEQ (R197): Pushes 1 when the top entry is zero. -/
  | zeq (k : CoreId)
  /-- SEL (R197): Selects x or y by flag f. -/
  | sel (k : CoreId)
  /-- BR8 (R199): Branches to an 8-bit relative target. -/
  | br8 (k : CoreId) (rel : BitVec 8)
  /-- BR32 (R199): Branches to a 32-bit relative target. -/
  | br32 (k : CoreId) (rel : BitVec 32)
  /-- BZ8 (R199): Branches on zero with an 8-bit offset. -/
  | bz8 (k : CoreId) (rel : BitVec 8)
  /-- BZ32 (R199): Branches on zero with a 32-bit offset. -/
  | bz32 (k : CoreId) (rel : BitVec 32)
  /-- BNZ8 (R199): Branches on nonzero with an 8-bit offset. -/
  | bnz8 (k : CoreId) (rel : BitVec 8)
  /-- BNZ32 (R199): Branches on nonzero with a 32-bit offset. -/
  | bnz32 (k : CoreId) (rel : BitVec 32)
  /-- DBNZ8 (R199): Decrements and branches while nonzero, 8-bit offset. -/
  | dbnz8 (k : CoreId) (rel : BitVec 8)
  /-- DBNZ32 (R199): Decrements and branches while nonzero, 32-bit offset. -/
  | dbnz32 (k : CoreId) (rel : BitVec 32)
  /-- CALL32 (R199): Pushes the return address and branches. -/
  | call32 (k : CoreId) (rel : BitVec 32)
  /-- CALLI (R199): Calls the address popped from the stack. -/
  | calli (k : CoreId)
  /-- RET (R199): Returns to the address on the return stack. -/
  | ret (k : CoreId)
  /-- JMPI (R199): Jumps to the address popped from the stack. -/
  | jmpi (k : CoreId)
  /-- LD8U (R199): Loads a zero-extended byte. -/
  | ld8u (k : CoreId) (d : Disp) (h : Finding)
  /-- LD8S (R199): Loads a sign-extended byte. -/
  | ld8s (k : CoreId) (d : Disp) (h : Finding)
  /-- LD16U (R199): Loads a zero-extended 16-bit value. -/
  | ld16u (k : CoreId) (d : Disp) (h : Finding)
  /-- LD16S (R199): Loads a sign-extended 16-bit value. -/
  | ld16s (k : CoreId) (d : Disp) (h : Finding)
  /-- LD32U (R199): Loads a zero-extended 32-bit value. -/
  | ld32u (k : CoreId) (d : Disp) (h : Finding)
  /-- LD32S (R199): Loads a sign-extended 32-bit value. -/
  | ld32s (k : CoreId) (d : Disp) (h : Finding)
  /-- LD64 (R199): Loads a 64-bit value. -/
  | ld64 (k : CoreId) (d : Disp) (h : Finding)
  /-- ST8 (R199): Stores the low byte of x. -/
  | st8 (k : CoreId) (d : Disp) (h : Finding)
  /-- ST16 (R199): Stores the low 2 bytes of x. -/
  | st16 (k : CoreId) (d : Disp) (h : Finding)
  /-- ST32 (R199): Stores the low 4 bytes of x. -/
  | st32 (k : CoreId) (d : Disp) (h : Finding)
  /-- ST64 (R199): Stores 8 bytes of x. -/
  | st64 (k : CoreId) (d : Disp) (h : Finding)
  /-- STI_Q (R199): STI.Q stores its 64-bit immediate. -/
  | stiQ (k : CoreId) (d : Disp) (v : BitVec 64) (h : Finding)
  /-- LEA (R199): Pushes the effective address without access. -/
  | lea (k : CoreId) (d : Disp)
  /-- UNDEFINED_OPCODE (R194): An undefined opcode or illegal encoding raises ILLEGAL_INSTRUCTION. -/
  | undefinedOpcode (k : CoreId) (bytes : List Byte)
  /-- TCFG (R73): Pops shape words and configures TU_SHAPEn all at once or raises TILE_CONFIG. -/
  | tcfg (k : CoreId) (mask : BitVec 8)
  /-- TLD (R78): Issues a tile load of rows into a tile register. -/
  | tld (k : CoreId) (t : Fin 8) (d : Disp) (shp : Option (BitVec 24))
  /-- TST (R78): Issues a tile store of rows from a tile register. -/
  | tst (k : CoreId) (t : Fin 8) (d : Disp) (shp : Option (BitVec 24))
  /-- TZERO (R86): Issues zeroing of a tile register or accumulator. -/
  | tzero (k : CoreId) (t : TZeroTarget)
  /-- TMMA (R80): Issues a tile product accumulated into an accumulator. -/
  | tmma (k : CoreId) (acc : Fin 2) (ta : Fin 8) (tb : Fin 8) (shp : Option (BitVec 24 × BitVec 24))
  /-- TSTA (R84): Issues read-out of an accumulator to memory. -/
  | tsta (k : CoreId) (acc : Fin 2) (d : Disp)
  /-- TCVA (R84): Issues read-out of an accumulator into a tile register. -/
  | tcva (k : CoreId) (td : Fin 8) (acc : Fin 2) (shp : Option (BitVec 24))
  /-- TSPILL (R86): Issues a raw store of an accumulator. -/
  | tspill (k : CoreId) (acc : Fin 2) (d : Disp)
  /-- TFILL (R86): Issues a raw load of an accumulator. -/
  | tfill (k : CoreId) (acc : Fin 2) (d : Disp)
  /-- TSYNC (R76): Waits until the tile queue is empty. -/
  | tsync (k : CoreId)
  /-- TILE_INSTRUCTION_COMPLETE (R75): A queued tile instruction completes and writes its registers, conditions and traps. -/
  | tileInstructionComplete (k : CoreId) (h : TileRun)
  /-- TILE_EXECUTION_FAULT (R88): A tile instruction stops on a row fault, LAYOUT or FILL fault and discards partial effects. -/
  | tileExecutionFault (k : CoreId)
  /-- VEXEC (R96): Copies and checks a vector operation descriptor and queues it. -/
  | vexec (k : CoreId) (d : DescRead)
  /-- VCACHE (R109): Checks and queues an operand-cache directive. -/
  | vcache (k : CoreId)
  /-- VSYNC (R95): Waits until every earlier vector instruction's outputs are in place. -/
  | vsync (k : CoreId)
  /-- VCACHE_FILL (R109): Copies bytes from memory into the operand cache. -/
  | vcacheFill (k : CoreId) (n : Nat) (h : Hit)
  /-- VCACHE_WBACK (R109): Copies bytes from the operand cache to memory. -/
  | vcacheWback (k : CoreId) (n : Nat) (h : Hit)
  /-- VCACHE_ZERO (R109): Sets operand-cache bytes to zero. -/
  | vcacheZero (k : CoreId) (n : Nat) (h : Hit)
  /-- V_CVT (R102): Vector conversion of S0 into D. -/
  | vCvt (k : CoreId) (n : Nat) (h : Hit)
  /-- V_ADD (R102): Vector element-wise a + b. -/
  | vAdd (k : CoreId) (n : Nat) (h : Hit)
  /-- V_SUB (R102): Vector element-wise a - b. -/
  | vSub (k : CoreId) (n : Nat) (h : Hit)
  /-- V_MUL (R102): Vector element-wise a × b. -/
  | vMul (k : CoreId) (n : Nat) (h : Hit)
  /-- V_FMA (R102): Vector element-wise a × b + c, rounded once. -/
  | vFma (k : CoreId) (n : Nat) (h : Hit)
  /-- V_AXPBY (R102): Vector element-wise a × b + c × e, rounded once. -/
  | vAxpby (k : CoreId) (n : Nat) (h : Hit)
  /-- V_MAX (R102): Vector element-wise maximum. -/
  | vMax (k : CoreId) (n : Nat) (h : Hit)
  /-- V_MIN (R102): Vector element-wise minimum. -/
  | vMin (k : CoreId) (n : Nat) (h : Hit)
  /-- V_ABS (R102): Vector element-wise absolute value. -/
  | vAbs (k : CoreId) (n : Nat) (h : Hit)
  /-- V_NEG (R102): Vector element-wise negation. -/
  | vNeg (k : CoreId) (n : Nat) (h : Hit)
  /-- V_SEL (R102): Vector element-wise selection by c. -/
  | vSel (k : CoreId) (n : Nat) (h : Hit)
  /-- V_DIV (R102): Vector element-wise division. -/
  | vDiv (k : CoreId) (n : Nat) (h : Hit)
  /-- V_SQRT (R102): Vector element-wise square root. -/
  | vSqrt (k : CoreId) (n : Nat) (h : Hit)
  /-- V_RSQRT (R102): Vector element-wise reciprocal square root. -/
  | vRsqrt (k : CoreId) (n : Nat) (h : Hit)
  /-- V_RCP (R102): Vector element-wise reciprocal. -/
  | vRcp (k : CoreId) (n : Nat) (h : Hit)
  /-- V_EXP2 (R102): Vector element-wise 2^a. -/
  | vExp2 (k : CoreId) (n : Nat) (h : Hit)
  /-- V_LOG2 (R102): Vector element-wise log2 a. -/
  | vLog2 (k : CoreId) (n : Nat) (h : Hit)
  /-- V_RSUM (R104): Vector reduction by exact sum. -/
  | vRsum (k : CoreId) (h : Hit)
  /-- V_RMAX (R104): Vector reduction by maximum. -/
  | vRmax (k : CoreId) (h : Hit)
  /-- V_RMIN (R104): Vector reduction by minimum. -/
  | vRmin (k : CoreId) (h : Hit)
  /-- V_RAMAX (R104): Vector reduction by maximum magnitude. -/
  | vRamax (k : CoreId) (h : Hit)
  /-- V_RSUMSQ (R104): Vector reduction by exact sum of squares. -/
  | vRsumsq (k : CoreId) (h : Hit)
  /-- V_SCAN (R105): Vector inclusive prefix sum. -/
  | vScan (k : CoreId) (h : Hit)
  /-- V_SCANX (R105): Vector exclusive prefix sum. -/
  | vScanx (k : CoreId) (h : Hit)
  /-- V_SCANMAX (R105): Vector inclusive prefix maximum. -/
  | vScanmax (k : CoreId) (h : Hit)
  /-- V_SCANXMAX (R105): Vector exclusive prefix maximum. -/
  | vScanxmax (k : CoreId) (h : Hit)
  /-- VECTOR_INSTRUCTION_COMPLETE (R113): A vector instruction completes and records conditions, DZ, NANF and traps. -/
  | vectorInstructionComplete (k : CoreId)
  /-- VECTOR_EXECUTION_FAULT (R112): A vector instruction meets a page, access, alignment or SEGLEN fault during execution. -/
  | vectorExecutionFault (k : CoreId)
  /-- DMAQ (R246): Queues a descriptor list on a DMA channel through the flag queue. -/
  | dmaq (k : CoreId) (c : Fin 16)
  /-- DMAW (R246): Waits until a DMA channel has no list outstanding. -/
  | dmaw (k : CoreId) (c : Fin 16)
  /-- ENGQ (R264): Submits an engine descriptor through the flag queue. -/
  | engq (k : CoreId) (e : EngKind)
  /-- ENGW (R264): Waits until an engine holds no descriptor of the core. -/
  | engw (k : CoreId) (e : EngKind)
  /-- FSET (R227): Sets a binary flag of the core. -/
  | fset (k : CoreId) (f : Fin 64)
  /-- FCLR (R227): Clears a binary flag of the core. -/
  | fclr (k : CoreId) (f : Fin 64)
  /-- FTEST (R227): Reads a binary flag of the core. -/
  | ftest (k : CoreId) (f : Fin 64)
  /-- FWAIT (R227): Waits until a binary flag is 1. -/
  | fwait (k : CoreId) (f : Fin 64)
  /-- FWATCH (R229): Arms interrupt 0x22 for a flag. -/
  | fwatch (k : CoreId) (f : Fin 64)
  /-- CFINC (R230): Increments a counted flag or raises FLAG_UNDERFLOW. -/
  | cfinc (k : CoreId) (c : Fin 16)
  /-- CFDEC (R230): Decrements a counted flag or raises FLAG_UNDERFLOW. -/
  | cfdec (k : CoreId) (c : Fin 16)
  /-- CFREAD (R230): Reads a counted flag. -/
  | cfread (k : CoreId) (c : Fin 16)
  /-- CFWAIT (R230): Waits until a counted flag reaches n. -/
  | cfwait (k : CoreId) (c : Fin 16)
  /-- FENCE_F (R236): Waits until earlier flag operations are performed and tests completed. -/
  | fenceF (k : CoreId)
  /-- RFSET (R232): Sets a remote binary or cluster flag named by a flag target word. -/
  | rfset (k : CoreId)
  /-- RCFINC (R232): Increments a remote counted flag. -/
  | rcfinc (k : CoreId)
  /-- RCFDEC (R232): Decrements a remote counted flag. -/
  | rcfdec (k : CoreId)
  /-- CLFSET (R227): Sets a cluster flag. -/
  | clfset (k : CoreId) (f : BitVec 8)
  /-- CLFCLR (R227): Clears a cluster flag. -/
  | clfclr (k : CoreId) (f : BitVec 8)
  /-- CLFTEST (R227): Reads a cluster flag. -/
  | clftest (k : CoreId) (f : BitVec 8)
  /-- CLFWAIT (R227): Waits until a cluster flag is 1. -/
  | clfwait (k : CoreId) (f : BitVec 8)
  /-- MBPOST (R240): Posts a notice on a mailbox channel after the flag queue drains. -/
  | mbpost (k : CoreId) (ch : BitVec 8)
  /-- MBPOLL (R241): Takes the oldest notice of a mailbox channel. -/
  | mbpoll (k : CoreId) (ch : BitVec 8)
  /-- DINV (R216): Invalidates the L1D line holding an address. -/
  | dinv (k : CoreId)
  /-- DINVA (R216): Invalidates all of L1D. -/
  | dinva (k : CoreId)
  /-- IINV (R216): Invalidates the L1I line holding an address. -/
  | iinv (k : CoreId)
  /-- IINVA (R216): Invalidates all of L1I. -/
  | iinva (k : CoreId)
  /-- L2FL (R216): Drains the merging-buffer entry of a line. -/
  | l2fl (k : CoreId)
  /-- L2FLA (R216): Drains the whole merging buffer. -/
  | l2fla (k : CoreId)
  /-- L2INV (R216): Drains then invalidates an L2 line. -/
  | l2inv (k : CoreId)
  /-- L2INVA (R216): Drains then invalidates the cluster's whole L2. -/
  | l2inva (k : CoreId)
  /-- MFENCE (R201): Waits until every earlier store of the core is in place. -/
  | mfence (k : CoreId)
  /-- TRAP (R170): Checks a gate and enters its handling ring. -/
  | trap (k : CoreId) (n : BitVec 8) (h : Ecc)
  /-- GRET (R174): Returns from a trap record and requeues frozen entries. -/
  | gret (k : CoreId) (n : Fin 8)
  /-- TEND (R201): Waits for all work and drained flag queue, then reports the task complete. -/
  | tend (k : CoreId)
  /-- WAITI (R202): Waits until an enabled interrupt is pending. -/
  | waiti (k : CoreId)
  /-- RDTIME (R201): Pushes GTIME. -/
  | rdtime (k : CoreId)
  /-- RDCYC (R201): Pushes CL cycles since task start. -/
  | rdcyc (k : CoreId)
  /-- RDDSP (R201): Pushes DSP. -/
  | rddsp (k : CoreId)
  /-- RDRSP (R201): Pushes RSP. -/
  | rdrsp (k : CoreId)
  /-- WAIT_CONDITION_MET (R233): A waiting instruction resumes after its condition becomes true. -/
  | waitConditionMet (k : CoreId)
  /-- EVENT_ENTRY (R171): At an instruction boundary the core takes a fault, trap or interrupt and enters the handling ring. -/
  | eventEntry (k : CoreId) (h : Ecc)
  /-- FLAG_QUEUE_PERFORM (R223): A flag-queue entry is performed once earlier writes of its stream are in place. -/
  | flagQueuePerform (k : CoreId)
  /-- FLAG_ARRIVAL (R234): Flag operations reaching one flag in a cycle are applied together. -/
  | flagArrival (t : FlagTarget) (n : Nat)
  /-- MERGE_DRAIN_START (R211): A merging-buffer entry starts to drain on a trigger or idle timeout. -/
  | mergeDrainStart (c : ClusterId) (line : Nat)
  /-- MERGE_ENTRY_IN_PLACE (R210): The HBM controller accepts a merging-buffer drain. -/
  | mergeEntryInPlace (c : ClusterId) (line : Nat)
  /-- SCRATCHPAD_REMOTE_WRITE (R130): A write by another master is window-checked when its first beat reaches the banks. -/
  | scratchpadRemoteWrite (k : CoreId) (h : Ecc)
  /-- SCRATCHPAD_SCRUB (R136): The background scrubber reads and corrects a scratchpad or tun entry. -/
  | scratchpadScrub (u : ScrubUnit) (off : Nat) (h : Ecc)
  /-- ROUTE_WINDOW_START (R148): A FWD window starts after the previous ends and its wait flag is 1. -/
  | routeWindowStart (k : CoreId)
  /-- ROUTE_BEAT (R148): A beat moves when inputs are present and outputs have credit. -/
  | routeBeat (k : CoreId) (h : Ecc) (x : List (MeshLink × Ecc))
  /-- ROUTE_WINDOW_END (R148): A window ends after all beats and MINCYC and performs its DONE action. -/
  | routeWindowEnd (k : CoreId)
  /-- STALL (R157): A window that neither moves a beat nor starts for the timeout raises a STALL route fault. -/
  | stall (k : CoreId)
  /-- DMA_DESCRIPTOR_FETCH (R247): A DMA channel fetches a burst of descriptors and checks them. -/
  | dmaDescriptorFetch (c : ClusterId) (ch : Fin 16) (h : Hit)
  /-- DMA_DESCRIPTOR_START (R254): A DMA descriptor starts once its dependence marks and pacing allow. -/
  | dmaDescriptorStart (c : ClusterId) (ch : Fin 16)
  /-- COPY (R251): DMA descriptor operation copying bytes. -/
  | copy (c : ClusterId) (ch : Fin 16) (nr nw : Nat) (h w : Hit)
  /-- DMA_FILL (R252): DMA descriptor operation writing a pattern. -/
  | dmaFill (c : ClusterId) (ch : Fin 16) (n : Nat) (w : Hit)
  /-- DMA_COMPARE (R253): DMA descriptor operation comparing byte ranges. -/
  | dmaCompare (c : ClusterId) (ch : Fin 16) (n : Nat) (h : Hit)
  /-- DMA_DESCRIPTOR_COMPLETE (R255): A descriptor's writes are in place and its DONE action and LEVEL update are performed. -/
  | dmaDescriptorComplete (c : ClusterId) (ch : Fin 16)
  /-- DMA_STALL (R255): An unsatisfied DMA wait times out as a mid-stream fault. -/
  | dmaStall (c : ClusterId) (ch : Fin 16)
  /-- MID_STREAM_FAULT (R260): A DMA mid-stream fault aborts the launch and stops every channel. -/
  | midStreamFault (c : ClusterId) (ch : Fin 16)
  /-- ENGINE_DESCRIPTOR_FETCH (R267): An engine fetches and checks a queued descriptor. -/
  | engineDescriptorFetch (c : ClusterId) (e : EngKind) (h : Hit)
  /-- ROWS (R273): Gather engine fills output rows by index. -/
  | rows (c : ClusterId) (h : Hit)
  /-- CASKS (R274): Gather engine fetches a sequence's data casks. -/
  | casks (c : ClusterId) (h : Hit)
  /-- SORT (R278): Select engine sorts keys per row. -/
  | sort (c : ClusterId) (h : Hit)
  /-- TOPK (R278): Select engine takes the top k keys per row. -/
  | topk (c : ClusterId) (h : Hit)
  /-- ROUTE (R278): Select engine routes tokens to experts with capacity. -/
  | route (c : ClusterId) (h : Hit)
  /-- SAMPLE (R281): Sampler draws one token per row of logits. -/
  | sample (c : ClusterId) (h : Hit)
  /-- CRC32C (R284): Fingerprint engine computes CRC-32C. -/
  | crc32c (c : ClusterId) (h : Hit)
  /-- FP64 (R285): Fingerprint engine computes the FP64 fingerprint. -/
  | fp64 (c : ClusterId) (h : Hit)
  /-- FP64RAW (R285): Fingerprint engine computes the raw word sum from I0. -/
  | fp64raw (c : ClusterId) (h : Hit)
  /-- ENGINE_DESCRIPTOR_COMPLETE (R265): An engine descriptor's writes are in place and its DONE action is performed. -/
  | engineDescriptorComplete (c : ClusterId) (e : EngKind)
  /-- MID_STREAM_ENGINE_FAULT (R268): An engine mid-stream fault aborts the launch. -/
  | midStreamEngineFault (c : ClusterId) (e : EngKind)
  /-- STEP_BOUNDARY (R294): The cask manager applies leaves, growth and joins and writes the step table. -/
  | stepBoundary (p : PartId)
  /-- PATROL_SCRUB (R304): A pseudo-channel scrubber reads its next block each period. -/
  | patrolScrub (pc : Fin 768) (e : Ecc)
  /-- PC_MAPOUT_COMPLETE (R310): Migration of a mapped-out pseudo-channel completes and held requests resume. -/
  | pcMapoutComplete (pc : Fin 768) (lost : PcLoss)
  /-- ZEROING_COMPLETE (R305): Device-memory zeroing of affected stacks ends. -/
  | zeroingComplete (z : Option PartId)
  /-- LANE_FAULT (R319): A lane fault takes the port down and starts the lane's kiln test. -/
  | laneFault (l : Fin 64)
  /-- LINK_UP (R319): Link training completes and the port carries traffic. -/
  | linkUp (port : Fin 64) (far : FarEnd)
  /-- FRAME_RECEIVED (R315): A port accepts or drops a received Ethernet frame and delivers it by kind. -/
  | frameReceived (port : Fin 64) (f : Frame) (excess : Bool)
  /-- PFC_FRAME (R317): A received PFC frame pauses or resumes a priority. -/
  | pfcFrame (port : Fin 64) (prio : Fin 8) (quanta : BitVec 16)
  /-- XOFF_REPEAT (R317): XOFF is sent again every 100 µs while the buffer stays high. -/
  | xoffRepeat (port : Fin 64) (prio : Fin 8)
  /-- PAUSE_EXPIRY (R317): A PFC pause expires and the priority resumes. -/
  | pauseExpiry (port : Fin 64) (prio : Fin 8)
  /-- XON (R317): The buffer falling to the XON threshold sends XON. -/
  | xon (port : Fin 64) (prio : Fin 8) (n : Nat)
  /-- REPLAY_REQUEST (R318): A link-level retry replay request makes the sender replay frames. -/
  | replayRequest (port : Fin 64) (start : Nat)
  /-- LLRFAIL (R318): A retry not completed within 20 µs is abandoned. -/
  | llrfail (port : Fin 64)
  /-- PTP_MESSAGE (R322): A timestamped PTP message reaches the maltster servo. -/
  | ptpMessage (port : Fin 64) (n : Nat) (inc : BitVec 40) (lock : Bool)
  /-- GTIME_TICK (R321): GTIME advances by INC each AO cycle. -/
  | gtimeTick
  /-- TIME_SKEW (R323): Offset beyond 500 ns or 4 s without Sync sets SKEW and reports TIME_SKEW. -/
  | timeSkew (offset : BitVec 64)
  /-- TIME_SKEW_CLEAR (R323): Offset within 250 ns for 1 s clears SKEW. -/
  | timeSkewClear (offset : BitVec 64)
  /-- WRITE (R334): A received CLT WRITE is checked and placed. -/
  | write (port : Fin 64) (k : CltPkt) (h : Hit)
  /-- ACCUM (R335): A received CLT ACCUM adds AFX128 elements into its target. -/
  | accum (port : Fin 64) (k : CltPkt) (h : Hit)
  /-- FLAG (R335): A received CLT FLAG is held until the cumulative PSN passes and then performed. -/
  | flag (port : Fin 64) (k : CltPkt)
  /-- CLT_MBPOST (R335): A received CLT MBPOST posts its notice after the cumulative PSN passes. -/
  | cltMbpost (port : Fin 64) (k : CltPkt)
  /-- ACK (R338): A received ACK marks PSNs acknowledged. -/
  | ack (port : Fin 64) (k : CltPkt)
  /-- NAK (R333): A received NAK refuses an operation finally or for epoch mismatch. -/
  | nak (port : Fin 64) (k : CltPkt)
  /-- HELLO (R330): A received HELLO is answered with HELLO_ACK and sets INC and compatibility. -/
  | hello (port : Fin 64) (k : CltPkt)
  /-- HELLO_ACK (R330): A received HELLO_ACK completes the handshake. -/
  | helloAck (port : Fin 64) (k : CltPkt)
  /-- MGMT (R329): A received MGMT packet is passed to the maltster firmware. -/
  | mgmt (port : Fin 64) (k : CltPkt)
  /-- PACKET_FLUSH_TIMEOUT (R327): A partly filled CLT packet is sent after 64 NP cycles without extension. -/
  | packetFlushTimeout (p : PartId) (ci : Fin 1024) (stream : BitVec 16)
  /-- ACK_TIMER (R338): The receiver sends an ACK 500 ns after the first unacknowledged arrival. -/
  | ackTimer (p : PartId) (ci : Fin 1024)
  /-- RETRANSMIT_TIMEOUT (R339): A packet's retransmit timer expires and it is sent again or given up. -/
  | retransmitTimeout (p : PartId) (ci : Fin 1024) (psn : BitVec 32)
  /-- HELLO_RETRY (R331): An unanswered HELLO is retried every 10 ms. -/
  | helloRetry (p : PartId) (ci : Fin 1024) (n : Fin 16)
  /-- SQ_DOORBELL (R350): The host writes HOST_QPqSQT with a new submission tail. -/
  | sqDoorbell (h : HostPort) (q : Fin 64) (idx : BitVec 12)
  /-- COMMAND_FETCH (R353): The device fetches a command packet and applies acceptance checks. -/
  | commandFetch (h : HostPort) (q : Fin 64) (pkt : Option (List Word))
  /-- CQ_HEAD_WRITE (R350): The host frees completion entries and held replies are written. -/
  | cqHeadWrite (h : HostPort) (q : Fin 64) (idx : BitVec 12)
  /-- QP_ENABLE (R349): Writing HOST_QPqSQ with EN enables a queue pair and resets indices. -/
  | qpEnable (h : HostPort) (q : Fin 64) (v : BitVec 64)
  /-- IN_PROGRESS (R358): A command without a final reply after 1 ms gets an IN_PROGRESS reply. -/
  | inProgress (src : CmdSrc) (tag : Nat)
  /-- BAR2_READ (R347): A host read through BAR2 of device virtual memory. -/
  | bar2Read (h : HostPort) (o : BitVec 40) (n : Fin 4096) (e : Hit)
  /-- BAR2_WRITE (R347): A host write through BAR2 of device virtual memory. -/
  | bar2Write (h : HostPort) (o : BitVec 40) (bs : List Byte) (e : Hit)
  /-- HOST_MBPOLL (R370): A read of HOST_MBPOLLch removes the oldest notice. -/
  | hostMbpoll (h : HostPort) (ch : BitVec 8)
  /-- HOST_MBPOST (R370): A write of HOST_MBPOSTch posts a notice behind earlier BAR2 writes. -/
  | hostMbpost (h : HostPort) (ch : BitVec 8) (notice : BitVec 32)
  /-- FLR (R371): A function-level reset disables the queue pairs and fails outstanding commands. -/
  | flr (h : HostPort)
  /-- PERST (R442): PERST_N low or hot reset resets one host port's link and function. -/
  | perst (h : HostPort) (hot : Bool)
  /-- QUERY_IDENTITY (R359): QUERY WHAT 0x00 returns part number, revision, COMPAT and node ID. -/
  | queryIdentity (src : CmdSrc) (tag : Nat)
  /-- QUERY_PARTITION (R359): QUERY WHAT 0x01 returns partition state. -/
  | queryPartition (src : CmdSrc) (tag : Nat)
  /-- QUERY_TAG (R359): QUERY WHAT 0x02 returns a tag's state. -/
  | queryTag (src : CmdSrc) (tag : Nat)
  /-- QUERY_MAPOUTS (R359): QUERY WHAT 0x03 returns mapped-out clusters, stacks and lanes. -/
  | queryMapouts (src : CmdSrc) (tag : Nat)
  /-- QPSET (R367): Stages a queue pair's RESV and QCLASS. -/
  | qpset (src : CmdSrc) (tag : Nat)
  /-- CASKPOOL (R367): Stages the cask pool settings. -/
  | caskpool (src : CmdSrc) (tag : Nat)
  /-- CONN (R367): Stages a CLT connection. -/
  | conn (src : CmdSrc) (tag : Nat)
  /-- PATH (R367): Stages a CLT path. -/
  | path (src : CmdSrc) (tag : Nat)
  /-- PGCFG (R367): Stages a port group's NET_CFG, NET_PFC and CLT_CFG. -/
  | pgcfg (src : CmdSrc) (tag : Nat)
  /-- NODEID (R367): Stages the device node ID. -/
  | nodeid (src : CmdSrc) (tag : Nat)
  /-- PCAP (R426): Stages the power cap. -/
  | pcap (src : CmdSrc) (tag : Nat)
  /-- CLDIV (R426): Stages a cluster's CFG divider. -/
  | cldiv (src : CmdSrc) (tag : Nat)
  /-- ALERTT (R426): Stages the thermal warning threshold. -/
  | alertt (src : CmdSrc) (tag : Nat)
  /-- CONFIG_COMMIT (R368): Applies the staging copy under a new epoch at the proper point. -/
  | configCommit (src : CmdSrc) (tag : Nat)
  /-- CONFIG_APPLY (R368): A pending commit is applied at a launch boundary, safe point or quiescence. -/
  | configApply (u : Option PartId)
  /-- CONFIG_QUIESCE_TIMEOUT (R368): A quiescent commit not applied within 1 s returns REJECT_BUSY. -/
  | configQuiesceTimeout (p : PartId)
  /-- SCHED_LOAD (R377): Checks and copies a schedule image into the system area. -/
  | schedLoad (src : CmdSrc) (tag : Nat) (im : SchedImage) (h : Hit)
  /-- SCHED_UNLOAD (R129): Unloads a schedule and zeroes its resident windows. -/
  | schedUnload (src : CmdSrc) (tag : Nat)
  /-- LAUNCH (R360): Queues a launch of a loaded schedule. -/
  | launch (src : CmdSrc) (tag : Nat)
  /-- CANCEL (R365): Cancels the outstanding command with a target tag. -/
  | cancel (src : CmdSrc) (tag : Nat)
  /-- DMA_COPY (R452): Command copying bytes across the partition's DMA engines. -/
  | dmaCopy (src : CmdSrc) (tag : Nat)
  /-- FILL (R452): Command filling a range with a pattern. -/
  | fill (src : CmdSrc) (tag : Nat)
  /-- COMPARE (R452): Command comparing two ranges. -/
  | compare (src : CmdSrc) (tag : Nat)
  /-- CASK_JOIN (R292): Queues a sequence join for the next step boundary. -/
  | caskJoin (src : CmdSrc) (tag : Nat)
  /-- CASK_LEAVE (R293): Queues a sequence leave for the next step boundary. -/
  | caskLeave (src : CmdSrc) (tag : Nat)
  /-- CASK_STEP (R22): Queues a generation step run as a launch. -/
  | caskStep (src : CmdSrc) (tag : Nat)
  /-- PART_CREATE (R372): Creates a partition from whole resources. -/
  | partCreate (src : CmdSrc) (tag : Nat)
  /-- PART_DESTROY (R371): Destroys a partition, waiting or forcing. -/
  | partDestroy (src : CmdSrc) (tag : Nat)
  /-- PART_DESTROY_TIMEOUT (R371): The 10 s wait for no running launch expires. -/
  | partDestroyTimeout (p : PartId)
  /-- TELEMETRY_TEMPERATURES (R425): TELEMETRY record set 0x01 copies temperatures. -/
  | telemetryTemperatures (src : CmdSrc) (tag : Nat)
  /-- TELEMETRY_POWER (R425): TELEMETRY record set 0x02 copies power records. -/
  | telemetryPower (src : CmdSrc) (tag : Nat)
  /-- TELEMETRY_CLOCKS (R425): TELEMETRY record set 0x03 copies cluster dividers. -/
  | telemetryClocks (src : CmdSrc) (tag : Nat)
  /-- TELEMETRY_ACCOUNTING (R388): TELEMETRY record set 0x20 copies queue-pair counters. -/
  | telemetryAccounting (src : CmdSrc) (tag : Nat)
  /-- TELEMETRY_ACCOUNTING_CLEAR (R388): TELEMETRY record set 0x21 copies and clears the counters. -/
  | telemetryAccountingClear (src : CmdSrc) (tag : Nat)
  /-- SELFTEST (R398): Runs the kiln test of a named unit and returns the result. -/
  | selftest (src : CmdSrc) (tag : Nat)
  /-- MAPOUT (R398): Performs the LASTING action on a named unit, or clears a lane. -/
  | mapout (src : CmdSrc) (tag : Nat)
  /-- ERRLOG_READ (R359): Copies error-log records. -/
  | errlogRead (src : CmdSrc) (tag : Nat)
  /-- LAUNCH_START (R378): The scheduler starts the next launch, fixing epoch and variant and clearing state. -/
  | launchStart (p : PartId)
  /-- TASK_START (R66): A core starts its next task in the task-start state. -/
  | taskStart (k : CoreId)
  /-- SWITCH_START (R382): A switch out starts once every core has parked at one yield point. -/
  | switchStart (p : PartId)
  /-- SWITCH_COMPLETE (R385): A switch finishes moving live state and the incoming launch runs. -/
  | switchComplete (p : PartId)
  /-- LAUNCH_COMMIT (R404): The maltster writes the commit record and the launch's report and reply. -/
  | launchCommit (p : PartId)
  /-- HW_ERROR_DETECTED (R390): A hardware error stops the partition's launch and writes a record. -/
  | hwErrorDetected (d : Option Detection)
  /-- CWDOG (R389): A core that fails to stop within 2 µs is detected. -/
  | cwdog (k : CoreId)
  /-- KILN_TEST_RESULT (R396): A kiln test ends TRANSIENT, LASTING or INCONCLUSIVE and its action is selected. -/
  | kilnTestResult (u : Option PartId) (r : KilnRes) (ktime : Nat) (lost : List (Nat × Nat))
  /-- KILN_BUDGET_EXPIRY (R396): A kiln test reaching its budget stops as INCONCLUSIVE. -/
  | kilnBudgetExpiry (u : Option PartId)
  /-- ROLLBACK_COMPLETE (R406): Rollback restores every logged line from the cellar. -/
  | rollbackComplete (p : PartId) (bad : List Nat)
  /-- REPITCH (R408): The rolled-back launch starts again with the same tag, epoch and seeds. -/
  | repitch (p : PartId)
  /-- CLUSTER_MAPOUT (R410): A cluster is gated, marked absent and its variant's windows prepared. -/
  | clusterMapout (c : ClusterId) (lost : List (Nat × Nat))
  /-- DROOP (R418): A supply droop stretches CL cycles and counts the event. -/
  | droop (c : ClusterId)
  /-- PLL_LOSS_OF_LOCK (R416): The root PLL loses lock and raises the CLOCK detection. -/
  | pllLossOfLock
  /-- RAIL_OUT_OF_RANGE (R389): A rail outside its range raises the POWER detection. -/
  | railOutOfRange (r : Fin 9)
  /-- CAP_LOOP_SAMPLE (R421): Every 10 µs the cap loop compares power with the cap and adjusts L. -/
  | capLoopSample (rails : List (BitVec 16 × BitVec 16 × BitVec 16))
  /-- THERMAL_SAMPLE (R423): Every 10 µs diodes are read and THERM raised or ALERT_N asserted. -/
  | thermalSample (diodes : List (BitVec 16)) (hbmT : List (BitVec 16))
  /-- THERM_STEP_TIMER (R423): THERM rises again after 100 µs or falls after 1 ms of cool readings. -/
  | thermStepTimer (c : ClusterId)
  /-- RAIL_SETTLED (R419): VDD_CL settles after a raise and the faster divider takes effect. -/
  | railSettled
  /-- RAIL_LOWER_TIMER (R419): The rail is lowered 100 µs after a slow-down. -/
  | railLowerTimer
  /-- PWRGOOD_FALL (R431): PWRGOOD low places the device in cold reset. -/
  | pwrgoodFall
  /-- PWRGOOD_RISE (R431): Cold reset ends, straps are sampled and boot begins. -/
  | pwrgoodRise (lowLong : Bool) (bootsel : BitVec 2) (smb : BitVec 3)
  /-- WARM_RST_N (R442): WARM_RST_N held low starts a warm reset. -/
  | warmRstN
  /-- PLL_LOCK (R416): The root PLL locks and AO and DB change to the divided clock. -/
  | pllLock
  /-- PLL_LOCK_TIMEOUT (R439): The root PLL not locked within 1 ms stops the boot. -/
  | pllLockTimeout
  /-- AVS_TIMEOUT (R439): AVSBus not answering within 10 ms stops the boot. -/
  | avsTimeout
  /-- IMAGE_VERIFY (R438): The boot ROM reads, hashes and checks a firmware slot. -/
  | imageVerify (d0 d1 : List Byte) (board : BoardCfg) (a b : SlotImage)
  /-- HBM_TRAINING_DONE (R440): An HBM training attempt ends, succeeding or mapping out the stack. -/
  | hbmTrainingDone (n : StackId) (ok : Bool)
  /-- SERDES_CALIBRATION_DONE (R440): SerDes lane calibration completes. -/
  | serdesCalibrationDone (failed : BitVec 64)
  /-- READY (R440): The firmware locks the binding table and releases READY. -/
  | ready (binds : List (BitVec 64))
  /-- SET_ENDPOINT_ID (R428): MCTP Set Endpoint ID assigns the EID. -/
  | setEndpointId (b : Binding) (eid : BitVec 8)
  /-- MCTP_VENDOR_MESSAGE (R428): A vendor-defined MCTP message carries a management command packet. -/
  | mctpVendorMessage (b : Binding) (vendor : BitVec 16) (kind : BitVec 8) (packet : List Word)
  /-- GETTID (R427): PLDM GetTID. -/
  | gettid (b : Binding)
  /-- GETPDRREPOSITORYINFO (R427): PLDM GetPDRRepositoryInfo. -/
  | getpdrrepositoryinfo (b : Binding)
  /-- GETPDR (R427): PLDM GetPDR. -/
  | getpdr (b : Binding) (handle : BitVec 32)
  /-- GETSENSORREADING (R427): PLDM GetSensorReading. -/
  | getsensorreading (b : Binding) (id : BitVec 16)
  /-- GETSTATESENSORREADINGS (R427): PLDM GetStateSensorReadings. -/
  | getstatesensorreadings (b : Binding) (id : BitVec 16)
  /-- SETNUMERICEFFECTERVALUE (R427): PLDM SetNumericEffecterValue sets the power cap. -/
  | setnumericeffectervalue (b : Binding) (id : BitVec 16) (v : BitVec 32)
  /-- GETNUMERICEFFECTERVALUE (R427): PLDM GetNumericEffecterValue. -/
  | getnumericeffectervalue (b : Binding) (id : BitVec 16)
  /-- PLATFORMEVENTMESSAGE (R427): PLDM PlatformEventMessage polling. -/
  | platformeventmessage (b : Binding)
  /-- QUERYDEVICEIDENTIFIERS (R444): PLDM firmware update QueryDeviceIdentifiers. -/
  | querydeviceidentifiers (b : Binding)
  /-- GETFIRMWAREPARAMETERS (R444): PLDM GetFirmwareParameters. -/
  | getfirmwareparameters (b : Binding)
  /-- REQUESTUPDATE (R444): PLDM RequestUpdate enters update mode. -/
  | requestupdate (b : Binding) (d0 d1 : List Byte)
  /-- PASSCOMPONENTTABLE (R444): PLDM PassComponentTable. -/
  | passcomponenttable (b : Binding) (id : BitVec 16)
  /-- UPDATECOMPONENT (R444): PLDM UpdateComponent. -/
  | updatecomponent (b : Binding) (id : BitVec 16) (size : BitVec 32)
  /-- REQUESTFIRMWAREDATA (R444): PLDM RequestFirmwareData response writes image data to the inactive slot. -/
  | requestfirmwaredata (b : Binding) (off : BitVec 32) (bytes : List Byte)
  /-- TRANSFERCOMPLETE (R444): PLDM TransferComplete. -/
  | transfercomplete (b : Binding)
  /-- VERIFYCOMPLETE (R444): PLDM VerifyComplete after verifying the new image. -/
  | verifycomplete (b : Binding) (img : SlotImage)
  /-- APPLYCOMPLETE (R444): PLDM ApplyComplete after rewriting the older directory copy. -/
  | applycomplete (b : Binding)
  /-- ACTIVATEFIRMWARE (R444): PLDM ActivateFirmware reports no self-contained activation. -/
  | activatefirmware (b : Binding) (self : Bool)
  /-- GETSTATUS (R444): PLDM GetStatus. -/
  | getstatus (b : Binding)
  /-- CANCELUPDATE (R444): PLDM CancelUpdate leaves the directory unchanged. -/
  | cancelupdate (b : Binding)
  /-- EXTEST (R446): JTAG EXTEST, in TEST mode only. -/
  | extest
  /-- IDCODE (R446): JTAG IDCODE. -/
  | idcode
  /-- SAMPLE_PRELOAD (R446): JTAG SAMPLE/PRELOAD. -/
  | samplePreload
  /-- EXTEST_PULSE (R446): JTAG EXTEST_PULSE, in TEST mode only. -/
  | extestPulse
  /-- EXTEST_TRAIN (R446): JTAG EXTEST_TRAIN, in TEST mode only. -/
  | extestTrain
  /-- BYPASS (R446): JTAG BYPASS. -/
  | bypass
  /-- TU_CTL_DROP (R89): Writing 1 to TU_CTL.DROP discards frozen tile entries. -/
  | tuCtlDrop (m : Writer) (k : Fin 768) (v : Word)
  /-- VSU_CTL_DROP (R111): Writing 1 to VSU_CTL.DROP discards frozen vector entries. -/
  | vsuCtlDrop (m : Writer) (k : Fin 768) (v : Word)
  /-- CLRREJ (R134): Writing SP_CTL.CLRREJ clears SP_REJA and the rejection count. -/
  | clrrej (m : Writer) (k : Fin 768) (v : Word)
  /-- CORE_ISET (R179): Writing CORE_ISET sets software interrupt pending bits. -/
  | coreIset (m : Writer) (k : Fin 768) (v : Word)
  /-- PRECISE (R181): A write changing CORE_CFG.PRECISE completes after the unit queues empty. -/
  | precise (m : Writer) (k : Fin 768) (v : Word)
  /-- L2_DISABLE (R217): Writing L2_CTL.EN 0 drains and invalidates L2. -/
  | l2Disable (m : Writer) (c : ClusterId) (v : Word)
  /-- L2_WAYPWR (R218): Writing L2_WAYPWR gates or restores L2 ways. -/
  | l2Waypwr (m : Writer) (c : ClusterId) (v : Word)
  /-- L2_LOCK (R219): Writing L2_LOCK locks or unlocks a range in L2 ways. -/
  | l2Lock (m : Writer) (c : ClusterId) (v : Word)
  /-- L2_MAINTENANCE_DONE (R219): A lock fill, disable or way power-down completes. -/
  | l2MaintenanceDone (c : ClusterId)
  /-- DMA_CHNPOP (R257): Writing DMA_CHnPOP lowers LEVEL and may release a held channel. -/
  | dmaChnpop (m : Writer) (c : ClusterId) (ch : Fin 16) (n : BitVec 16)
  /-- DMA_MISM_CLEAR (R253): Clearing DMA_CHnCMP.MISM also zeroes NMIS and CMPA. -/
  | dmaMismClear (m : Writer) (c : ClusterId) (ch : Fin 16)
  /-- FPR_MISM_CLEAR (R286): Clearing FPR_STATUS.MISM also zeroes NMIS and FDESC. -/
  | fprMismClear (m : Writer) (c : ClusterId) (v : Word)
  /-- MBX_CTL_LOCK (R238): Writing MBX_CTL.LOCK locks the binding table until cold reset. -/
  | mbxCtlLock (m : Writer)
  /-- CLK_GTIME (R322): Writing CLK_GTIME steps GTIME. -/
  | clkGtime (m : Writer) (v : Word)
  /-- PWR_CAP (R420): Writing PWR_CAP sets the power cap. -/
  | pwrCap (m : Writer) (v : Word)
  /-- BOOT_CTL_WARM (R442): Writing BOOT_CTL.WARM starts a warm reset. -/
  | bootCtlWarm (m : Writer)
  /-- REGISTER_WRITE (R5): A write to a register without a row of its own, by access code, with reserved encodings setting CFG_ERR. -/
  | registerWrite (m : Writer) (pa : BitVec 48) (v : Word)
  /-- HOST_PORT_LINK_UP (R239): A host port's PCIe link finishes training and comes up, so mailbox posts to it are no longer refused OFF. -/
  | hostPortLinkUp (h : HostPort)
  /-- HOST_PORT_LINK_DOWN (R239): A host port's PCIe link goes down at the partner's side, so posts to it fail OFF. -/
  | hostPortLinkDown (h : HostPort)
  /-- PERST_N_RISE (R440): PERST_N rising starts the host port's link training within 1 ms. -/
  | perstNRise (h : HostPort)
  /-- CONFIGURATION_REQUEST (R440): A PCIe configuration request reaches a host port, which answers Request Retry Status until READY. -/
  | configurationRequest (h : HostPort) (off : BitVec 12)
  /-- COLD_RESET_HOLD_EXPIRY (R431): When PWRGOOD rose early, cold reset ends once PWRGOOD has been low for 1 ms. -/
  | coldResetHoldExpiry (bootsel : BitVec 2) (smb : BitVec 3)
  /-- SUPPLY_RECOVERY (R418): VDD_CL recovers above the droop threshold and the cluster stops stretching CL cycles. -/
  | supplyRecovery (c : ClusterId)
  /-- NEGOTIATE (R319): The far end refuses the narrower rate in auto-negotiation; the port stays down and LINK_DOWN with cause NEGOTIATE is reported. -/
  | negotiate (port : Fin 64)
  /-- TAP_RESET (R446): A TAP reset through TRST_N or TMS selects IDCODE. -/
  | tapReset
  deriving DecidableEq, Repr

end Sys2Proof
end

