-- ==== Sys2Proof/Decode.lean ====
section
/-!
DEFINITION. The words of the table: no row of the block's table gives its command any bits, so no word
spells a command (the commands stand in the queue as terms).
-/
namespace Sys2Proof

/-- The command a word of the table spells: none. [log 1: DESIGN CHOICE] -/
def decodeTableWord (_nbits _w : Nat) : Option Instr := none

end Sys2Proof
end

