-- ==== Sys2Proof/Config.lean ====
section
/-!
DEFINITION. The free values of the model: what the specification leaves open. Each is an opaque constant
without a body, so that no proof can see what it is.
-/
namespace Sys2Proof.Config

/-- A value the specification does not give, fresh for each value of the state's counter. [log 6: DESIGN CHOICE] -/
opaque freeWord : Nat → Word

/-- Whether a host's memory answers at a bus address of a port. [log 11: DESIGN CHOICE] -/
opaque hostReachable : Nat → Nat → Bool

/-- Where the PCIe, MSI-X and AER capabilities lie in a port's configuration space. [log 115: DESIGN CHOICE] -/
opaque pcieCap : Nat
opaque msixCap : Nat
opaque aerCap : Nat

/-- Whether the equal parts of a DMA command are rounded up to whole granules, or down (R452 does not say). [log 67: DESIGN CHOICE] -/
opaque partsRoundUp : Bool

/-- Which parity errors the n-th fetch of an instruction line meets: bit 0 in the L1I line it hits, bit 1 in the L2
line. Instructions carry no report of their own fetch. [log 126: DESIGN CHOICE] -/
opaque fetchParity : Nat → BitVec 2

end Sys2Proof.Config
end

