-- ==== Sys2Proof/Machine/Number.lean ====
section
/-!
DEFINITION. The thirteen number formats, their exact values and the one conversion procedure
(spec 02, R25 to R48). A value is an exact real number, a signed zero, a signed infinity or NaN; a
conversion rounds it once. Results that are no dyadic numbers (quotients, roots, powers of two,
logarithms, exponentials) are kept symbolically and rounded from a bracket of the exact real number.
-/
namespace Sys2Proof.Machine

/-- The formats of R25, in the order of their codes 0x0 to 0xC. -/
inductive Fmt where
  | fp32 | fp16 | bf16 | e4m3 | e5m2 | e3m2 | e2m3 | e2m1 | int8 | int4 | int32 | e8m0 | afx128
  deriving DecidableEq, Repr

/-- The format a 4-bit code names (R25); 0xD to 0xF are reserved. -/
def Fmt.ofCode : Nat → Option Fmt
  | 0 => some .fp32 | 1 => some .fp16 | 2 => some .bf16 | 3 => some .e4m3 | 4 => some .e5m2
  | 5 => some .e3m2 | 6 => some .e2m3 | 7 => some .e2m1 | 8 => some .int8 | 9 => some .int4
  | 10 => some .int32 | 11 => some .e8m0 | 12 => some .afx128
  | _ => none

/-- Storage width in bits (R25). -/
def Fmt.width : Fmt → Nat
  | .fp32 | .int32 => 32
  | .fp16 | .bf16 => 16
  | .e4m3 | .e5m2 | .int8 | .e8m0 => 8
  | .e3m2 | .e2m3 => 6
  | .e2m1 | .int4 => 4
  | .afx128 => 128

/-- The rounding modes of R26. -/
inductive RMode where
  | rne | rtz | rup | rdn | srd
  deriving DecidableEq, Repr

/-- The mode an RM field names (R26); 0b101 to 0b111 are reserved. -/
def RMode.ofCode : Nat → Option RMode
  | 0 => some .rne | 1 => some .rtz | 2 => some .rup | 3 => some .rdn | 4 => some .srd
  | _ => none

/-- The parameters of a floating-point format (R28). `nL` is the scaled magnitude of the largest
finite value in its binade, `inf` says that the format has infinities, `nan` is its canonical NaN. -/
structure FpParams where
  ebits : Nat
  mbits : Nat
  bias : Nat
  emin : Int
  emax : Int
  nL : Nat
  inf : Bool
  nan : Option Nat
  deriving DecidableEq, Repr

/-- R28, one row per floating-point format. -/
def Fmt.fp : Fmt → Option FpParams
  | .fp32 => some ⟨8, 23, 127, -126, 127, 2 ^ 24 - 1, true, some 0x7FC00000⟩
  | .fp16 => some ⟨5, 10, 15, -14, 15, 2 ^ 11 - 1, true, some 0x7E00⟩
  | .bf16 => some ⟨8, 7, 127, -126, 127, 2 ^ 8 - 1, true, some 0x7FC0⟩
  | .e4m3 => some ⟨4, 3, 7, -6, 8, 14, false, some 0x7F⟩
  | .e5m2 => some ⟨5, 2, 15, -14, 15, 7, true, some 0x7E⟩
  | .e3m2 => some ⟨3, 2, 3, -2, 4, 7, false, none⟩
  | .e2m3 => some ⟨2, 3, 1, 0, 2, 15, false, none⟩
  | .e2m1 => some ⟨2, 1, 1, 0, 2, 3, false, none⟩
  | _ => none

/-- The sticky conditions of R47 and the vector unit's own DZ (R103). -/
structure Conds where
  nx : Bool := false
  uf : Bool := false
  of : Bool := false
  nv : Bool := false
  dz : Bool := false
  deriving DecidableEq, Repr

/-- Conditions are sticky: they are ORed together. -/
def Conds.or (a b : Conds) : Conds :=
  { nx := a.nx || b.nx, uf := a.uf || b.uf, of := a.of || b.of, nv := a.nv || b.nv, dz := a.dz || b.dz }

/-- A dyadic number m · 2^e. Every code of every format decodes to one (R27, R31, R32, R33). -/
structure Dy where
  m : Int
  e : Int
  deriving DecidableEq, Repr

/-- `a` scaled down to exponent `e ≤ a.e`. -/
def Dy.at (a : Dy) (e : Int) : Int := a.m * 2 ^ (a.e - e).toNat

def Dy.add (a b : Dy) : Dy :=
  let e := min a.e b.e
  ⟨a.at e + b.at e, e⟩

def Dy.neg (a : Dy) : Dy := ⟨-a.m, a.e⟩
def Dy.mul (a b : Dy) : Dy := ⟨a.m * b.m, a.e + b.e⟩
def Dy.lt (a b : Dy) : Bool := let e := min a.e b.e; a.at e < b.at e
def Dy.isZero (a : Dy) : Bool := a.m == 0

/-- ⌊log₂ |a|⌋ for a ≠ 0. -/
def Dy.ilog (a : Dy) : Int := (log2 a.m.natAbs : Int) + a.e

/-- An exact value (R37): NaN with its sign, a signed infinity, a signed zero, or a nonzero number. -/
inductive Val where
  | nan (neg : Bool)
  | inf (neg : Bool)
  | zero (neg : Bool)
  | fin (d : Dy)
  deriving DecidableEq, Repr

/-- A dyadic number as a value; an exact zero is +0. -/
def Val.ofDy (d : Dy) : Val := if d.m = 0 then .zero false else .fin d

def Val.isNan : Val → Bool | .nan _ => true | _ => false
def Val.isInf : Val → Bool | .inf _ => true | _ => false
def Val.neg : Val → Bool
  | .nan n | .inf n | .zero n => n
  | .fin d => d.m < 0

/-- The number a finite value denotes (0 for a zero, a NaN or an infinity). -/
def Val.dy : Val → Dy
  | .fin d => d
  | _ => ⟨0, 0⟩

/-- The value with its sign inverted. -/
def Val.flip : Val → Val
  | .nan n => .nan !n
  | .inf n => .inf !n
  | .zero n => .zero !n
  | .fin d => .fin d.neg

/-- The value of a floating-point code (R27, with the NaN and infinity codes of R28). -/
def decodeFp (p : FpParams) (c : Nat) : Val :=
  let m := c % 2 ^ p.mbits
  let e := (c / 2 ^ p.mbits) % 2 ^ p.ebits
  let s : Bool := (c / 2 ^ (p.mbits + p.ebits)) % 2 == 1
  let top : Bool := e == 2 ^ p.ebits - 1
  if p.inf && top then (if m = 0 then .inf s else .nan s)
  else if p.nan.isSome && top && (m == 2 ^ p.mbits - 1) then .nan s
  else
    let n : Nat := if e = 0 then m else 2 ^ p.mbits + m
    let x : Int := if e = 0 then 1 - (p.bias : Int) else (e : Int) - p.bias
    if n = 0 then .zero s
    else .fin ⟨if s then -(n : Int) else n, x - p.mbits⟩

/-- The exact value of a code (R27, R31, R32, R33); `anchor` is used by AFX128 only. -/
def decodeCode (f : Fmt) (anchor : Int) (c : Nat) : Val :=
  match f with
  | .int8 => Val.ofDy ⟨signedOf 8 c, 0⟩
  | .int4 => Val.ofDy ⟨signedOf 4 c, 0⟩
  | .int32 => Val.ofDy ⟨signedOf 32 c, 0⟩
  | .e8m0 => if c % 256 = 255 then .nan false else .fin ⟨1, (c % 256 : Nat) - 127⟩
  | .afx128 => Val.ofDy ⟨signedOf 128 c, anchor⟩
  | .fp32 | .fp16 | .bf16 | .e4m3 | .e5m2 | .e3m2 | .e2m3 | .e2m1 =>
    match f.fp with
    | some p => decodeFp p c
    | none => .zero false

/-! ### Magnitudes that need not be dyadic -/

/-- A positive real magnitude, kept exactly: n/d·2^e, √(n/d·2^e), 2^(m·2^e) with a broken exponent,
|log₂(n·2^e)| for a number that is no power of two, or exp(−n·2^e). -/
inductive Mag where
  | quot (n d : Nat) (e : Int)
  | root (n d : Nat) (e : Int)
  | pow2 (m : Int) (e : Int)
  | lg (n : Nat) (e : Int)
  | expn (n : Nat) (e : Int)
  deriving DecidableEq, Repr

/-- ⌊√n⌋, found bit by bit from 2^k down. -/
def isqrtGo (n : Nat) : Nat → Nat → Nat
  | 0, r => if (r + 1) * (r + 1) ≤ n then r + 1 else r
  | k + 1, r => let t := r + 2 ^ (k + 1); isqrtGo n k (if t * t ≤ n then t else r)

/-- ⌊√n⌋. -/
def isqrt (n : Nat) : Nat := isqrtGo n (log2 n / 2 + 1) 0

/-- ⌊n/d·2^p⌋ and whether anything was cut off. -/
def floorQuot (n d : Nat) (p : Int) : Nat × Bool :=
  let a := n * 2 ^ p.toNat
  let b := d * 2 ^ (-p).toNat
  (a / b, a % b != 0)

/-- Bounds of 2^(f/2^j) · 2^w for 0 ≤ f < 2^j: the product of the square roots that the bits of f name. -/
def pow2Bracket (w : Nat) : Nat → Nat → Nat → Nat → Nat → Nat → Nat × Nat
  | 0, _, _, _, lo, hi => (lo, hi)
  | j + 1, f, rlo, rhi, lo, hi =>
    let rlo' := isqrt (rlo * 2 ^ w)
    let rhi' := isqrt (rhi * 2 ^ w) + 1
    if f / 2 ^ j % 2 = 1 then
      pow2Bracket w j f rlo' rhi' (lo * rlo' / 2 ^ w) (hi * rhi' / 2 ^ w + 1)
    else pow2Bracket w j f rlo' rhi' lo hi

/-- ⌊2^(f/2^j) · 2^p⌋, at growing working precision until both bounds agree. -/
def pow2Floor (f j p : Nat) : Nat → Nat → Nat
  | 0, g =>
    let w := p + g
    (pow2Bracket w j f (2 * 2 ^ w) (2 * 2 ^ w) (2 ^ w) (2 ^ w)).1 / 2 ^ g
  | fuel + 1, g =>
    let w := p + g
    let b := pow2Bracket w j f (2 * 2 ^ w) (2 * 2 ^ w) (2 ^ w) (2 ^ w)
    if b.1 / 2 ^ g = b.2 / 2 ^ g then b.1 / 2 ^ g else pow2Floor f j p fuel (4 * g)

/-- The first `p` binary digits of log₂ of a number in [1, 2) held as bounds scaled by 2^w, most
significant first in the accumulator; none when the bounds no longer decide a digit. -/
def lgDigits (w : Nat) : Nat → Nat → Nat → Nat → Option Nat
  | 0, _, _, acc => some acc
  | p + 1, lo, hi, acc =>
    let lo2 := lo * lo / 2 ^ w
    let hi2 := hi * hi / 2 ^ w + 1
    if 2 * 2 ^ w ≤ lo2 then lgDigits w p (lo2 / 2) (hi2 / 2 + 1) (2 * acc + 1)
    else if hi2 < 2 * 2 ^ w then lgDigits w p lo2 hi2 (2 * acc)
    else none

/-- ⌊log₂(n/2^k) · 2^p⌋ for 2^k < n < 2^(k+1). -/
def lgFloor (n k p : Nat) : Nat → Nat → Nat
  | 0, _ => 0
  | fuel + 1, g =>
    let w := 2 * p + g + k
    match lgDigits w p (n * 2 ^ (w - k)) (n * 2 ^ (w - k)) 0 with
    | some d => d
    | none => lgFloor n k p fuel (4 * g)

/-- Bounds of exp(x) · 2^w by its power series, x = a/2^w < 1: term, sum and index. -/
def expSeries (w a : Nat) : Nat → Nat → Nat → Nat → Nat
  | 0, _, _, s => s
  | k + 1, i, t, s => let t' := t * a / 2 ^ w / i; expSeries w a k (i + 1) t' (s + t')

/-- `s` squared `t` times at scale 2^w, rounding down (`up = 0`) or up (`up = 1`). -/
def squareTimes (w up : Nat) : Nat → Nat → Nat
  | 0, s => s
  | t + 1, s => squareTimes w up t (s * s / 2 ^ w + up)

/-- ⌊exp(−n·2^e) · 2^p⌋ at growing working precision; a magnitude of 256 or more gives 0. -/
def expnFloor (n : Nat) (e : Int) (p : Nat) : Nat → Nat → Nat
  | fuel, g =>
    let w := p + g + 400
    let x := (floorQuot n 1 (e + w - 9)).1            -- n·2^e/2^9 · 2^w, rounded down
    if 2 ^ (w - 1) ≤ x then 0
    else
      let k := w
      let lo := expSeries w x k 1 (2 ^ w) (2 ^ w)
      let hi := expSeries w (x + 1) k 1 (2 ^ w) (2 ^ w) + 2 * k + 2
      let a := 2 ^ (p + w) / squareTimes w 1 9 hi
      let b := 2 ^ (p + w) / squareTimes w 0 9 lo
      match fuel with
      | 0 => a
      | fuel' + 1 => if a = b then a else expnFloor n e p fuel' (4 * g)

/-- ⌊x · 2^p⌋ and whether anything was cut off. [log 42: DEDUCED] -/
def Mag.floorAt (x : Mag) (p : Int) : Nat × Bool :=
  match x with
  | .quot n d e => floorQuot n d (e + p)
  | .root n d e =>
    let q := floorQuot n d (e + 2 * p)
    let r := isqrt q.1
    (r, q.2 || r * r != q.1)
  | .pow2 m e =>
    -- the exponent m·2^e has integer part i and fraction f/2^j
    let j := (-e).toNat
    let i := m / 2 ^ j
    let f := (m % 2 ^ j).toNat
    if i + p < 0 then (0, true) else (pow2Floor f j (i + p).toNat 4 64, true)
  | .lg n e =>
    let k := log2 n
    let i := (k : Int) + e
    let pp := p.toNat
    let l := lgFloor n k pp 4 64
    let v : Int := if 0 ≤ i then i * 2 ^ pp + l else -i * 2 ^ pp - (l + 1)
    (v.toNat / 2 ^ (-p).toNat, true)
  | .expn n e =>
    let v := expnFloor n e p.toNat 4 64
    (v / 2 ^ (-p).toNat, true)

/-- The exponent of the first nonzero floor among growing precisions. -/
def ilogSearch (x : Mag) : Nat → Nat → Int
  | 0, p => -(p : Int)
  | fuel + 1, p =>
    let t := (x.floorAt p).1
    if t = 0 then ilogSearch x fuel (2 * p) else (log2 t : Int) - p

/-- ⌊log₂ x⌋. -/
def Mag.ilog (x : Mag) : Int :=
  match x with
  | .quot n d e =>
    let a : Int := (log2 n : Int) - log2 d          -- n/d lies in (2^(a−1), 2^(a+1))
    let below : Bool := n * 2 ^ (-a).toNat < d * 2 ^ a.toNat
    (if below then a - 1 else a) + e
  | .root n d e =>
    let a : Int := (log2 n : Int) - log2 d
    let below : Bool := n * 2 ^ (-a).toNat < d * 2 ^ a.toNat
    ((if below then a - 1 else a) + e) / 2
  | .pow2 m e => m / 2 ^ (-e).toNat
  | .lg _ _ => ilogSearch x 12 64
  | .expn n e =>
    if 256 * 2 ^ (-e).toNat ≤ n * 2 ^ e.toNat then -369 else ilogSearch x 12 64

/-- A dyadic magnitude. -/
def Mag.ofDy (d : Dy) : Mag := .quot d.m.natAbs 1 d.e

/-! ### Rounding and encoding -/

/-- The settings of a conversion: rounding mode, NOSAT, and the 32-bit draw that SRD uses (R40). -/
structure Rnd where
  rm : RMode
  nosat : Bool
  draw : Nat
  deriving DecidableEq, Repr

/-- The default of R26: RNE with SATFINITE. -/
def Rnd.rne : Rnd := ⟨.rne, false, 0⟩

/-- round_magnitude (R39, R40) of s, given as t = ⌊s·2^34⌋ and the sticky bit below it. The result
and whether s was no integer. -/
def roundMag (r : Rnd) (neg : Bool) (t : Nat) (sticky : Bool) : Nat × Bool :=
  let n := t / 2 ^ 34
  let f := t % 2 ^ 34
  let inexact := f != 0 || sticky
  let up : Bool :=
    match r.rm with
    | .rne => if f = 2 ^ 33 && !sticky then n % 2 == 1 else decide (2 ^ 33 ≤ f)
    | .rtz => false
    | .rup => inexact && !neg
    | .rdn => inexact && neg
    | .srd => decide (r.draw < f / 4)
  (if up then n + 1 else n, inexact)

/-- The code of largest finite magnitude, without its sign (R28). -/
def FpParams.largest (p : FpParams) : Nat :=
  ((p.emax + p.bias).toNat) * 2 ^ p.mbits + (p.nL - 2 ^ p.mbits)

/-- The sign bit of a floating-point code. -/
def FpParams.sign (p : FpParams) (neg : Bool) : Nat := if neg then 2 ^ (p.ebits + p.mbits) else 0

/-- The code of an infinity (R28). -/
def FpParams.infCode (p : FpParams) : Nat := (2 ^ p.ebits - 1) * 2 ^ p.mbits

/-- The result of an overflow (R42), sign 0: the largest finite magnitude, an infinity or NaN. -/
def FpParams.overflowCode (p : FpParams) (nosat : Bool) : Nat :=
  if !nosat then p.largest
  else if p.inf then p.infCode
  else match p.nan with
    | some c => c
    | none => p.largest

/-- A finite nonzero value into a floating-point format (R38, R41, R42, R47). `stk` is the sticky bit
of R57: the exact value lies above the magnitude given. -/
def encodeFp (p : FpParams) (r : Rnd) (neg : Bool) (x : Mag) (stk : Bool := false) : Nat × Conds :=
  let e := x.ilog
  let ovf : Nat × Conds :=
    let bounded : Bool := match r.rm with
      | .rtz => true
      | .rup => neg
      | .rdn => !neg
      | _ => false
    (p.sign neg + (if bounded then p.largest else p.overflowCode r.nosat), { of := true, nx := true })
  if p.emax < e then ovf
  else
    let ee := max e p.emin
    let q : Int := ee - p.mbits
    let s := x.floorAt (34 - q)
    let sticky := s.2 || stk
    let threshold : Bool := r.rm == .rne && e == p.emax && decide ((2 * p.nL + 1) * 2 ^ 33 ≤ s.1)
    let n := roundMag r neg s.1 sticky
    if threshold || (e == p.emax && decide (p.nL < n.1)) then ovf
    else
      let nx := n.2
      let c : Conds := { nx := nx, uf := nx && decide (e < p.emin) }
      let code :=
        if n.1 < 2 ^ p.mbits then n.1
        else if n.1 = 2 ^ (p.mbits + 1) then (ee + 1 + p.bias).toNat * 2 ^ p.mbits
        else (ee + p.bias).toNat * 2 ^ p.mbits + (n.1 - 2 ^ p.mbits)
      (p.sign neg + code, c)

/-- A finite nonzero value into an integer of `w` bits with unit 2^q (R44): INT8, INT4, INT32 with
q = 0, AFX128 with q its anchor. -/
def encodeInt (w : Nat) (q : Int) (r : Rnd) (neg : Bool) (x : Mag) : Nat × Conds :=
  let bound : Nat × Conds := (if neg then 2 ^ (w - 1) else 2 ^ (w - 1) - 1, { nv := true })
  if q + w < x.ilog then bound
  else
    let s := x.floorAt (34 - q)
    let n := roundMag r neg s.1 s.2
    if neg then (if 2 ^ (w - 1) < n.1 then bound else (toTwos w (-(n.1 : Int)), { nx := n.2 }))
    else if 2 ^ (w - 1) ≤ n.1 then bound
    else (n.1, { nx := n.2 })

/-- A positive value into E8M0 (R45). -/
def encodeE8M0 (r : Rnd) (x : Mag) : Nat × Conds :=
  let e := x.ilog
  let ovf : Nat × Conds :=
    (match r.rm with
      | .rtz | .rdn => 0xFE
      | _ => if r.nosat then 0xFF else 0xFE, { of := true, nx := true })
  if 127 < e then ovf
  else
    let s := x.floorAt (34 - e)                   -- x/2^e, in [1, 2)
    let f := s.1 - 2 ^ 34
    let inexact := f != 0 || s.2
    let up : Bool := inexact && (match r.rm with
      | .rne => if f = 2 ^ 33 && !s.2 then (e + 127) % 2 == 1 else decide (2 ^ 33 ≤ f)
      | .rtz | .rdn => false
      | .rup => true
      | .srd => decide (r.draw < f / 4))
    let e' := if up then e + 1 else e
    if 127 < e' then ovf
    else if e' < -127 then (0, { uf := true, nx := true })
    else ((e' + 127).toNat, { nx := inexact })

/-- A positive or negative real number into any format (R38 to R45). -/
def encodeReal (f : Fmt) (anchor : Int) (r : Rnd) (neg : Bool) (x : Mag) : Nat × Conds :=
  match f with
  | .int8 => encodeInt 8 0 r neg x
  | .int4 => encodeInt 4 0 r neg x
  | .int32 => encodeInt 32 0 r neg x
  | .afx128 => encodeInt 128 anchor r neg x
  | .e8m0 => if neg then (0xFF, { nv := true }) else encodeE8M0 r x
  | .fp32 | .fp16 | .bf16 | .e4m3 | .e5m2 | .e3m2 | .e2m3 | .e2m1 =>
    match f.fp with
    | some p => encodeFp p r neg x
    | none => (0, {})

/-- The bound of an integer format for an infinity (R44). -/
def intBound (w : Nat) (neg : Bool) : Nat := if neg then 2 ^ (w - 1) else 2 ^ (w - 1) - 1

/-- An exact value into any format (R37 to R47). -/
def encodeVal (f : Fmt) (anchor : Int) (r : Rnd) (v : Val) : Nat × Conds :=
  match v with
  | .fin d => encodeReal f anchor r (d.m < 0) (.ofDy d)
  | .zero neg =>
    match f.fp with
    | some p => (p.sign neg, {})
    | none => if f = .e8m0 then (0xFF, { nv := true }) else (0, {})
  | .inf neg =>
    match f.fp with
    | some p =>
      if p.inf then (p.sign neg + p.infCode, {})
      else (p.sign neg + p.overflowCode r.nosat, { of := true, nx := true })
    | none =>
      if f = .e8m0 then
        if neg then (0xFF, { nv := true })
        else (if r.nosat then 0xFF else 0xFE, { of := true, nx := true })
      else (intBound f.width neg, { nv := true })
  | .nan neg =>
    match f.fp with
    | some p =>
      match p.nan with
      | some c => (p.sign neg + c, {})
      | none => (0, { nv := true })
    | none => if f = .e8m0 then (0xFF, {}) else (0, { nv := true })

/-- A code of one format into another (R37): the same format (and anchor) returns the bits. -/
def convertCode (src : Fmt) (srcAnchor : Int) (dst : Fmt) (dstAnchor : Int) (r : Rnd) (c : Nat) :
    Nat × Conds :=
  if src = dst ∧ (src ≠ .afx128 ∨ srcAnchor = dstAnchor) then (c, {})
  else encodeVal dst dstAnchor r (decodeCode src srcAnchor c)

/-- Whether a code of a format is one of its NaN codes. -/
def isNanCode (f : Fmt) (c : Nat) : Bool := (decodeCode f 0 c).isNan

/-! ### Exact arithmetic on values (R36) -/

/-- The product; the Boolean says that it is invalid (zero times infinity). -/
def Val.mul (a b : Val) : Val × Bool :=
  match a, b with
  | .nan _, _ | _, .nan _ => (.nan false, false)
  | .inf _, .zero _ | .zero _, .inf _ => (.nan false, true)
  | .inf s, _ => (.inf (s != b.neg), false)
  | _, .inf s => (.inf (s != a.neg), false)
  | .zero s, _ => (.zero (s != b.neg), false)
  | _, .zero s => (.zero (s != a.neg), false)
  | .fin x, .fin y => (.fin (x.mul y), false)

/-- The exact sum of a list of terms: NaN when a term is NaN or infinities of both signs meet (the
Boolean: invalid), else the infinity, else the exact sum, an exact zero being −0 only when every term
is −0 (R104, R450). -/
def Val.sum (ts : List Val) : Val × Bool :=
  let pos := ts.contains (.inf false)
  let neg := ts.contains (.inf true)
  if ts.any Val.isNan then (.nan false, false)
  else if pos && neg then (.nan false, true)
  else if pos then (.inf false, false)
  else if neg then (.inf true, false)
  else
    let d : Dy := ts.foldl (fun (acc : Dy) (t : Val) => acc.add t.dy) ⟨0, 0⟩
    if d.m = 0 then (.zero (ts.all (· == .zero true)), false) else (.fin d, false)

/-- The sign of an exact zero result of ADD, SUB, FMA and AXPBY under a rounding mode (R450): terms
that are not all −0 give −0 under RDN and +0 otherwise. -/
def Val.zeroSign (rm : RMode) (v : Val) : Val :=
  match v with
  | .zero false => .zero (rm == .rdn)
  | w => w

/-- Whether a < b, for values that are not NaN (−0 and +0 compare equal). -/
def Val.lt (a b : Val) : Bool :=
  match a, b with
  | .inf true, .inf true => false
  | .inf true, _ => true
  | _, .inf true => false
  | .inf false, _ => false
  | _, .inf false => true
  | _, _ => a.dy.lt b.dy

/-- FP32 as the formats below use it. -/
def fp32 : FpParams := ⟨8, 23, 127, -126, 127, 2 ^ 24 - 1, true, some 0x7FC00000⟩

/-- The value of an FP32 code. -/
def valFp32 (c : Nat) : Val := decodeFp fp32 c

/-- round_fp32 (R37): an exact value into FP32 once, under RNE. -/
def roundFp32 (v : Val) : Nat × Conds := encodeVal .fp32 0 .rne v

end Sys2Proof.Machine
end

