-- ==== Sys2Proof/Machine/Dot.lean ====
section
/-!
DEFINITION. Dot products, scales and the deterministic generator (spec 03, R49 to R64, R448): the
classes of a product, the X96 accumulator element, the three accumulation procedures and read-out.
-/
namespace Sys2Proof.Machine

/-- The classes of R49. -/
inductive PClass where
  | n | h | s
  deriving DecidableEq, Repr

/-- The class of a product format (R49); none for INT32, E8M0 and AFX128 (R50). -/
def Fmt.pclass : Fmt → Option PClass
  | .e4m3 | .e5m2 | .e3m2 | .e2m3 | .e2m1 | .int8 | .int4 => some .n
  | .fp16 | .bf16 => some .h
  | .fp32 => some .s
  | .int32 | .e8m0 | .afx128 => none

/-- One accumulator element (R51, R52). -/
abbrev X96 := BitVec 96

/-- The element's fields: layout XE, SPC, N, V and OVF. -/
structure Elem where
  xe : Bool
  spc : Nat
  n : Int
  v : Nat
  ovf : Bool
  deriving DecidableEq, Repr

def X96.fields (e : X96) : Elem :=
  { xe := e.getLsbD 95, spc := (e.toNat / 2 ^ 85) % 4, n := signedOf 85 e.toNat,
    v := e.toNat % 2 ^ 32, ovf := e.getLsbD 87 }

def Elem.pack (f : Elem) : X96 :=
  let o : Nat := if f.ovf then 2 ^ 87 else 0
  if f.xe then BitVec.ofNat 96 (f.v % 2 ^ 32 + o + 2 ^ 95)
  else BitVec.ofNat 96 (toTwos 85 f.n + f.spc * 2 ^ 85 + o)

/-- Whether R53 forbids the element in any accumulation or fill: a nonzero reserved bit, or a special
XF element whose N is not zero. -/
def X96.malformed (e : X96) : Bool :=
  let f := e.fields
  if f.xe then (e.toNat / 2 ^ 32) % 2 ^ 55 != 0 || (e.toNat / 2 ^ 88) % 2 ^ 7 != 0
  else (e.toNat / 2 ^ 88) % 2 ^ 7 != 0 || (f.spc != 0 && f.n != 0)

/-- Whether R53 raises TILE_CONFIG for the element under an instruction of layout XE or XF. -/
def X96.layoutFault (e : X96) (xe : Bool) : Bool := e.malformed || (e != 0 && e.fields.xe != xe)

/-- The exact value of an element (R61). -/
def X96.value (e : X96) : Val :=
  let f := e.fields
  if f.xe then valFp32 f.v
  else match f.spc with
    | 0 => Val.ofDy ⟨f.n, -32⟩
    | 1 => .inf false
    | 2 => .inf true
    | _ => .nan false

/-- Whether the element holds NaN (R92). -/
def X96.isNan (e : X96) : Bool := e.value.isNan

/-- The outcome of one accumulation into one element. `sat` says that this run saturated it. -/
structure Accum where
  e : X96
  conds : Conds
  sat : Bool
  deriving DecidableEq, Repr

/-- The products of an element's terms, and whether any is invalid or any operand is NaN. -/
def products (ts : List (Val × Val)) : List Val × Bool × Bool :=
  (ts.map (fun t => (t.1.mul t.2).1), ts.any (fun t => (t.1.mul t.2).2),
   ts.any (fun t => t.1.isNan || t.2.isNan))

/-- add_special (R54): 0b00 finite, 0b01 +∞, 0b10 −∞, 0b11 NaN. -/
def addSpecial (spc : Nat) (p : Val) : Nat :=
  match p with
  | .nan _ => 3
  | .inf neg =>
    let c := if neg then 2 else 1
    if spc = 0 then c else if spc = c then c else 3
  | _ => spc

/-- R54, R55, R448: one class N instruction without block scaling along K on one element. An instruction in which
the element meets a NaN operand records no NV for it, whatever other invalid product the instruction forms.
[log 41: DEDUCED] -/
def accumN (e : X96) (ts : List (Val × Val)) : Accum :=
  let f := e.fields
  let p := products ts
  let spc := p.1.foldl addSpecial f.spc
  let t : Dy := p.1.foldl (fun (a : Dy) (v : Val) => a.add v.dy) ⟨0, 0⟩
  let ti : Int := t.m * 2 ^ (t.e + 32).toNat / 2 ^ (-(t.e + 32)).toNat
  let n0 := f.n + ti
  let live : Bool := spc == 0 && !f.ovf
  let hi : Bool := live && decide ((2 : Int) ^ 84 - 1 < n0)
  let lo : Bool := live && decide (n0 < -(2 : Int) ^ 84)
  let n : Int :=
    if spc ≠ 0 then 0
    else if f.ovf then f.n
    else if hi then 2 ^ 84 - 1
    else if lo then -(2 : Int) ^ 84
    else n0
  let nv := spc == 3 && f.spc != 3 && !p.2.2
  { e := Elem.pack { xe := false, spc := spc, n := n, v := 0, ovf := f.ovf || hi || lo },
    conds := { nv := nv }, sat := hi || lo }

/-- round_fp32 of R57 and R58 for a nonzero sum: the code, its conditions and whether it overflowed. -/
def roundAcc (d : Dy) (stk : Bool) : Nat × Conds × Bool :=
  let r := encodeFp fp32 .rne (d.m < 0) (.ofDy d) stk
  (r.1, r.2, r.2.of)

/-- The running XE element, its conditions and whether a group saturated it. -/
structure XeRun where
  v : Nat
  ovf : Bool
  conds : Conds
  sat : Bool
  deriving DecidableEq, Repr

/-- The canonical NaN of FP32 (R28). -/
def fp32Nan : Nat := 0x7FC00000

def fp32Inf (neg : Bool) : Nat := if neg then 0xFF800000 else 0x7F800000

/-- One group of R56, its window's low weight 2^(emax − l). A group with a NaN operand, or on an element that is NaN,
records no NV for it, whatever other invalid product the group forms (R448). [log 41: DEDUCED] -/
def xeGroup (l : Nat) (ts : List (Val × Val)) (x : XeRun) : XeRun :=
  let p := products ts
  let cur := valFp32 x.v
  let terms := cur :: p.1
  let special := terms.any (fun t => t.isNan || t.isInf)
  let pos := terms.contains (.inf false)
  let neg := terms.contains (.inf true)
  if x.ovf && !special then x
  else if terms.any Val.isNan || (pos && neg) then
    { x with v := fp32Nan,
             conds := x.conds.or { nv := !(cur.isNan || p.2.2) } }
  else if pos then { x with v := fp32Inf false }
  else if neg then { x with v := fp32Inf true }
  else
    let nz := terms.filter (fun t => !t.dy.isZero)
    match nz with
    | [] => { x with v := if terms.all (· == .zero true) then 2 ^ 31 else 0 }
    | t0 :: rest =>
      let emax := rest.foldl (fun (m : Int) (t : Val) => max m t.dy.ilog) t0.dy.ilog
      let w : Int := emax - l
      let cut (d : Dy) : Nat × Bool := floorQuot d.m.natAbs 1 (d.e - w)
      let s : Int := nz.foldl (fun (a : Int) (t : Val) =>
        if t.dy.m < 0 then a - (cut t.dy).1 else a + (cut t.dy).1) 0
      let stk := nz.any (fun t => (cut t.dy).2)
      if s = 0 then { x with v := 0, conds := x.conds.or { nx := stk } }
      else
        let r := roundAcc ⟨s, w⟩ stk
        { v := r.1, ovf := x.ovf || r.2.2, conds := x.conds.or r.2.1, sat := x.sat || r.2.2 }

/-- The terms split into consecutive groups of g, the last one short. -/
def groupsOf {α : Type} (g : Nat) : Nat → List α → List (List α)
  | 0, _ => []
  | fuel + 1, l => if l.isEmpty then [] else l.take g :: groupsOf g fuel (l.drop g)

/-- The start of an XE run on an element. -/
def X96.xeStart (e : X96) : XeRun := { v := e.fields.v, ovf := e.fields.ovf, conds := {}, sat := false }

def XeRun.done (x : XeRun) : Accum :=
  { e := Elem.pack { xe := true, spc := 0, n := 0, v := x.v, ovf := x.ovf }, conds := x.conds, sat := x.sat }

/-- R56: one class H (G = 8, L = 54) or class S (G = 2, L = 72) instruction on one element. [log 41: DEDUCED] -/
def accumHS (c : PClass) (e : X96) (ts : List (Val × Val)) : Accum :=
  let g := if c = .s then 2 else 8
  let l := if c = .s then 72 else 54
  ((groupsOf g ts.length ts).foldl (fun x grp => xeGroup l grp x) e.xeStart).done

/-- One fragment of R60: its terms and the two block scales. An element with OVF is held unless a term of the fragment,
the running value among them, is NaN or infinite (R56, R58). A fragment with a NaN operand or scale, or on an element that is
NaN, records no NV (R448). [log 41: DEDUCED] An exactly zero p_f, and an exactly zero v + p_f · b_f, is −0 only when every one
of its terms is −0. [log 122: DEDUCED] -/
def xeFragment (ts : List (Val × Val)) (ba bb : Val) (x : XeRun) : XeRun :=
  let p := products ts
  let pf := Val.sum p.1
  let b := ba.mul bb
  let term := pf.1.mul b.1
  let cur := valFp32 x.v
  if x.ovf && !(cur.isNan || cur.isInf || term.1.isNan || term.1.isInf) then x
  else
    let r := Val.sum [cur, term.1]
    match r.1 with
    | .nan _ =>
      { x with v := fp32Nan,
               conds := x.conds.or { nv := !(cur.isNan || p.2.2 || ba.isNan || bb.isNan) } }
    | .inf n => { x with v := fp32Inf n }
    | .zero n => { x with v := if n then 2 ^ 31 else 0 }
    | .fin d =>
      let q := roundAcc d false
      { v := q.1, ovf := x.ovf || q.2.2, conds := x.conds.or q.2.1, sat := x.sat || q.2.2 }

/-- Whether index k starts a fragment: 0 and every block boundary of a K-scaled operand (R60). -/
def fragStart (ba bb : Option Nat) (k : Nat) : Bool :=
  k == 0 || (match ba with | some b => k % b == 0 | none => false)
         || (match bb with | some b => k % b == 0 | none => false)

/-- The fragment boundaries of R60 as (first index, terms). -/
def fragments (ba bb : Option Nat) : Nat → List (Val × Val) → List (Nat × List (Val × Val))
  | _, [] => []
  | k, t :: ts =>
    match fragments ba bb (k + 1) ts with
    | [] => [(k, [t])]
    | (k', f) :: fs =>
      if fragStart ba bb k' then (k, [t]) :: (k', f) :: fs else (k, t :: f) :: fs

/-- R60: one instruction with KIND 0b10 on either operand; a K-scaled operand gives its block size and
the scale of each block. -/
def accumFrag (e : X96) (ts : List (Val × Val)) (ka kb : Option (Nat × List Val)) : Accum :=
  let beta (ks : Option (Nat × List Val)) (k : Nat) : Val :=
    match ks with
    | none => .fin ⟨1, 0⟩
    | some (b, sc) => sc.getD (k / b) (.fin ⟨1, 0⟩)
  ((fragments (ka.map (·.1)) (kb.map (·.1)) 0 ts).foldl
    (fun x f => xeFragment f.2 (beta ka f.1) (beta kb f.1) x) e.xeStart).done

/-- R61: one element converted to a destination format with one rounding; `sigmas` are σ_A, σ_B, m_A
and n_B. NV is recorded when the product is invalid and neither the element nor a scale is NaN (R448). -/
def readOut (e : X96) (f : Fmt) (anchor : Int) (r : Rnd) (sigmas : List Val) : Nat × Conds :=
  let sg := sigmas.foldl (fun (a : Val × Bool) (v : Val) =>
    let p := a.1.mul v
    (p.1, a.2 || p.2)) ((.fin ⟨1, 0⟩ : Val), false)
  let y := e.value.mul sg.1
  let out := encodeVal f anchor r y.1
  (out.1, out.2.or { nv := (sg.2 || y.2) && !(e.isNan || sigmas.any Val.isNan) })

/-! ### The deterministic generator (R62, R63) -/

/-- One round of R62. -/
def genRound (xk : Word × Word) : Word × Word :=
  let k := xk.2 + 0x5C87E2B14D39A6F3#64
  let x := (xk.1 ^^^ k) * 0x8F3AC56D1B27E4A9#64
  (x ^^^ (x >>> 29), k)

/-- R62: the 64-bit value z of a seed, a tensor ID and two coordinates. -/
def generator (seed : Word) (t u v : Nat) : Word :=
  let x : Word := BitVec.ofNat 64 (t % 2 ^ 16 * 2 ^ 48 ||| u % 2 ^ 24 * 2 ^ 24 ||| v % 2 ^ 24)
  (genRound (genRound (genRound (genRound (x, seed))))).1

/-- The 32-bit draw that SRD uses: z[63:32] (R62). -/
def draw32 (seed : Word) (t u v : Nat) : Nat := (generator seed t u v).toNat / 2 ^ 32

/-- R63: the draw of element n of a one-dimensional destination. -/
def draw1d (seed : Word) (t n : Nat) : Nat := draw32 seed t (n / 2 ^ 24) (n % 2 ^ 24)

/-! ### Scale modes (R59) -/

/-- A scale-mode byte: KIND, the block size and the format of its block scales. -/
structure ScaleMode where
  kind : Nat
  blk : Nat
  sfmt : Fmt
  deriving DecidableEq, Repr

/-- The scale mode a byte spells; none for a reserved encoding (R59). -/
def scaleMode (b : Nat) : Option ScaleMode :=
  let kind := b % 4
  let blk := b / 4 % 4
  let sf := b / 16 % 2
  if b / 32 % 8 ≠ 0 then none
  else if kind < 2 ∧ (blk ≠ 0 ∨ sf ≠ 0) then none
  else some ⟨kind, 16 * 2 ^ blk, if sf = 0 then .e8m0 else .e4m3⟩

end Sys2Proof.Machine
end

