-- ==== Sys2Proof/Machine/CoreState.lean ====
section
/-!
DEFINITION. The state of one core: control core (R164 to R184), caches (R205 to R213), tile unit (R65),
vector stream unit (R94), scratchpad registers (R118 to R135), flag unit (R227 to R231) and router
(R142 to R159). Reset values stand as field defaults.
-/
namespace Sys2Proof.Machine
open Sys2Proof

/-- Four of a kind, one per ring. -/
structure Four (α : Type) where
  r0 : α
  r1 : α
  r2 : α
  r3 : α
  deriving DecidableEq, Repr

def Four.get {α : Type} (f : Four α) (i : Fin 4) : α :=
  match i with
  | 0 => f.r0
  | 1 => f.r1
  | 2 => f.r2
  | 3 => f.r3

def Four.set {α : Type} (f : Four α) (i : Fin 4) (v : α) : Four α :=
  match i with
  | 0 => { f with r0 := v }
  | 1 => { f with r1 := v }
  | 2 => { f with r2 := v }
  | 3 => { f with r3 := v }

def Four.all {α : Type} (v : α) : Four α := ⟨v, v, v, v⟩

/-- The register block status that many blocks share: CFG_ERR and CFG_OFF. -/
structure CfgSt where
  err : Bool := false
  off : Nat := 0
  deriving DecidableEq, Repr

/-! ### Control core -/

/-- One shadow bank (R164). The caches list the top entry first; their memory copies are stale. -/
structure Bank where
  pc : Word := 0
  dsp : Nat := 0
  rsp : Nat := 0
  dsFloor : Nat := 0
  rsFloor : Nat := 0
  ds : List Word := []
  rs : List Word := []
  busy : Bool := false
  deriving DecidableEq, Repr

/-- CORE_DSn or CORE_RSn: LIMG and TOPG, in 16-byte groups. -/
structure StkReg where
  limg : Nat := 0
  topg : Nat := 1
  deriving DecidableEq, Repr

/-- KIND of a trap record (R173, R175). -/
inductive EvKind where
  | precise | deferred | imprecise | boundary
  deriving DecidableEq, Repr

/-- An event to be taken: the fields of its trap record that the entry does not add (R173). -/
structure Ev where
  code : Nat
  cause : Nat := 0
  gate : Nat := 0
  kind : EvKind := .precise
  iaddr : Word := 0
  faddr : Word := 0
  info0 : Word := 0
  info1 : Word := 0
  deriving DecidableEq, Repr

/-- A pending event with its place in the issue order (R178). -/
structure Pend where
  ev : Ev
  stamp : Nat
  deriving DecidableEq, Repr

/-- What the core is doing: no task, a running task, a task that executed TEND, a task stopped by the
abort of its launch, or a core parked at a yield point for a switch (R201, R382, R390). -/
inductive RunSt where
  | idle | running | ended | stopped | parked
  deriving DecidableEq, Repr

/-- A control-core store on its way to another core's scratchpad (R182). -/
structure Posted where
  addr : Nat
  bytes : List Byte
  iaddr : Word
  stamp : Nat
  deriving DecidableEq, Repr

/-- A cache line: physical line number, its way, and 64 bytes (R207). -/
structure CLine where
  line : Nat
  way : Nat
  data : List Byte
  deriving DecidableEq, Repr

/-! ### Tile unit -/

/-- A queued tile instruction with the operands it popped and the shapes it issued under (R70, R74). -/
inductive TileOp where
  | tld (t : Nat) (base stride : Word) (tsw : Nat)
  | tst (t : Nat) (base stride : Word) (tsw : Nat)
  | tzeroT (t : Nat)
  | tzeroA (a : Nat)
  | tmma (a ta tb : Nat) (swa swb : Nat) (pd : Word)
  | tsta (a : Nat) (base stride sig key rd : Word)
  | tcva (td a : Nat) (tsw : Nat) (sig key rd : Word)
  | tspill (a : Nat) (base disp : Word)
  | tfill (a : Nat) (base disp : Word)
  deriving DecidableEq, Repr

structure TileEntry where
  op : TileOp
  iaddr : Word
  ring : Fin 4
  stamp : Nat
  deriving DecidableEq, Repr

/-- TU_FINFO and TU_FADDR. -/
structure TuFault where
  cause : Nat := 0
  idx : Nat := 0
  wr : Bool := false
  iaddr : Nat := 0
  addr : Nat := 0
  deriving DecidableEq, Repr

/-- TU_NANPOS. -/
structure TuNan where
  i : Nat := 0
  j : Nat := 0
  dst : Bool := false
  acc : Nat := 0
  iaddr : Nat := 0
  deriving DecidableEq, Repr

structure Tile where
  /-- byte at t·4096 + row·64 + column; an unlisted byte is 0 -/
  regs : List (Nat × Byte) := []
  /-- element at a·4096 + i·64 + j; an unlisted element is 0 -/
  acc : List (Nat × X96) := []
  /-- TU_SHAPEn -/
  shapes : List (Nat × Nat) := []
  queue : List TileEntry := []
  frozen : List TileEntry := []
  /-- the head of the queue met a fault that the control core has not taken (R88) -/
  stopped : Bool := false
  cfg : CfgSt := {}
  conds : Conds := {}
  aovf0 : Bool := false
  aovf1 : Bool := false
  nanf : Bool := false
  /-- TU_CTL: TE_NX, TE_UF, TE_OF, TE_NV as conditions, TE_AOVF, NANEN and IQD -/
  te : Conds := {}
  teAovf : Bool := false
  nanen : Bool := false
  iqd : Nat := 0
  finfo : TuFault := {}
  nanpos : TuNan := {}
  deriving DecidableEq, Repr

/-! ### Vector stream unit -/

inductive VecOp where
  | vexec (addr : Word)
  | vcache (base : Word) (off len dir : Nat)
  deriving DecidableEq, Repr

/-- A fault that the execution of a vector instruction met (R112). -/
structure VecFault where
  code : Nat
  evCause : Nat
  cause : Nat
  stream : Nat
  wr : Bool
  row : Nat
  col : Nat
  addr : Nat
  deriving DecidableEq, Repr

/-- What a vector instruction has produced so far (R111, R113, R114). `nan` is the D position and the
ORIGIN of the first NaN output. -/
structure VecAcc where
  conds : Conds := {}
  nan : Option (Nat × Nat × Nat) := none
  segcnt : Option Nat := none
  deriving DecidableEq, Repr

/-- A queued vector instruction: its operands, its copied descriptor, its progress, whether every output
is in place, and the fault it stopped at. -/
structure VecEntry where
  op : VecOp
  desc : List Byte
  iaddr : Word
  ring : Fin 4
  stamp : Nat
  progress : Nat := 0
  acc : VecAcc := {}
  done : Bool := false
  fault : Option VecFault := none
  /-- a restarted VEXEC reads its descriptor again (R111) -/
  reread : Bool := false
  deriving DecidableEq, Repr

structure Vsu where
  /-- the operand cache; an unlisted byte is 0 -/
  cache : List (Nat × Byte) := []
  queue : List VecEntry := []
  frozen : List VecEntry := []
  stopped : Bool := false
  cfg : CfgSt := {}
  conds : Conds := {}
  nanf : Bool := false
  te : Conds := {}
  nanen : Bool := false
  iqd : Nat := 0
  /-- VSU_FINFO -/
  fcause : Nat := 0
  fstream : Nat := 0
  fwr : Bool := false
  fiaddr : Nat := 0
  /-- VSU_FPOS, VSU_FADDR -/
  frow : Nat := 0
  fcol : Nat := 0
  faddr : Nat := 0
  /-- VSU_NANINFO, VSU_NANPOS -/
  nanOp : Nat := 0
  nanOrigin : Nat := 0
  nanIaddr : Nat := 0
  nanRow : Nat := 0
  nanCol : Nat := 0
  segcnt : Nat := 0
  deriving DecidableEq, Repr

/-! ### Scratchpad registers -/

/-- One window: SP_WnA, SP_WnS and SP_WnO. -/
structure Window where
  base : Nat := 0
  last : Nat := 0
  en : Bool := false
  res : Bool := false
  lo : Nat := 0
  hi : Nat := 0
  mode : Nat := 0
  nw : Bool := false
  ne : Bool := false
  nn : Bool := false
  ns : Bool := false
  owner : Nat := 0
  deriving DecidableEq, Repr

structure Sp where
  cfg : CfgSt := {}
  rej : Bool := false
  ue : Bool := false
  rejie : Bool := false
  /-- SP_REJA -/
  rejOff : Nat := 0
  rejReason : Nat := 0
  rejSrc : Nat := 0
  rejLenM1 : Nat := 0
  /-- SP_REJB.COUNT -/
  rejCount : Nat := 0
  /-- SP_ECC -/
  cecnt : Nat := 0
  uerow : Nat := 0
  uebank : Nat := 0
  windows : List (Nat × Window) := []
  deriving DecidableEq, Repr

/-! ### Flag unit -/

inductive FlagAct where
  | set | clear | inc | dec
  deriving DecidableEq, Repr

/-- An entry of a core's flag queue (R223): a flag operation on this device (`own`: by an instruction on the
core's own flags or its cluster's), one on another device
(its NODE and flag target word), a notice for a mailbox channel of a peer (R326), or the submission of a DMA list or an engine descriptor. -/
inductive FqOp where
  | flag (t : FlagTarget) (a : FlagAct) (own : Bool)
  | remote (node : Nat) (word : Word) (a : FlagAct)
  | post (conn ch notice : Nat)
  | dma (ch : Nat) (addr : Word)
  | eng (e : Nat) (addr : Word)
  deriving DecidableEq, Repr

structure FqEntry where
  op : FqOp
  stamp : Nat
  iaddr : Word
  deriving DecidableEq, Repr

structure FlagUnit where
  f : Word := 0
  /-- CF0 to CF15; an unlisted counter is 0 -/
  cf : List (Nat × Nat) := []
  watch : Word := 0
  queue : List FqEntry := []
  cfg : CfgSt := {}
  lim : Bool := false
  ldir : Bool := false
  lcf : Nat := 0
  lsrc : Nat := 0
  deriving DecidableEq, Repr

/-! ### Router -/

/-- A 256-byte beat (R142). -/
abbrev Beat := List Byte

/-- CORE_RTFLT. -/
structure RtFault where
  cause : Nat := 0
  port : Nat := 0
  widx : Nat := 0
  beat : Nat := 0
  deriving DecidableEq, Repr

structure Router where
  /-- the route store; an unlisted entry is END -/
  store : List (Nat × BitVec 128) := []
  /-- IS0–IS15 and DS0–DS15 -/
  inj : List (Nat × Word) := []
  dlv : List (Nat × Word) := []
  injCur : List (Nat × Nat) := []
  dlvCur : List (Nat × Nat) := []
  widx : Nat := 0
  run : Bool := false
  wait : Bool := false
  ended : Bool := false
  flt : Bool := false
  nx : Bool := false
  of : Bool := false
  nv : Bool := false
  iovf : Bool := false
  ce : Nat := 0
  beat : Nat := 0
  fault : RtFault := {}
  tmoexp : Nat := 8
  /-- loaded LOOP counters, by word index; an unlisted counter is idle (R149) -/
  loops : List (Nat × Nat) := []
  /-- the beats that arrived on N, S, E and W -/
  bufN : List Beat := []
  bufS : List Beat := []
  bufE : List Beat := []
  bufW : List Beat := []
  /-- a delivery of the current window was rejected (R133, R151) -/
  rejected : Bool := false
  deriving DecidableEq, Repr

/-! ### The core -/

structure Core where
  banks : Four Bank := ⟨{}, {}, {}, { busy := true }⟩
  ring : Fin 4 := 3
  halt : Bool := false
  cfg : CfgSt := {}
  /-- CORE_CFG -/
  tmode : Bool := false
  preciseM : Bool := false
  /-- CORE_IMASK.IE, GIE and CORE_IPEND -/
  ie : BitVec 16 := 0
  gie : Bool := false
  ipend : BitVec 16 := 0
  gtb : Nat := 0
  dsr : Four StkReg := Four.all {}
  rsr : Four StkReg := Four.all {}
  vbase : Four Nat := Four.all 0
  /-- CORE_L1CTL and CORE_L1STAT -/
  ddis : Bool := false
  idis : Bool := false
  dpar : Nat := 0
  ipar : Nat := 0
  l1d : List CLine := []
  l1i : List CLine := []
  /-- what the core runs: its task's partition and index, and the state of the run -/
  run : RunSt := .idle
  part : Nat := 0
  task : Nat := 0
  sched : Nat := 0
  seed : Word := 0
  /-- the first instruction of the task has issued (R363) -/
  issued : Bool := false
  /-- the yield point at which the core has parked (R381) -/
  yieldAt : Nat := 0
  /-- a waiting instruction (R202) -/
  waiting : Option Instr := none
  /-- a local CFINC or CFDEC stands in the flag queue, its value not yet known (R230) -/
  presented : Bool := false
  pendDef : List Pend := []
  pendNan : List Pend := []
  pendArith : List Pend := []
  posted : List Posted := []
  /-- the earliest store of the task that was rejected at another scratchpad (R133) -/
  rejAt : Option Nat := none
  /-- the issue order of stores, unit instructions and flag operations -/
  stamp : Nat := 0
  tile : Tile := {}
  vsu : Vsu := {}
  sp : Sp := {}
  flg : FlagUnit := {}
  rt : Router := {}
  deriving DecidableEq, Repr

/-- A core at reset: ring 3 with bank 3 busy (CORE_STATUS). [log 7: DESIGN CHOICE] -/
def Core.reset : Core := {}

/-- The maltster's control core at reset: ring 0, bank 0 only (R164, R168). [log 7: DESIGN CHOICE] -/
def Core.maltster : Core :=
  { banks := ⟨{ busy := true }, {}, {}, {}⟩, ring := 0 }

/-- The state at reset of control core `k` of the model. -/
def Core.atReset (k : Nat) : Core := if k = maltsterCore then Core.maltster else Core.reset

/-- The bank of the current ring. -/
def Core.bank (c : Core) : Bank := c.banks.get c.ring

def Core.setBank (c : Core) (b : Bank) : Core := { c with banks := c.banks.set c.ring b }

def Core.pc (c : Core) : Word := c.bank.pc

def Core.setPc (c : Core) (pc : Word) : Core := c.setBank { c.bank with pc := pc }

end Sys2Proof.Machine
end

