-- ==== Sys2Proof/Machine/NetState.lean ====
section
/-!
DEFINITION. The state of the mailbox unit (R238 to R242), of the network ports (R313 to R319) and of
Claruend Transport (R324 to R342), and what the device has sent to the outside world.
-/
namespace Sys2Proof.Machine
open Sys2Proof

/-! ### Mailboxes -/

/-- A channel (MBX_BINDn, MBX_CHSTn): the notices it holds, oldest first, with their SEQ. -/
structure MbChan where
  snd : Nat := 0
  rcv : Nat := 0
  v : Bool := false
  ie : Bool := false
  notices : List (Nat × Nat) := []
  seq : Nat := 0
  deriving DecidableEq, Repr

structure Mbx where
  cfg : CfgSt := {}
  locked : Bool := false
  chans : List (Nat × MbChan) := []
  deriving DecidableEq, Repr

/-! ### Ports -/

/-! ### What the device sends -/

/-- How a host read is answered (R347). -/
inductive HostAnswer where
  | data (bytes : List Byte)
  | completerAbort
  | unsupportedRequest
  deriving DecidableEq, Repr

/-- The headers before a CLT packet (R328, R344): next-hop MAC address, 802.1Q tag, IP version and addresses, DSCP,
UDP ports and checksum. -/
structure CltHdr where
  mac : Word
  tag : Option Nat := none
  v6 : Bool := false
  src : List Byte := []
  dst : List Byte := []
  dscp : Nat := 0
  sport : Nat
  dport : Nat
  checksum : Nat := 0
  deriving DecidableEq, Repr

/-- What the device puts on its links and pins for the outside world to see. [log 10: DESIGN CHOICE] -/
inductive Sent where
  | hostWrite (h addr : Nat) (bytes : List Byte)
  | msix (h vec : Nat)
  | hostRead (h : Nat) (answer : HostAnswer)
  | retryStatus (h : Nat)
  | trainLink (h : Nat)
  | clt (group path : Nat) (hdr : CltHdr) (words : List Word) (payload : List Byte)
  | pfc (port prio quanta : Nat)
  /-- a link-level replay request: the number of the frame that it asks for, with every later one -/
  | replayRequest (port start : Nat)
  /-- auto-negotiation: the port's first lane, the lanes it can use, and the numbers of lanes it advertises -/
  | trainPort (port lane lanes : Nat) (rates : List Nat)
  | ptp (port : Nat) (m : PtpMsg)
  | mctp (bytes : List Byte)
  | jtag (code : Nat) (dr : Word)
  /-- a response to an MCTP control request: command, completion code, data -/
  | control (cmd code : Nat) (data : List Word)
  /-- a response to a PLDM request, or the device's own update request: type, command, completion code, data -/
  | pldm (type cmd code : Nat) (data : List Word)
  /-- a write of the flash at an offset -/
  | flash (off : Nat) (bytes : List Byte)
  deriving DecidableEq, Repr

/-- A frame that a port is to transmit, or keeps for replay: its priority, its length and what it is. -/
structure TxFrame where
  prio : Nat
  bytes : Nat
  what : Sent
  deriving DecidableEq, Repr

/-- A received frame of a priority that waits in a receive buffer (R317). -/
structure RxFrame where
  prio : Nat
  bytes : Nat
  deriving DecidableEq, Repr

/-- One port of a group. -/
structure Port where
  /-- frames in the receive buffer, oldest first -/
  buffer : List RxFrame := []
  /-- priorities for which the last PFC frame sent was XOFF -/
  xoffSent : BitVec 8 := 0
  /-- priorities the far end has paused -/
  paused : BitVec 8 := 0
  /-- frames of paused priorities, oldest first -/
  waiting : List TxFrame := []
  /-- frames kept for replay, oldest first, with their numbers on the link; and the number of the next one -/
  replay : List (Nat × TxFrame) := []
  txNum : Nat := 0
  /-- the number of the next frame under link-level retry that the port awaits -/
  rxNum : Nat := 0
  /-- the frame that a retry under way awaits -/
  retrying : Option Nat := none
  /-- drop and event counters: length, FCS, VLAN, FEC, PAUSE, PFC ignored, buffer full, management excess -/
  dropLen : Nat := 0
  dropFcs : Nat := 0
  dropVlan : Nat := 0
  dropFec : Nat := 0
  dropPause : Nat := 0
  pfcIgnored : Nat := 0
  dropFull : Nat := 0
  dropMgmt : Nat := 0
  llrfail : Nat := 0
  deriving DecidableEq, Repr

/-- The network and CLT registers of a port group (NET_, CLT_). -/
structure NetGroup where
  cfg : CfgSt := {}
  up : BitVec 4 := 0
  llron : BitVec 4 := 0
  mode : Nat := 0
  prisrc : Bool := false
  llr : Bool := false
  maxfrm : Nat := 0x05EE
  failed : BitVec 4 := 0
  lock : BitVec 4 := 0
  /-- ports that negotiate or train -/
  training : BitVec 4 := 0
  /-- NET_LANE.WIDTH codes by port of the group -/
  width : List (Nat × Nat) := []
  pfcEn : BitVec 8 := 0
  pfcLlr : BitVec 8 := 0
  xoff : Nat := 0x80
  xon : Nat := 0x60
  ports : List (Nat × Port) := []
  cltCfg : CfgSt := {}
  udpport : Nat := 0x1BCD
  dpri : Nat := 3
  cpri : Nat := 6
  node : Nat := 0
  rtx : Nat := 0
  dup : Nat := 0
  emsent : Nat := 0
  emrcvd : Nat := 0
  giveup : Nat := 0
  reset : Nat := 0
  fnak : Nat := 0
  badhdr : Nat := 0
  deriving DecidableEq, Repr

/-! ### CLT -/

/-- A data operation of a connection at its sender: a packet that has its PSN and is unacknowledged, or
one that is still being filled (R327, R337 to R340). -/
structure CltOp where
  type : Nat
  stream : Nat
  psn : Nat := 0
  opid : Nat := 0
  e0 : Word
  e1 : Word := 0
  payload : List Byte := []
  /-- remote page (its PVA) that the writes of the packet go through, and the largest payload -/
  page : Nat := 0
  room : Nat := 256
  sched : Nat := 0
  /-- the path that its first byte chose -/
  plan : Option Nat := none
  /-- sends so far, and the path of the last one -/
  sends : Nat := 0
  path : Nat := 0
  /-- control core stores in it: stamps; and the core whose flag queue issued it -/
  stamps : List Nat := []
  origin : Option Nat := none
  deriving DecidableEq, Repr

/-- A FLAG or MBPOST held at the receiver (R336). -/
structure HeldOp where
  psn : Nat
  stream : Nat
  type : Nat
  e0 : Word
  e1 : Word
  opid : Nat
  group : Nat
  path : Nat
  deriving DecidableEq, Repr

inductive ConnSt where
  | down | hello | up | quarantine
  deriving DecidableEq, Repr

/-- A path of a connection (item PATH of R367). -/
structure PathSt where
  port : Nat := 0
  config : List Word := []
  /-- its HELLO exchange is done and its port is up -/
  joined : Bool := false
  helloSent : Bool := false
  deriving DecidableEq, Repr

structure Conn where
  node : Nat
  state : ConnSt := .down
  paths : List (Nat × PathSt) := []
  /-- next path in rotation -/
  rot : Nat := 0
  peerConn : Nat := 0
  peerCompat : Nat := 0
  peerMin : Nat := 0
  /-- EPOCH and SCHED of the peer's HELLO, informational -/
  peerEpoch : Nat := 0
  peerSched : Nat := 0
  inc : Nat := 0
  proposal : Nat := 0
  /-- the INC that the peer last proposed -/
  peerProposal : Nat := 0
  sendPsn : Nat := 0
  nextOpid : Nat := 1
  filling : List CltOp := []
  unacked : List CltOp := []
  /-- PSNs received at or above the cumulative PSN -/
  recvCum : Nat := 0
  recvSet : List Nat := []
  held : List HeldOp := []
  opidHigh : Nat := 0
  opids : List Nat := []
  /-- streams with a finally refused WRITE or ACCUM, with its PSN in this incarnation, or none for one of an earlier -/
  prior : List (Nat × Option Nat) := []
  priorCount : Nat := 0
  /-- arrivals since the last ACK, and the path of the last arrival -/
  unackedRx : Nat := 0
  lastPath : Nat := 0
  mismatches : Nat := 0
  /-- AO time of the last EPOCH_MISMATCH event -/
  emAt : Option Nat := none
  deriving DecidableEq, Repr

end Sys2Proof.Machine
end

