-- ==== Sys2Proof/Machine/ClusterState.lean ====
section
/-!
DEFINITION. The state of one cluster: L2 and its merging buffer (R207 to R220), tun registers (R137 to
R140), cluster flags (R227), the DMA engine (R243 to R262) and the four other engines (R264 to R286).
-/
namespace Sys2Proof.Machine
open Sys2Proof

/-- A merging-buffer entry (R210): a line of device memory, its masked bytes by offset, and the stores
(core, stamp) that merged into it. -/
structure MbEntry where
  line : Nat
  bytes : List (Nat × Byte)
  stores : List (Nat × Nat)
  draining : Bool
  deriving DecidableEq, Repr

/-- L2 maintenance in progress (R217 to R219): a disable, with whether a later write of 1 enables L2
again, ways being gated, or a lock fill. -/
inductive L2Work where
  | disable (again : Bool)
  | gate (ways : BitVec 16)
  | fill
  deriving DecidableEq, Repr

structure L2 where
  lines : List CLine := []
  mb : List MbEntry := []
  cfg : CfgSt := {}
  locked : Bool := false
  gated : BitVec 16 := 0
  en : Bool := true
  idle : Nat := 0
  pd : BitVec 16 := 0
  lockAddr : Nat := 0
  nways : Nat := 0
  parcnt : Nat := 0
  /-- maintenance not yet complete, with the lines that were in the merging buffer when it began -/
  work : List (L2Work × List Nat) := []
  deriving DecidableEq, Repr

structure TunRegs where
  cfg : CfgSt := {}
  ue : Bool := false
  zbusy : Bool := false
  cecnt : Nat := 0
  uerow : Nat := 0
  uebank : Nat := 0
  deriving DecidableEq, Repr

/-! ### DMA (R243 to R262) -/

/-- A decoded descriptor (R248). `srcHost` and `dstHost` say that an address is a host bus address, and
`cmd` names the command a descriptor runs for (R452). -/
structure DmaDesc where
  addr : Nat := 0
  id : Nat := 0
  op : Nat := 0
  src : Word := 0
  dst : Nat := 0
  len0 : Nat := 1
  cnt1 : Nat := 1
  cnt2 : Nat := 1
  cnt3 : Nat := 1
  last : Bool := true
  waiten : Bool := false
  doneen : Bool := false
  pace : Bool := false
  fence : Bool := false
  stopne : Bool := false
  wcount : Nat := 0
  wflag : Nat := 0
  wclass : Nat := 0
  wunit : Nat := 0
  wclr : Bool := false
  dword : Word := 0
  sstr : List Int := [0, 0, 0]
  dstr : List Int := [0, 0, 0]
  srcHost : Bool := false
  dstHost : Bool := false
  cmd : Option (CmdSrc × Nat) := none
  deriving DecidableEq, Repr

/-- A fault found in mid-stream (R260): DMA_FREC0 to DMA_FREC3 as they are recorded, the list it was found in by its
number, and for cause UE the unit that held the data (UKIND, unit). -/
structure DmaFault where
  faddr : Nat := 0
  cause : Nat := 0
  wr : Bool := false
  list : Bool := false
  daddr : Nat := 0
  descid : Nat := 0
  p : Nat := 0
  i1 : Nat := 0
  i2 : Nat := 0
  i3 : Nat := 0
  sub : Nat := 0
  num : Option Nat := none
  unit : Option (Nat × Nat) := none
  deriving DecidableEq, Repr

/-- A fetched descriptor with its progress: bytes read (FILL: none), bytes in place, the bytes read and not
yet written, in visit order, and the COMPARE results of the descriptor: bytes that differ, the first of them
in visit order and the lowest, and whether MISM was 0 at the start. -/
structure DmaRun where
  desc : DmaDesc
  started : Bool := false
  readN : Nat := 0
  doneN : Nat := 0
  buf : List Byte := []
  nmis : Nat := 0
  lowest : Option Nat := none
  fresh : Bool := false
  deriving DecidableEq, Repr

/-- An outstanding list: its number for the report, the next descriptor to fetch, whether the last one has
been fetched, and whether it has begun (R363). -/
structure DmaList where
  num : Nat
  next : Nat
  fetchedLast : Bool := false
  begun : Bool := false
  deriving DecidableEq, Repr

structure DmaChan where
  lists : List DmaList := []
  /-- addresses of further lists of the schedule (R245) -/
  later : List Nat := []
  descs : List DmaRun := []
  fault : Option DmaFault := none
  stopped : Bool := false
  hiwm : Nat := 0
  lowm : Nat := 0
  level : Nat := 0
  en : Bool := false
  held : Bool := false
  nmis : Nat := 0
  mism : Bool := false
  cmpa : Nat := 0
  deriving DecidableEq, Repr

structure Dma where
  cfg : CfgSt := {}
  flt : Bool := false
  punder : Bool := false
  pover : Bool := false
  tmoexp : Nat := 8
  frec : DmaFault := {}
  frecCh : Nat := 0
  chans : List (Nat × DmaChan) := []
  deriving DecidableEq, Repr

/-! ### Engines (R264 to R286) -/

structure EngFault where
  faddr : Nat := 0
  cause : Nat := 0
  core : Nat := 0
  wr : Bool := false
  daddr : Nat := 0
  descid : Nat := 0
  item : Nat := 0
  sub : Nat := 0
  deriving DecidableEq, Repr

/-- Bytes that an operation has still to write, for one item of its descriptor. -/
structure EngOut where
  item : Nat
  addr : Nat
  bytes : List Byte
  deriving DecidableEq, Repr

/-- A queued engine descriptor: its address, the submitting core, its quadwords once fetched, whether its
operation has computed its outputs, those it has still to write, and the fault that follows them. -/
structure EngEntry where
  addr : Nat
  core : Nat
  words : Option (List Word) := none
  computed : Bool := false
  outs : List EngOut := []
  fail : Option EngFault := none
  deriving DecidableEq, Repr

structure Eng where
  cfg : CfgSt := {}
  flt : Bool := false
  /-- SMP_STATUS.BADROW or FPR_STATUS.MISM -/
  mark : Bool := false
  queue : List EngEntry := []
  frec : EngFault := {}
  fault : Option EngFault := none
  nmis : Nat := 0
  fdesc : Nat := 0
  deriving DecidableEq, Repr

structure Cluster where
  l2 : L2 := {}
  tun : TunRegs := {}
  flags : BitVec 256 := 0
  flgCfg : CfgSt := {}
  dma : Dma := {}
  gather : Eng := {}
  select : Eng := {}
  sampler : Eng := {}
  fpr : Eng := {}
  /-- mapped out until cold reset (R410) -/
  absent : Bool := false
  deriving DecidableEq, Repr

/-- The engine of a cluster by its number e of R19 (1 gather, 2 select, 3 sampler, 4 fingerprint). -/
def Cluster.eng (c : Cluster) (e : Nat) : Eng :=
  match e with
  | 1 => c.gather
  | 2 => c.select
  | 3 => c.sampler
  | _ => c.fpr

def Cluster.setEng (c : Cluster) (e : Nat) (x : Eng) : Cluster :=
  match e with
  | 1 => { c with gather := x }
  | 2 => { c with select := x }
  | 3 => { c with sampler := x }
  | _ => { c with fpr := x }

end Sys2Proof.Machine
end

