-- ==== Sys2Proof/Machine/PartState.lean ====
section
/-!
DEFINITION. The state of one partition: its resources (R372), address space (R18, R326), commands (R356),
schedules (R376 to R379), launches (R380 to R386), configuration (R367, R368), cask manager (R287 to R296),
connections (R324), cellar (R402, R403), kiln handling (R390 to R397) and counters (R387).
-/
namespace Sys2Proof.Machine
open Sys2Proof

/-- A command packet that was accepted and has no final reply yet (R353, R356): its header fields, its
quadwords, its source, the partition it acts on, its class at acceptance (R380), and how far it is. -/
structure Cmd where
  src : CmdSrc
  tag : Nat
  part : Option Nat
  words : List Word
  cls : Nat := 3
  started : Bool := false
  inProgress : Bool := false
  /-- its final reply is decided and not yet written (R350, R356) -/
  decided : Bool := false
  /-- AO time of acceptance -/
  at_ : Nat := 0
  /-- DMA_COPY, FILL, COMPARE: parts that still run, differing bytes so far, and the lowest address of one -/
  parts : Nat := 0
  diff : Nat := 0
  first : Option Nat := none
  /-- DMA_COPY, FILL, COMPARE: stopped by an uncorrectable error of a unit (UKIND, unit), it waits for that unit's
  kiln-test result (R413) -/
  hw : Option (Nat × Nat) := none
  deriving DecidableEq, Repr

def Cmd.op (c : Cmd) : Nat := field (c.words.getD 0 0) 7 0
def Cmd.wait (c : Cmd) : Bool := bit (c.words.getD 0 0) 8
def Cmd.p (c : Cmd) (i : Nat) : Word := c.words.getD i 0

/-- Why a launch ends before its commit (R355, R364): the final status, CAUSE and SUB, and whether a hardware detection stopped it
(R390). -/
structure Abort where
  status : Nat := 0x20
  cause : Nat
  sub : Nat
  hw : Bool
  deriving DecidableEq, Repr

/-- Where a task of a launch stands (R363). -/
inductive TaskSt where
  | idle | running | ended
  deriving DecidableEq, Repr

/-- A task of the launch: its state, whether its first instruction has issued, and the core that ran it. -/
structure TaskRun where
  st : TaskSt := .idle
  issued : Bool := false
  core : Nat := 0
  deriving DecidableEq, Repr

/-- A descriptor list of the launch (R363): cluster × 16 + channel, and its report status when it has
ended: COMPLETED, FAILED or CANCELLED. -/
structure ListRun where
  id : Nat
  begun : Bool := false
  ended : Bool := false
  failed : Bool := false
  descid : Nat := 0
  deriving DecidableEq, Repr

/-- A launch in progress or suspended (R360, R378). `variant` is the absent cluster of the variant it
runs. -/
structure Launch where
  sched : Nat
  src : CmdSrc := .mgmt
  tag : Nat := 0
  step : Bool := false
  cls : Nat := 3
  seed : Word := 0
  epoch : Nat := 0
  variant : Option Nat := none
  tasks : List (Nat × TaskRun) := []
  lists : List ListRun := []
  /-- sequences of a step (HANDLE) in step-table order, and those left out with their cause -/
  seqs : List Nat := []
  stalled : List (Nat × Nat) := []
  rollbacks : Nat := 0
  /-- a peer has acknowledged an ACCUM, a counted-flag operation or an MBPOST (R409) -/
  peerFx : Bool := false
  /-- its first task may start: the step boundary is complete -/
  ready : Bool := true
  /-- its commit record is written; its report and final reply are not (R404, R405) -/
  committed : Bool := false
  /-- AO times: start of the switch out -/
  outAt : Nat := 0
  deriving DecidableEq, Repr

/-- A suspended launch and what its switch out saved (R384, R386): cores, cluster flags and the live bytes
of scratchpads. -/
structure Saved where
  launch : Launch
  cores : List (Nat × Core)
  flags : List (Nat × BitVec 256)
  bytes : List Host.Cell
  logged : List (Nat × Nat)
  /-- its saved state was discarded: it is rolled back and repitched when it resumes (R383) -/
  lost : Bool := false
  cellar : List (Nat × List Byte)
  deriving DecidableEq, Repr

/-- A loaded schedule: its ID, its image, the bytes it takes of the system area, its dirty resident windows
(core, slot) and whether it is stale (R411). -/
structure Sched where
  id : Nat
  image : SchedImage
  bytes : Nat
  dirty : List (Nat × Nat) := []
  stale : Bool := false
  deriving DecidableEq, Repr

/-- A sequence of the cask manager (R288, R290). -/
inductive SeqSt where
  | running | stalled | full
  deriving DecidableEq, Repr

structure Seq where
  handle : Nat
  slot : Nat
  st : SeqSt
  len : Nat
  seed : Word
  index : List Nat := []
  casks : List Nat := []
  fresh : Bool := false
  deriving DecidableEq, Repr

/-- A join that waits: the command's source and tag, HANDLE, L0, SEED. -/
structure JoinReq where
  src : CmdSrc
  tag : Nat
  handle : Nat
  len : Nat
  seed : Word
  deriving DecidableEq, Repr

/-- The cask manager (CASK_ registers, R287 to R296); sequences stand oldest first. -/
structure Cask where
  cfg : CfgSt := {}
  busy : Bool := false
  slow : Bool := false
  base : Nat := 0
  ncask : Nat := 0
  seqtab : Nat := 0
  tpgM1 : Nat := 0
  cpgM1 : Nat := 0
  seqs : List Seq := []
  joins : List JoinReq := []
  leaves : List (CmdSrc × Nat × Nat) := []
  deriving DecidableEq, Repr

/-- The counters of a queue pair (R387). -/
structure Acct where
  launches : Nat := 0
  waitSum : Nat := 0
  waitMax : Nat := 0
  hist : List (Nat × Nat) := []
  preempts : Nat := 0
  displaced : Nat := 0
  busy : Nat := 0
  deriving DecidableEq, Repr

/-- STATE of PART_nRUN. -/
inductive PartSt where
  | none | creating | idle | running | switching | destroying
  deriving DecidableEq, Repr

def PartSt.code : PartSt → Nat
  | .none => 0 | .creating => 1 | .idle => 2 | .running => 3 | .switching => 4 | .destroying => 5

/-- An error whose handling is under way (R390, R393), or a SELFTEST or MAPOUT (R398): its record's index,
the kiln test's RESULT, the ACTION once decided, the time of detection, the test's length and the time from
detection to the end of the action in µs, the unit's TRANSIENT results in the window of R397, and the command
it is for. -/
structure Handling where
  det : Detection
  record : Nat
  result : Nat := 0
  action : Nat := 0
  at_ : Nat := 0
  ktime : Nat := 0
  atime : Nat := 0
  tcount : Nat := 0
  cmd : Option (CmdSrc × Nat) := none
  deriving DecidableEq, Repr

/-- A staged configuration item (R367): ITEM, INDEX, P2 to P7. -/
structure Staged where
  item : Nat
  index : Nat
  value : List Word
  deriving DecidableEq, Repr

/-- The rows of a pseudo-channel that was mapped out, moved to spare (R310): how many it held, and the surviving
pseudo-channels in the order of the rotation, with the spare rows that each had in use. -/
structure PcMove where
  lost : Nat
  held : Nat
  order : List (Nat × Nat)
  deriving DecidableEq, Repr

structure Part where
  /-- P1 bits [45:0] of the PART_CREATE, and V (PART_nDEF) -/
  defn : Nat := 0
  valid : Bool := false
  st : PartSt := .none
  epoch : Nat := 0
  preq : Bool := false
  /-- PART_nABS -/
  absent : BitVec 48 := 0
  ymiss : Nat := 0
  switches : Nat := 0
  /-- device-virtual pages; those with an image are mapped by a loaded schedule (R376) -/
  pages : List Page := []
  scheds : List Sched := []
  /-- the launch in progress (R21), and why it stopped -/
  launch : Option Launch := none
  abort : Option Abort := none
  /-- the launch has been rolled back and may be repitched; data it cannot recover was lost (R413, R414) -/
  rolledBack : Bool := false
  lossy : Bool := false
  suspended : List Saved := []
  /-- the launch that a switch brings in, by source and tag -/
  incoming : Option (CmdSrc × Nat) := none
  /-- last queue pair served in each class (R380) -/
  lastQp : List (Nat × Nat) := []
  /-- saved carried scratchpad bytes by schedule, and the schedule whose bytes are in place (R126) -/
  boundary : List (Nat × List Host.Cell) := []
  lastSched : Option Nat := none
  /-- the logged ranges of the launch in progress: first 64-byte line and number of lines (R402) -/
  logged : List (Nat × Nat) := []
  /-- the cellar: the lines whose bitmap bit is set, with their old bytes (R403) -/
  cellar : List (Nat × List Byte) := []
  /-- the commit record: schedule ID, tag, epoch (R404) -/
  commit : Option (Nat × Nat × Nat) := none
  /-- settings of the queue pairs: RESV and QCLASS (R306) -/
  resv : List (Nat × Nat) := []
  qclass : List (Nat × Nat) := []
  staged : List Staged := []
  /-- commits that wait, in order: source, tag, TEPOCH -/
  commits : List (CmdSrc × Nat × Nat) := []
  conns : List (Nat × Conn) := []
  cask : Cask := {}
  acct : List (Nat × Acct) := []
  /-- errors being handled, the first one under test (R393), and those acted on whose record waits for the
  launch (R390 step 6) -/
  handling : List Handling := []
  acted : List Handling := []
  /-- CANCEL commands that wait for their target's rollback (R365) -/
  cancels : List (CmdSrc × Nat) := []
  /-- kiln saves: core, its resident and carried bytes by offset, and the offsets that could not be read
  (R395) -/
  kiln : List (Nat × List (Nat × Byte) × List Nat) := []
  /-- a command that destroys the partition waits for its launch (R371) -/
  destroy : Option (CmdSrc × Nat) := none
  /-- device memory lost, not to be restored by a rollback (R311, R414) -/
  lostRanges : List (Nat × Nat) := []
  /-- map-outs of the partition's pseudo-channels, in order (R310) -/
  moves : List PcMove := []
  /-- CLT packets held during one: port group, packet -/
  rxHold : List (Nat × CltPkt) := []
  deriving DecidableEq, Repr

/-- The resources a PART_CREATE names (R359, R372): cluster groups, stacks, port groups, host port, the
pairing bit and MSPARE. -/
def Part.hasGroup (p : Part) (g : Nat) : Bool := p.valid && p.defn.testBit g
def Part.hasStack (p : Part) (s : Nat) : Bool := p.valid && decide (s < 12) && p.defn.testBit (12 + s)
def Part.hasPort (p : Part) (g : Nat) : Bool := p.valid && decide (g < 16) && p.defn.testBit (24 + g)
def Part.hostPort (p : Part) : Nat := p.defn / 2 ^ 40 % 4
def Part.paired (p : Part) : Bool := p.defn.testBit 42
def Part.mspare (p : Part) : Nat := p.defn / 2 ^ 43 % 8

/-- Whether the partition stands: its creation is complete and its teardown has not begun, so that its host port is
bound (R371, R373). -/
def Part.bound (p : Part) : Bool := p.valid && p.st != .creating && p.st != .destroying

/-- Bytes of a slice that are usable (R300). -/
def Part.usable (p : Part) : Nat := sliceBytes / 32 * (32 - p.mspare)

/-- Whether an offset of a slice lies in the system area: the highest 2 GiB of its usable part (R376). -/
def Part.inSystemArea (p : Part) (off : Nat) : Bool :=
  decide (p.usable - 0x80000000 ≤ off ∧ off < p.usable)

/-- The stacks a partition owns, in rising order. -/
def Part.stackIds (p : Part) : List Nat := (List.range 12).filter p.hasStack

/-- The clusters of a partition, and those that are not mapped out. -/
def Part.clusters (p : Part) : List Nat := (List.range 48).filter (fun c => p.hasGroup (groupOf c))
def Part.live (p : Part) : List Nat := p.clusters.filter (fun c => !p.absent.getLsbD c)

/-- PART_nRUN.ABSENT. -/
def Part.absentCode (p : Part) : Nat :=
  match p.clusters.filter (fun c => p.absent.getLsbD c) with
  | [] => 0xFF
  | [c] => c
  | _ => 0xFE

def Part.sched (p : Part) (id : Nat) : Option Sched := p.scheds.find? (fun x => x.id == id)

end Sys2Proof.Machine
end

