-- ==== Sys2Proof/Machine/HbmState.lean ====
section
/-!
DEFINITION. The state of an HBM controller (R302 to R312).
-/
namespace Sys2Proof.Machine
open Sys2Proof

/-- The controller of one stack. -/
structure Hbm where
  cfg : CfgSt := {}
  ue : Bool := false
  migr : Bool := false
  zbusy : Bool := false
  mapout : BitVec 64 := 0
  period : Nat := 0
  sweeps : Nat := 0
  cecnt : Nat := 0
  odcnt : Nat := 0
  ueOff : Nat := 0
  uePc : Nat := 0
  ueScrub : Bool := false
  /-- HBM_PCCEi: CECNT and SINCE by pseudo-channel of the stack -/
  pcce : List (Nat × Nat × Nat) := []
  /-- the scrubber's next block, by pseudo-channel of the stack -/
  scrub : List (Nat × Nat) := []
  deriving DecidableEq, Repr

end Sys2Proof.Machine
end

