-- ==== Sys2Proof/Machine/DevState.lean ====
section
/-!
DEFINITION. The state of the device blocks outside partitions: host ports (R345 to R371), the error log
(R400, R401), clocks, power and measurement (R416 to R428), time (R321 to R323), reset, boot and firmware
update (R431 to R446).
-/
namespace Sys2Proof.Machine
open Sys2Proof

/-! ### Host ports -/

/-- A queue pair (HOST_QPq registers); `held` are the replies held for lack of room or in the error
state. -/
structure Qp where
  sqLogn : Nat := 0
  en : Bool := false
  sqBase : Nat := 0
  cqLogn : Nat := 0
  ien : Bool := false
  vec : Nat := 0
  cqBase : Nat := 0
  sqt : Nat := 0
  cqh : Nat := 0
  sqHead : Nat := 0
  cqTail : Nat := 0
  err : Bool := false
  phase : Bool := true
  /-- entries of the completion ring written and not freed -/
  used : Nat := 0
  dup : Nat := 0
  held : List (List Word) := []
  deriving DecidableEq, Repr

/-- How a host port's link stands (R440). -/
inductive LinkSt where
  | down | training | up
  deriving DecidableEq, Repr

/-- A request of a host port that waits behind earlier ones (R310, R338, R347, R370): a BAR2 write; the rest of one
through a remote page; a BAR2 read; a post. -/
inductive HostHold where
  | write (o : Nat) (bs : List Byte)
  | clt (o ci rk pva page : Nat) (bs : List Byte)
  | read (o n : Nat)
  | post (ch notice : Nat)
  deriving DecidableEq, Repr

structure HostS where
  cfg : CfgSt := {}
  link : LinkSt := .down
  perst : Bool := false
  paired : Bool := false
  werr : Bool := false
  mberr : Bool := false
  evqp : Nat := 0
  winb : Nat := 0
  lost : Nat := 0
  woff : Nat := 0
  wreason : Nat := 0
  mbch : Nat := 0
  mbstatus : Nat := 0
  mbv : Bool := false
  qps : List (Nat × Qp) := []
  /-- HOST_MBFch -/
  mbf : List (Nat × Bool) := []
  /-- requests that wait, oldest first -/
  hold : List HostHold := []
  /-- the number of the next event (R369) -/
  evseq : Nat := 0
  deriving DecidableEq, Repr

/-! ### The error log -/

structure ErrLog where
  cfg : CfgSt := {}
  fatal : Bool := false
  next : Nat := 0
  /-- the records kept: index and Q0 to Q7 -/
  records : List (Nat × List Word) := []
  corr : Nat := 0
  recov : Nat := 0
  degr : Nat := 0
  fatalc : Nat := 0
  /-- TRANSIENT results of each unit: (UKIND, unit, AO time at which the result is 24 hours old) (R397) -/
  history : List (Nat × Nat × Nat) := []
  /-- errors of units that lie in no partition -/
  handling : List Handling := []
  deriving DecidableEq, Repr

/-! ### Clocks and power -/

/-- One cluster's divider terms (CLK_DIVc) and thermal timers. `eff` is the divider in force, which follows
the largest term when the rail has settled (R417, R419). -/
structure Div where
  cfg : Nat := 0
  cap : Nat := 0
  therm : Nat := 0
  eff : Nat := 0
  droop : Nat := 0
  stretching : Bool := false
  hot : Bool := false
  cool : Bool := false
  deriving DecidableEq, Repr

structure Clk where
  cfg : CfgSt := {}
  lock : Bool := false
  level : Nat := 0
  /-- consecutive samples below the cap by more than 50 W -/
  below : Nat := 0
  divs : List (Nat × Div) := []
  steps : Nat := 0x68
  p : Nat := 0
  peak : Nat := 0
  /-- rails: mV, 0.1 A, 0.1 W -/
  rails : List (Nat × Nat × Nat × Nat) := []
  /-- diodes by 4c + d, and HBM stacks, in 1/16 °C, 16-bit two's complement -/
  temps : List (Nat × Nat) := []
  hbmTemps : List (Nat × Nat) := []
  alertT : Nat := 104
  /-- the fastest divider the rail is set for, a raise that has not settled, a lowering that waits -/
  rail : Nat := 0
  raising : Bool := false
  lowering : Bool := false
  deriving DecidableEq, Repr

/-- GTIME and its registers (R321 to R323); `frac` holds the fraction of a nanosecond in 2⁻³² ns. -/
structure GTime where
  t : Word := 0
  frac : Nat := 0
  inc : Nat := 0x0A00000000
  set_ : Bool := false
  sync : Bool := false
  skew : Bool := false
  steps : Nat := 0
  /-- PTP messages that have reached the timestamp unit, oldest first: port, message, timestamp -/
  rx : List (Nat × PtpMsg × Word) := []
  /-- the exchange under way: the sequence number of the last Sync, t1 to t3, and the number of the last Delay_Req -/
  syncSeq : Option Nat := none
  t1 : Option Word := none
  t2 : Option Word := none
  t3 : Option Word := none
  reqSeq : Nat := 0
  /-- the offset last measured, the AO times of the last Sync and since when the offset has been within 250 ns -/
  offset : Word := 0
  syncAt : Nat := 0
  calm : Option Nat := none
  deriving DecidableEq, Repr

/-! ### Reset, boot and update -/

/-- Where the device stands between power-up and READY (R431 to R442). -/
inductive BootSt where
  | cold | straps | locked | verified | zeroed | ready | stopped | test | recovery | tripped
  deriving DecidableEq, Repr

/-- A flash directory copy (R435). -/
structure DirCopy where
  valid : Bool := false
  seq : Nat := 0
  active : Nat := 0
  deriving DecidableEq, Repr

/-- Firmware update (R444). -/
inductive UpdSt where
  | idle | learn | ready | download | verify | apply | activate
  deriving DecidableEq, Repr

structure Boot where
  /-- CFG_ERR and CFG_OFF of BOOT_STATUS and of PART_STATUS -/
  cfg : CfgSt := {}
  partCfg : CfgSt := {}
  st : BootSt := .cold
  pwrgood : Bool := false
  /-- PWRGOOD rose before it had been low for 1 ms -/
  held : Bool := false
  warmRst : Bool := false
  rcause : Nat := 0
  slot : Nat := 0
  fallbk : Bool := false
  fail : Nat := 0
  bootsel : Nat := 0
  smbaddr : Nat := 0
  svnf : Nat := 0
  compat : Nat := 0
  mincompat : Nat := 0
  imageSvn : Nat := 0
  /-- pins: READY released, FAULT_N, ALERT_N and THERMTRIP_N asserted -/
  ready : Bool := false
  fault : Bool := false
  alert : Bool := false
  trip : Bool := false
  /-- training: stacks and lanes still to finish, attempts by stack -/
  training : BitVec 12 := 0
  attempts : List (Nat × Nat) := []
  lanes : BitVec 64 := 0
  /-- the board configuration block: pairs, MCTP over VDM by port, and the vendor, subsystem vendor and subsystem IDs -/
  pair01 : Bool := false
  pair23 : Bool := false
  vdm : BitVec 4 := 0
  pciIds : Nat := 0
  dir0 : DirCopy := {}
  dir1 : DirCopy := {}
  eid : Nat := 0
  tid : Nat := 0
  upd : UpdSt := .idle
  /-- the component's image size, and the bytes of it that have been written to the inactive slot -/
  updSize : Nat := 0
  updBytes : Nat := 0
  jtagIr : BitVec 8 := 0x01
  deriving DecidableEq, Repr

end Sys2Proof.Machine
end

