-- ==== Sys2Proof/Machine/State.lean ====
section
/-!
DEFINITION. The state of the block, its faults and refusals, and the state after reset.
-/
namespace Sys2Proof.Machine
open Sys2Proof

/-- The model stops with no fault: every error of the device is an effect on its state. -/
inductive Fault where
  deriving DecidableEq, Repr

/-- Why the model answers no state. -/
inductive Refusal where
  /-- Raised by an arm of exec whose meaning is not written; safe. -/
  | notModelled (mnemonic : String)
  /-- Raised by a meaning whose command is ill-formed: an operand outside the values the specification
  gives the row, so that the command names no operation or event of the device; safe. -/
  | illFormed (mnemonic : String)
  deriving DecidableEq, Repr

/-- A flag operation on its way to its flag (R234): what it does, the master that issued it, and its
rank among the operations that meet in one cycle (remote arrivals by port, then router, then core). -/
structure FlagMsg where
  target : FlagTarget
  act : FlagAct
  source : Nat
  rank : Nat
  /-- the core whose flag queue performed it -/
  origin : Option Nat
  deriving DecidableEq, Repr

structure State where
  /-- commands that wait, first in, first out -/
  pending : List Instr
  /-- the model's own counter of free values drawn -/
  free : Nat
  cores : List (Nat × Core)
  clusters : List (Nat × Cluster)
  parts : List (Nat × Part)
  /-- device memory, tuns and scratchpads by physical address; an unlisted byte is 0 -/
  mem : List Host.Cell
  /-- poisoned 64-byte blocks of device memory (R303) -/
  poison : List Nat
  /-- 16-byte entries of scratchpads and tuns that hold an uncorrectable error (R136), by physical address / 16 -/
  bad : List Nat
  /-- the maltster's own memory; an unlisted byte is 0 -/
  sram : List Host.Cell
  flight : List FlagMsg
  hbms : List (Nat × Hbm)
  mbx : Mbx
  groups : List (Nat × NetGroup)
  hosts : List (Nat × HostS)
  /-- accepted commands without a final reply, in the order fetched (R356) -/
  cmds : List Cmd
  /-- the device's own staging copy and its commits (R352, R368) -/
  staged : List Staged
  devCommits : List (CmdSrc × Nat)
  log : ErrLog
  clk : Clk
  gt : GTime
  /-- AO nanoseconds since READY (R401) -/
  ao : Nat
  boot : Boot
  /-- detections of the memory arrays not yet handled (R390) -/
  detections : List Detection
  /-- the maltster's management queue: lengths of Ethernet frames and MGMT payloads delivered (R315, R329) -/
  mgmtQueue : List (List Byte)
  /-- what the device has sent, newest first -/
  sent : List Sent
  deriving DecidableEq, Repr

/-- The machine held in cold reset (R431, R442). [log 7: DESIGN CHOICE] -/
def State.reset : State :=
  { pending := [], free := 0, cores := [], clusters := [], parts := [], mem := [], poison := [], bad := [],
    sram := [], flight := [], hbms := [], mbx := {}, groups := [], hosts := [], cmds := [], staged := [],
    devCommits := [], log := {}, clk := {}, gt := {}, ao := 0, boot := {}, detections := [],
    mgmtQueue := [], sent := [] }

end Sys2Proof.Machine
end

