-- ==== Sys2Proof/Machine/CoreRegs.lean ====
section
/-!
DEFINITION. The registers of a core's control-register block (R14): what a read returns and what an
accepted store does, register by register, under the access codes of R5.
-/
namespace Sys2Proof.Machine
open Sys2Proof

/-- CFG_ERR and CFG_OFF set for a refused write (the status register of every block). -/
def cfgErr (off : Nat) : CfgSt := { err := true, off := off }

/-- CFG_ERR at bit 0 and CFG_OFF from bit 4, `w` bits wide. -/
def CfgSt.word (c : CfgSt) (w : Nat) : Word := flagAt c.err 0 ||| place c.off w 4

/-- A W1C write of CFG_ERR. -/
def CfgSt.w1c (c : CfgSt) (v : Word) : CfgSt := { c with err := c.err && !bit v 0 }

/-- The conditions NX, UF, OF, NV from bit `lo`. -/
def Conds.word (c : Conds) (lo : Nat) : Word :=
  flagAt c.nx lo ||| flagAt c.uf (lo + 1) ||| flagAt c.of (lo + 2) ||| flagAt c.nv (lo + 3)

def Conds.ofBits (v : Word) (lo : Nat) (dz : Bool) : Conds :=
  { nx := bit v lo, uf := bit v (lo + 1), of := bit v (lo + 2), nv := bit v (lo + 3), dz := dz }

/-- A W1C write of conditions: a condition stays when its bit is written 0. -/
def Conds.w1c (c m : Conds) : Conds :=
  { nx := c.nx && !m.nx, uf := c.uf && !m.uf, of := c.of && !m.of, nv := c.nv && !m.nv, dz := c.dz && !m.dz }

/-! ### Windows -/

def Core.window (c : Core) (n : Nat) : Window := mget {} c.sp.windows n

def Core.setWindow (c : Core) (n : Nat) (w : Window) : Core :=
  { c with sp := { c.sp with windows := mput c.sp.windows n w } }

def Window.wordA (w : Window) : Word :=
  place w.base 16 0 ||| place w.last 16 16 ||| flagAt w.en 32 ||| flagAt w.res 33

def Window.wordS (w : Window) : Word :=
  place w.lo 12 0 ||| place w.hi 12 12 ||| place w.mode 2 24 ||| flagAt w.nw 26 ||| flagAt w.ne 27
    ||| flagAt w.nn 28 ||| flagAt w.ns 29

/-- Whether SP_WnS refuses a value (a reserved MODE, LO > HI, or an unassigned ID). -/
def winSReserved (v : Word) : Bool :=
  let lo := field v 11 0
  let hi := field v 23 12
  match field v 25 24 with
  | 0 => decide (hi < lo) || !idAssigned lo || !idAssigned hi
  | 1 => !idAssigned lo || !idAssigned hi
  | 2 => false
  | _ => true

/-! ### Reads -/

/-- CORE_STATUS. -/
def Core.statusWord (c : Core) : Word :=
  c.cfg.word 16 ||| place c.ring.val 2 24 ||| flagAt c.banks.r0.busy 26 ||| flagAt c.banks.r1.busy 27
    ||| flagAt c.banks.r2.busy 28 ||| flagAt c.banks.r3.busy 29 ||| flagAt c.halt 30

/-- TU_STATUS. BUSY is 1 while the queue holds an instruction, also one whose head waits or has stopped at a
fault (R65). [log 124: DEDUCED] -/
def Tile.statusWord (t : Tile) : Word :=
  t.cfg.word 16 ||| t.conds.word 24 ||| flagAt t.aovf0 28 ||| flagAt t.aovf1 29 ||| flagAt t.nanf 30
    ||| place t.queue.length 3 32 ||| flagAt (!t.queue.isEmpty) 35 ||| flagAt (!t.frozen.isEmpty) 36

/-- VSU_STATUS; BUSY as in TU_STATUS. [log 124: DEDUCED] -/
def Vsu.statusWord (v : Vsu) : Word :=
  v.cfg.word 16 ||| v.conds.word 24 ||| flagAt v.conds.dz 28 ||| flagAt v.nanf 29
    ||| place v.queue.length 3 32 ||| flagAt (!v.queue.isEmpty) 35 ||| flagAt (!v.frozen.isEmpty) 36

/-- FLG_STATUS of a core. -/
def FlagUnit.statusWord (f : FlagUnit) : Word :=
  f.cfg.word 16 ||| flagAt f.lim 24 ||| flagAt f.ldir 25 ||| place f.lcf 4 26 ||| place f.lsrc 12 30
    ||| place f.queue.length 4 42

/-- CORE_RTSTAT. -/
def Router.statusWord (r : Router) : Word :=
  flagAt r.run 0 ||| flagAt r.wait 1 ||| flagAt r.ended 2 ||| flagAt r.flt 3 ||| flagAt r.nx 4
    ||| flagAt r.of 5 ||| flagAt r.nv 6 ||| flagAt r.iovf 7 ||| place r.ce 8 8 ||| place r.widx 10 16
    ||| place r.beat 16 26

def StkReg.word (r : StkReg) : Word := place r.limg 16 0 ||| place r.topg 17 16

/-- One of four packed counters of FLG_CFn. -/
def cfWord (cf : List (Nat × Nat)) (n : Nat) : Word :=
  place (mget 0 cf (4 * n)) 16 0 ||| place (mget 0 cf (4 * n + 1)) 16 16
    ||| place (mget 0 cf (4 * n + 2)) 16 32 ||| place (mget 0 cf (4 * n + 3)) 16 48

/-- The value of the 64-bit register at an 8-aligned offset of a core's block; an offset that names no
register reads zero (R12). -/
def coreRegRead (c : Core) (off : Nat) : Word :=
  if off < 0x100 then
    match off with
    | 0x00 => c.statusWord
    | 0x08 => flagAt c.tmode 0 ||| flagAt c.preciseM 1
    | 0x10 => c.ie.zeroExtend 64 ||| flagAt c.gie 16
    | 0x18 => c.ipend.zeroExtend 64
    | 0x28 => place c.gtb 8 12
    | 0x40 => c.dsr.r0.word | 0x48 => c.rsr.r0.word
    | 0x50 => c.dsr.r1.word | 0x58 => c.rsr.r1.word
    | 0x60 => c.dsr.r2.word | 0x68 => c.rsr.r2.word
    | 0x70 => c.dsr.r3.word | 0x78 => c.rsr.r3.word
    | 0x80 => place c.vbase.r0 36 12 | 0x88 => place c.vbase.r1 36 12
    | 0x90 => place c.vbase.r2 36 12 | 0x98 => place c.vbase.r3 36 12
    | _ => 0
  else if off = 0x200 then flagAt c.ddis 0 ||| flagAt c.idis 1
  else if off = 0x208 then place c.dpar 16 0 ||| place c.ipar 16 16
  else if off = 0x800 then place c.rt.tmoexp 4 0
  else if off = 0x808 then c.rt.statusWord
  else if off = 0x810 then
    place c.rt.fault.cause 4 0 ||| place c.rt.fault.port 3 4 ||| place c.rt.fault.widx 10 8
      ||| place c.rt.fault.beat 16 18
  else if off = 0x1000 then c.tile.statusWord
  else if off = 0x1008 then
    c.tile.te.word 0 ||| flagAt c.tile.teAovf 4 ||| flagAt c.tile.nanen 5 ||| place c.tile.iqd 2 8
  else if 0x1010 ≤ off ∧ off < 0x1050 then place (mget 0 c.tile.shapes ((off - 0x1010) / 8)) 24 0
  else if off = 0x1050 then
    place c.tile.finfo.cause 8 0 ||| place c.tile.finfo.idx 6 8 ||| flagAt c.tile.finfo.wr 15
      ||| place c.tile.finfo.iaddr 48 16
  else if off = 0x1058 then place c.tile.finfo.addr 48 0
  else if off = 0x1060 then
    place c.tile.nanpos.i 6 0 ||| place c.tile.nanpos.j 6 6 ||| flagAt c.tile.nanpos.dst 12
      ||| place c.tile.nanpos.acc 1 13 ||| place c.tile.nanpos.iaddr 48 16
  else if off = 0x2000 then c.vsu.statusWord
  else if off = 0x2008 then
    c.vsu.te.word 0 ||| flagAt c.vsu.te.dz 4 ||| flagAt c.vsu.nanen 5 ||| place c.vsu.iqd 2 8
  else if off = 0x2010 then
    place c.vsu.fcause 8 0 ||| place c.vsu.fstream 3 8 ||| flagAt c.vsu.fwr 11 ||| place c.vsu.fiaddr 48 16
  else if off = 0x2018 then place c.vsu.frow 16 0 ||| place c.vsu.fcol 16 16
  else if off = 0x2020 then place c.vsu.faddr 48 0
  else if off = 0x2028 then
    place c.vsu.nanOp 8 0 ||| place c.vsu.nanOrigin 2 8 ||| place c.vsu.nanIaddr 48 16
  else if off = 0x2030 then place c.vsu.nanRow 16 0 ||| place c.vsu.nanCol 16 16
  else if off = 0x2038 then place c.vsu.segcnt 33 0
  else if off = 0x3000 then c.sp.cfg.word 16 ||| flagAt c.sp.rej 24 ||| flagAt c.sp.ue 25
  else if off = 0x3008 then flagAt c.sp.rejie 0
  else if off = 0x3010 then
    place c.sp.rejOff 20 0 ||| place c.sp.rejReason 4 20 ||| place c.sp.rejSrc 12 24
      ||| place c.sp.rejLenM1 12 36
  else if off = 0x3018 then place c.sp.rejCount 32 0
  else if off = 0x3020 then place c.sp.cecnt 16 0 ||| place c.sp.uerow 10 16 ||| place c.sp.uebank 6 26
  else if 0x3100 ≤ off ∧ off < 0x3300 then
    let w := c.window ((off - 0x3100) / 0x20)
    match (off - 0x3100) % 0x20 with
    | 0x00 => w.wordA
    | 0x08 => w.wordS
    | 0x10 => place w.owner 32 0
    | _ => 0
  else if off = 0x4000 then c.flg.statusWord
  else if off = 0x4008 then c.flg.f
  else if 0x4010 ≤ off ∧ off < 0x4030 then cfWord c.flg.cf ((off - 0x4010) / 8)
  else if off = 0x4030 then c.flg.watch
  else 0

/-! ### Stores -/

/-- WATCH_FIRE (R229): whenever a watched flag is 1, interrupt 0x22 becomes pending and the watch is
cleared. -/
def Core.fireWatch (c : Core) : Core :=
  if c.flg.f &&& c.flg.watch = 0 then c
  else { c with ipend := c.ipend ||| 4, flg := { c.flg with watch := c.flg.watch &&& ~~~c.flg.f } }

/-- A store to CORE_DSn or CORE_RSn: the new value, or none where the write is refused with CFG_ERR. -/
def stkRegWrite (busy : Bool) (v : Word) : Option StkReg :=
  let l := field v 15 0
  let t := field v 32 16
  if busy || decide (t ≤ l) || decide (0x10000 < t) then none else some ⟨l, t⟩

/-- The ring whose CORE_DSn, CORE_RSn or CORE_VBASEn an offset names. -/
def ringOf (n : Nat) : Fin 4 := ⟨n % 4, Nat.mod_lt _ (by decide)⟩

/-- CORE_ISET: set the software interrupt bits 15:5. -/
def Core.iset (c : Core) (v : Word) : Core :=
  { c with ipend := c.ipend ||| ((v.truncate 16) &&& 0xFFE0) }

/-- TU_CTL.DROP (R89). -/
def Tile.drop (t : Tile) : Tile := { t with frozen := [] }

/-- VSU_CTL.DROP (R111). -/
def Vsu.drop (v : Vsu) : Vsu := { v with frozen := [] }

/-- SP_CTL.CLRREJ. -/
def Sp.clrrej (p : Sp) : Sp :=
  { p with rejOff := 0, rejReason := 0, rejSrc := 0, rejLenM1 := 0, rejCount := 0 }

/-- TU_CTL with a legal IQD. -/
def Tile.ctlWrite (t : Tile) (v : Word) : Tile :=
  if field v 9 8 = 3 then { t with cfg := cfgErr 0x1008 }
  else
    let t' := { t with te := Conds.ofBits v 0 false, teAovf := bit v 4, nanen := bit v 5, iqd := field v 9 8 }
    if bit v 16 then t'.drop else t'

/-- VSU_CTL. -/
def Vsu.ctlWrite (u : Vsu) (v : Word) : Vsu :=
  if field v 9 8 = 3 then { u with cfg := cfgErr 0x2008 }
  else
    let u' := { u with te := Conds.ofBits v 0 (bit v 4), nanen := bit v 5, iqd := field v 9 8 }
    if bit v 16 then u'.drop else u'

/-- SP_WnA, SP_WnS and SP_WnO. The maltster writes a resident window; a core may not. -/
def Core.windowWrite (c : Core) (maltster : Bool) (off : Nat) (v : Word) : Core :=
  let n := (off - 0x3100) / 0x20
  let w := c.window n
  let refuse : Core := { c with sp := { c.sp with cfg := cfgErr off } }
  match (off - 0x3100) % 0x20 with
  | 0x00 =>
    if (w.res && !maltster) || decide (field v 31 16 < field v 15 0) then refuse
    else c.setWindow n { w with base := field v 15 0, last := field v 31 16, en := bit v 32 }
  | 0x08 =>
    if (w.res && !maltster) || winSReserved v then refuse
    else c.setWindow n { w with lo := field v 11 0, hi := field v 23 12, mode := field v 25 24,
                                nw := bit v 26, ne := bit v 27, nn := bit v 28, ns := bit v 29 }
  | _ => c

/-- The four counters of FLG_CFn. -/
def cfWrite (cf : List (Nat × Nat)) (n : Nat) (v : Word) : List (Nat × Nat) :=
  mput (mput (mput (mput cf (4 * n) (field v 15 0)) (4 * n + 1) (field v 31 16))
    (4 * n + 2) (field v 47 32)) (4 * n + 3) (field v 63 48)

/-- Whether an offset of the SP_ range names a register; a store elsewhere in it is ignored from every ring. -/
def spRegNamed (off : Nat) : Bool :=
  ([0x3000, 0x3008, 0x3010, 0x3018, 0x3020] : List Nat).contains off
    || (decide (0x3100 ≤ off ∧ off < 0x3300) && ([0x00, 0x08, 0x10] : List Nat).contains ((off - 0x3100) % 0x20))

/-- The highest-numbered ring that may store `v` at an offset of the block (the Registers sections); an offset
that names no register ignores writes (R12). -/
def coreRegRing (off : Nat) (v : Word) : Nat :=
  if off < 0x100 then
    if off = 0x28 ∨ (0x40 ≤ off ∧ off < 0xA0) then 0
    else if off = 0 ∨ off = 8 ∨ off = 0x10 ∨ off = 0x20 then 1
    else 3
  else if off = 0x200 ∨ off = 0x208 then 1
  else if off = 0x1008 ∨ off = 0x2008 then (if bit v 16 then 1 else 3)
  else if spRegNamed off then 1
  else if off = 0x4000 then 1
  else 3

/-- An accepted store of 64 bits at an 8-aligned offset of the block. `maltster` says who stores; the
other writer is the owning core within its ring limit (R447). The W1C fields of CORE_RTSTAT clear for both (R5,
R447). SP_STATUS.UE clears where its bit is written 1, by its access code. [log 123: DEDUCED] -/
def coreRegStore (maltster : Bool) (off : Nat) (v : Word) (c : Core) : Core :=
  let coreCfg : CfgSt := cfgErr off
  if off < 0x100 then
    match off with
    | 0x00 => { c with cfg := c.cfg.w1c v }
    | 0x08 => { c with tmode := bit v 0, preciseM := bit v 1 }
    | 0x10 => { c with ie := v.truncate 16, gie := bit v 16 }
    | 0x20 => c.iset v
    | 0x28 => { c with gtb := field v 19 12 }
    | _ =>
      if 0x40 ≤ off ∧ off < 0x80 then
        let n := ringOf ((off - 0x40) / 0x10)
        match stkRegWrite (c.banks.get n).busy v with
        | none => { c with cfg := coreCfg }
        | some r =>
          if off % 0x10 = 0 then { c with dsr := c.dsr.set n r } else { c with rsr := c.rsr.set n r }
      else if 0x80 ≤ off ∧ off < 0xA0 then
        { c with vbase := c.vbase.set (ringOf ((off - 0x80) / 8)) (field v 47 12) }
      else c
  else if off = 0x200 then
    { c with ddis := bit v 0, idis := bit v 1,
             l1d := if bit v 0 then [] else c.l1d, l1i := if bit v 1 then [] else c.l1i }
  else if off = 0x808 then
    { c with rt := { c.rt with nx := c.rt.nx && !bit v 4, of := c.rt.of && !bit v 5,
                               nv := c.rt.nv && !bit v 6, iovf := c.rt.iovf && !bit v 7 } }
  else if off = 0x1000 then
    { c with tile := { c.tile with cfg := c.tile.cfg.w1c v, conds := c.tile.conds.w1c (Conds.ofBits v 24 false),
                                   aovf0 := c.tile.aovf0 && !bit v 28, aovf1 := c.tile.aovf1 && !bit v 29,
                                   nanf := c.tile.nanf && !bit v 30 } }
  else if off = 0x1008 then { c with tile := c.tile.ctlWrite v }
  else if off = 0x2000 then
    { c with vsu := { c.vsu with cfg := c.vsu.cfg.w1c v,
                                 conds := c.vsu.conds.w1c (Conds.ofBits v 24 (bit v 28)),
                                 nanf := c.vsu.nanf && !bit v 29 } }
  else if off = 0x2008 then { c with vsu := c.vsu.ctlWrite v }
  else if off = 0x3000 then
    { c with sp := { c.sp with cfg := c.sp.cfg.w1c v, rej := c.sp.rej && !bit v 24, ue := c.sp.ue && !bit v 25 } }
  else if off = 0x3008 then
    let p := { c.sp with rejie := bit v 0 }
    { c with sp := if bit v 1 then p.clrrej else p }
  else if 0x3100 ≤ off ∧ off < 0x3300 then c.windowWrite maltster off v
  else if off = 0x4000 then
    { c with flg := { c.flg with cfg := c.flg.cfg.w1c v, lim := c.flg.lim && !bit v 24 } }
  else if off = 0x4008 ∧ maltster then ({ c with flg := { c.flg with f := v } } : Core).fireWatch
  else if 0x4010 ≤ off ∧ off < 0x4030 ∧ maltster then
    { c with flg := { c.flg with cf := cfWrite c.flg.cf ((off - 0x4010) / 8) v } }
  else if off = 0x4030 ∧ maltster then ({ c with flg := { c.flg with watch := v } } : Core).fireWatch
  else c

end Sys2Proof.Machine
end

