-- ==== Sys2Proof/Machine/Ops.lean ====
section
/-!
DEFINITION. The named operations over the state: units, memory in canonical form, free values, ownership
(R13, R18, R372).
-/
namespace Sys2Proof.Machine
open Sys2Proof

/-- What a meaning answers. -/
abbrev Out := Host.Outcome State Fault Refusal

/-! ### Units -/

def State.core (s : State) (k : Nat) : Core := mget (Core.atReset k) s.cores k
def State.setCore (s : State) (k : Nat) (c : Core) : State := { s with cores := mput s.cores k c }
def State.modCore (s : State) (k : Nat) (f : Core → Core) : State := s.setCore k (f (s.core k))

def State.cluster (s : State) (c : Nat) : Cluster := mget {} s.clusters c
def State.setCluster (s : State) (c : Nat) (x : Cluster) : State := { s with clusters := mput s.clusters c x }
def State.modCluster (s : State) (c : Nat) (f : Cluster → Cluster) : State := s.setCluster c (f (s.cluster c))

def State.part (s : State) (p : Nat) : Part := mget {} s.parts p
def State.setPart (s : State) (p : Nat) (x : Part) : State := { s with parts := mput s.parts p x }
def State.modPart (s : State) (p : Nat) (f : Part → Part) : State := s.setPart p (f (s.part p))

/-! ### Memory -/

/-- The byte at an address; an unlisted byte is zero (R124, R140, R299). [log 8: DEDUCED] -/
def memGet : List Host.Cell → Nat → Byte
  | [], _ => 0
  | (a', b) :: m, a => if a' = a then b else memGet m a

/-- A cell placed before the first higher address. -/
def memInsert : List Host.Cell → Nat → Byte → List Host.Cell
  | [], a, b => [(a, b)]
  | (a', b') :: m, a, b => if a < a' then (a, b) :: (a', b') :: m else (a', b') :: memInsert m a b

/-- Memory with one byte written: a zero is not listed. -/
def memPut (m : List Host.Cell) (a : Nat) (b : Byte) : List Host.Cell :=
  let m' := m.filter (fun e => e.1 != a)
  if b = 0 then m' else memInsert m' a b

/-- The canonical form of a memory, from a lower bound on its addresses. -/
def memWfFrom : Nat → List Host.Cell → Bool
  | _, [] => true
  | lo, (a, b) :: m => decide (lo ≤ a) && b != 0 && memWfFrom (a + 1) m

/-- Addresses strictly rising, no entry equal to what an unlisted address reads as. [log 8: DEDUCED] -/
def Memory.wf (m : List Host.Cell) : Bool := memWfFrom 0 m

def State.getByte (s : State) (a : Nat) : Byte := memGet s.mem a
def State.putByte (s : State) (a : Nat) (b : Byte) : State := { s with mem := memPut s.mem a b }

def memGetN (m : List Host.Cell) (a n : Nat) : List Byte := (List.range n).map (fun i => memGet m (a + i))

def memPutN : List Host.Cell → Nat → List Byte → List Host.Cell
  | m, _, [] => m
  | m, a, b :: bs => memPutN (memPut m a b) (a + 1) bs

def State.getBytes (s : State) (a n : Nat) : List Byte := memGetN s.mem a n
def State.putBytes (s : State) (a : Nat) (bs : List Byte) : State := { s with mem := memPutN s.mem a bs }

/-- Memory with every listed byte of [lo, hi) set to zero. -/
def memZero (m : List Host.Cell) (lo hi : Nat) : List Host.Cell :=
  m.filter (fun e => !(decide (lo ≤ e.1) && decide (e.1 < hi)))

/-- Bytes set to zero by writes of whole entries, which clear the errors that those held (R136). -/
def State.zeroRange (s : State) (lo n : Nat) : State :=
  { s with mem := memZero s.mem lo (lo + n),
           bad := s.bad.filter (fun b => !(decide (lo ≤ 16 * b) && decide (16 * b + 16 ≤ lo + n))) }

/-! ### Free values -/

/-- A fresh free value and the state that has drawn it. [log 6: DESIGN CHOICE] -/
def State.drawFree (s : State) : Word × State := (Config.freeWord s.free, { s with free := s.free + 1 })

/-! ### Ownership -/

def partList : List Nat := [0, 1, 2, 3]

/-- The partition that holds a cluster (R372). -/
def State.partOfCluster (s : State) (c : Nat) : Option Nat :=
  if c < 48 then partList.find? (fun p => (s.part p).hasGroup (groupOf c)) else none

/-- The partition that holds a core; none for the maltster. -/
def State.partOfCore (s : State) (k : Nat) : Option Nat :=
  if k < 768 then s.partOfCluster (clusterOf k) else none

/-- The partition that owns a stack and with it its slice (R13). -/
def State.partOfStack (s : State) (n : Nat) : Option Nat := partList.find? (fun p => (s.part p).hasStack n)

def State.partOfPort (s : State) (g : Nat) : Option Nat := partList.find? (fun p => (s.part p).hasPort g)

/-- The partition a host port is bound to; the upper port of a pair issues as its lower one (R20). -/
def State.partOfHost (s : State) (h : Nat) : Option Nat :=
  partList.find? (fun p =>
    let q := s.part p
    q.bound && (q.hostPort == h || (q.paired && q.hostPort + 1 == h)))

/-- The partition of a master (R19); none for the maltster and for masters in no partition. -/
def State.partOfMaster (s : State) (m : Master) : Option Nat :=
  match m with
  | .core k => s.partOfCore k
  | .engine c _ => s.partOfCluster c
  | .host h => s.partOfHost h
  | .maltster => none
  | .port g => s.partOfPort g
  | .cask p => if (s.part p).valid then some p else none

/-- The partition that owns a place; none for a device block or a hole. -/
def State.ownerOf (s : State) (x : Place) : Option Nat :=
  match x with
  | .mem a => s.partOfStack (a / sliceBytes)
  | .tun c _ => s.partOfCluster c
  | .spad k _ => s.partOfCore k
  | .coreReg k _ => s.partOfCore k
  | .clReg c _ => s.partOfCluster c
  | .devReg _ _ _ => none
  | .hole => none

/-! ### Writes that are in place -/

/-- R411: a write of a launch to a resident window sets the window's dirty mark. -/
def State.markDirty (s : State) (a : Nat) : State :=
  match placeOf a with
  | .spad k off =>
    match s.partOfCore k with
    | none => s
    | some p =>
      (List.range 16).foldl (fun s n =>
        let w := (s.core k).window n
        if w.res && decide (w.base * 16 ≤ off ∧ off < w.last * 16 + 16) then
          s.modPart p (fun q => { q with scheds := q.scheds.map (fun x =>
            if x.id == w.owner && !x.dirty.contains (k, n) then { x with dirty := (k, n) :: x.dirty } else x) })
        else s) s
  | _ => s

/-- R127, R403: before a write of the launch in progress changes a byte of a logged range, the old line
goes to the cellar, once for each line. -/
def State.logByte (s : State) (a : Nat) : State :=
  match s.ownerOf (placeOf a) with
  | none => s
  | some p =>
    let s := if (s.part p).launch.isSome then s.markDirty a else s
    let q := s.part p
    let line := a / 64
    if q.logged.any (fun r => decide (r.1 ≤ line) && decide (line < r.1 + r.2))
        && !q.cellar.any (fun e => e.1 == line) then
      s.setPart p { q with cellar := q.cellar ++ [(line, s.getBytes (line * 64) 64)] }
    else s

/-- One byte of device memory, tun or scratchpad written in place. -/
def State.placeByte (s : State) (a : Nat) (b : Byte) : State := (s.logByte a).putByte a b

/-- Bytes written in place at consecutive physical addresses. -/
def State.placeBytes (s : State) (a : Nat) : List Byte → State
  | [] => s
  | b :: bs => (s.placeByte a b).placeBytes (a + 1) bs

/-- Bytes written in place at the addresses given. -/
def State.placeAt (s : State) : List (Nat × Byte) → State
  | [] => s
  | (a, b) :: bs => (s.placeByte a b).placeAt bs

/-! ### Error protection (R136, R302, R303) -/

def State.hbm (s : State) (n : Nat) : Hbm := mget {} s.hbms n
def State.setHbm (s : State) (n : Nat) (h : Hbm) : State := { s with hbms := mput s.hbms n h }
def State.modHbm (s : State) (n : Nat) (f : Hbm → Hbm) : State := s.setHbm n (f (s.hbm n))

def State.detect (s : State) (d : Detection) : State := { s with detections := s.detections ++ [d] }

/-- Whether a map-out is moving bytes of a partition's stacks, which holds every request to its device memory (R310). -/
def State.migrating (s : State) (p : Nat) : Bool := (s.part p).stackIds.any (fun n => (s.hbm n).migr)

def State.pcOut (s : State) (pc : Nat) : Bool := (s.hbm (pc / 64)).mapout.getLsbD (pc % 64)

/-- Rows of 256 bytes of a pseudo-channel (R298), and those of its usable part (R300). -/
def pcRows : Nat := 3145728
def Part.ownRows (q : Part) : Nat := 98304 * (32 - q.mspare)

/-- Where row k of a lost pseudo-channel was written: to the survivors in rotation, each from its first free spare row
on; none where that lies beyond its spare (R310, R311). [log 132: DESIGN CHOICE] -/
def PcMove.place (m : PcMove) (own k : Nat) : Option (Nat × Nat) :=
  match m.order[k % m.order.length]? with
  | none => none
  | some (pc, used) =>
    let r := own + used + k / m.order.length
    if r < pcRows then some (pc, r) else none

/-- The pseudo-channel and row that hold a row homed at another, after map-outs (R310). -/
def holderOf (own : Nat) : List PcMove → Nat × Nat → Option (Nat × Nat)
  | [], x => some x
  | m :: ms, x =>
    if x.1 = m.lost then match m.place own x.2 with
      | some y => holderOf own ms y
      | none => none
    else holderOf own ms x

/-- The home of a byte of device memory (R301, R310): pseudo-channel and offset in it, the redirection of map-outs
followed; none for a byte of a slice that no partition owns, and for one that no spare holds. -/
def State.homeOf (s : State) (a : Nat) : Option (Nat × Nat) :=
  match s.partOfStack (a / sliceBytes) with
  | none => none
  | some p =>
    let q := s.part p
    let st := q.stackIds
    let npc := 64 * st.length
    let u := 6291456 * (32 - q.mspare)
    let o := a % sliceBytes
    let i := (st.takeWhile (· != a / sliceBytes)).length
    let g := i * u + o / 256
    let row := g / npc
    let h := ((row ^^^ (row / 2 ^ 13)) * 0x2545F491) % 2 ^ 32 / 2 ^ 8
    let t := (g % npc + h % npc) % npc
    (holderOf q.ownRows q.moves (64 * st.getD (t / 64) 0 + t % 64, row)).map (fun x => (x.1, x.2 * 256 + a % 256))

/-- R302, R303: the controller of a pseudo-channel corrects a read; SINCE reaching 4,096 is a detection and
returns to 0. -/
def State.pcCorrected (s : State) (pc a m : Nat) : State :=
  let h := s.hbm (pc / 64)
  let e := mget (0, 0) h.pcce (pc % 64)
  let hit := e.2 + 1 = 4096
  let s1 := s.setHbm (pc / 64)
    { h with cecnt := satAdd 0xFFFFFFFF h.cecnt 1,
             pcce := mput h.pcce (pc % 64) (satAdd 0xFFFFFFFF e.1 1, if hit then 0 else e.2 + 1) }
  if hit then s1.detect { source := 0x0B, ukind := 4, unit := pc, master := m, addr := a } else s1

def State.hbmCorrected (s : State) (a m : Nat) : State :=
  match s.homeOf a with
  | none => s
  | some (pc, _) => s.pcCorrected pc a m

/-- R302: a correction that a die reports. -/
def State.hbmOnDie (s : State) (a : Nat) : State :=
  match s.homeOf a with
  | none => s
  | some (pc, _) => s.modHbm (pc / 64) (fun h => { h with odcnt := satAdd 0xFFFFFFFF h.odcnt 1 })

def State.addPoison (s : State) (blk : Nat) : State :=
  { s with poison := if s.poison.contains blk then s.poison else blk :: s.poison }

/-- R303: the controller of a pseudo-channel meets an uncorrectable block at an offset: it is recorded and
detected. -/
def State.pcUncorrectable (s : State) (pc off a m : Nat) (scrub : Bool) : State :=
  (s.modHbm (pc / 64) (fun h => { h with ue := true, ueOff := off / 64, uePc := pc % 64, ueScrub := scrub })).detect
    { source := if scrub then 0x0C else 0x0A, ukind := 4, unit := pc, master := m, addr := a }

/-- R303: the controller cannot correct a read: the block is poisoned, recorded and detected. -/
def State.hbmUncorrectable (s : State) (a m : Nat) : State :=
  match (s.addPoison (a / 64)).homeOf a with
  | none => s.addPoison (a / 64)
  | some (pc, off) => (s.addPoison (a / 64)).pcUncorrectable pc off a m false

/-- R136: a corrected scratchpad entry. -/
def State.spCorrected (s : State) (k : Nat) : State :=
  s.modCore k (fun c => { c with sp := { c.sp with cecnt := satAdd 0xFFFF c.sp.cecnt 1 } })

/-- R136: an entry holds the error found in it until a write replaces the whole of it. -/
def State.addBad (s : State) (a : Nat) : State :=
  { s with bad := if s.bad.contains (a / 16) then s.bad else (a / 16) :: s.bad }

/-- R136: an uncorrectable scratchpad entry, detected in the core. -/
def State.spUncorrectable (s : State) (k off m : Nat) : State :=
  let r := off / 1024
  ((s.addBad (spadAddr k off)).modCore k (fun c =>
    { c with sp := { c.sp with ue := true, uerow := r, uebank := (off / 16 % 64 + r) % 64 } })).detect
    { source := 0x01, ukind := 1, unit := k, master := m, addr := spadAddr k off }

/-- R136: a corrected tun entry. -/
def State.tunCorrected (s : State) (c : Nat) : State :=
  s.modCluster c (fun x => { x with tun := { x.tun with cecnt := satAdd 0xFFFF x.tun.cecnt 1 } })

/-- R136, R137: an uncorrectable tun entry, detected in the cluster. -/
def State.tunUncorrectable (s : State) (c off m : Nat) : State :=
  let r := off / 2048
  ((s.addBad (tunAddr c off)).modCluster c (fun x =>
    { x with tun := { x.tun with ue := true, uerow := r, uebank := (off / 64 % 32 + r) % 32 } })).detect
    { source := 0x08, ukind := 3, unit := c, master := m, addr := tunAddr c off }

/-- Whether the array behind a physical address holds an error that a read meets: a poisoned block, or an entry
with an uncorrectable error (R136, R303). -/
def State.holdsError (s : State) (a : Nat) : Bool :=
  if a < memEnd then s.poison.contains (a / 64) else s.bad.contains (a / 16)

/-- What one protected read of the entry at a physical address leaves (R136, R302, R303): the state, and
whether it delivers its data. A poisoned block, and an entry that holds an error, read as uncorrectable.
[log 26: DEDUCED] -/
def State.eccRead (s : State) (a m : Nat) (e : Ecc) : State × Bool :=
  let bad : Bool := e == .uncorrectable || s.holdsError a
  match placeOf a with
  | .mem _ =>
    if bad then (s.hbmUncorrectable a m, false)
    else match e with
      | .corrected => (s.hbmCorrected a m, true)
      | .onDie => (s.hbmOnDie a, true)
      | _ => (s, true)
  | .spad k off =>
    if bad then (s.spUncorrectable k off m, false)
    else if e = .corrected then (s.spCorrected k, true) else (s, true)
  | .tun c off =>
    if bad then (s.tunUncorrectable c off m, false)
    else if e = .corrected then (s.tunCorrected c, true) else (s, true)
  | _ => (s, true)

/-- A protected read of the bytes at several physical addresses: the finding falls on the first of them, and
an error that any of them holds is met. -/
def State.eccSpan (s : State) (as : List Nat) (m : Nat) (e : Ecc) : State × Bool :=
  match as with
  | [] => (s, true)
  | a :: _ =>
    if e = .uncorrectable then s.eccRead a m e
    else match as.find? s.holdsError with
      | some x => s.eccRead x m .clean
      | none => s.eccRead a m e

/-- Protected reads of bytes, one access of `h` each; they end at the first that fails. -/
def State.eccAll (s : State) (as : List Nat) (m : Nat) (h : Hit) : State × Bool :=
  match as with
  | [] => (s, true)
  | a :: as =>
    let r := s.eccRead a m h.now
    if r.2 then r.1.eccAll as m h.next else r

/-- Whether a set of written bytes covers all of an aligned group of w bytes. -/
def coversGroup (cs : List (Nat × Byte)) (w g : Nat) : Bool :=
  (List.range w).all (fun i => cs.any (fun e => e.1 == g * w + i))

/-- The poisoned blocks, and the entries with an error, that written bytes touch without covering (R136,
R303): the addresses of the reads that these writes make and that fail. -/
def State.writeLosses (s : State) (cs : List (Nat × Byte)) : List Nat :=
  ((s.poison.filter (fun b => cs.any (fun e => e.1 / 64 == b && decide (e.1 < memEnd)) && !coversGroup cs 64 b)).map (64 * ·))
    ++ ((s.bad.filter (fun b => cs.any (fun e => e.1 / 16 == b && decide (memEnd ≤ e.1)) && !coversGroup cs 16 b)).map (16 * ·))

/-- Whether written bytes lie in the group of a failed read. -/
def inLoss (ls : List Nat) (a : Nat) : Bool :=
  ls.any (fun l => if a < memEnd then a / 64 * 64 == l else a / 16 * 16 == l)

/-- Bytes that one write puts in place (R136, R222, R303): a write that covers a poisoned block, or an entry with
an error, replaces it; one that does not writes nothing there and is detected as a read would be. -/
def State.placeCells (s : State) (cs : List (Nat × Byte)) (m : Nat) : State :=
  let ls := s.writeLosses cs
  let s1 := s.placeAt (cs.filter (fun e => !inLoss ls e.1))
  let s2 : State :=
    { s1 with poison := s1.poison.filter (fun b => !(cs.any (fun e => e.1 / 64 == b && decide (e.1 < memEnd)) && coversGroup cs 64 b)),
              bad := s1.bad.filter (fun b => !(cs.any (fun e => e.1 / 16 == b && decide (memEnd ≤ e.1)) && coversGroup cs 16 b)) }
  ls.foldl (fun s a => (s.eccRead a m .clean).1) s2

/-- The first address of an entry that a write covers in part. -/
def partAddr (cs : List (Nat × Byte)) : Option Nat :=
  (cs.find? (fun e => if e.1 < memEnd then !coversGroup cs 64 (e.1 / 64) else !coversGroup cs 16 (e.1 / 16))).map (·.1)

/-- A write with its check (R136, R303): a write of a part of an entry reads that entry, with the finding given;
where that read fails, nothing is written there and the write fails. The state, and whether it succeeded. -/
def State.writeCells (s : State) (cs : List (Nat × Byte)) (m : Nat) (e : Ecc) : State × Bool :=
  let r := match partAddr cs with
    | some a => s.eccRead a m e
    | none => (s, true)
  if r.2 then (r.1.placeCells cs m, (r.1.writeLosses cs).isEmpty) else r

/-! ### Aborting a launch -/

/-- Every router of the partition stops and discards the beats in its buffers (R157). -/
def Router.stop (r : Router) : Router :=
  { r with run := false, wait := false, bufN := [], bufS := [], bufE := [], bufW := [] }

/-- A core stopped by an abort: it and its units issue nothing further, and none of its writes or flag
operations that are not in place will be made (R390 step 1). [log 92: DEDUCED] -/
def Core.stop (c : Core) : Core :=
  { c with run := (match c.run with | .running | .parked => .stopped | r => r), waiting := none, presented := false,
           posted := [], tile := { c.tile with queue := [], stopped := false },
           vsu := { c.vsu with queue := [], stopped := false }, flg := { c.flg with queue := [] },
           rt := c.rt.stop }

/-- The cores of a partition that the state lists, changed by `f`. -/
def State.mapPartCores (s : State) (p : Nat) (f : Nat → Core → Core) : State :=
  { s with cores := s.cores.map (fun e => if s.partOfCore e.1 = some p then (e.1, f e.1 e.2) else e) }

/-- A DMA channel that an abort stops (R260): its share of the buffer is empty and nothing is outstanding. -/
def DmaChan.halt (x : DmaChan) : DmaChan :=
  { x with lists := [], later := [], descs := [], fault := none,
           stopped := x.stopped || !x.lists.isEmpty || !x.descs.isEmpty }

def Eng.halt (e : Eng) : Eng := { e with queue := [], fault := none }

/-- Every channel and engine of a cluster stops (R260, R268), and no store in its merging buffer is drained
any more (R390 step 1). [log 92: DEDUCED] -/
def Cluster.halt (x : Cluster) : Cluster :=
  { x with l2 := { x.l2 with mb := [] },
           dma := { x.dma with chans := x.dma.chans.map (fun e => (e.1, e.2.halt)) },
           gather := x.gather.halt, select := x.select.halt, sampler := x.sampler.halt, fpr := x.fpr.halt }

/-- The clusters of a partition that the state lists, changed by `f`. -/
def State.mapPartClusters (s : State) (p : Nat) (f : Cluster → Cluster) : State :=
  { s with clusters := s.clusters.map (fun e => if s.partOfCluster e.1 = some p then (e.1, f e.2) else e) }

/-- The launch in progress in a partition aborts (R157, R231, R260, R268, R390): the first cause stands,
and every core, router, DMA channel and engine of the partition stops. A launch whose commit record is written is not
affected (R405). [log 92: DEDUCED] -/
def State.abortLaunch (s : State) (p : Nat) (a : Abort) : State :=
  let q := s.part p
  if (match q.launch with | some l => !l.committed | none => false) && q.abort.isNone then
    ((s.setPart p { q with abort := some a }).mapPartCores p (fun _ c => c.stop)).mapPartClusters p Cluster.halt
  else s

/-- The launch of a core's partition aborts. -/
def State.abortCore (s : State) (k : Nat) (a : Abort) : State :=
  match s.partOfCore k with
  | some p => s.abortLaunch p a
  | none => s

end Sys2Proof.Machine
end

