-- ==== Sys2Proof/Machine/Access.lean ====
section
/-!
DEFINITION. Translation and the access checks (R12, R17, R18, R128, R167, R182, R300, R326, R376), in the
order in which the model applies them.
-/
namespace Sys2Proof.Machine
open Sys2Proof

/-- A failed translation or access check: PAGE_FAULT (0x05) or ACCESS_FAULT (0x06), its cause under R182
and the first byte that could not be reached. -/
structure AFault where
  code : Nat
  cause : Nat
  addr : Nat
  deriving DecidableEq, Repr

def notMapped (a : Nat) : AFault := ⟨5, 1, a⟩
def region (a : Nat) : AFault := ⟨6, 1, a⟩
def partitionFault (a : Nat) : AFault := ⟨6, 2, a⟩

inductive AccKind where
  | read | write | fetch
  deriving DecidableEq, Repr

/-- Where a virtual byte leads: a physical byte, with whether its page maps a schedule image, or a byte
of a peer with the base of its remote page at the peer (R326). -/
inductive Target where
  | phys (pa : Nat) (image : Bool)
  | remote (rkind conn pva page : Nat)
  deriving DecidableEq, Repr

def pageCovers (g : Page) (va : Nat) : Bool := va / 2 ^ g.bits == g.va / 2 ^ g.bits

/-- One byte translated in a partition with the permissions of a ring (R18, R182, R189, R326). A write through a page
that maps a schedule's image reaches the system area, which refuses it whatever the page permits (R376).
[log 24: DEDUCED] -/
def xlate (s : State) (p : Nat) (ring : Fin 4) (kind : AccKind) (va : Nat) : Except AFault Target :=
  if 2 ^ 48 ≤ va then .error (notMapped va)
  else match (s.part p).pages.find? (fun g => pageCovers g va) with
  | none => .error (notMapped va)
  | some g =>
    let off := va % 2 ^ g.bits
    match g.target with
    | .remote 3 _ _ => .error (notMapped va)
    | t =>
      if kind = .write ∧ g.image.isSome then .error (partitionFault va)
      else if !g.rings.getLsbD ring.val then .error ⟨5, 4, va⟩
      else if kind = .write ∧ !g.writable then .error ⟨5, 2, va⟩
      else if kind = .fetch ∧ !g.exec then .error ⟨5, 3, va⟩
      else match t with
        | .phys pa => .ok (.phys (pa + off) g.image.isSome)
        | .remote rk c pva => .ok (.remote rk c (pva + off) pva)

/-- The checks of a physical byte for a master of partition `p` (R12, R16 to R18, R300, R376): none where
the byte may be reached. `va` is the address the fault reports. [log 24: DEDUCED] -/
def placeFault (s : State) (p : Nat) (image : Bool) (kind : AccKind) (pa va : Nat) : Option AFault :=
  let x := placeOf pa
  match x with
  | .hole => some (region va)
  | .devReg _ _ _ => some ⟨6, 6, va⟩
  | .mem a =>
    if s.ownerOf x ≠ some p then some (partitionFault va)
    else if (s.part p).usable ≤ a % sliceBytes then some (region va)
    else if (s.part p).inSystemArea (a % sliceBytes) && !(image && kind != .write) then some (partitionFault va)
    else none
  | _ => if s.ownerOf x ≠ some p then some (partitionFault va) else none

/-- The schedule a core is running: none when it runs no task (R128, R130). -/
def Core.runningSched (c : Core) : Option Nat :=
  match c.run with
  | .running | .parked => some c.sched
  | _ => none

/-- Whether a scratchpad byte lies in a resident window of a schedule the core is not running (R128). -/
def Core.residentOther (c : Core) (off : Nat) : Bool :=
  (List.range 16).any (fun n =>
    let w := c.window n
    w.res && decide (w.base * 16 ≤ off ∧ off < w.last * 16 + 16) && c.runningSched != some w.owner)

/-- Whether a byte of the core's own scratchpad is closed to ring r: the stack regions of lower-numbered
rings, and the gate table above ring 0 (R167). -/
def Core.ringProt (c : Core) (r : Fin 4) (off : Nat) : Bool :=
  let inReg (x : StkReg) : Bool := decide (x.limg * 16 ≤ off ∧ off < x.topg * 16)
  ([0, 1, 2, 3] : List (Fin 4)).any (fun q =>
    decide (q.val < r.val) && (inReg (c.dsr.get q) || inReg (c.rsr.get q)))
    || (decide (0 < r.val) && decide (c.gtb * 4096 ≤ off ∧ off < c.gtb * 4096 + 4096))

/-- A write through a remote page whose connection exists; any read of one is refused (R326). [log 72: DEDUCED] -/
def remoteTarget (s : State) (p : Nat) (kind : AccKind) (va rk c pva pg : Nat) : Except AFault Target :=
  if kind != .write then .error (region va)
  else if (s.part p).conns.any (fun e => e.1 == c) then .ok (.remote rk c pva pg)
  else .error (partitionFault va)

/-- One byte of an access by a core or its units, with every check made at issue. [log 24: DEDUCED] -/
def coreXlate (s : State) (k : Nat) (ring : Fin 4) (kind : AccKind) (va : Nat) : Except AFault Target :=
  if k = maltsterCore then
    if 2 ^ 48 ≤ va then .error (region va)
    else match placeOf va with
      | .hole => .error (region va)
      | _ => .ok (.phys va false)
  else match s.partOfCore k with
  | none => .error (notMapped va)
  | some p =>
    match xlate s p ring kind va with
    | .error f => .error f
    | .ok (.remote rk c pva pg) => remoteTarget s p kind va rk c pva pg
    | .ok (.phys pa img) =>
      match placeFault s p img kind pa va with
      | some f => .error f
      | none =>
        match placeOf pa with
        | .spad k' off =>
          if k' = k then
            if (s.core k).ringProt ring off then .error ⟨6, 5, va⟩
            else if (s.core k).residentOther off then .error ⟨6, 4, va⟩
            else .ok (.phys pa img)
          else if kind != .write && (s.core k').residentOther off then .error ⟨6, 4, va⟩
          else .ok (.phys pa img)
        | _ => .ok (.phys pa img)

/-- `n` bytes of an access by a core: their targets, or the first byte that fails. -/
def coreXlateN (s : State) (k : Nat) (ring : Fin 4) (kind : AccKind) (va : Nat) : Nat → Except AFault (List Target)
  | 0 => .ok []
  | n + 1 =>
    match coreXlate s k ring kind va with
    | .error f => .error f
    | .ok t =>
      match coreXlateN s k ring kind (va + 1) n with
      | .error f => .error f
      | .ok ts => .ok (t :: ts)

/-- One byte of an access by a master without a ring, with the permissions of ring 3 (R265, R334, R347):
reads of resident windows are checked here, writes to scratchpads pass the window check apart. -/
def masterXlate (s : State) (p : Nat) (kind : AccKind) (va : Nat) : Except AFault Target :=
  match xlate s p 3 kind va with
  | .error f => .error f
  | .ok (.remote rk c pva pg) => remoteTarget s p kind va rk c pva pg
  | .ok (.phys pa img) =>
    match placeFault s p img kind pa va with
    | some f => .error f
    | none =>
      match placeOf pa with
      | .spad k' off =>
        if kind != .write && (s.core k').residentOther off then .error ⟨6, 4, va⟩ else .ok (.phys pa img)
      | .coreReg _ _ | .clReg _ _ => if kind = .write then .error ⟨6, 7, va⟩ else .ok (.phys pa img)
      | _ => .ok (.phys pa img)

def masterXlateN (s : State) (p : Nat) (kind : AccKind) (va : Nat) : Nat → Except AFault (List Target)
  | 0 => .ok []
  | n + 1 =>
    match masterXlate s p kind va with
    | .error f => .error f
    | .ok t =>
      match masterXlateN s p kind (va + 1) n with
      | .error f => .error f
      | .ok ts => .ok (t :: ts)

/-- The physical addresses of targets that are all local. -/
def physAddrs (ts : List Target) : List Nat :=
  ts.filterMap (fun t => match t with | .phys a _ => some a | .remote _ _ _ _ => none)

/-! ### The window check (R130, R131) -/

/-- REASON codes of R131. -/
inductive Rej where
  | nowin | source | span | resident
  deriving DecidableEq, Repr

def Rej.code : Rej → Nat
  | .nowin => 1 | .source => 2 | .span => 3 | .resident => 4

/-- Whether a window's source set admits a master (SP_WnS): by range, pair or partition, or as the
neighbour a neighbour bit names. -/
def State.winAdmits (s : State) (k : Nat) (w : Window) (m : Nat) : Bool :=
  let byMode : Bool :=
    match w.mode with
    | 0 => decide (w.lo ≤ m ∧ m ≤ w.hi)
    | 1 => m == w.lo || m == w.hi
    | 2 => match masterOf m with
      | some x => s.partOfMaster x != none && s.partOfMaster x == s.partOfCore k
      | none => false
    | _ => false
  byMode || (w.nw && neighbour k .w == some m) || (w.ne && neighbour k .e == some m)
    || (w.nn && neighbour k .n == some m) || (w.ns && neighbour k .s == some m)

/-- The reason a write of `len` bytes at an offset of core k's scratchpad by master ID m is rejected for
(R130, R131); none where it is accepted. The maltster is never checked. [log 53: DEDUCED] -/
def State.windowCheck (s : State) (k off len m : Nat) : Option Rej :=
  if m = maltsterId then none
  else
    let c := s.core k
    let open_ := ((List.range 16).map c.window).filter (fun w => w.en)
    let holds (w : Window) (o : Nat) : Bool := decide (w.base * 16 ≤ o ∧ o < w.last * 16 + 16)
    let first := open_.filter (fun w => holds w off)
    let whole := first.filter (fun w => holds w (off + len - 1))
    if (List.range len).any (fun i => c.residentOther (off + i)) then some .resident
    else if first.isEmpty then some .nowin
    else if whole.isEmpty then some .span
    else if (whole.filter (fun w => s.winAdmits k w m)).isEmpty then some .source
    else none

/-- The runs of consecutive addresses in scratchpads among the bytes of a write: core, offset, length. -/
def spadRuns : List Nat → List (Nat × Nat × Nat)
  | [] => []
  | a :: as =>
    match placeOf a, as.head?, spadRuns as with
    | .spad k off, some b, (k', o, n) :: rs => if b = a + 1 ∧ k' = k then (k, off, n + 1) :: rs else (k, off, 1) :: (k', o, n) :: rs
    | .spad k off, _, rs => (k, off, 1) :: rs
    | _, _, rs => rs

/-- The first scratchpad window that refuses a write of some physical bytes, with the run it refuses (R130). -/
def State.windowsRefuse (s : State) (as : List Nat) (m : Nat) : Option (Nat × Nat × Nat × Rej) :=
  (spadRuns as).findSome? (fun r => (s.windowCheck r.1 r.2.1 r.2.2 m).map (fun y => (r.1, r.2.1, r.2.2, y)))

/-- R134: what a rejection leaves at the owning core. -/
def State.windowReject (s : State) (k off len m : Nat) (r : Rej) : State :=
  s.modCore k (fun c =>
    { c with ipend := if c.sp.rejie then c.ipend ||| 0x10 else c.ipend,
             sp := { c.sp with rej := true, rejOff := off, rejReason := r.code, rejSrc := m,
                               rejLenM1 := len - 1,
                               rejCount := satAdd 0xFFFFFFFF c.sp.rejCount 1 } })

/-- The two quadwords of a window rejection report (R132). -/
def rejReport (k off len m : Nat) (r : Rej) : Word × Word :=
  (place (spadAddr k off) 48 0 ||| place r.code 4 48,
   place k 10 0 ||| place (len - 1) 12 10 ||| place m 12 22)

end Sys2Proof.Machine
end

