-- ==== Sys2Proof/Machine/Cache.lean ====
section
/-!
DEFINITION. Caches and merging buffers (spec 10, R205 to R220): how a core reads and writes device memory,
and the maintenance of L2.
-/
namespace Sys2Proof.Machine
open Sys2Proof

/-- The bytes of a line with some replaced. -/
def patchLine (data : List Byte) (bs : List (Nat × Byte)) : List Byte :=
  bs.foldl (fun d e => d.set e.1 e.2) data

def findLine (ls : List CLine) (line : Nat) : Option CLine := ls.find? (fun l => l.line == line)
def dropLine (ls : List CLine) (line : Nat) : List CLine := ls.filter (fun l => l.line != line)

/-- A line stored into: its bytes change where it is present (R209). -/
def updateLine (ls : List CLine) (line : Nat) (bs : List (Nat × Byte)) : List CLine :=
  ls.map (fun l => if l.line == line then { l with data := patchLine l.data bs } else l)

/-! ### The merging buffer -/

def findEntry (mb : List MbEntry) (line : Nat) : Option MbEntry := mb.find? (fun e => e.line == line)

/-- An entry's masked bytes as physical addresses. -/
def MbEntry.cells (e : MbEntry) : List (Nat × Byte) := e.bytes.map (fun b => (e.line * 64 + b.1, b.2))

/-- R211: while 48 or more entries are in use, the oldest entry drains. -/
def mbPressure (mb : List MbEntry) : List MbEntry :=
  match mb with
  | e :: rest => if 48 ≤ mb.length then { e with draining := true } :: rest else mb
  | [] => []

/-- The HBM controller accepts the drain of the oldest entry of a line (R210): its bytes are in place. -/
def State.entryInPlace (s : State) (c line : Nat) : State :=
  match findEntry (s.cluster c).l2.mb line with
  | none => s
  | some e =>
    let s' := s.placeCells e.cells (((e.stores.head?).map (·.1)).getD 0)
    s'.modCluster c (fun x => { x with l2 := { x.l2 with mb := mbPressure (x.l2.mb.erase e) } })

/-- Every entry of a line in place, oldest first. [log 17: DEDUCED] -/
def State.lineInPlace (s : State) (c line : Nat) : State :=
  ((s.cluster c).l2.mb.filter (fun e => e.line == line)).foldl (fun s _ => s.entryInPlace c line) s

/-- Every entry of a cluster's merging buffer in place, in allocation order (R211). -/
def State.allInPlace (s : State) (c : Nat) : State :=
  ((s.cluster c).l2.mb.map (·.line)).foldl (fun s line => s.entryInPlace c line) s

/-- Entries of the lines given start to drain. -/
def startDrain (mb : List MbEntry) (p : MbEntry → Bool) : List MbEntry :=
  mb.map (fun e => if p e then { e with draining := true } else e)

/-- Whether a store to a line finds room: an entry of its line that has not begun to drain, or a free
entry (R210). -/
def mbRoom (mb : List MbEntry) (line : Nat) : Bool :=
  mb.any (fun e => e.line == line && !e.draining) || decide (mb.length < 64)

/-- A store's bytes (offset in the line, byte) merged into the buffer (R210, R211). -/
def mbMerge (mb : List MbEntry) (line : Nat) (bs : List (Nat × Byte)) (who : Nat × Nat) : List MbEntry :=
  if mb.any (fun e => e.line == line && !e.draining) then
    mb.map (fun e =>
      if e.line == line && !e.draining then
        { e with bytes := bs.foldl (fun m b => mput m b.1 b.2) e.bytes, stores := e.stores ++ [who] }
      else e)
  else mbPressure (mb ++ [{ line := line, bytes := bs.foldl (fun m b => mput m b.1 b.2) [], stores := [who],
                            draining := false }])

/-! ### L2 -/

/-- The ways that can take a line: not gated or being gated, and not held by a lock or its fill. -/
def L2.openWays (l : L2) : List Nat :=
  (List.range 16).filter (fun w =>
    !l.pd.getLsbD w && !l.gated.getLsbD w && !(decide (l.nways ≠ 0) && decide (16 - l.nways ≤ w)))

/-- A victim or free way of a set: a way that holds no line of the set if there is one, else the one the
free value picks. Replacement is not architectural (R207). [log 18: DESIGN CHOICE] -/
def pickWay (ways : List Nat) (lines : List CLine) (sets line free : Nat) : Option Nat :=
  match ways.find? (fun w => !lines.any (fun l => l.way == w && l.line % sets == line % sets)) with
  | some w => some w
  | none => if ways.isEmpty then none else ways[free % ways.length]?

/-- A line placed in a way, replacing what the way held in that set. [log 18: DESIGN CHOICE] -/
def placeLine (lines : List CLine) (sets : Nat) (l : CLine) : List CLine :=
  l :: lines.filter (fun x => !(x.way == l.way && x.line % sets == l.line % sets) && x.line != l.line)

/-- Whether a line belongs to the locked range in place (R219). -/
def L2.isLocked (l : L2) (line : Nat) : Bool :=
  l.locked && decide (l.lockAddr / 64 ≤ line) && decide (line < l.lockAddr / 64 + 2048 * l.nways)

/-- The way that holds a line of the locked range (R219). -/
def L2.lockWay (l : L2) (line : Nat) : Nat := 15 - (line - l.lockAddr / 64) / 2048

/-- The way that a fill of a line takes (R218, R219): its own in a locked range; the way that held the line
before, where that is still open; else any open way, or none. -/
def L2.fillWay (l : L2) (old : Option CLine) (line free : Nat) : Option Nat :=
  if l.isLocked line then some (l.lockWay line)
  else match old with
    | some x => if l.openWays.contains x.way then some x.way else pickWay l.openWays l.lines 2048 line free
    | none => pickWay l.openWays l.lines 2048 line free

/-- The 64 bytes of a line as L2 serves them (R206, R212, R213): a hit; or, absent or with a parity
error, memory after the line's merging-buffer entries are in place, the line then being allocated. [log 17: DEDUCED] -/
def State.l2Line (s : State) (c line : Nat) (parity : Bool) : List Byte × State :=
  let l := (s.cluster c).l2
  let hit := if l.en then findLine l.lines line else none
  match hit, parity with
  | some x, false => (x.data, s)
  | h, _ =>
    let s0 := s.modCluster c (fun x =>
      { x with l2 := { x.l2 with
          lines := dropLine x.l2.lines line,
          parcnt := if h.isSome then satAdd 0xFFFFFFFF x.l2.parcnt 1 else x.l2.parcnt } })
    let s1 := s0.lineInPlace c line
    let data := s1.getBytes (line * 64) 64
    if !l.en then (data, s1)
    else
      let (fv, s2) := s1.drawFree
      match (s1.cluster c).l2.fillWay h line fv.toNat with
      | none => (data, s2)
      | some w =>
        (data, s2.modCluster c (fun x =>
          { x with l2 := { x.l2 with lines := placeLine x.l2.lines 2048 ⟨line, w, data⟩ } }))

/-! ### L1 -/

/-- The 64 bytes of a line as core k's L1D (or, for fetches, L1I) serves them. -/
def State.l1Line (s : State) (k line : Nat) (instrSide l1par l2par : Bool) : List Byte × State :=
  let c := s.core k
  let dis := if instrSide then c.idis else c.ddis
  let ls := if instrSide then c.l1i else c.l1d
  let hit := if dis then none else findLine ls line
  match hit, l1par with
  | some x, false => (x.data, s)
  | h, _ =>
    let s0 := s.modCore k (fun c =>
      if instrSide then
        { c with l1i := dropLine c.l1i line, ipar := if h.isSome then satAdd 0xFFFF c.ipar 1 else c.ipar }
      else
        { c with l1d := dropLine c.l1d line, dpar := if h.isSome then satAdd 0xFFFF c.dpar 1 else c.dpar })
    let (data, s1) := s0.l2Line (clusterOf k) line l2par
    if dis then (data, s1)
    else
      let (fv, s2) := s1.drawFree
      let ls1 := if instrSide then (s2.core k).l1i else (s2.core k).l1d
      match pickWay [0, 1, 2, 3] ls1 128 line fv.toNat with
      | none => (data, s2)
      | some w =>
        (data, s2.modCore k (fun c =>
          if instrSide then { c with l1i := placeLine c.l1i 128 ⟨line, w, data⟩ }
          else { c with l1d := placeLine c.l1d 128 ⟨line, w, data⟩ }))

/-- Bytes of device memory read by core k through L1D, line by line. -/
def State.cachedBytes (s : State) (k : Nat) (l1par l2par : Bool) : List Nat → List Byte × State
  | [] => ([], s)
  | a :: as =>
    let (line, s1) := s.l1Line k (a / 64) false l1par l2par
    -- a parity error is found once: the line read again is clean
    let (rest, s2) := s1.cachedBytes k false false as
    (line.getD (a % 64) 0 :: rest, s2)

/-- The byte at a physical address as core k's instruction fetch delivers it (R204 to R206, R212): from its L1I line,
else from the cluster's L2 line, else from memory once the merging-buffer entries of its line are in place. -/
def State.fetchByte (s : State) (k pa : Nat) : Byte :=
  let c := s.core k
  let l := (s.cluster (clusterOf k)).l2
  if k = maltsterCore ∨ memEnd ≤ pa then s.getByte pa
  else match if c.idis then none else findLine c.l1i (pa / 64) with
  | some x => x.data.getD (pa % 64) 0
  | none =>
    match if l.en then findLine l.lines (pa / 64) else none with
    | some x => x.data.getD (pa % 64) 0
    | none =>
      l.mb.foldl (fun b e => if e.line = pa / 64 then ((e.bytes.find? (fun x => x.1 == pa % 64)).map (·.2)).getD b else b)
        (s.getByte pa)

/-- A store of core k to device memory, all in one line (R209, R210); none where the merging buffer has no
room and the store stalls. [log 27: DEDUCED] -/
def State.cachedStore (s : State) (k : Nat) (a : Nat) (bs : List Byte) (h : Finding) (stamp : Nat) :
    Option State :=
  let line := a / 64
  let cl := clusterOf k
  let off := ((List.range bs.length).map (fun i => a % 64 + i)).zip bs
  if !mbRoom (s.cluster cl).l2.mb line then none
  else
    let s1 := s.modCore k (fun c =>
      { c with l1d := if h.l1 then dropLine c.l1d line else updateLine c.l1d line off })
    some (s1.modCluster cl (fun x =>
      { x with l2 := { x.l2 with
          lines := if h.l2 then dropLine x.l2.lines line else updateLine x.l2.lines line off,
          mb := mbMerge x.l2.mb line off (k, stamp) } }))

/-! ### L2 maintenance (R215 to R220) -/

/-- The lines of a range of n ways from a base as memory gives them (R219). -/
def lockFill (s : State) (base n : Nat) : List CLine :=
  (List.range (2048 * n)).map (fun o =>
    { line := base / 64 + o, way := 15 - o / 2048, data := s.getBytes (base + 64 * o) 64 })

/-- L2 without its unlocked lines, every line of a locked range refetched from memory (R214, R216). -/
def State.l2Refresh (s : State) (c : Nat) : State :=
  s.modCluster c (fun x =>
    { x with l2 := { x.l2 with lines := if x.l2.locked then lockFill s x.l2.lockAddr x.l2.nways else [] } })

def L2Work.isDisable : L2Work → Bool
  | .disable _ => true
  | _ => false

/-- A write of 0 to L2_CTL.EN (R217): the entries present drain, then every line goes. While a disable pends, the
write that came last says whether L2 is enabled again when it completes. -/
def L2.startDisable (l : L2) : L2 :=
  if l.work.any (fun w => w.1.isDisable) then
    { l with work := l.work.map (fun w => if w.1.isDisable then (.disable false, w.2) else w) }
  else if !l.en then l
  else { l with mb := startDrain l.mb (fun _ => true),
                work := l.work ++ [(.disable false, l.mb.map (·.line))] }

/-- A write of 1 to L2_CTL.EN (R217). -/
def L2.enable (l : L2) : L2 :=
  if l.en then { l with work := l.work.map (fun w => if w.1.isDisable then (.disable true, w.2) else w) }
  else { l with en := true, lines := [] }

/-- L2_CTL. -/
def L2.ctlWrite (l : L2) (v : Word) : L2 :=
  if field v 5 4 = 3 then { l with cfg := cfgErr 8 }
  else
    let l' := { l with idle := field v 5 4 }
    if bit v 0 then l'.enable else l'.startDisable

/-- Whether a way is locked or being locked. -/
def L2.wayHeld (l : L2) (w : Nat) : Bool := decide (l.nways ≠ 0) && decide (16 - l.nways ≤ w)

/-- L2_WAYPWR (R218, R220). -/
def L2.wayWrite (l : L2) (v : Word) : L2 :=
  let pd : BitVec 16 := v.truncate 16
  if (List.range 16).any (fun w => pd.getLsbD w && l.wayHeld w) then { l with cfg := cfgErr 0x10 }
  else
    let fresh := pd &&& ~~~l.pd
    let back := l.pd &&& ~~~pd
    let l' := { l with pd := pd, gated := l.gated &&& pd,
                       lines := l.lines.filter (fun x => !back.getLsbD x.way) }
    if fresh = 0 then l'
    else { l' with mb := startDrain l'.mb (fun _ => true),
                   work := l'.work ++ [(.gate fresh, l'.mb.map (·.line))] }

/-- L2_LOCK (R219, R220); `owned` says whether a range lies wholly in slices the partition owns. -/
def L2.lockWrite (l : L2) (owned : Nat → Nat → Bool) (v : Word) : L2 :=
  let base := field v 47 17 * 2 ^ 17
  let n := field v 51 48
  let busy := l.locked || l.work.any (fun w => w.1 == .fill)
  let gatedNeeded := (List.range 16).any (fun w =>
    decide (16 - n ≤ w) && (l.pd.getLsbD w || l.gated.getLsbD w))
  if n = 0 then
    { l with lockAddr := base, nways := 0, locked := false, work := l.work.filter (fun w => w.1 != .fill),
             lines := l.lines.filter (fun x => !l.wayHeld x.way) }
  else if decide (12 < n) || busy || !owned base (n * 0x20000) || gatedNeeded then { l with cfg := cfgErr 0x18 }
  else
    { l with lockAddr := base, nways := n, mb := startDrain l.mb (fun _ => true),
             lines := l.lines.filter (fun x => decide (x.way < 16 - n)),
             work := l.work ++ [(.fill, l.mb.map (·.line))] }

/-- Entries of a cluster's merging buffer in the lines given, in place in allocation order (R211, R212). -/
def State.linesInPlace (s : State) (c : Nat) (p : Nat → Bool) : State :=
  ((s.cluster c).l2.mb.filter (fun e => p e.line)).foldl (fun s e => s.entryInPlace c e.line) s

/-- Whether a piece of L2 maintenance can complete in an L2: a lock is filled only while EN is 1, for L2 allocates
nothing while it is 0 (R217). [log 125: DESIGN CHOICE] -/
def L2Work.ready (w : L2Work) (l : L2) : Bool := w != .fill || l.en

/-- One piece of L2 maintenance completes: its entries must be in place. A disable removes the lock, but not one
asked for after it; a lock's fill waits for every merging-buffer entry of its range (R212). [log 125: DESIGN CHOICE] -/
def State.l2WorkDone (s : State) (c : Nat) (w : L2Work) : State :=
  match w with
  | .disable again =>
    s.modCluster c (fun x =>
      let l := x.l2
      let later : Bool := l.work.any (fun w => w.1 == .fill)
      { x with l2 := { l with en := again, lines := [], locked := false, nways := if later then l.nways else 0 } })
  | .gate ways =>
    s.modCluster c (fun x =>
      let l := x.l2
      { x with l2 := { l with gated := l.gated ||| (ways &&& l.pd),
                              lines := l.lines.filter (fun y => !ways.getLsbD y.way) } })
  | .fill =>
    let base := (s.cluster c).l2.lockAddr
    let n := (s.cluster c).l2.nways
    let inRange (line : Nat) : Bool := decide (base / 64 ≤ line) && decide (line < base / 64 + 2048 * n)
    let s1 := s.linesInPlace c inRange
    s1.modCluster c (fun x =>
      { x with l2 := { x.l2 with locked := true,
                                 lines := lockFill s1 base n ++ x.l2.lines.filter (fun y => !inRange y.line) } })

end Sys2Proof.Machine
end

