-- ==== Sys2Proof/Machine/Encoding.lean ====
section
/-!
DEFINITION. The bytes of every control-core instruction (spec 09, R185 to R195, R203): the encoder, the
decoder with the byte at which an illegal instruction is decided, and the encoded length.
-/
namespace Sys2Proof.Machine
open Sys2Proof

/-! ### Fields (R185, R186, R187) -/

/-- The bytes of a displacement (R189). -/
def dispBytes : Disp → List Byte
  | .d8 v => leBytes 1 v.toNat
  | .d16 v => leBytes 2 v.toNat
  | .d32 v => leBytes 4 v.toNat
  | .d48 v => leBytes 6 v.toNat

/-- The displacement prefix (R187). -/
def dispPre : Disp → List Byte
  | .d8 _ => []
  | .d16 _ => [0xF0]
  | .d32 _ => [0xF1]
  | .d48 _ => [0xF2]

/-- The sign-extended displacement (R189). -/
def dispVal : Disp → Word
  | .d8 v => v.signExtend 64
  | .d16 v => v.signExtend 64
  | .d32 v => v.signExtend 64
  | .d48 v => v.signExtend 64

def encM (op : Byte) (d : Disp) : List Byte := dispPre d ++ [op] ++ dispBytes d

/-- One or two tile shape words, three bytes each (R68, R187). -/
def tswBytes : List (BitVec 24) → List Byte
  | [] => []
  | t :: ts => leBytes 3 t.toNat ++ tswBytes ts

def shpPre (ts : List (BitVec 24)) : List Byte := if ts.isEmpty then [] else [0xF4]

/-- The shape words of an optional shape prefix. -/
def shpOne (s : Option (BitVec 24)) : List (BitVec 24) := match s with | none => [] | some a => [a]
def shpTwo (s : Option (BitVec 24 × BitVec 24)) : List (BitVec 24) :=
  match s with | none => [] | some (a, b) => [a, b]

/-- The register byte of TMMA, TCVA, TSTA, TSPILL and TFILL (R191). -/
def regByte (lo mid hi : Nat) (top : Bool) : Byte :=
  BitVec.ofNat 8 (lo + 8 * mid + 64 * hi + (if top then 128 else 0))

def engImm : EngKind → Byte
  | .gather => 1 | .select => 2 | .sampler => 3 | .fingerprint => 4

/-- The encoder: the bytes of a control-core instruction; none for every other command. -/
def encodeCore : Instr → Option (List Byte)
  | .nop _ => some [0x01]
  | .drop _ => some [0x02]
  | .dup _ => some [0x03]
  | .swap _ => some [0x04]
  | .over _ => some [0x05]
  | .rot _ => some [0x06]
  | .nip _ => some [0x07]
  | .tuck _ => some [0x08]
  | .twoDrop _ => some [0x09]
  | .twoDup _ => some [0x0A]
  | .toR _ => some [0x0C]
  | .fromR _ => some [0x0D]
  | .fetchR _ => some [0x0E]
  | .rdrop _ => some [0x0F]
  | .add _ => some [0x20]
  | .sub _ => some [0x21]
  | .mul _ => some [0x22]
  | .mulhs _ => some [0x23]
  | .mulhu _ => some [0x24]
  | .divs _ => some [0x25]
  | .divu _ => some [0x26]
  | .rems _ => some [0x27]
  | .remu _ => some [0x28]
  | .neg _ => some [0x29]
  | .abs _ => some [0x2A]
  | .mins _ => some [0x2B]
  | .maxs _ => some [0x2C]
  | .minu _ => some [0x2D]
  | .maxu _ => some [0x2E]
  | .and _ => some [0x30]
  | .or _ => some [0x31]
  | .xor _ => some [0x32]
  | .not _ => some [0x33]
  | .shl _ => some [0x34]
  | .shr _ => some [0x35]
  | .sar _ => some [0x36]
  | .rol _ => some [0x37]
  | .ror _ => some [0x38]
  | .popc _ => some [0x39]
  | .clz _ => some [0x3A]
  | .ctz _ => some [0x3B]
  | .sext8 _ => some [0x3C]
  | .sext16 _ => some [0x3D]
  | .sext32 _ => some [0x3E]
  | .zext32 _ => some [0x3F]
  | .eq _ => some [0x40]
  | .ne _ => some [0x41]
  | .lts _ => some [0x42]
  | .ltu _ => some [0x43]
  | .les _ => some [0x44]
  | .leu _ => some [0x45]
  | .gts _ => some [0x46]
  | .gtu _ => some [0x47]
  | .ges _ => some [0x48]
  | .geu _ => some [0x49]
  | .zeq _ => some [0x4A]
  | .sel _ => some [0x4B]
  | .calli _ => some [0x59]
  | .ret _ => some [0x5A]
  | .jmpi _ => some [0x5B]
  | .tsync _ => some [0x79]
  | .vcache _ => some [0x81]
  | .vsync _ => some [0x82]
  | .fenceF _ => some [0x99]
  | .rfset _ => some [0x9A]
  | .rcfinc _ => some [0x9B]
  | .rcfdec _ => some [0x9C]
  | .dinv _ => some [0xB0]
  | .dinva _ => some [0xB1]
  | .iinv _ => some [0xB2]
  | .iinva _ => some [0xB3]
  | .l2fl _ => some [0xB4]
  | .l2fla _ => some [0xB5]
  | .l2inv _ => some [0xB6]
  | .l2inva _ => some [0xB7]
  | .mfence _ => some [0xB8]
  | .tend _ => some [0xC2]
  | .waiti _ => some [0xC3]
  | .rdtime _ => some [0xC4]
  | .rdcyc _ => some [0xC5]
  | .rddsp _ => some [0xC6]
  | .rdrsp _ => some [0xC7]
  | .pick _ n => some [0x0B, n]
  | .lit8 _ v => some [0x10, v]
  | .lit16 _ v => some (0x11 :: leBytes 2 v.toNat)
  | .lit32 _ v => some (0x12 :: leBytes 4 v.toNat)
  | .lit64 _ v => some (0x13 :: leBytes 8 v.toNat)
  | .litu32 _ v => some (0x14 :: leBytes 4 v.toNat)
  | .leapc _ v => some (0x15 :: leBytes 4 v.toNat)
  | .addi8 _ v => some [0x16, v]
  | .addi32 _ v => some (0x17 :: leBytes 4 v.toNat)
  | .br8 _ v => some [0x50, v]
  | .br32 _ v => some (0x51 :: leBytes 4 v.toNat)
  | .bz8 _ v => some [0x52, v]
  | .bz32 _ v => some (0x53 :: leBytes 4 v.toNat)
  | .bnz8 _ v => some [0x54, v]
  | .bnz32 _ v => some (0x55 :: leBytes 4 v.toNat)
  | .dbnz8 _ v => some [0x56, v]
  | .dbnz32 _ v => some (0x57 :: leBytes 4 v.toNat)
  | .call32 _ v => some (0x58 :: leBytes 4 v.toNat)
  | .ld8u _ d _ => some (encM 0x60 d)
  | .ld8s _ d _ => some (encM 0x61 d)
  | .ld16u _ d _ => some (encM 0x62 d)
  | .ld16s _ d _ => some (encM 0x63 d)
  | .ld32u _ d _ => some (encM 0x64 d)
  | .ld32s _ d _ => some (encM 0x65 d)
  | .ld64 _ d _ => some (encM 0x66 d)
  | .st8 _ d _ => some (encM 0x68 d)
  | .st16 _ d _ => some (encM 0x69 d)
  | .st32 _ d _ => some (encM 0x6A d)
  | .st64 _ d _ => some (encM 0x6B d)
  | .stiQ _ d v _ => some (encM 0x6C d ++ leBytes 8 v.toNat)
  | .lea _ d => some (encM 0x6D d)
  | .undefinedOpcode _ _ => none
  | .tcfg _ m => some [0x70, m]
  | .tld _ t d sh =>
    let ts := shpOne sh
    some (dispPre d ++ shpPre ts ++ [0x71, regByte t.val 0 0 false] ++ dispBytes d ++ tswBytes ts)
  | .tst _ t d sh =>
    let ts := shpOne sh
    some (dispPre d ++ shpPre ts ++ [0x72, regByte t.val 0 0 false] ++ dispBytes d ++ tswBytes ts)
  | .tzero _ (.tile t) => some [0x73, regByte t.val 0 0 false]
  | .tzero _ (.acc a) => some [0x73, regByte 0 0 a.val true]
  | .tmma _ a ta tb sh =>
    let ts := shpTwo sh
    some (shpPre ts ++ [0x74, regByte ta.val tb.val a.val false] ++ tswBytes ts)
  | .tsta _ a d => some (dispPre d ++ [0x75, regByte 0 0 a.val false] ++ dispBytes d)
  | .tspill _ a d => some (dispPre d ++ [0x77, regByte 0 0 a.val false] ++ dispBytes d)
  | .tfill _ a d => some (dispPre d ++ [0x78, regByte 0 0 a.val false] ++ dispBytes d)
  | .tcva _ td a sh =>
    let ts := shpOne sh
    some (shpPre ts ++ [0x76, regByte td.val 0 a.val false] ++ tswBytes ts)
  | .vexec _ d => some (encM 0x80 d.disp)
  | .dmaq _ c => some [0x84, BitVec.ofNat 8 c.val]
  | .dmaw _ c => some [0x85, BitVec.ofNat 8 c.val]
  | .engq _ g => some [0x86, engImm g]
  | .engw _ g => some [0x87, engImm g]
  | .fset _ f => some [0x90, BitVec.ofNat 8 f.val]
  | .fclr _ f => some [0x91, BitVec.ofNat 8 f.val]
  | .ftest _ f => some [0x92, BitVec.ofNat 8 f.val]
  | .fwait _ f => some [0x93, BitVec.ofNat 8 f.val]
  | .fwatch _ f => some [0x94, BitVec.ofNat 8 f.val]
  | .cfinc _ f => some [0x95, BitVec.ofNat 8 f.val]
  | .cfdec _ f => some [0x96, BitVec.ofNat 8 f.val]
  | .cfread _ f => some [0x97, BitVec.ofNat 8 f.val]
  | .cfwait _ f => some [0x98, BitVec.ofNat 8 f.val]
  | .clfset _ f => some [0xA0, f]
  | .clfclr _ f => some [0xA1, f]
  | .clftest _ f => some [0xA2, f]
  | .clfwait _ f => some [0xA3, f]
  | .mbpost _ f => some [0xA4, f]
  | .mbpoll _ f => some [0xA5, f]
  | .trap _ n _ => some [0xC0, n]
  | .gret _ n => some [0xC1, BitVec.ofNat 8 n.val]
  | _ => none

/-- The encoded length in bytes (0 for a command that is no instruction). -/
def instrLen (i : Instr) : Nat :=
  match encodeCore i with
  | some b => b.length
  | none => 0

/-! ### The opcode map (R193) -/

/-- The forms of R186. -/
inductive Form where
  | z | b | l16 | l32 | l64 | j8 | j32 | m | mq | t | tm
  deriving DecidableEq, Repr

/-- The form of a primary opcode; none where R193 assigns none. -/
def opForm (op : Nat) : Option Form :=
  match op with
  | 0x01 | 0x02 | 0x03 | 0x04 | 0x05 | 0x06 | 0x07 | 0x08 | 0x09 | 0x0A | 0x0C | 0x0D
  | 0x0E | 0x0F | 0x20 | 0x21 | 0x22 | 0x23 | 0x24 | 0x25 | 0x26 | 0x27 | 0x28 | 0x29
  | 0x2A | 0x2B | 0x2C | 0x2D | 0x2E | 0x30 | 0x31 | 0x32 | 0x33 | 0x34 | 0x35 | 0x36
  | 0x37 | 0x38 | 0x39 | 0x3A | 0x3B | 0x3C | 0x3D | 0x3E | 0x3F | 0x40 | 0x41 | 0x42
  | 0x43 | 0x44 | 0x45 | 0x46 | 0x47 | 0x48 | 0x49 | 0x4A | 0x4B | 0x59 | 0x5A | 0x5B
  | 0x79 | 0x81 | 0x82 | 0x99 | 0x9A | 0x9B | 0x9C | 0xB0 | 0xB1 | 0xB2 | 0xB3 | 0xB4
  | 0xB5 | 0xB6 | 0xB7 | 0xB8 | 0xC2 | 0xC3 | 0xC4 | 0xC5 | 0xC6 | 0xC7 => some .z
  | 0x0B | 0x10 | 0x16 | 0x70 | 0x84 | 0x85 | 0x86 | 0x87 | 0x90 | 0x91 | 0x92 | 0x93
  | 0x94 | 0x95 | 0x96 | 0x97 | 0x98 | 0xA0 | 0xA1 | 0xA2 | 0xA3 | 0xA4 | 0xA5 | 0xC0
  | 0xC1 => some .b
  | 0x11 => some .l16
  | 0x12 | 0x14 | 0x17 => some .l32
  | 0x13 => some .l64
  | 0x50 | 0x52 | 0x54 | 0x56 => some .j8
  | 0x15 | 0x51 | 0x53 | 0x55 | 0x57 | 0x58 => some .j32
  | 0x60 | 0x61 | 0x62 | 0x63 | 0x64 | 0x65 | 0x66 | 0x68 | 0x69 | 0x6A | 0x6B | 0x6D
  | 0x80 => some .m
  | 0x6C => some .mq
  | 0x73 | 0x74 | 0x76 => some .t
  | 0x71 | 0x72 | 0x75 | 0x77 | 0x78 => some .tm
  | _ => none

/-- Whether R203 makes an opcode illegal on the maltster. -/
def maltsterIllegal (op : Nat) : Bool :=
  (decide (0x70 ≤ op) && decide (op < 0xA4)) || (decide (0xB4 ≤ op) && decide (op < 0xB8)) || op == 0xC2

/-- Opcodes whose operands take a shape prefix (R71): the number of shape words. -/
def shapedOperands (op : Nat) : Nat :=
  if op = 0x71 ∨ op = 0x72 ∨ op = 0x76 then 1 else if op = 0x74 then 2 else 0

/-- Whether an imm8 is legal (R192). -/
def immLegal (op : Nat) (v : Nat) : Bool :=
  if 0x90 ≤ op ∧ op ≤ 0x94 then decide (v < 64)
  else if 0x95 ≤ op ∧ op ≤ 0x98 then decide (v < 16)
  else if op = 0x84 ∨ op = 0x85 then decide (v < 16)
  else if op = 0x86 ∨ op = 0x87 then decide (1 ≤ v ∧ v ≤ 4)
  else if op = 0xC1 then decide (v < 8)
  else true

/-- Whether a register byte is legal (R191). -/
def regLegal (op : Nat) (v : Nat) : Bool :=
  let mid := v / 8 % 8
  let b6 := v / 64 % 2
  let b7 := v / 128 % 2
  if op = 0x71 ∨ op = 0x72 then mid == 0 && b6 == 0 && b7 == 0
  else if op = 0x73 then (if b7 = 1 then mid == 0 && v % 8 == 0 else mid == 0 && b6 == 0)
  else if op = 0x74 then b7 == 0
  else if op = 0x76 then mid == 0 && b7 == 0
  else mid == 0 && v % 8 == 0 && b7 == 0

/-- Extra displacement bytes a prefix byte selects (R187). -/
def dispPrefix (b : Nat) : Option Nat :=
  if b = 0xF0 then some 2 else if b = 0xF1 then some 4 else if b = 0xF2 then some 6 else none

/-- The decoder's view of the first bytes: the displacement width, whether SHP stands, the opcode and its
index. -/
structure Head where
  disp : Option Nat
  shp : Bool
  op : Nat
  pos : Nat
  deriving DecidableEq, Repr

/-- What the bytes read so far decide. -/
inductive Dec (α : Type) where
  | ok (x : α)
  | illegal (n : Nat)
  | short
  deriving DecidableEq, Repr

/-- The head of an instruction under R187 and R188: `illegal n` says that the first n bytes decide. -/
def parseHead (bs : List Byte) : Dec Head :=
  let at_ (i : Nat) : Option Nat := (bs[i]?).map BitVec.toNat
  let isPre (b : Nat) : Bool := (dispPrefix b).isSome || b == 0xF4
  match at_ 0 with
  | none => .short
  | some b0 =>
    match dispPrefix b0 with
    | some w =>
      match at_ 1 with
      | none => .short
      | some b1 =>
        if (dispPrefix b1).isSome then .illegal 2
        else if b1 = 0xF4 then
          match at_ 2 with
          | none => .short
          | some b2 => if isPre b2 then .illegal 3 else .ok ⟨some w, true, b2, 2⟩
        else .ok ⟨some w, false, b1, 1⟩
    | none =>
      if b0 = 0xF4 then
        match at_ 1 with
        | none => .short
        | some b1 => if isPre b1 then .illegal 2 else .ok ⟨none, true, b1, 1⟩
      else .ok ⟨none, false, b0, 0⟩

def Form.takesDisp : Form → Bool
  | .m | .mq | .tm => true
  | _ => false

/-- The opcode checks of R188, R193 and R203, and of R71 for a tile mode when one is given. -/
def headIllegal (tmode : Option Bool) (maltster : Bool) (h : Head) : Bool :=
  match opForm h.op with
  | none => true
  | some f =>
    (h.disp.isSome && !f.takesDisp) || (h.shp && shapedOperands h.op == 0)
      || (maltster && maltsterIllegal h.op)
      || (match tmode with
          | none => false
          | some false => !h.shp && shapedOperands h.op != 0
          | some true => h.shp)

/-- The byte (1 to 3) of a prefixed tile shape word that R71 makes illegal, if any. -/
def tswIllegal (t : Nat) : Option Nat :=
  if t / 2 ^ 13 % 8 ≠ 0 then some 2
  else if t / 2 ^ 23 % 2 = 0 ∨ t / 2 ^ 20 % 8 ≠ 0 ∨ 12 ≤ t / 2 ^ 16 % 16 then some 3
  else none

def natAt (bs : List Byte) (i n : Nat) : Nat := leNat ((bs.drop i).take n)

/-- R194 and R195: after how many bytes the bytes make an illegal instruction; none where they make a
legal one or do not decide. -/
def illegalAt (tmode maltster : Bool) (bs : List Byte) : Option Nat :=
  match parseHead bs with
  | .short => none
  | .illegal n => some n
  | .ok h =>
    if headIllegal (some tmode) maltster h then some (h.pos + 1)
    else
      let p := h.pos + 1
      match opForm h.op with
      | some .b => if p < bs.length && !immLegal h.op (natAt bs p 1) then some (p + 1) else none
      | some .t | some .tm =>
        if p < bs.length && !regLegal h.op (natAt bs p 1) then some (p + 1)
        else if !h.shp then none
        else
          let q := p + 1 + (if h.op = 0x71 ∨ h.op = 0x72 then h.disp.getD 1 else 0)
          let one (q : Nat) : Option Nat :=
            match tswIllegal (natAt bs q 3) with
            | some j => if q + j ≤ bs.length then some (q + j) else none
            | none => none
          match one q with
          | some n => some n
          | none => if shapedOperands h.op = 2 then one (q + 3) else none
      | _ => none

/-- The displacement of a width. -/
def mkDisp (w : Option Nat) (v : Nat) : Disp :=
  match w with
  | none => .d8 (BitVec.ofNat 8 v)
  | some 2 => .d16 (BitVec.ofNat 16 v)
  | some 4 => .d32 (BitVec.ofNat 32 v)
  | some _ => .d48 (BitVec.ofNat 48 v)

def fin8 (n : Nat) : Fin 8 := ⟨n % 8, Nat.mod_lt _ (by decide)⟩
def fin2 (n : Nat) : Fin 2 := ⟨n % 2, Nat.mod_lt _ (by decide)⟩
def fin16 (n : Nat) : Fin 16 := ⟨n % 16, Nat.mod_lt _ (by decide)⟩
def fin64 (n : Nat) : Fin 64 := ⟨n % 64, Nat.mod_lt _ (by decide)⟩

def engOfImm (v : Nat) : EngKind :=
  match v with
  | 1 => .gather | 2 => .select | 3 => .sampler | _ => .fingerprint

/-- The instruction an opcode without fields names. -/
def decodeZ (k : CoreId) (op : Nat) : Option Instr :=
  match op with
  | 0x01 => some (.nop k)
  | 0x02 => some (.drop k)
  | 0x03 => some (.dup k)
  | 0x04 => some (.swap k)
  | 0x05 => some (.over k)
  | 0x06 => some (.rot k)
  | 0x07 => some (.nip k)
  | 0x08 => some (.tuck k)
  | 0x09 => some (.twoDrop k)
  | 0x0A => some (.twoDup k)
  | 0x0C => some (.toR k)
  | 0x0D => some (.fromR k)
  | 0x0E => some (.fetchR k)
  | 0x0F => some (.rdrop k)
  | 0x20 => some (.add k)
  | 0x21 => some (.sub k)
  | 0x22 => some (.mul k)
  | 0x23 => some (.mulhs k)
  | 0x24 => some (.mulhu k)
  | 0x25 => some (.divs k)
  | 0x26 => some (.divu k)
  | 0x27 => some (.rems k)
  | 0x28 => some (.remu k)
  | 0x29 => some (.neg k)
  | 0x2A => some (.abs k)
  | 0x2B => some (.mins k)
  | 0x2C => some (.maxs k)
  | 0x2D => some (.minu k)
  | 0x2E => some (.maxu k)
  | 0x30 => some (.and k)
  | 0x31 => some (.or k)
  | 0x32 => some (.xor k)
  | 0x33 => some (.not k)
  | 0x34 => some (.shl k)
  | 0x35 => some (.shr k)
  | 0x36 => some (.sar k)
  | 0x37 => some (.rol k)
  | 0x38 => some (.ror k)
  | 0x39 => some (.popc k)
  | 0x3A => some (.clz k)
  | 0x3B => some (.ctz k)
  | 0x3C => some (.sext8 k)
  | 0x3D => some (.sext16 k)
  | 0x3E => some (.sext32 k)
  | 0x3F => some (.zext32 k)
  | 0x40 => some (.eq k)
  | 0x41 => some (.ne k)
  | 0x42 => some (.lts k)
  | 0x43 => some (.ltu k)
  | 0x44 => some (.les k)
  | 0x45 => some (.leu k)
  | 0x46 => some (.gts k)
  | 0x47 => some (.gtu k)
  | 0x48 => some (.ges k)
  | 0x49 => some (.geu k)
  | 0x4A => some (.zeq k)
  | 0x4B => some (.sel k)
  | 0x59 => some (.calli k)
  | 0x5A => some (.ret k)
  | 0x5B => some (.jmpi k)
  | 0x79 => some (.tsync k)
  | 0x81 => some (.vcache k)
  | 0x82 => some (.vsync k)
  | 0x99 => some (.fenceF k)
  | 0x9A => some (.rfset k)
  | 0x9B => some (.rcfinc k)
  | 0x9C => some (.rcfdec k)
  | 0xB0 => some (.dinv k)
  | 0xB1 => some (.dinva k)
  | 0xB2 => some (.iinv k)
  | 0xB3 => some (.iinva k)
  | 0xB4 => some (.l2fl k)
  | 0xB5 => some (.l2fla k)
  | 0xB6 => some (.l2inv k)
  | 0xB7 => some (.l2inva k)
  | 0xB8 => some (.mfence k)
  | 0xC2 => some (.tend k)
  | 0xC3 => some (.waiti k)
  | 0xC4 => some (.rdtime k)
  | 0xC5 => some (.rdcyc k)
  | 0xC6 => some (.rddsp k)
  | 0xC7 => some (.rdrsp k)
  | _ => none

/-- The instruction an opcode with an imm8 names. -/
def decodeB (k : CoreId) (op v : Nat) : Option Instr :=
  let b : Byte := BitVec.ofNat 8 v
  match op with
  | 0x0B => some (.pick k b)
  | 0x10 => some (.lit8 k b)
  | 0x16 => some (.addi8 k b)
  | 0x50 => some (.br8 k b)
  | 0x52 => some (.bz8 k b)
  | 0x54 => some (.bnz8 k b)
  | 0x56 => some (.dbnz8 k b)
  | 0x70 => some (.tcfg k b)
  | 0x84 => some (.dmaq k (fin16 v))
  | 0x85 => some (.dmaw k (fin16 v))
  | 0x86 => some (.engq k (engOfImm v))
  | 0x87 => some (.engw k (engOfImm v))
  | 0x90 => some (.fset k (fin64 v))
  | 0x91 => some (.fclr k (fin64 v))
  | 0x92 => some (.ftest k (fin64 v))
  | 0x93 => some (.fwait k (fin64 v))
  | 0x94 => some (.fwatch k (fin64 v))
  | 0x95 => some (.cfinc k (fin16 v))
  | 0x96 => some (.cfdec k (fin16 v))
  | 0x97 => some (.cfread k (fin16 v))
  | 0x98 => some (.cfwait k (fin16 v))
  | 0xA0 => some (.clfset k b)
  | 0xA1 => some (.clfclr k b)
  | 0xA2 => some (.clftest k b)
  | 0xA3 => some (.clfwait k b)
  | 0xA4 => some (.mbpost k b)
  | 0xA5 => some (.mbpoll k b)
  | 0xC0 => some (.trap k b .clean)
  | 0xC1 => some (.gret k (fin8 v))
  | _ => none

/-- The instruction an opcode with a longer immediate or offset names. -/
def decodeL (k : CoreId) (op v : Nat) : Option Instr :=
  match op with
  | 0x11 => some (.lit16 k (BitVec.ofNat 16 v))
  | 0x12 => some (.lit32 k (BitVec.ofNat 32 v))
  | 0x13 => some (.lit64 k (BitVec.ofNat 64 v))
  | 0x14 => some (.litu32 k (BitVec.ofNat 32 v))
  | 0x15 => some (.leapc k (BitVec.ofNat 32 v))
  | 0x17 => some (.addi32 k (BitVec.ofNat 32 v))
  | 0x51 => some (.br32 k (BitVec.ofNat 32 v))
  | 0x53 => some (.bz32 k (BitVec.ofNat 32 v))
  | 0x55 => some (.bnz32 k (BitVec.ofNat 32 v))
  | 0x57 => some (.dbnz32 k (BitVec.ofNat 32 v))
  | 0x58 => some (.call32 k (BitVec.ofNat 32 v))
  | _ => none

/-- The instruction of form M. -/
def decodeM (k : CoreId) (op : Nat) (d : Disp) : Option Instr :=
  match op with
  | 0x60 => some (.ld8u k d {})
  | 0x61 => some (.ld8s k d {})
  | 0x62 => some (.ld16u k d {})
  | 0x63 => some (.ld16s k d {})
  | 0x64 => some (.ld32u k d {})
  | 0x65 => some (.ld32s k d {})
  | 0x66 => some (.ld64 k d {})
  | 0x68 => some (.st8 k d {})
  | 0x69 => some (.st16 k d {})
  | 0x6A => some (.st32 k d {})
  | 0x6B => some (.st64 k d {})
  | 0x6D => some (.lea k d)
  | 0x80 => some (.vexec k { disp := d })
  | _ => none

/-- The instruction of form T or TM: register byte, displacement and shape words. -/
def decodeT (k : CoreId) (op r : Nat) (d : Disp) (shp : Bool) (t1 t2 : Nat) : Option Instr :=
  let a := fin2 (r / 64)
  let s1 : Option (BitVec 24) := if shp then some (BitVec.ofNat 24 t1) else none
  let s2 : Option (BitVec 24 × BitVec 24) :=
    if shp then some (BitVec.ofNat 24 t1, BitVec.ofNat 24 t2) else none
  match op with
  | 0x71 => some (.tld k (fin8 r) d s1)
  | 0x72 => some (.tst k (fin8 r) d s1)
  | 0x73 => some (if r / 128 % 2 = 1 then .tzero k (.acc a) else .tzero k (.tile (fin8 r)))
  | 0x74 => some (.tmma k a (fin8 r) (fin8 (r / 8)) s2)
  | 0x75 => some (.tsta k a d)
  | 0x76 => some (.tcva k (fin8 r) a s1)
  | 0x77 => some (.tspill k a d)
  | 0x78 => some (.tfill k a d)
  | _ => none

/-- The bytes that follow the opcode (R186, R187). -/
def tailLen (h : Head) (f : Form) : Nat :=
  let d := h.disp.getD 1
  let s := if h.shp then 3 * shapedOperands h.op else 0
  match f with
  | .z => 0 | .b | .j8 => 1 | .l16 => 2 | .l32 | .j32 => 4 | .l64 => 8
  | .m => d | .mq => d + 8 | .t => 1 + s | .tm => 1 + d + s

/-- The decoder: the instruction that the bytes begin with and its length; `illegal n` where the first n
bytes are illegal in every mode; `short` where more bytes are needed. -/
def decodeCore (k : CoreId) (bs : List Byte) : Dec (Instr × Nat) :=
  match parseHead bs with
  | .short => .short
  | .illegal n => .illegal n
  | .ok h =>
    if headIllegal none (k.val == maltsterCore) h then .illegal (h.pos + 1)
    else match opForm h.op with
    | none => .illegal (h.pos + 1)
    | some f =>
      let p := h.pos + 1
      let n := p + tailLen h f
      let d := h.disp.getD 1
      if bs.length < n then .short
      else
        let wrap (i : Option Instr) : Dec (Instr × Nat) :=
          match i with
          | some i => .ok (i, n)
          | none => .illegal p
        match f with
        | .z => wrap (decodeZ k h.op)
        | .b => if immLegal h.op (natAt bs p 1) then wrap (decodeB k h.op (natAt bs p 1)) else .illegal (p + 1)
        | .j8 => wrap (decodeB k h.op (natAt bs p 1))
        | .l16 => wrap (decodeL k h.op (natAt bs p 2))
        | .l32 | .j32 => wrap (decodeL k h.op (natAt bs p 4))
        | .l64 => wrap (decodeL k h.op (natAt bs p 8))
        | .m => wrap (decodeM k h.op (mkDisp h.disp (natAt bs p d)))
        | .mq => wrap (some (.stiQ k (mkDisp h.disp (natAt bs p d)) (BitVec.ofNat 64 (natAt bs (p + d) 8)) {}))
        | .t =>
          if regLegal h.op (natAt bs p 1) then
            wrap (decodeT k h.op (natAt bs p 1) (.d8 0) h.shp (natAt bs (p + 1) 3) (natAt bs (p + 4) 3))
          else .illegal (p + 1)
        | .tm =>
          if regLegal h.op (natAt bs p 1) then
            wrap (decodeT k h.op (natAt bs p 1) (mkDisp h.disp (natAt bs (p + 1) d)) h.shp
              (natAt bs (p + 1 + d) 3) 0)
          else .illegal (p + 1)

end Sys2Proof.Machine
end

