-- ==== Sys2Proof/Machine/Event.lean ====
section
/-!
DEFINITION. Taking an event and returning from one (R164 to R166, R171 to R180): the stacks and their
caches, the trap record, entry, DOUBLE_FAULT and halt. One shared operation, `takeEvent`, serves every
TRAP, exception and interrupt.
-/
namespace Sys2Proof.Machine
open Sys2Proof

/-! ### Stacks (R164 to R166) -/

/-- The memory behind core k's stacks: its scratchpad, or the maltster's own memory. -/
def State.stackGet (s : State) (k a : Nat) : Word :=
  if k = maltsterCore then leWord (memGetN s.sram a 8) else leWord (s.getBytes (spadAddr k a) 8)

def State.stackPut (s : State) (k a : Nat) (v : Word) : State :=
  if k = maltsterCore then { s with sram := memPutN s.sram a (leBytes 8 v.toNat) }
  else s.placeBytes (spadAddr k a) (leBytes 8 v.toNat)

/-- One of a bank's two stacks. -/
inductive Stk where
  | data | ret
  deriving DecidableEq, Repr

def Bank.ptr (b : Bank) : Stk → Nat | .data => b.dsp | .ret => b.rsp
def Bank.floor (b : Bank) : Stk → Nat | .data => b.dsFloor | .ret => b.rsFloor
def Bank.cache (b : Bank) : Stk → List Word | .data => b.ds | .ret => b.rs

/-- The entries above the floor. -/
def Bank.depth (b : Bank) (x : Stk) : Nat := (b.floor x - b.ptr x) / 8

/-- Entry i below the top: from the cache, or from memory (R165). -/
def State.stackEntry (s : State) (k : Nat) (b : Bank) (x : Stk) (i : Nat) : Word :=
  match (b.cache x)[i]? with
  | some v => v
  | none => s.stackGet k (b.ptr x + 8 * i)

/-- The top n entries, top first. -/
def State.stackTop (s : State) (k : Nat) (b : Bank) (x : Stk) (n : Nat) : List Word :=
  (List.range n).map (fun i => s.stackEntry k b x i)

/-- Whether the 16-byte entry of a scratchpad that holds a stack entry is written whole by entries going out: both
its halves are among them, and move in one write (R136, R165). -/
def outWhole (out : List Nat) (a : Nat) : Bool := out.contains (a / 16 * 16) && out.contains (a / 16 * 16 + 8)

/-- The errors that entries going out clear: those of the 16-byte entries they write whole (R136). -/
def State.outClears (s : State) (k : Nat) (out : List Nat) : State :=
  { s with bad := s.bad.filter (fun b => !(k != maltsterCore && out.any (fun a => b == spadAddr k a / 16 && outWhole out a))) }

/-- The oldest cached entries spilled until at most `keep` stay cached (R165). -/
def State.spill (s : State) (k : Nat) (ptr : Nat) : List Word → Nat → List Word × State
  | cache, keep =>
    let out := (List.range cache.length).filter (fun i => decide (keep ≤ i))
    (cache.take keep,
     (out.foldl (fun s i => s.stackPut k (ptr + 8 * i) (cache.getD i 0)) s).outClears k (out.map (fun i => ptr + 8 * i)))

/-- Why entries of a stack cannot move between the cache and memory: the scratchpad offset of the first that lies in
a resident window of a schedule the core is not running (R128), or of the first whose entry holds an error that
the move meets (R136). -/
inductive StackBar where
  | resident (a : Nat)
  | error (a : Nat)
  deriving DecidableEq, Repr

/-- Entries read from and written to memory at scratchpad offsets, and what bars the moves. [log 127: DEDUCED] -/
def State.stackBar (s : State) (k : Nat) (ins outs : List Nat) : Option StackBar :=
  if k = maltsterCore then none
  else match (ins ++ outs).find? (fun a => (s.core k).residentOther a) with
  | some a => some (.resident a)
  | none =>
    ((ins ++ outs.filter (fun a => !outWhole outs a)).find? (fun a => s.holdsError (spadAddr k a))).map .error

/-- What bars the moves of one stack for an instruction (R165): it fills what it pops and reads what it copies from
memory, and spills what no longer fits. -/
def State.barOf (s : State) (k : Nat) (b : Bank) (x : Stk) (pops reads pushes : Nat) : Option StackBar :=
  if pops = 0 ∧ reads = 0 ∧ pushes = 0 then none
  else
    let n := (b.cache x).length
    let m := min (max pops n) (max n (b.depth x))
    let at_ (i : Nat) : Nat := b.ptr x + 8 * i
    let ins := (List.range m).filter (fun i => decide (n ≤ i)) ++ (if n < reads then [reads - 1] else [])
    let outs := (List.range m).filter (fun i => decide (16 + pops - pushes ≤ i))
    s.stackBar k (ins.map at_) (outs.map at_)

/-- The cache adjustment of R165 followed by the stack effect of an instruction: `pops` entries leave and
`pushes` (top first) are pushed. The state, the new pointer and the new cache. -/
def State.stackApply (s : State) (k : Nat) (b : Bank) (x : Stk) (pops : Nat) (pushes : List Word) :
    State × Nat × List Word :=
  let avail := max pops (b.cache x).length
  let filled := (List.range (min avail (max (b.cache x).length (b.depth x)))).map (fun i => s.stackEntry k b x i)
  let keep := 16 + pops - pushes.length
  let r := s.spill k (b.ptr x) filled keep
  (r.2, b.ptr x + 8 * pops - 8 * pushes.length, pushes ++ r.1.drop pops)

/-- The lowest and the end address of a ring's stack region (CORE_DSn, CORE_RSn). -/
def Core.region (c : Core) (r : Fin 4) : Stk → StkReg
  | .data => c.dsr.get r
  | .ret => c.rsr.get r

def StkReg.lim (r : StkReg) : Nat := r.limg * 16
def StkReg.top (r : StkReg) : Nat := r.topg * 16

/-- R166: whether the `need` entries that an instruction pops or reads lie above the floor, and whether those it
pushes then fit above LIM; what pushes nothing does not overflow. [log 22: DEDUCED] -/
def Core.stackFault (c : Core) (x : Stk) (need pops pushes : Nat) : Option Ev :=
  let b := c.bank
  let cause : Nat := match x with | .data => 1 | .ret => 2
  if b.depth x < need then some { code := 8, cause := cause }
  else if pushes ≠ 0 ∧ b.ptr x + 8 * pops < (c.region c.ring x).lim + 8 * pushes then some { code := 7, cause := cause }
  else none

/-- The bank with its pointer and cache of one stack replaced. -/
def Bank.withStack (b : Bank) : Stk → Nat → List Word → Bank
  | .data, p, c => { b with dsp := p, ds := c }
  | .ret, p, c => { b with rsp := p, rs := c }

/-- A stack effect on core k's current bank. -/
def State.stackEffect (s : State) (k : Nat) (x : Stk) (pops : Nat) (pushes : List Word) : State :=
  let b := (s.core k).bank
  let r := s.stackApply k b x pops pushes
  r.1.modCore k (fun c => c.setBank (c.bank.withStack x r.2.1 r.2.2))

/-! ### Freezing the units (R89, R111) -/

/-- R89: the executing and every queued tile instruction become frozen entries. -/
def Tile.freeze (t : Tile) : Tile := { t with frozen := t.frozen ++ t.queue, queue := [], stopped := false }

/-- R111: the vector queue freezes; a reduction, a scan or a VCACHE restarts from its first element. -/
def VecEntry.freeze (e : VecEntry) : VecEntry :=
  let elementwise : Bool := match e.op with
    | .vexec _ => decide (leNat (e.desc.take 1) < 0x20)
    | .vcache _ _ _ _ => false
  if elementwise then { e with done := false, fault := none, reread := true }
  else { e with done := false, fault := none, reread := true, progress := 0, acc := {} }

def Vsu.freeze (v : Vsu) : Vsu := { v with frozen := v.frozen ++ v.queue.map VecEntry.freeze, queue := [], stopped := false }

/-- R89, R111, R174: frozen entries issued in the ring returned to enter their queues again. -/
def Tile.thaw (t : Tile) (r : Fin 4) : Tile :=
  { t with queue := t.queue ++ t.frozen.filter (fun e => e.ring == r),
           frozen := t.frozen.filter (fun e => e.ring != r) }

def Vsu.thaw (v : Vsu) (r : Fin 4) : Vsu :=
  { v with queue := v.queue ++ v.frozen.filter (fun e => e.ring == r),
           frozen := v.frozen.filter (fun e => e.ring != r) }

/-! ### Events -/

/-- The table ring of an exception code (R176). -/
def tableRing (code : Nat) : Nat := if code = 0x0B ∨ code = 0x0C then 2 else if code = 0x11 then 0 else 1

/-- The ring of an interrupt (R179). -/
def intRing (i : Nat) : Nat := if i = 0 then 0 else 1

def toRing (n : Nat) : Fin 4 := ⟨n % 4, Nat.mod_lt _ (by decide)⟩

/-- How an event enters: the ring entered, the entries passed, GIE at entry and the address execution
continues at (R170, R171, R177, R179). -/
structure Entry where
  ring : Fin 4
  args : Nat
  ien : Bool
  target : Word
  deriving DecidableEq, Repr

/-- The entry of an exception (R171 step 7, R177). -/
def Core.exceptionEntry (c : Core) (code : Nat) : Entry :=
  let m := toRing (min (tableRing code) c.ring.val)
  { ring := m, args := 0, ien := false, target := BitVec.ofNat 64 (c.vbase.get m * 4096 + code * 64) }

/-- The entry of interrupt 0x20 + i (R171, R179). -/
def Core.interruptEntry (c : Core) (i : Nat) : Entry :=
  let m := toRing (intRing i)
  { ring := m, args := 0, ien := false, target := BitVec.ofNat 64 (c.vbase.get m * 4096 + (0x20 + i) * 64) }

def EvKind.code : EvKind → Nat
  | .precise => 0 | .deferred => 1 | .imprecise => 2 | .boundary => 3

/-- The trap record, E0 first (R173). -/
def trapRecord (c : Core) (ev : Ev) (rpc : Word) (nest : Bool) : List Word :=
  [ place ev.code 8 0 ||| place ev.cause 8 8 ||| place ev.gate 8 16 ||| place c.ring.val 2 24
      ||| place ev.kind.code 2 26 ||| flagAt nest 28 ||| flagAt c.gie 29,
    rpc, ev.iaddr, ev.faddr, ev.info0, ev.info1,
    place c.bank.dsFloor 21 0 ||| place c.bank.rsFloor 21 21,
    0 ]

/-- Whether the record fits above the RS LIM of the ring entered (R171). -/
def Core.recordFits (c : Core) (m : Fin 4) : Bool :=
  let base := if (c.banks.get m).busy then (c.banks.get m).rsp else (c.rsr.get m).top
  decide ((c.rsr.get m).lim + 64 ≤ base)

/-- The steps of R171, the record known to fit. -/
def State.enter (s : State) (k : Nat) (ev : Ev) (e : Entry) (rpc : Word) : State :=
  let c0 := s.core k
  let nest := (c0.banks.get e.ring).busy
  let rec_ := trapRecord c0 ev rpc nest
  let s1 := s.modCore k (fun c => { c with tile := c.tile.freeze, vsu := c.vsu.freeze, waiting := none })
  if nest then
    let b := c0.bank
    let dsFloor := b.dsp + 8 * e.args
    let sp := s1.spill k b.rsp b.rs 8
    sp.2.modCore k (fun c =>
      { (c.setBank { b with rs := rec_ ++ sp.1, rsp := b.rsp - 64, rsFloor := b.rsp - 64, dsFloor := dsFloor,
                            pc := e.target }) with gie := e.ien })
  else
    let args := s1.stackTop k c0.bank .data e.args
    let r := s1.stackApply k c0.bank .data e.args []
    r.1.modCore k (fun c =>
      let caller := { c.bank with dsp := r.2.1, ds := r.2.2 }
      let c1 := c.setBank caller
      let top := (c1.dsr.get e.ring).top
      let rtop := (c1.rsr.get e.ring).top
      let nb : Bank :=
        { pc := e.target, dsp := top - 8 * e.args, dsFloor := top, ds := args,
          rsp := rtop - 64, rsFloor := rtop - 64, rs := rec_, busy := true }
      { c1 with banks := c1.banks.set e.ring nb, ring := e.ring, gie := e.ien })

/-- A core whose access met an uncorrectable error stops with it (R136, R303). [log 26: DEDUCED] -/
def State.stopCore (s : State) (k : Nat) : State := s.modCore k (fun c => { c with run := .stopped, waiting := none, presented := false })

/-- An uncorrectable error met at a physical address stops core k and is detected (R136, R303). [log 26: DEDUCED] -/
def State.stopAt (s : State) (k pa : Nat) : State := ((s.eccRead pa k .clean).1).stopCore k

/-- Whether the byte at an address can be fetched in the core's current ring (R182, R195). [log 20: DEDUCED] -/
def State.fetchFault (s : State) (k : Nat) (va : Nat) : Option AFault :=
  match coreXlate s k (s.core k).ring .fetch va with
  | .error f => some f
  | .ok _ => none

/-- The fetch of the instruction at an address, up to n further bytes of it after `bs`: the first byte that cannot be
fetched before the bytes read make a whole instruction or an illegal one (R182, R195 step 1). -/
def State.instrFetchFrom (s : State) (k va : Nat) (bs : List Byte) : Nat → Option AFault
  | 0 => none
  | n + 1 =>
    match coreXlate s k (s.core k).ring .fetch (va + bs.length) with
    | .error f => some f
    | .ok t =>
      let b : Byte := match t with | .phys pa _ => s.fetchByte k pa | .remote _ _ _ _ => 0
      let bs' := bs ++ [b]
      if (illegalAt (s.core k).tmode (k == maltsterCore) bs').isSome then none
      else match decodeCore ⟨k % 769, Nat.mod_lt _ (by decide)⟩ bs' with
        | .short => s.instrFetchFrom k va bs' n
        | _ => none

/-- The fetch of the instruction at an address, of at most 16 bytes (R185). -/
def State.instrFetch (s : State) (k va : Nat) : Option AFault := s.instrFetchFrom k va [] 16

/-- The core halts (R180): it issues nothing more, and its launch fails with cause TRAP and the code 0x11
(R364). -/
def State.haltCore (s : State) (k : Nat) : State :=
  (s.modCore k (fun c => { c with halt := true, run := .stopped, waiting := none })).abortCore k
    { cause := 7, sub := 0x11, hw := false }

/-- DOUBLE_FAULT for an event whose entry failed: CAUSE the failed code, E1 to E5 from that event (R176,
R180). -/
def doubleFault (ev : Ev) : Ev := { ev with code := 0x11, cause := ev.code, gate := 0, kind := .boundary }

/-- The spill of R171 step 4 cannot complete: an entry that goes out lies in a resident window of another schedule,
or its write meets an uncorrectable error, which is detected; `h` is what the arrays report on it (R128, R136,
R180). The state that is left, or none where the spill completes. [log 127: DEDUCED] -/
def State.spillFails (s : State) (k : Nat) (m : Fin 4) (h : Ecc) : Option State :=
  let b := (s.core k).banks.get m
  let out := ((List.range b.rs.length).filter (fun i => decide (8 ≤ i))).map (fun i => b.rsp + 8 * i)
  if !b.busy || out.isEmpty then none
  else match s.stackBar k [] out with
  | some (.resident _) => some s
  | some (.error a) => some (s.eccRead (spadAddr k a) k .clean).1
  | none =>
    if h = .uncorrectable then
      (if k = maltsterCore then some s else some (s.eccRead (spadAddr k (out.headD 0)) k h).1)
    else none

/-- An entry with its checks: the record must fit, a busy bank's spill must complete, and the handler's
first instruction must be fetchable; none where the entry fails (R171, R180). -/
def State.tryEnter (s : State) (k : Nat) (ev : Ev) (e : Entry) (rpc : Word) (h : Ecc) : Except State State :=
  if !(s.core k).recordFits e.ring then .error s
  else match s.spillFails k e.ring h with
  | some s' => .error s'
  | none =>
    let s' := s.enter k ev e rpc
    match s'.instrFetch k e.target.toNat with
    | some _ => .error s'
    | none => .ok s'

/-- The entry of an event failed (R180): DOUBLE_FAULT into ring 0; where that fails too, or was the event, the core
halts. [log 20: DEDUCED] -/
def State.entryFailed (s : State) (k : Nat) (ev : Ev) (rpc : Word) : State :=
  if ev.code = 0x11 then s.haltCore k
  else match s.tryEnter k (doubleFault ev) ((s.core k).exceptionEntry 0x11) rpc .clean with
    | .ok s' => s'
    | .error s' => s'.haltCore k

/-- TAKING AN EVENT (R171, R180): entry into the handling ring; where it fails, DOUBLE_FAULT into ring 0;
where that fails too, the core halts. [log 20: DEDUCED] -/
def State.takeEvent (s : State) (k : Nat) (ev : Ev) (e : Entry) (rpc : Word) (h : Ecc) : State :=
  match s.tryEnter k ev e rpc h with
  | .ok s' => s'
  | .error s' => s'.entryFailed k ev rpc

/-- A precise fault of the instruction at the current PC: nothing but the entry happens (R175). -/
def State.raise (s : State) (k : Nat) (ev : Ev) : State :=
  let pc := (s.core k).pc
  let ev' := { ev with kind := .precise, iaddr := pc }
  s.takeEvent k ev' ((s.core k).exceptionEntry ev.code) pc .clean

/-- An event of a failed access. -/
def AFault.ev (f : AFault) : Ev := { code := f.code, cause := f.cause, faddr := BitVec.ofNat 64 f.addr }

/-! ### What is pending at a boundary (R178, R179) -/

def oldest (ps : List Pend) : Option Pend :=
  match ps with
  | [] => none
  | p :: rest => some (rest.foldl (fun m x => if x.stamp < m.stamp then x else m) p)

/-- The lowest-numbered interrupt that may be taken (R178, R179). -/
def Core.takeableInt (c : Core) : Option Nat :=
  (List.range 16).find? (fun i =>
    c.ipend.getLsbD i && c.ie.getLsbD i && c.gie && decide (intRing i ≤ c.ring.val))

/-- The event a core takes at its next boundary, with its entry and the core that has taken it from its
pending events (R178). -/
def Core.nextEvent (c : Core) : Option (Ev × Entry × Core) :=
  match oldest c.pendDef with
  | some p => some (p.ev, c.exceptionEntry p.ev.code, { c with pendDef := c.pendDef.erase p })
  | none =>
    match oldest c.pendNan with
    | some p => some (p.ev, c.exceptionEntry p.ev.code, { c with pendNan := c.pendNan.erase p })
    | none =>
      match oldest c.pendArith with
      | some p => some (p.ev, c.exceptionEntry p.ev.code, { c with pendArith := c.pendArith.erase p })
      | none =>
        match c.takeableInt with
        | some i =>
          some ({ code := 0x20 + i, kind := .boundary }, c.interruptEntry i,
                { c with ipend := c.ipend &&& ~~~(BitVec.ofNat 16 (2 ^ i)) })
        | none => none

/-- The core at a boundary takes its next event: RPC is the instruction at the boundary, or the one after
a WAITI whose interrupt is taken (R202). A post that the mailbox unit has been given is no boundary. The entry into
its handler clears an interrupt's pending bit; where that entry fails, the bit stands (R179). [log 20: DEDUCED] -/
def State.takePending (s : State) (k : Nat) (h : Ecc) : Option State :=
  match if (s.core k).presented then none else (s.core k).nextEvent with
  | none => none
  | some (ev, e, c') =>
    let rpc : Word :=
      match c'.waiting with
      | some (.waiti _) => if 0x20 ≤ ev.code ∧ ev.code < 0x30 then c'.pc + 1 else c'.pc
      | _ => c'.pc
    match (s.setCore k c').tryEnter k ev e rpc h with
    | .ok s' => some s'
    | .error s' => some ((s'.modCore k (fun c => { c with ipend := c.ipend ||| (s.core k).ipend })).entryFailed k ev rpc)

end Sys2Proof.Machine
end

