-- ==== Sys2Proof/Machine/HostOps.lean ====
section
/-!
DEFINITION. What the device blocks share: access to their state, what they send, mailboxes (R239 to R242),
completion rings (R350, R351), replies (R354) and events (R369).
-/
namespace Sys2Proof.Machine
open Sys2Proof

def State.group (s : State) (g : Nat) : NetGroup := mget {} s.groups g
def State.modGroup (s : State) (g : Nat) (f : NetGroup → NetGroup) : State :=
  { s with groups := mput s.groups g (f (s.group g)) }

def NetGroup.port (g : NetGroup) (i : Nat) : Port := mget {} g.ports i
def NetGroup.modPort (g : NetGroup) (i : Nat) (f : Port → Port) : NetGroup :=
  { g with ports := mput g.ports i (f (g.port i)) }

/-- Port 4p + i of the device. -/
def State.netPort (s : State) (n : Nat) : Port := (s.group (n / 4)).port (n % 4)
def State.modNetPort (s : State) (n : Nat) (f : Port → Port) : State :=
  s.modGroup (n / 4) (fun g => g.modPort (n % 4) f)
def State.portUp (s : State) (n : Nat) : Bool := (s.group (n / 4)).up.getLsbD (n % 4)

def State.host (s : State) (h : Nat) : HostS := mget {} s.hosts h
def State.modHost (s : State) (h : Nat) (f : HostS → HostS) : State :=
  { s with hosts := mput s.hosts h (f (s.host h)) }
def HostS.qp (x : HostS) (q : Nat) : Qp := mget {} x.qps q
def HostS.modQp (x : HostS) (q : Nat) (f : Qp → Qp) : HostS := { x with qps := mput x.qps q (f (x.qp q)) }
def State.modQp (s : State) (h q : Nat) (f : Qp → Qp) : State := s.modHost h (fun x => x.modQp q f)

def State.send (s : State) (x : Sent) : State := { s with sent := x :: s.sent }

/-! ### Host memory -/

/-- n bytes the device reads from outside: each is a free value. [log 6: DESIGN CHOICE] -/
def State.freeBytes (s : State) : Nat → List Byte × State
  | 0 => ([], s)
  | n + 1 =>
    let d := s.drawFree
    let r := d.2.freeBytes n
    (BitVec.ofNat 8 d.1.toNat :: r.1, r.2)

/-- Whether a host's memory answers at every byte of a range. [log 11: DESIGN CHOICE] -/
def hostAnswers (h a n : Nat) : Bool := (List.range n).all (fun i => Config.hostReachable h (a + i))

/-! ### Mailboxes -/

def Mbx.chan (m : Mbx) (n : Nat) : MbChan := mget {} m.chans n
def Mbx.modChan (m : Mbx) (n : Nat) (f : MbChan → MbChan) : Mbx := { m with chans := mput m.chans n (f (m.chan n)) }
def State.modMb (s : State) (n : Nat) (f : MbChan → MbChan) : State := { s with mbx := s.mbx.modChan n f }

/-- Why a post is refused (R239). -/
inductive MbRefusal where
  | devblock | partition | off | full
  deriving DecidableEq, Repr

/-- Whether a receiver can take a post: a core in a cluster that is not mapped out, a host port with its
link up; any other master always. [log 52: DEDUCED] -/
def State.mbPowered (s : State) (id : Nat) : Bool :=
  match masterOf id with
  | some (.core k) => !(s.cluster (clusterOf k)).absent
  | some (.host h) => (s.host h).link == .up
  | _ => true

/-- Whether two masters lie in one partition, or one of them is the maltster. -/
def State.mbTogether (s : State) (a b : Nat) : Bool :=
  a == maltsterId || b == maltsterId ||
    (match masterOf a, masterOf b with
     | some x, some y => (s.partOfMaster x).isSome && s.partOfMaster x == s.partOfMaster y
     | _, _ => false)

/-- The checks of a post, in order (R239). -/
def State.mbCheck (s : State) (ch sender : Nat) : Option MbRefusal :=
  let c := s.mbx.chan ch
  if !c.v || c.snd != sender then some .devblock
  else if !s.mbTogether c.snd c.rcv then some .partition
  else if !s.mbPowered c.rcv then some .off
  else if 4 ≤ c.notices.length then some .full
  else none

/-- An accepted post (R240, R370). -/
def State.mbAccept (s : State) (ch notice : Nat) : State :=
  let c := s.mbx.chan ch
  let s1 := s.modMb ch (fun c =>
    { c with notices := c.notices ++ [(notice, c.seq)], seq := (c.seq + 1) % 65536 })
  if !c.ie then s1
  else match masterOf c.rcv with
    | some (.core k) => s1.modCore k (fun x => { x with ipend := x.ipend ||| 2 })
    | some (.host h) => s1.send (.msix h 64)
    | _ => s1

/-- A post of a notice by a master (R239, R240). -/
def State.mbPost (s : State) (ch sender notice : Nat) : Except MbRefusal State :=
  match s.mbCheck ch sender with
  | some r => .error r
  | none => .ok (s.mbAccept ch notice)

/-- x of R241 for a channel's oldest notice. -/
def MbChan.word (c : MbChan) : Word :=
  match c.notices with
  | [] => 0
  | (n, q) :: _ => place n 32 0 ||| place c.snd 12 32 ||| place q 16 44

/-- The oldest notice removed: x and f. -/
def State.mbTake (s : State) (ch : Nat) : Word × Bool × State :=
  let c := s.mbx.chan ch
  (c.word, !c.notices.isEmpty, s.modMb ch (fun c => { c with notices := c.notices.tail }))

/-! ### Completion rings -/

def Qp.cqSize (q : Qp) : Nat := 2 ^ q.cqLogn
def Qp.sqSize (q : Qp) : Nat := 2 ^ q.sqLogn

/-- The error state of a queue pair (R351). -/
def State.qpError (s : State) (h q : Nat) : State :=
  (s.modQp h q (fun x => { x with err := true })).send (.msix h 65)

/-- C0 with its phase and the bytes of a reply (R354). -/
def replyBytes (phase : Bool) (ws : List Word) : List Byte :=
  ((ws.getD 0 0 ||| flagAt phase 63) :: ws.tail).flatMap (fun w => leBytes 8 w.toNat)

/-- The tag of a final reply; none for an interim reply or an event. -/
def finalTag (ws : List Word) : Option Nat :=
  let c0 := ws.getD 0 0
  if bit c0 38 || field c0 7 0 == 1 then none else some (field c0 31 16)

/-- One reply written at the completion tail of a pair that is enabled, without error and has room; a write
that host memory refuses puts the pair into its error state. Answers whether the reply was written. [log 11: DESIGN CHOICE] -/
def State.ringWrite (s : State) (h q : Nat) (ws : List Word) : Bool × State :=
  let x := (s.host h).qp q
  let a := x.cqBase * 4096 + 32 * x.cqTail
  if !Config.hostReachable h a then (false, s.qpError h q)
  else
    let wrap := x.cqTail + 1 = x.cqSize
    let s1 := (s.send (.hostWrite h a (replyBytes x.phase ws))).modQp h q (fun x =>
      { x with cqTail := if wrap then 0 else x.cqTail + 1, phase := if wrap then !x.phase else x.phase,
               used := x.used + 1 })
    (true, if x.ien then s1.send (.msix h x.vec) else s1)

/-- Whether a pair can take a reply now (R350, R351). [log 70: DEDUCED] -/
def Qp.open (q : Qp) : Bool := q.en && !q.err && q.held.isEmpty && decide (q.used < q.cqSize)

/-- The command of a written final reply is no longer outstanding (R356). -/
def State.retire (s : State) (src : CmdSrc) (ws : List Word) : State :=
  match finalTag ws with
  | none => s
  | some t => { s with cmds := s.cmds.filter (fun c => !(c.src == src && c.tag == t && c.decided)) }

/-- A reply to a command of a queue pair: written, or held (R350, R351). -/
def State.reply (s : State) (h : HostPort) (q : Fin 64) (ws : List Word) : State :=
  let hold (s : State) : State := s.modQp h.val q.val (fun x => { x with held := x.held ++ [ws] })
  if ((s.host h.val).qp q.val).open then
    let r := s.ringWrite h.val q.val ws
    if r.1 then r.2.retire (.qp h q) ws else hold r.2
  else hold s

/-- Held replies written while the ring has room. -/
def State.releaseHeld (h : HostPort) (q : Fin 64) : Nat → State → State
  | 0, s => s
  | n + 1, s =>
    let x := (s.host h.val).qp q.val
    match x.held with
    | [] => s
    | ws :: rest =>
      if x.en && !x.err && decide (x.used < x.cqSize) then
        let r := s.ringWrite h.val q.val ws
        if r.1 then
          State.releaseHeld h q n
            ((r.2.modQp h.val q.val (fun x => { x with held := rest })).retire (.qp h q) ws)
        else r.2
      else s

/-! ### Replies -/

/-- RESULT of a final reply (R354): status, CAUSE, SUB, TRUNC, RFAIL, NITEMS, C2, C3. -/
structure Result where
  status : Nat := 0
  cause : Nat := 0
  sub : Nat := 0
  trunc : Bool := false
  rfail : Bool := false
  nitems : Nat := 0
  c2 : Word := 0
  c3 : Word := 0
  deriving DecidableEq, Repr

def replyWords (op tag q : Nat) (r : Result) : List Word :=
  [ place r.status 8 0 ||| place op 8 8 ||| place tag 16 16 ||| place q 6 32,
    place r.cause 8 0 ||| place r.sub 8 8 ||| flagAt r.trunc 16 ||| flagAt r.rfail 17 ||| place r.nitems 32 32,
    r.c2, r.c3 ]

/-- A reply sent where its command came from. -/
def State.replyTo (s : State) (src : CmdSrc) (op tag : Nat) (r : Result) : State :=
  match src with
  | .qp h q => s.reply h q (replyWords op tag q.val r)
  | .mgmt =>
    let ws := replyWords op tag 0 r
    (s.send (.mctp (0x02 :: replyBytes false ws))).retire .mgmt ws

/-- The commands of a list that stand before a command. -/
def cmdsBefore (cs : List Cmd) (c : Cmd) : List Cmd := cs.takeWhile (fun x => x != c)

/-- Whether a command may start: those of its queue pair fetched earlier have started (R357), and with WAIT set
have their final replies (R352). -/
def State.mayStart (s : State) (c : Cmd) : Bool :=
  !c.started && !c.decided && (cmdsBefore s.cmds c).all (fun b => b.src != c.src || (b.started && !c.wait))

/-- A command's final reply decided and sent: the command has run (R351, R357). -/
def State.conclude (s : State) (c : Cmd) (r : Result) : State :=
  ({ s with cmds := s.cmds.map (fun x => if x == c then { x with started := true, decided := true } else x) } : State).replyTo
    c.src c.op c.tag r

/-- The NOP commands that may start complete (R357, R359): the table of commands has no row for one. -/
def State.nopSteps : Nat → State → State
  | 0, s => s
  | n + 1, s =>
    match s.cmds.find? (fun c => c.op == 0 && s.mayStart c) with
    | none => s
    | some c => State.nopSteps n (s.conclude c {})

def State.nopSweep (s : State) : State := State.nopSteps s.cmds.length s

/-- A command's final reply (R355, R356), and the NOPs that waited for it. -/
def State.finish (s : State) (c : Cmd) (r : Result) : State := (s.conclude c r).nopSweep

/-- The outstanding command of a source with a tag whose reply is not decided. -/
def State.cmdOf (s : State) (src : CmdSrc) (tag : Nat) : Option Cmd :=
  s.cmds.find? (fun c => c.src == src && c.tag == tag && !c.decided)

def State.modCmd (s : State) (c : Cmd) (f : Cmd → Cmd) : State :=
  { s with cmds := s.cmds.map (fun x => if x == c then f x else x) }

/-! ### Events (R369) -/

/-- An event on the completion ring of a host port; lost when the ring cannot take it. [log 71: DEDUCED] -/
def State.hostEvent (s : State) (h : Nat) (code d : Nat) (c2 c3 : Word) : State :=
  let x := s.host h
  let s1 := s.modHost h (fun x => { x with evseq := (x.evseq + 1) % 2 ^ 32 })
  let lose (s : State) : State := s.modHost h (fun x => { x with lost := satAdd 0xFFFFFFFF x.lost 1 })
  let ws : List Word :=
    [ place code 8 0 ||| place x.evqp 6 32 ||| flagAt true 38, place x.evseq 32 0 ||| place d 32 32, c2, c3 ]
  if (x.qp x.evqp).open then
    let r := s1.ringWrite h x.evqp ws
    if r.1 then r.2 else lose r.2
  else lose s1

/-- An event to the host of a partition; a host port that is not bound gets none. [log 71: DEDUCED] -/
def State.partEvent (s : State) (p : Nat) (code d : Nat) (c2 c3 : Word) : State :=
  if (s.part p).bound then s.hostEvent (s.part p).hostPort code d c2 c3 else s

/-- An event to the host of every partition. -/
def State.everyEvent (s : State) (code d : Nat) (c2 c3 : Word) : State :=
  partList.foldl (fun s p => s.partEvent p code d c2 c3) s

end Sys2Proof.Machine
end

