-- ==== Sys2Proof/Machine/ClockOps.lean ====
section
/-!
DEFINITION. Dividers, the rail and the cap (R417, R419, R421 to R423), as registers, configuration items and the
rows of spec 20 share them.
-/
namespace Sys2Proof.Machine
open Sys2Proof

def Clk.div (k : Clk) (c : Nat) : Div := mget {} k.divs c
def Clk.modDiv (k : Clk) (c : Nat) (f : Div → Div) : Clk := { k with divs := mput k.divs c (f (k.div c)) }

/-- The clusters that are not mapped out, in rising order. -/
def State.liveClusters (s : State) : List Nat := (List.range 48).filter (fun c => !(s.cluster c).absent)

/-- The divider code that the terms of a cluster ask for (R417); a larger code is slower. -/
def Div.target (d : Div) : Nat := max d.cfg (max d.cap d.therm)

/-- The fastest of some divider codes. -/
def fastest (ns : List Nat) : Nat := ns.foldl min 3

/-- A change of terms takes effect (R417, R419): a divider that the rail is set for at once, a faster one when the
rail has been raised. [log 109: DEDUCED] -/
def State.divApply (s : State) : State :=
  let live := s.liveClusters
  let k1 := live.foldl (fun (k : Clk) c =>
    let t := (k.div c).target
    if t < k.rail then { k with raising := true } else k.modDiv c (fun d => { d with eff := t })) s.clk
  { s with clk := { k1 with lowering := decide (k1.rail < fastest (live.map (fun c => (k1.div c).eff))) } }

/-- CAP of the live cluster at position i of M with level L (R421). -/
def capTerm (l m i : Nat) : Nat := l / m + (if i < l % m then 1 else 0)

/-- The cap terms of a level, which is clamped to 3M (R421). -/
def State.capApply (s : State) (l : Nat) : State :=
  let live := s.liveClusters
  let m := live.length
  let l' := min l (3 * m)
  let k1 := live.zipIdx.foldl (fun (k : Clk) e => k.modDiv e.1 (fun d => { d with cap := capTerm l' m e.2 })) s.clk
  ({ s with clk := { k1 with level := l' } } : State).divApply

/-- A diode or stack temperature in 1/16 °C as a signed number. -/
def tempOf (t : Nat) : Int := (BitVec.ofNat 16 t).toInt

/-- Whether a diode reads a whole temperature or more. -/
def atLeast (t : Nat) (deg : Nat) : Bool := decide ((16 * deg : Int) ≤ tempOf t)

def Clk.throttled (k : Clk) : Bool := k.divs.any (fun e => e.2.therm != 0)

/-- ALERT_N as R422 and R423 assert it. -/
def State.alertUpdate (s : State) : State :=
  let a := s.clk.level != 0 || s.clk.throttled || s.clk.temps.any (fun e => atLeast e.2 s.clk.alertT)
  { s with boot := { s.boot with alert := a && s.boot.st == .ready } }

/-- CFG of a cluster's divider set. -/
def State.setCfgDiv (s : State) (c v : Nat) : State :=
  ({ s with clk := s.clk.modDiv c (fun d => { d with cfg := v % 4 }) } : State).divApply

/-- A power cap in steps of 25 W (R420); a value outside its range changes nothing. -/
def capLegal (steps : Nat) : Bool := decide (36 ≤ steps ∧ steps ≤ 104)

/-- A write of PWR_CAP (R420). -/
def State.pwrCapWrite (s : State) (steps : Nat) : State :=
  if capLegal steps then { s with clk := { s.clk with steps := steps } }
  else { s with clk := { s.clk with cfg := cfgErr 0x1000 } }

/-- GTIME set to a value: a step (R322). [log 77: DEDUCED] -/
def GTime.step (g : GTime) (t : Word) : GTime := { g with t := t, frac := 0, set_ := true, steps := satAdd 0xFFFF g.steps 1 }

/-- The legal values of CLK_GTADJ.INC. -/
def incLegal (v : Nat) : Bool := decide (0x09FD70A3D7 ≤ v ∧ v ≤ 0x0A028F5C29)

/-- CLK_DIVc. -/
def Div.word (d : Div) : Word :=
  place d.cfg 2 0 ||| place d.cap 2 8 ||| place d.therm 2 16 ||| place d.eff 2 24 ||| place d.droop 32 32

/-- SNS_TEMPc. -/
def Clk.tempWord (k : Clk) (c : Nat) : Word :=
  place (mget 0 k.temps (4 * c)) 16 0 ||| place (mget 0 k.temps (4 * c + 1)) 16 16 ||| place (mget 0 k.temps (4 * c + 2)) 16 32
    ||| place (mget 0 k.temps (4 * c + 3)) 16 48

/-- PWR_RAILn. -/
def Clk.railWord (k : Clk) (n : Nat) : Word :=
  let r := mget (0, 0, 0) k.rails n
  place r.1 16 0 ||| place r.2.1 16 16 ||| place r.2.2 16 32

/-- PWR_MEAS. -/
def Clk.measWord (k : Clk) : Word := place k.p 16 0 ||| place k.peak 16 16

/-- The value of a register of the clocks and power block. -/
def State.clkRegRead (s : State) (off : Nat) : Word :=
  let k := s.clk
  if off = 0x0000 then
    k.cfg.word 16 ||| flagAt k.lock 20 ||| flagAt (k.level != 0) 21 ||| flagAt k.throttled 22 ||| flagAt s.boot.alert 23
      ||| place k.level 8 24
  else if 0x0100 ≤ off ∧ off < 0x0280 then (k.div ((off - 0x0100) / 8)).word
  else if off = 0x1000 then place k.steps 7 0
  else if off = 0x1008 then k.measWord
  else if 0x1100 ≤ off ∧ off < 0x1148 then k.railWord ((off - 0x1100) / 8)
  else if 0x2000 ≤ off ∧ off < 0x2180 then k.tempWord ((off - 0x2000) / 8)
  else if off = 0x8000 then s.gt.t
  else if off = 0x8008 then place s.gt.inc 40 0
  else if off = 0x8010 then flagAt s.gt.sync 0 ||| flagAt s.gt.skew 1 ||| place s.gt.steps 16 32
  else 0

/-- A write of a register of the clocks and power block. -/
def State.clkRegStore (s : State) (off : Nat) (v : Word) : State :=
  if off = 0x0000 then { s with clk := { s.clk with cfg := s.clk.cfg.w1c v } }
  else if 0x0100 ≤ off ∧ off < 0x0280 then s.setCfgDiv ((off - 0x0100) / 8) (field v 1 0)
  else if off = 0x1000 then s.pwrCapWrite (field v 6 0)
  else if off = 0x8000 then { s with gt := s.gt.step v }
  else if off = 0x8008 then
    if incLegal (field v 39 0) then { s with gt := { s.gt with inc := field v 39 0 } }
    else { s with clk := { s.clk with cfg := cfgErr 0x8008 } }
  else s

end Sys2Proof.Machine
end

