-- ==== Sys2Proof/Machine/ClusterRegs.lean ====
section
/-!
DEFINITION. The registers of a cluster's block (R15): L2, tun, cluster flags; what a read returns and what
an accepted store does.
-/
namespace Sys2Proof.Machine
open Sys2Proof

/-- L2_STATUS. -/
def L2.statusWord (l : L2) : Word :=
  l.cfg.word 20 ||| flagAt l.locked 24 ||| flagAt (l.work.any (fun w => w.1 == .fill)) 25
    ||| flagAt (l.work.any (fun w => w.1 != .fill)) 26 ||| place l.gated.toNat 16 32

/-! ### DMA registers (R243 to R263) -/

def Dma.chan (d : Dma) (n : Nat) : DmaChan := mget {} d.chans n
def Dma.modChan (d : Dma) (n : Nat) (f : DmaChan → DmaChan) : Dma := { d with chans := mput d.chans n (f (d.chan n)) }

/-- PACE descriptors started and not yet in place (R257). [log 61: DEDUCED] -/
def DmaChan.pend (x : DmaChan) : Nat := (x.descs.filter (fun r => r.started && r.desc.pace)).length

/-- Holding evaluated (R257). [log 61: DEDUCED] -/
def DmaChan.hold (x : DmaChan) : DmaChan :=
  let n := x.level + x.pend
  { x with held := x.en && (decide (x.hiwm ≤ n) || (x.held && decide (x.lowm < n))) }

/-- The oldest descriptor that has not started. -/
def DmaChan.nextDesc (x : DmaChan) : Option DmaRun := x.descs.find? (fun r => !r.started)

/-- DMA_CHnSTAT. -/
def DmaChan.statWord (x : DmaChan) : Word :=
  let state : Nat :=
    if x.stopped then 4
    else if x.lists.isEmpty && x.descs.isEmpty then 0
    else match x.nextDesc with
      | none => 1
      | some r =>
        if r.desc.pace && x.held then 3
        else if r.desc.waiten || (r.desc.fence && x.descs.any (fun r => r.started)) then 2
        else 1
  place state 3 0 ||| place x.lists.length 3 3 ||| place (((x.descs.head?).map (fun r => r.desc.id)).getD 0) 16 16

/-- The value of a DMA register. -/
def Dma.regRead (d : Dma) (off : Nat) : Word :=
  if off = 0x30000 then d.cfg.word 20 ||| flagAt d.flt 24 ||| flagAt d.punder 25 ||| flagAt d.pover 26
  else if off = 0x30008 then place d.tmoexp 4 0
  else if off = 0x30010 then
    place d.frec.faddr 48 0 ||| place d.frec.cause 4 48 ||| place d.frecCh 4 52 ||| flagAt d.frec.wr 56
      ||| flagAt d.frec.list 57
  else if off = 0x30018 then place d.frec.daddr 48 0 ||| place d.frec.descid 16 48
  else if off = 0x30020 then
    place d.frec.p 24 0 ||| place d.frec.i1 16 24 ||| place d.frec.i2 16 40 ||| place d.frec.i3 8 56
  else if off = 0x30028 then place d.frec.sub 8 0
  else if 0x30100 ≤ off ∧ off < 0x30500 then
    let x := d.chan ((off - 0x30100) / 0x40)
    match (off - 0x30100) % 0x40 with
    | 0x00 => x.statWord
    | 0x08 => place x.hiwm 16 0 ||| place x.lowm 16 16 ||| place x.level 16 32 ||| flagAt x.en 48 ||| flagAt x.held 49
    | 0x18 => place x.nmis 32 0 ||| flagAt x.mism 32
    | 0x20 => place x.cmpa 48 0
    | _ => 0
  else 0

/-- A write of N to DMA_CHnPOP (R257). -/
def Dma.pop (d : Dma) (n v : Nat) : Dma :=
  let d' := if (d.chan n).level < v then { d with punder := true } else d
  d'.modChan n (fun x => ({ x with level := x.level - v } : DmaChan).hold)

/-- A store to a DMA register. -/
def Dma.regStore (d : Dma) (off : Nat) (v : Word) : Dma :=
  if off = 0x30000 then
    { d with cfg := d.cfg.w1c v, flt := d.flt && !bit v 24, punder := d.punder && !bit v 25, pover := d.pover && !bit v 26 }
  else if off = 0x30008 then
    if 12 < field v 3 0 then { d with cfg := cfgErr off } else { d with tmoexp := field v 3 0 }
  else if 0x30100 ≤ off ∧ off < 0x30500 then
    let n := (off - 0x30100) / 0x40
    match (off - 0x30100) % 0x40 with
    | 0x08 =>
      let hi := field v 15 0
      let lo := field v 31 16
      if bit v 48 && (hi == 0 || decide (hi ≤ lo)) then { d with cfg := cfgErr off }
      else d.modChan n (fun x => ({ x with hiwm := hi, lowm := lo, en := bit v 48 } : DmaChan).hold)
    | 0x10 => d.pop n (field v 15 0)
    | 0x18 => if bit v 32 then d.modChan n (fun x => { x with mism := false, nmis := 0, cmpa := 0 }) else d
    | _ => d
  else d

/-! ### Registers of the other engines (R264 to R286) -/

def engNum : EngKind → Nat
  | .gather => 1
  | .select => 2
  | .sampler => 3
  | .fingerprint => 4

/-- The value of a register of engine e (1 to 4) at an offset of its range. -/
def Eng.regRead (x : Eng) (e off : Nat) : Word :=
  match off with
  | 0x00 => x.cfg.word 20 ||| flagAt x.flt 24 ||| flagAt x.mark 25 ||| place x.queue.length 5 32
  | 0x08 => place x.frec.faddr 48 0 ||| place x.frec.cause 4 48 ||| place x.frec.core 4 52 ||| flagAt x.frec.wr 56
  | 0x10 => place x.frec.daddr 48 0 ||| place x.frec.descid 16 48
  | 0x18 => place x.frec.item 40 0 ||| place x.frec.sub 8 40
  | 0x20 => if e = 4 then place x.nmis 32 0 ||| place x.fdesc 16 32 else 0
  | _ => 0

/-- A store to a register of engine e: clearing FPR_STATUS.MISM also zeroes FPR_CHK. -/
def Eng.regStore (x : Eng) (e off : Nat) (v : Word) : Eng :=
  if off = 0 then
    let x' := { x with cfg := x.cfg.w1c v, flt := x.flt && !bit v 24, mark := x.mark && !bit v 25 }
    if e = 4 && bit v 25 then { x' with nmis := 0, fdesc := 0 } else x'
  else x

/-- The value of the 64-bit register at an 8-aligned offset of a cluster's block; an offset that names no
register reads zero (R12). -/
def clusterRegRead (x : Cluster) (off : Nat) : Word :=
  if off = 0x00000 then x.l2.statusWord
  else if off = 0x00008 then flagAt x.l2.en 0 ||| place x.l2.idle 2 4
  else if off = 0x00010 then place x.l2.pd.toNat 16 0
  else if off = 0x00018 then place (x.l2.lockAddr / 2 ^ 17) 31 17 ||| place x.l2.nways 4 48
  else if off = 0x00020 then place x.l2.mb.length 7 0
  else if off = 0x00028 then place x.l2.parcnt 32 0
  else if off = 0x10000 then x.tun.cfg.word 20 ||| flagAt x.tun.ue 24 ||| flagAt x.tun.zbusy 25
  else if off = 0x10008 then place x.tun.cecnt 16 0 ||| place x.tun.uerow 12 16 ||| place x.tun.uebank 5 28
  else if off = 0x20000 then x.flgCfg.word 20
  else if 0x20008 ≤ off ∧ off < 0x20028 then
    (x.flags >>> (64 * ((off - 0x20008) / 8))).truncate 64
  else if 0x30000 ≤ off ∧ off < 0x40000 then x.dma.regRead off
  else if 0x40000 ≤ off ∧ off < 0x80000 then (x.eng (off / 0x10000 - 3)).regRead (off / 0x10000 - 3) (off % 0x10000)
  else 0

/-- How many rings, from ring 0 up, may store at an offset of the block (the Registers sections); an offset
that names no register ignores writes. -/
def clusterRegRings (off : Nat) : Nat :=
  if off ≤ 0x28 then 2
  else if off = 0x10000 ∨ off = 0x10008 ∨ off = 0x20000 then 2
  else if 0x30000 ≤ off ∧ off < 0x40000 then
    if off < 0x30010 then 2
    else if off < 0x30030 then 0
    else if 0x30100 ≤ off ∧ off < 0x30500 then
      match (off - 0x30100) % 0x40 with
      | 0x00 => 0
      | 0x08 => 2
      | 0x10 => 4
      | 0x18 => 2
      | 0x20 => 0
      | _ => 4
    else 4
  else if 0x40000 ≤ off ∧ off < 0x80000 then
    match off % 0x10000 with
    | 0x00 => 2
    | 0x08 | 0x10 | 0x18 => 0
    | 0x20 => if off = 0x70020 then 2 else 4
    | _ => 4
  else 4

/-- One of the four 64-flag words of the cluster flag unit replaced. -/
def setFlagWord (f : BitVec 256) (n : Nat) (v : Word) : BitVec 256 :=
  let m : BitVec 256 := (BitVec.allOnes 64).zeroExtend 256 <<< (64 * n)
  (f &&& ~~~m) ||| (v.zeroExtend 256 <<< (64 * n))

/-- Whether a range of device memory lies wholly in slices the cluster's partition owns (R219). -/
def State.ownsRange (s : State) (c base n : Nat) : Bool :=
  decide (base + n ≤ memEnd) && (match s.partOfCluster c with
    | none => false
    | some p => (List.range 12).all (fun i =>
        !(decide (i * sliceBytes < base + n) && decide (base < (i + 1) * sliceBytes)) || (s.part p).hasStack i))

/-- An accepted store of 64 bits at an 8-aligned offset of cluster c's block. -/
def clusterRegStore (maltster : Bool) (c off : Nat) (v : Word) (s : State) : State :=
  s.modCluster c (fun x =>
    if off = 0x00000 then { x with l2 := { x.l2 with cfg := x.l2.cfg.w1c v } }
    else if off = 0x00008 then { x with l2 := x.l2.ctlWrite v }
    else if off = 0x00010 then { x with l2 := x.l2.wayWrite v }
    else if off = 0x00018 then { x with l2 := x.l2.lockWrite (s.ownsRange c) v }
    else if off = 0x10000 then
      { x with tun := { x.tun with cfg := x.tun.cfg.w1c v, ue := x.tun.ue && !bit v 24 } }
    else if off = 0x20000 then { x with flgCfg := x.flgCfg.w1c v }
    else if 0x20008 ≤ off ∧ off < 0x20028 ∧ maltster then
      { x with flags := setFlagWord x.flags ((off - 0x20008) / 8) v }
    else if 0x30000 ≤ off ∧ off < 0x40000 then { x with dma := x.dma.regStore off v }
    else if 0x40000 ≤ off ∧ off < 0x80000 then
      let e := off / 0x10000 - 3
      x.setEng e ((x.eng e).regStore e (off % 0x10000) v)
    else x)

end Sys2Proof.Machine
end

