-- ==== Sys2Proof/Machine/Clt.lean ====
section
/-!
DEFINITION. Claruend Transport at the sender (R325 to R328, R337 to R340): packing, numbering, sending.
-/
namespace Sys2Proof.Machine
open Sys2Proof

def State.conn (s : State) (p ci : Nat) : Option Conn :=
  ((s.part p).conns.find? (fun e => e.1 == ci)).map (·.2)

def State.modConn (s : State) (p ci : Nat) (f : Conn → Conn) : State :=
  s.modPart p (fun q => { q with conns := q.conns.map (fun e => if e.1 == ci then (e.1, f e.2) else e) })

/-- The connection of a partition to a node (R324). -/
def State.connTo (s : State) (p node : Nat) : Option Nat :=
  ((s.part p).conns.find? (fun e => e.2.node == node)).map (·.1)

/-- P of R327. -/
def maxPayload (maxfrm : Nat) : Nat := (([4096, 2048, 1024, 512, 256] : List Nat).find? (fun p => decide (p + 114 ≤ maxfrm))).getD 256

/-- The paths of a connection that are up. -/
def State.upPaths (s : State) (c : Conn) : List Nat :=
  (c.paths.filter (fun e => e.2.joined && s.portUp e.2.port)).map (·.1)

/-- The next up path in rotation (R338). [log 73: DESIGN CHOICE] -/
def State.nextPath (s : State) (c : Conn) : Option Nat :=
  let ps := s.upPaths c
  match ps.find? (fun p => decide (c.rot ≤ p)) with
  | some p => some p
  | none => ps.head?

def Conn.path (c : Conn) (n : Nat) : PathSt := mget {} c.paths n

/-- The schedule ID of the launch in progress, or 0 (R328, R384). -/
def Part.launchId (q : Part) : Nat :=
  match q.launch, q.st with
  | some l, .running => l.sched
  | _, _ => 0

/-- NI of R329. -/
def CltOp.ni (o : CltOp) : Bool := o.type == 2 || o.type == 4 || (o.type == 3 && o.e1 != 0)

/-- H0 to H3, E0 and E1 (R328). [log 72: DEDUCED] -/
def cltWords (type : Nat) (ni rtx : Bool) (epoch sched snode dnode dconn path psn stream len opid inc : Nat)
    (e0 e1 : Word) : List Word :=
  [ place 1 4 0 ||| place type 4 4 ||| flagAt rtx 9 ||| flagAt ni 10 ||| place epoch 16 16 ||| place sched 32 32,
    place snode 20 0 ||| place dnode 20 20 ||| place dconn 10 40 ||| place path 4 50,
    place psn 32 0 ||| place stream 16 32 ||| place len 13 48,
    place opid 32 0 ||| place inc 16 32,
    e0, e1 ]

/-! ### Frames of a port (R317, R318, R344) -/

/-- The newest frames of a list that fit 256 KiB. -/
def replayKeep : List (Nat × TxFrame) → List (Nat × TxFrame)
  | [] => []
  | f :: fs => if 262144 < ((f :: fs).map (fun x => x.2.bytes)).sum then replayKeep fs else f :: fs

/-- A frame under link-level retry takes the link's next number and is kept for replay (R318). -/
def State.keepFrame (s : State) (n : Nat) (t : TxFrame) : State :=
  let g := s.group (n / 4)
  if g.llron.getLsbD (n % 4) && g.pfcLlr.getLsbD t.prio then
    s.modNetPort n (fun q => { q with replay := replayKeep (q.replay ++ [(q.txNum, t)]), txNum := (q.txNum + 1) % 2 ^ 32 })
  else s

/-- Whether the far end has paused a priority of a port that runs PFC on it (R317). -/
def State.txPaused (s : State) (n prio : Nat) : Bool :=
  (s.group (n / 4)).pfcEn.getLsbD prio && (s.netPort n).paused.getLsbD prio

/-- A frame started, or held while its priority is paused (R317). -/
def State.txPut (s : State) (n : Nat) (t : TxFrame) : State :=
  if s.txPaused n t.prio then s.modNetPort n (fun q => { q with waiting := q.waiting ++ [t] }) else s.send t.what

/-- A new frame of a port. -/
def State.tx (s : State) (n : Nat) (t : TxFrame) : State := (s.keepFrame n t).txPut n t

/-- Frames that wait for a pause that has ended are started, in order (R317). -/
def State.txRelease (s : State) (n : Nat) : State :=
  let w := (s.netPort n).waiting
  (w.filter (fun t => !s.txPaused n t.prio)).foldl (fun s t => s.send t.what)
    (s.modNetPort n (fun q => { q with waiting := w.filter (fun t => s.txPaused n t.prio) }))

/-! ### The headers before a packet (R328, R344) -/

/-- Bytes of the frame of a CLT packet from its destination address through its FCS (R327, R328). -/
def frameBytes (x : PathSt) (len : Nat) : Nat :=
  let v := x.config.getD 0 0
  14 + (if bit v 20 then 4 else 0) + (if bit v 6 then 40 else 20) + 8 + 48 + len + 4

/-- The bytes of an address of item PATH: 16 of IPv6, 4 of IPv4. [log 133: PRESUMED] -/
def ipBytes (v6 : Bool) (lo hi : Word) : List Byte :=
  if v6 then leBytes 8 lo.toNat ++ leBytes 8 hi.toNat else leBytes 4 lo.toNat

/-- Sum of 16-bit words, the first byte of each the high one. -/
def sum16 : List Byte → Nat
  | [] => 0
  | [b] => b.toNat * 256
  | a :: b :: bs => a.toNat * 256 + b.toNat + sum16 bs

def carry16 (n : Nat) : Nat := n % 65536 + n / 65536

/-- The UDP checksum over an IPv6 pseudo-header, the UDP header and its data (R328). [log 133: PRESUMED] -/
def udpChecksum (src dst : List Byte) (sport dport : Nat) (data : List Byte) : Nat :=
  let len := 8 + data.length
  let n := sum16 src + sum16 dst + len / 65536 + len % 65536 + 17 + sport + dport + len + sum16 data
  let c := 0xFFFF - carry16 (carry16 (carry16 n))
  if c = 0 then 0xFFFF else c

/-- The headers of a CLT packet on a path of a connection, marked with a priority (R328, R344). [log 133: PRESUMED] -/
def cltHdr (g : NetGroup) (x : PathSt) (ci path prio : Nat) (words : List Word) (payload : List Byte) : CltHdr :=
  let w (i : Nat) : Word := x.config.getD i 0
  let v6 := bit (w 0) 6
  let src := ipBytes v6 (w 2) (w 3)
  let dst := ipBytes v6 (w 4) (w 5)
  let sport := 0xC000 + 16 * ci + path
  { mac := place (field (w 1) 47 0) 48 0,
    tag := if bit (w 0) 20 then some (field (w 0) 19 8 + (if g.prisrc then 0 else prio * 8192)) else none,
    v6 := v6, src := src, dst := dst, dscp := if g.prisrc then prio * 8 else 0, sport := sport, dport := g.udpport,
    checksum := if v6 then udpChecksum src dst sport g.udpport ((words.flatMap (fun w => leBytes 8 w.toNat)) ++ payload)
      else 0 }

/-- A CLT packet on a path of a connection: a data packet with priority DPRI, a control packet with CPRI (R344). -/
def State.cltFrame (s : State) (c : Conn) (ci path : Nat) (control : Bool) (words : List Word) (payload : List Byte) : State :=
  let x := c.path path
  let g := s.group (x.port / 4)
  let prio := if control then g.cpri else g.dpri
  s.tx x.port { prio := prio, bytes := frameBytes x payload.length,
                what := .clt (x.port / 4) path (cltHdr g x ci path prio words payload) words payload }

/-! ### Sending -/

/-- A packet of a connection on a path, counted where it is sent again (R339). -/
def State.cltPacket (s : State) (p ci : Nat) (c : Conn) (path : Nat) (o : CltOp) (rtx : Bool) : State :=
  let g := (c.path path).port / 4
  let s1 := s.cltFrame c ci path false
    (cltWords o.type o.ni rtx (s.part p).epoch o.sched (s.group g).node c.node c.peerConn path o.psn o.stream
      o.payload.length o.opid c.inc o.e0 o.e1) o.payload
  if rtx then s1.modGroup g (fun g => { g with rtx := satAdd 0xFFFFFFFF g.rtx 1 }) else s1

/-- The path of an operation's next send: for its first, the one that its first byte chose, while it is up; else the
next up path in rotation (R327, R338). -/
def State.sendPath (s : State) (c : Conn) (o : CltOp) : Option Nat :=
  match (if o.sends = 0 then o.plan else none) with
  | some n => if (s.upPaths c).contains n then some n else s.nextPath c
  | none => s.nextPath c

/-- An unacknowledged operation sent on a path; `n` is how many sends of its timer it has then had. -/
def State.cltSendOn (s : State) (p ci : Nat) (c : Conn) (o : CltOp) (path n : Nat) (rtx : Bool) : State :=
  (s.cltPacket p ci c path o rtx).modConn p ci (fun c =>
    { c with rot := if o.sends = 0 && o.plan == some path then c.rot else path + 1,
             unacked := c.unacked.map (fun x => if x.psn == o.psn then { x with sends := n, path := path } else x) })

/-- One send of an unacknowledged operation; with no path up, or while the connection is not UP, its timer runs and
nothing is sent (R330, R338, R339). -/
def State.cltSend (s : State) (p ci psn : Nat) (rtx : Bool) : State :=
  match s.conn p ci with
  | none => s
  | some c =>
    match c.unacked.find? (fun o => o.psn == psn) with
    | none => s
    | some o =>
      match (if c.state == .up then s.sendPath c o else none) with
      | none => s.modConn p ci (fun c =>
          { c with unacked := c.unacked.map (fun x => if x.psn == psn then { x with sends := x.sends + 1 } else x) })
      | some path => s.cltSendOn p ci c o path (o.sends + 1) rtx

/-- Whether two writes of one stream overlap so that the later one must wait (R337). -/
def CltOp.blocks (a b : CltOp) : Bool :=
  a.stream == b.stream && decide (a.type ≤ 2 ∧ b.type ≤ 2) && !(a.type == 2 && b.type == 2)
    && decide (a.e0.toNat < b.e0.toNat + b.payload.length) && decide (b.e0.toNat < a.e0.toNat + a.payload.length)

/-- The unsent operations that may be sent, in order. -/
def sendable : List CltOp → List CltOp → List Nat
  | _, [] => []
  | before, o :: rest =>
    if o.sends = 0 && !before.any (fun b => b.blocks o) then o.psn :: sendable (before ++ [o]) rest
    else sendable (before ++ [o]) rest

/-- Unsent operations of an UP connection sent. [log 72: DEDUCED] -/
def State.cltPump (s : State) (p ci : Nat) : State :=
  match s.conn p ci with
  | none => s
  | some c =>
    if c.state == .up then (sendable [] c.unacked).foldl (fun s psn => s.cltSend p ci psn false) s else s

/-- An operation numbered and queued for sending (R338, R340). -/
def State.cltIssue (s : State) (p ci : Nat) (o : CltOp) : State :=
  (s.modConn p ci (fun c =>
    let o' := { o with psn := c.sendPsn, opid := if o.ni then c.nextOpid else 0 }
    { c with unacked := c.unacked ++ [o'], sendPsn := (c.sendPsn + 1) % 2 ^ 32,
             nextOpid := if o.ni then (c.nextOpid + 1) % 2 ^ 32 else c.nextOpid })).cltPump p ci

/-- An ACCUM payload made whole 16-byte elements; the bytes no write gave are free values (R327). [log 73: DESIGN CHOICE] -/
def State.padAccum (s : State) (o : CltOp) : CltOp × State :=
  let front := o.e0.toNat % 16
  let total := ceilDiv (front + o.payload.length) 16 * 16
  if o.type ≠ 2 || (front = 0 && total = o.payload.length) then (o, s)
  else
    let d := s.drawFree
    let e := d.2.drawFree
    ({ o with e0 := o.e0 - BitVec.ofNat 64 front,
              payload := (leBytes 16 d.1.toNat).take front ++ o.payload
                ++ (leBytes 16 e.1.toNat).take (total - front - o.payload.length) }, e.2)

/-- The packet that a stream is filling on a connection is sent (R327). [log 73: DESIGN CHOICE] -/
def State.cltFlush (s : State) (p ci stream : Nat) : State :=
  match s.conn p ci with
  | none => s
  | some c =>
    match c.filling.find? (fun o => o.stream == stream) with
    | none => s
    | some o =>
      let r := s.padAccum o
      (r.2.modConn p ci (fun c => { c with filling := c.filling.erase o })).cltIssue p ci r.1

/-- Every packet that a stream is filling is sent: a flag operation or a post of the stream follows it. -/
def State.cltFlushStream (s : State) (p stream : Nat) : State :=
  ((s.part p).conns.map (·.1)).foldl (fun s ci => s.cltFlush p ci stream) s

/-- Whether a connection can take another operation (R338). [log 72: DEDUCED] -/
def State.cltRoom (s : State) (p ci : Nat) : Bool :=
  match s.conn p ci with
  | none => false
  | some c => decide (c.unacked.length + c.filling.length < 1024)

/-- Bytes of a packet's payload before its first written byte: an ACCUM starts on a multiple of 16 (R327). -/
def CltOp.front (o : CltOp) : Nat := if o.type = 2 then o.e0.toNat % 16 else 0

/-- TYPE of the packets of a remote page (R326). -/
def rkType (rk : Nat) : Nat := if rk = 1 then 2 else 1

/-- Whether the packet being filled takes the next byte of a stream through a remote page (R327). -/
def CltOp.fits (o : CltOp) (rk stream pva page : Nat) : Bool :=
  o.stream == stream && o.type == rkType rk && o.page == page
    && o.e0.toNat + o.payload.length == pva && decide (o.front + o.payload.length < o.room)

/-- Whether a connection takes another byte of a stream: it extends a packet, or there is room for one (R338). -/
def State.cltAccepts (s : State) (p ci rk stream pva page : Nat) : Bool :=
  s.cltRoom p ci || (match s.conn p ci with
    | none => false
    | some c => c.filling.any (fun o => o.fits rk stream pva page))

/-- Bytes written by a stream through a remote page (R326, R327): they extend the packet being filled, or
end it and start another, whose path its first byte chooses and whose largest payload is that of the path's port.
`stamp` is the place of a core's store in its issue order. -/
def State.cltWriteByte (s : State) (p ci rk stream pva page stamp : Nat) (b : Byte) : State :=
  match s.conn p ci with
  | none => s
  | some c =>
    if c.filling.any (fun o => o.fits rk stream pva page) then
      s.modConn p ci (fun c =>
        { c with filling := c.filling.map (fun o =>
            if o.fits rk stream pva page then
              { o with payload := o.payload ++ [b], stamps := (o.stamps.filter (· != stamp)) ++ [stamp] }
            else o) })
    else
      let s1 := s.cltFlush p ci stream
      match s1.conn p ci with
      | none => s1
      | some c =>
        let plan := s1.nextPath c
        let g := (match plan with
          | some n => (c.path n).port
          | none => (c.paths.map (fun e => e.2.port)).headD 0) / 4
        let fresh : CltOp :=
          { type := rkType rk, stream := stream, e0 := BitVec.ofNat 64 pva, payload := [b], page := page, plan := plan,
            room := maxPayload (s1.group g).maxfrm, sched := (s1.part p).launchId, stamps := [stamp] }
        s1.modConn p ci (fun c =>
          { c with filling := c.filling ++ [fresh], rot := match plan with | some n => n + 1 | none => c.rot })

/-- Packets that have reached their largest payload are sent. -/
def State.cltFull (s : State) (p ci stream : Nat) : State :=
  match s.conn p ci with
  | none => s
  | some c =>
    if c.filling.any (fun o => o.stream == stream && decide (o.room ≤ o.front + o.payload.length)) then s.cltFlush p ci stream
    else s

/-- Consecutive bytes written through a remote page. -/
def State.cltWrite (s : State) (p ci rk stream pva page stamp : Nat) : List Byte → State
  | [] => s
  | b :: bs =>
    (((s.cltWriteByte p ci rk stream pva page stamp b).cltFull p ci stream).cltWrite p ci rk stream (pva + 1) page stamp bs)

/-- Whether a stream has a CLT write, issued before `stamp`, that is not in place (R223, R337), on any
connection but `except`. -/
def State.cltPending (s : State) (p stream stamp : Nat) (except : Option Nat) : Bool :=
  (s.part p).conns.any (fun e =>
    some e.1 != except && (e.2.filling ++ e.2.unacked).any (fun o =>
      o.stream == stream && decide (o.type ≤ 2) && o.stamps.any (fun x => decide (x < stamp))))

/-- A notice for a mailbox channel of a peer, behind the packets of its stream (R326, R327). -/
def State.cltPost (s : State) (p ci stream ch notice : Nat) (origin : Option Nat) : State :=
  let s1 := s.cltFlushStream p stream
  s1.cltIssue p ci { type := 4, stream := stream, e0 := place ch 8 0 ||| place notice 32 32,
                     sched := (s1.part p).launchId, origin := origin }

/-- R326: what a write through a remote page of kind MBOX must be: 4 bytes at offset 4 × ch. -/
def mboxFault (rk pva page n va : Nat) : Option AFault :=
  if rk = 2 && !(n == 4 && (pva - page) % 4 == 0 && decide ((pva - page) / 4 < 256)) then some (region va) else none

end Sys2Proof.Machine
end

