-- ==== Sys2Proof/Machine/Ports.lean ====
section
/-!
DEFINITION. Port modes and lanes (R313, R319): which lanes a port uses, taking a port down, and training it.
-/
namespace Sys2Proof.Machine
open Sys2Proof

/-- Lanes of one port in a mode (R313). -/
def modeWidth (mode : Nat) : Nat :=
  match mode with
  | 1 => 4
  | 2 => 2
  | 3 => 1
  | _ => 0

/-- Ports of a group in a mode. -/
def modePorts (mode : Nat) : Nat :=
  match mode with
  | 1 => 1
  | 2 => 2
  | 3 => 4
  | _ => 0

/-- The lanes of port i, within the group. -/
def portLanes (mode i : Nat) : List Nat := (List.range (modeWidth mode)).map (fun j => i * modeWidth mode + j)

/-- The sets of healthy lanes on which a port may run, in the order of preference of R319: it advertises the rate of
each (R314). -/
def laneChoices (mode : Nat) (failed : BitVec 4) (i : Nat) : List (List Nat) :=
  let all := portLanes mode i
  let ok (ls : List Nat) : Bool := ls.all (fun l => !failed.getLsbD l)
  let single := (all.filter (fun l => !failed.getLsbD l)).take 1
  let sets : List (List Nat) :=
    match modeWidth mode with
    | 4 => [all, all.take 2, all.drop 2]
    | 2 => [all]
    | _ => []
  sets.filter ok ++ (if single.isEmpty then [] else [single])

/-- The lanes a port uses where the far end takes them: all when healthy, or the widest set of the table of R319. -/
def lanesUsed (mode : Nat) (failed : BitVec 4) (i : Nat) : List Nat := (laneChoices mode failed i).headD []

/-- NET_LANE.WIDTH of a number of lanes. -/
def widthCode (n : Nat) : Nat :=
  match n with
  | 1 => 1
  | 2 => 2
  | 4 => 3
  | _ => 0

/-- The port of a lane of a group in a mode. -/
def portOfLane (mode l : Nat) : Nat := if modeWidth mode = 0 then 0 else l / modeWidth mode

def clear4 (b : BitVec 4) (ls : List Nat) : BitVec 4 := ls.foldl (fun b l => b &&& ~~~(BitVec.ofNat 4 (1 <<< l))) b
def set4 (b : BitVec 4) (ls : List Nat) : BitVec 4 := ls.foldl (fun b l => b ||| BitVec.ofNat 4 (1 <<< l)) b

/-- Packets that a connection sent last on a path whose port has gone down are sent again at once on its other up
paths; their timers run on (R343). -/
def State.cltMove (s : State) (p ci port : Nat) : State :=
  match s.conn p ci with
  | none => s
  | some c =>
    if c.state != .up then s
    else (c.unacked.filter (fun o => decide (0 < o.sends) && (c.path o.path).port == port)).foldl (fun s o =>
      match s.conn p ci with
      | none => s
      | some c => match s.nextPath c with
        | none => s
        | some path => s.cltSendOn p ci c o path o.sends true) s

/-- The paths of a partition's connections on a port leave their connections, which move its packets to their other
paths (R319, R341, R343). -/
def State.pathsDown (s : State) (p port : Nat) : State :=
  let s1 := s.modPart p (fun q => { q with conns := q.conns.map (fun e =>
    (e.1, { e.2 with paths := e.2.paths.map (fun x =>
      if x.2.port = port then (x.1, { x.2 with joined := false, helloSent := false }) else x) })) })
  (((s1.part p).conns.map (·.1)).foldl (fun s ci => s.cltMove p ci port) s1)

/-- Port i of group g goes down, without a report. -/
def State.portOff (s : State) (g i : Nat) : State :=
  let s1 := s.modGroup g (fun x =>
    let y := { x with up := clear4 x.up [i], llron := clear4 x.llron [i], lock := clear4 x.lock (portLanes x.mode i),
                      width := mput x.width i 0, training := clear4 x.training [i] }
    y.modPort i (fun q =>
      { q with buffer := [], xoffSent := 0, paused := 0, waiting := [], replay := [], txNum := 0, rxNum := 0, retrying := none }))
  match s.partOfPort g with
  | some p => s1.pathsDown p (4 * g + i)
  | none => s1

/-- A port that is up goes down and LINK_DOWN is reported (R319). -/
def State.portDown (s : State) (g i : Nat) : State :=
  if !(s.group g).up.getLsbD i then s.modGroup g (fun x => { x with training := clear4 x.training [i] })
  else
    let s1 := s.portOff g i
    match s.partOfPort g with
    | some p => s1.partEvent p 0x02 0 (place (4 * g + i) 6 0) 0
    | none => s1

/-- Port i of group g starts auto-negotiation and training on the lanes it may use; it advertises the rate of its mode
and the narrower ones (R314, R319). -/
def State.portTrain (s : State) (g i : Nat) : State :=
  let x := s.group g
  match lanesUsed x.mode x.failed i with
  | [] => s
  | l :: ls =>
    (s.modGroup g (fun x => { x with training := set4 x.training [i] })).send
      (.trainPort (4 * g + i) (4 * g + l) (ls.length + 1) (((laneChoices x.mode x.failed i).map List.length).eraseDups))

/-- A lane marked failed, or cleared: its port goes down (R319). -/
def State.laneMark (s : State) (lane : Nat) (failed : Bool) : State :=
  let g := lane / 4
  let s1 := s.modGroup g (fun x =>
    { x with failed := if failed then set4 x.failed [lane % 4] else clear4 x.failed [lane % 4] })
  if modeWidth (s.group g).mode = 0 then s1 else s1.portDown g (portOfLane (s.group g).mode (lane % 4))

/-- A lane's port that is down trains (R319). -/
def State.laneTrain (s : State) (lane : Nat) : State :=
  let g := lane / 4
  let i := portOfLane (s.group g).mode (lane % 4)
  if modeWidth (s.group g).mode = 0 || (s.group g).up.getLsbD i then s else s.portTrain g i

/-- Every port of a group taken down; the group takes a mode, and its ports train at its width (R313). -/
def State.groupMode (s : State) (g mode : Nat) : State :=
  let s1 := (List.range (modePorts (s.group g).mode)).foldl (fun s i => s.portDown g i) s
  (List.range (modePorts mode)).foldl (fun s i => s.portTrain g i) (s1.modGroup g (fun x => { x with mode := mode }))

/-- NET_CFG. A change of MODE takes every port of the group down and trains it at the new width; a group that no
partition owns is held at MODE 0b00 (R313). -/
def State.netCfgWrite (s : State) (g : Nat) (v : Word) : State :=
  let mf := field v 17 4
  let mode := if (s.partOfPort g).isSome then field v 1 0 else 0
  if mf < 0x05EE ∨ 0x2400 < mf then s.modGroup g (fun x => { x with cfg := cfgErr 0x08 })
  else
    let s1 := s.modGroup g (fun x => { x with prisrc := bit v 2, llr := bit v 3, maxfrm := mf })
    if mode = (s.group g).mode then s1 else s1.groupMode g mode

/-- NET_PFC. -/
def NetGroup.pfcWrite (x : NetGroup) (v : Word) : NetGroup :=
  if field v 23 16 = 0 ∨ field v 23 16 ≤ field v 31 24 then { x with cfg := cfgErr 0x18 }
  else { x with pfcEn := v.truncate 8, pfcLlr := (v >>> 8).truncate 8, xoff := field v 23 16, xon := field v 31 24 }

/-- NET_PFC written: frames of a priority that no longer runs PFC are started (R317). -/
def State.pfcCfgWrite (s : State) (g : Nat) (v : Word) : State :=
  ([0, 1, 2, 3] : List Nat).foldl (fun s i => s.txRelease (4 * g + i)) (s.modGroup g (fun x => x.pfcWrite v))

/-- CLT_CFG. -/
def NetGroup.cltCfgWrite (x : NetGroup) (v : Word) : NetGroup :=
  if field v 15 0 = 0 ∨ field v 18 16 = field v 21 19 then { x with cltCfg := cfgErr 0x28 }
  else { x with udpport := field v 15 0, dpri := field v 18 16, cpri := field v 21 19 }

end Sys2Proof.Machine
end

