-- ==== Sys2Proof/Machine/HostRegs.lean ====
section
/-!
DEFINITION. The registers of a host port's HOST_ instance (spec 17): what a read returns and what a write does,
whether it comes through BAR0 or from the maltster.
-/
namespace Sys2Proof.Machine
open Sys2Proof

/-- The upper port of a pair presents no function (R346). -/
def State.upperPort (s : State) (h : Nat) : Bool := (h == 1 && s.boot.pair01) || (h == 3 && s.boot.pair23)

def State.pairedPort (s : State) (h : Nat) : Bool := if h < 2 then s.boot.pair01 else s.boot.pair23

/-- HOST_QPqSTAT. -/
def Qp.statWord (q : Qp) : Word :=
  place q.sqHead 12 0 ||| place q.cqTail 12 12 ||| flagAt q.err 24 ||| flagAt q.phase 25 ||| flagAt (!q.held.isEmpty) 26
    ||| place q.dup 16 32

/-- HOST_STATUS. -/
def State.hostStatusWord (s : State) (h : Nat) : Word :=
  let x := s.host h
  let b := s.partOfHost h
  x.cfg.word 20 ||| flagAt b.isSome 24 ||| place (b.getD 0) 2 25 ||| flagAt (s.pairedPort h) 27 ||| flagAt x.werr 28
    ||| flagAt x.mberr 29

/-- Whether a port is the bound receiver of a channel. -/
def State.mbReceives (s : State) (ch id : Nat) : Bool := (s.mbx.chan ch).v && (s.mbx.chan ch).rcv == id

/-- The value that a read of the register at an 8-aligned offset returns. [log 79: DEDUCED] -/
def State.hostRegRead (s : State) (h off : Nat) : Word :=
  let x := s.host h
  if s.upperPort h then 0
  else if off = 0x00 then s.hostStatusWord h
  else if off = 0x08 then place x.evqp 6 0 ||| place x.winb 8 8
  else if off = 0x10 then place x.lost 32 0
  else if off = 0x18 then place x.woff 40 0 ||| place x.wreason 4 40
  else if off = 0x20 then place x.mbch 8 0 ||| place x.mbstatus 8 8 ||| flagAt x.mbv 16
  else if 0x1000 ≤ off ∧ off < 0x2000 then
    let q := x.qp ((off - 0x1000) / 0x40)
    match (off - 0x1000) % 0x40 with
    | 0x00 => place q.sqLogn 4 0 ||| flagAt q.en 4 ||| place q.sqBase 52 12
    | 0x08 => place q.cqLogn 4 0 ||| flagAt q.ien 4 ||| place q.vec 6 5 ||| place q.cqBase 52 12
    | 0x10 => place q.sqt 12 0
    | 0x18 => place q.cqh 12 0
    | 0x20 => q.statWord
    | _ => 0
  else if 0x2000 ≤ off ∧ off < 0x3000 then
    let ch := (off - 0x2000) / 16
    if off % 16 = 0 then (if s.mbReceives ch (hostId h) then (s.mbx.chan ch).word else 0)
    else flagAt (mget false x.mbf ch) 0
  else 0

/-! ### Queue pairs (R349 to R351) -/

def lognLegal (n : Nat) : Bool := decide (4 ≤ n ∧ n ≤ 12)

/-- Whether a command of a pair is outstanding; in the error state one whose reply is decided does not count, since
its reply is held until the pair is disabled. [log 78: DEDUCED] -/
def State.qpBusy (s : State) (h q : Nat) : Bool :=
  s.cmds.any (fun c =>
    (match c.src with | .qp h' q' => h'.val == h && q'.val == q | .mgmt => false)
      && !(((s.host h).qp q).err && c.decided))

/-- The replies of a pair that were held are dropped: their commands end. -/
def State.qpDiscard (s : State) (h q : Nat) : State :=
  let s1 : State := { s with cmds := s.cmds.filter (fun c =>
    !(c.decided && (match c.src with | .qp h' q' => h'.val == h && q'.val == q | .mgmt => false))) }
  (s1.modQp h q (fun x => { x with held := [] })).nopSweep

/-- A refused write of a HOST_ register. -/
def State.hostCfgErr (s : State) (h off : Nat) : State := s.modHost h (fun x => { x with cfg := cfgErr off })

/-- A write of HOST_QPqSQ (R349, R351). Writing EN = 1 zeroes the indices of both rings, also of a pair that is enabled;
the error state ends only by clearing EN and enabling again. [log 78: DEDUCED] -/
def State.qpSqWrite (s : State) (hp : HostPort) (qn : Fin 64) (v : Word) : State :=
  let h := hp.val
  let q := qn.val
  let off := 0x1000 + 0x40 * q
  let x := (s.host h).qp q
  let logn := field v 3 0
  let base := field v 63 12
  let en := bit v 4
  if !lognLegal logn || (x.en && (logn != x.sqLogn || base != x.sqBase)) || (x.en && !en && s.qpBusy h q)
      || (en && !lognLegal x.cqLogn) then s.hostCfgErr h off
  else
    let s1 := s.modQp h q (fun x => { x with sqLogn := logn, sqBase := base, en := en })
    if en then
      let s2 := s1.modQp h q (fun y =>
        { y with sqt := 0, cqh := 0, sqHead := 0, cqTail := 0, used := 0, phase := true, err := x.en && y.err })
      (State.releaseHeld hp qn x.held.length s2).nopSweep
    else if x.en && !en then s1.qpDiscard h q
    else s1

/-- A write of HOST_QPqCQ. [log 78: DEDUCED] -/
def State.qpCqWrite (s : State) (h q : Nat) (v : Word) : State :=
  let x := (s.host h).qp q
  let logn := field v 3 0
  let base := field v 63 12
  if !lognLegal logn || (x.en && (logn != x.cqLogn || base != x.cqBase)) then s.hostCfgErr h (0x1008 + 0x40 * q)
  else s.modQp h q (fun x => { x with cqLogn := logn, cqBase := base, ien := bit v 4, vec := field v 10 5 })

/-- A write of HOST_QPqSQT (R350, R351). [log 78: DEDUCED] -/
def State.qpSqtWrite (s : State) (h q idx : Nat) : State :=
  let x := (s.host h).qp q
  if x.en && decide (x.sqSize ≤ idx) then s.qpError h q else s.modQp h q (fun x => { x with sqt := idx })

/-- A write of HOST_QPqCQH (R350, R351): the entries up to the new head are free, and held replies follow. [log 70: DEDUCED] -/
def State.qpCqhWrite (s : State) (h : HostPort) (q : Fin 64) (idx : Nat) : State :=
  let x := (s.host h.val).qp q.val
  if x.en && decide (x.cqSize ≤ idx) then s.qpError h.val q.val
  else if !x.en then s.modQp h.val q.val (fun x => { x with cqh := idx })
  else
    let d := (idx + x.cqSize - x.cqh) % x.cqSize
    let freed := if d = 0 ∧ x.used = x.cqSize then x.cqSize else d
    let s1 := s.modQp h.val q.val (fun x => { x with cqh := idx, used := x.used - freed })
    (State.releaseHeld h q x.held.length s1).nopSweep

/-! ### Mailboxes (R370) -/

/-- The outcome of a post in HOST_MBRES. -/
def mbStatus (r : Option MbRefusal) : Nat :=
  match r with
  | none => 0
  | some .devblock => 0x15
  | some .partition => 0x15
  | some .off => 0x20
  | some .full => 0x14

/-- A post of a port performed, its outcome in HOST_MBRES. -/
def State.hostPost (s : State) (h ch notice : Nat) : State :=
  let r := s.mbPost ch (hostId h) notice
  let s1 := match r with | .ok s' => s' | .error _ => s
  let e : Option MbRefusal := match r with | .ok _ => none | .error e => some e
  s1.modHost h (fun x => { x with mbch := ch, mbstatus := mbStatus e, mbv := true })

/-- A write of HOST_MBPOSTch: the post waits behind the port's earlier requests. -/
def State.hostMbPost (s : State) (h ch notice : Nat) : State :=
  s.modHost h (fun x => { x with hold := x.hold ++ [.post ch notice] })

/-- A read of HOST_MBPOLLch: it removes the oldest notice of the channel, and sets HOST_MBFch; a channel not bound to
the port sets MBERR (R370). -/
def State.hostPolled (s : State) (h ch : Nat) : State :=
  if !s.mbReceives ch (hostId h) then s.modHost h (fun x => { x with mberr := true, mbf := mput x.mbf ch false })
  else
    let r := s.mbTake ch
    r.2.2.modHost h (fun x => { x with mbf := mput x.mbf ch r.2.1 })

/-- A write of the register at an 8-aligned offset. -/
def State.hostRegStore (s : State) (h : HostPort) (off : Nat) (v : Word) : State :=
  if s.upperPort h.val then s
  else if off = 0x00 then
    s.modHost h.val (fun x => { x with cfg := x.cfg.w1c v, werr := x.werr && !bit v 28, mberr := x.mberr && !bit v 29 })
  else if off = 0x08 then s.modHost h.val (fun x => { x with evqp := field v 5 0, winb := field v 15 8 })
  else if 0x1000 ≤ off ∧ off < 0x2000 then
    let q : Fin 64 := Fin.ofNat 64 ((off - 0x1000) / 0x40)
    match (off - 0x1000) % 0x40 with
    | 0x00 => s.qpSqWrite h q v
    | 0x08 => s.qpCqWrite h.val q.val v
    | 0x10 => s.qpSqtWrite h.val q.val (field v 11 0)
    | 0x18 => s.qpCqhWrite h q (field v 11 0)
    | _ => s
  else if 0x3000 ≤ off ∧ off < 0x3800 then s.hostMbPost h.val ((off - 0x3000) / 8) (field v 31 0)
  else s

/-! ### Rows -/

/-- Whether a host port's function is there to be reached (R346, R440). -/
def State.hostLive (s : State) (h : Nat) : Bool :=
  s.boot.st == .ready && (s.host h).link == .up && !s.upperPort h

/-- SQ_DOORBELL (R350, R351). -/
def execSqDoorbell (h : HostPort) (q : Fin 64) (idx : BitVec 12) (s : State) : Out :=
  if s.hostLive h.val then .next (s.qpSqtWrite h.val q.val idx.toNat) else .next s

/-- CQ_HEAD_WRITE (R350, R351). -/
def execCqHeadWrite (h : HostPort) (q : Fin 64) (idx : BitVec 12) (s : State) : Out :=
  if s.hostLive h.val then .next (s.qpCqhWrite h q idx.toNat) else .next s

/-- QP_ENABLE (R349): a write of HOST_QPqSQ. -/
def execQpEnable (h : HostPort) (q : Fin 64) (v : Word) (s : State) : Out :=
  if s.hostLive h.val then .next (s.qpSqWrite h q v) else .next s

/-- HOST_MBPOLL (R241, R370). -/
def execHostMbpoll (h : HostPort) (ch : BitVec 8) (s : State) : Out :=
  if !s.hostLive h.val then .next s
  else .next ((s.hostPolled h.val ch.toNat).send
    (.hostRead h.val (.data (leBytes 8 (s.hostRegRead h.val (0x2000 + 16 * ch.toNat)).toNat))))

end Sys2Proof.Machine
end

