-- ==== Sys2Proof/Machine/Reset.lean ====
section
/-!
DEFINITION. What the resets clear and keep (R431, R442, R443), and the boot that follows them (R434, R439, R440).
-/
namespace Sys2Proof.Machine
open Sys2Proof

/-- A boot that stops (R439): FAULT_N is driven low, and READY stays low. -/
def State.bootFail (s : State) (code : Nat) : State :=
  { s with boot := { s.boot with st := .stopped, fail := code, fault := true, ready := false } }

/-- What follows once the straps are known and the root PLL has locked (R434). -/
def State.bootLocked (s : State) : State :=
  match s.boot.bootsel with
  | 0 => { s with boot := { s.boot with st := .locked } }
  | 1 => { s with boot := { s.boot with st := .recovery } }
  | 2 => { s with boot := { s.boot with st := .test } }
  | _ => s.bootFail 7

/-- A host port starts link training (R440). -/
def State.trainHost (s : State) (h : Nat) : State :=
  if (s.host h).perst || s.upperPort h then s
  else (s.modHost h (fun x => { x with link := .training })).send (.trainLink h)

/-- Every host port whose PERST_N is high starts link training. -/
def State.trainHosts (s : State) : State := ([0, 1, 2, 3] : List Nat).foldl (fun s h => s.trainHost h) s

/-- Cold reset (R431, R442): everything but fuses, flash and the levels of the reset pins. -/
def State.coldState (s : State) : State :=
  let hosts : List (Nat × HostS) := s.hosts.map (fun e => (e.1, ({ perst := e.2.perst } : HostS)))
  { State.reset with
    pending := s.pending, free := s.free, sent := s.sent, hosts := hosts,
    boot := { svnf := s.boot.svnf, dir0 := s.boot.dir0, dir1 := s.boot.dir1 } }

/-- Warm reset (R442): what it keeps is the binding table and its lock, map-outs, the kiln history, the error log, the
power cap, the straps and the locked PLL; memories keep their bytes until they are zeroed. [log 113: DEDUCED] -/
def State.warmState (s : State) (cause : Nat) : State :=
  let clusters : List (Nat × Cluster) := s.clusters.map (fun e => (e.1, ({ absent := e.2.absent } : Cluster)))
  let hbms : List (Nat × Hbm) := s.hbms.map (fun e => (e.1, ({ mapout := e.2.mapout } : Hbm)))
  let chans : List (Nat × MbChan) := s.mbx.chans.map (fun e =>
    (e.1, ({ snd := e.2.snd, rcv := e.2.rcv, v := e.2.v, ie := e.2.ie } : MbChan)))
  let groups : List (Nat × NetGroup) := s.groups.map (fun e => (e.1, ({ failed := e.2.failed } : NetGroup)))
  let hosts : List (Nat × HostS) := s.hosts.map (fun e => (e.1, ({ perst := e.2.perst } : HostS)))
  let log : ErrLog := { s.log with cfg := {}, handling := [] }
  { State.reset with
    pending := s.pending, free := s.free, sent := s.sent, mem := s.mem, poison := s.poison, ao := s.ao,
    clusters := clusters, hbms := hbms, mbx := { locked := s.mbx.locked, chans := chans }, groups := groups,
    hosts := hosts, log := log, clk := { lock := s.clk.lock, steps := s.clk.steps },
    boot := { pwrgood := s.boot.pwrgood, rcause := cause, bootsel := s.boot.bootsel, smbaddr := s.boot.smbaddr,
              svnf := s.boot.svnf, dir0 := s.boot.dir0, dir1 := s.boot.dir1, st := .straps } }

/-- Whether a warm reset is running. -/
def Boot.warmRunning (b : Boot) : Bool :=
  b.rcause != 0 && (b.st == .straps || b.st == .locked || b.st == .verified || b.st == .zeroed)

/-- A warm reset is requested (R442, R443): nothing while the device is in cold reset or THERMTRIP_N is asserted; a
request during a warm reset merges into it. [log 113: DEDUCED] -/
def State.warmReset (s : State) (cause : Nat) : State :=
  if s.boot.st == .cold || s.boot.trip || s.boot.warmRunning then s
  else
    let s1 := s.warmState cause
    (if s1.clk.lock then s1.bootLocked else s1).trainHosts

/-- A cold reset ends (R431, R434): the straps are sampled and the boot begins. -/
def State.coldEnd (s : State) (bootsel : BitVec 2) (smb : BitVec 3) : State :=
  let s1 : State := { s with boot := { s.boot with st := .straps, held := false, bootsel := bootsel.toNat,
                                                    smbaddr := smb.toNat } }
  (if bootsel = 3 then s1.bootFail 7 else s1).trainHosts

/-- BOOT_STATUS. -/
def Boot.statusWord (b : Boot) : Word :=
  b.cfg.word 20 ||| place b.rcause 3 24 ||| place b.slot 1 27 ||| flagAt b.fallbk 28 ||| place b.fail 4 29
    ||| place b.bootsel 2 33 ||| place b.smbaddr 3 35 ||| place b.svnf 7 38

end Sys2Proof.Machine
end

