-- ==== Sys2Proof/Machine/DevRegs.lean ====
section
/-!
DEFINITION. The registers of the device blocks (R16), which only the maltster reaches directly (R17): what
a read returns and what a store does.
-/
namespace Sys2Proof.Machine
open Sys2Proof

/-! ### Partitions (spec 18) -/

/-- PART_nRUN. -/
def Part.runWord (q : Part) : Word :=
  place q.epoch 16 0 ||| place q.st.code 3 16 ||| place q.suspended.length 2 19 ||| flagAt q.preq 21
    ||| place q.absentCode 8 24

/-- The value of a register of the maltster block. -/
def State.maltRegRead (s : State) (off : Nat) : Word :=
  if off = 0x00000 then s.boot.statusWord
  else if off = 0x10000 then
    s.boot.partCfg.word 20 ||| partList.foldl (fun w p => w ||| flagAt (s.part p).valid (24 + p)) 0
  else if 0x10100 ≤ off ∧ off < 0x10180 then
    let q := s.part ((off - 0x10100) / 0x20)
    match (off - 0x10100) % 0x20 with
    | 0x00 => place q.defn 46 0 ||| flagAt q.valid 63
    | 0x08 => q.runWord
    | 0x10 => place q.ymiss 32 0 ||| place q.switches 32 32
    | 0x18 => place q.absent.toNat 48 0
    | _ => 0
  else 0

/-- A store to a register of the maltster block. -/
def State.maltRegStore (s : State) (off : Nat) (v : Word) : State :=
  if off = 0x00000 then { s with boot := { s.boot with cfg := s.boot.cfg.w1c v } }
  else if off = 0x00008 then (if bit v 0 then s.warmReset 2 else s)
  else if off = 0x10000 then { s with boot := { s.boot with partCfg := s.boot.partCfg.w1c v } }
  else s

/-! ### Mailbox unit (R238) -/

/-- MBX_BINDn. -/
def MbChan.bindWord (c : MbChan) : Word := place c.snd 12 0 ||| place c.rcv 12 12 ||| flagAt c.v 24 ||| flagAt c.ie 25

/-- A reserved binding (R238). -/
def bindReserved (v : Word) : Bool :=
  !idAssigned (field v 11 0) || !idAssigned (field v 23 12) || (bit v 24 && field v 11 0 == field v 23 12)
    || (!bit v 24 && (field v 23 0 != 0 || bit v 25))

def Mbx.regRead (m : Mbx) (off : Nat) : Word :=
  if off = 0x0000 then m.cfg.word 20 ||| flagAt m.locked 24
  else if off = 0x0008 then flagAt m.locked 0
  else if 0x1000 ≤ off ∧ off < 0x1800 then (m.chan ((off - 0x1000) / 8)).bindWord
  else if 0x2000 ≤ off ∧ off < 0x2800 then
    let c := m.chan ((off - 0x2000) / 8)
    place c.notices.length 3 0 ||| place c.seq 16 3
  else 0

def Mbx.regStore (m : Mbx) (off : Nat) (v : Word) : Mbx :=
  if off = 0x0000 then { m with cfg := m.cfg.w1c v }
  else if off = 0x0008 then { m with locked := m.locked || bit v 0 }
  else if 0x1000 ≤ off ∧ off < 0x1800 then
    if m.locked || bindReserved v then { m with cfg := cfgErr off }
    else m.modChan ((off - 0x1000) / 8) (fun c =>
      { c with snd := field v 11 0, rcv := field v 23 12, v := bit v 24, ie := bit v 25 })
  else m

/-! ### Cask managers -/

/-- Every cask that a sequence holds. -/
def Cask.held (c : Cask) : List Nat := c.seqs.flatMap (fun x => x.index ++ x.casks)

def Cask.free (c : Cask) : Nat := c.ncask - c.held.length

def Cask.regRead (c : Cask) (off : Nat) : Word :=
  match off with
  | 0x00 => c.cfg.word 20 ||| flagAt c.busy 24 ||| flagAt c.slow 25
  | 0x08 => place (c.base / 2 ^ 16) 32 16
  | 0x10 => place c.ncask 23 0
  | 0x18 => place (c.seqtab / 2 ^ 18) 30 18
  | 0x20 => place c.tpgM1 12 0 ||| place c.cpgM1 8 12
  | 0x28 =>
    place c.free 23 0 ||| place (c.seqs.filter (fun x => x.st == .running)).length 13 23
      ||| place (c.seqs.filter (fun x => x.st == .stalled)).length 13 36 ||| place c.joins.length 9 49
  | _ => 0

def Cask.regStore (c : Cask) (off : Nat) (v : Word) : Cask :=
  match off with
  | 0x00 => { c with cfg := c.cfg.w1c v }
  | 0x08 => { c with base := field v 47 16 * 2 ^ 16 }
  | 0x10 => if 4194304 < field v 22 0 then { c with cfg := cfgErr off } else { c with ncask := field v 22 0 }
  | 0x18 => { c with seqtab := field v 47 18 * 2 ^ 18 }
  | 0x20 => { c with tpgM1 := field v 11 0, cpgM1 := field v 19 12 }
  | _ => c

/-! ### HBM controllers -/

def Hbm.regRead (h : Hbm) (off : Nat) : Word :=
  if off = 0x00 then h.cfg.word 20 ||| flagAt h.ue 24 ||| flagAt h.migr 25 ||| flagAt h.zbusy 26
  else if off = 0x08 then h.mapout
  else if off = 0x10 then place h.period 2 0 ||| place h.sweeps 32 16
  else if off = 0x18 then place h.cecnt 32 0 ||| place h.odcnt 32 32
  else if off = 0x20 then place h.ueOff 30 0 ||| place h.uePc 6 30 ||| flagAt h.ueScrub 36
  else if 0x100 ≤ off ∧ off < 0x300 then
    let e := mget (0, 0) h.pcce ((off - 0x100) / 8)
    place e.1 32 0 ||| place e.2 12 32
  else 0

/-- HBM_STATUS.UE has access code W1C, which R5 gives its meaning; its chapter also says that only reset clears it.
[log 114: DEDUCED] -/
def Hbm.regStore (h : Hbm) (off : Nat) (v : Word) : Hbm :=
  if off = 0x00 then { h with cfg := h.cfg.w1c v, ue := h.ue && !bit v 24 }
  else if off = 0x10 then
    if field v 1 0 = 3 then { h with cfg := cfgErr 0x10 } else { h with period := field v 1 0 }
  else h

/-! ### Network -/

/-- CLT_STATUS.QUAR: a path on the group belongs to a connection in QUARANTINE. -/
def State.quarantined (s : State) (g : Nat) : Bool :=
  match s.partOfPort g with
  | none => false
  | some p => (s.part p).conns.any (fun e => e.2.state == .quarantine && e.2.paths.any (fun x => x.2.port / 4 == g))

/-- NET_LANE. -/
def NetGroup.laneWord (x : NetGroup) : Word :=
  place x.failed.toNat 4 0 ||| place x.lock.toNat 4 4
    ||| (List.range 4).foldl (fun w i => w ||| place (mget 0 x.width i) 2 (8 + 2 * i)) 0

def State.netRegRead (s : State) (g off : Nat) : Word :=
  let x := s.group g
  match off with
  | 0x00 => x.cfg.word 20 ||| place x.up.toNat 4 24 ||| place x.llron.toNat 4 28
  | 0x08 => place x.mode 2 0 ||| flagAt x.prisrc 2 ||| flagAt x.llr 3 ||| place x.maxfrm 14 4
  | 0x10 => x.laneWord
  | 0x18 => place x.pfcEn.toNat 8 0 ||| place x.pfcLlr.toNat 8 8 ||| place x.xoff 8 16 ||| place x.xon 8 24
  | 0x20 => x.cltCfg.word 20 ||| flagAt (s.quarantined g) 24
  | 0x28 => place x.udpport 16 0 ||| place x.dpri 3 16 ||| place x.cpri 3 19 ||| place x.node 20 22
  | 0x30 => place x.rtx 32 0 ||| place x.dup 32 32
  | 0x38 => place x.emsent 32 0 ||| place x.emrcvd 32 32
  | 0x40 => place x.giveup 16 0 ||| place x.reset 16 16 ||| place x.fnak 16 32 ||| place x.badhdr 16 48
  | _ => 0

def State.netRegStore (s : State) (g off : Nat) (v : Word) : State :=
  match off with
  | 0x00 => s.modGroup g (fun x => { x with cfg := x.cfg.w1c v })
  | 0x08 => s.netCfgWrite g v
  | 0x18 => s.pfcCfgWrite g v
  | 0x20 => s.modGroup g (fun x => { x with cltCfg := x.cltCfg.w1c v })
  | 0x28 => s.modGroup g (fun x => x.cltCfgWrite v)
  | _ => s

/-! ### Error log (R400) -/

/-- KBUSY and HBUSY of ERR_STATUS. -/
def State.kilnBusy (s : State) (p : Nat) : Bool :=
  match (s.part p).handling with
  | [] => false
  | h :: _ => h.action == 0

def State.errBusy (s : State) (p : Nat) : Bool := !(s.part p).handling.isEmpty || !(s.part p).acted.isEmpty

def State.errRegRead (s : State) (off : Nat) : Word :=
  let l := s.log
  if off = 0x00 then
    l.cfg.word 20 ||| flagAt l.fatal 24
      ||| partList.foldl (fun w p => w ||| flagAt (s.kilnBusy p) (25 + p) ||| flagAt (s.errBusy p) (29 + p)) 0
  else if off = 0x08 then place l.next 32 0 ||| place (l.next - 4096) 32 32
  else if off = 0x10 then place l.corr 16 0 ||| place l.recov 16 16 ||| place l.degr 16 32 ||| place l.fatalc 16 48
  else if 0x40000 ≤ off ∧ off < 0x80000 then
    match l.records.find? (fun e => e.1 % 4096 == (off - 0x40000) / 64) with
    | some e => e.2.getD ((off - 0x40000) % 64 / 8) 0
    | none => 0
  else 0

def State.errRegStore (s : State) (off : Nat) (v : Word) : State :=
  if off = 0x00 then { s with log := { s.log with cfg := s.log.cfg.w1c v } } else s

/-! ### All blocks -/

/-- The value of the 64-bit register at an 8-aligned offset of an instance of a device block. -/
def devRegRead (s : State) (blk inst off : Nat) : Word :=
  match blk with
  | 0 => s.maltRegRead off
  | 1 => s.mbx.regRead off
  | 2 => (s.part inst).cask.regRead off
  | 3 => (s.hbm inst).regRead off
  | 4 => s.netRegRead inst off
  | 5 => s.hostRegRead inst off
  | 6 => s.clkRegRead off
  | 7 => s.errRegRead off
  | _ => 0

/-- A store of 64 bits by the maltster. -/
def devRegStore (s : State) (blk inst off : Nat) (v : Word) : State :=
  match blk with
  | 0 => s.maltRegStore off v
  | 1 => { s with mbx := s.mbx.regStore off v }
  | 2 => s.modPart inst (fun q => { q with cask := q.cask.regStore off v })
  | 3 => s.modHbm inst (fun h => h.regStore off v)
  | 4 => s.netRegStore inst off v
  | 5 => s.hostRegStore (Fin.ofNat 4 inst) off v
  | 6 => s.clkRegStore off v
  | 7 => s.errRegStore off v
  | _ => s

end Sys2Proof.Machine
end

