-- ==== Sys2Proof/Machine/HostPort.lean ====
section
/-!
DEFINITION. What a host port asks of its partition (R347, R370): BAR2 reads and writes, and posts behind them, in the
order in which they came; and reads of registers by the masters that share them.
-/
namespace Sys2Proof.Machine
open Sys2Proof

/-- The 64-bit register that holds a physical byte of a register block. -/
def State.regAt (s : State) (x : Place) : Word :=
  match x with
  | .coreReg k off => coreRegRead (s.core k) (off / 8 * 8)
  | .clReg c off => clusterRegRead (s.cluster c) (off / 8 * 8)
  | .devReg b i off => devRegRead s b i (off / 8 * 8)
  | _ => 0

/-- One byte as any master reads it, without caches: memory, or a byte of a register. -/
def State.readByte (s : State) (pa : Nat) : Byte :=
  if (placeOf pa).isMemory then s.getByte pa
  else BitVec.ofNat 8 ((s.regAt (placeOf pa)).toNat / 2 ^ (8 * (pa % 8)))

/-- What a load of a register leaves: a read of HOST_MBPOLLch removes the notice it returns (R370). -/
def State.readEffect (s : State) (pa : Nat) : State :=
  match placeOf pa with
  | .devReg 5 i off =>
    if decide (0x2000 ≤ off ∧ off < 0x3000) && decide (off % 16 < 8) && !s.upperPort i then s.hostPolled i ((off - 0x2000) / 16)
    else s
  | _ => s

/-! ### BAR2 (R347) -/

/-- The device virtual address of a BAR2 offset. -/
def State.bar2Addr (s : State) (h o : Nat) : Nat := (s.host h).winb * 2 ^ 40 + o

/-- A BAR2 write that failed: HOST_WERR with PAGE, ACCESS or WINDOW. [log 82: DEDUCED] -/
def State.bar2Fail (s : State) (h o reason : Nat) : State :=
  s.modHost h (fun x => { x with werr := true, woff := o, wreason := reason })

/-- Bytes of a stream through a remote page, as far as its connection takes them (R338): the rest is left. -/
def State.cltFeed (s : State) (p ci rk stream pva page : Nat) : List Byte → State × List Byte
  | [] => (s, [])
  | b :: bs =>
    if s.cltAccepts p ci rk stream pva page then
      ((s.cltWriteByte p ci rk stream pva page 0 b).cltFull p ci stream).cltFeed p ci rk stream (pva + 1) page bs
    else (s, b :: bs)

/-- A BAR2 write through a remote page: what its connection has no room for waits (R326, R338, R347). -/
def State.bar2Feed (s : State) (h p o ci rk pva page : Nat) (bs : List Byte) : State × Option HostHold :=
  let r := s.cltFeed p ci rk (hostId h) pva page bs
  let n := bs.length - r.2.length
  (r.1, if r.2.isEmpty then none else some (.clt (o + n) ci rk (pva + n) page r.2))

/-- A BAR2 write (R130, R303, R326, R347): done, failed with its reason recorded, or left to wait. One that fails a check
writes nothing. `e` is what the read of a partly written entry finds. [log 82: DEDUCED] -/
def State.bar2Write (s : State) (h p o : Nat) (bs : List Byte) (e : Ecc) : State × Option HostHold :=
  let va := s.bar2Addr h o
  match masterXlateN s p .write va bs.length with
  | .error f => (s.bar2Fail h o (if f.code = 5 then 1 else 2), none)
  | .ok ts =>
    match ts with
    | .remote rk ci pva pg :: _ =>
      if ts.any (fun t => match t with | .phys _ _ => true | .remote _ _ _ pg' => pg' != pg)
          || (mboxFault rk pva pg bs.length va).isSome then (s.bar2Fail h o 2, none)
      else if rk = 2 then
        (if s.cltRoom p ci then (s.cltPost p ci (hostId h) ((pva - pg) / 4) (leNat bs) none, none)
         else (s, some (.write o bs)))
      else s.bar2Feed h p o ci rk pva pg bs
    | _ =>
      let as := physAddrs ts
      let cs := as.zip bs
      if as.length ≠ bs.length || !as.all (fun a => (placeOf a).isMemory) then (s.bar2Fail h o 2, none)
      else match s.windowsRefuse as (hostId h) with
        | some (k, off, len, r) => ((s.windowReject k off len (hostId h) r).bar2Fail h o 3, none)
        | none =>
          if !(s.writeLosses cs).isEmpty then
            (((s.writeLosses cs).foldl (fun s a => (s.eccRead a (hostId h) .clean).1) s).bar2Fail h o 2, none)
          else
            let r := s.writeCells cs (hostId h) e
            (if r.2 then r.1 else r.1.bar2Fail h o 2, none)

/-- The bytes of a BAR2 read; none where it fails. `e` is what its protected reads find, byte by byte. -/
def State.bar2Data (s : State) (p h va n : Nat) (e : Hit) : Option (List Byte) × State :=
  match masterXlateN s p .read va n with
  | .error _ => (none, s)
  | .ok ts =>
    let as := physAddrs ts
    if as.length ≠ n then (none, s)
    else
      let r := s.eccAll as (hostId h) e
      (if r.2 then some (as.map r.1.readByte) else none, r.1)

/-! ### The order of a port's requests (R310, R370) -/

/-- One request of a host port: the state after it, and what of it must wait. While a map-out moves bytes of the
partition's stacks, its accesses wait (R310); a post waits for the port's earlier writes to be in place (R370). -/
def State.hostServe (s : State) (h : HostPort) (x : HostHold) (e : Hit) : State × Option HostHold :=
  match s.partOfHost h.val, x with
  | none, .read _ _ => (s.send (.hostRead h.val .unsupportedRequest), none)
  | none, .post ch notice => (s.hostPost h.val ch notice, none)
  | none, _ => (s, none)
  | some p, .write o bs =>
    if s.migrating p then (s, some x) else s.bar2Write h.val p o bs (e.among bs.length)
  | some p, .clt o ci rk pva pg bs =>
    if (s.conn p ci).isNone then (s.bar2Fail h.val o 2, none) else s.bar2Feed h.val p o ci rk pva pg bs
  | some p, .read o n =>
    if s.migrating p then (s, some x)
    else
      let r := s.bar2Data p h.val (s.bar2Addr h.val o) n e
      (r.2.send (.hostRead h.val (match r.1 with | some bs => .data bs | none => .completerAbort)), none)
  | some p, .post ch notice =>
    let s1 := s.cltFlushStream p (hostId h.val)
    if s1.cltPending p (hostId h.val) 1 none then (s1, some x) else (s1.hostPost h.val ch notice, none)

/-- Requests served in order, up to the first that must wait. -/
def State.hostRun (h : HostPort) : List HostHold → State → State
  | [], s => s.modHost h.val (fun x => { x with hold := [] })
  | x :: xs, s =>
    let r := s.hostServe h x none
    match r.2 with
    | none => State.hostRun h xs r.1
    | some y => r.1.modHost h.val (fun z => { z with hold := y :: xs })

/-- The requests of a port that wait, tried again. -/
def State.hostDrain (s : State) (h : HostPort) : State :=
  match (s.host h.val).hold with
  | [] => s
  | x :: xs => State.hostRun h (x :: xs) s

/-- The requests of every port that wait, tried again. -/
def State.hostsDrain (s : State) : State := ([0, 1, 2, 3] : List HostPort).foldl (fun s h => s.hostDrain h) s

/-- A request of a port: served, or left behind the ones that wait. [log 135: DEDUCED] -/
def State.hostAsk (s : State) (h : HostPort) (x : HostHold) (e : Hit) : State :=
  if (s.host h.val).hold.isEmpty then
    let r := s.hostServe h x e
    match r.2 with
    | none => r.1
    | some y => r.1.modHost h.val (fun z => { z with hold := [y] })
  else s.modHost h.val (fun z => { z with hold := z.hold ++ [x] })

/-! ### Rows -/

/-- BAR2_READ (R347). -/
def execBar2Read (h : HostPort) (o : BitVec 40) (n : Fin 4096) (e : Hit) (s : State) : Out :=
  if !s.hostLive h.val then .next s else .next (s.hostAsk h (.read o.toNat (n.val + 1)) e)

/-- BAR2_WRITE (R130, R326, R347). -/
def execBar2Write (h : HostPort) (o : BitVec 40) (bs : List Byte) (e : Hit) (s : State) : Out :=
  if bs.isEmpty ∨ 4096 < bs.length then .refused (.illFormed "BAR2_WRITE")
  else if !s.hostLive h.val then .next s
  else .next (s.hostAsk h (.write o.toNat bs) e)

/-- HOST_MBPOST (R239, R370): behind every earlier BAR2 write of the port. -/
def execHostMbpost (h : HostPort) (ch : BitVec 8) (notice : BitVec 32) (s : State) : Out :=
  if s.hostLive h.val then .next (s.hostAsk h (.post ch.toNat notice.toNat) none) else .next s

end Sys2Proof.Machine
end

