-- ==== Sys2Proof/Machine/Operands.lean ====
section
/-!
DEFINITION. What every control-core instruction shares (R178, R182, R189, R190, R195, R202): who may issue,
the event taken instead, the fetch, the checks in their order, the stack effect and the advance.
-/
namespace Sys2Proof.Machine
open Sys2Proof

/-- What an instruction is checked by and does to its stacks: its bytes, the highest ring that may execute
it, whether it is illegal on this core, its pops and pushes on both stacks, and entries that must lie above
the floor without being popped (PICK, R@). -/
structure Shape where
  bytes : List Byte
  maxRing : Nat := 3
  illegal : Option Nat := none
  pops : Nat := 0
  pushes : Nat := 0
  reads : Nat := 0
  rpops : Nat := 0
  rpushes : Nat := 0
  rreads : Nat := 0
  deriving DecidableEq, Repr

/-- R203: an opcode that the maltster does not have is illegal there, decided at its opcode byte. -/
def notOnMaltster (k : CoreId) : Option Nat := if k.val = maltsterCore then some 1 else none

/-- R195, R203: the same for an instruction with a displacement, whose prefix stands before its opcode byte. -/
def notOnMaltsterM (k : CoreId) (d : Disp) : Option Nat :=
  if k.val = maltsterCore then some ((dispPre d).length + 1) else none

/-- The encoded bytes of an instruction (none for a command that is not one). -/
def instrBytes (i : Instr) : List Byte := (encodeCore i).getD []

/-- The first byte of an instruction that cannot be fetched, among the first n (R182, R195). [log 19: DESIGN CHOICE] -/
def State.fetchFaultN (s : State) (k : Nat) (pc : Nat) : Nat → Option AFault
  | 0 => none
  | n + 1 =>
    match s.fetchFault k pc with
    | some f => some f
    | none => s.fetchFaultN k (pc + 1) n

/-- The physical address behind an instruction byte, where it can be fetched. -/
def State.fetchAddr (s : State) (k : Nat) (va : Nat) : Option Nat :=
  match coreXlate s k (s.core k).ring .fetch va with
  | .ok (.phys pa _) => some pa
  | _ => none

/-- INFO0 of ILLEGAL_INSTRUCTION (R176, R194, R204): the 8 bytes from the PC, the given bytes first, then those that
its fetch delivers; a byte that cannot be fetched reads as zero. -/
def State.info0 (s : State) (k : Nat) (bytes : List Byte) : Word :=
  let pc := (s.core k).pc.toNat
  leWord ((List.range 8).map (fun i =>
    match s.fetchAddr k (pc + i) with
    | none => 0
    | some pa => bytes.getD i (s.fetchByte k pa)))

/-- A fetched line of device memory read through L1I, and on a miss through L2, by core k (R204 to R208, R212, R213).
[log 126: DESIGN CHOICE] -/
def State.fetchLine (s : State) (k : Nat) (va : Nat) : State :=
  match s.fetchAddr k va with
  | some pa =>
    if k = maltsterCore || decide (memEnd ≤ pa) then s
    else
      let w := Config.fetchParity s.free
      ({ s with free := s.free + 1 }.l1Line k (pa / 64) true (w.getLsbD 0) (w.getLsbD 1)).2
  | none => s

/-- The lines of an instruction of n bytes, each read once; the instruction issues. [log 19: DESIGN CHOICE] -/
def State.fetched (s : State) (k n : Nat) : State :=
  let pc := (s.core k).pc.toNat
  let s1 := s.fetchLine k pc
  (if pc / 64 = (pc + n - 1) / 64 then s1 else s1.fetchLine k (pc + n - 1)).modCore k (fun c => { c with issued := true })

/-- The first byte among the first n of an instruction whose fetch meets an uncorrectable error: one in a scratchpad
or tun entry that holds it, or in a poisoned block of device memory that no cache serves (R136, R303). -/
def State.fetchError (s : State) (k n : Nat) : Option Nat :=
  let pc := (s.core k).pc.toNat
  let c := s.core k
  let l := (s.cluster (clusterOf k)).l2
  ((List.range n).filterMap (fun i => s.fetchAddr k (pc + i))).find? (fun pa =>
    s.holdsError pa && !(decide (pa < memEnd) &&
      (!c.idis && (findLine c.l1i (pa / 64)).isSome || l.en && (findLine l.lines (pa / 64)).isSome)))

/-- Whether the core issues instructions: it runs a task (the maltster: it runs), is not halted, does not
wait, and under PRECISE no unit instruction of its is unfinished (R93, R115, R180, R181, R202). [log 14: DEDUCED] -/
def Core.issues (c : Core) : Bool :=
  c.run == .running && !c.halt && c.waiting.isNone
    && !(c.preciseM && !(c.tile.queue.isEmpty && c.vsu.queue.isEmpty))

/-- What bars the stack moves of an instruction: of the data stack, then of the return stack (R128, R136, R165). -/
def State.shapeBar (s : State) (k : Nat) (x : Shape) : Option StackBar :=
  (s.barOf k (s.core k).bank .data x.pops x.reads x.pushes).or (s.barOf k (s.core k).bank .ret x.rpops x.rreads x.rpushes)

/-- ACCESS_FAULT with cause RESIDENT at an offset of core k's scratchpad (R128). -/
def residentEv (k a : Nat) : Ev := { code := 6, cause := 4, faddr := BitVec.ofNat 64 (spadAddr k a) }

/-- The fetch, ring and stack checks of R195, in order, then R128 on the entries that fill or spill; none when all
pass. [log 127: DEDUCED] -/
def State.precheck (s : State) (k : Nat) (x : Shape) : Option Ev :=
  let c := s.core k
  let pc := c.pc.toNat
  match s.fetchFaultN k pc (x.illegal.getD x.bytes.length) with
  | some f => some f.ev
  | none =>
    if x.illegal.isSome then some { code := 1, info0 := s.info0 k x.bytes }
    else if x.maxRing < c.ring.val then some { code := 2 }
    else
      match c.stackFault .data (max x.pops x.reads) x.pops x.pushes with
      | some e => some e
      | none =>
        match c.stackFault .ret (max x.rpops x.rreads) x.rpops x.rpushes with
        | some e => some e
        | none =>
          match s.shapeBar k x with
          | some (.resident a) => some (residentEv k a)
          | _ => none

/-- The physical address at which an instruction that passes its checks meets an uncorrectable error before it
executes: in its own bytes, or in a stack entry that it fills or spills (R136, R303). [log 127: DEDUCED] -/
def State.issueError (s : State) (k : Nat) (x : Shape) : Option Nat :=
  match s.fetchError k x.bytes.length with
  | some pa => some pa
  | none =>
    match s.shapeBar k x with
    | some (.error a) => some (spadAddr k a)
    | _ => none

/-- AN INSTRUCTION OF CORE k. A core that does not issue leaves the state as it is; a pending event is
taken instead (R178); a failed check raises its precise fault; an uncorrectable error in its bytes or in a stack
entry it moves stops the core; otherwise `body` runs after the fetch. [log 19: DESIGN CHOICE] -/
def coreInstr (k : CoreId) (x : Shape) (body : State → Out) (s : State) : Out :=
  if !(s.core k.val).issues then
    (if (s.core k.val).run == .running && !(s.core k.val).halt && (s.core k.val).waiting.isNone then
      match s.takePending k.val .clean with
      | some s' => .next s'
      | none => .next s
     else .next s)
  else
    match s.takePending k.val .clean with
    | some s' => .next s'
    | none =>
      match s.precheck k.val x with
      | some e => .next (s.raise k.val e)
      | none =>
        match s.issueError k.val x with
        | some pa => .next (s.stopAt k.val pa)
        | none => body (s.fetched k.val x.bytes.length)

/-- The address after the instruction. -/
def State.advance (s : State) (k n : Nat) : State := s.modCore k (fun c => c.setPc (c.pc + BitVec.ofNat 64 n))

/-- Execution continues at an address. -/
def State.jump (s : State) (k : Nat) (a : Word) : State := s.modCore k (fun c => c.setPc a)

/-- The top n entries of the current bank's data stack, top first. -/
def State.tops (s : State) (k n : Nat) : List Word := s.stackTop k (s.core k).bank .data n

/-- The top n entries of the return stack. -/
def State.rtops (s : State) (k n : Nat) : List Word := s.stackTop k (s.core k).bank .ret n

/-- Entry i of a list of stack entries, top first. -/
def nth (l : List Word) (i : Nat) : Word := l.getD i 0

/-- An instruction that only replaces its operands by results: `n` popped, `m` pushed (top first). -/
def stackInstr (k : CoreId) (i : Instr) (n m : Nat) (f : List Word → List Word) (s : State) : Out :=
  let b := instrBytes i
  coreInstr k { bytes := b, pops := n, pushes := m }
    (fun s => .next ((s.stackEffect k.val .data n (f (s.tops k.val n))).advance k.val b.length)) s

/-- An instruction that waits: it has had no effect, and the PC stays at it (R202). [log 13: DEDUCED] -/
def State.waitAt (s : State) (k : Nat) (i : Instr) : State := s.modCore k (fun c => { c with waiting := some i })

/-- The effective address (R189). -/
def effAddr (base : Word) (d : Disp) : Word := base + dispVal d

/-- The target of a relative branch from an instruction of n bytes (R190). -/
def relTarget (pc : Word) (n : Nat) (rel : Word) : Word := pc + BitVec.ofNat 64 n + rel

end Sys2Proof.Machine
end

