-- ==== Sys2Proof/Machine/LoadStore.lean ====
section
/-!
DEFINITION. The accesses behind loads and stores of the control core (R182, R189, R199): alignment,
translation, places, registers, the caches, posted stores to other scratchpads.
-/
namespace Sys2Proof.Machine
open Sys2Proof

/-- ALIGNMENT at an address. -/
def alignEv (a : Word) : Ev := { code := 4, faddr := a }

/-- The outcome of an access: its data, a precise fault, an access that must wait, or one that an
uncorrectable error stopped. -/
inductive Acc (α : Type) where
  | ok (x : α) (s : State)
  | ev (e : Ev)
  | wait
  | lost (s : State)

/-- n bytes loaded by core k at a virtual (on the maltster: physical) address (R182, R205, R208). -/
def State.loadBytes (s : State) (k : Nat) (a : Word) (n : Nat) (h : Finding) : Acc (List Byte) :=
  if a.toNat % n ≠ 0 then .ev (alignEv a)
  else match coreXlateN s k (s.core k).ring .read a.toNat n with
  | .error f => .ev f.ev
  | .ok ts =>
    let pas := physAddrs ts
    let pa := pas.headD 0
    if k ≠ maltsterCore && decide (pa < memEnd) then
      -- the line comes from memory unless a cache holds it
      let c := s.core k
      let cached := !h.l1 && !c.ddis && (findLine c.l1d (pa / 64)).isSome
        || !h.l2 && (s.cluster (clusterOf k)).l2.en && (findLine (s.cluster (clusterOf k)).l2.lines (pa / 64)).isSome
      let r := if cached then (s, true) else s.eccRead pa k h.ecc
      if !r.2 then .lost r.1
      else
        let d := r.1.cachedBytes k h.l1 h.l2 pas
        .ok d.1 d.2
    else
      let r := s.eccRead pa (coreMaster k).id h.ecc
      if !r.2 then .lost r.1 else .ok (pas.map r.1.readByte) (r.1.readEffect pa)

/-- The value a store puts into a 64-bit register: a store of 8 bytes gives all of it; of a narrower store
the other bytes are free values. [log 25: DESIGN CHOICE] -/
def State.regValue (s : State) (pa : Nat) (bs : List Byte) : Word × State :=
  if bs.length = 8 then (leWord bs, s)
  else
    let d := s.drawFree
    (leWord (patchLine (leBytes 8 d.1.toNat) (((List.range bs.length).map (fun i => pa % 8 + i)).zip bs)), d.2)

/-- A store by core k to a register block (R17, R447): refused for a register of another core, or above
the ring limit with PRIVILEGE; a write that changes CORE_CFG.PRECISE waits for the unit queues (R181). [log 15: DESIGN CHOICE; log 23: DEDUCED] -/
def State.storeReg (s : State) (k : Nat) (a : Word) (pa : Nat) (bs : List Byte) : Acc Unit :=
  let r := s.regValue pa bs
  let v := r.1
  let ring := (s.core k).ring.val
  let off8 (off : Nat) : Nat := off / 8 * 8
  let m : Bool := k == maltsterCore
  match placeOf pa with
  | .coreReg k' off =>
    if !m && k' ≠ k then .ev { code := 6, cause := 7, faddr := a }
    else if !m && decide (coreRegRing (off8 off) v < ring) then .ev { code := 2, faddr := BitVec.ofNat 64 pa }
    else if off8 off = 8 && bit v 1 != (s.core k').preciseM
        && !((s.core k').tile.queue.isEmpty && (s.core k').vsu.queue.isEmpty) then .wait
    else .ok () (r.2.modCore k' (coreRegStore m (off8 off) v))
  | .clReg c off =>
    if !m && decide (clusterRegRings (off8 off) ≤ ring) then .ev { code := 2, faddr := BitVec.ofNat 64 pa }
    else .ok () (clusterRegStore m c (off8 off) v r.2)
  | .devReg b i off => .ok () (devRegStore r.2 b i (off8 off) v).hostsDrain
  | _ => .ok () s

/-- The next place in core k's issue order, taken. -/
def State.stampOf (s : State) (k : Nat) : Nat := (s.core k).stamp
def State.bump (s : State) (k : Nat) : State := s.modCore k (fun c => { c with stamp := c.stamp + 1 })

/-- An entry of core k's flag queue (R223): the packets its stream is filling are sent; none where the
queue is full and issue stalls. -/
def State.enqueueFlag (s : State) (k : Nat) (op : FqOp) : Option State :=
  let c := s.core k
  if 8 ≤ c.flg.queue.length then none
  else
    let s1 := match s.partOfCore k with
      | some p => s.cltFlushStream p k
      | none => s
    some (s1.modCore k (fun c =>
      { c with stamp := c.stamp + 1,
               flg := { c.flg with queue := c.flg.queue ++ [{ op := op, stamp := c.stamp, iaddr := c.pc }] } }))

/-- n bytes stored by core k at an effective address (R182, R209, R210, R326): into its own scratchpad or a
tun at once; into device memory through the caches; into another core's scratchpad as a posted write; into a
register; or through a remote page. [log 48: DEDUCED; log 51: DEDUCED] -/
def State.storeBytes (s : State) (k : Nat) (a : Word) (bs : List Byte) (h : Finding) : Acc Unit :=
  let n := bs.length
  if a.toNat % n ≠ 0 then .ev (alignEv a)
  else match coreXlateN s k (s.core k).ring .write a.toNat n with
  | .error f => .ev f.ev
  | .ok ts =>
    match ts with
    | .remote rk ci pva pg :: _ =>
      match mboxFault rk pva pg n a.toNat with
      | some f => .ev f.ev
      | none =>
        if rk = 2 then
          match s.enqueueFlag k (.post ci ((pva - pg) / 4) (leNat bs)) with
          | some s' => .ok () s'
          | none => .wait
        else match s.partOfCore k with
          | none => .wait
          | some p =>
            if s.cltRoom p ci then .ok () ((s.bump k).cltWrite p ci rk k pva pg (s.stampOf k) bs) else .wait
    | .phys pa _ :: _ =>
      let cells := ((List.range n).map (fun i => pa + i)).zip bs
      match placeOf pa with
      | .mem _ =>
        if k = maltsterCore then .ok () (s.placeCells cells maltsterId)
        else match s.cachedStore k pa bs h (s.stampOf k) with
          | some s' => .ok () (s'.bump k)
          | none => .wait
      | .spad k' _ =>
        if k' = k || k = maltsterCore then
          let r := s.eccRead pa (coreMaster k).id h.ecc
          if r.2 then .ok () (r.1.placeCells cells (coreMaster k).id) else .lost r.1
        else .ok () (s.modCore k (fun c =>
          { c with stamp := c.stamp + 1,
                   posted := c.posted ++ [{ addr := pa, bytes := bs, iaddr := c.pc, stamp := c.stamp }] }))
      | .tun _ _ =>
        let r := s.eccRead pa (coreMaster k).id h.ecc
        if r.2 then .ok () (r.1.placeCells cells (coreMaster k).id) else .lost r.1
      | _ => s.storeReg k a pa bs
    | [] => .ok () s

end Sys2Proof.Machine
end

