-- ==== Sys2Proof/Machine/System.lean ====
section
/-!
DEFINITION. The system instructions (R169 to R174, R201, R202): TRAP, GRET, TEND, WAITI, the reads of time
and pointers, and the entry of a pending event.
-/
namespace Sys2Proof.Machine
open Sys2Proof

/-! ### TRAP -/

/-- A gate-table entry (R169). -/
structure Gate where
  target : Word
  ring : Nat
  callmax : Nat
  args : Nat
  ien : Bool
  clean : Bool
  v : Bool
  deriving DecidableEq, Repr

def gateOf (lo hi : Word) : Gate :=
  { target := place (field lo 47 0) 48 0, ring := field lo 49 48, callmax := field lo 51 50, args := field lo 54 52,
    ien := bit lo 55, clean := field lo 62 56 == 0 && hi == 0, v := bit lo 63 }

/-- Gate n of core k's gate table. -/
def State.gate (s : State) (k n : Nat) : Gate :=
  let o := (s.core k).gtb * 4096 + 16 * n
  gateOf (s.stackGet k o) (s.stackGet k (o + 8))

/-- The gate checks of R170, then the arguments' presence, then their room in a free bank (R166); none when
all pass. -/
def State.gateFault (s : State) (k n : Nat) (g : Gate) : Option Ev :=
  let c := s.core k
  let gf (cause : Nat) : Ev := { code := 3, cause := cause, gate := n }
  if !g.v then some (gf 1)
  else if !g.clean then some (gf 2)
  else if g.callmax < c.ring.val then some (gf 3)
  else if c.ring.val < g.ring then some (gf 4)
  else if c.bank.depth .data < g.args then some { code := 8, cause := 1 }
  else if !(c.banks.get (toRing g.ring)).busy
      && decide ((c.dsr.get (toRing g.ring)).top < (c.dsr.get (toRing g.ring)).lim + 8 * g.args) then
    some { code := 7, cause := 1 }
  else none

/-- The yield gate number of the schedule a core runs (R377). -/
def State.yieldGate (s : State) (k : Nat) : Option Nat :=
  match s.partOfCore k with
  | none => none
  | some p => ((s.part p).sched (s.core k).sched).map (fun x => x.image.yg)

/-- R381: the ring-0 firmware parks a core whose TRAP YG finds PREEMPT pending. [log 29: DEDUCED] -/
def State.parkAtYield (s : State) (k n : Nat) (arg : Word) : State :=
  if s.yieldGate k = some n && (s.core k).ipend.getLsbD 0 && !(s.core k).halt then
    s.modCore k (fun c => { c with run := .parked, yieldAt := arg.toNat })
  else s

/-- What bars a stack move that an instruction makes itself: a precise fault, or a stopped core (R128, R136); otherwise
it goes on. [log 127: DEDUCED] -/
def State.unbarred (s : State) (k : Nat) (b : Option StackBar) (go : Out) : Out :=
  match b with
  | some (.resident a) => .next (s.raise k (residentEv k a))
  | some (.error a) => .next (s.stopAt k (spadAddr k a))
  | none => go

/-- R169 to R171: TRAP enters gate n. The gate's entry, and the arguments that leave the caller's stack, are reads of
the scratchpad. [log 21: DEDUCED; log 29: DEDUCED; log 127: DEDUCED] -/
def execTrap (k : CoreId) (n : BitVec 8) (h : Ecc) (s : State) : Out :=
  let b := instrBytes (.trap k n h)
  coreInstr k { bytes := b }
    (fun s =>
      let o := (s.core k.val).gtb * 4096 + 16 * n.toNat
      let r := if k.val = maltsterCore then (s, true) else s.eccRead (spadAddr k.val o) k.val h
      s.unbarred k.val (s.stackBar k.val [o] []) <|
      if !r.2 then .next (r.1.stopCore k.val)
      else
        let s := r.1
        let g := s.gate k.val n.toNat
        match s.gateFault k.val n.toNat g with
        | some e => .next (s.raise k.val e)
        | none =>
          let pc := (s.core k.val).pc
          let arg := nth (s.tops k.val 1) 0
          let ev : Ev := { code := 0x40, gate := n.toNat, kind := .boundary, iaddr := pc }
          let free : Bool := !((s.core k.val).banks.get (toRing g.ring)).busy
          s.unbarred k.val (s.barOf k.val (s.core k.val).bank .data (if free then g.args else 0) 0 0) <|
          .next ((s.takeEvent k.val ev { ring := toRing g.ring, args := g.args, ien := g.ien, target := g.target }
            (pc + BitVec.ofNat 64 b.length) .clean).parkAtYield k.val n.toNat arg)) s

/-! ### GRET -/

/-- The trap record on top of the return stack (R173). [log 30: DEDUCED] -/
def State.record (s : State) (k : Nat) : List Word := s.rtops k 8

/-- The checks of R174, in order; none when all pass. -/
def State.gretFault (s : State) (k n : Nat) : Option Ev :=
  let c := s.core k
  let e0 := nth (s.record k) 0
  let from_ := field e0 25 24
  let gf (cause : Nat) : Ev := { code := 3, cause := cause }
  if c.bank.rsp ≠ c.bank.rsFloor then some (gf 5)
  else if from_ < c.ring.val then some (gf 6)
  else if n ≠ 0 && field e0 7 0 != 0x40 then some (gf 5)
  else if c.bank.depth .data < n then some { code := 8, cause := 1 }
  else if from_ ≠ c.ring.val
      && decide ((c.banks.get (toRing from_)).dsp < (c.dsr.get (toRing from_)).lim + 8 * n) then
    some { code := 7, cause := 1 }
  else none

/-- A return to the same bank: the record is popped, the top n entries sit below the handler's floor, and
the floors come back from E6. -/
def State.gretSame (s : State) (k n : Nat) : State :=
  let e := s.record k
  let tops := s.tops k n
  s.modCore k (fun c =>
    let b := c.bank
    let keep := b.ds.drop (b.depth .data)
    { (c.setBank { b with rsp := b.rsp + 64, rs := b.rs.drop 8, dsp := b.dsFloor - 8 * n, ds := tops ++ keep,
                          dsFloor := field (nth e 6) 20 0, rsFloor := field (nth e 6) 41 21,
                          pc := nth e 1 }) with gie := bit (nth e 0) 29 })

/-- A return to another bank: the top n entries go to its data stack, the current bank becomes free. -/
def State.gretCross (s : State) (k n : Nat) (dst : Fin 4) : State :=
  let e := s.record k
  let tops := s.tops k n
  let r := s.stackApply k ((s.core k).banks.get dst) .data 0 tops
  r.1.modCore k (fun c =>
    let c1 := c.setBank { c.bank with ds := [], rs := [], busy := false }
    let nb := { c1.banks.get dst with dsp := r.2.1, ds := r.2.2, pc := nth e 1, busy := true }
    { c1 with banks := c1.banks.set dst nb, ring := dst, gie := bit (nth e 0) 29 })

/-- The entries of the trap record that stand in memory. -/
def Bank.recordIns (b : Bank) : List Nat := ((List.range 8).filter (fun i => decide (b.rs.length ≤ i))).map (fun i => b.rsp + 8 * i)

/-- What bars the entries that GRET n moves: those it takes, and those that bank FROM spills for them. -/
def State.gretBar (s : State) (k n : Nat) (dst : Fin 4) : Option StackBar :=
  let c := s.core k
  let nb := c.banks.get dst
  s.stackBar k (((List.range n).filter (fun i => decide (c.bank.ds.length ≤ i))).map (fun i => c.bank.dsp + 8 * i))
    (if dst = c.ring then [] else
      ((List.range nb.ds.length).filter (fun i => decide (16 - n ≤ i))).map (fun i => nb.dsp + 8 * i))

/-- R174: GRET returns from the entry whose record lies on top of the return stack; the frozen unit work of
the ring returned to re-enters its queues. [log 30: DEDUCED; log 127: DEDUCED] -/
def execGret (k : CoreId) (n : Fin 8) (s : State) : Out :=
  coreInstr k { bytes := instrBytes (.gret k n) }
    (fun s =>
      let b := (s.core k.val).bank
      s.unbarred k.val (if b.rsp = b.rsFloor then s.stackBar k.val b.recordIns [] else none) <|
      match s.gretFault k.val n.val with
      | some e => .next (s.raise k.val e)
      | none =>
        let dst := toRing (field (nth (s.record k.val) 0) 25 24)
        s.unbarred k.val (s.gretBar k.val n.val dst) <|
        let s1 := if dst = (s.core k.val).ring then s.gretSame k.val n.val else s.gretCross k.val n.val dst
        .next (s1.modCore k.val (fun c => { c with tile := c.tile.thaw dst, vsu := c.vsu.thaw dst }))) s

/-! ### Waiting for a core's own work -/

/-- Whether every store of core k's control core that was issued before `stamp` is in place, CLT writes on the
connection `except` left out (R222, R337). -/
def State.storesInPlaceBut (s : State) (k stamp : Nat) (except : Option Nat) : Bool :=
  let c := s.core k
  c.posted.all (fun p => decide (stamp ≤ p.stamp))
    && (s.cluster (clusterOf k)).l2.mb.all (fun e => e.stores.all (fun w => !(w.1 == k && decide (w.2 < stamp))))
    && (match s.partOfCore k with
        | some p => !s.cltPending p k stamp except
        | none => true)

/-- Whether every store of core k's control core that was issued before `stamp` is in place (R222). -/
def State.storesInPlace (s : State) (k stamp : Nat) : Bool := s.storesInPlaceBut k stamp none

/-- Whether the units of core k have finished what was issued before `stamp`. -/
def Core.unitsPast (c : Core) (stamp : Nat) : Bool :=
  (c.tile.queue ++ c.tile.frozen).all (fun e => decide (stamp ≤ e.stamp))
    && (c.vsu.queue ++ c.vsu.frozen).all (fun e => decide (stamp ≤ e.stamp))

/-- Whether every write of core k's ordering stream issued before `stamp` is in place: its stores and the
outputs of its units (R221, R223). -/
def State.streamInPlace (s : State) (k stamp : Nat) : Bool := s.storesInPlace k stamp && (s.core k).unitsPast stamp

/-- Whether core k's flag queue is drained (R223): it is empty, and every operation it performed has taken
effect or failed. -/
def State.flagsDrained (s : State) (k : Nat) : Bool :=
  (s.core k).flg.queue.isEmpty
    && s.flight.all (fun m => m.origin != some k)
    && (match s.partOfCore k with
        | some p => (s.part p).conns.all (fun e =>
            (e.2.filling ++ e.2.unacked).all (fun o => !(o.origin == some k && decide (3 ≤ o.type))))
        | none => true)

/-- Core k's merging-buffer entries start to drain (R211). [log 47: DEDUCED] -/
def State.drainCore (s : State) (k : Nat) : State :=
  if k = maltsterCore then s
  else s.modCluster (clusterOf k) (fun x =>
    { x with l2 := { x.l2 with mb := startDrain x.l2.mb (fun e => e.stores.any (fun w => w.1 == k)) } })

/-- The task of a core is complete (R201): the core issues nothing further, and its launch knows. -/
def State.taskEnd (s : State) (k : Nat) : State :=
  let c := s.core k
  let s1 := s.modCore k (fun c => { c with run := .ended, waiting := none })
  match s.partOfCore k with
  | none => s1
  | some p => s1.modPart p (fun q =>
      { q with launch := q.launch.map (fun l =>
          { l with tasks := mput l.tasks c.task { mget {} l.tasks c.task with st := .ended, core := k } }) })

/-- R201: TEND waits for the core's stores, units and flag queue, then ends the task. -/
def execTend (k : CoreId) (s : State) : Out :=
  let i : Instr := .tend k
  coreInstr k { bytes := instrBytes i, illegal := notOnMaltster k }
    (fun s =>
      let s1 := match s.partOfCore k.val with
        | some p => (s.drainCore k.val).cltFlushStream p k.val
        | none => s.drainCore k.val
      if s1.streamInPlace k.val ((s1.core k.val).stamp) && s1.flagsDrained k.val then .next (s1.taskEnd k.val)
      else .next (s1.waitAt k.val i)) s

/-- Whether a pending interrupt has its enable bit set (R201). -/
def Core.wakes (c : Core) : Bool := c.ipend &&& c.ie != 0

/-- R201: WAITI waits for an enabled pending interrupt; rings 0 and 1. -/
def execWaiti (k : CoreId) (s : State) : Out :=
  let i : Instr := .waiti k
  let b := instrBytes i
  coreInstr k { bytes := b, maxRing := 1 }
    (fun s =>
      if (s.core k.val).wakes then .next (s.advance k.val b.length) else .next (s.waitAt k.val i)) s

/-! ### Reads -/

/-- GTIME as RDTIME returns it: within 20 ns (R321). [log 28: DESIGN CHOICE] -/
def State.readTime (s : State) : Word × State :=
  if !s.gt.set_ then (0, s)
  else
    let d := s.drawFree
    (s.gt.t + BitVec.ofNat 64 (d.1.toNat % 41) - 20, d.2)

/-- R201: RDTIME pushes GTIME. [log 28: DESIGN CHOICE] -/
def execRdtime (k : CoreId) (s : State) : Out :=
  let b := instrBytes (.rdtime k)
  coreInstr k { bytes := b, pushes := 1 }
    (fun s =>
      let r := s.readTime
      .next ((r.2.stackEffect k.val .data 0 [r.1]).advance k.val b.length)) s

/-- R201: RDCYC pushes the core's CL cycles since task start: a free value, since cycles are not modelled. [log 28: DESIGN CHOICE] -/
def execRdcyc (k : CoreId) (s : State) : Out :=
  let b := instrBytes (.rdcyc k)
  coreInstr k { bytes := b, pushes := 1 }
    (fun s =>
      let r := s.drawFree
      .next ((r.2.stackEffect k.val .data 0 [r.1]).advance k.val b.length)) s

/-- R201: RDDSP pushes DSP as it stood before. -/
def execRddsp (k : CoreId) (s : State) : Out :=
  let b := instrBytes (.rddsp k)
  coreInstr k { bytes := b, pushes := 1 }
    (fun s =>
      let x := BitVec.ofNat 64 (s.core k.val).bank.dsp
      .next ((s.stackEffect k.val .data 0 [x]).advance k.val b.length)) s

/-- R201: RDRSP pushes RSP. -/
def execRdrsp (k : CoreId) (s : State) : Out :=
  let b := instrBytes (.rdrsp k)
  coreInstr k { bytes := b, pushes := 1 }
    (fun s =>
      let x := BitVec.ofNat 64 (s.core k.val).bank.rsp
      .next ((s.stackEffect k.val .data 0 [x]).advance k.val b.length)) s

/-! ### Entry of a pending event -/

/-- R178: at an instruction boundary, or while an instruction waits, a core takes its next pending event.
`h` is what the spill of R171 step 4 meets. With none pending, nothing happens. -/
def execEventEntry (k : CoreId) (h : Ecc) (s : State) : Out :=
  let c := s.core k.val
  if c.run == .running && !c.halt then
    match s.takePending k.val h with
    | some s' => .next s'
    | none => .next s
  else .next s

end Sys2Proof.Machine
end

