-- ==== Sys2Proof/Machine/Flags.lean ====
section
/-!
DEFINITION. Flags and mailboxes from a core (spec 11): flags and their arrival (R227 to R231, R234), the flag
instructions (R201, R229, R230, R232, R235, R236), MBPOST and MBPOLL (R239 to R241).
-/
namespace Sys2Proof.Machine
open Sys2Proof

/-! ### Flags -/

def BitVec256.setBit (f : BitVec 256) (b : Nat) (v : Bool) : BitVec 256 :=
  let m : BitVec 256 := BitVec.ofNat 256 (2 ^ b)
  if v then f ||| m else f &&& ~~~m

def Word.setBit (f : Word) (b : Nat) (v : Bool) : Word :=
  let m : Word := BitVec.ofNat 64 (2 ^ b)
  if v then f ||| m else f &&& ~~~m

/-- The value of a binary flag (for a counted flag: whether it is nonzero). -/
def State.flagGet (s : State) (t : FlagTarget) : Bool :=
  match t with
  | .bin k f => (s.core k).flg.f.getLsbD f
  | .cl c f => (s.cluster c).flags.getLsbD f
  | .cnt k c => mget 0 (s.core k).flg.cf c != 0

/-- A binary flag written; a core's watch fires when its flag is 1 (R229). -/
def State.flagPut (s : State) (t : FlagTarget) (v : Bool) : State :=
  match t with
  | .bin k f => s.modCore k (fun c => ({ c with flg := { c.flg with f := Word.setBit c.flg.f f v } } : Core).fireWatch)
  | .cl c f => s.modCluster c (fun x => { x with flags := BitVec256.setBit x.flags f v })
  | .cnt _ _ => s

def State.counter (s : State) (k c : Nat) : Nat := mget 0 (s.core k).flg.cf c
def State.setCounter (s : State) (k c v : Nat) : State :=
  s.modCore k (fun x => { x with flg := { x.flg with cf := mput x.flg.cf c v } })

/-- A counted flag after an increment or a decrement; none outside 0 to 65,535 (R230). -/
def countStep (v : Nat) (a : FlagAct) : Option Nat :=
  match a with
  | .inc => if v < 65535 then some (v + 1) else none
  | .dec => if v = 0 then none else some (v - 1)
  | _ => some v

/-- R231: a remote operation or a router's increment that a counter cannot take: LIM is set, and the launch
aborts. -/
def State.flagLimit (s : State) (k c source : Nat) (a : FlagAct) : State :=
  (s.modCore k (fun x =>
    { x with flg := { x.flg with lim := true, ldir := a == .dec, lcf := c, lsrc := source } })).abortCore k
    { cause := 4, sub := 0, hw := false }

/-- Rank of a core's own operations among those of one cycle (R234); a router's is one less, CLT arrivals
have 1 plus their port, other remote arrivals 0. -/
def coreRank : Nat := 18
def routerRank : Nat := 17

/-- A presented CFINC or CFDEC completes (R230). [log 45: DEDUCED] -/
def State.presentedDone (s : State) (k : Nat) : State :=
  s.modCore k (fun c => { (c.setPc (c.pc + 2)) with waiting := none, presented := false })

/-- One operation on a counted flag (R230, R231): performed, refused with a precise FLAG_UNDERFLOW for the
core's own CFINC or CFDEC, or refused with LIM. -/
def State.countApply (s : State) (m : FlagMsg) (k c : Nat) : State :=
  let own : Bool := m.rank == coreRank && (s.core k).presented
  match countStep (s.counter k c) m.act with
  | some v =>
    let s1 := s.setCounter k c v
    if own then s1.presentedDone k else s1
  | none =>
    if own then
      (s.modCore k (fun c => { c with waiting := none, presented := false })).raise k
        { code := 0x0D, cause := if m.act = .dec then 1 else 2, info0 := BitVec.ofNat 64 c }
    else if m.rank = coreRank then s
    else s.flagLimit k c m.source m.act

/-- The messages of a list in rank order, those of one rank in their order. -/
def byRank (ms : List FlagMsg) : List FlagMsg :=
  (List.range (coreRank + 1)).flatMap (fun r => ms.filter (fun m => m.rank == r))

/-- The operations that reach one flag in one cycle (R234). -/
def State.flagCycle (s : State) (t : FlagTarget) (ms : List FlagMsg) : State :=
  match t with
  | .cnt k c =>
    ((byRank (ms.filter (fun m => m.act == .inc))) ++ (byRank (ms.filter (fun m => m.act == .dec)))).foldl
      (fun s m => s.countApply m k c) s
  | t =>
    if ms.any (fun m => m.act == .set) then s.flagPut t true
    else if ms.any (fun m => m.act == .clear) then s.flagPut t false
    else s

/-- The oldest n operations on their way to a flag, and the others. [log 50: DEDUCED] -/
def takeFlight (t : FlagTarget) : Nat → List FlagMsg → List FlagMsg × List FlagMsg
  | _, [] => ([], [])
  | n, m :: ms =>
    if m.target = t ∧ n ≠ 0 then
      let r := takeFlight t (n - 1) ms
      (m :: r.1, r.2)
    else
      let r := takeFlight t n ms
      (r.1, m :: r.2)

/-- FLAG_ARRIVAL (R234): the oldest n operations on their way to a flag reach it in one cycle. [log 46: DEDUCED; log 50: DEDUCED] -/
def execFlagArrival (t : FlagTarget) (n : Nat) (s : State) : Out :=
  let r := takeFlight t n s.flight
  .next (({ s with flight := r.2 } : State).flagCycle t r.1)

/-- A flag operation sent to its flag. -/
def State.flagSend (s : State) (m : FlagMsg) : State := { s with flight := s.flight ++ [m] }

/-! ### The flag instructions -/

/-- Whether an operation of core k on a flag is in its flag queue or has not taken effect (R235). -/
def State.flagOwn (s : State) (k : Nat) (t : FlagTarget) : Bool :=
  (s.core k).flg.queue.any (fun e => match e.op with | .flag t' _ _ => t' == t | _ => false)
    || s.flight.any (fun m => m.origin == some k && m.target == t)

/-- An instruction that places one operation in the flag queue; issue stalls while it is full (R223). -/
def flagIssue (k : CoreId) (i : Instr) (op : FqOp) (s : State) : Out :=
  let b := instrBytes i
  coreInstr k { bytes := b, illegal := notOnMaltster k }
    (fun s =>
      match s.enqueueFlag k.val op with
      | some s' => .next (s'.advance k.val b.length)
      | none => .next (s.waitAt k.val i)) s

/-- R201, R227: FSET. -/
def execFset (k : CoreId) (f : Fin 64) (s : State) : Out := flagIssue k (.fset k f) (.flag (.bin k.val f.val) .set true) s
/-- R201, R227: FCLR. -/
def execFclr (k : CoreId) (f : Fin 64) (s : State) : Out := flagIssue k (.fclr k f) (.flag (.bin k.val f.val) .clear true) s
/-- R201, R227: CLFSET. -/
def execClfset (k : CoreId) (f : BitVec 8) (s : State) : Out :=
  flagIssue k (.clfset k f) (.flag (.cl (clusterOf k.val) f.toNat) .set true) s
/-- R201, R227: CLFCLR. -/
def execClfclr (k : CoreId) (f : BitVec 8) (s : State) : Out :=
  flagIssue k (.clfclr k f) (.flag (.cl (clusterOf k.val) f.toNat) .clear true) s

/-- A test of a binary flag: it waits for the core's own operations on it (R235). -/
def flagTest (k : CoreId) (i : Instr) (t : FlagTarget) (s : State) : Out :=
  let b := instrBytes i
  coreInstr k { bytes := b, pushes := 1, illegal := notOnMaltster k }
    (fun s =>
      if s.flagOwn k.val t then .next (s.waitAt k.val i)
      else .next ((s.stackEffect k.val .data 0 [if s.flagGet t then 1 else 0]).advance k.val b.length)) s

/-- R201, R235: FTEST. -/
def execFtest (k : CoreId) (f : Fin 64) (s : State) : Out := flagTest k (.ftest k f) (.bin k.val f.val) s
/-- R201, R235: CLFTEST. -/
def execClftest (k : CoreId) (f : BitVec 8) (s : State) : Out :=
  flagTest k (.clftest k f) (.cl (clusterOf k.val) f.toNat) s

/-- A wait for a binary flag. -/
def flagWait (k : CoreId) (i : Instr) (t : FlagTarget) (s : State) : Out :=
  let b := instrBytes i
  coreInstr k { bytes := b, illegal := notOnMaltster k }
    (fun s =>
      if s.flagOwn k.val t || !s.flagGet t then .next (s.waitAt k.val i)
      else .next (s.advance k.val b.length)) s

/-- R201, R235: FWAIT. -/
def execFwait (k : CoreId) (f : Fin 64) (s : State) : Out := flagWait k (.fwait k f) (.bin k.val f.val) s
/-- R201, R235: CLFWAIT. -/
def execClfwait (k : CoreId) (f : BitVec 8) (s : State) : Out :=
  flagWait k (.clfwait k f) (.cl (clusterOf k.val) f.toNat) s

/-- R229: FWATCH arms the watch of a flag; a flag that is already 1 fires it at once. -/
def execFwatch (k : CoreId) (f : Fin 64) (s : State) : Out :=
  let b := instrBytes (.fwatch k f)
  coreInstr k { bytes := b, illegal := notOnMaltster k }
    (fun s => .next ((s.modCore k.val (fun c =>
      ({ c with flg := { c.flg with watch := Word.setBit c.flg.watch f.val true } } : Core).fireWatch)).advance
        k.val b.length)) s

/-- R230: a local counted-flag operation waits, as an instruction that cannot issue (R202), until every earlier flag
operation of the core is performed and every earlier write is in place; then it enters the flag queue, and the core
holds until its counter answers, so that FLAG_UNDERFLOW is precise. [log 45: DEDUCED] -/
def countIssue (k : CoreId) (i : Instr) (c : Fin 16) (a : FlagAct) (s : State) : Out :=
  coreInstr k { bytes := instrBytes i, illegal := notOnMaltster k }
    (fun s =>
      let s1 := s.drainCore k.val
      if (s1.core k.val).flg.queue.isEmpty && s1.streamInPlace k.val (s1.core k.val).stamp then
        match s1.enqueueFlag k.val (.flag (.cnt k.val c.val) a true) with
        | some s' => .next ((s'.waitAt k.val i).modCore k.val (fun c => { c with presented := true }))
        | none => .next (s1.waitAt k.val i)
      else .next (s1.waitAt k.val i)) s

/-- R201, R230: CFINC. -/
def execCfinc (k : CoreId) (c : Fin 16) (s : State) : Out := countIssue k (.cfinc k c) c .inc s
/-- R201, R230: CFDEC. -/
def execCfdec (k : CoreId) (c : Fin 16) (s : State) : Out := countIssue k (.cfdec k c) c .dec s

/-- R201, R230: CFREAD. -/
def execCfread (k : CoreId) (c : Fin 16) (s : State) : Out :=
  let i : Instr := .cfread k c
  let b := instrBytes i
  coreInstr k { bytes := b, pushes := 1, illegal := notOnMaltster k }
    (fun s =>
      if s.flagOwn k.val (.cnt k.val c.val) then .next (s.waitAt k.val i)
      else .next ((s.stackEffect k.val .data 0 [BitVec.ofNat 64 (s.counter k.val c.val)]).advance k.val b.length)) s

/-- R201, R230: CFWAIT waits until the counted flag is at least n. -/
def execCfwait (k : CoreId) (c : Fin 16) (s : State) : Out :=
  let i : Instr := .cfwait k c
  let b := instrBytes i
  coreInstr k { bytes := b, pops := 1, illegal := notOnMaltster k }
    (fun s =>
      let n := nth (s.tops k.val 1) 0
      if 65535 < n.toNat then .next (s.raise k.val { code := 0x0F, cause := 0x10, info0 := n })
      else if s.flagOwn k.val (.cnt k.val c.val) || decide (s.counter k.val c.val < n.toNat) then .next (s.waitAt k.val i)
      else .next ((s.stackEffect k.val .data 1 []).advance k.val b.length)) s

/-- R236: FENCE.F waits until every earlier flag operation of the core has been performed. -/
def execFenceF (k : CoreId) (s : State) : Out :=
  let i : Instr := .fenceF k
  let b := instrBytes i
  coreInstr k { bytes := b, illegal := notOnMaltster k }
    (fun s => if s.flagsDrained k.val then .next (s.advance k.val b.length) else .next (s.waitAt k.val i)) s

/-! ### Remote flag operations (R232) -/

/-- A flag target word. -/
structure FlagWord where
  flag : Nat
  cls : Nat
  unit : Nat
  remote : Bool
  node : Nat
  resv : Nat
  deriving DecidableEq, Repr

def flagWord (t : Word) : FlagWord :=
  { flag := field t 7 0, cls := field t 9 8, unit := field t 19 10, remote := bit t 20, node := field t 40 21,
    resv := field t 63 41 }

/-- Whether a flag target word is a reserved encoding for an operation on counted flags or on binary ones. -/
def FlagWord.reserved (w : FlagWord) (counted : Bool) : Bool :=
  (if counted then w.cls != 1 else w.cls != 0 && w.cls != 2)
    || decide ((match w.cls with | 0 => 64 | 1 => 16 | _ => 256) ≤ w.flag)
    || decide ((if w.cls = 2 then 48 else 768) ≤ w.unit)
    || w.resv != 0 || (!w.remote && w.node != 0)

def FlagWord.target (w : FlagWord) : FlagTarget :=
  match w.cls with
  | 0 => .bin w.unit w.flag
  | 1 => .cnt w.unit w.flag
  | _ => .cl w.unit w.flag

def FlagWord.cluster (w : FlagWord) : Nat := if w.cls = 2 then w.unit else clusterOf w.unit

/-- The issue-time fault of a remote flag operation (R232, R326). -/
def State.flagWordFault (s : State) (k : Nat) (t : Word) (counted : Bool) : Option Ev :=
  let w := flagWord t
  if w.reserved counted then some { code := 0x0F, cause := 0x10, info0 := t }
  else if !w.remote && (s.partOfCluster w.cluster != s.partOfCore k || (s.cluster w.cluster).absent) then
    some { code := 6, cause := 2 }
  else if w.remote && ((s.partOfCore k).bind (fun p => s.connTo p w.node)).isNone then some { code := 6, cause := 2 }
  else none

/-- RFSET, RCFINC, RCFDEC. -/
def remoteFlag (k : CoreId) (i : Instr) (a : FlagAct) (s : State) : Out :=
  let b := instrBytes i
  coreInstr k { bytes := b, pops := 1, illegal := notOnMaltster k }
    (fun s =>
      let t := nth (s.tops k.val 1) 0
      match s.flagWordFault k.val t (a != .set) with
      | some e => .next (s.raise k.val e)
      | none =>
        let w := flagWord t
        match s.enqueueFlag k.val (if w.remote then .remote w.node t a else .flag w.target a false) with
        | some s' => .next ((s'.stackEffect k.val .data 1 []).advance k.val b.length)
        | none => .next (s.waitAt k.val i)) s

/-- R232: RFSET. -/
def execRfset (k : CoreId) (s : State) : Out := remoteFlag k (.rfset k) .set s
/-- R232: RCFINC. -/
def execRcfinc (k : CoreId) (s : State) : Out := remoteFlag k (.rcfinc k) .inc s
/-- R232: RCFDEC. -/
def execRcfdec (k : CoreId) (s : State) : Out := remoteFlag k (.rcfdec k) .dec s

/-! ### Mailboxes -/

/-- The precise fault of a refused post by a core (R239). -/
def State.mbEv (s : State) (ch : Nat) (r : MbRefusal) : Ev :=
  let bus (cause : Nat) : Ev :=
    { code := 0x0E, cause := cause, info0 := BitVec.ofNat 64 ch, info1 := BitVec.ofNat 64 (s.mbx.chan ch).rcv }
  match r with
  | .devblock => { code := 6, cause := 6 }
  | .partition => { code := 6, cause := 2 }
  | .off => bus 2
  | .full => bus 1

/-- R239, R240: MBPOST waits for the flag queue ahead of it and for every earlier write, then posts. [log 47: DEDUCED] -/
def execMbpost (k : CoreId) (ch : BitVec 8) (s : State) : Out :=
  let i : Instr := .mbpost k ch
  let b := instrBytes i
  coreInstr k { bytes := b, pops := 1 }
    (fun s =>
      let s1 := match s.partOfCore k.val with
        | some p => (s.drainCore k.val).cltFlushStream p k.val
        | none => s.drainCore k.val
      if s1.flagsDrained k.val && s1.streamInPlace k.val (s1.core k.val).stamp then
        match s1.mbPost ch.toNat (coreMaster k.val).id (field (nth (s.tops k.val 1) 0) 31 0) with
        | .error r => .next (s1.raise k.val (s1.mbEv ch.toNat r))
        | .ok s2 => .next ((s2.stackEffect k.val .data 1 []).advance k.val b.length)
      else .next (s1.waitAt k.val i)) s

/-- R241: MBPOLL takes the oldest notice of a channel whose receiver is the core. [log 47: DEDUCED] -/
def execMbpoll (k : CoreId) (ch : BitVec 8) (s : State) : Out :=
  let b := instrBytes (.mbpoll k ch)
  coreInstr k { bytes := b, pushes := 2 }
    (fun s =>
      let c := s.mbx.chan ch.toNat
      if !c.v || c.rcv != (coreMaster k.val).id then .next (s.raise k.val { code := 6, cause := 6 })
      else
        let r := s.mbTake ch.toNat
        .next ((r.2.2.stackEffect k.val .data 0 [if r.2.1 then 1 else 0, r.1]).advance k.val b.length)) s

end Sys2Proof.Machine
end

