-- ==== Sys2Proof/Machine/Fabric.lean ====
section
/-!
DEFINITION. How the cluster engines reach memory (R243, R256, R265, R325): translation with ring-3
permissions, protected reads, window-checked writes, writes through remote pages, and the DONE action.
-/
namespace Sys2Proof.Machine
open Sys2Proof

/-- CAUSE codes of DMA_FREC0 and of the engines' FREC0. -/
def fcPage : Nat := 1
def fcAccess : Nat := 2
def fcWindow : Nat := 3
def fcResident : Nat := 4
def fcDescriptor : Nat := 5
def fcStallIndex : Nat := 6
def fcUe : Nat := 7

/-- A fault an engine meets: CAUSE, address, and whether the access was a write. -/
structure FabFault where
  cause : Nat
  addr : Nat
  wr : Bool
  deriving DecidableEq, Repr

def AFault.fab (f : AFault) (wr : Bool) : FabFault :=
  ⟨if f.code = 5 then fcPage else if f.cause = 4 then fcResident else fcAccess, f.addr, wr⟩

/-- An agent of the fabric: its partition, its master ID and its CLT stream. -/
structure Agent where
  part : Nat
  id : Nat
  stream : Nat
  deriving DecidableEq, Repr

/-- One byte translated for an engine: memory, a remote page, or for a read a register of the partition (R251, R265,
R447). [log 60: DEDUCED] -/
def fabXlate (s : State) (g : Agent) (kind : AccKind) (va : Nat) : Except FabFault Target :=
  match masterXlate s g.part kind va with
  | .error f => .error (f.fab (kind == .write))
  | .ok (.phys pa img) =>
    if (placeOf pa).isMemory || kind != .write then .ok (.phys pa img) else .error ⟨fcAccess, va, true⟩
  | .ok (.remote 2 _ _ _) => .error ⟨fcAccess, va, kind == .write⟩
  | .ok t => .ok t

/-- The outcome of an engine's accesses: a fault leaves what was done before it, and `stall` waits for room
on a connection. -/
inductive Fab (α : Type) where
  | ok (x : α) (s : State)
  | fault (f : FabFault) (s : State)
  | stall

/-- n bytes read by an engine at consecutive virtual addresses modulo 2^48; each byte counts as one access of
`h`. [log 44: DESIGN CHOICE] -/
def fabRead (g : Agent) (s : State) (va : Nat) (h : Hit) : Nat → Fab (List Byte)
  | 0 => .ok [] s
  | n + 1 =>
    match fabXlate s g .read va with
    | .error f => .fault f s
    | .ok (.remote _ _ _ _) => .fault ⟨fcAccess, va, false⟩ s
    | .ok (.phys pa _) =>
      let r := s.eccRead pa g.id h.now
      if !r.2 then .fault ⟨fcUe, va, false⟩ r.1
      else match fabRead g r.1 ((va + 1) % 2 ^ 48) h.next n with
        | .ok bs s' => .ok (s.readByte pa :: bs) s'
        | .fault f s' => .fault f s'
        | .stall => .stall

/-- The bytes of one write beat or granule from an address, of at most n (R256): to the next multiple of 256
in a scratchpad, of 64 elsewhere. -/
def fabChunk (s : State) (g : Agent) (va n : Nat) : Nat :=
  match fabXlate s g .write va with
  | .ok (.phys pa _) =>
    match placeOf pa with
    | .spad _ _ => min n (256 - va % 256)
    | _ => min n (64 - va % 64)
  | _ => min n (64 - va % 64)

/-- One write beat or granule (R130, R256); `h` is what the read-merge of a partly written entry finds, and a write
that this read does not serve fails with the cause of an uncorrectable read (R136, R303). -/
def fabWrite1 (g : Agent) (s : State) (va : Nat) (bs : List Byte) (h : Ecc) : Fab Unit :=
  match fabXlate s g .write va with
  | .error f => .fault f s
  | .ok (.remote rk ci pva pg) =>
    if s.cltRoom g.part ci then .ok () (s.cltWrite g.part ci rk g.stream pva pg 0 bs) else .stall
  | .ok (.phys pa _) =>
    let put (s : State) : Fab Unit :=
      let r := s.writeCells (((List.range bs.length).map (fun i => pa + i)).zip bs) g.id h
      if r.2 then .ok () r.1 else .fault ⟨fcUe, va, true⟩ r.1
    match placeOf pa with
    | .spad k off =>
      match s.windowCheck k off bs.length g.id with
      | some r => .fault ⟨if r = .resident then fcResident else fcWindow, va, true⟩ (s.windowReject k off bs.length g.id r)
      | none => put s
    | _ => put s

/-- Bytes written by an engine at consecutive virtual addresses, beat by beat; the answer is the number of
bytes not written because a connection had no room. Each byte counts as one access of `h`. -/
def fabWrite (g : Agent) (s : State) (va : Nat) (bs : List Byte) (h : Hit) : Nat → Fab (List Byte)
  | 0 => .ok bs s
  | fuel + 1 =>
    if bs.isEmpty then .ok [] s
    else
      let n := fabChunk s g va bs.length
      match fabWrite1 g s va (bs.take n) (h.among n) with
      | .ok _ s' => fabWrite g s' ((va + n) % 2 ^ 48) (bs.drop n) (h.skip n) fuel
      | .fault f s' => .fault f s'
      | .stall => .ok bs s

/-- Whether an engine's stream has CLT writes that are not in place (R223, R337). -/
def State.fabPending (s : State) (g : Agent) : Bool := s.cltPending g.part g.stream 1 none

/-- The DONE action of a descriptor (Q4 of R248, Q1 of R266). -/
def doneMsg (w : Word) (id : Nat) : FlagMsg :=
  let f := field w 7 0
  let u := field w 19 10
  match field w 9 8 with
  | 0 => { target := .bin u f, act := .set, source := id, rank := 0, origin := none }
  | 1 => { target := .cnt u f, act := .inc, source := id, rank := 0, origin := none }
  | _ => { target := .cl u f, act := .set, source := id, rank := 0, origin := none }

/-- Whether a DONE word is a reserved encoding (R232, R249, R267). -/
def State.doneReserved (s : State) (p : Nat) (w : Word) (en : Bool) : Bool :=
  let fw := flagWord w
  if !en then w != 0
  else (w >>> 20) != 0 || fw.cls == 3
    || decide ((match fw.cls with | 0 => 64 | 1 => 16 | _ => 256) ≤ fw.flag)
    || decide ((if fw.cls = 2 then 48 else 768) ≤ fw.unit)
    || s.partOfCluster fw.cluster != some p || (s.cluster fw.cluster).absent

/-- The lowest and the highest byte of a strided range (R100, R250): base, bytes of a run, and counts with
their strides. -/
def byteSpan (base len : Nat) (dims : List (Nat × Int)) : Int × Int :=
  dims.foldl (fun (r : Int × Int) d =>
    let x : Int := (d.1 - 1 : Nat) * d.2
    (r.1 + min 0 x, r.2 + max 0 x)) ((base : Int), (base : Int) + (len : Int) - 1)

/-- A run of bytes at addresses modulo 2^48: its lowest and its highest byte. -/
def wrapRun (lo hi : Int) : Int × Int :=
  let m : Int := 2 ^ 48
  if lo / m = hi / m then (lo % m, hi % m) else (0, m - 1)

/-- The lowest and the highest byte that a strided range touches, each address modulo 2^48 (R100, R250, R251). -/
def byteSpan48 (base len : Nat) (dims : List (Nat × Int)) : Int × Int :=
  let r := byteSpan base len dims
  if 0 ≤ r.1 ∧ r.2 < 2 ^ 48 then r
  else
    let starts := dims.foldl (fun (as : List Int) d =>
      as.flatMap (fun a => (List.range d.1).map (fun (i : Nat) => a + (i : Int) * d.2))) [(base : Int)]
    let runs := starts.map (fun a => wrapRun a (a + (len : Int) - 1))
    runs.foldl (fun (x : Int × Int) y => (min x.1 y.1, max x.2 y.2)) (runs.headD r)

def spansMeet (a b : Int × Int) : Bool := decide (a.1 ≤ b.2 ∧ b.1 ≤ a.2)

end Sys2Proof.Machine
end

