-- ==== Sys2Proof/Machine/Dma.lean ====
section
/-!
DEFINITION. The DMA engines (spec 12): DMAQ and DMAW (R246), descriptors (R247 to R250), COPY, FILL and
COMPARE (R251 to R253), dependence marks and DONE actions (R254, R255), pacing (R257) and mid-stream
faults (R260 to R263).
-/
namespace Sys2Proof.Machine
open Sys2Proof

/-! ### Channels -/

def State.modDma (s : State) (c : Nat) (f : Dma → Dma) : State := s.modCluster c (fun x => { x with dma := f x.dma })
def State.dmaChan (s : State) (c ch : Nat) : DmaChan := (s.cluster c).dma.chan ch
def State.modDmaChan (s : State) (c ch : Nat) (f : DmaChan → DmaChan) : State := s.modDma c (fun d => d.modChan ch f)

/-- The agent of a channel: one ordering stream (R243, R325). -/
def dmaAgent (p c ch : Nat) : Agent := ⟨p, engineId c 0, engineId c 0 + ch * 4096⟩

/-- Whether a channel has a list outstanding (R245, R246). -/
def DmaChan.outstanding (x : DmaChan) : Bool := !x.lists.isEmpty || !x.later.isEmpty

/-- Whether a channel works: not stopped, and no fault found. -/
def DmaChan.works (x : DmaChan) : Bool := !x.stopped && x.fault.isNone

/-- Whether a channel makes no access now: it has stopped, or a map-out holds the partition's requests (R310). -/
def State.dmaHeld (s : State) (p c ch : Nat) : Bool := !(s.dmaChan c ch).works || s.migrating p

/-- A list of the launch in progress changed in its record. -/
def State.modListRun (s : State) (p num : Nat) (f : ListRun → ListRun) : State :=
  s.modPart p (fun q => { q with launch := q.launch.map (fun l =>
    { l with lists := match l.lists[num]? with
        | some x => l.lists.set num (f x)
        | none => l.lists }) })

/-- A list enters a channel's queue, and the launch's record of lists in the order they were queued (R363). -/
def State.listQueue (s : State) (p c ch a : Nat) : State :=
  let num := (((s.part p).launch.map (fun l => l.lists.length)).getD 0)
  (s.modPart p (fun q => { q with launch := q.launch.map (fun l =>
    { l with lists := l.lists ++ [{ id := c * 16 + ch }] }) })).modDmaChan c ch (fun x =>
      { x with lists := x.lists ++ [{ num := num, next := a }] })

/-- Further lists of the schedule enter while places are free (R245). -/
def State.listEnter (s : State) (p c ch : Nat) : Nat → State
  | 0 => s
  | n + 1 =>
    let x := s.dmaChan c ch
    match x.later with
    | [] => s
    | a :: rest =>
      if x.lists.length < 4 then
        ((s.modDmaChan c ch (fun x => { x with later := rest })).listQueue p c ch a).listEnter p c ch n
      else s

/-! ### DMAQ and DMAW -/

/-- R246: DMAQ submits a list through the core's flag queue. -/
def execDmaq (k : CoreId) (c : Fin 16) (s : State) : Out :=
  let i : Instr := .dmaq k c
  let b := instrBytes i
  coreInstr k { bytes := b, pops := 1, illegal := notOnMaltster k }
    (fun s =>
      let a := nth (s.tops k.val 1) 0
      if a.toNat % 64 ≠ 0 then .next (s.raise k.val (alignEv a))
      else match s.enqueueFlag k.val (.dma c.val a) with
        | some s' => .next ((s'.stackEffect k.val .data 1 []).advance k.val b.length)
        | none => .next (s.waitAt k.val i)) s

/-- R246: DMAW completes when the channel has no list outstanding; a list of the core's own that is still in its
flag queue counts (R237, case 4a). [log 63: DEDUCED] -/
def execDmaw (k : CoreId) (c : Fin 16) (s : State) : Out :=
  let i : Instr := .dmaw k c
  let b := instrBytes i
  coreInstr k { bytes := b, illegal := notOnMaltster k }
    (fun s =>
      let queued := (s.core k.val).flg.queue.any (fun e => match e.op with | .dma ch _ => ch == c.val | _ => false)
      if queued || (s.dmaChan (clusterOf k.val) c.val).outstanding then .next (s.waitAt k.val i)
      else .next (s.advance k.val b.length)) s

/-! ### Descriptors -/

/-- A descriptor from its quadwords (R248). -/
def dmaDesc (a : Nat) (q : List Word) : DmaDesc :=
  let w := nth q 3
  let str (i hi lo : Nat) : Int := signedOf 32 (field (nth q i) hi lo)
  { addr := a, id := field (nth q 1) 63 48, op := field w 3 0, src := nth q 0, dst := field (nth q 1) 47 0,
    len0 := field (nth q 2) 23 0 + 1, cnt1 := field (nth q 2) 39 24 + 1, cnt2 := field (nth q 2) 55 40 + 1,
    cnt3 := field (nth q 2) 63 56 + 1, last := bit w 4, waiten := bit w 5, doneen := bit w 6, pace := bit w 7,
    fence := bit w 8, stopne := bit w 9, wcount := field w 31 16, wflag := field w 39 32, wclass := field w 41 40,
    wunit := field w 45 42, wclr := bit w 46, dword := nth q 4,
    sstr := [str 5 31 0, str 5 63 32, str 6 31 0], dstr := [str 6 63 32, str 7 31 0, str 7 63 32] }

/-- Whether a descriptor is a reserved encoding (R249). -/
def State.descReserved (s : State) (p : Nat) (q : List Word) : Bool :=
  let d := dmaDesc 0 q
  let w := nth q 3
  field w 15 10 != 0 || field w 63 47 != 0 || decide (2 < d.op)
    || (d.op != 1 && field d.src 63 48 != 0)
    || (d.op == 1 && d.sstr.any (· != 0))
    || (d.stopne && d.op != 2)
    || (if d.waiten then
          d.wclass == 3 || decide ((match d.wclass with | 0 => 64 | 1 => 16 | _ => 256) ≤ d.wflag)
            || (d.wcount != 0 && d.wclass != 1) || (d.wunit != 0 && d.wclass == 2) || (d.wclr && d.wclass == 1)
        else field w 46 16 != 0)
    || s.doneReserved p d.dword d.doneen

def DmaDesc.total (d : DmaDesc) : Nat := d.len0 * d.cnt1 * d.cnt2 * d.cnt3

/-- The byte ranges of source and destination (R250). -/
def DmaDesc.srcSpan (d : DmaDesc) : Int × Int := byteSpan48 d.src.toNat d.len0 ([d.cnt1, d.cnt2, d.cnt3].zip d.sstr)
def DmaDesc.dstSpan (d : DmaDesc) : Int × Int := byteSpan48 d.dst d.len0 ([d.cnt1, d.cnt2, d.cnt3].zip d.dstr)

/-- The element coordinates of visit v (R251). -/
def DmaDesc.coords (d : DmaDesc) (v : Nat) : Nat × Nat × Nat × Nat :=
  let r := v / d.len0
  (v % d.len0, r % d.cnt1, r / d.cnt1 % d.cnt2, r / (d.cnt1 * d.cnt2))

def strided (base : Nat) (str : List Int) (w : Nat) (x : Nat × Nat × Nat × Nat) : Nat :=
  toTwos w ((base : Int) + (x.2.1 : Int) * str.getD 0 0 + (x.2.2.1 : Int) * str.getD 1 0
    + (x.2.2.2 : Int) * str.getD 2 0 + (x.1 : Int))

/-- The source and destination addresses of visit v (R251); a host bus address has 64 bits. -/
def DmaDesc.srcAt (d : DmaDesc) (v : Nat) : Nat := strided d.src.toNat d.sstr (if d.srcHost then 64 else 48) (d.coords v)
def DmaDesc.dstAt (d : DmaDesc) (v : Nat) : Nat := strided d.dst d.dstr (if d.dstHost then 64 else 48) (d.coords v)

/-- A fault that an engine has met: for an uncorrectable error, with the unit of the detection that the access has
just made (R260, R389). -/
def FabFault.dma (f : FabFault) (s : State) : DmaFault :=
  { faddr := f.addr, cause := f.cause, wr := f.wr,
    unit := if f.cause = fcUe then s.detections.getLast?.map (fun d => (d.ukind, d.unit)) else none }

/-- A fault of the fetch of the descriptor at an address (R262). -/
def DmaFault.inList (f : DmaFault) (a : Nat) : DmaFault := { f with list := true, daddr := a }

/-- A fault at visit v of a descriptor, as DMA_FREC records it (R262). -/
def DmaDesc.faultAt (d : DmaDesc) (v : Nat) (f : DmaFault) : DmaFault :=
  let x := d.coords v
  { f with daddr := d.addr, descid := d.id, p := x.1, i1 := x.2.1, i2 := x.2.2.1, i3 := x.2.2.2 }

/-- R246: a list may lie in device memory, in the cluster's tun or in a scratchpad of the cluster. -/
def listPlace (c : Nat) (pa : Nat) : Bool :=
  match placeOf pa with
  | .mem _ => true
  | .tun c' _ => c' == c
  | .spad k _ => clusterOf k == c
  | _ => false

/-- The 64 bytes of a descriptor (R246, R247, R264); each byte counts as one access of `h`. -/
def fetchDesc (g : Agent) (s : State) (c a : Nat) (h : Hit) : Fab (List Word) :=
  match fabXlate s g .read a with
  | .error f => .fault f s
  | .ok (.remote _ _ _ _) => .fault ⟨fcAccess, a, false⟩ s
  | .ok (.phys pa _) =>
    if !listPlace c pa then .fault ⟨fcAccess, a, false⟩ s
    else match fabRead g s a h 64 with
      | .ok bs s' => .ok ((List.range 8).map (fun i => leWord ((bs.drop (8 * i)).take 8))) s'
      | .fault f s' => .fault f s'
      | .stall => .stall

/-- A burst (R247): descriptors up to the end of a 512-byte block or to LAST, the next address, whether LAST was
met, and the fault that ended it. -/
def fetchBurst (g : Agent) (c : Nat) (s : State) (a : Nat) (h : Hit) :
    Nat → List DmaRun × Nat × Bool × Option DmaFault × State
  | 0 => ([], a, false, none, s)
  | n + 1 =>
    match fetchDesc g s c a h with
    | .stall => ([], a, false, none, s)
    | .fault f s' => ([], a, false, some ((f.dma s').inList a), s')
    | .ok q s' =>
      let d := dmaDesc a q
      let bad (sub : Nat) : DmaFault := { faddr := a, cause := fcDescriptor, daddr := a, descid := d.id, sub := sub }
      if s'.descReserved g.part q then ([], a, false, some (bad 0x10), s')
      else if d.op ≠ 1 ∧ spansMeet d.srcSpan d.dstSpan then ([], a, false, some (bad 0x13), s')
      else
        let a' := (a + 64) % 2 ^ 48
        if d.last then ([{ desc := d }], a', true, none, s')
        else if a' % 512 = 0 then ([{ desc := d }], a', false, none, s')
        else
          let r := fetchBurst g c s' a' (h.skip 64) n
          ({ desc := d } :: r.1, r.2)

/-- The list that the run at position i of a channel belongs to. -/
def DmaChan.listOf (x : DmaChan) (i : Nat) : Option DmaList :=
  x.lists[((x.descs.take i).filter (fun r => r.desc.last)).length]?

/-- A list of the launch in progress is reported FAILED (R262). -/
def State.listFailed (s : State) (p : Nat) (f : DmaFault) : State :=
  match f.num with
  | some n => s.modListRun p n (fun q => { q with ended := true, failed := true, descid := f.descid })
  | none => s

/-- R262: an engine records its first fault. A host address that does not answer has no CAUSE and is not recorded.
[log 59: DEDUCED] -/
def Dma.record (d : Dma) (ch : Nat) (f : DmaFault) : Dma :=
  if d.flt || f.cause == 0 then d else { d with flt := true, frec := f, frecCh := ch }

/-- A fault found in a channel, in the list of the run at position i, is recorded (R260, R262); the list that an
uncorrectable error ends is FAILED whatever stops the launch first. [log 59: DEDUCED] -/
def State.dmaFault (s : State) (c ch i : Nat) (f : DmaFault) : State :=
  let x := s.dmaChan c ch
  let f' : DmaFault :=
    { f with num := if (x.descs[i]?).any (fun r => r.desc.cmd.isSome) then none else (x.listOf i).map (fun l => l.num) }
  let s1 := (s.modDma c (fun d => d.record ch f')).modDmaChan c ch (fun x => { x with fault := some f' })
  match s.partOfCluster c with
  | some p => if f'.cause = fcUe then s1.listFailed p f' else s1
  | none => s1

/-- DMA_DESCRIPTOR_FETCH (R247, R249, R250): the channel fetches a burst of its first list that is not wholly
fetched, once 2 or fewer fetched descriptors remain unstarted. `h` is what its reads find, each byte being one access. -/
def execDmaDescriptorFetch (c : ClusterId) (ch : Fin 16) (h : Hit) (s : State) : Out :=
  let x := s.dmaChan c.val ch.val
  match s.partOfCluster c.val, x.lists.find? (fun l => !l.fetchedLast) with
  | some p, some l =>
    if s.dmaHeld p c.val ch.val || decide (2 < (x.descs.filter (fun r => !r.started)).length) then .next s
    else
      let r := fetchBurst (dmaAgent p c.val ch.val) c.val s l.next h 8
      let s1 := r.2.2.2.2.modDmaChan c.val ch.val (fun x =>
        { x with descs := x.descs ++ r.1,
                 lists := x.lists.map (fun y =>
                   if y == l then { y with next := r.2.1, fetchedLast := r.2.2.1 } else y) })
      match r.2.2.2.1 with
      | none => .next s1
      | some f => .next (s1.dmaFault c.val ch.val (x.descs.length + r.1.length) f)
  | _, _ => .next s

/-! ### Starting -/

/-- The target of a WAITEN mark (R248, R254). -/
def DmaDesc.waitTarget (d : DmaDesc) (c : Nat) : FlagTarget :=
  match d.wclass with
  | 0 => .bin (coreAt c d.wunit) d.wflag
  | 1 => .cnt (coreAt c d.wunit) d.wflag
  | _ => .cl c d.wflag

/-- Whether a WAITEN mark's condition holds (R254). -/
def State.waitHolds (s : State) (c : Nat) (d : DmaDesc) : Bool :=
  !d.waiten || (match d.waitTarget c with
    | .cnt k f => decide (d.wcount ≤ s.counter k f)
    | t => s.flagGet t)

/-- A run whose last source byte has been read; FILL reads none (R252, R254). -/
def DmaRun.wasRead (r : DmaRun) : Bool := r.desc.op == 1 || decide (r.desc.total ≤ r.readN)

/-- A run whose every write is in place. -/
def DmaRun.wasDone (r : DmaRun) : Bool := decide (r.desc.total ≤ r.doneN)

/-- Whether everything but a WAITEN mark, and for FENCE the engine's writes through remote pages, lets the channel
start its next descriptor (R254, R257). -/
def DmaChan.mayStart (x : DmaChan) (r : DmaRun) : Bool :=
  let before := x.descs.takeWhile (fun r => r.started)
  x.works && before.all DmaRun.wasRead && before.all (fun b => !(b.desc.stopne && b.nmis != 0))
    && (!r.desc.fence || before.all DmaRun.wasDone) && !(r.desc.pace && x.held)

/-- The first unstarted run changed. -/
def modFirst (p : DmaRun → Bool) (f : DmaRun → DmaRun) : List DmaRun → List DmaRun
  | [] => []
  | r :: rs => if p r then f r :: rs else r :: modFirst p f rs

/-- The list of the run at position i has begun (R363). -/
def State.listBegun (s : State) (c ch i : Nat) : State :=
  let x := s.dmaChan c ch
  match s.partOfCluster c, x.listOf i with
  | some p, some l =>
    if (x.descs[i]?).any (fun r => r.desc.cmd.isSome) then s
    else (s.modDmaChan c ch (fun x => { x with lists := x.lists.map (fun y => if y == l then { y with begun := true } else y) })).modListRun
      p l.num (fun r => { r with begun := true })
  | _, _ => s

/-- A channel's writes through remote pages are sent: nothing of them waits for more bytes (R222, R327). -/
def State.dmaFlush (s : State) (c ch : Nat) : State :=
  match s.partOfCluster c with
  | some p => s.cltFlushStream p (dmaAgent p c ch).stream
  | none => s

/-- Whether a channel has writes through remote pages that are not acknowledged, and so not in place (R222, R337). -/
def State.dmaUnacked (s : State) (c ch : Nat) : Bool :=
  match s.partOfCluster c with
  | some p => (s.dmaFlush c ch).fabPending (dmaAgent p c ch)
  | none => false

/-- DMA_DESCRIPTOR_START (R254): the next descriptor starts; a FENCE waits until every earlier write of the channel
is in place. -/
def execDmaDescriptorStart (c : ClusterId) (ch : Fin 16) (s : State) : Out :=
  let x := s.dmaChan c.val ch.val
  match x.nextDesc with
  | none => .next s
  | some r =>
    if !x.mayStart r || !s.waitHolds c.val r.desc then .next s
    else if r.desc.fence && s.dmaUnacked c.val ch.val then .next (s.dmaFlush c.val ch.val)
    else
      let i := (x.descs.takeWhile (fun r => r.started)).length
      let s1 := if r.desc.waiten && r.desc.wclr then (s.flagPut (r.desc.waitTarget c.val) false).listBegun c.val ch.val i else s
      .next (s1.modDmaChan c.val ch.val (fun x =>
        let rs := modFirst (fun r => !r.started) (fun r => { r with started := true, fresh := !x.mism }) x.descs
        ({ x with descs := rs } : DmaChan).hold))

/-- DMA_STALL (R255): a wait that has not been satisfied for the timeout is a mid-stream fault. No access is
refused, so the recorded address and coordinates are free values. [log 59: DEDUCED] -/
def execDmaStall (c : ClusterId) (ch : Fin 16) (s : State) : Out :=
  let x := s.dmaChan c.val ch.val
  match x.nextDesc with
  | none => .next s
  | some r =>
    if !x.mayStart r || s.waitHolds c.val r.desc then .next s
    else
      let d := s.drawFree
      let e := d.2.drawFree
      .next (e.2.dmaFault c.val ch.val (x.descs.takeWhile (fun r => r.started)).length
        { faddr := field d.1 47 0, cause := fcStallIndex, daddr := r.desc.addr, descid := r.desc.id,
          p := field e.1 23 0, i1 := field e.1 39 24, i2 := field e.1 55 40, i3 := field e.1 63 56 })

/-! ### Moving bytes -/

/-- The byte of visit v read from the source or, for COMPARE, the destination: a virtual address of the
partition or a host bus address (R251, R451). A host address that does not answer has no CAUSE. -/
def dmaByte (g : Agent) (s : State) (host : Bool) (a : Nat) (h : Hit) : Except (FabFault × State) (Byte × State) :=
  if host then
    if Config.hostReachable (s.part g.part).hostPort a then
      let d := s.drawFree
      .ok (BitVec.ofNat 8 d.1.toNat, d.2)
    else .error (⟨0, a, false⟩, s)
  else match fabRead g s a h 1 with
    | .ok bs s' => .ok (bs.headD 0, s')
    | .fault f s' => .error (f, s')
    | .stall => .error (⟨fcAccess, a, false⟩, s)

/-- n bytes read from visit v on; each counts as one access of `h`. -/
def dmaReadN (g : Agent) (d : DmaDesc) (s : State) (v : Nat) (h : Hit) : Nat → Except (DmaFault × State) (List Byte × State)
  | 0 => .ok ([], s)
  | n + 1 =>
    match dmaByte g s d.srcHost (d.srcAt v) h with
    | .error (f, s') => .error (d.faultAt v (f.dma s'), s')
    | .ok (b, s') =>
      match dmaReadN g d s' (v + 1) h.next n with
      | .error e => .error e
      | .ok (bs, s'') => .ok (b :: bs, s'')

/-- One write beat or granule at visit v, from the bytes available (R256): its length, and none where too few
bytes are available or a connection has no room. Each byte counts as one access of `h`. -/
def dmaWrite1 (g : Agent) (d : DmaDesc) (s : State) (v avail : Nat) (bytes : Nat → List Byte) (h : Hit) :
    Except (DmaFault × State) (Option (Nat × State)) :=
  let a := d.dstAt v
  let left := d.len0 - v % d.len0
  if d.dstHost then
    let n := min left (64 - a % 64)
    if avail < n then .ok none
    else if hostAnswers (s.part g.part).hostPort a n then
      .ok (some (n, s.send (.hostWrite (s.part g.part).hostPort a (bytes n))))
    else .error (d.faultAt v (FabFault.dma ⟨0, a, true⟩ s), s)
  else
    let n := fabChunk s g a left
    if avail < n then .ok none
    else match fabWrite1 g s a (bytes n) (h.among n) with
      | .ok _ s' => .ok (some (n, s'))
      | .fault f s' => .error (d.faultAt v (f.dma s'), s')
      | .stall => .ok none

/-- Up to n write beats from visit v on: how many bytes are in place then. -/
def dmaWriteN (g : Agent) (d : DmaDesc) (buf : Option (List Byte)) (s : State) (v : Nat) (h : Hit) :
    Nat → Except (DmaFault × State) (Nat × State)
  | 0 => .ok (v, s)
  | n + 1 =>
    if d.total ≤ v then .ok (v, s)
    else
      let bytes (m : Nat) : List Byte :=
        match buf with
        | some b => b.take m
        | none => (List.range m).map (fun i => BitVec.ofNat 8 (d.src.toNat / 2 ^ (8 * ((v % d.len0 + i) % 8))))
      match dmaWrite1 g d s v ((buf.map List.length).getD d.total) bytes h with
      | .error e => .error e
      | .ok none => .ok (v, s)
      | .ok (some (m, s')) => dmaWriteN g d (buf.map (List.drop m)) s' (v + m) (h.skip m) n

/-- Slots of the shared buffer that a channel's bytes fill (R244). -/
def DmaChan.slots (x : DmaChan) : Nat := ceilDiv ((x.descs.map (fun r => r.buf.length)).foldl (· + ·) 0) 256

/-- Whether a channel may fill its slots up to a number: 4 are guaranteed, at most 128 are held, and 192 are
shared (R244). -/
def Dma.slotsAllow (d : Dma) (ch n : Nat) : Bool :=
  decide (n ≤ 128)
    && decide ((((List.range 16).map (fun i => (if i = ch then n else (d.chan i).slots) - 4)).foldl (· + ·) 0) ≤ 192)

/-- The read engine's part of COPY: n further bytes of the oldest started copy that is not wholly read. [log 58: DESIGN CHOICE] -/
def State.dmaCopyRead (s : State) (p c ch n : Nat) (h : Hit) : State :=
  let x := s.dmaChan c ch
  match x.descs.find? (fun r => r.started && !r.wasRead) with
  | none => s
  | some r =>
    let m := min n (r.desc.total - r.readN)
    let used := (x.descs.map (fun r => r.buf.length)).foldl (· + ·) 0
    if r.desc.op ≠ 0 || m = 0 || !(s.cluster c).dma.slotsAllow ch (ceilDiv (used + m) 256) then s
    else match dmaReadN (dmaAgent p c ch) r.desc s r.readN h m with
      | .error (f, s') => s'.dmaFault c ch (x.descs.takeWhile (fun r => !(r.started && !r.wasRead))).length f
      | .ok (bs, s') =>
        (s'.listBegun c ch (x.descs.takeWhile (fun r => !(r.started && !r.wasRead))).length).modDmaChan c ch (fun x =>
          let rs := modFirst (fun r => r.started && !r.wasRead)
            (fun r => { r with readN := r.readN + m, buf := r.buf ++ bs }) x.descs
          { x with descs := rs })

/-- The write engine's part of COPY and FILL: n further beats of the oldest descriptor that is not in place. [log 58: DESIGN CHOICE] -/
def State.dmaWriteBeats (s : State) (p c ch op n : Nat) (h : Hit) : State :=
  let x := s.dmaChan c ch
  match x.descs.find? (fun r => !r.wasDone) with
  | none => s
  | some r =>
    if !r.started || r.desc.op ≠ op then s
    else match dmaWriteN (dmaAgent p c ch) r.desc (if op = 1 then none else some r.buf) s r.doneN h n with
      | .error (f, s') => s'.dmaFault c ch (x.descs.takeWhile DmaRun.wasDone).length f
      | .ok (v, s') =>
        if v = r.doneN then s'
        else
          (s'.listBegun c ch (x.descs.takeWhile DmaRun.wasDone).length).modDmaChan c ch (fun x =>
            let rs := modFirst (fun r => !r.wasDone)
              (fun r => { r with doneN := v, buf := r.buf.drop (v - r.doneN) }) x.descs
            { x with descs := rs })

/-- COPY (R251, R256): the channel's read engine reads nr bytes, then its write engine puts nw write beats in
place. `h` is what its reads find and `w` what the read-merges of its beats find (R136), each byte being one access.
[log 58: DESIGN CHOICE] -/
def execCopy (c : ClusterId) (ch : Fin 16) (nr nw : Nat) (h w : Hit) (s : State) : Out :=
  match s.partOfCluster c.val with
  | none => .next s
  | some p =>
    if s.dmaHeld p c.val ch.val then .next s
    else
      let s1 := s.dmaCopyRead p c.val ch.val nr h
      if !(s1.dmaChan c.val ch.val).works then .next s1
      else .next (s1.dmaWriteBeats p c.val ch.val 0 nw w)

/-- DMA_FILL (R252): n write beats of the pattern. -/
def execDmaFill (c : ClusterId) (ch : Fin 16) (n : Nat) (w : Hit) (s : State) : Out :=
  match s.partOfCluster c.val with
  | none => .next s
  | some p => if s.dmaHeld p c.val ch.val then .next s else .next (s.dmaWriteBeats p c.val ch.val 1 n w)

/-- What a COMPARE has found over some visits: differing bytes, the first in visit order, the lowest. -/
structure CmpAcc where
  n : Nat := 0
  first : Option Nat := none
  lowest : Option Nat := none
  deriving DecidableEq, Repr

/-- n bytes compared from visit v on (R253); a visit makes two accesses of `h`, source first. [log 60: DEDUCED] -/
def dmaCompareN (g : Agent) (d : DmaDesc) (s : State) (v : Nat) (h : Hit) (acc : CmpAcc) :
    Nat → Except (DmaFault × State) (CmpAcc × State)
  | 0 => .ok (acc, s)
  | n + 1 =>
    match dmaByte g s d.srcHost (d.srcAt v) h with
    | .error (f, s') => .error (d.faultAt v (f.dma s'), s')
    | .ok (x, s1) =>
      match dmaByte g s1 d.dstHost (d.dstAt v) h.next with
      | .error (f, s') => .error (d.faultAt v (f.dma s'), s')
      | .ok (y, s2) =>
        let a := d.dstAt v
        let acc' : CmpAcc := if x = y then acc else
          { n := acc.n + 1, first := (match acc.first with | none => some a | r => r),
            lowest := some (match acc.lowest with | none => a | some b => min a b) }
        dmaCompareN g d s2 (v + 1) (h.skip 2) acc' n

/-- DMA_COMPARE (R253): n further bytes of the oldest started compare. -/
def execDmaCompare (c : ClusterId) (ch : Fin 16) (n : Nat) (h : Hit) (s : State) : Out :=
  let x := s.dmaChan c.val ch.val
  match s.partOfCluster c.val, x.descs.find? (fun r => r.started && !r.wasRead) with
  | some p, some r =>
    let m := min n (r.desc.total - r.readN)
    if s.dmaHeld p c.val ch.val || r.desc.op ≠ 2 || m = 0 then .next s
    else match dmaCompareN (dmaAgent p c.val ch.val) r.desc s r.readN h {} m with
      | .error (f, s') =>
        .next (s'.dmaFault c.val ch.val (x.descs.takeWhile (fun r => !(r.started && !r.wasRead))).length f)
      | .ok (acc, s') =>
        let i := (x.descs.takeWhile (fun r => !(r.started && !r.wasRead))).length
        .next ((s'.listBegun c.val ch.val i).modDmaChan c.val ch.val (fun x =>
          let rs := modFirst (fun r => r.started && !r.wasRead)
            (fun r => { r with readN := r.readN + m, doneN := r.readN + m, nmis := r.nmis + acc.n,
                               lowest := (match r.lowest, acc.lowest with
                                 | some a, some b => some (min a b)
                                 | some a, none => some a
                                 | none, b => b) }) x.descs
          { x with nmis := satAdd 0xFFFFFFFF x.nmis acc.n, mism := x.mism || acc.n != 0,
                   cmpa := if r.fresh && r.nmis == 0 then acc.first.getD x.cmpa else x.cmpa,
                   descs := rs }))
  | _, _ => .next s

/-! ### Completion -/

/-- The command a source and tag name, still without a final reply. -/
def State.dmaCmd (s : State) (t : CmdSrc × Nat) : Option Cmd := s.cmdOf t.1 t.2

/-- A part of a DMA_COPY, FILL or COMPARE command is in place; with the last part the command completes
(R452). -/
def State.dmaPartDone (s : State) (r : DmaRun) (t : CmdSrc × Nat) : State :=
  match s.dmaCmd t with
  | none => s
  | some c =>
    let c' := { c with parts := c.parts - 1, diff := c.diff + r.nmis,
                       first := (match c.first, r.lowest with
                         | some a, some b => some (min a b)
                         | some a, none => some a
                         | none, b => b) }
    let s1 := s.modCmd c (fun _ => c')
    if c'.parts ≠ 0 then s1
    else s1.finish c' { c2 := if c.op = 0x42 then place c'.diff 40 0 else 0,
                        c3 := if c.op = 0x42 then BitVec.ofNat 64 (c'.first.getD 0) else 0 }

/-- The descriptors left when a list ends early (R253): those of the list, up to its LAST, go. -/
def dropList (rs : List DmaRun) : List DmaRun := (rs.dropWhile (fun r => !r.desc.last)).tail

/-- DMA_DESCRIPTOR_COMPLETE (R253, R255, R257): every write of the channel's oldest descriptor is in place: its
DONE action is performed, LEVEL rises for a PACE descriptor, and a list ends with its last descriptor. -/
def execDmaDescriptorComplete (c : ClusterId) (ch : Fin 16) (s : State) : Out :=
  let x := s.dmaChan c.val ch.val
  match s.partOfCluster c.val, x.descs with
  | some p, r :: rest =>
    if !x.works || !r.started || !r.wasDone || !r.wasRead then .next s
    else
      let g := dmaAgent p c.val ch.val
      let s0 := s.cltFlushStream p g.stream
      if s0.fabPending g then .next s0
      else
        let s1 := s0.listBegun c.val ch.val 0
        let s2 := if r.desc.doneen then s1.flagSend (doneMsg r.desc.dword g.id) else s1
        let ovf : Bool := r.desc.pace && decide (65535 ≤ (s2.dmaChan c.val ch.val).level)
        let s3 := s2.modDma c.val (fun d => { d with pover := d.pover || ovf })
        match r.desc.cmd with
        | some t =>
          .next ((s3.modDmaChan c.val ch.val (fun x => { x with descs := rest })).dmaPartDone r t)
        | none =>
          let ends : Bool := r.desc.last || (r.desc.stopne && r.nmis != 0)
          let s4 := s3.modDmaChan c.val ch.val (fun x =>
            let y : DmaChan :=
              { x with level := if r.desc.pace then satAdd 65535 x.level 1 else x.level,
                       descs := if ends && !r.desc.last then dropList rest else rest,
                       lists := if ends then x.lists.tail else x.lists }
            y.hold)
          match ends, x.lists.head? with
          | true, some l =>
            .next ((s4.modListRun p l.num (fun q => { q with ended := true })).listEnter p c.val ch.val 4)
          | _, _ => .next s4
  | _, _ => .next s

/-! ### Faults (R260 to R263) -/

/-- The channels of a partition's clusters that run a command stop (R263, R452). -/
def State.dmaCmdStop (s : State) (p : Nat) (t : CmdSrc × Nat) : State :=
  s.mapPartClusters p (fun x =>
    { x with dma := { x.dma with chans := x.dma.chans.map (fun e =>
        if e.2.descs.any (fun r => r.desc.cmd == some t) then (e.1, { e.2 with descs := [], fault := none }) else e) } })

/-- The RESULT of the newest record of a unit (R401); zero where there is none. -/
def State.unitResult (s : State) (ukind unit : Nat) : Nat :=
  match (s.log.records.filter (fun e => field (nth e.2 0) 50 48 == ukind && field (nth e.2 3) 15 0 == unit)).getLast? with
  | some e => field (nth e.2 0) 55 52
  | none => 0

/-- A DMA command that an uncorrectable error of a unit stopped completes FAILED_FAULT with cause HWFAULT and the
kiln-test result as SUB (R364, R413). -/
def State.hwFinish (s : State) (c : Cmd) (result : Nat) : State := s.finish c { status := 0x20, cause := 0x0B, sub := result }

/-- Whether an error of a unit waits for its handling or is under it (R390). -/
def State.unitPending (s : State) (p ukind unit : Nat) : Bool :=
  s.detections.any (fun d => d.ukind == ukind && d.unit == unit)
    || (s.part p).handling.any (fun h => h.det.ukind == ukind && h.det.unit == unit)

/-- The parts of a DMA command stop for a fault (R263, R413): a fault of software, or a host address that does not
answer, fails the command; an uncorrectable error leaves it outstanding until the unit's kiln test has ended. -/
def State.dmaCmdFault (s : State) (p : Nat) (t : CmdSrc × Nat) (f : DmaFault) : State :=
  let s1 := s.dmaCmdStop p t
  match s1.dmaCmd t with
  | none => s1
  | some cmd =>
    if f.cause ≠ fcUe then s1.finish cmd { status := 0x20, cause := if f.cause = 0 then 0 else 2, sub := f.cause }
    else
      match f.unit with
      | none => s1.hwFinish cmd 0
      | some u =>
        if s1.unitPending p u.1 u.2 then s1.modCmd cmd (fun c => { c with hw := some u })
        else s1.hwFinish cmd (s1.unitResult u.1 u.2)

/-- The fault that counts as the first of a DMA command's: of those its channels hold, the one of the lowest-numbered
cluster (R452). [log 130: DESIGN CHOICE] -/
def State.dmaCmdFirst (s : State) (p : Nat) (t : CmdSrc × Nat) (f : DmaFault) : DmaFault :=
  ((s.part p).clusters.findSome? (fun c =>
    let x := s.dmaChan c 0
    if x.descs.any (fun r => r.desc.cmd == some t) then x.fault else none)).getD f

/-- MID_STREAM_FAULT (R260, R262, R263, R452): a channel has found a fault, which its engine's record holds: the
launch aborts, or the command that the channel runs fails. -/
def execMidStreamFault (c : ClusterId) (ch : Fin 16) (s : State) : Out :=
  let x := s.dmaChan c.val ch.val
  match s.partOfCluster c.val, x.fault with
  | some p, some f =>
    let s1 := s.modDma c.val (fun d => d.record ch.val f)
    match (x.descs.head?).bind (fun r => r.desc.cmd) with
    | some t => .next (s1.dmaCmdFault p t (s1.dmaCmdFirst p t f))
    | none =>
      .next (((s1.listFailed p f).modDmaChan c.val ch.val (fun x => { x with fault := none, stopped := true })).abortLaunch p
        { cause := 2, sub := f.cause, hw := f.cause == fcUe })
  | _, _ => .next s

end Sys2Proof.Machine
end

