-- ==== Sys2Proof/Machine/VectorOps.lean ====
section
/-!
DEFINITION. The arithmetic of the vector stream unit (spec 05): the operation descriptor (R97, R98), the
checks of R100, exact results (R101 to R103, R450), reductions, scans and segments (R104 to R108).
-/
namespace Sys2Proof.Machine

/-! ### The operation descriptor (R97, R98) -/

/-- The descriptor's header. -/
structure VHead where
  op : Nat
  rm : Nat
  nosat : Bool
  axis : Bool
  seg : Bool
  segm : Bool
  resv : Bool
  rows : Nat
  cols : Nat
  tid : Nat
  u0 : Nat
  v0 : Nat
  nsegm1 : Nat
  deriving DecidableEq, Repr

/-- A stream descriptor; `raw` is all of it. -/
structure VStream where
  raw : Nat
  base : Nat
  fcode : Nat
  src : Nat
  xpose : Bool
  rstride : Int
  anchor : Int
  resv : Nat
  deriving DecidableEq, Repr

/-- Bits [hi:lo] of a natural number. -/
def nbits (x hi lo : Nat) : Nat := x / 2 ^ lo % 2 ^ (hi + 1 - lo)

def vhead (bs : List Byte) : VHead :=
  let x := leNat (bs.take 16)
  { op := nbits x 7 0, rm := nbits x 10 8, nosat := x.testBit 11, axis := x.testBit 12, seg := x.testBit 13,
    segm := x.testBit 14, resv := x.testBit 15, rows := nbits x 31 16 + 1, cols := nbits x 47 32 + 1,
    tid := nbits x 63 48, u0 := nbits x 87 64, v0 := nbits x 111 88, nsegm1 := nbits x 127 112 }

/-- Stream i of the descriptor: 0 is D, 1 to 4 are S0 to S3. -/
def vstream (bs : List Byte) (i : Nat) : VStream :=
  let x := leNat ((bs.drop (16 + 16 * i)).take 16)
  { raw := x, base := nbits x 47 0, fcode := nbits x 51 48, src := nbits x 54 52, xpose := x.testBit 55,
    rstride := signedOf 24 (nbits x 79 56), anchor := signedOf 16 (nbits x 95 80), resv := nbits x 127 96 }

def VStream.fmt (x : VStream) : Fmt := (Fmt.ofCode x.fcode).getD .fp32

/-- Row byte count of n elements (R30). -/
def Fmt.packedBytes (f : Fmt) (n : Nat) : Nat :=
  match f with
  | .e3m2 | .e2m3 => 3 * ceilDiv n 4
  | .e2m1 | .int4 => ceilDiv n 2
  | f => f.width / 8 * n

inductive VKind where
  | elem | red | scan
  deriving DecidableEq, Repr

/-- The kind of an OP and its number of operand streams; none for a reserved code (R102). -/
def vop (op : Nat) : Option (VKind × Nat) :=
  match op with
  | 0x01 | 0x09 | 0x0A | 0x0D | 0x0E | 0x0F | 0x10 | 0x11 => some (.elem, 1)
  | 0x02 | 0x03 | 0x04 | 0x07 | 0x08 | 0x0C => some (.elem, 2)
  | 0x05 | 0x0B => some (.elem, 3)
  | 0x06 => some (.elem, 4)
  | 0x20 | 0x21 | 0x22 | 0x23 | 0x24 => some (.red, 1)
  | 0x30 | 0x31 | 0x32 | 0x33 => some (.scan, 1)
  | _ => none

/-- The streams of an operation: D, its operands, and S1 of a segmented one. -/
def VHead.uses (h : VHead) (i : Nat) : Bool :=
  match vop h.op with
  | none => false
  | some (_, n) => i == 0 || decide (1 ≤ i ∧ i ≤ n) || (i == 2 && h.seg)

def VHead.nseg (h : VHead) : Nat := h.nsegm1 + 1

/-- Rows and columns of stream i (R97, R104, R107). -/
def VHead.dims (h : VHead) (i : Nat) : Nat × Nat :=
  match vop h.op with
  | some (.red, _) =>
    if i = 0 then
      if h.seg then (1, if h.segm then h.nseg else h.rows * h.cols)
      else if h.axis then (1, h.cols) else (h.rows, 1)
    else if i = 2 && h.seg && h.segm then (1, h.nseg) else (h.rows, h.cols)
  | _ => if i = 2 && h.seg && h.segm then (1, h.nseg) else (h.rows, h.cols)

/-- Stream i as the operation reads it: a tile register holds segment lengths in its row 0, whatever XPOSE says
(R107). -/
def VHead.view (h : VHead) (i : Nat) (x : VStream) : VStream :=
  if i = 2 && h.seg && h.segm && x.src == 3 then { x with xpose := false } else x

/-- Whether the elements of a stream come from a protected array: memory or the operand cache (R110, R136). -/
def VStream.arrayReads (x : VStream) : Nat := if x.src = 1 ∨ x.src = 2 then 1 else 0

/-- The lowest and the highest byte that an element of a stream of r × c elements touches (R99, R100).
[log 37: DEDUCED] -/
def VStream.span (x : VStream) (r c : Nat) : Int × Int :=
  let n := if x.xpose then c else r
  let len : Nat := if x.xpose then r * (x.fmt.width / 8) else ceilDiv (c * x.fmt.width) 8
  let far : Int := (n - 1 : Nat) * x.rstride
  ((x.base : Int) + min 0 far, (x.base : Int) + max 0 far + len - 1)

/-! ### Issue-time checks (R100) -/

/-- Causes of VSU_FINFO. -/
def vReserved : Nat := 0x10
def vFormat : Nat := 0x11
def vShape : Nat := 0x12
def vOverlap : Nat := 0x13
def vSeglen : Nat := 0x14
def vPending : Nat := 0x15

def vHeaderStream : Nat := 5
def vCacheStream : Nat := 6
def vFetchStream : Nat := 7

/-- Whether the header is refused with RESERVED. -/
def VHead.reserved (h : VHead) : Bool :=
  match vop h.op with
  | none => true
  | some (k, _) =>
    h.resv || decide (5 ≤ h.rm) || (h.seg && (h.axis || k == .elem)) || (h.segm && !h.seg)
      || (decide (h.nsegm1 ≠ 0) && !(h.seg && h.segm))

/-- Whether stream i is refused with RESERVED. -/
def VStream.reservedIn (h : VHead) (i : Nat) (x : VStream) : Bool :=
  if x.src = 0 then x.raw != 0 || h.uses i
  else
    !h.uses i || decide (4 < x.src) || x.resv != 0 || (Fmt.ofCode x.fcode).isNone
      || (i == 0 && decide (3 ≤ x.src))
      || decide (2 ^ (match x.src with | 1 => 48 | 2 => 16 | 3 => 3 | _ => min x.fmt.width 32) ≤ x.base)

/-- Whether stream i is refused with FORMAT. -/
def VStream.formatIn (h : VHead) (i : Nat) (x : VStream) : Bool :=
  x.src != 0 &&
    ((i == 0 && x.fmt == .e8m0 && !(match vop h.op with | some (.elem, _) => true | _ => false))
      || (i == 2 && h.seg && !(x.fmt == .int32 || (!h.segm && (x.fmt == .int8 || x.fmt == .int4))))
      || (x.xpose && decide (x.fmt.width < 8)) || (x.src == 4 && x.fmt == .afx128))

/-- Whether stream i is refused with SHAPE. An operand-cache stream that reaches below offset 0 lies beyond the
cache too. [log 128: DEDUCED] -/
def VStream.shapeIn (h : VHead) (i : Nat) (y : VStream) : Bool :=
  let x := h.view i y
  let (r, c) := h.dims i
  let lh := x.span r c
  let m := x.fmt.width / 8
  match x.src with
  | 3 =>
    let (rr, cc) := if x.xpose then (c, r) else (r, c)
    decide (64 < rr) || decide (64 < x.fmt.packedBytes cc)
  | 1 | 2 =>
    decide (lh.1 < 0) || decide ((if x.src = 1 then 2 ^ 48 - 1 else 65535 : Int) < lh.2)
      || (decide (8 ≤ x.fmt.width) && (x.base % m != 0 || x.rstride % m != 0))
  | _ => false

/-- Whether input stream i meets D's byte range other than as a legal exact alias (OVERLAP). -/
def VStream.overlapIn (h : VHead) (i : Nat) (x d : VStream) : Bool :=
  let elem : Bool := match vop h.op with | some (.elem, _) => true | _ => false
  let a := x.span (h.dims i).1 (h.dims i).2
  let b := d.span (h.dims 0).1 (h.dims 0).2
  x.src != 0 && x.src == d.src && decide (a.1 ≤ b.2) && decide (b.1 ≤ a.2)
    && !(elem && x.base == d.base && x.rstride == d.rstride && x.xpose == d.xpose && x.fmt.width == d.fmt.width)

/-- The checks of R100 on a descriptor's bytes: the cause and the stream of the first that fails. -/
def vecCheck (bs : List Byte) : Option (Nat × Nat) :=
  let h := vhead bs
  let st := (List.range 5).map (fun i => (i, vstream bs i))
  let first (cause : Nat) (p : Nat → VStream → Bool) : Option (Nat × Nat) :=
    (st.find? (fun e => p e.1 e.2)).map (fun e => (cause, e.1))
  if h.reserved then some (vReserved, vHeaderStream)
  else
    (first vReserved (fun i x => x.reservedIn h i)).orElse fun _ =>
    (first vFormat (fun i x => x.formatIn h i)).orElse fun _ =>
    (first vShape (fun i x => x.shapeIn h i)).orElse fun _ =>
    first vOverlap (fun i x => i != 0 && x.overlapIn h i (vstream bs 0))

/-! ### Exact results (R101 to R103, R450) -/

/-- An exact result: a value, or a real number that need not be dyadic. -/
inductive Exact where
  | val (v : Val)
  | real (neg : Bool) (x : Mag)
  deriving DecidableEq, Repr

/-- An exact result with the invalid and division-by-zero conditions of the operation. -/
structure ExactOut where
  x : Exact
  inv : Bool := false
  dz : Bool := false
  deriving DecidableEq, Repr

/-- An output: its code, its conditions, and the ORIGIN of a NaN written (R114): 0 propagated, 1 generated,
2 overflow. -/
structure VOut where
  code : Nat
  conds : Conds
  nan : Option Nat
  deriving DecidableEq, Repr

def nanOut (inv : Bool) : ExactOut := { x := .val (.nan false), inv := inv }

/-- The larger and the smaller of two values (R102). -/
def vmax (a b : Val) : Val :=
  if a.isNan || b.isNan then .nan false
  else if a.lt b then b
  else if b.lt a then a
  else match a, b with
    | .zero x, .zero y => .zero (x && y)
    | _, _ => a

def vmin (a b : Val) : Val :=
  if a.isNan || b.isNan then .nan false
  else if a.lt b then a
  else if b.lt a then b
  else match a, b with
    | .zero x, .zero y => .zero (x || y)
    | _, _ => a

def Val.abs (v : Val) : Val := if v.neg then v.flip else v

/-- The division of two values that are not NaN (R103). -/
def vdiv (a b : Val) : ExactOut :=
  let n := a.neg != b.neg
  match a, b with
  | .inf _, .inf _ | .zero _, .zero _ => nanOut true
  | .inf _, _ => { x := .val (.inf n) }
  | _, .inf _ | .zero _, _ => { x := .val (.zero n) }
  | _, .zero _ => { x := .val (.inf n), dz := true }
  | x, y => { x := .real n (.quot x.dy.m.natAbs y.dy.m.natAbs (x.dy.e - y.dy.e)) }

/-- √a and 1/√a. -/
def vsqrt (a : Val) : ExactOut :=
  match a with
  | .nan _ => nanOut false
  | .zero n => { x := .val (.zero n) }
  | .inf false => { x := .val (.inf false) }
  | .inf true => nanOut true
  | .fin d => if d.m < 0 then nanOut true else { x := .real false (.root d.m.natAbs 1 d.e) }

def vrsqrt (a : Val) : ExactOut :=
  match a with
  | .nan _ => nanOut false
  | .zero n => { x := .val (.inf n), dz := true }
  | .inf false => { x := .val (.zero false) }
  | .inf true => nanOut true
  | .fin d => if d.m < 0 then nanOut true else { x := .real false (.root 1 d.m.natAbs (-d.e)) }

/-- The integer a dyadic number is; none for a broken one. -/
def Dy.int? (d : Dy) : Option Int :=
  if 0 ≤ d.e then some (d.m * 2 ^ d.e.toNat)
  else if d.m % 2 ^ (-d.e).toNat = 0 then some (d.m / 2 ^ (-d.e).toNat) else none

/-- 2^a. An integer exponent beyond every format's range is cut at ±200,000, where its conversion is the
same. [log 42: DEDUCED] -/
def vexp2 (a : Val) : ExactOut :=
  match a with
  | .nan _ => nanOut false
  | .zero _ => { x := .val (.fin ⟨1, 0⟩) }
  | .inf false => { x := .val (.inf false) }
  | .inf true => { x := .val (.zero false) }
  | .fin d =>
    match d.int? with
    | some i => { x := .val (.fin ⟨1, max (-200000) (min 200000 i)⟩) }
    | none => { x := .real false (.pow2 d.m d.e) }

/-- log₂ a. [log 42: DEDUCED] -/
def vlog2 (a : Val) : ExactOut :=
  match a with
  | .nan _ => nanOut false
  | .zero _ => { x := .val (.inf true), dz := true }
  | .inf false => { x := .val (.inf false) }
  | .inf true => nanOut true
  | .fin d =>
    if d.m < 0 then nanOut true
    else
      let k := log2 d.m.natAbs
      let i : Int := (k : Int) + d.e
      if d.m.natAbs = 2 ^ k then { x := .val (Val.ofDy ⟨i, 0⟩) }
      else { x := .real (decide (i < 0)) (.lg d.m.natAbs d.e) }

/-- A sum of terms with the sign rule of R450. -/
def vsum (rm : RMode) (ts : List Val) (inv : Bool) : ExactOut :=
  let s := Val.sum ts
  if inv then nanOut true else { x := .val (s.1.zeroSign rm), inv := s.2 }

/-- Whether SEL takes a: c ≠ 0, a NaN counting as nonzero (R102). -/
def selTakes (c : Val) : Bool :=
  match c with
  | .zero _ => false
  | _ => true

/-- The exact result of an element-wise operation on its input values. NEG of the zero of an integer or AFX128
stream is −0, as of any zero. [log 41: DEDUCED; log 128: DEDUCED] -/
def exactOp (op : Nat) (rm : RMode) (vs : List Val) : ExactOut :=
  let v (i : Nat) : Val := vs.getD i (.zero false)
  let a := v 0
  let b := v 1
  match op with
  | 0x01 => { x := .val a }
  | 0x09 => { x := .val a.abs }
  | 0x0A => { x := .val a.flip }
  | 0x0B => { x := .val (if selTakes (v 2) then a else b) }
  | _ =>
    if vs.any Val.isNan then nanOut false
    else match op with
      | 0x02 => vsum rm [a, b] false
      | 0x03 => vsum rm [a, b.flip] false
      | 0x04 => { x := .val (a.mul b).1, inv := (a.mul b).2 }
      | 0x05 => vsum rm [(a.mul b).1, v 2] (a.mul b).2
      | 0x06 => vsum rm [(a.mul b).1, ((v 2).mul (v 3)).1] ((a.mul b).2 || ((v 2).mul (v 3)).2)
      | 0x07 => { x := .val (vmax a b) }
      | 0x08 => { x := .val (vmin a b) }
      | 0x0C => vdiv a b
      | 0x0D => vsqrt a
      | 0x0E => vrsqrt a
      | 0x0F => vdiv (.fin ⟨1, 0⟩) a
      | 0x10 => vexp2 a
      | _ => vlog2 a

/-- The one conversion into D's format (R101 step 3) with its conditions and ORIGIN. -/
def roundOut (f : Fmt) (anchor : Int) (r : Rnd) (e : ExactOut) : VOut :=
  let o := match e.x with
    | .val v => encodeVal f anchor r v
    | .real n x => encodeReal f anchor r n x
  let isn : Bool := match e.x with | .val v => v.isNan | .real _ _ => false
  let origin : Nat := if isn then (if e.inv then 1 else 0) else if o.2.of then 2 else 1
  { code := o.1, conds := o.2.or { nv := e.inv, dz := e.dz },
    nan := if isNanCode f o.1 then some origin else none }

/-- Whether a sum is formed modulo 2^128 (R101): the operands and D are AFX128 with one anchor. -/
def wraps (op : Nat) (d : VStream) (ins : List VStream) : Bool :=
  ([0x02, 0x03, 0x20, 0x30, 0x31] : List Nat).contains op && d.fmt == .afx128
    && ins.all (fun x => x.fmt == .afx128 && x.anchor == d.anchor)

/-- One output of an element-wise operation from its input codes. -/
def elemOut (op : Nat) (d : VStream) (ins : List VStream) (r : Rnd) (cs : List Nat) : VOut :=
  let vs := (ins.zip cs).map (fun e => decodeCode e.1.fmt e.1.anchor e.2)
  let pick : Nat := if op = 0x0B && !selTakes (vs.getD 2 (.zero false)) then 1 else 0
  let src := ins.getD pick d
  let code := cs.getD pick 0
  let same : Bool := src.fmt == d.fmt && (src.fmt != .afx128 || src.anchor == d.anchor)
  let isn := isNanCode src.fmt code
  let sgn : Nat := match d.fmt.fp with | some _ => 2 ^ (d.fmt.width - 1) | none => 0
  if wraps op d ins then
    let a := signedOf 128 (cs.getD 0 0)
    let b := signedOf 128 (cs.getD 1 0)
    { code := toTwos 128 (if op = 0x02 then a + b else a - b), conds := {}, nan := none }
  else if same && (op == 0x01 || op == 0x0B) then { code := code, conds := {}, nan := if isn then some 0 else none }
  else if same && isn && op == 0x09 then { code := if sgn ≤ code then code - sgn else code, conds := {}, nan := some 0 }
  else if same && isn && op == 0x0A then
    { code := if sgn = 0 then code else if sgn ≤ code then code - sgn else code + sgn, conds := {}, nan := some 0 }
  else roundOut d.fmt d.anchor r (exactOp op r.rm vs)

/-! ### Reductions and scans (R104 to R108) -/

/-- The maximum or minimum of a nonempty list. -/
def vfold (f : Val → Val → Val) : List Val → Val
  | [] => .nan false
  | v :: vs => vs.foldl f (if v.isNan then .nan false else v)

/-- The exact result over the terms of one output (R104, R105). -/
def exactFold (op : Nat) (vs : List Val) : ExactOut :=
  match op with
  | 0x20 | 0x30 | 0x31 => let s := Val.sum vs; { x := .val s.1, inv := s.2 }
  | 0x24 => let s := Val.sum (vs.map (fun v => (v.mul v).1)); { x := .val s.1, inv := s.2 }
  | 0x22 => { x := .val (vfold vmin vs) }
  | 0x23 => { x := .val (vfold vmax (vs.map Val.abs)) }
  | _ => { x := .val (vfold vmax vs) }

/-- The identity of an operation in D's format (R108). -/
def identityCode (op : Nat) (f : Fmt) : Nat :=
  let most (neg : Bool) : Nat :=
    match f.fp with
    | some p => p.sign neg + (if p.inf then p.infCode else p.largest)
    | none => if neg then 2 ^ (f.width - 1) else 2 ^ (f.width - 1) - 1
  match op with
  | 0x21 | 0x32 | 0x33 => most true
  | 0x22 => most false
  | _ => 0

/-- One output of a reduction or scan: none of terms gives the identity (R108). -/
def foldOut (op : Nat) (d s0 : VStream) (r : Rnd) (cs : Option (List Nat)) : VOut :=
  match cs with
  | none => { code := identityCode op d.fmt, conds := {}, nan := none }
  | some cs =>
    if wraps op d [s0] then
      { code := toTwos 128 (cs.foldl (fun (a : Int) c => a + signedOf 128 c) 0), conds := {}, nan := none }
    else roundOut d.fmt d.anchor r (exactFold op (cs.map (decodeCode s0.fmt s0.anchor)))

/-- Whether a scan is exclusive. -/
def exclusive (op : Nat) : Bool := op == 0x31 || op == 0x33

/-- The terms of every output of a scan over one run. -/
def scanTerms (op : Nat) (cs : List Nat) : List (Option (List Nat)) :=
  (List.range cs.length).map (fun i =>
    if exclusive op then (if i = 0 then none else some (cs.take i)) else some (cs.take (i + 1)))

/-- The segment lengths of head flags: a segment starts at element 0 and at every nonzero flag (R106). -/
def headLens : List Bool → List Nat
  | [] => []
  | _ :: fs =>
    match fs, headLens fs with
    | [], _ => [1]
    | g :: _, ns => if g then 1 :: ns else (ns.headD 0 + 1) :: ns.tail

/-- The check of segment lengths against the element count (R106): the index of the first length at which
the running total goes wrong, or their number when the total falls short. [log 37: DEDUCED] -/
def lensFault (total : Nat) : Nat → Nat → List Int → Option Nat
  | i, sum, [] => if sum < total then some i else none
  | i, sum, l :: ls =>
    if l < 0 ∨ total < sum + l.toNat then some i else lensFault total (i + 1) (sum + l.toNat) ls

/-- A list cut into consecutive pieces of the lengths given. -/
def pieces : List Nat → List Nat → List (List Nat)
  | [], _ => []
  | n :: ns, l => l.take n :: pieces ns (l.drop n)

/-- Every output of a reduction or scan without segments, with its position in D. -/
def plainTerms (h : VHead) (red : Bool) (codes : List Nat) : List ((Nat × Nat) × Option (List Nat)) :=
  let at_ (r c : Nat) : Nat := codes.getD (r * h.cols + c) 0
  let lines : List (List Nat) :=
    if h.axis then (List.range h.cols).map (fun c => (List.range h.rows).map (fun r => at_ r c))
    else (List.range h.rows).map (fun r => (List.range h.cols).map (fun c => at_ r c))
  let idx := (List.range lines.length).zip lines
  if red then idx.map (fun e => (if h.axis then (0, e.1) else (e.1, 0), some e.2))
  else idx.flatMap (fun e =>
    ((List.range e.2.length).zip (scanTerms h.op e.2)).map (fun t => (if h.axis then (t.1, e.1) else (e.1, t.1), t.2)))

/-- Every output of a segmented reduction or scan (R107). -/
def segTerms (h : VHead) (red : Bool) (codes lens : List Nat) : List ((Nat × Nat) × Option (List Nat)) :=
  let ps := pieces lens codes
  if red then ((List.range ps.length).zip ps).map (fun e => ((0, e.1), if e.2.isEmpty then none else some e.2))
  else
    let ts := ps.flatMap (scanTerms h.op)
    ((List.range ts.length).zip ts).map (fun e => ((e.1 / h.cols, e.1 % h.cols), e.2))

end Sys2Proof.Machine
end

