-- ==== Sys2Proof/Machine/Engines.lean ====
section
/-!
DEFINITION. The gather, select, sampler and fingerprint engines (spec 13, R264 to R286).
-/
namespace Sys2Proof.Machine
open Sys2Proof

/-! ### Submission and waiting (R264) -/

def State.eng (s : State) (c e : Nat) : Eng := (s.cluster c).eng e
def State.modEng (s : State) (c e : Nat) (f : Eng → Eng) : State := s.modCluster c (fun x => x.setEng e (f (x.eng e)))

/-- The agent of an engine (R265). -/
def engAgent (p c e : Nat) : Agent := ⟨p, engineId c e, engineId c e⟩

/-- R264: ENGQ submits a descriptor through the core's flag queue; issue stalls while the engine's queue is full. -/
def execEngq (k : CoreId) (e : EngKind) (s : State) : Out :=
  let i : Instr := .engq k e
  let b := instrBytes i
  coreInstr k { bytes := b, pops := 1, illegal := notOnMaltster k }
    (fun s =>
      let a := nth (s.tops k.val 1) 0
      if a.toNat % 64 ≠ 0 then .next (s.raise k.val (alignEv a))
      else if 16 ≤ (s.eng (clusterOf k.val) (engNum e)).queue.length then .next (s.waitAt k.val i)
      else match s.enqueueFlag k.val (.eng (engNum e) a) with
        | some s' => .next ((s'.stackEffect k.val .data 1 []).advance k.val b.length)
        | none => .next (s.waitAt k.val i)) s

/-- R264: ENGW completes when the engine holds no descriptor of the core; one that is still in the core's flag
queue counts. [log 63: DEDUCED] -/
def execEngw (k : CoreId) (e : EngKind) (s : State) : Out :=
  let i : Instr := .engw k e
  let b := instrBytes i
  coreInstr k { bytes := b, illegal := notOnMaltster k }
    (fun s =>
      let queued := (s.core k.val).flg.queue.any (fun x => match x.op with | .eng n _ => n == engNum e | _ => false)
      let held := (s.eng (clusterOf k.val) (engNum e)).queue.any (fun x => x.core == k.val)
      if queued || held then .next (s.waitAt k.val i) else .next (s.advance k.val b.length)) s

/-! ### Descriptors (R266, R267, R272, R277, R280, R283) -/

/-- The fields of the descriptors. -/
structure EngDesc where
  q : List Word
  deriving DecidableEq, Repr

def EngDesc.f (d : EngDesc) (i hi lo : Nat) : Nat := field (nth d.q i) hi lo
def EngDesc.op (d : EngDesc) : Nat := d.f 0 3 0
def EngDesc.doneen (d : EngDesc) : Bool := bit (nth d.q 0) 4
def EngDesc.id (d : EngDesc) : Nat := d.f 0 31 16
/-- An address field [47:0]. -/
def EngDesc.addr (d : EngDesc) (i : Nat) : Nat := d.f i 47 0

/-- Whether bits [63:lo] of a quadword are not all zero. -/
def EngDesc.high (d : EngDesc) (i lo : Nat) : Bool := nth d.q i >>> lo != 0

/-- Reserved encodings of the gather engine (R272). -/
def gatherReserved (d : EngDesc) : Bool :=
  d.high 4 48 || d.high 7 40 || decide (d.f 7 39 0 % 16 ≠ 0) || d.high 0 52 ||
    (if d.op = 0 then
      d.high 2 48 || d.high 3 48 || d.f 5 31 24 != 0 || d.high 6 40
        || decide (d.f 5 23 0 = 0) || decide (d.f 5 23 0 % 16 ≠ 0)
    else
      d.f 0 51 48 != 0 || d.high 2 12 || d.high 3 16 || d.high 5 33 || nth d.q 6 != 0
        || decide (d.f 5 15 0 % 16 ≠ 0) || decide (d.f 5 32 16 % 16 ≠ 0) || decide (d.f 5 32 16 < 16)
        || decide (65536 < d.f 5 15 0 + d.f 5 32 16))

/-- The key format of the select engine (R277). -/
def selFmt (d : EngDesc) : Option Fmt :=
  match Fmt.ofCode (d.f 0 35 32) with
  | some .fp32 => some .fp32
  | some .fp16 => some .fp16
  | some .bf16 => some .bf16
  | some .e4m3 => some .e4m3
  | some .e5m2 => some .e5m2
  | some .int32 => some .int32
  | some .int8 => some .int8
  | _ => none

def EngDesc.desc (d : EngDesc) : Bool := bit (nth d.q 0) 36
def EngDesc.wval (d : EngDesc) : Bool := bit (nth d.q 0) 37
/-- Rows, keys per row and k (R277). -/
def EngDesc.rows (d : EngDesc) : Nat := d.f 5 15 0 + 1
def EngDesc.n (d : EngDesc) : Nat := d.f 5 31 16 + 1
def EngDesc.k (d : EngDesc) : Nat := d.f 5 47 32 + 1
def EngDesc.outN (d : EngDesc) : Nat := if d.op = 0 then d.n else d.k

/-- Reserved encodings of the select engine (R277). -/
def selectReserved (d : EngDesc) : Bool :=
  (selFmt d).isNone || d.high 0 54 || d.high 2 48 || d.high 3 48 || d.high 4 48 || d.high 5 48 || d.high 7 48
    || (match d.op with
        | 0 => d.f 5 47 32 != 0
        | 1 => decide (min d.n 1024 < d.k)
        | _ => decide (min d.n 8 < d.k))
    || (if d.op = 2 then !d.desc || d.wval
        else d.f 0 53 38 != 0 || nth d.q 7 != 0 || (!d.wval && nth d.q 4 != 0))

/-- The logit format of the sampler (R280). -/
def smpFmt (d : EngDesc) : Option Fmt :=
  match Fmt.ofCode (d.f 0 51 48) with
  | some .fp32 => some .fp32
  | some .fp16 => some .fp16
  | some .bf16 => some .bf16
  | _ => none

def sampleReserved (d : EngDesc) : Bool :=
  (smpFmt d).isNone || d.high 0 53 || d.high 2 48 || d.high 3 48 || d.high 4 48 || d.high 5 36 || d.high 6 40
    || nth d.q 7 != 0

def fprReserved (d : EngDesc) : Bool :=
  d.high 0 33 || d.high 2 48 || d.high 3 48 || d.high 4 40 || d.f 4 39 0 == 0
    || (!bit (nth d.q 0) 32 && nth d.q 5 != 0) || (d.op == 1 && nth d.q 6 != 0) || nth d.q 7 != 0

/-- The number of operations of an engine. -/
def engOps (e : Nat) : Nat := match e with | 1 => 2 | 2 => 3 | 3 => 1 | _ => 3

/-- RESERVED (R267). -/
def State.engReserved (s : State) (p e : Nat) (d : EngDesc) : Bool :=
  decide (engOps e ≤ d.op) || d.f 0 15 5 != 0 || s.doneReserved p (nth d.q 1) d.doneen
    || (match e with
        | 1 => gatherReserved d
        | 2 => selectReserved d
        | 3 => sampleReserved d
        | _ => fprReserved d)

def keyBytes (f : Option Fmt) : Nat := ((f.map Fmt.width).getD 8) / 8

/-- ALIGN (R267). -/
def engMisaligned (e : Nat) (d : EngDesc) : Bool :=
  let bad (i n : Nat) : Bool := decide (d.addr i % n ≠ 0)
  match e with
  | 1 => bad 4 16 || (d.op == 0 && bad 3 4)
  | 2 => bad 2 (keyBytes (selFmt d)) || bad 3 4 || (d.op == 2 && (bad 4 4 || bad 7 4))
  | 3 => bad 2 (keyBytes (smpFmt d)) || bad 3 32 || bad 4 8
  | _ => bad 3 8

/-- Input and output byte ranges, by virtual address (R100, R267). -/
def engSpans (e : Nat) (d : EngDesc) : List (Int × Int) × List (Int × Int) :=
  match e with
  | 1 =>
    let out := byteSpan48 (d.addr 4) (if d.op = 0 then d.f 5 23 0 else d.f 5 32 16)
      [((if d.op = 0 then d.f 0 51 32 else d.f 0 47 32) + 1, (d.f 7 39 0 : Int))]
    if d.op = 0 then
      (byteSpan48 (d.addr 3) (4 * (d.f 0 51 32 + 1)) []
        :: (if d.f 5 63 32 = 0 then [] else [byteSpan48 (d.addr 2) (d.f 5 23 0) [(d.f 5 63 32, (d.f 6 39 0 : Int))]]), [out])
    else ([], [out])
  | 2 =>
    let kb := keyBytes (selFmt d)
    let row (i n : Nat) : Int × Int := byteSpan48 (d.addr i) n [(d.rows, (d.f 6 63 32 : Int))]
    ([byteSpan48 (d.addr 2) (d.n * kb) [(d.rows, (d.f 6 31 0 : Int))]],
     row 3 (4 * d.outN) :: ((if d.op = 2 then [row 4 (4 * d.k), byteSpan48 (d.addr 7) (4 * d.n) []]
       else if d.wval then [row 4 (kb * d.outN)] else [])))
  | 3 =>
    ([byteSpan48 (d.addr 2) ((d.f 5 35 16 + 1) * keyBytes (smpFmt d)) [(d.rows, (d.f 6 39 0 : Int))],
      byteSpan48 (d.addr 3) (32 * d.rows) []], [byteSpan48 (d.addr 4) (8 * d.rows) []])
  | _ => ([byteSpan48 (d.addr 2) (d.f 4 39 0) []], [byteSpan48 (d.addr 3) 8 []])

/-- The DESCRIPTOR sub-cause of a descriptor; none when it passes (R267). [log 65: DEDUCED] -/
def State.engCheck (s : State) (p e : Nat) (d : EngDesc) : Option Nat :=
  if s.engReserved p e d then some 0x10
  else if engMisaligned e d then some 0x11
  else
    let sp := engSpans e d
    if sp.2.any (fun o => sp.1.any (fun i => spansMeet i o)) then some 0x13 else none

/-- A fault of a queued descriptor as the FREC registers record it (R268). [log 65: DEDUCED] -/
def EngEntry.fault (x : EngEntry) (item : Nat) (f : FabFault) : EngFault :=
  { faddr := f.addr, cause := f.cause, core := localIndex x.core, wr := f.wr, daddr := x.addr,
    descid := match x.words with
      | some q => EngDesc.id ⟨q⟩
      | none => 0
    item := item }

/-- R268: an engine has found a fault: it works no further, and its FREC registers hold the first. -/
def Eng.found (f : EngFault) (x : Eng) : Eng :=
  { x with fault := some f, flt := true, frec := if x.flt then x.frec else f }

/-- ENGINE_DESCRIPTOR_FETCH (R264, R267): the engine fetches and checks the descriptor at the head of its
queue. -/
def execEngineDescriptorFetch (c : ClusterId) (e : EngKind) (h : Hit) (s : State) : Out :=
  let n := engNum e
  let x := s.eng c.val n
  match s.partOfCluster c.val, x.queue with
  | some p, y :: rest =>
    if y.words.isSome || x.fault.isSome then .next s
    else match fetchDesc (engAgent p c.val n) s c.val y.addr h with
      | .stall => .next s
      | .fault f s' => .next (s'.modEng c.val n (Eng.found (y.fault 0 f)))
      | .ok q s' =>
        let y' := { y with words := some q }
        let s1 := s'.modEng c.val n (fun x => { x with queue := y' :: rest })
        match s1.engCheck p n ⟨q⟩ with
        | none => .next s1
        | some sub =>
          .next (s1.modEng c.val n (Eng.found { y'.fault 0 ⟨fcDescriptor, y.addr, false⟩ with sub := sub }))
  | _, _ => .next s

/-! ### Operations -/

/-- What an operation computes: its outputs, and the fault after them. -/
structure EngRes where
  outs : List EngOut
  fail : Option EngFault
  st : State
  h : Hit

/-- n bytes that must lie in the cluster's tun or a scratchpad of the cluster (R272, R277). -/
def localRead (g : Agent) (c : Nat) (s : State) (va n : Nat) (h : Hit) : Fab (List Byte) :=
  match fabXlate s g .read va with
  | .ok (.phys pa _) =>
    if listPlace c pa && !decide (pa < memEnd) then fabRead g s va h n else .fault ⟨fcAccess, va, false⟩ s
  | .ok (.remote _ _ _ _) => .fault ⟨fcAccess, va, false⟩ s
  | .error f => .fault f s

/-- R273: output rows of ROWS from row n on. An index outside the table is no access, so its recorded address
is a free value. -/
def rowsFrom (g : Agent) (c : Nat) (x : EngEntry) (d : EngDesc) (s : State) (n : Nat) (h : Hit) : Nat → EngRes
  | 0 => ⟨[], none, s, h⟩
  | left + 1 =>
    let dst := (d.addr 4 + n * d.f 7 39 0) % 2 ^ 48
    let rowb := d.f 5 23 0
    match localRead g c s ((d.addr 3 + 4 * n) % 2 ^ 48) 4 h with
    | .stall => ⟨[], none, s, h⟩
    | .fault f s' => ⟨[], some (x.fault n f), s', h⟩
    | .ok ib s1 =>
      let i := signedOf 32 (leNat ib)
      if i = -1 then
        let r := rowsFrom g c x d s1 (n + 1) (h.skip 4) left
        { r with outs := ⟨n, dst, List.replicate rowb 0⟩ :: r.outs }
      else if i < 0 ∨ (d.f 5 63 32 : Int) ≤ i then
        let fv := s1.drawFree
        ⟨[], some (x.fault n ⟨fcStallIndex, field fv.1 47 0, false⟩), fv.2, h⟩
      else match fabRead g s1 ((d.addr 2 + i.toNat * d.f 6 39 0) % 2 ^ 48) (h.skip 4) rowb with
        | .stall => ⟨[], none, s1, h⟩
        | .fault f s' => ⟨[], some (x.fault n f), s', h⟩
        | .ok bs s2 =>
          let r := rowsFrom g c x d s2 (n + 1) (h.skip (4 + rowb)) left
          { r with outs := ⟨n, dst, bs⟩ :: r.outs }

/-- n bytes at consecutive physical addresses, checked against the partition (R18, R274). -/
def physRead (g : Agent) (s : State) (pa : Nat) (h : Hit) : Nat → Fab (List Byte)
  | 0 => .ok [] s
  | n + 1 =>
    match placeFault s g.part false .read pa pa with
    | some f => .fault (f.fab false) s
    | none =>
      if !(placeOf pa).isMemory then .fault ⟨fcAccess, pa, false⟩ s
      else
        let r := s.eccRead pa g.id h.now
        if !r.2 then .fault ⟨fcUe, pa, false⟩ r.1
        else match physRead g r.1 (pa + 1) h.next n with
          | .ok bs s' => .ok (s.getByte pa :: bs) s'
          | .fault f s' => .fault f s'
          | .stall => .stall

def Cask.addr (k : Cask) (d : Nat) : Nat := k.base + d * 0x10000

/-- R274: output rows of CASKS from row n on; `idx` are IDX0 to IDX3 and `held` NCASK of the slot. [log 65: DEDUCED] -/
def casksFrom (g : Agent) (k : Cask) (x : EngEntry) (d : EngDesc) (idx : List Nat) (held : Nat) (s : State) (n : Nat)
    (h : Hit) : Nat → EngRes
  | 0 => ⟨[], none, s, h⟩
  | left + 1 =>
    let pos := d.f 3 15 0 + n
    let dst := (d.addr 4 + n * d.f 7 39 0) % 2 ^ 48
    if held ≤ pos then
      let fv := s.drawFree
      ⟨[], some (x.fault n ⟨fcStallIndex, field fv.1 47 0, false⟩), fv.2, h⟩
    else match physRead g s (k.addr (idx.getD (pos / 16384) 0) + 4 * (pos % 16384)) h 4 with
      | .stall => ⟨[], none, s, h⟩
      | .fault f s' => ⟨[], some (x.fault n f), s', h⟩
      | .ok ib s1 =>
        match physRead g s1 (k.addr (leNat ib) + d.f 5 15 0) (h.skip 4) (d.f 5 32 16) with
        | .stall => ⟨[], none, s1, h⟩
        | .fault f s' => ⟨[], some (x.fault n f), s', h⟩
        | .ok bs s2 =>
          let r := casksFrom g k x d idx held s2 (n + 1) (h.skip (4 + d.f 5 32 16)) left
          { r with outs := ⟨n, dst, bs⟩ :: r.outs }

/-- R274, R288, R289: CASKS looks its sequence up by slot. -/
def casksCompute (g : Agent) (x : EngEntry) (d : EngDesc) (h : Hit) (s : State) : EngRes :=
  let k := (s.part g.part).cask
  match physRead g s (k.seqtab + 64 * d.f 2 11 0) h 64 with
  | .stall => ⟨[], none, s, h⟩
  | .fault f s' => ⟨[], some (x.fault 0 f), s', h⟩
  | .ok bs s1 =>
    let w (i : Nat) : Word := leWord ((bs.drop (8 * i)).take 8)
    if field (w 0) 33 32 ≠ 1 then
      let fv := s1.drawFree
      ⟨[], some (x.fault 0 ⟨fcStallIndex, field fv.1 47 0, false⟩), fv.2, h⟩
    else
      casksFrom g k x d [field (w 3) 31 0, field (w 3) 63 32, field (w 4) 31 0, field (w 4) 63 32]
        (field (w 1) 48 32) s1 0 (h.skip 64) (d.f 0 47 32 + 1)

/-- Whether key a comes strictly before key b (R276): every NaN is above +∞. -/
def keyLt (a b : Val) : Bool := if a.isNan then false else if b.isNan then true else a.lt b

/-- A key placed among ordered keys, after every equal one (R276). -/
def keyInsert (desc : Bool) (x : Nat × Val) : List (Nat × Val) → List (Nat × Val)
  | [] => [x]
  | y :: ys =>
    if (if desc then keyLt y.2 x.2 else keyLt x.2 y.2) then x :: y :: ys else y :: keyInsert desc x ys

/-- The indices of keys in order (R276, R278). -/
def keyOrder (desc : Bool) (ks : List Val) : List Nat :=
  (((List.range ks.length).zip ks).foldl (fun acc x => keyInsert desc x acc) []).map (·.1)

/-- The codes of n elements of a whole number of bytes each. -/
def elemCodes (w n : Nat) (bs : List Byte) : List Nat := (List.range n).map (fun i => leNat ((bs.drop (w * i)).take w))

/-- The slots a token's experts get (R278): the slots and the counts after it. -/
def routeToken (cap : Nat) : List Nat → List Nat → List Nat × List Nat
  | [], cs => ([], cs)
  | e :: es, cs =>
    let n := cs.getD e 0
    if n < cap then
      let r := routeToken cap es (cs.set e (n + 1))
      (n :: r.1, r.2)
    else
      let r := routeToken cap es cs
      (0xFFFFFFFF :: r.1, r.2)

/-- Output rows of the select engine from row r on; `cs` are ROUTE's counts. -/
def selectFrom (g : Agent) (c : Nat) (x : EngEntry) (d : EngDesc) (cs : List Nat) (s : State) (r : Nat) (h : Hit) :
    Nat → EngRes
  | 0 =>
    if d.op = 2 then ⟨[⟨r - 1, d.addr 7, cs.flatMap (leBytes 4)⟩], none, s, h⟩ else ⟨[], none, s, h⟩
  | left + 1 =>
    let f := (selFmt d).getD .fp32
    let w := keyBytes (selFmt d)
    match localRead g c s ((d.addr 2 + r * d.f 6 31 0) % 2 ^ 48) (w * d.n) h with
    | .stall => ⟨[], none, s, h⟩
    | .fault fl s' => ⟨[], some (x.fault r fl), s', h⟩
    | .ok bs s1 =>
      let codes := elemCodes w d.n bs
      let order := (keyOrder d.desc (codes.map (decodeCode f 0))).take d.outN
      let orow := (d.addr 3 + r * d.f 6 63 32) % 2 ^ 48
      let vrow := (d.addr 4 + r * d.f 6 63 32) % 2 ^ 48
      let route := if d.op = 2 then routeToken (d.f 0 53 38 + 1) order cs else ([], cs)
      let vals : List EngOut :=
        if d.op = 2 then [⟨r, vrow, route.1.flatMap (leBytes 4)⟩]
        else if d.wval then [⟨r, vrow, order.flatMap (fun i => leBytes w (codes.getD i 0))⟩] else []
      let rest := selectFrom g c x d route.2 s1 (r + 1) (h.skip (w * d.n)) left
      { rest with outs := (⟨r, orow, order.flatMap (leBytes 4)⟩ :: vals) ++ rest.outs }

/-! ### The sampler (R281) -/

/-- A row record (R280). -/
structure SampleRow where
  seed : Word
  temp : Val
  topp : Val
  topk : Nat
  pos : Nat
  deriving DecidableEq, Repr

def sampleRow (bs : List Byte) : SampleRow :=
  let f (lo n : Nat) : Nat := leNat ((bs.drop lo).take n)
  { seed := BitVec.ofNat 64 (f 0 8), temp := valFp32 (f 8 4), topp := valFp32 (f 12 4), topk := f 16 3, pos := f 19 3 }

/-- Whether a row is invalid (R281). -/
def SampleRow.bad (r : SampleRow) (ls : List Val) : Bool :=
  ls.any Val.isNan || r.temp.isNan || r.temp.isInf || r.temp.lt (.zero false) || r.topp.isNan
    || !(Val.zero false).lt r.topp || decide (ls.length < r.topk)

/-- An exact result rounded once to FP32, as a value. -/
def rounded32 (e : Exact) : Val :=
  valFp32 (match e with
    | .val v => (roundFp32 v).1
    | .real n x => (encodeReal .fp32 0 .rne n x).1)

/-- The largest of a list of values, −∞ for none. -/
def valMax (vs : List Val) : Val := vs.foldl (fun m v => if m.lt v then v else m) (.inf true)

/-- w of R281 for x under the maximum m. -/
def sampleWeight (m x : Val) : Nat :=
  match m with
  | .inf _ => if x = m then 2 ^ 40 else 0
  | _ =>
    match x with
    | .inf _ => 0
    | _ =>
      let d := x.dy.add m.dy.neg
      if d.m = 0 then 2 ^ 40
      else
        let v := (rounded32 (.real false (.expn d.m.natAbs d.e))).dy
        (floorQuot v.m.natAbs 1 (v.e + 40)).1

/-- Indices with their weights placed by weight descending, ties to the lower index. -/
def weightInsert (x : Nat × Nat) : List (Nat × Nat) → List (Nat × Nat)
  | [] => [x]
  | y :: ys => if y.2 < x.2 then x :: y :: ys else y :: weightInsert x ys

def byWeight (ws : List (Nat × Nat)) : List (Nat × Nat) := ws.foldl (fun acc x => weightInsert x acc) []

/-- The shortest prefix whose sum t satisfies t ≥ topp · total (R281), with `t` summed so far. -/
def nucleus (topp : Dy) (total : Nat) : Nat → List (Nat × Nat) → List (Nat × Nat)
  | _, [] => []
  | t, x :: xs =>
    let t' := t + x.2
    if (Dy.mk (t' : Int) 0).lt (topp.mul ⟨(total : Int), 0⟩) then x :: nucleus topp total t' xs else [x]

def weightSum (ws : List (Nat × Nat)) : Nat := (ws.map (·.2)).foldl (· + ·) 0

/-- The first of the kept, in ascending index, whose running sum exceeds r. -/
def drawAt (r : Nat) : Nat → List (Nat × Nat) → Nat × Nat
  | _, [] => (0, 0)
  | t, x :: xs => if r < t + x.2 then x else drawAt r (t + x.2) xs

/-- The index of the first value equal to v. -/
def firstAt (v : Val) : Nat → List Val → Nat
  | i, [] => i
  | i, x :: xs => if !x.lt v && !v.lt x then i else firstAt v (i + 1) xs

/-- R281: token, probability as an FP32 code, and whether the row is invalid. -/
def sample (tid : Nat) (r : SampleRow) (ls : List Val) : Nat × Nat × Bool :=
  if r.bad ls then (0xFFFFFFFF, 0, true)
  else if r.temp.dy.m = 0 then (firstAt (valMax ls) 0 ls, 0x3F800000, false)
  else
    let xs := ls.map (fun l => rounded32 (vdiv l r.temp).x)
    let m := valMax xs
    if m = .inf true then (0xFFFFFFFF, 0, true)
    else
      let ws := ((List.range xs.length).zip (xs.map (sampleWeight m))).filter (fun e => e.2 != 0)
      let k1 := if r.topk = 0 then ws else (byWeight ws).take r.topk
      let k2 := if r.topp.lt (.fin ⟨1, 0⟩) then nucleus r.topp.dy (weightSum k1) 0 (byWeight k1) else k1
      let kept := ws.filter (fun e => k2.contains e)
      let sum := weightSum kept
      let z := generator r.seed tid (r.pos % 2 ^ 24) 0
      let t := drawAt (z.toNat * sum / 2 ^ 64) 0 kept
      (t.1, (encodeReal .fp32 0 .rne false (.quot t.2 sum 0)).1, false)

/-- Output records of the sampler from row r on, and whether a row was invalid. -/
def sampleFrom (g : Agent) (x : EngEntry) (d : EngDesc) (s : State) (r : Nat) (h : Hit) : Nat → EngRes × Bool
  | 0 => (⟨[], none, s, h⟩, false)
  | left + 1 =>
    let f := (smpFmt d).getD .fp32
    let w := keyBytes (smpFmt d)
    let v := d.f 5 35 16 + 1
    match fabRead g s ((d.addr 3 + 32 * r) % 2 ^ 48) h 32 with
    | .stall => (⟨[], none, s, h⟩, false)
    | .fault fl s' => (⟨[], some (x.fault r fl), s', h⟩, false)
    | .ok rb s1 =>
      match fabRead g s1 ((d.addr 2 + r * d.f 6 39 0) % 2 ^ 48) (h.skip 32) (w * v) with
      | .stall => (⟨[], none, s1, h⟩, false)
      | .fault fl s' => (⟨[], some (x.fault r fl), s', h⟩, false)
      | .ok lb s2 =>
        let o := sample (d.f 0 47 32) (sampleRow rb) ((elemCodes w v lb).map (decodeCode f 0))
        let rest := sampleFrom g x d s2 (r + 1) (h.skip (32 + w * v)) left
        ({ rest.1 with outs :=
            ⟨r, (d.addr 4 + 8 * r) % 2 ^ 48, leBytes 4 o.1 ++ leBytes 4 (if bit (nth d.q 0) 52 then o.2.1 else 0)⟩
              :: rest.1.outs }, o.2.2 || rest.2)

/-! ### The fingerprint engine (R284, R285) -/

def crcBit (r : BitVec 32) : BitVec 32 := if r.getLsbD 0 then (r >>> 1) ^^^ 0x82F63B78#32 else r >>> 1

def crcByte (r : BitVec 32) (b : Byte) : BitVec 32 :=
  crcBit (crcBit (crcBit (crcBit (crcBit (crcBit (crcBit (crcBit (r ^^^ b.zeroExtend 32))))))))

/-- R284. [log 66: DEDUCED] -/
def crc32c (init : BitVec 32) (bs : List Byte) : BitVec 32 := (bs.foldl crcByte (init ^^^ 0xFFFFFFFF#32)) ^^^ 0xFFFFFFFF#32

def fpWord (w : Word) (i : Word) : Word :=
  let x := (w ^^^ (i * 0x6C3B9A51E2D74F0B#64)) * 0xB4F12C8E5A973D61#64
  let x := (x ^^^ (x >>> 31)) * 0x6C3B9A51E2D74F0B#64
  x ^^^ (x >>> 29)

/-- R285: the sum over the words, from index i on. -/
def fp64Raw (i : Word) : Nat → List Byte → Word
  | 0, _ => 0
  | n + 1, bs => fpWord (leWord (bs.take 8)) i + fp64Raw (i + 1) n (bs.drop 8)

def fp64 (bs : List Byte) : Word := fp64Raw 0 (ceilDiv bs.length 8) bs + BitVec.ofNat 64 bs.length * 0xB4F12C8E5A973D61#64

/-- The bytes of a fingerprint descriptor, one by one: the byte offset of a fault is its ITEM. [log 66: DEDUCED] -/
def fprRead (g : Agent) (x : EngEntry) (d : EngDesc) (s : State) (i : Nat) (h : Hit) :
    Nat → Except (EngFault × State) (List Byte × State)
  | 0 => .ok ([], s)
  | n + 1 =>
    match fabRead g s ((d.addr 2 + i) % 2 ^ 48) h 1 with
    | .stall => .ok ([], s)
    | .fault f s' => .error (x.fault i f, s')
    | .ok b s' =>
      match fprRead g x d s' (i + 1) h.next n with
      | .error e => .error e
      | .ok r => .ok (b ++ r.1, r.2)

/-- R286: the comparison with EXPECT. -/
def Eng.checkResult (x : Eng) (d : EngDesc) (r : Word) : Eng :=
  if bit (nth d.q 0) 32 && r != nth d.q 5 then
    { x with mark := true, nmis := satAdd 0xFFFFFFFF x.nmis 1, fdesc := if x.mark then x.fdesc else d.id }
  else x

/-! ### Running -/

/-- The outputs that an operation has still to write, written in order until one faults or a connection has
no room. [log 64: DESIGN CHOICE] -/
def engDrain (g : Agent) (x : EngEntry) (s : State) (h : Hit) : List EngOut → List EngOut × Option EngFault × State
  | [] => ([], none, s)
  | o :: os =>
    match fabWrite g s o.addr o.bytes h o.bytes.length with
    | .stall => (o :: os, none, s)
    | .fault f s' => (os, some (x.fault o.item f), s')
    | .ok rest s' =>
      if rest.isEmpty then engDrain g x s' (h.skip o.bytes.length) os
      else ({ o with addr := (o.addr + (o.bytes.length - rest.length)) % 2 ^ 48, bytes := rest } :: os, none, s')

/-- An operation of engine e runs: its outputs are computed once, then written; the fault it meets stands after
them. `f` answers what it computes and the change of the engine's own registers. [log 64: DESIGN CHOICE] -/
def engRun (c : ClusterId) (e op : Nat) (h : Hit) (s : State) (f : Nat → EngEntry → EngDesc → State → EngRes × (Eng → Eng)) : Out :=
  let x := s.eng c.val e
  match s.partOfCluster c.val, x.queue with
  | some p, y :: rest =>
    match y.words with
    | none => .next s
    | some q =>
      if x.fault.isSome || EngDesc.op ⟨q⟩ ≠ op then .next s
      else
        let done : EngEntry × State × Hit :=
          if y.computed then (y, s, h)
          else
            let r := f p y ⟨q⟩ s
            ({ y with computed := true, outs := r.1.outs, fail := r.1.fail }, r.1.st.modEng c.val e r.2, r.1.h)
        let w := engDrain (engAgent p c.val e) done.1 done.2.1 done.2.2 done.1.outs
        .next (w.2.2.modEng c.val e (fun x =>
          let x' : Eng := { x with queue := { done.1 with outs := w.1 } :: rest }
          match w.2.1, w.1.isEmpty, done.1.fail with
          | some fl, _, _ => Eng.found fl x'
          | none, true, some fl => Eng.found fl x'
          | _, _, _ => x'))
  | _, _ => .next s

/-- ROWS (R273); `h` is what the arrays report on its accesses, each byte read or written being one, as in every
operation below. -/
def execRows (c : ClusterId) (h : Hit) (s : State) : Out :=
  engRun c 1 0 h s (fun p y d s => (rowsFrom (engAgent p c.val 1) c.val y d s 0 h (d.f 0 51 32 + 1), id))

/-- CASKS (R274). -/
def execCasks (c : ClusterId) (h : Hit) (s : State) : Out :=
  engRun c 1 1 h s (fun p y d s => (casksCompute (engAgent p c.val 1) y d h s, id))

/-- SORT (R278). -/
def execSort (c : ClusterId) (h : Hit) (s : State) : Out :=
  engRun c 2 0 h s (fun p y d s => (selectFrom (engAgent p c.val 2) c.val y d [] s 0 h d.rows, id))

/-- TOPK (R278). -/
def execTopk (c : ClusterId) (h : Hit) (s : State) : Out :=
  engRun c 2 1 h s (fun p y d s => (selectFrom (engAgent p c.val 2) c.val y d [] s 0 h d.rows, id))

/-- ROUTE (R278). -/
def execRoute (c : ClusterId) (h : Hit) (s : State) : Out :=
  engRun c 2 2 h s (fun p y d s =>
    (selectFrom (engAgent p c.val 2) c.val y d (List.replicate d.n 0) s 0 h d.rows, id))

/-- SAMPLE (R281). -/
def execSample (c : ClusterId) (h : Hit) (s : State) : Out :=
  engRun c 3 0 h s (fun p y d s =>
    let r := sampleFrom (engAgent p c.val 3) y d s 0 h d.rows
    (r.1, fun x => { x with mark := x.mark || r.2 }))

/-- An operation of the fingerprint engine with the result of its bytes. -/
def fprRun (c : ClusterId) (op : Nat) (h : Hit) (f : EngDesc → List Byte → Word) (s : State) : Out :=
  engRun c 4 op h s (fun p y d s =>
    match fprRead (engAgent p c.val 4) y d s 0 h (d.f 4 39 0) with
    | .error (fl, s') => (⟨[], some fl, s', h⟩, id)
    | .ok (bs, s') =>
      let r := f d bs
      (⟨[⟨0, d.addr 3, leBytes 8 r.toNat⟩], none, s', h.skip (d.f 4 39 0)⟩, fun x => x.checkResult d r))

/-- CRC32C (R284). -/
def execCrc32c (c : ClusterId) (h : Hit) (s : State) : Out :=
  fprRun c 0 h (fun d bs => (crc32c ((nth d.q 6).truncate 32) bs).zeroExtend 64) s

/-- FP64 (R285). -/
def execFp64 (c : ClusterId) (h : Hit) (s : State) : Out := fprRun c 1 h (fun _ bs => fp64 bs) s

/-- FP64RAW (R285). -/
def execFp64raw (c : ClusterId) (h : Hit) (s : State) : Out :=
  fprRun c 2 h (fun d bs => fp64Raw (nth d.q 6) (ceilDiv bs.length 8) bs) s

/-- ENGINE_DESCRIPTOR_COMPLETE (R265): every write of the running descriptor is in place: its DONE action is
performed and it leaves the queue. -/
def execEngineDescriptorComplete (c : ClusterId) (e : EngKind) (s : State) : Out :=
  let n := engNum e
  let x := s.eng c.val n
  match s.partOfCluster c.val, x.queue with
  | some p, y :: rest =>
    match y.words with
    | none => .next s
    | some q =>
      if x.fault.isSome || !y.computed || !y.outs.isEmpty then .next s
      else
        let g := engAgent p c.val n
        let s0 := s.cltFlushStream p g.stream
        if s0.fabPending g then .next s0
        else
          let s1 := if EngDesc.doneen ⟨q⟩ then s0.flagSend (doneMsg (nth q 1) g.id) else s0
          .next (s1.modEng c.val n (fun x => { x with queue := rest }))
  | _, _ => .next s

/-- MID_STREAM_ENGINE_FAULT (R268): the launch aborts for the fault that an engine has found and recorded. -/
def execMidStreamEngineFault (c : ClusterId) (e : EngKind) (s : State) : Out :=
  let n := engNum e
  match s.partOfCluster c.val, (s.eng c.val n).fault with
  | some p, some f =>
    .next ((s.modEng c.val n (fun x =>
      if x.flt then { x with fault := none } else { x with flt := true, frec := f, fault := none })).abortLaunch p
      { cause := 3, sub := f.cause, hw := f.cause == fcUe })
  | _, _ => .next s

end Sys2Proof.Machine
end

