-- ==== Sys2Proof/Machine/Mesh.lean ====
section
/-!
DEFINITION. The core mesh (spec 07): route words (R145 to R150), windows and beats (R148, R151, R152), in-mesh
summation (R153 to R155) and route faults (R157).
-/
namespace Sys2Proof.Machine
open Sys2Proof

/-! ### Route words -/

/-- A source of an output, or an operand slot. -/
inductive RSrc where
  | none
  | link (d : MeshLink)
  | inject
  | sum
  deriving DecidableEq, Repr

def rsrc (c : Nat) : RSrc :=
  match c with
  | 1 => .link .n
  | 2 => .link .s
  | 3 => .link .e
  | 4 => .link .w
  | 5 => .inject
  | 6 => .sum
  | _ => .none

/-- A FWD word (R146). -/
structure Fwd where
  beats : Nat
  selN : RSrc
  selS : RSrc
  selE : RSrc
  selW : RSrc
  selD : RSrc
  sumfmt : Nat
  order : List RSrc
  injs : Nat
  dlvs : Nat
  waiten : Bool
  waitf : Nat
  waitclr : Bool
  doneen : Bool
  donek : Bool
  donef : Nat
  deriving DecidableEq, Repr

/-- A route word (R145, R146, R149); a reserved kind is refused at SCHED_LOAD and stands as END. -/
inductive RWord where
  | fwd (w : Fwd)
  | loop (back countM1 : Nat)
  | stop
  deriving DecidableEq, Repr

def routeWord (w : BitVec 128) : RWord :=
  let x := w.toNat
  let f (hi lo : Nat) : Nat := nbits x hi lo
  match f 2 0 with
  | 0 =>
    .fwd { beats := f 19 4 + 1, selN := rsrc (f 34 32), selS := rsrc (f 37 35), selE := rsrc (f 40 38),
           selW := rsrc (f 43 41), selD := rsrc (f 46 44), sumfmt := f 49 48,
           order := ((List.range 5).map (fun i => rsrc (f (52 + 3 * i) (50 + 3 * i)))).takeWhile (· != .none),
           injs := f 68 65, dlvs := f 72 69, waiten := x.testBit 73, waitf := f 79 74, waitclr := x.testBit 80,
           doneen := x.testBit 81, donek := x.testBit 82, donef := f 88 83 }
  | 1 => .loop (f 13 4) (f 45 14)
  | _ => .stop

/-- Word i of the route store; an unlisted one is END. -/
def Router.word (r : Router) (i : Nat) : RWord := routeWord (mget (2 : BitVec 128) r.store i)

def Fwd.outputs (w : Fwd) : List (MeshLink × RSrc) :=
  [(.n, w.selN), (.s, w.selS), (.e, w.selE), (.w, w.selW)].filter (fun o => o.2 != .none)

/-- Whether any output has a source (R147). -/
def Fwd.moves (w : Fwd) : Bool := !w.outputs.isEmpty || w.selD != .none

/-- Whether a window uses an input, as a source or as an operand. -/
def Fwd.uses (w : Fwd) (x : RSrc) : Bool :=
  w.outputs.any (fun o => o.2 == x) || w.selD == x || w.order.contains x

/-! ### Moving from word to word -/

def linkDir : MeshLink → Dir
  | .n => .n
  | .s => .s
  | .e => .e
  | .w => .w

/-- The port of the neighbour that a link leads to. -/
def linkFar : MeshLink → MeshLink
  | .n => .s
  | .s => .n
  | .e => .w
  | .w => .e

def Router.buf (r : Router) : MeshLink → List Beat
  | .n => r.bufN
  | .s => r.bufS
  | .e => r.bufE
  | .w => r.bufW

def Router.setBuf (r : Router) (d : MeshLink) (b : List Beat) : Router :=
  match d with
  | .n => { r with bufN := b }
  | .s => { r with bufS := b }
  | .e => { r with bufE := b }
  | .w => { r with bufW := b }

def State.modRt (s : State) (k : Nat) (f : Router → Router) : State := s.modCore k (fun c => { c with rt := f c.rt })

/-- The router goes on from a word until it stands at a FWD word or at END (R145, R149): a LOOP word loads its
idle counter, goes back while it is nonzero, and goes on at zero. At END, ROUTE_END becomes pending (R179). [log 54: DEDUCED; log 56: DEDUCED] -/
def Core.routeSettle (c : Core) (i : Nat) : Nat → Core
  | 0 => { c with rt := { c.rt with widx := i } }
  | fuel + 1 =>
    match c.rt.word i with
    | .fwd w =>
      { c with rt := { c.rt with widx := i, beat := 0, run := false,
                                 wait := w.waiten && !c.flg.f.getLsbD w.waitf } }
    | .stop =>
      { c with rt := { c.rt with widx := i, beat := 0, run := false, wait := false, ended := true },
               ipend := c.ipend ||| 8 }
    | .loop back n =>
      let v := ((c.rt.loops.find? (fun e => e.1 == i)).map (·.2)).getD n
      if v = 0 then ({ c with rt := { c.rt with loops := mdrop c.rt.loops i } } : Core).routeSettle (i + 1) fuel
      else ({ c with rt := { c.rt with loops := mput c.rt.loops i (v - 1) } } : Core).routeSettle (i - back) fuel

/-- Enough words for any chain of LOOP words between two FWD words. -/
def routeFuel : Nat := 4096

/-! ### Route faults (R157) -/

/-- The port codes of CORE_RTFLT. -/
def linkPort : MeshLink → Nat
  | .n => 0
  | .s => 1
  | .e => 2
  | .w => 3

def portInject : Nat := 4
def portDeliver : Nat := 5

/-- A route fault: the router stops, records it, and the launch aborts; a hardware fault is detected too. [log 54: DEDUCED] -/
def State.routeFault (s : State) (k cause port : Nat) (det : Option Detection) : State :=
  let s1 := s.modRt k (fun r =>
    { r with run := false, wait := false, flt := true,
             fault := { cause := cause, port := port, widx := r.widx, beat := r.beat } })
  let s2 := match det with
    | some d => s1.detect d
    | none => s1
  s2.abortCore k { cause := 1, sub := cause, hw := det.isSome }

/-! ### Streams (R150) -/

/-- The scratchpad offset of a stream's beat b; none outside the scratchpad (RANGE). -/
def streamOff (e : Word) (b : Nat) : Option Nat :=
  let len := field e 47 32
  let i := if len = 0 then b else b % len
  let g : Int := (field e 15 0 : Nat) + (i : Int) * signedOf 16 (field e 31 16)
  if 0 ≤ g ∧ g + 15 ≤ 65535 then some (g.toNat * 16) else none

/-! ### Sums (R153 to R155) -/

/-- The sticky conditions of a sum. -/
structure SumSt where
  nx : Bool := false
  of : Bool := false
  nv : Bool := false
  iovf : Bool := false
  deriving DecidableEq, Repr

def SumSt.or (a b : SumSt) : SumSt := ⟨a.nx || b.nx, a.of || b.of, a.nv || b.nv, a.iovf || b.iovf⟩

/-- Element i, of n bytes, of a beat. -/
def beatElem (n : Nat) (b : Beat) (i : Nat) : Nat := leNat ((b.drop (n * i)).take n)

/-- One FP32 element: one rounding for each addition, in operand order (R155). -/
def fpChain (acc : Nat) : List Nat → Nat × SumSt
  | [] => (acc, ({} : SumSt))
  | x :: xs =>
    let v := Val.sum [valFp32 acc, valFp32 x]
    let r := encodeVal .fp32 0 .rne v.1
    let rest := fpChain r.1 xs
    (rest.1, SumSt.or { nx := r.2.nx, of := r.2.of, nv := v.2 || r.2.nv } rest.2)

/-- The sum of beats under a SUMFMT. -/
def beatSum (fmt : Nat) (bs : List Beat) : Beat × SumSt :=
  let n := if fmt = 3 then 16 else 4
  let outs := (List.range (256 / n)).map (fun i =>
    let es := bs.map (fun b => beatElem n b i)
    match fmt with
    | 2 => match es with
      | [] => (0, ({} : SumSt))
      | e :: es => fpChain e es
    | 1 =>
      let t := es.foldl (fun (a : Int) e => a + signedOf 32 e) 0
      (toTwos 32 t, { iovf := decide (t < -2147483648) || decide (2147483647 < t) })
    | _ => (toTwos 128 (es.foldl (fun (a : Int) e => a + signedOf 128 e) 0), ({} : SumSt)))
  (outs.flatMap (fun o => leBytes n o.1), outs.foldl (fun a o => a.or o.2) {})

/-! ### Windows -/

/-- Whether a router has windows to run: its core has a task, which may be parked, stopped or ended, and the router has
neither stopped on a fault nor reached END. -/
def Core.routes (c : Core) : Bool := c.run != .idle && !c.rt.flt && !c.rt.ended

/-- Whether a router works: it has windows to run, and no abort has stopped the routers of its partition (R157). -/
def State.routes (s : State) (k : Nat) : Bool :=
  (s.core k).routes && (match s.partOfCore k with | some p => (s.part p).abort.isNone | none => true)

/-- Whether any of the 16 groups of a beat at a scratchpad offset lies in a resident window of a schedule that the
core is not running (R128). -/
def Core.beatBarred (c : Core) (off : Nat) : Bool := (List.range 16).any (fun i => c.residentOther (off + 16 * i))

/-- The neighbour of core k over a link of its partition (R9, R158). -/
def State.meshPeer (s : State) (k : Nat) (d : MeshLink) : Option Nat :=
  match neighbour k (linkDir d) with
  | none => none
  | some j => if (s.partOfCore j).isSome && s.partOfCore j == s.partOfCore k then some j else none

/-- ROUTE_WINDOW_START (R148): the FWD window at the current word starts; one that waits needs its flag, and shows that
it waits. WAITCLR clears the flag whether or not the window waited for it. A router that stands at its first word and
finds no FWD word there goes on from it. [log 54: DEDUCED; log 56: DEDUCED] -/
def execRouteWindowStart (k : CoreId) (s : State) : Out :=
  let c := s.core k.val
  if !s.routes k.val || c.rt.run then .next s
  else match c.rt.word c.rt.widx with
    | .fwd w =>
      if w.waiten && !c.flg.f.getLsbD w.waitf then .next (s.modRt k.val (fun r => { r with wait := true }))
      else
        let s1 := if w.waitclr then s.flagPut (.bin k.val w.waitf) false else s
        .next (s1.modRt k.val (fun r => { r with run := true, wait := false, beat := 0, rejected := false }))
    | _ => .next (s.modCore k.val (fun c => c.routeSettle c.rt.widx routeFuel))

/-- Whether every input a window uses has a beat present and every output it feeds a credit (R148). -/
def State.beatReady (s : State) (k : Nat) (w : Fwd) : Bool :=
  let r := (s.core k).rt
  ([.n, .s, .e, .w] : List MeshLink).all (fun d => !w.uses (.link d) || !(r.buf d).isEmpty)
    && w.outputs.all (fun o => match s.meshPeer k o.1 with
        | none => false
        | some j => decide (((s.core j).rt.buf (linkFar o.1)).length < 8))

/-- The link whose far core is the master of a delivery (R151); none for the inject stream. -/
def Fwd.deliverLink (w : Fwd) : Option MeshLink :=
  match w.selD with
  | .link d => some d
  | .sum => (w.order.filterMap (fun o => match o with | .link d => some d | _ => none)).head?
  | _ => none

/-- The beat an output takes. -/
def beatOf (r : Router) (inj sum : Beat) (x : RSrc) : Beat :=
  match x with
  | .link d => (r.buf d).headD []
  | .inject => inj
  | .sum => sum
  | .none => []

/-- A beat that crosses a link to a neighbour's buffer; `es` is what the neighbour's check finds in its 16-byte units:
each corrected one is counted, and one that cannot be corrected is a route fault (R143). A router that an abort has
stopped takes nothing (R157). -/
def State.sendBeat (s : State) (k : Nat) (d : MeshLink) (b : Beat) (es : List Ecc) : State :=
  match s.meshPeer k d with
  | none => s
  | some j =>
    if (match s.partOfCore j with | some p => (s.part p).abort.isSome | none => false) then s
    else
      let s1 := s.modRt j (fun r => { r with ce := satAdd 0xFF r.ce (es.filter (fun e => e == .corrected)).length })
      if es.contains .uncorrectable then
        s1.routeFault j 4 (linkPort (linkFar d))
          (some { source := 0x05, ukind := 1, unit := k, master := j, addr := 0 })
      else s1.modRt j (fun r => r.setBuf (linkFar d) (r.buf (linkFar d) ++ [b]))

/-- A delivery into the core's own scratchpad (R151); where it is rejected, its master and the reason of the window
check, or none for an inject beat that a resident window of another schedule bars (R128). [log 129: DESIGN CHOICE] -/
def State.deliver (s : State) (k off : Nat) (link : Option MeshLink) (b : Beat) : Except (Option (Nat × Rej)) State :=
  let m : Nat := match link with
    | none => k
    | some d => (neighbour k (linkDir d)).getD k
  let put : State := s.placeCells (((List.range 256).map (fun i => spadAddr k off + i)).zip b) m
  match link with
  | none => if (s.core k).beatBarred off then .error none else .ok put
  | some _ =>
    match s.windowCheck k off 256 m with
    | some r => .error (some (m, r))
    | none => .ok put

/-- The router's own part of a beat: inputs consumed, cursors and beat count advanced, conditions recorded. -/
def Router.took (r : Router) (w : Fwd) (c : SumSt) : Router :=
  let r1 := ([.n, .s, .e, .w] : List MeshLink).foldl (fun r d =>
    if w.uses (.link d) then r.setBuf d (r.buf d).tail else r) r
  { r1 with
      beat := r.beat + 1
      injCur := if w.uses .inject then mput r.injCur w.injs (mget 0 r.injCur w.injs + 1) else r.injCur
      dlvCur := if w.selD != .none then mput r.dlvCur w.dlvs (mget 0 r.dlvCur w.dlvs + 1) else r.dlvCur
      nx := r.nx || c.nx, of := r.of || c.of, nv := r.nv || c.nv, iovf := r.iovf || c.iovf }

/-- ROUTE_BEAT (R148, R151): one beat of the window in progress moves. `h` is what the inject read finds in
the scratchpad (R136), `x` what the far checks find, one entry for each 16-byte unit of a link that is not clean
(R143). An inject read in a resident window of another schedule is a route fault (R128). [log 129: DESIGN CHOICE] -/
def execRouteBeat (k : CoreId) (h : Ecc) (x : List (MeshLink × Ecc)) (s : State) : Out :=
  let k := k.val
  let c := s.core k
  let r := c.rt
  match r.word r.widx with
  | .fwd w =>
    if !s.routes k || !r.run || !w.moves || decide (w.beats ≤ r.beat) || !s.beatReady k w then .next s
    else
      let io := streamOff (mget 0 r.inj w.injs) (mget 0 r.injCur w.injs)
      let dof := streamOff (mget 0 r.dlv w.dlvs) (mget 0 r.dlvCur w.dlvs)
      let from_ := (List.range 256).map (fun i => spadAddr k (io.getD 0) + i)
      if w.uses .inject && io.isNone then .next (s.routeFault k 2 portInject none)
      else if w.selD != .none && dof.isNone then .next (s.routeFault k 2 portDeliver none)
      else if w.uses .inject && c.beatBarred (io.getD 0) then .next (s.routeFault k 1 portInject none)
      else
        let rd := if w.uses .inject then s.eccSpan from_ k h else (s, true)
        if !rd.2 then .next (rd.1.modRt k Router.stop)
        else
          let inj : Beat := if w.uses .inject then rd.1.getBytes (spadAddr k (io.getD 0)) 256 else []
          let sm := if w.sumfmt = 0 then (([] : Beat), ({} : SumSt))
            else beatSum w.sumfmt (w.order.map (beatOf r inj []))
          let dl : Except (Option (Nat × Rej)) State :=
            if w.selD = .none then .ok rd.1
            else rd.1.deliver k (dof.getD 0) w.deliverLink (beatOf r inj sm.1 w.selD)
          match dl with
          | .error rej =>
            let s1 := match rej with
              | some (m, y) => rd.1.windowReject k (dof.getD 0) 256 m y
              | none => rd.1
            .next ((s1.modRt k (fun r => { r with rejected := true })).routeFault k 1 portDeliver none)
          | .ok s1 =>
            let s2 := s1.modRt k (fun r => r.took w sm.2)
            .next (w.outputs.foldl (fun s o =>
              s.sendBeat k o.1 (beatOf r inj sm.1 o.2) ((x.filter (fun e => e.1 == o.1)).map (·.2))) s2)
  | _ => .next s

/-- ROUTE_WINDOW_END (R148, R152): all beats have moved; the DONE action goes to its flag, and the router goes
on to the next word. -/
def execRouteWindowEnd (k : CoreId) (s : State) : Out :=
  let c := s.core k.val
  match c.rt.word c.rt.widx with
  | .fwd w =>
    if !s.routes k.val || !c.rt.run || (w.moves && decide (c.rt.beat < w.beats)) then .next s
    else
      let done : FlagMsg :=
        { target := if w.donek then .cnt k.val (w.donef % 16) else .bin k.val w.donef,
          act := if w.donek then .inc else .set, source := k.val, rank := routerRank, origin := none }
      let s1 := if w.doneen && !c.rt.rejected then s.flagSend done else s
      .next (s1.modCore k.val (fun c => c.routeSettle (c.rt.widx + 1) routeFuel))
  | _ => .next s

/-- STALL (R157): a window that neither moves nor starts for the timeout is a route fault; the specification
names no port for it, so PORT is a free value. [log 55: DESIGN CHOICE] -/
def execStall (k : CoreId) (s : State) : Out :=
  let c := s.core k.val
  match c.rt.word c.rt.widx with
  | .fwd _ =>
    if !s.routes k.val then .next s
    else
      let d := s.drawFree
      .next (d.2.routeFault k.val 3 (d.1.toNat % 6)
        (some { source := 0x04, ukind := 1, unit := k.val, master := k.val, addr := 0 }))
  | _ => .next s

end Sys2Proof.Machine
end

