-- ==== Sys2Proof/Machine/Record.lean ====
section
/-!
DEFINITION. The error log (R399 to R401): writing a record when an error is detected, and rewriting it when
its handling is complete.
-/
namespace Sys2Proof.Machine
open Sys2Proof

/-- CLASS of a record (R399). -/
inductive ErrClass where
  | corrected | recovered | degraded | fatal
  deriving DecidableEq, Repr

def ErrClass.code : ErrClass → Nat
  | .corrected => 0 | .recovered => 1 | .degraded => 2 | .fatal => 3

/-- ACTION codes of Q0 (R401). -/
def actNone : Nat := 0
def actRepitch : Nat := 1
def actMapout : Nat := 2
def actLane : Nat := 3
def actPc : Nat := 4
def actRollback : Nat := 5
def actNoSchedule : Nat := 6
def actDataLoss : Nat := 7
def actReset : Nat := 8

/-- RESULT codes of Q0 (R401). -/
def resTransient : Nat := 1
def resLasting : Nat := 2
def resInconclusive : Nat := 3
def resRepeated : Nat := 4

def ErrLog.get (l : ErrLog) (n : Nat) : Option (List Word) := (l.records.find? (fun e => e.1 == n)).map (·.2)

/-- The index of the oldest record kept: the ring holds 4,096 (R400). -/
def ErrLog.oldest (l : ErrLog) : Nat := l.next - 4096

/-- A record at the next index; the ring keeps the newest 4,096 (R400). -/
def ErrLog.push (l : ErrLog) (ws : List Word) : ErrLog :=
  { l with next := (l.next + 1) % 2 ^ 32,
           records := (l.records.filter (fun e => decide (l.next < e.1 + 4096))) ++ [(l.next, ws)] }

def ErrLog.rewrite (l : ErrLog) (n : Nat) (f : List Word → List Word) : ErrLog :=
  { l with records := l.records.map (fun e => if e.1 == n then (e.1, f e.2) else e) }

/-- One more record of a class (ERR_CNT). -/
def ErrLog.count (l : ErrLog) : ErrClass → ErrLog
  | .corrected => { l with corr := satAdd 0xFFFF l.corr 1 }
  | .recovered => { l with recov := satAdd 0xFFFF l.recov 1 }
  | .degraded => { l with degr := satAdd 0xFFFF l.degr 1 }
  | .fatal => { l with fatalc := satAdd 0xFFFF l.fatalc 1, fatal := true }

/-- Q0 of a record. -/
def recordQ0 (index cls : Nat) (done peer : Bool) (source ukind result action parts : Nat) : Word :=
  place index 32 0 ||| place cls 2 32 ||| flagAt done 34 ||| flagAt peer 35 ||| place source 8 40
    ||| place ukind 3 48 ||| place result 4 52 ||| place action 4 56 ||| place parts 4 60

/-- Q5: the launch of a partition that was stopped, or zero; a launch that has committed is not stopped (R405). -/
def recordQ5 (q : Part) : Word :=
  match q.launch with
  | none => 0
  | some l =>
    if l.committed then 0
    else place l.sched 32 0 ||| place l.tag 16 32
      ||| place (match l.src with | .qp _ n => n.val | .mgmt => 0) 6 48 ||| place l.rollbacks 8 56

/-- CORE_RTFLT of a core. -/
def RtFault.word (f : RtFault) : Word :=
  place f.cause 4 0 ||| place f.port 3 4 ||| place f.widx 10 8 ||| place f.beat 16 18

/-- Q7: CORE_RTFLT of the router that stopped (the master of the detection), NET_LANE, or the detector's own data, whose layout the specification leaves open: a free
value. [log 105: DESIGN CHOICE] -/
def State.recordDetail (s : State) (d : Detection) : Word × State :=
  if d.source = 4 ∨ d.source = 5 then ((s.core d.master).rt.fault.word, s)
  else if d.source = 0x0E then
    let g := s.group (d.unit / 4)
    (place g.failed.toNat 4 0 ||| place g.lock.toNat 4 4
      ||| (List.range 4).foldl (fun w i => w ||| place (mget 0 g.width i) 2 (8 + 2 * i)) 0, s)
  else s.drawFree

def partsMask (ps : List Nat) : Nat := ps.foldl (fun n p => n + 2 ^ p) 0

/-- R390 step 2, R401: a record with DONE = 0 for an error that affects the partitions `ps`, and the ERRLOG
event to each. The index of the record and the state. [log 105: DESIGN CHOICE] -/
def State.recordOpen (s : State) (d : Detection) (ps : List Nat) : Nat × State :=
  let n := s.log.next
  let r := s.recordDetail d
  let q5 := match ps with | [p] => recordQ5 (s.part p) | _ => 0
  let ws : List Word :=
    [ recordQ0 n 1 false false d.source d.ukind 0 0 (partsMask ps), s.gt.t, BitVec.ofNat 64 s.ao,
      place d.unit 16 0, place d.addr 48 0, q5, 0, r.1 ]
  let s1 : State := { r.2 with log := r.2.log.push ws }
  (n, ps.foldl (fun s p => s.partEvent p 0x0C 0 (place n 32 0) 0) s1)

/-- R390 step 6: a record rewritten with DONE = 1, its class counted, and the event sent again. -/
def State.recordClose (s : State) (h : Handling) (cls : ErrClass) (action : Nat) (peer : Bool) (ps : List Nat) : State :=
  let f (ws : List Word) : List Word :=
    [ recordQ0 h.record cls.code true peer h.det.source h.det.ukind h.result action (partsMask ps),
      ws.getD 1 0, ws.getD 2 0, place h.det.unit 16 0 ||| place h.tcount 4 16, ws.getD 4 0, ws.getD 5 0,
      place h.ktime 32 0 ||| place h.atime 32 32, ws.getD 7 0 ]
  let s1 : State := { s with log := (s.log.rewrite h.record f).count cls }
  ps.foldl (fun s p => s.partEvent p 0x0C 0 (place h.record 32 0) 0) s1

/-- µs on the AO clock since a time in nanoseconds. -/
def State.microsSince (s : State) (t : Nat) : Nat := (s.ao - t) / 1000

/-- R390 step 6, R399: the records of the errors acted on in a partition are closed when its launch ends:
`lost` when the work was lost, with the ACTION that says so. -/
def State.closeActed (s : State) (p : Nat) (lost : Option Nat) (peer : Bool) : State :=
  let hs := (s.part p).acted
  let s1 := s.modPart p (fun q => { q with acted := [] })
  hs.foldl (fun s h =>
    match lost with
    | some a => s.recordClose h .fatal a peer [p]
    | none =>
      s.recordClose h (if h.action = actMapout ∨ h.action = actLane ∨ h.action = actPc then .degraded else .recovered)
        h.action false [p]) s1

end Sys2Proof.Machine
end

