-- ==== Sys2Proof/Machine/Launch.lean ====
section
/-!
DEFINITION. What launches share: what a schedule image says (R377), the launch start (R126, R140, R214, R228,
R245, R269), the task start (R66, R94, R125, R144, R183), reports (R363, R413) and the end of a launch.
-/
namespace Sys2Proof.Machine
open Sys2Proof

/-! ### A schedule image (R377, R378) -/

def imVariant (im : SchedImage) (c : Nat) : Option Variant := im.variants.find? (fun v => v.absent == c)

/-- The task-to-core map of the full schedule, or of the variant without a cluster. -/
def imMap (im : SchedImage) (v : Option Nat) : List (Nat × List Nat) :=
  match v with
  | none => im.map
  | some c => ((imVariant im c).map (fun x => x.map)).getD []

/-- The tasks of a core, in the order that the image gives. -/
def imTasksOf (im : SchedImage) (v : Option Nat) (k : Nat) : List Nat :=
  ((imMap im v).filter (fun e => e.1 == k)).flatMap (fun e => e.2)

/-- The core that a task is assigned to. -/
def imCore (im : SchedImage) (v : Option Nat) (t : Nat) : Option Nat :=
  ((imMap im v).find? (fun e => e.2.contains t)).map (fun e => e.1)

def imTask (im : SchedImage) (t : Nat) : TaskDef := im.tasks.getD t {}

/-- The route program of a task; a variant has its own. [log 94: DEDUCED] -/
def imRoute (im : SchedImage) (v : Option Nat) (t : Nat) : RouteProg :=
  match v with
  | none => (imTask im t).route
  | some c => mget {} (((imVariant im c).map (fun x => x.routes)).getD []) t

/-- The windows in force: those of the full schedule, or those on surviving cores and the variant's own. [log 94: DEDUCED] -/
def imWindows (im : SchedImage) (v : Option Nat) : List WinDef :=
  match v with
  | none => im.windows
  | some c =>
    im.windows.filter (fun w => clusterOf w.core != c) ++ ((imVariant im c).map (fun x => x.windows)).getD []

def winLo (w : WinDef) : Nat := field w.wordA 15 0 * 16
def winHi (w : WinDef) : Nat := field w.wordA 31 16 * 16 + 16

/-- The carried ranges of a core (R125): what the live declarations of its tasks name. -/
def imCarried (im : SchedImage) (v : Option Nat) (k : Nat) : List (Nat × Nat) :=
  (im.live.filter (fun d => (imTasksOf im v k).contains d.task)).flatMap (fun d => d.carried)

def inRanges (rs : List (Nat × Nat)) (o : Nat) : Bool := rs.any (fun r => decide (r.1 ≤ o) && decide (o < r.1 + r.2))

/-- Whether a scratchpad byte lies in a resident window of any schedule. -/
def State.residentByte (s : State) (k off : Nat) : Bool :=
  (List.range 16).any (fun n =>
    let w := (s.core k).window n
    w.res && decide (w.base * 16 ≤ off ∧ off < w.last * 16 + 16))

/-- Whether a physical address is a carried byte: it lies in a declared range and in no resident window, whose bytes
stay in place (R126). -/
def State.carriedAddr (s : State) (im : SchedImage) (v : Option Nat) (a : Nat) : Bool :=
  match placeOf a with
  | .spad k off => inRanges (imCarried im v k) off && !s.residentByte k off
  | _ => false

/-- Where the variant without cluster c keeps a carried byte of that cluster (R395): in the scratchpad of the
core to which it assigns the task that declared the byte. -/
def carriedMove (im : SchedImage) (c a : Nat) : Nat :=
  match placeOf a with
  | .spad k off =>
    if clusterOf k ≠ c then a
    else
      match im.live.find? (fun d => inRanges d.carried off && imCore im none d.task == some k) with
      | none => a
      | some d =>
        match imCore im (some c) d.task with
        | some k' => spadAddr k' off
        | none => a
  | _ => a

/-- The DMA lists of clusters that are not absent, by cluster × 16 + channel. -/
def imDma (im : SchedImage) (v : Option Nat) : List (Nat × List Nat) := im.dma.filter (fun e => v != some (e.1 / 16))

/-! ### Memory of a launch -/

/-- Cells written into a memory. -/
def memPutCells (m : List Host.Cell) (cs : List Host.Cell) : List Host.Cell := cs.foldl (fun m e => memPut m e.1 e.2) m

/-- Memory whose addresses that satisfy `p` hold the given cells, and zero elsewhere. -/
def memReplace (m : List Host.Cell) (p : Nat → Bool) (cs : List Host.Cell) : List Host.Cell :=
  memPutCells (m.filter (fun e => !p e.1)) cs

/-- Every address of the carried bytes of the cores a map names. -/
def State.carriedList (s : State) (im : SchedImage) (v : Option Nat) : List Nat :=
  ((imMap im v).flatMap (fun e => (imCarried im v e.1).flatMap (fun r =>
    (List.range r.2).map (fun i => spadAddr e.1 (r.1 + i))))).filter (s.carriedAddr im v)

/-- Free values at addresses: bytes the specification does not determine. [log 98: DESIGN CHOICE] -/
def State.freeAt (s : State) : List Nat → State
  | [] => s
  | a :: as =>
    let d := s.drawFree
    (d.2.putByte a (BitVec.ofNat 8 d.1.toNat)).freeAt as

/-- The variant in force for schedules of a partition: that of its one absent cluster. -/
def Part.variantNow (q : Part) : Option Nat := q.clusters.find? (fun c => q.absent.getLsbD c)

/-- The carried bytes of the schedule whose bytes are in place go to its boundary save area (R126). `lastSched`
holds 0 when the bytes of no schedule are in place. -/
def State.carriedOut (s : State) (p : Nat) : State :=
  s.modPart p (fun q =>
    match q.lastSched.bind q.sched with
    | none => q
    | some x => { q with boundary := mput q.boundary x.id (s.mem.filter (fun e => s.carriedAddr x.image q.variantNow e.1)) })

/-- The carried bytes of a schedule come into place (R126): from its boundary save area; without a saved copy
they are free values, unless no schedule has run in the partition. [log 98: DESIGN CHOICE] -/
def State.carriedIn (s : State) (p id : Nat) (im : SchedImage) (v : Option Nat) : State :=
  let q := s.part p
  let s1 := s.modPart p (fun q => { q with lastSched := some id, boundary := mdrop q.boundary id })
  match q.boundary.find? (fun e => e.1 == id) with
  | some e => { s1 with mem := memReplace s1.mem (s1.carriedAddr im v) (e.2.filter (fun x => s1.carriedAddr im v x.1)) }
  | none => if q.lastSched.isNone then s1 else s1.freeAt (s1.carriedList im v)

/-- R126: at a launch boundary between different schedules the carried bytes of the outgoing one are saved and
those of the incoming one restored. -/
def State.carriedSwap (s : State) (p id : Nat) (im : SchedImage) (v : Option Nat) : State :=
  if (s.part p).lastSched = some id then s else (s.carriedOut p).carriedIn p id im v

/-- R125: every scratch byte of a core set to zero. -/
def State.clearScratch (s : State) (k : Nat) (carried : List (Nat × Nat)) : State :=
  let gone (a : Nat) : Bool :=
    decide (spadAddr k 0 ≤ a) && decide (a < spadAddr k 0x100000)
      && !(inRanges carried (a - spadAddr k 0) || s.residentByte k (a - spadAddr k 0))
  { s with mem := s.mem.filter (fun e => !gone e.1),
           bad := s.bad.filter (fun b => !(List.range 16).all (fun i => gone (16 * b + i))) }

/-! ### The launch start -/

def targetIn (t : FlagTarget) (f : Nat → Bool) : Bool :=
  match t with
  | .bin k _ => f (clusterOf k)
  | .cnt k _ => f (clusterOf k)
  | .cl c _ => f c

/-- A core at a launch boundary: no task, flags zero (R228), L1 empty (R214). -/
def Core.boundary (c : Core) : Core :=
  { c with run := .idle, waiting := none, issued := false, l1d := [], l1i := [], posted := [],
           pendDef := [], pendNan := [], pendArith := [], rejAt := none,
           flg := { c.flg with f := 0, cf := [], watch := 0, queue := [] } }

/-- A DMA engine at a launch start (R245): idle, with DMA_STATUS and the channels zero. -/
def Dma.launch (d : Dma) : Dma := { d with cfg := {}, flt := false, punder := false, pover := false, chans := [] }

/-- A cluster at a launch start (R228, R245, R269). -/
def Cluster.boundary (x : Cluster) : Cluster :=
  { x with flags := 0, dma := x.dma.launch, gather := {}, select := {}, sampler := {}, fpr := {} }

/-- The caches of a partition's clusters at a launch start or before a launch resumes (R214): the merging
buffers in place, L1 and unlocked L2 lines gone, locked lines fetched again. -/
def State.cachesBoundary (s : State) (p : Nat) : State :=
  let s1 := (s.part p).live.foldl (fun s c => s.allInPlace c) s
  let s2 := s1.mapPartCores p (fun _ c => { c with l1d := [], l1i := [] })
  (s2.part p).live.foldl (fun s c => s.l2Refresh c) s2

/-- Every tun of a partition zero (R140). -/
def State.tunsZero (s : State) (p : Nat) : State :=
  (s.part p).clusters.foldl (fun s c => s.zeroRange (tunAddr c 0) 0x800000) s

/-- What every launch start clears (R140, R214, R228, R245, R269, R336). -/
def State.launchClear (s : State) (p : Nat) : State :=
  let s0 := (s.cachesBoundary p).tunsZero p
  let s1 := s0.modPart p (fun q => { q with conns := q.conns.map (fun e => (e.1, { e.2 with prior := [], priorCount := 0 })) })
  let s2 := (s1.mapPartCores p (fun _ c => c.boundary)).mapPartClusters p Cluster.boundary
  { s2 with flight := s2.flight.filter (fun m => !targetIn m.target (fun c => s.partOfCluster c == some p)) }

/-- A window of the image in a core's registers; the maltster writes RES and OWNER of resident ones (R129). -/
def Core.placeWindow (c : Core) (id : Nat) (w : WinDef) : Core :=
  let c1 := (c.windowWrite true (0x3100 + 0x20 * w.slot) w.wordA).windowWrite true (0x3108 + 0x20 * w.slot) w.wordS
  c1.setWindow w.slot { c1.window w.slot with res := w.resident, owner := if w.resident then id else 0 }

/-- The windows of a core as a schedule sets them: resident windows stay, and every other slot takes the
schedule's window or none. [log 95: DEDUCED] -/
def Core.loadWindows (c : Core) (k id : Nat) (ws : List WinDef) : Core :=
  (List.range 16).foldl (fun c n =>
    if (c.window n).res then c
    else match ws.find? (fun w => w.core == k && w.slot == n && !w.resident) with
      | none => c.setWindow n {}
      | some w => c.placeWindow id w) c

/-- The windows of every core of a partition set for a schedule whose tasks go on. -/
def State.windowsFor (s : State) (p id : Nat) (ws : List WinDef) : State :=
  let s1 := ws.foldl (fun s w => s.modCore w.core (fun c => c)) s
  s1.mapPartCores p (fun k c => c.loadWindows k id ws)

/-- The 64-byte lines that cover a range of bytes. [log 97: DEDUCED] -/
def linesOf (a n : Nat) : Nat × Nat := (a / 64, (a + n + 63) / 64 - a / 64)

/-- The logged ranges of a launch (R127, R402): those the schedule declares in device memory, and its resident
and carried scratchpad bytes, in lines. [log 97: DEDUCED] -/
def imLogged (im : SchedImage) (v : Option Nat) : List (Nat × Nat) :=
  im.logged
    ++ ((imWindows im v).filter (fun w => w.resident)).map (fun w => linesOf (spadAddr w.core (winLo w)) (winHi w - winLo w))
    ++ (imMap im v).flatMap (fun e => (imCarried im v e.1).map (fun r => linesOf (spadAddr e.1 r.1) r.2))

/-- R245: the pacing values, and the first four lists of each channel. [log 94: DEDUCED] -/
def State.dmaLoad (s : State) (p : Nat) (im : SchedImage) (v : Option Nat) : State :=
  let s1 := (im.paces.filter (fun e => v != some (e.1 / 16))).foldl (fun s e =>
    s.modDma (e.1 / 16) (fun d => d.regStore (0x30108 + 0x40 * (e.1 % 16)) e.2)) s
  (imDma im v).foldl (fun s e =>
    (s.modDmaChan (e.1 / 16) (e.1 % 16) (fun x => { x with later := e.2 })).listEnter p (e.1 / 16) (e.1 % 16) 4) s1

/-- The tasks of a launch before any has started. -/
def imRuns (im : SchedImage) (v : Option Nat) : List (Nat × TaskRun) :=
  (List.range im.tasks.length).map (fun t => (t, { core := (imCore im v t).getD 0 }))

/-- A launch starts in its partition with a variant: state cleared and lists loaded (R378, R408). -/
def State.launchBegin (s : State) (p : Nat) (l : Launch) (im : SchedImage) (v : Option Nat) : State :=
  let s2 := (s.carriedSwap p l.sched im v).launchClear p
  let l' : Launch := { l with variant := v, tasks := imRuns im v, lists := [] }
  let s3 := s2.modPart p (fun q =>
    { q with launch := some l', abort := none, rolledBack := false, lossy := false, st := .running,
             logged := imLogged im v, cellar := [] })
  s3.dmaLoad p im v

/-- R378: the variant that a launch runs now; none of it, with the SUB of NOSCHED. -/
def Part.chooseVariant (q : Part) (im : SchedImage) : Except Nat (Option Nat) :=
  match q.clusters.filter (fun c => q.absent.getLsbD c) with
  | [] => .ok none
  | [c] => if (imVariant im c).isSome then .ok (some c) else .error c
  | _ => .error 0xFE

/-! ### The task start -/

def stkOf (v : Word) : StkReg := ⟨field v 15 0, field v 32 16⟩

def fourOf {α : Type} (f : Word → α) (ws : List Word) : Four α :=
  ⟨f (ws.getD 0 0), f (ws.getD 1 0), f (ws.getD 2 0), f (ws.getD 3 0)⟩

/-- A router at a task start (R144). [log 56: DEDUCED] -/
def routerStart (rt : Router) (r : RouteProg) : Router :=
  { store := (r.words.zipIdx).map (fun e => (e.2, e.1)), inj := (r.inj.zipIdx).map (fun e => (e.2, e.1)),
    dlv := (r.dlv.zipIdx).map (fun e => (e.2, e.1)), tmoexp := r.tmoexp, ce := rt.ce }

/-- The windows and rejection registers at a task start (R134, R135): the task's schedule sets every window that is not
resident. -/
def Core.windowsStart (c : Core) (k id : Nat) (ws : List WinDef) : Core :=
  let c1 := c.loadWindows k id ws
  { c1 with sp := { c1.sp with rej := false, rejOff := 0, rejReason := 0, rejSrc := 0, rejLenM1 := 0, rejCount := 0 } }

/-- A core at a task start (R66, R94, R144, R183). Its router stands at word 0 and has not looked at it yet. -/
def Core.taskStart (c : Core) (p id t : Nat) (seed : Word) (d : TaskDef) (r : RouteProg) : Core :=
  let ds := fourOf stkOf d.ds
  let rs := fourOf stkOf d.rs
  let b3 : Bank := { pc := d.entry, dsp := ds.r3.top, dsFloor := ds.r3.top, rsp := rs.r3.top, rsFloor := rs.r3.top,
                     busy := true }
  { c with banks := ⟨{}, {}, {}, b3⟩, ring := 3, halt := false, tmode := d.tmode, preciseM := d.preciseM,
           ie := 0, gie := false, ipend := 0, gtb := d.gtb, dsr := ds, rsr := rs,
           vbase := fourOf (fun v => field v 47 12) d.vbase, run := .running, part := p, sched := id, task := t,
           seed := seed, issued := false, yieldAt := 0, waiting := none, presented := false,
           pendDef := [], pendNan := [], pendArith := [], rejAt := none, tile := {}, vsu := {},
           rt := routerStart c.rt r }

/-- The bytes of a gate table: entry n at 16 × n. -/
def gateBytes (g : List (Nat × BitVec 128)) : List (Nat × Byte) :=
  g.flatMap (fun e => (leBytes 16 e.2.toNat).zipIdx.map (fun b => (16 * (e.1 % 256) + b.2, b.1)))

/-- A task starts on a core of the launch (R125, R134, R135, R183, R361, R377). [log 95: DEDUCED] -/
def State.startTask (s : State) (p k t : Nat) (l : Launch) (im : SchedImage) : State :=
  let d := imTask im t
  let s1 := s.clearScratch k (imCarried im l.variant k)
  let base := spadAddr k (d.gtb * 4096)
  let s2 : State := { s1 with
    mem := memReplace s1.mem (fun a => decide (base ≤ a) && decide (a < base + 4096))
      ((gateBytes d.gates).map (fun e => (base + e.1, e.2))) }
  let s3 := s2.modCore k (fun c =>
    (c.windowsStart k l.sched (imWindows im l.variant)).taskStart p l.sched t (generator l.seed 0xFFFF t 0) d
      (imRoute im l.variant t))
  s3.modPart p (fun q => { q with launch := q.launch.map (fun l =>
    { l with tasks := mput l.tasks t { st := .running, core := k } }) })

/-! ### Reports (R363, R413) -/

/-- One report record. -/
structure Item where
  status : Nat
  cause : Nat := 0
  sub : Nat := 0
  kind : Nat
  never : Bool := false
  id : Nat
  detail : Nat
  deriving DecidableEq, Repr

def Item.words (i : Item) : List Word :=
  [ place i.status 8 0 ||| place i.cause 8 8 ||| place i.sub 8 16 ||| place i.kind 2 24 ||| flagAt i.never 26
      ||| place i.id 32 32,
    BitVec.ofNat 64 i.detail ]

/-- A report buffer: its address, whether it lies in host memory, and its room in records (R360). -/
structure ReportBuf where
  addr : Nat
  host : Bool
  room : Nat
  deriving DecidableEq, Repr

def Cmd.report (c : Cmd) : ReportBuf :=
  { addr := field (c.p 3) 47 0, host := bit (c.p 4) 0, room := field (c.p 4) 31 16 + 1 }

/-- The master whose writes a command's are: the host port that it came from, or the maltster (R130, R132). -/
def srcMaster (src : CmdSrc) : Nat := match src with | .qp h _ => hostId h.val | .mgmt => maltsterId

/-- Bytes put at physical addresses by a command's master, once every scratchpad's windows admit them (R130, R132): the
reason where the write fails, 0 when it is no window's. -/
def State.cmdPlace (s : State) (m : Nat) (as : List Nat) (bs : List Byte) : Option Nat × State :=
  if as.length ≠ bs.length || !as.all (fun x => (placeOf x).isMemory) then (some 0, s)
  else match s.windowsRefuse as m with
    | some (k, off, n, r) => (some r.code, s.windowReject k off n m r)
    | none =>
      let w := s.writeCells (as.zip bs) m .clean
      (if w.2 then none else some 0, w.1)

/-- Bytes written by a command (R130, R348, R363): into the memory of its partition, with the permissions of ring 3,
into host memory, or, for a command of the management path that acts on no partition, at a physical address, which the
maltster issues (R18). The reason where the write fails, 0 when it is no window's. [log 81: DESIGN CHOICE] -/
def State.cmdWrite (s : State) (src : CmdSrc) (part : Option Nat) (host : Bool) (a : Nat) (bs : List Byte) :
    Option Nat × State :=
  match part with
  | none =>
    if host then (some 0, s) else s.cmdPlace (srcMaster src) ((List.range bs.length).map (fun i => a + i)) bs
  | some p =>
    if host then
      let h := (s.part p).hostPort
      if (s.part p).valid && hostAnswers h a bs.length then (none, s.send (.hostWrite h a bs)) else (some 0, s)
    else
      match masterXlateN s p .write a bs.length with
      | .error _ => (some 0, s)
      | .ok ts => s.cmdPlace (srcMaster src) (physAddrs ts) bs

/-- Records written in order until one fails: how many were written, and whether one failed. -/
def State.writeItems (s : State) (src : CmdSrc) (p : Nat) (b : ReportBuf) (n : Nat) : List Item → Nat × Bool × State
  | [] => (n, false, s)
  | i :: is =>
    if b.room ≤ n then (n, false, s)
    else
      let w := s.cmdWrite src (some p) b.host (b.addr + 16 * n) (i.words.flatMap (fun w => leBytes 8 w.toNat))
      if w.1.isSome then (n, true, w.2) else w.2.writeItems src p b (n + 1) is

/-- The report of a command, and the RESULT fields that tell of it. -/
def State.writeReport (s : State) (p : Nat) (c : Cmd) (r : Result) (is : List Item) : Result × State :=
  let w := s.writeItems c.src p c.report 0 is
  ({ r with nitems := w.1, trunc := w.2.1 || decide (c.report.room < is.length), rfail := w.2.1 }, w.2.2)

/-- Whether a task of the launch never issued an instruction (R363). -/
def State.taskNever (s : State) (t : Nat) (r : TaskRun) : Bool :=
  match r.st with
  | .idle => true
  | .ended => false
  | .running =>
    let c := s.core r.core
    !(r.issued || (c.issued && c.task == t))

/-- How the items of a launch that has started are reported: STATUS, CAUSE and SUB of its tasks, and of lists
outstanding and finished. -/
structure ItemRule where
  task : Nat × Nat × Nat
  open_ : Nat × Nat × Nat
  done : Nat × Nat × Nat
  /-- of the list that failed (R262) -/
  fault : Nat × Nat × Nat
  seq : Nat × Nat × Nat
  deriving DecidableEq, Repr

/-- The items of a launch in their order (R363, R413). [log 108: DEDUCED] -/
def State.items (s : State) (p : Nat) (l : Launch) (im : SchedImage) (r : ItemRule) : List Item :=
  let q := s.part p
  let tasks := (List.range im.tasks.length).map (fun t =>
    let x := mget {} l.tasks t
    ({ status := r.task.1, cause := r.task.2.1, sub := r.task.2.2, kind := 0, never := s.taskNever t x, id := t,
       detail := if x.st = .idle then (imCore im l.variant t).getD 0 else x.core } : Item))
  let entered := l.lists.map (fun x =>
    let y := if x.failed then r.fault else if x.ended then r.done else r.open_
    ({ status := y.1, cause := y.2.1, sub := y.2.2, kind := 1, never := !x.begun, id := x.id,
       detail := if x.failed then x.descid else 0 } : Item))
  let left := (imDma im l.variant).flatMap (fun e =>
    let here := (l.lists.filter (fun x => x.id == e.1)).length
    (e.2.drop here).map (fun _ =>
      ({ status := r.open_.1, cause := r.open_.2.1, sub := r.open_.2.2, kind := 1, never := true, id := e.1,
         detail := 0 } : Item)))
  let len (h : Nat) : Nat := ((q.cask.seqs.find? (fun x => x.handle == h)).map (fun x => x.len)).getD 0
  let idle := (List.range im.tasks.length).all (fun t => s.taskNever t (mget {} l.tasks t))
  let seqs := l.seqs.map (fun h =>
    ({ status := r.seq.1, cause := r.seq.2.1, sub := r.seq.2.2, kind := 2, never := idle, id := h, detail := len h } : Item))
  let stalled := l.stalled.map (fun e =>
    ({ status := if e.2 = 8 then 0x20 else 0x31, cause := e.2, kind := 2, never := idle, id := e.1,
       detail := len e.1 } : Item))
  tasks ++ entered ++ left ++ seqs ++ stalled

/-- The items of a launch none of whose tasks started (R365, R412). -/
def imItemsNever (im : SchedImage) (v : Option Nat) (status cause sub : Nat) : List Item :=
  (List.range im.tasks.length).map (fun t =>
    ({ status := status, cause := cause, sub := sub, kind := 0, never := true, id := t,
       detail := (imCore im v t).getD 0 } : Item))
    ++ (imDma im v).flatMap (fun e => e.2.map (fun _ =>
      ({ status := status, cause := cause, sub := sub, kind := 1, never := true, id := e.1, detail := 0 } : Item)))

/-! ### The end of a launch -/

/-- C2 of the final reply of a launch (R359): its repitches, and the absent cluster of the variant last run. -/
def launchC2 (l : Launch) : Word := place l.rollbacks 8 0 ||| place (l.variant.getD 0xFF) 8 8

/-- No launch is in progress: its cores are idle, and its cellar is empty. -/
def State.launchClose (s : State) (p : Nat) : State :=
  (s.modPart p (fun q =>
    { q with launch := none, abort := none, rolledBack := false, lossy := false, logged := [], cellar := [],
             st := if q.st = .running then .idle else q.st, preq := false })).mapPartCores p
    (fun _ c => { c with run := .idle, waiting := none, ipend := c.ipend &&& 0xFFFE })

/-- The CANCEL commands that wait for a target complete with outcome 0b010 (R365). -/
def State.cancelsDone (s : State) (p : Nat) (tag : Nat) : State :=
  let mine (s : State) (e : CmdSrc × Nat) : Option Cmd :=
    (s.cmdOf e.1 e.2).bind (fun c => if field (c.p 1) 15 0 = tag then some c else none)
  let hit := (s.part p).cancels.filter (fun e => (mine s e).isSome)
  let s1 := s.modPart p (fun q => { q with cancels := q.cancels.filter (fun e => !hit.contains e) })
  hit.foldl (fun s e => match mine s e with | some c => s.finish c { c2 := 2 } | none => s) s1

/-- The launch in progress ends with a final status: the records of the errors that stopped it are closed, and
its report and reply are written, before the replies of the CANCELs that asked for it. -/
def State.endLaunch (s : State) (p : Nat) (r : Result) (is : List Item) (lost : Option Nat) (peer : Bool) : State :=
  match (s.part p).launch with
  | none => s
  | some l =>
    let s1 := (s.closeActed p lost peer).launchClose p
    match s1.cmdOf l.src l.tag with
    | none => s1
    | some c =>
      let w := s1.writeReport p c { r with c2 := launchC2 l } is
      (w.2.finish c w.1).cancelsDone p l.tag

end Sys2Proof.Machine
end

