-- ==== Sys2Proof/Machine/Cmds.lean ====
section
/-!
DEFINITION. Command packets once accepted: their order of start (R352, R357), how a packet's row finds its
command, refusals and failures, and memory that commands read.
-/
namespace Sys2Proof.Machine
open Sys2Proof

/-! ### Status codes (R355) -/

def stRejOpcode : Nat := 0x10
def stRejReserved : Nat := 0x11
def stRejEpoch : Nat := 0x12
def stRejOvercommit : Nat := 0x13
def stRejBusy : Nat := 0x14
def stRejPermission : Nat := 0x15
def stFault : Nat := 0x20
def stAbort : Nat := 0x21
def stCancelled : Nat := 0x22
def stNoSpace : Nat := 0x30
def stDegraded : Nat := 0x40
def stDataLoss : Nat := 0x41

/-! ### Starting a command -/

/-- The command that a row starts: outstanding, with the row's opcode, and free to start. [log 69: DESIGN CHOICE] -/
def State.cmdFor (s : State) (src : CmdSrc) (tag op : Nat) : Option Cmd :=
  match s.cmdOf src tag with
  | none => none
  | some c => if c.op = op && s.mayStart c then some c else none

/-- A command that has started and runs on. -/
def State.startCmd (s : State) (c : Cmd) : State := (s.modCmd c (fun c => { c with started := true })).nopSweep

/-- A command refused or failed with a status. -/
def State.refuse (s : State) (c : Cmd) (status : Nat) : State := s.finish c { status := status }

/-- The whole partition a command acts on. -/
def Cmd.partOr (c : Cmd) : Nat := c.part.getD 0

/-! ### Memory that a command reads -/

/-- n bytes that a command reads from its partition's memory or from host memory (R359): none where an access
fails or the data cannot be corrected. Each byte counts as one access of `h`. -/
def State.cmdRead (s : State) (p : Nat) (host : Bool) (a n : Nat) (h : Hit) : Option (List Byte) × State :=
  if host then
    let hp := (s.part p).hostPort
    if (s.part p).valid && hostAnswers hp a n then
      let r := s.freeBytes n
      (some r.1, r.2)
    else (none, s)
  else
    match masterXlateN s p .read a n with
    | .error _ => (none, s)
    | .ok ts =>
      let as := physAddrs ts
      if as.length = n && as.all (fun x => (placeOf x).isMemory) then
        let r := s.eccAll as maltsterId h
        if r.2 then (some (as.map r.1.getByte), r.1) else (none, r.1)
      else (none, s)

/-! ### Cores of a partition -/

/-- Every core of a partition that is not mapped out, changed by `f`. -/
def State.eachCore (s : State) (p : Nat) (f : Core → Core) : State :=
  ((s.part p).live.flatMap clusterCores).foldl (fun s k => s.modCore k f) s

/-- The queue pair's number of a source; none for the management path. -/
def srcQp (src : CmdSrc) : Option Nat := match src with | .qp _ q => some q.val | .mgmt => none

/-- A counter record of a source's queue pair changed (R387). -/
def State.modAcct (s : State) (p : Nat) (src : CmdSrc) (f : Acct → Acct) : State :=
  match srcQp src with
  | none => s
  | some q => s.modPart p (fun x => { x with acct := mput x.acct q (f (mget {} x.acct q)) })

end Sys2Proof.Machine
end

