-- ==== Sys2Proof/Machine/ImageCheck.lean ====
section
/-!
DEFINITION. What SCHED_LOAD checks in a schedule image (R129, R147, R377, R402) and how much of the system
area the schedule takes.
-/
namespace Sys2Proof.Machine
open Sys2Proof

/-! ### Route words (R147) -/

/-- Whether a source code names a link of core k in the partition; the program of a task that no map assigns has no
core, and no link of it is judged. -/
def linkOk (s : State) (k : Option Nat) (code : Nat) : Bool :=
  match k, rsrc code with
  | some k, .link d =>
    match neighbour k (linkDir d) with
    | none => false
    | some j => (s.partOfCore j).isSome && s.partOfCore j == s.partOfCore k
  | _, _ => true

/-- Whether an output's own link and its source are legal. -/
def selOk (s : State) (k : Option Nat) (own code : Nat) : Bool :=
  decide (code < 7) && decide (code ≠ own) && linkOk s k code && (code == 0 || linkOk s k own)

/-- Whether a FWD word keeps the rules of R147. -/
def fwdOk (s : State) (k : Option Nat) (x : Nat) : Bool :=
  let f (hi lo : Nat) : Nat := nbits x hi lo
  let sels := [f 34 32, f 37 35, f 40 38, f 43 41]
  let seld := f 46 44
  let fmt := f 49 48
  let slots := (List.range 5).map (fun i => f (52 + 3 * i) (50 + 3 * i))
  let ops := slots.takeWhile (fun c => c != 0)
  let usesSum := (seld :: sels).contains 6
  !x.testBit 3 && !x.testBit 47 && f 127 89 == 0
    && (sels.zipIdx).all (fun e => selOk s k (e.2 + 1) e.1)
    && decide (seld < 7) && linkOk s k seld
    && ops.all (fun c => decide (c < 6) && linkOk s k c)
    && (if fmt = 0 then !usesSum && slots.all (fun c => c == 0)
        else usesSum && decide (2 ≤ ops.length) && ops.eraseDups.length == ops.length
          && (slots.drop ops.length).all (fun c => c == 0))
    && !(x.testBit 82 && f 88 87 != 0)

/-- The body of the LOOP word at an index: its first word and the LOOP word itself. -/
def loopSpan (i x : Nat) : Nat × Nat := (i - nbits x 13 4, i)

/-- The loops of a program. [log 93: DEDUCED] -/
def loopSpans (ws : List (BitVec 128)) : List (Nat × Nat) :=
  (ws.zipIdx.filter (fun e => nbits e.1.toNat 2 0 == 1)).map (fun e => loopSpan e.2 e.1.toNat)

/-- Whether a LOOP word keeps R149. [log 93: DEDUCED] -/
def loopOk (spans : List (Nat × Nat)) (i x : Nat) : Bool :=
  let back := nbits x 13 4
  let me := loopSpan i x
  !x.testBit 3 && nbits x 127 46 == 0 && decide (1 ≤ back ∧ back ≤ i)
    && spans.all (fun o =>
      decide (o.2 < me.1) || decide (me.2 < o.1) || decide (o.1 ≤ me.1 ∧ me.2 ≤ o.2) || decide (me.1 ≤ o.1 ∧ o.2 ≤ me.2))
    && decide ((spans.filter (fun o => decide (o.1 ≤ me.1 ∧ me.2 ≤ o.2))).length ≤ 4)

def wordOk (s : State) (k : Option Nat) (spans : List (Nat × Nat)) (i : Nat) (w : BitVec 128) : Bool :=
  let x := w.toNat
  match nbits x 2 0 with
  | 0 => fwdOk s k x
  | 1 => loopOk spans i x
  | 2 => x == 2
  | _ => false

/-- A route program for a task on core k: none at all, or one that ends, of at most 1,024 legal words, with
legal stream entries and time-out. -/
def routeOk (s : State) (k : Option Nat) (r : RouteProg) : Bool :=
  decide (r.words.length ≤ 1024) && (r.words.isEmpty || r.words.contains 2)
    && (r.words.zipIdx).all (fun e => wordOk s k (loopSpans r.words) e.2 e.1)
    && (r.inj ++ r.dlv).all (fun e => field e 63 48 == 0) && decide (r.inj.length ≤ 16 ∧ r.dlv.length ≤ 16)
    && decide (r.tmoexp ≤ 12)

/-- The schedule's maps: the full one and each variant's. -/
def imKinds (im : SchedImage) : List (Option Nat) := none :: im.variants.map (fun v => some v.absent)

/-- R147 over every route program of an image, on the core that a map gives its task, and the programs of tasks that no
map names. -/
def routesOk (s : State) (im : SchedImage) : Bool :=
  (imKinds im).all (fun v => (imMap im v).all (fun e => e.2.all (fun t => routeOk s (some e.1) (imRoute im v t))))
    && im.tasks.all (fun d => routeOk s none d.route) && im.variants.all (fun v => v.routes.all (fun e => routeOk s none e.2))

/-! ### Scope (R377, R402) -/

/-- Whether every core and cluster that the image names lies in the partition, and its logged ranges in the
slices the partition owns, outside the system area. -/
def scopeOk (s : State) (p : Nat) (im : SchedImage) : Bool :=
  let core (k : Nat) : Bool := s.partOfCore k == some p
  let cl (c : Nat) : Bool := s.partOfCluster c == some p
  (imKinds im).all (fun v => (imMap im v).all (fun e => core e.1))
    && im.variants.all (fun v => cl v.absent && v.windows.all (fun w => core w.core))
    && (im.dma.all (fun e => cl (e.1 / 16))) && (im.paces.all (fun e => cl (e.1 / 16)))
    && im.windows.all (fun w => core w.core) && im.loggedSp.all (fun e => core e.1)
    && im.logged.all (fun r => (List.range r.2).all (fun i =>
        let a := (r.1 + i) * 64
        decide (a < memEnd) && s.ownerOf (.mem a) == some p && decide (a % sliceBytes < (s.part p).usable)
          && !(s.part p).inSystemArea (a % sliceBytes)))

/-! ### Space (R129, R377, R402, R411) -/

/-- The windows an image declares, those of its variants included. -/
def imAllWindows (im : SchedImage) : List WinDef := im.windows ++ im.variants.flatMap (fun v => v.windows)

/-- R129: a window slot or byte range of the image, a carried range among them, meets a resident window of another
schedule loaded on the core. -/
def windowsMeet (q : Part) (im : SchedImage) : Bool :=
  let others := (q.scheds.flatMap (fun x => imAllWindows x.image)).filter (fun w => w.resident)
  (imAllWindows im).any (fun w => others.any (fun o =>
    w.core == o.core && (w.slot == o.slot || (decide (winLo w < winHi o) && decide (winLo o < winHi w)))))
    || (imKinds im).any (fun v => others.any (fun o =>
      (imCarried im v o.core).any (fun r => decide (r.1 < winHi o) && decide (winLo o < r.1 + r.2))))

/-- The bytes of a live declaration (R386). -/
def liveBytes (d : LiveDecl) : Nat :=
  4096 * d.tiles.length + 49152 * d.accs.length + (d.carried.map (fun r => r.2)).sum + (d.opcache.map (fun r => r.2)).sum
    + (if d.point.isSome then 512 else 0)

/-- A core's largest live declaration, over the full schedule and the variants. -/
def coreLive (im : SchedImage) (k : Nat) : Nat :=
  (im.live.filter (fun d => (imKinds im).any (fun v => (imTasksOf im v k).contains d.task))).foldl
    (fun m d => max m (liveBytes d)) 0

/-- Lines of the logged ranges. -/
def loggedLines (im : SchedImage) : Nat :=
  (im.logged.map (fun r => r.2)).sum + (im.loggedSp.map (fun e => (linesOf (spadAddr e.1 e.2.1) e.2.2).2)).sum

/-- The bytes of the system area that a schedule takes: its image, one boundary and three pre-emption save areas
for each core (R377), and its cellar (R402). -/
def schedBytes (cores : List Nat) (im : SchedImage) (imageBytes : Nat) : Nat :=
  let n := loggedLines im
  imageBytes + 4 * (cores.map (coreLive im)).sum + 72 * n + ceilDiv n 8

/-- The system area of a partition (R376), without the kiln saves that PART_CREATE reserves (R395). -/
def Part.systemRoom (q : Part) : Nat := q.stackIds.length * 0x80000000 - 16 * q.clusters.length * 0x100000

/-- Whether the system area holds one more schedule. -/
def roomOk (q : Part) (im : SchedImage) (imageBytes : Nat) : Bool :=
  decide ((q.scheds.map (fun x => x.bytes)).sum + schedBytes (q.clusters.flatMap clusterCores) im imageBytes ≤ q.systemRoom)

/-! ### The image as an operand -/

/-- Whether a physical address lies in a partition's system area. [log 96: DESIGN CHOICE] -/
def State.inSystem (s : State) (p a : Nat) : Bool :=
  decide (a < memEnd) && s.ownerOf (.mem a) == some p && (s.part p).inSystemArea (a % sliceBytes)

/-- Whether the pages and contents of an image lie in the system area, its pages read-only, as R376 says of what
the firmware places there, and its numbers in their ranges. [log 31: DESIGN CHOICE; log 96: DESIGN CHOICE] -/
def imagePlaced (s : State) (p : Nat) (im : SchedImage) : Bool :=
  im.pages.all (fun g => !g.writable && (g.bits == 16 || g.bits == 21 || g.bits == 30) && g.va % 2 ^ g.bits == 0
      && (match g.target with
          | .phys a => s.inSystem p a && s.inSystem p (a + 2 ^ g.bits - 1)
          | .remote _ _ _ => false))
    && im.content.all (fun e => (List.range e.2.length).all (fun i => s.inSystem p (e.1 + i)))
    && decide (im.tasks.length ≤ 768 ∧ im.variants.length ≤ 48) && im.tasks.all (fun d => decide (d.gtb < 256))
    && (imAllWindows im).all (fun w => decide (w.slot < 16) && decide (winLo w < winHi w))

end Sys2Proof.Machine
end

