-- ==== Sys2Proof/Machine/Sched.lean ====
section
/-!
DEFINITION. Schedules and the scheduler (spec 17, 18): SCHED_LOAD, SCHED_UNLOAD, LAUNCH, the order of R380,
launch and task starts, switches (R381 to R386), commit (R404) and repitch (R408).
-/
namespace Sys2Proof.Machine
open Sys2Proof

/-! ### SCHED_LOAD and SCHED_UNLOAD -/

/-- The resident windows of an image set in the cores' registers, with their initial bytes (R129, R379). -/
def State.loadResident (s : State) (id : Nat) (ws : List WinDef) : State :=
  (ws.filter (fun w => w.resident)).foldl (fun s w =>
    let s1 := s.modCore w.core (fun c => c.placeWindow id w)
    let lo := spadAddr w.core (winLo w)
    let n := winHi w - winLo w
    (s1.zeroRange lo n).putBytes lo ((w.initial.getD []).take n)) s

/-- SCHED_LOAD (R129, R147, R377, R402): `im` is what the firmware reads from the image, `h` what the read of
the image's memory finds. [log 31: DESIGN CHOICE; log 102: DEDUCED] -/
def execSchedLoad (src : CmdSrc) (tag : Nat) (im : SchedImage) (h : Hit) (s : State) : Out :=
  match s.cmdFor src tag 0x20 with
  | none => .next s
  | some c =>
    let p := c.partOr
    let q := s.part p
    let id := field (c.p 3) 31 0
    let bytes := field (c.p 2) 39 0
    if !imagePlaced s p im then .refused (.illFormed "SCHED_LOAD")
    else if (q.sched id).isSome then .next (s.refuse c stRejBusy)
    else
      let r := s.cmdRead p (bit (c.p 4) 0) (c.p 1).toNat bytes h
      match r.1 with
      | none => .next (r.2.refuse c stFault)
      | some _ =>
        if !scopeOk s p im then .next (r.2.refuse c stRejPermission)
        else if !routesOk s im then .next (r.2.refuse c stRejReserved)
        else if windowsMeet q im || !roomOk q im bytes then .next (r.2.refuse c stNoSpace)
        else
          let s1 := im.content.foldl (fun s e => s.putBytes e.1 e.2) r.2
          let s2 := s1.loadResident id (imWindows im q.variantNow)
          let pages := im.pages.map (fun g => { g with image := some id })
          let new : Sched := { id := id, image := im, bytes := schedBytes (q.clusters.flatMap clusterCores) im bytes }
          .next ((s2.modPart p (fun q => { q with scheds := q.scheds ++ [new], pages := pages ++ q.pages })).finish c {})

/-- Whether a LAUNCH or CASK_STEP of a schedule is outstanding in a partition. -/
def State.schedBusy (s : State) (p id : Nat) : Bool :=
  s.cmds.any (fun c => c.part == some p && (c.op == 0x30 || c.op == 0x52) && !c.decided && field (c.p 1) 31 0 == id)

/-- SCHED_UNLOAD (R129, R376): the resident windows zeroed and freed, the pages removed. -/
def execSchedUnload (src : CmdSrc) (tag : Nat) (s : State) : Out :=
  match s.cmdFor src tag 0x21 with
  | none => .next s
  | some c =>
    let p := c.partOr
    let id := field (c.p 1) 31 0
    match (s.part p).sched id with
    | none => .next (s.refuse c stRejPermission)
    | some _ =>
      if s.schedBusy p id then .next (s.refuse c stRejBusy)
      else
        let mine (w : Window) : Bool := w.res && w.owner == id
        let held := ((s.part p).clusters.flatMap clusterCores).flatMap (fun k =>
          ((List.range 16).filter (fun n => mine ((s.core k).window n))).map (fun n => (k, n)))
        let s1 := held.foldl (fun s e =>
          let w := (s.core e.1).window e.2
          (s.zeroRange (spadAddr e.1 (w.base * 16)) (w.last * 16 + 16 - w.base * 16)).modCore e.1 (fun c =>
            c.setWindow e.2 { c.window e.2 with en := false, res := false, owner := 0 })) s
        .next ((s1.modPart p (fun q =>
          { q with scheds := q.scheds.filter (fun x => x.id != id), pages := q.pages.filter (fun g => g.image != some id),
                   boundary := mdrop q.boundary id,
                   lastSched := if q.lastSched = some id then some 0 else q.lastSched })).finish c {})

/-! ### The order of launches (R380) -/

/-- Something that may run next in a partition: its class, whether it has not started before, its queue pair's
place in the rotation, its place in fetch order, and what it is: a suspended launch, or a command. -/
structure Cand where
  cls : Nat
  fresh : Bool
  rot : Nat
  pos : Nat
  src : CmdSrc
  tag : Nat
  launch : Bool
  deriving DecidableEq, Repr

/-- The number by which a source takes its place in the rotation; the management path comes last. -/
def srcOrder (src : CmdSrc) : Nat := (srcQp src).getD 64

def Part.rotOf (q : Part) (cls : Nat) (src : CmdSrc) : Nat :=
  match q.lastQp.find? (fun e => e.1 == cls) with
  | none => srcOrder src
  | some e => (srcOrder src + 65 - e.2 - 1) % 65

def Cand.before (a b : Cand) : Bool :=
  if a.cls ≠ b.cls then decide (a.cls < b.cls)
  else if a.fresh ≠ b.fresh then !a.fresh
  else if a.rot ≠ b.rot then decide (a.rot < b.rot)
  else decide (a.pos < b.pos)

/-- Whether a staging copy holds an item that is applied when the partition is quiescent (R367, R368). -/
def quiescentItem (x : Staged) : Bool := x.item == 3 || x.item == 4 || x.item == 5

/-- Whether a launch waits behind a commit of its partition (R368): any commit that the next launch boundary
applies, or a quiescent one accepted before it. [log 85: DEDUCED] -/
def State.behindCommit (s : State) (p : Nat) (c : Cmd) : Bool :=
  (s.part p).commits.any (fun m =>
    !(s.part p).staged.any quiescentItem
      || (cmdsBefore s.cmds c).any (fun b => b.src == m.1 && b.tag == m.2.1))

def isDmaOp (op : Nat) : Bool := op == 0x40 || op == 0x41 || op == 0x42

/-- Whether a LAUNCH or CASK_STEP has taken its place and has not been started by the scheduler. -/
def State.launchWaits (s : State) (p : Nat) (c : Cmd) : Bool :=
  let q := s.part p
  let mine (l : Launch) : Bool := l.src == c.src && l.tag == c.tag
  c.part == some p && (c.op == 0x30 || c.op == 0x52) && c.started && !c.decided
    && !(match q.launch with | some l => mine l | none => false) && !q.suspended.any (fun x => mine x.launch)

/-- Whether an earlier launch or DMA command of the same queue pair and class still waits: within a queue pair the order
is that of fetching, and a launch that R402 holds keeps its place (R380). -/
def State.behindOwn (s : State) (p : Nat) (c : Cmd) : Bool :=
  (cmdsBefore s.cmds c).any (fun b => b.src == c.src && b.cls == c.cls
    && (s.launchWaits p b || (b.part == some p && isDmaOp b.op && !b.started && !b.decided)))

/-- Whether a LAUNCH or CASK_STEP that has taken its place may start: it is the first of its queue pair, no launch of its
schedule runs or is suspended (R402), and no commit holds it. -/
def State.launchReady (s : State) (p : Nat) (c : Cmd) : Bool :=
  let q := s.part p
  let id := field (c.p 1) 31 0
  s.launchWaits p c && !s.behindOwn p c
    && !(match q.launch with | some l => l.sched == id | none => false)
    && !q.suspended.any (fun x => x.launch.sched == id) && !s.behindCommit p c

/-- The candidates of a partition. -/
def State.cands (s : State) (p : Nat) : List Cand :=
  let q := s.part p
  let susp := q.suspended.zipIdx.map (fun e =>
    ({ cls := e.1.launch.cls, fresh := false, rot := 0, pos := e.2, src := e.1.launch.src, tag := e.1.launch.tag,
       launch := true } : Cand))
  let cmd := s.cmds.zipIdx.filterMap (fun e =>
    if s.launchReady p e.1 then
      some ({ cls := e.1.cls, fresh := true, rot := q.rotOf e.1.cls e.1.src, pos := e.2, src := e.1.src, tag := e.1.tag,
              launch := true } : Cand)
    else if e.1.part == some p && isDmaOp e.1.op && s.mayStart e.1 && !s.behindOwn p e.1 then
      some ({ cls := e.1.cls, fresh := true, rot := q.rotOf e.1.cls e.1.src, pos := e.2, src := e.1.src, tag := e.1.tag,
              launch := false } : Cand)
    else none)
  susp ++ cmd

def bestOf : List Cand → Option Cand
  | [] => none
  | c :: cs =>
    match bestOf cs with
    | none => some c
    | some d => if d.before c then some d else some c

/-- Whether a DMA_COPY, FILL or COMPARE of the partition runs (R452). -/
def State.dmaRunning (s : State) (p : Nat) : Bool :=
  s.cmds.any (fun c => c.part == some p && isDmaOp c.op && c.started && !c.decided)

/-- Whether the partition can take up a launch or a command of R452: it is idle, handles no error, is not being
destroyed, and runs no such command. [log 68: DEDUCED] -/
def State.partFree (s : State) (p : Nat) : Bool :=
  let q := s.part p
  q.valid && q.st == .idle && q.launch.isNone && q.handling.isEmpty && q.destroy.isNone && !s.dmaRunning p

/-- R381: a ready launch of a lower-numbered class requests the pre-emption of the running one. -/
def State.preemptCheck (s : State) (p : Nat) : State :=
  let q := s.part p
  match q.launch with
  | none => s
  | some l =>
    if q.st == .running && q.abort.isNone && !q.preq && !l.committed
        && s.cmds.any (fun c => s.launchReady p c && decide (c.cls < l.cls)) then
      (s.modPart p (fun q => { q with preq := true })).eachCore p (fun c => { c with ipend := c.ipend ||| 1 })
    else s

/-- A LAUNCH or CASK_STEP taken into the order of R380 (R357, R360). -/
def State.queueLaunch (s : State) (c : Cmd) : State :=
  match (s.part c.partOr).sched (field (c.p 1) 31 0) with
  | none => s.refuse c stRejPermission
  | some _ => (s.startCmd c).preemptCheck c.partOr

/-- LAUNCH (R357, R360). -/
def execLaunch (src : CmdSrc) (tag : Nat) (s : State) : Out :=
  match s.cmdFor src tag 0x30 with
  | none => .next s
  | some c => .next (s.queueLaunch c)

/-- CASK_STEP (R22, R357, R360). -/
def execCaskStep (src : CmdSrc) (tag : Nat) (s : State) : Out :=
  match s.cmdFor src tag 0x52 with
  | none => .next s
  | some c => .next (s.queueLaunch c)

/-! ### Launch start (R378) -/

/-- The bin of a waiting time in nanoseconds (R387). -/
def waitBin (ns : Nat) : Nat := if ns < 1000 then 0 else min 15 (log2 (ns / 1000) + 1)

def maxU64 : Nat := 0xFFFFFFFFFFFFFFFF

/-- R387: one launch started after a wait. -/
def Acct.started (a : Acct) (w : Nat) : Acct :=
  { a with launches := satAdd 0xFFFFFFFF a.launches 1, waitSum := satAdd maxU64 a.waitSum w, waitMax := max a.waitMax w,
           hist := mput a.hist (waitBin w) (satAdd 0xFFFFFFFF (mget 0 a.hist (waitBin w)) 1) }

/-- A launch that ends before it starts: every item reported as never started. -/
def State.endUnstarted (s : State) (p : Nat) (c : Cmd) (r : Result) (is : List Item) : State :=
  let w := s.writeReport p c { r with c2 := place 0xFF00 16 0 } is
  w.2.finish c w.1

/-- A launch chosen by the scheduler starts, or is refused or ends by R360, R378, R411 or R412. -/
def State.launchCmd (s : State) (p : Nat) (c : Cmd) : State :=
  let q := s.part p
  match q.sched (field (c.p 1) 31 0) with
  | none => s.refuse c stRejPermission
  | some x =>
    let im := x.image
    if bit (c.p 1) 48 && decide (field (c.p 1) 47 32 ≠ q.epoch) then s.refuse c stRejEpoch
    else if x.stale then
      s.endUnstarted p c { status := stDataLoss, cause := 0x0C } (imItemsNever im q.variantNow 0x21 0x0C 0)
    else match q.chooseVariant im with
      | .error sub =>
        s.endUnstarted p c { status := stDegraded, cause := 0x0D, sub := sub } (imItemsNever im none 0x22 0x0D sub)
      | .ok v =>
        let l : Launch :=
          { sched := x.id, src := c.src, tag := c.tag, step := c.op == 0x52, cls := c.cls, seed := c.p 2,
            epoch := q.epoch, ready := c.op != 0x52 }
        let s1 := (s.launchBegin p l im v).modAcct p c.src (fun a => a.started (s.ao - c.at_))
        s1.modPart p (fun q => { q with lastQp := mput q.lastQp c.cls (srcOrder c.src) })

/-- LAUNCH_START (R21, R378, R380): the next in order starts; a suspended launch comes back by a switch. -/
def execLaunchStart (p : PartId) (s : State) : Out :=
  if !s.partFree p.val then .next s
  else match bestOf (s.cands p.val) with
    | none => .next s
    | some b =>
      if !b.fresh then
        .next (s.modPart p.val (fun q => { q with st := .switching, incoming := some (b.src, b.tag) }))
      else if !b.launch then .next s
      else match s.cmdOf b.src b.tag with
        | none => .next s
        | some c => .next (s.launchCmd p.val c)

/-! ### Task start (R66, R183) -/

/-- The next task of a core: the first of its list that has not run, when no other of its tasks runs. -/
def Launch.nextTask (l : Launch) (im : SchedImage) (k : Nat) : Option Nat :=
  (imTasksOf im l.variant k).find? (fun t => (mget {} l.tasks t).st == .idle)

/-- TASK_START (R66, R94, R125, R144, R183, R377): a core of the launch in progress starts its next task, unless
PREEMPT is pending. -/
def execTaskStart (k : CoreId) (s : State) : Out :=
  match s.partOfCore k.val with
  | none => .next s
  | some p =>
    let q := s.part p
    let c := s.core k.val
    match q.launch with
    | none => .next s
    | some l =>
      if q.st != .running || q.abort.isSome || !l.ready || (c.run != .idle && c.run != .ended) || c.ipend.getLsbD 0 then
        .next s
      else match q.sched l.sched with
        | none => .next s
        | some x =>
          match l.nextTask x.image k.val with
          | none => .next s
          | some t => .next (s.startTask p k.val t l x.image)

/-! ### Switches (R381 to R386) -/

/-- The cores of a partition that the state lists. -/
def State.coresOf (s : State) (p : Nat) : List (Nat × Core) := s.cores.filter (fun e => s.partOfCore e.1 == some p)

def State.clustersOf (s : State) (p : Nat) : List (Nat × Cluster) :=
  s.clusters.filter (fun e => s.partOfCluster e.1 == some p)

/-- Every core parked: none runs, and those at a yield point stand at the same one. -/
def State.allParked (s : State) (p : Nat) : Bool :=
  let cs := s.coresOf p
  let at_ := (cs.filter (fun e => e.2.run == .parked)).map (fun e => e.2.yieldAt)
  cs.all (fun e => e.2.run != .running) && at_.all (fun y => some y == at_.head?)

/-- No channel of the partition has a list outstanding (R245). -/
def State.dmaIdle (s : State) (p : Nat) : Bool :=
  (s.clustersOf p).all (fun e => e.2.dma.chans.all (fun x => !x.2.outstanding && x.2.descs.isEmpty))

/-- No engine of the partition holds a descriptor (R269). -/
def State.enginesIdle (s : State) (p : Nat) : Bool :=
  (s.clustersOf p).all (fun e => [1, 2, 3, 4].all (fun n => (e.2.eng n).queue.isEmpty))

/-- No CLT operation of the partition is unacknowledged. -/
def State.cltIdle (s : State) (p : Nat) : Bool :=
  (s.part p).conns.all (fun e => e.2.unacked.isEmpty && e.2.filling.isEmpty)

/-- Every flag queue of the partition is drained (R223). -/
def State.flagsIdle (s : State) (p : Nat) : Bool := (s.coresOf p).all (fun e => s.flagsDrained e.1)

/-- No flag message that a router or an engine sent is on its way to a flag of the partition (R159, R255). -/
def State.flightEmpty (s : State) (p : Nat) : Bool :=
  s.flight.all (fun m => m.origin.isSome || !targetIn m.target (fun c => s.partOfCluster c == some p))

/-- The conditions of R382. [log 100: DEDUCED] -/
def State.mayLeave (s : State) (p : Nat) : Bool :=
  (s.coresOf p).all (fun e => !e.2.rt.run && e.2.rt.bufN.isEmpty && e.2.rt.bufS.isEmpty && e.2.rt.bufE.isEmpty
      && e.2.rt.bufW.isEmpty)
    && s.dmaIdle p && s.enginesIdle p && s.flagsIdle p && s.flightEmpty p && s.cltIdle p

/-- The stack caches of a core's busy banks spilled (R184): the state, and the spilled ranges. -/
def State.spillBanks (s : State) (k : Nat) : State × List (Nat × Nat) :=
  ([0, 1, 2, 3] : List (Fin 4)).foldl (fun (a : State × List (Nat × Nat)) r =>
    let b := (a.1.core k).banks.get r
    if !b.busy then a
    else
      let put (s : State) (x : Stk) : State :=
        (b.cache x).zipIdx.foldl (fun s e => s.stackPut k (b.ptr x + 8 * e.2) e.1) s
      let s1 := (put (put a.1 .data) .ret).modCore k (fun c =>
        { c with banks := c.banks.set r { b with ds := [], rs := [] } })
      (s1, (b.dsp, 8 * b.ds.length) :: (b.rsp, 8 * b.rs.length) :: a.2)) (s, [])

/-- What a switch keeps of a parked core (R110, R386): tile registers, accumulators and operand-cache ranges that
its task declares live at the yield point, and its control state. -/
def Core.saved (c : Core) (d : Option LiveDecl) : Core :=
  match c.run with
  | .parked =>
    let l : LiveDecl := d.getD { task := 0, point := none }
    { c with tile := { c.tile with regs := c.tile.regs.filter (fun e => l.tiles.contains (e.1 / 4096)),
                                   acc := c.tile.acc.filter (fun e => l.accs.contains (e.1 / 4096)) },
             vsu := { c.vsu with cache := c.vsu.cache.filter (fun e => inRanges l.opcache e.1) } }
  | _ => c

/-- A switch out: the launch in progress leaves, and its live state is saved (R384 to R386). [log 100: DEDUCED] -/
def State.switchOut (s : State) (p : Nat) (l : Launch) (im : SchedImage) : State :=
  let s0 := (s.part p).live.foldl (fun s c => s.allInPlace c) s
  let r := (s0.coresOf p).foldl (fun (a : State × List (Nat × Nat)) e =>
    let x := a.1.spillBanks e.1
    (x.1, a.2 ++ x.2.map (fun g => (spadAddr e.1 g.1, g.2)))) (s0, [])
  let s1 := r.1
  let keep (a : Nat) : Bool := s1.carriedAddr im l.variant a || inRanges r.2 a
  let ts : List (Nat × TaskRun) := l.tasks.map (fun e =>
    let x : TaskRun := { e.2 with issued := !s1.taskNever e.1 e.2 }
    (e.1, x))
  let l' : Launch := { l with outAt := s1.ao, tasks := ts }
  let decl (c : Core) : Option LiveDecl := im.live.find? (fun d => d.task == c.task && d.point == some c.yieldAt)
  let q := s1.part p
  let sv : Saved :=
    { launch := l', cores := (s1.coresOf p).map (fun e => (e.1, e.2.saved (decl e.2))),
      flags := (s1.clustersOf p).map (fun e => (e.1, e.2.flags)), bytes := s1.mem.filter (fun e => keep e.1),
      logged := q.logged, cellar := q.cellar }
  (s1.modPart p (fun q =>
    { q with launch := none, logged := [], cellar := [], st := .switching, preq := false, lastSched := some 0,
             suspended := q.suspended ++ [sv] })).mapPartCores p (fun _ c => { c with run := .idle, ipend := c.ipend &&& 0xFFFE })

/-- SWITCH_START (R382): with every core parked at one yield point, the switch out starts; where a condition
fails, a YMISS is counted and the cores go on. -/
def execSwitchStart (p : PartId) (s : State) : Out :=
  let q := s.part p.val
  match q.launch with
  | none => .next s
  | some l =>
    if q.st != .running || q.abort.isSome || l.committed || !q.preq || !s.allParked p.val
        || (s.coresOf p.val).any (fun e => !e.2.posted.isEmpty) then .next s
    else if !s.mayLeave p.val then
      .next ((s.modPart p.val (fun q => { q with ymiss := satAdd 0xFFFFFFFF q.ymiss 1 })).mapPartCores p.val
        (fun _ c => { c with run := if c.run = .parked then .running else c.run }))
    else match q.sched l.sched with
      | none => .next s
      | some x =>
        let s1 := (s.switchOut p.val l x.image).modAcct p.val l.src (fun a =>
          { a with preempts := satAdd 0xFFFFFFFF a.preempts 1 })
        .next (s1.modPart p.val (fun q =>
          { q with incoming := (bestOf (s1.cands p.val)).map (fun b => (b.src, b.tag)) }))

/-- A core of a resumed launch: what was saved, with the state of the core that no launch owns. [log 95: DEDUCED] -/
def Core.resume (cur sv : Core) : Core :=
  { sv with run := (match sv.run with | .parked => .running | r => r), ipend := sv.ipend &&& 0xFFFE,
            l1d := [], l1i := [], ddis := cur.ddis, idis := cur.idis, dpar := cur.dpar, ipar := cur.ipar, sp := cur.sp,
            posted := [], rt := { sv.rt with ce := cur.rt.ce } }

/-- A suspended launch comes back (R125, R140, R184, R214, R384 to R386). [log 100: DEDUCED] -/
def State.switchIn (s : State) (p : Nat) (sv : Saved) (im : SchedImage) : State :=
  let l := sv.launch
  let s1 := ((if (s.part p).lastSched = some l.sched then s else s.carriedOut p).cachesBoundary p).tunsZero p
  let s2 := s1.windowsFor p l.sched (imWindows im l.variant)
  let s3 := ((s2.part p).live.flatMap clusterCores).foldl (fun s k => s.clearScratch k (imCarried im l.variant k)) s2
  let s4 : State := { s3 with mem := memPutCells (s3.mem.filter (fun e => !s3.carriedAddr im l.variant e.1)) sv.bytes }
  let s5 := (s4.mapPartCores p (fun _ c => { c with run := .idle })).mapPartClusters p (fun x => { x with flags := 0 })
  let s6 := sv.cores.foldl (fun s e => s.modCore e.1 (fun c => c.resume e.2)) s5
  let s7 := sv.flags.foldl (fun s e => s.modCluster e.1 (fun x => { x with flags := e.2 })) s6
  s7.modPart p (fun q =>
    { q with launch := some l, abort := none, rolledBack := false, lossy := false, st := .running, incoming := none,
             logged := sv.logged, cellar := sv.cellar, lastSched := some l.sched,
             suspended := q.suspended.filter (fun x => x != sv) })

/-- Cellar lines put back with full 64-byte writes, which clear poison (R406). -/
def State.restoreLines (s : State) (ls : List (Nat × List Byte)) : State :=
  ls.foldl (fun s e =>
    let s1 := (s.zeroRange (e.1 * 64) 64).putBytes (e.1 * 64) (e.2.take 64)
    { s1 with poison := s1.poison.filter (fun b => b != e.1) }) s

/-- A scratchpad byte that lies in a resident window of a schedule. -/
def State.residentOf (s : State) (id k off : Nat) : Option Nat :=
  if (List.range 16).any (fun n =>
      let w := (s.core k).window n
      w.res && w.owner == id && decide (w.base * 16 ≤ off ∧ off < w.last * 16 + 16)) then some (spadAddr k off)
  else none

/-- Where the bytes of a schedule's resident window that held byte `off` of core k now lie: in place, or where the
variant for the absent cluster has moved the window (R411). -/
def State.residentPlace (s : State) (p id : Nat) (im : SchedImage) (k off : Nat) : Option Nat :=
  match (s.part p).variantNow with
  | some c =>
    if clusterOf k ≠ c then s.residentOf id k off
    else
      (im.windows.find? (fun x => x.resident && x.core == k && decide (winLo x ≤ off) && decide (off < winHi x))).bind
        (fun x => ((((imVariant im c).map (fun v => v.windows)).getD []).find? (fun w => w.moved == some (k, x.slot))).map
          (fun w => spadAddr w.core (winLo w + (off - winLo x))))
  | none => s.residentOf id k off

/-- The cellar of a suspended launch put back (R127, R383, R406): device memory and resident bytes where they lie, and
carried bytes in the boundary save area of its schedule, since another launch's bytes stand in the scratchpads. -/
def State.restoreSuspended (s : State) (p : Nat) (sv : Saved) (im : SchedImage) : State :=
  let id := sv.launch.sched
  let v := sv.launch.variant
  let bytes : List Host.Cell := sv.cellar.flatMap (fun e => (e.2.take 64).zipIdx.map (fun b => (e.1 * 64 + b.2, b.1)))
  let resident (a : Nat) : Option Nat :=
    match placeOf a with
    | .spad k off => s.residentPlace p id im k off
    | _ => none
  let carried (a : Nat) : Bool :=
    match placeOf a with
    | .spad k off => inRanges (imCarried im v k) off && (s.residentPlace p id im k off).isNone
    | _ => false
  let move (a : Nat) : Nat :=
    match v, (s.part p).variantNow with
    | none, some c => carriedMove im c a
    | _, _ => a
  let s1 := s.restoreLines (sv.cellar.filter (fun e => decide (e.1 * 64 < memEnd)))
  let s2 := bytes.foldl (fun s b => match resident b.1 with | some a => s.putByte a b.2 | none => s) s1
  let old := memPutCells (sv.bytes.filter (fun e => carried e.1)) (bytes.filter (fun b => carried b.1))
  s2.modPart p (fun q =>
    { q with boundary := mput q.boundary id (memPutCells [] (old.map (fun e => (move e.1, e.2)))) })

/-- A suspended launch whose saved state was discarded comes back rolled back, to be repitched (R383). -/
def State.switchInLost (s : State) (p : Nat) (sv : Saved) (im : SchedImage) : State :=
  (s.restoreSuspended p sv im).modPart p (fun q =>
    { q with launch := some sv.launch, abort := some { cause := 0x0B, sub := 0, hw := true }, rolledBack := true,
             lossy := false, st := .running, incoming := none, logged := [], cellar := [],
             suspended := q.suspended.filter (fun x => x != sv) })

/-! ### CANCEL (R365) -/

/-- The items of a launch that is cancelled (R365). -/
def cancelRule : ItemRule :=
  { task := (0x22, 0, 0), open_ := (0x22, 0, 0), done := (0x22, 0, 0), fault := (0x22, 0, 0), seq := (0x22, 0, 0) }

/-- A command that has not run completes CANCELLED; a launch reports every item as never started. -/
def State.cancelUnstarted (s : State) (p : Nat) (t : Cmd) : State :=
  if t.op = 0x30 ∨ t.op = 0x52 then
    match (s.part p).sched (field (t.p 1) 31 0) with
    | none => s.refuse t stCancelled
    | some x => s.endUnstarted p t { status := stCancelled } (imItemsNever x.image (s.part p).variantNow 0x22 0 0)
  else s.refuse t stCancelled

/-- A suspended launch ends: rolled back from its cellar, with its items by a rule (R365, R383). -/
def State.endSuspended (s : State) (p : Nat) (sv : Saved) (r : Result) (rule : ItemRule) : State :=
  let s0 := match (s.part p).sched sv.launch.sched with
    | some x => s.restoreSuspended p sv x.image
    | none => s.restoreLines sv.cellar
  let s1 := s0.modPart p (fun q => { q with suspended := q.suspended.filter (fun x => x != sv) })
  match s1.cmdOf sv.launch.src sv.launch.tag, (s1.part p).sched sv.launch.sched with
  | some t, some x =>
    let w := s1.writeReport p t { r with c2 := launchC2 sv.launch } (s1.items p sv.launch x.image rule)
    w.2.finish t w.1
  | some t, none => s1.finish t r
  | none, _ => s1

/-! ### Launches that end without a commit -/

/-- R262, R413: the items of a launch that ends FAILED_FAULT. [log 108: DEDUCED] -/
def faultRule (cause sub : Nat) : ItemRule :=
  { task := (0x20, cause, sub), open_ := (0x22, 0, 0), done := (0, 0, 0), fault := (0x20, 2, sub), seq := (0x21, 0x10, 0) }

/-- R413: the items of a launch that ends FAILED_ABORT, or PARTITION_DATA_LOSS with cause DATALOSS. [log 108: DEDUCED] -/
def abortRule (cause : Nat) : ItemRule :=
  { task := (0x21, cause, 0), open_ := (0x21, 0x10, 0), done := (0x21, 0x10, 0), fault := (0x21, 0x10, 0),
    seq := (0x21, 0x10, 0) }

/-- R413: the items of a launch that ends DEGRADED_NO_SCHEDULE. -/
def degradedRule (sub : Nat) : ItemRule :=
  { task := (0x22, 0x0D, sub), open_ := (0x22, 0x0D, sub), done := (0x22, 0x0D, sub), fault := (0x22, 0x0D, sub),
    seq := (0x22, 0x0D, sub) }

/-- The items of the launch in progress by a rule. -/
def State.launchItems (s : State) (p : Nat) (l : Launch) (r : ItemRule) : List Item :=
  match (s.part p).sched l.sched with
  | none => []
  | some x => s.items p l x.image r

/-- R362: the suspended launches of a partition whose running launch ended PARTITION_DATA_LOSS or
DEGRADED_NO_SCHEDULE are stopped with FAILED_ABORT. [log 101: DEDUCED] -/
def State.dropSuspended (s : State) (p : Nat) : State :=
  (s.part p).suspended.foldl (fun s sv =>
    s.endSuspended p sv { status := stAbort, cause := 0x10 } (abortRule 0x10)) s

/-- A rolled-back launch that a software fault, a CANCEL or a command stopped ends as its abort says; with a cellar
line lost it ends PARTITION_DATA_LOSS (R365, R406, R413). -/
def State.endAborted (s : State) (p : Nat) (l : Launch) (a : Abort) : State :=
  if (s.part p).lossy then
    (s.endLaunch p { status := stDataLoss, cause := 0x0C } (s.launchItems p l (abortRule 0x0C)) (some actDataLoss)
      false).dropSuspended p
  else
    let rule := if a.status = stCancelled then cancelRule else if a.status = stAbort then abortRule 0x10
      else faultRule a.cause a.sub
    s.endLaunch p { status := a.status, cause := a.cause, sub := a.sub } (s.launchItems p l rule) none false

/-- Every task of a launch as never started, as R412 reports it. -/
def imDegraded (im : SchedImage) (v : Option Nat) (sub : Nat) : List Item := imItemsNever im v 0x22 0x0D sub

/-- When every error of a partition has been handled and its launch is rolled back, the launch ends if it cannot be
repitched: data lost, effects at peers, an eighth rollback, a stale schedule or no variant (R406, R408, R409, R411,
R412). Otherwise REPITCH follows. -/
def State.settle (s : State) (p : Nat) : State :=
  let q := s.part p
  match q.launch, q.abort with
  | some l, some a =>
    if !a.hw || !q.rolledBack || !q.handling.isEmpty then s
    else
      let stale := match q.sched l.sched with | some x => x.stale | none => false
      let im : SchedImage := ((q.sched l.sched).map (fun x => x.image)).getD {}
      let result := (q.acted.getLast?.map (fun h => h.result)).getD 0
      if q.lossy || stale then
        (s.endLaunch p { status := stDataLoss, cause := 0x0C } (s.launchItems p l (abortRule 0x0C)) (some actDataLoss)
          false).dropSuspended p
      else if l.peerFx || decide (7 ≤ l.rollbacks) then
        s.endLaunch p { status := stFault, cause := 0x0B, sub := result } (s.launchItems p l (faultRule 0x0B result))
          (some actRollback) l.peerFx
      else match q.chooseVariant im with
        | .ok _ => s
        | .error sub =>
          (s.endLaunch p { status := stDegraded, cause := 0x0D, sub := sub } (imDegraded im none sub) (some actNoSchedule)
            false).dropSuspended p
  | _, _ => s

/-! ### CANCEL taking effect -/

/-- The outstanding command that a CANCEL names: of its partition, or on the management path one of no partition,
such as PART_CREATE; its own tag names the CANCEL itself. -/
def State.cancelTarget (s : State) (p : Nat) (c : Cmd) : Option Cmd :=
  s.cmds.find? (fun t => (t.part == some p || ((srcQp c.src).isNone && t.part.isNone))
    && (srcQp t.src).isSome == (srcQp c.src).isSome && t.tag == field (c.p 1) 15 0)

/-- A CANCEL takes effect (R365): on no outstanding command 0b000; on one not started, or a join that waits, 0b001;
on a running or suspended launch or a running DMA command 0b010; on one that has committed or whose reply is decided
0b011; on any other 0b100. A launch that runs is stopped; its CANCEL waits for the rollback, unless a hardware error has
had it rolled back already. -/
def State.cancelNow (s : State) (p : Nat) (c : Cmd) : State :=
  let done (s : State) (n : Nat) : State := s.finish c { c2 := BitVec.ofNat 64 n }
  let wait (s : State) : State := s.modPart p (fun q => { q with cancels := q.cancels ++ [(c.src, c.tag)] })
  let asked : Abort := { status := stCancelled, cause := 0, sub := 0, hw := false }
  match s.cancelTarget p c with
  | none => done s 0
  | some t =>
    let q := s.part p
    let running : Option Launch :=
      match q.launch with | some l => if l.src == t.src && l.tag == t.tag then some l else none | none => none
    if t.decided then done s 3
    else if !t.started then done (s.cancelUnstarted p t) 1
    else if t.op = 0x30 ∨ t.op = 0x52 then
      match running with
      | some l =>
        if l.committed then done s 3
        else match q.abort with
          | none => wait (s.abortLaunch p asked)
          | some a =>
            if !a.hw then done s 3
            else if q.rolledBack then done ((s.modPart p (fun q => { q with abort := some asked })).endAborted p l asked) 2
            else wait (s.modPart p (fun q => { q with abort := some asked }))
      | none =>
        match q.suspended.find? (fun x => x.launch.src == t.src && x.launch.tag == t.tag) with
        | some sv => done (s.endSuspended p sv { status := stCancelled } cancelRule) 2
        | none => done (s.cancelUnstarted p t) 1
    else if t.op = 0x50 then
      done ((s.modPart p (fun q =>
        { q with cask := { q.cask with joins := q.cask.joins.filter (fun j => !(j.src == t.src && j.tag == t.tag)) } })).refuse
          t stCancelled) 1
    else if isDmaOp t.op then done ((s.dmaCmdStop p (t.src, t.tag)).refuse t stCancelled) 2
    else done s 4

/-- CANCEL (R365, R383): during a switch it waits for the switch's end. [log 83: DEDUCED; log 101: DEDUCED] -/
def execCancel (src : CmdSrc) (tag : Nat) (s : State) : Out :=
  match s.cmdFor src tag 0x31 with
  | none => .next s
  | some c =>
    let p := c.partOr
    let s1 := s.startCmd c
    match s1.cmdOf src tag with
    | none => .next s1
    | some c' =>
      if (s.part p).st == .switching then
        .next (s1.modPart p (fun q => { q with cancels := q.cancels ++ [(src, tag)] }))
      else .next ((s1.cancelNow p c').preemptCheck p)

/-- The CANCELs that waited for a switch take effect. -/
def State.cancelsAfterSwitch (s : State) (p : Nat) : State :=
  let cs := (s.part p).cancels
  cs.foldl (fun s e => match s.cmdOf e.1 e.2 with | some c => s.cancelNow p c | none => s)
    (s.modPart p (fun q => { q with cancels := [] }))

/-- SWITCH_COMPLETE (R383 to R387): the incoming launch runs. -/
def execSwitchComplete (p : PartId) (s : State) : Out :=
  let q := s.part p.val
  if q.st != .switching then .next s
  else
    let s0 := s.modPart p.val (fun q =>
      { q with st := .idle, incoming := none, switches := satAdd 0xFFFFFFFF q.switches 1 })
    let s1 := match q.incoming with
      | none => s0
      | some t =>
        match q.suspended.find? (fun (x : Saved) => x.launch.src == t.1 && x.launch.tag == t.2) with
        | some sv =>
          let s1 := match q.sched sv.launch.sched with
            | none => s0
            | some x =>
              if sv.lost then (s0.switchInLost p.val sv x.image).settle p.val else s0.switchIn p.val sv x.image
          s1.modAcct p.val t.1 (fun a => { a with displaced := satAdd maxU64 a.displaced (s.ao - sv.launch.outAt) })
        | none =>
          match s0.cmdOf t.1 t.2 with
          | some c => if s0.launchReady p.val c then s0.launchCmd p.val c else s0
          | none => s0
    .next ((s1.cancelsAfterSwitch p.val).preemptCheck p.val)

/-! ### Commit (R404) -/

/-- Every condition of R404. -/
def State.mayCommit (s : State) (p : Nat) (l : Launch) (im : SchedImage) : Bool :=
  l.ready && (List.range im.tasks.length).all (fun t => (mget {} l.tasks t).st == .ended)
    && s.dmaIdle p && s.enginesIdle p && s.flagsIdle p && s.cltIdle p
    && (s.clustersOf p).all (fun e => e.2.l2.mb.isEmpty) && (s.coresOf p).all (fun e => e.2.posted.isEmpty)

/-- The items of a launch that committed: COMPLETED, or REPITCHED after a repitch (R413). -/
def commitRule (repitched : Bool) : ItemRule :=
  let x : Nat × Nat × Nat := (if repitched then 2 else 0, 0, 0)
  { task := x, open_ := x, done := x, fault := x, seq := x }

/-- R296: LEN grows by 1 for every sequence that the step ran. -/
def Cask.committed (c : Cask) (hs : List Nat) : Cask :=
  { c with seqs := c.seqs.map (fun x => if hs.contains x.handle then { x with len := x.len + 1 } else x) }

/-- The LEN words of the sequence table rewritten for the sequences that a step ran (R288, R296). -/
def State.writeLens (s : State) (p : Nat) (hs : List Nat) : State :=
  let c := (s.part p).cask
  (c.seqs.filter (fun x => hs.contains x.handle)).foldl (fun s x =>
    s.putBytes (c.seqtab + 64 * x.slot + 8) (leBytes 4 x.len)) s

/-- A launch whose commit record is written ends: its report and final reply (R404, R413). -/
def State.commitEnd (s : State) (p : Nat) (l : Launch) (im : SchedImage) : State :=
  let rep := decide (0 < l.rollbacks)
  s.endLaunch p { status := if rep then 2 else 0 } (s.items p l im (commitRule rep)) none false

/-- LAUNCH_COMMIT (R366, R404, R413): first the commit record is written, with the updates of a step, and the cellar's
bitmap cleared; a second one writes the report and the final reply. A CANCEL between the two meets the record. [log 131: DESIGN CHOICE] -/
def execLaunchCommit (p : PartId) (s : State) : Out :=
  let q := s.part p.val
  match q.launch with
  | none => .next s
  | some l =>
    match q.sched l.sched with
    | none => .next s
    | some x =>
      if l.committed then .next (s.commitEnd p.val l x.image)
      else if q.st != .running || q.abort.isSome || !s.mayCommit p.val l x.image then .next s
      else
        let s1 := s.modPart p.val (fun q =>
          { q with commit := some (l.sched, l.tag, l.epoch), cask := q.cask.committed l.seqs, cellar := [],
                   launch := some { l with committed := true } })
        .next (s1.writeLens p.val l.seqs)

/-! ### Repitch (R408) -/

/-- Whether the launch in progress may be repitched: a hardware error stopped it, it is rolled back, every error
of the partition has been handled, nothing was lost, no peer has its effects, and it was rolled back fewer than 8
times (R393, R408, R409). -/
def Part.mayRepitch (q : Part) (l : Launch) : Bool :=
  (match q.abort with | some a => a.hw | none => false) && q.rolledBack && q.handling.isEmpty && !q.lossy && !l.peerFx
    && decide (l.rollbacks < 7) && q.destroy.isNone

/-- REPITCH (R378, R381, R393, R408): the rolled-back launch starts again, on the variant that R378 now gives; one that
cannot be repitched ends. [log 101: DEDUCED] -/
def execRepitch (p : PartId) (s : State) : Out :=
  let q := s.part p.val
  match q.launch with
  | none => .next s
  | some l =>
    match q.sched l.sched with
    | none => .next s
    | some x =>
      if q.st != .running then .next s
      else if !q.mayRepitch l || x.stale then .next (s.settle p.val)
      else match q.chooseVariant x.image with
        | .error _ => .next (s.settle p.val)
        | .ok v =>
          let s1 := s.launchBegin p.val { l with rollbacks := l.rollbacks + 1 } x.image v
          let s2 := s1.modPart p.val (fun q =>
            { q with acted := q.acted.map (fun h => { h with atime := s.microsSince h.at_ }) })
          .next (s2.preemptCheck p.val)

end Sys2Proof.Machine
end

