-- ==== Sys2Proof/Machine/Cask.lean ====
section
/-!
DEFINITION. The cask manager (R287 to R297): joins, leaves and the step boundary.
-/
namespace Sys2Proof.Machine
open Sys2Proof

/-! ### Casks and demand -/

def Cask.tpg (c : Cask) : Nat := c.tpgM1 + 1
def Cask.cpg (c : Cask) : Nat := c.cpgM1 + 1

/-- D(L) of R290. -/
def Cask.dataCasks (c : Cask) (l : Nat) : Nat := c.cpg * ceilDiv l c.tpg

def indexCasks (d : Nat) : Nat := ceilDiv d 16384

/-- The casks that a sequence of L tokens needs. -/
def Cask.need (c : Cask) (l : Nat) : Nat := c.dataCasks l + indexCasks (c.dataCasks l)

/-- The demand of a sequence at a step (R290). -/
def Cask.demand (c : Cask) (x : Seq) : Nat := c.need (x.len + 1) - (x.index.length + x.casks.length)

/-- The n lowest-numbered free casks (R291). -/
def Cask.lowest (c : Cask) (n : Nat) : List Nat := ((List.range c.ncask).filter (fun d => !c.held.contains d)).take n

/-! ### CASK_JOIN and CASK_LEAVE -/

/-- CASK_JOIN (R292): a join whose packet was accepted enters the join queue. -/
def execCaskJoin (src : CmdSrc) (tag : Nat) (s : State) : Out :=
  match s.cmdFor src tag 0x50 with
  | none => .next s
  | some c =>
    let j : JoinReq := { src := src, tag := tag, handle := field (c.p 1) 31 0, len := field (c.p 1) 63 32, seed := c.p 2 }
    .next ((s.startCmd c).modPart c.partOr (fun q => { q with cask := { q.cask with joins := q.cask.joins ++ [j] } }))

/-- CASK_LEAVE (R293). -/
def execCaskLeave (src : CmdSrc) (tag : Nat) (s : State) : Out :=
  match s.cmdFor src tag 0x51 with
  | none => .next s
  | some c =>
    .next ((s.startCmd c).modPart c.partOr (fun q =>
      { q with cask := { q.cask with leaves := q.cask.leaves ++ [(src, tag, field (c.p 1) 31 0)] } }))

/-! ### The sequence table (R288, R289) -/

/-- Bytes written by the cask manager: outside the launch's log (R407), and nothing where they meet a poisoned
block that they do not cover (R303). [log 102: DEDUCED] -/
def State.caskWrite (s : State) (p a : Nat) (bs : List Byte) : State :=
  let lg := (s.part p).logged
  let s1 := s.modPart p (fun q => { q with logged := [] })
  (s1.placeCells ((List.range bs.length).map (fun i => a + i) |>.zip bs) (caskId p)).modPart p (fun q => { q with logged := lg })

def SeqSt.code : SeqSt → Nat
  | .running => 1 | .stalled => 2 | .full => 3

/-- The 64 bytes of a sequence's slot. -/
def Seq.bytes (x : Seq) : List Byte :=
  let i (n : Nat) : Nat := x.index.getD n 0
  ([ place x.handle 32 0 ||| place x.st.code 2 32, place x.len 32 0 ||| place x.casks.length 17 32, x.seed,
     place (i 0) 32 0 ||| place (i 1) 32 32, place (i 2) 32 0 ||| place (i 3) 32 32, 0, 0, 0 ] : List Word).flatMap
    (fun w => leBytes 8 w.toNat)

def State.writeSlot (s : State) (p slot : Nat) (bs : List Byte) : State :=
  s.caskWrite p ((s.part p).cask.seqtab + 64 * slot) bs

def State.modSeq (s : State) (p h : Nat) (f : Seq → Seq) : State :=
  s.modPart p (fun q => { q with cask := { q.cask with seqs := q.cask.seqs.map (fun x => if x.handle == h then f x else x) } })

/-- A cask zeroed (R291). -/
def State.zeroCask (s : State) (p d : Nat) : State :=
  let a := (s.part p).cask.addr d
  let s1 := s.zeroRange a 0x10000
  { s1 with poison := s1.poison.filter (fun b => !(decide (a / 64 ≤ b) && decide (b < a / 64 + 1024))) }

/-- The index entry of a data cask position (R289). -/
def State.writeIndex (s : State) (p h pos d : Nat) : State :=
  let k := (s.part p).cask
  match k.seqs.find? (fun x => x.handle == h) with
  | none => s
  | some x => s.caskWrite p (k.addr (x.index.getD (pos / 16384) 0) + 4 * (pos % 16384)) (leBytes 4 d)

/-- A sequence takes the casks that L tokens need, index casks first (R291). -/
def State.allocate (s : State) (p h l : Nat) : State :=
  let k := (s.part p).cask
  match k.seqs.find? (fun x => x.handle == h) with
  | none => s
  | some x =>
    let ni := indexCasks (k.dataCasks l) - x.index.length
    let nd := k.dataCasks l - x.casks.length
    let new := k.lowest (ni + nd)
    let s1 := new.foldl (fun s d => s.zeroCask p d) s
    let s2 := s1.modSeq p h (fun x => { x with index := x.index ++ new.take ni, casks := x.casks ++ new.drop ni })
    (new.drop ni).zipIdx.foldl (fun s e => s.writeIndex p h (x.casks.length + e.2) e.1) s2

/-! ### The step boundary (R294) -/

/-- Every queued leave applied in submission order (R293). -/
def State.caskLeaves (s : State) (p : Nat) : State :=
  let ls := (s.part p).cask.leaves
  let s0 := s.modPart p (fun q => { q with cask := { q.cask with leaves := [] } })
  ls.foldl (fun s e =>
    let k := (s.part p).cask
    let s1 := match k.seqs.find? (fun x => x.handle == e.2.2) with
      | some x =>
        (s.writeSlot p x.slot (List.replicate 64 0)).modPart p (fun q =>
          { q with cask := { q.cask with seqs := q.cask.seqs.filter (fun y => y.handle != x.handle) } })
      | none =>
        match k.joins.find? (fun (j : JoinReq) => j.handle == e.2.2) with
        | none => s
        | some j =>
          let s2 := s.modPart p (fun q =>
            { q with cask := { q.cask with joins := q.cask.joins.filter (fun y => y.handle != j.handle) } })
          match s2.cmdOf j.src j.tag with
          | some t => s2.refuse t stCancelled
          | none => s2
    match s1.cmdOf e.1 e.2.1 with
    | some c => s1.finish c {}
    | none => s1) s0

/-- The sequences marked to run among `c` (oldest first) once the youngest with a demand have been marked to stall
until the rest fits; the list in `fuel` steps. -/
def markRun (d : Seq → Nat) (f : Nat) : Nat → List Seq → List Seq
  | 0, c => c
  | fuel + 1, c =>
    if (c.map d).sum ≤ f then c
    else
      match c.reverse.find? (fun x => decide (0 < d x)) with
      | none => c
      | some y => markRun d f fuel (c.filter (fun x => x.handle != y.handle))

/-- The lowest-numbered FREE slot. -/
def Cask.freeSlot (c : Cask) : Option Nat := (List.range 4096).find? (fun n => !c.seqs.any (fun x => x.slot == n))

def Cask.runCount (c : Cask) : Nat := (c.seqs.filter (fun x => x.st == .running)).length

/-- Waiting joins admitted or refused in submission order (R294). -/
def State.caskJoins (s : State) (p bmax : Nat) : List JoinReq → State
  | [] => s
  | j :: js =>
    let k := (s.part p).cask
    if bmax ≤ k.runCount then s
    else
      let s1 := s.modPart p (fun q =>
        { q with cask := { q.cask with joins := q.cask.joins.filter (fun y => y.handle != j.handle) } })
      let reply (s : State) (status : Nat) : State :=
        match s.cmdOf j.src j.tag with
        | some t => s.finish t { status := status }
        | none => s
      match k.freeSlot with
      | none => (reply s1 stNoSpace).caskJoins p bmax js
      | some slot =>
        if k.free < k.need (j.len + 1) then (reply s1 stNoSpace).caskJoins p bmax js
        else
          let x : Seq := { handle := j.handle, slot := slot, st := .running, len := j.len, seed := j.seed, fresh := true }
          let s2 := s1.modPart p (fun q => { q with cask := { q.cask with seqs := q.cask.seqs ++ [x] } })
          (reply (s2.allocate p j.handle (j.len + 1)) 0).caskJoins p bmax js

/-- The step table (R295). -/
def stepTable (run : List Seq) : List Byte :=
  ([place run.length 13 0, 0] : List Word).flatMap (fun w => leBytes 8 w.toNat)
    ++ run.flatMap (fun x =>
      ([ place x.handle 32 0 ||| place x.slot 12 32 ||| flagAt x.fresh 44,
         place x.len 32 0 ||| place x.casks.length 17 32 ] : List Word).flatMap (fun w => leBytes 8 w.toNat))

/-- A write of the cask manager, which issues physical addresses (R18, R295): the launch fails where the address lies
in no memory of its partition, or with cause WINDOW where a scratchpad refuses the write (R130, R132, R364). -/
def State.caskTable (s : State) (p a : Nat) (bs : List Byte) : State :=
  let as := (List.range bs.length).map (fun i => a + i)
  if as.any (fun x => (placeFault s p false .write x x).isSome || !(placeOf x).isMemory) then
    s.abortLaunch p { cause := 0, sub := 0, hw := false }
  else match s.windowsRefuse as (caskId p) with
    | some (k, off, n, r) =>
      (s.windowReject k off n (caskId p) r).abortLaunch p { cause := 0x0E, sub := r.code, hw := false }
    | none => s.placeCells (as.zip bs) (caskId p)

/-- STEP_BOUNDARY (R22, R290 to R295): leaves, growth oldest first, the batch limit, joins, and the step table. The
step's tasks may then start. [log 102: DEDUCED] -/
def execStepBoundary (p : PartId) (s : State) : Out :=
  let q := s.part p.val
  match q.launch with
  | none => .next s
  | some l =>
    match s.cmdOf l.src l.tag with
    | none => .next s
    | some cmd =>
      if !l.step || l.ready || q.abort.isSome then .next s
      else
        let s1 := s.caskLeaves p.val
        let k := (s1.part p.val).cask
        let s2 := s1.modPart p.val (fun q => { q with cask := { q.cask with seqs := q.cask.seqs.map (fun x =>
          let st : SeqSt := if 65536 < k.dataCasks (x.len + 1) then .full else x.st
          { x with st := st, fresh := false }) } })
        let k2 := (s2.part p.val).cask
        let c := k2.seqs.filter (fun x => x.st != .full)
        let run := markRun k2.demand k2.free c.length c
        let runs (x : Seq) : Bool := run.any (fun y => y.handle == x.handle)
        let s3 := run.foldl (fun s x => s.allocate p.val x.handle (x.len + 1)) s2
        let bmax := field (cmd.p 1) 60 49 + 1
        let kept := (run.take bmax).map (fun x => x.handle)
        let s4 := s3.modPart p.val (fun q => { q with cask := { q.cask with seqs := q.cask.seqs.map (fun x =>
          let st : SeqSt := if x.st == .full then .full else if kept.contains x.handle then .running else .stalled
          { x with st := st }) } })
        let stall := (s4.part p.val).cask.seqs.filterMap (fun x =>
          match x.st with
          | .running => none
          | .full => some (x.handle, 8)
          | .stalled => some (x.handle, if runs x then 9 else 0x0A))
        let s5 := if stall.any (fun e => e.2 != 8) then s4 else s4.caskJoins p.val bmax (s4.part p.val).cask.joins
        let seqs := (s5.part p.val).cask.seqs
        let s6 := seqs.foldl (fun s x => s.writeSlot p.val x.slot x.bytes) s5
        let running := seqs.filter (fun x => x.st == .running)
        let s7 := s6.modPart p.val (fun q => { q with launch := q.launch.map (fun l =>
          { l with ready := true, seqs := running.map (fun x => x.handle), stalled := stall }) })
        .next (s7.caskTable p.val (field (cmd.p 5) 47 0) (stepTable running))

end Sys2Proof.Machine
end

