-- ==== Sys2Proof/Machine/Faults.lean ====
section
/-!
DEFINITION. Hardware errors (spec 19): detection, kiln tests and their actions, rollback, map-outs, FATAL errors,
and the ends of launches that did not commit.
-/
namespace Sys2Proof.Machine
open Sys2Proof

/-! ### Units (R389) -/

/-- UKIND and the number of units of a SOURCE; none for a code that is never written. -/
def sourceKind (source : Nat) : Option Nat :=
  if 1 ≤ source ∧ source ≤ 6 then some 1
  else if source = 7 then some 0
  else if source = 8 ∨ source = 9 then some 3
  else if 0x0A ≤ source ∧ source ≤ 0x0D then some 4
  else if source = 0x0E then some 2
  else if 0x0F ≤ source ∧ source ≤ 0x12 then some 5
  else none

/-- Units of a kind: engines 5 × c + e, cores, lanes, clusters, pseudo-channels; the device as a whole. -/
def unitCount (ukind : Nat) : Nat :=
  match ukind with
  | 0 => 240
  | 1 => 768
  | 2 => 64
  | 3 => 48
  | 4 => 768
  | _ => 1

/-- Whether a detection names a unit that exists. -/
def detLegal (d : Detection) : Bool :=
  sourceKind d.source == some d.ukind && decide (d.unit < unitCount d.ukind)

/-- The cluster that holds an engine, core or cluster. -/
def unitCluster (ukind unit : Nat) : Nat :=
  match ukind with
  | 0 => unit / 5
  | 1 => clusterOf unit
  | _ => unit

/-- Whether a unit is mapped out. -/
def State.unitOut (s : State) (ukind unit : Nat) : Bool :=
  match ukind with
  | 2 => (s.group (unit / 4)).failed.getLsbD (unit % 4)
  | 4 => s.pcOut unit
  | 5 => false
  | k => (s.cluster (unitCluster k unit)).absent

/-- The partition of a unit. -/
def State.unitPart (s : State) (ukind unit : Nat) : Option Nat :=
  match ukind with
  | 2 => s.partOfPort (unit / 4)
  | 4 => s.partOfStack (unit / 64)
  | 5 => none
  | k => s.partOfCluster (unitCluster k unit)

/-- The errors whose handling is under way in a partition, or of units in none. -/
def State.handlingOf (s : State) (p : Option Nat) : List Handling :=
  match p with
  | some p => (s.part p).handling
  | none => s.log.handling

def State.modHandling (s : State) (p : Option Nat) (f : List Handling → List Handling) : State :=
  match p with
  | some p => s.modPart p (fun q => { q with handling := f q.handling })
  | none => { s with log := { s.log with handling := f s.log.handling } }

def optList (p : Option Nat) : List Nat := match p with | some p => [p] | none => []

/-! ### A partition whose work fails -/

/-- Every launch of a partition, running or suspended, and every other outstanding command completes FAILED_ABORT
(R371, R414). The launch in progress is rolled back; one that has committed ends as it committed (R405). -/
def State.failPart (s : State) (p : Nat) : State :=
  let a : Abort := { status := stAbort, cause := 0x10, sub := 0, hw := false }
  let s0 := match (s.part p).launch with
    | some l =>
      if l.committed then s.commitEnd p l (match (s.part p).sched l.sched with | some x => x.image | none => {}) else s
    | none => s
  let s1 := s0.abortLaunch p a
  let s2 := match (s1.part p).launch with
    | none => s1
    | some l =>
      ((s1.restoreLines (s1.part p).cellar).modPart p (fun q => { q with abort := some a, handling := q.handling })).endAborted p l a
  let s3 := (s2.dropSuspended p).modPart p (fun q =>
    { q with cancels := [], commits := [], cask := { q.cask with joins := [], leaves := [] }, incoming := none,
             st := if q.st = .switching then .idle else q.st })
  (s3.cmds.filter (fun c => c.part == some p && !c.decided)).foldl (fun s c =>
    match s.cmdOf c.src c.tag with
    | none => s
    | some c =>
      if c.op = 0x30 ∨ c.op = 0x52 then
        match (s.part p).sched (field (c.p 1) 31 0) with
        | some x => s.endUnstarted p c { status := stAbort, cause := 0x10 }
            (imItemsNever x.image (s.part p).variantNow 0x21 0x10 0)
        | none => s.finish c { status := stAbort, cause := 0x10 }
      else
        (if isDmaOp c.op && c.started then s.dmaCmdStop p (c.src, c.tag) else s).finish c
          { status := stAbort, cause := 0x10 }) s3

/-! ### Detection (R390, R393) -/

/-- FATAL errors (R413, R414): every outstanding command fails, a record asks for a reset, and FAULT_N is
asserted and READY driven low (R432). [log 104: DEDUCED; log 113: DEDUCED] -/
def State.fatalError (s : State) (d : Detection) : State :=
  let ps := partList.filter (fun p => (s.part p).valid)
  let r := s.recordOpen d ps
  let s1 := ps.foldl (fun s p => s.failPart p) r.2
  let s2 := (s1.cmds.filter (fun c => !c.decided)).foldl (fun s c =>
    match s.cmdOf c.src c.tag with
    | none => s
    | some c => s.finish c { status := stAbort, cause := 0x10 }) s1
  let s3 := s2.recordClose { det := d, record := r.1 } .fatal actReset false ps
  { s3 with boot := { s3.boot with fault := true, ready := false } }

/-- Whether a unit's error is queued or under test. -/
def State.inHandling (s : State) (p : Option Nat) (d : Detection) : Bool :=
  (s.handlingOf p).any (fun h => h.det.ukind == d.ukind && h.det.unit == d.unit)

/-- The launches that a detection stops (R390 step 1, R383): the launch in progress, and those whose state a switch
is saving or restoring. A correction threshold stops nothing (R303, R399). [log 101: DEDUCED; log 103: DEDUCED] -/
def State.stopFor (s : State) (p : Nat) (d : Detection) : State :=
  if d.source = 0x0B then s
  else
    let s1 := s.abortLaunch p { cause := 0x0B, sub := 0, hw := true }
    if (s.part p).st == .switching then
      s1.modPart p (fun q =>
        let n := q.suspended.length
        { q with suspended := q.suspended.zipIdx.map (fun e =>
          if e.2 + 1 = n || q.incoming == some (e.1.launch.src, e.1.launch.tag) then { e.1 with lost := true } else e.1) })
    else s1

/-- The DMA commands that an uncorrectable error of a unit stopped complete with its kiln-test result, once no error of
the unit is left to handle (R413). -/
def State.hwDone (s : State) (p : Option Nat) (ukind unit result : Nat) : State :=
  match p with
  | none => s
  | some p =>
    if s.unitPending p ukind unit then s
    else (s.cmds.filter (fun c => c.part == some p && !c.decided && c.hw == some (ukind, unit))).foldl (fun s c =>
      match s.cmdOf c.src c.tag with
      | some c => s.hwFinish c result
      | none => s) s

/-- What a detection starts (R390): nothing for a unit mapped out or already being handled; a FATAL error; or a
record, the stop of the launch and a kiln test in its turn. -/
def State.handleDetection (s : State) (d : Detection) : State :=
  if d.ukind = 5 then s.fatalError d
  else
    let p := s.unitPart d.ukind d.unit
    if s.unitOut d.ukind d.unit || s.inHandling p d then s.hwDone p d.ukind d.unit (s.unitResult d.ukind d.unit)
    else
      let r := s.recordOpen d (optList p)
      let s1 := match p with
        | some p => r.2.stopFor p d
        | none => r.2
      let h : Handling := { det := d, record := r.1, at_ := s.ao }
      s1.modHandling p (fun hs => hs ++ [h])

/-- An uncorrectable block that the patrol scrub has found: poisoned, and reported to the partition that owns it
(R304). -/
def State.scrubLoss (s : State) (a : Nat) : State :=
  let s1 := s.addPoison (a / 64)
  match s.partOfStack (a / sliceBytes) with
  | some p => s1.partEvent p 0x0B 0 (place (a / 64 * 64) 48 0) 64
  | none => s1

/-- HW_ERROR_DETECTED (R389, R390): an error that a detector finds now, or the oldest one found by a read. -/
def execHwErrorDetected (d : Option Detection) (s : State) : Out :=
  match d with
  | some d =>
    if detLegal d then
      .next ((if d.source = 0x0C ∧ d.addr < memEnd then s.scrubLoss d.addr else s).handleDetection d) else .refused (.illFormed "HW_ERROR_DETECTED")
  | none =>
    match s.detections with
    | [] => .next s
    | d :: ds => .next (({ s with detections := ds } : State).handleDetection d)

/-- CWDOG (R389): a core does not stop within 2 µs of a stop request. -/
def execCwdog (k : CoreId) (s : State) : Out :=
  match s.partOfCore k.val with
  | none => .next s
  | some p =>
    if (s.part p).abort.isNone then .next s
    else .next (s.handleDetection { source := 6, ukind := 1, unit := k.val, master := k.val, addr := 0 })

/-! ### Rollback (R406) -/

/-- ROLLBACK_COMPLETE (R402, R406): every line of the cellar restored but those whose copy could not be corrected,
which are lost with the launch. A launch that no hardware error stopped ends. -/
def execRollbackComplete (p : PartId) (bad : List Nat) (s : State) : Out :=
  let q := s.part p.val
  match q.launch, q.abort with
  | some l, some a =>
    if q.rolledBack then .next s
    else
      let lost := q.cellar.filter (fun e => bad.contains e.1)
      let s1 := (s.restoreLines (q.cellar.filter (fun e => !bad.contains e.1))).modPart p.val (fun q =>
        { q with cellar := [], rolledBack := true, lossy := q.lossy || !lost.isEmpty })
      let s2 := lost.foldl (fun s e => s.partEvent p.val 0x0B 0 (place (e.1 * 64) 48 0) 64) s1
      if a.hw then .next (s2.settle p.val) else .next (s2.endAborted p.val l a)
  | _, _ => .next s

/-! ### Kiln tests (R394 to R398) -/

/-- The budget of a kiln test in µs (R394). -/
def kilnBudget (ukind : Nat) : Nat :=
  match ukind with
  | 0 => 20000
  | 1 => 30000
  | 2 => 50000
  | 3 => 120000
  | _ => 200000

/-- The TRANSIENT results of a unit within 24 hours of now (R397). -/
def State.transients (s : State) (ukind unit : Nat) : List (Nat × Nat × Nat) :=
  s.log.history.filter (fun e => e.1 == ukind && e.2.1 == unit && decide (s.ao < e.2.2))

/-- Whether a scratchpad byte is kept by the kiln save (R395): resident, or carried by the schedule whose bytes are
in place. -/
def State.keptByte (s : State) (p : Option Nat) (k off : Nat) : Bool :=
  (List.range 16).any (fun n =>
    let w := (s.core k).window n
    w.res && decide (w.base * 16 ≤ off ∧ off < w.last * 16 + 16))
  || (match p with
      | none => false
      | some p =>
        match (s.part p).lastSched.bind (s.part p).sched with
        | none => false
        | some x => inRanges (imCarried x.image (s.part p).variantNow k) off)

/-- The resident window of a scratchpad byte: its slot and its schedule. -/
def Core.residentAt (c : Core) (off : Nat) : Option (Nat × Nat) :=
  ((List.range 16).find? (fun n =>
    let w := c.window n
    w.res && decide (w.base * 16 ≤ off ∧ off < w.last * 16 + 16))).map (fun n => (n, (c.window n).owner))

/-- A range of physical bytes lost: PARTITION_DATA_LOSS names it (R414). -/
def State.rangeLost (s : State) (p a n : Nat) : State := s.partEvent p 0x0B 0 (place a 48 0) (BitVec.ofNat 64 n)

/-- A dirty resident window that cannot be rebuilt (R411): its schedule becomes stale, and the window's range is
reported. -/
def State.windowLost (s : State) (p id a n : Nat) : State :=
  match (s.part p).sched id with
  | none => s
  | some x =>
    if x.stale then s
    else (s.modPart p (fun q => { q with scheds := q.scheds.map (fun y => if y.id == id then { y with stale := true } else y) })).rangeLost
      p a n

/-- Bytes of scratchpads, by core and offset, as runs of consecutive ones. -/
def lostRuns : List (Nat × Nat) → List (Nat × Nat × Nat)
  | [] => []
  | e :: es =>
    match lostRuns es with
    | (k, o, n) :: rs => if k = e.1 ∧ o = e.2 + 1 then (k, e.2, n + 1) :: rs else (e.1, e.2, 1) :: (k, o, n) :: rs
    | [] => [(e.1, e.2, 1)]

/-- Carried bytes lost: the launch cannot go on, and each range is reported (R395, R414). -/
def State.carriedLost (s : State) (p : Nat) (lost : List (Nat × Nat)) : State :=
  if lost.isEmpty then s
  else (lostRuns lost).foldl (fun s r => s.rangeLost p (spadAddr r.1 r.2.1) r.2.2)
    (s.modPart p (fun q => { q with lossy := q.lossy || q.launch.isSome }))

/-- A kept byte of a resident window that could not be read (R395, R411): a dirty window is lost; a byte of a clean one
comes from the image. [log 103: DEDUCED] -/
def State.loseByte (s : State) (p k off : Nat) : State :=
  match (s.core k).residentAt off with
  | none => s
  | some (n, id) =>
    match (s.part p).sched id with
    | none => s
    | some x =>
      let w := (s.core k).window n
      if x.dirty.contains (k, n) then s.windowLost p id (spadAddr k (w.base * 16)) (w.last * 16 + 16 - w.base * 16)
      else
        let init := ((imAllWindows x.image).find? (fun w => w.core == k && w.slot == n && w.resident)).bind (fun w => w.initial)
        s.putByte (spadAddr k off) ((init.getD []).getD (off - w.base * 16) 0)

/-- The cores that a kiln test exercises. -/
def testedCores (ukind unit : Nat) : List Nat :=
  match ukind with
  | 1 => [unit]
  | 3 => clusterCores unit
  | _ => []

/-- What a kiln test leaves of the memories it exercised once the kiln save is written back (R394, R395): kept bytes
as they were, all others undetermined. -/
def State.kilnAfter (s : State) (p : Option Nat) (ukind unit : Nat) (lost : List (Nat × Nat)) : State :=
  let ks := testedCores ukind unit
  let s1 := ks.foldl (fun s k =>
    s.freeAt (((List.range 0x100000).filter (fun o => !s.keptByte p k o)).map (fun o => spadAddr k o))) s
  let s2 := if ukind = 3 then s1.freeAt ((List.range 0x800000).map (fun o => tunAddr unit o)) else s1
  match p with
  | none => s2
  | some p =>
    let kept := lost.filter (fun e => ks.contains e.1 && s.keptByte (some p) e.1 e.2)
    (kept.foldl (fun s e => s.loseByte p e.1 e.2) s2).carriedLost p (kept.filter (fun e => ((s.core e.1).residentAt e.2).isNone))

/-- The kiln saves of cores (R395): the kept bytes by offset, and the kept offsets that could not be read. Zero bytes
are not listed. -/
def State.kilnSave (s : State) (p : Nat) (lost : List (Nat × Nat)) (ks : List Nat) : State :=
  let saves := ks.map (fun k =>
    (k, (s.mem.filter (fun e => decide (spadAddr k 0 ≤ e.1) && decide (e.1 < spadAddr k 0x100000)
            && s.keptByte (some p) k (e.1 - spadAddr k 0))).map (fun e => (e.1 - spadAddr k 0, e.2)),
        (lost.filter (fun e => e.1 == k && s.keptByte (some p) k e.2)).map (fun e => e.2)))
  s.modPart p (fun q => { q with kiln := q.kiln ++ saves.filter (fun x => !q.kiln.any (fun y => y.1 == x.1)) })

/-- The head of a handling queue leaves it: its record waits for the launch that it stopped, or is closed at once
with its class (R390 step 6, R399). -/
def State.handled (s : State) (p : Option Nat) (h : Handling) (cls : ErrClass) : State :=
  let h' := { h with atime := s.microsSince h.at_ }
  let s1 := s.modHandling p (fun hs => hs.drop 1)
  let s2 := match p with
  | none => s1.recordClose h' cls h.action false []
  | some p =>
    let q := s1.part p
    let stopped : Bool := q.launch.isSome && (match q.abort with | some a => a.hw | none => false) && h.det.source != 0x0B
    if stopped then (s1.modPart p (fun q => { q with acted := q.acted ++ [h'] })).settle p
    else (s1.recordClose h' cls h.action false [p]).settle p
  s2.hwDone p h.det.ukind h.det.unit h.result

/-- A device-memory block that stayed poisoned after the rollback is lost (R413, R414): its loss is reported, unless
the scrub that found it has reported it, and the launch is lost. [log 104: DEDUCED] -/
def State.blockLost (s : State) (p : Nat) (h : Handling) : State × Bool :=
  if (h.det.source = 0x0A ∨ h.det.source = 0x0C) ∧ h.det.addr < memEnd ∧ s.poison.contains (h.det.addr / 64) then
    let s1 := s.modPart p (fun q =>
      { q with lossy := q.lossy || q.launch.isSome, lostRanges := q.lostRanges ++ [(h.det.addr / 64 * 64, 64)] })
    (if h.det.source = 0x0A then s1.partEvent p 0x0B 0 (place (h.det.addr / 64 * 64) 48 0) 64 else s1, true)
  else (s, false)

/-- A pseudo-channel's kiln test returns SINCE to 0 (R303). -/
def State.sinceZero (s : State) (pc : Nat) : State :=
  s.modHbm (pc / 64) (fun h =>
    let e := mget (0, 0) h.pcce (pc % 64)
    { h with pcce := mput h.pcce (pc % 64) (e.1, 0) })

/-- Whether an error of another lane of a lane's port waits for its kiln test. -/
def State.laneQueued (s : State) (p : Option Nat) (lane : Nat) : Bool :=
  let port (l : Nat) : Nat × Nat := (l / 4, portOfLane (s.group (l / 4)).mode (l % 4))
  ((s.handlingOf p).drop 1).any (fun h => h.det.ukind == 2 && port h.det.unit == port lane)

/-- A lane's port trains again once no other lane of it is to be tested (R319). -/
def State.retrain (s : State) (p : Option Nat) (lane : Nat) : State := if s.laneQueued p lane then s else s.laneTrain lane

/-- The action of R391 for LASTING on the unit of the head of a queue, whose RESULT is decided. A cluster or a
pseudo-channel is mapped out by later steps (CLUSTER_MAPOUT, PC_MAPOUT_COMPLETE). -/
def State.lastingAction (s : State) (p : Option Nat) (h : Handling) : State :=
  let head (s : State) (h : Handling) : State := s.modHandling p (fun hs => h :: hs.drop 1)
  match h.det.ukind with
  | 2 => ((s.laneMark h.det.unit true).retrain p h.det.unit).handled p { h with action := actLane } .degraded
  | 4 =>
    let s1 := match p with
      | some p => s.abortLaunch p { cause := 0x0B, sub := 0, hw := true }
      | none => s
    (head s1 { h with action := actPc }).modHbm (h.det.unit / 64) (fun x =>
      { x with migr := true, mapout := x.mapout ||| BitVec.ofNat 64 (1 <<< (h.det.unit % 64)) })
  | _ => head s { h with action := actMapout }

/-- The kiln test of the head of a queue ends (R391, R396 to R398). -/
def State.kilnResult (s : State) (p : Option Nat) (r : KilnRes) (ktime : Nat) (lost : List (Nat × Nat)) : State :=
  match s.handlingOf p with
  | [] => s
  | h :: _ =>
    let d := h.det
    let ready : Bool := h.action == 0 && (match p with
      | none => true
      | some p => (s.part p).launch.isNone || (s.part p).abort.isNone || (s.part p).rolledBack)
    if !ready then s
    else
      let s0 := if d.ukind = 4 then s.sinceZero d.unit else s
      let code := match r with | .transient => resTransient | .lasting => resLasting | .inconclusive => resInconclusive
      match h.cmd with
      | some (src, tag) =>
        let s1 := (s0.kilnAfter p d.ukind d.unit lost).handled p { h with result := code, ktime := ktime } .corrected
        match s1.cmdOf src tag with
        | some c => s1.finish c { c2 := BitVec.ofNat 64 code }
        | none => s1
      | none =>
        let before := (s0.transients d.ukind d.unit).length
        let third : Bool := code == resTransient && decide (2 ≤ before)
        let s1 : State := if code = resTransient then
            { s0 with log := { s0.log with history := s0.log.history ++ [(d.ukind, d.unit, s0.ao + 86400000000000)] } }
          else s0
        let h1 : Handling :=
          { h with result := if third then resRepeated else code, ktime := ktime,
                   tcount := if code = resTransient then before + 1 else before }
        if code = resTransient && !third then
          let s2 := (let t := s1.kilnAfter p d.ukind d.unit lost
            if d.ukind = 2 then t.retrain p d.unit else t).modHandling p (fun hs => h1 :: hs.drop 1)
          match p with
          | none => s2.handled none { h1 with action := actRepitch } (if d.source = 0x0B then .corrected else .recovered)
          | some q =>
            if d.source = 0x0B then s2.handled p { h1 with action := actRepitch } .corrected
            else
              let b := s2.blockLost q h1
              if b.2 then b.1.handled p { h1 with action := actDataLoss } .fatal
              else b.1.handled p { h1 with action := actRepitch } .recovered
        else
          let s2 := match p with
            | some q => s1.kilnSave q lost (testedCores d.ukind d.unit)
            | none => s1
          s2.lastingAction p h1

def optPart (u : Option PartId) : Option Nat := u.map (fun p => p.val)

/-- KILN_TEST_RESULT (R391, R396 to R398): the test at the head of a partition's queue, or of the queue of units in
no partition, ends after ktime µs; `lost` are the scratchpad bytes (core, offset) that its kiln save could not
read. [log 5: DESIGN CHOICE; log 103: DEDUCED] -/
def execKilnTestResult (u : Option PartId) (r : KilnRes) (ktime : Nat) (lost : List (Nat × Nat)) (s : State) : Out :=
  .next (s.kilnResult (optPart u) r ktime lost)

/-- KILN_BUDGET_EXPIRY (R394, R396): the test reaches its budget and is INCONCLUSIVE. -/
def execKilnBudgetExpiry (u : Option PartId) (s : State) : Out :=
  match s.handlingOf (optPart u) with
  | [] => .next s
  | h :: _ => .next (s.kilnResult (optPart u) .inconclusive (kilnBudget h.det.ukind) [])

/-! ### Mapping out a cluster (R410, R411) -/

/-- A resident window of a variant filled (R411): from its live copy on a surviving core, from the kiln save, or from
the image's initial bytes; a dirty one that cannot be rebuilt makes the schedule stale. -/
def State.rebuildWindow (s : State) (p c id : Nat) (im : SchedImage) (w : WinDef) : State :=
  let s1 := s.modCore w.core (fun x => x.placeWindow id w)
  let dst := spadAddr w.core (winLo w)
  let n := winHi w - winLo w
  let put (s : State) (f : Nat → Byte) : State :=
    let cells : List Host.Cell := (List.range n).map (fun i => (dst + i, f i))
    { s with mem := memReplace s.mem (fun a => decide (dst ≤ a) && decide (a < dst + n)) cells }
  match w.moved with
  | none => put s1 (fun i => (w.initial.getD []).getD i 0)
  | some (k0, n0) =>
    match im.windows.find? (fun x => x.core == k0 && x.slot == n0) with
    | none => s1
    | some x =>
      if clusterOf k0 ≠ c then put s1 (fun i => s.getByte (spadAddr k0 (winLo x + i)))
      else
        let save := (s.part p).kiln.find? (fun e => e.1 == k0)
        let whole : Bool := match save with
          | some e => e.2.2.all (fun o => !(decide (winLo x ≤ o) && decide (o < winHi x)))
          | none => false
        if whole then
          let cells := match save with | some e => e.2.1 | none => []
          put s1 (fun i => mget 0 cells (winLo x + i))
        else
          let dirty : Bool := match (s.part p).sched id with | some y => y.dirty.contains (k0, n0) | none => false
          if dirty then s1.windowLost p id (spadAddr k0 (winLo x)) (winHi x - winLo x)
          else put s1 (fun i => (x.initial.getD []).getD i 0)

/-- The dirty marks of windows that a map-out moved follow their windows. -/
def moveDirty (im : SchedImage) (c : Nat) (d : List (Nat × Nat)) : List (Nat × Nat) :=
  let ws := ((imVariant im c).map (fun v => v.windows)).getD []
  d.map (fun e => match ws.find? (fun w => w.moved == some e) with | some w => (w.core, w.slot) | none => e)

/-- Every loaded schedule's variant for cluster c prepared (R395, R411): resident windows, carried bytes in place and
in boundary save areas. -/
def State.prepareVariants (s : State) (p c : Nat) : State :=
  (s.part p).scheds.foldl (fun s x =>
    match imVariant x.image c with
    | none => s
    | some v =>
      let s1 := (v.windows.filter (fun w => w.resident)).foldl (fun s w => s.rebuildWindow p c x.id x.image w) s
      let move (cs : List Host.Cell) : List Host.Cell := cs.map (fun e => (carriedMove x.image c e.1, e.2))
      let s2 := s1.modPart p (fun q =>
        { q with boundary := q.boundary.map (fun e => if e.1 == x.id then (e.1, move e.2) else e),
                 scheds := q.scheds.map (fun y => if y.id == x.id then { y with dirty := moveDirty x.image c y.dirty } else y) })
      if (s2.part p).lastSched = some x.id then
        let gone := s2.mem.filter (fun e => s2.carriedAddr x.image none e.1 && carriedMove x.image c e.1 != e.1)
        let s3 : State := { s2 with mem := memPutCells s2.mem (move gone) }
        s3.carriedLost p ((s3.part p).kiln.flatMap (fun e => (e.2.2.filter (fun o =>
          s2.carriedAddr x.image none (spadAddr e.1 o) && carriedMove x.image c (spadAddr e.1 o) != spadAddr e.1 o)).map (fun o => (e.1, o))))
      else s2) s

/-- CLUSTER_MAPOUT (R383, R410, R411, R421): the cluster that the head of its partition's queue maps out is gated and marked
absent, and its variant prepared; `lost` are bytes (core, offset) that kiln saves made now cannot read. [log 104: DEDUCED] -/
def execClusterMapout (c : ClusterId) (lost : List (Nat × Nat)) (s : State) : Out :=
  let p := s.partOfCluster c.val
  match s.handlingOf p with
  | [] => .next s
  | h :: _ =>
    if h.action ≠ actMapout ∨ unitCluster h.det.ukind h.det.unit ≠ c.val then .next s
    else
      let gate (s : State) : State :=
        let s1 := s.modCluster c.val (fun x => { x with absent := true })
        (s1.capApply s1.clk.level).alertUpdate
      match p with
      | none =>
        let s1 := (gate s).handled none h (if h.cmd.isSome then .corrected else .degraded)
        match h.cmd.bind (fun e => s1.cmdOf e.1 e.2) with
        | some cmd => .next (s1.finish cmd {})
        | none => .next s1
      | some p =>
        let s1 := gate (s.kilnSave p lost (clusterCores c.val))
        let first : Bool := (s1.part p).absent == 0
        let s2 := s1.modPart p (fun q =>
          let gone : List Saved := q.suspended.map (fun (x : Saved) => { x with lost := true })
          { q with absent := q.absent ||| BitVec.ofNat 48 (1 <<< c.val), suspended := gone })
        let s3 := if first then s2.prepareVariants p c.val else s2
        let s4 := s3.modPart p (fun q => { q with kiln := [] })
        let none_ : Bool := (s4.part p).scheds.any (fun x =>
          match (s4.part p).chooseVariant x.image with | .ok _ => false | .error _ => true)
        let s5 := s4.handled (some p) h (if h.cmd.isSome then .corrected else .degraded)
        match h.cmd.bind (fun e => s5.cmdOf e.1 e.2) with
        | some cmd => .next (s5.finish cmd (if none_ then { status := stDegraded, cause := 0x0D, sub := (s5.part p).absentCode } else {}))
        | none => .next s5

end Sys2Proof.Machine
end

