-- ==== Sys2Proof/Machine/Boot.lean ====
section
/-!
DEFINITION. Power-up, reset and boot (R431 to R443, R445) and the test access port (R446).
-/
namespace Sys2Proof.Machine
open Sys2Proof

/-! ### Resets -/

/-- PWRGOOD_FALL (R431, R442): cold reset at once. -/
def execPwrgoodFall (s : State) : Out := .next s.coldState

/-- PWRGOOD_RISE (R431, R434): with 1 ms of PWRGOOD low the cold reset ends; without, it goes on until then. -/
def execPwrgoodRise (lowLong : Bool) (bootsel : BitVec 2) (smb : BitVec 3) (s : State) : Out :=
  if s.boot.pwrgood then .next s
  else
    let s1 : State := { s with boot := { s.boot with pwrgood := true, held := !lowLong } }
    .next (if lowLong then s1.coldEnd bootsel smb else s1)

/-- COLD_RESET_HOLD_EXPIRY (R431): PWRGOOD rose early, and 1 ms of low time has passed since it fell. -/
def execColdResetHoldExpiry (bootsel : BitVec 2) (smb : BitVec 3) (s : State) : Out :=
  if s.boot.pwrgood && s.boot.held then .next (s.coldEnd bootsel smb) else .next s

/-- WARM_RST_N (R442, R443): low for at least 10 µs. -/
def execWarmRstN (s : State) : Out := .next (s.warmReset 1)

/-! ### The root PLL and the supply -/

/-- PLL_LOCK (R416, R434). -/
def execPllLock (s : State) : Out :=
  if s.boot.st == .straps then .next (({ s with clk := { s.clk with lock := true } } : State).bootLocked) else .next s

/-- PLL_LOCK_TIMEOUT (R439). -/
def execPllLockTimeout (s : State) : Out :=
  if s.boot.st == .straps && !s.clk.lock then .next (s.bootFail 8) else .next s

/-- AVS_TIMEOUT (R439, R440). -/
def execAvsTimeout (s : State) : Out :=
  if s.boot.st == .verified && s.boot.training == BitVec.allOnes 12 then .next (s.bootFail 6) else .next s

/-! ### Flash and secure boot (R435 to R438) -/

/-- A directory copy of 64 bytes (R435): valid with ACTIVE 0 or 1, zeros and a CRC-32C that holds. -/
def dirCopyOf (bs : List Byte) : DirCopy :=
  let active := leNat ((bs.drop 4).take 4)
  { valid := bs.length == 64 && decide (active ≤ 1) && ((bs.drop 8).take 52).all (fun b => b == 0)
      && crc32c 0 (bs.take 60) == BitVec.ofNat 32 (leNat (bs.drop 60)),
    seq := leNat (bs.take 4), active := active }

/-- Which copy governs: the valid one with the higher SEQ (R435); none where neither is valid. [log 110: DEDUCED] -/
def Boot.governing (b : Boot) : Option Nat :=
  if b.dir0.valid && (!b.dir1.valid || decide (b.dir1.seq ≤ b.dir0.seq)) then some 0
  else if b.dir1.valid then some 1
  else none

def Boot.dir (b : Boot) (n : Nat) : DirCopy := if n = 0 then b.dir0 else b.dir1

/-- A field of an image header. -/
def hdr (i : SlotImage) (lo n : Nat) : Nat := leNat ((i.header.drop lo).take n)

/-- Whether bytes of a header are zero. -/
def hdrZero (i : SlotImage) (lo n : Nat) : Bool := ((i.header.drop lo).take n).all (fun b => b == 0)

/-- Check 1 of R438. -/
def headerOk (i : SlotImage) : Bool :=
  i.header.length == 4096 && i.header.take 8 == [0x44, 0x58, 0x4B, 0x46, 0x57, 0x49, 0x4D, 0x47]
    && hdr i 8 2 == 1 && decide (hdr i 10 1 ≤ 1) && hdrZero i 11 1 && hdrZero i 121 7 && hdrZero i 224 3872
    && decide (4096 ≤ hdr i 20 4 ∧ hdr i 20 4 ≤ 1536 * 1024) && hdr i 20 4 % 4096 == 0

/-- The FAIL code of the first check of R438 that a slot fails; none where it passes. -/
def slotFail (i : SlotImage) (svnf : Nat) : Option Nat :=
  if !headerOk i then some 2
  else if !i.keyOk then some 3
  else if !i.sigOk then some 4
  else if hdr i 12 4 < svnf then some 5
  else none

/-- A slot boots (R438, R440): the maltster runs the firmware, which takes its levels, sets VDD_CL, and zeroes every
on-chip memory; the stacks and lanes are still to train. [log 111: DEDUCED; log 139: DEDUCED] -/
def State.bootSlot (s : State) (slot : Nat) (fallbk : Bool) (fail : Nat) (i : SlotImage) : State :=
  { s with
    mem := s.mem.filter (fun e => decide (e.1 < memEnd)), bad := [], sram := [],
    cores := mput s.cores maltsterCore { s.core maltsterCore with run := .running },
    boot := { s.boot with st := .verified, slot := slot, fallbk := fallbk, fail := fail, imageSvn := hdr i 12 4,
                          compat := hdr i 16 2, mincompat := hdr i 18 2, training := BitVec.allOnes 12,
                          attempts := [], lanes := BitVec.allOnes 64 } }

/-- The board configuration takes effect (R436). -/
def State.takeBoard (s : State) (b : BoardCfg) : State :=
  { s with boot := { s.boot with pair01 := b.pair01, pair23 := b.pair23, vdm := b.vdm,
                                 pciIds := b.vendor.toNat + b.subVendor.toNat * 2 ^ 16 + b.subId.toNat * 2 ^ 32 } }

/-- IMAGE_VERIFY (R435 to R439): the boot ROM reads the two directory copies, the board configuration and the slots:
`a` and `b`. [log 110: DEDUCED] -/
def execImageVerify (d0 d1 : List Byte) (board : BoardCfg) (a b : SlotImage) (s : State) : Out :=
  if s.boot.st != .locked then .next s
  else
    let s1 : State := { s with boot := { s.boot with dir0 := dirCopyOf d0, dir1 := dirCopyOf d1 } }
    match s1.boot.governing with
    | none => .next (s1.bootFail 1)
    | some n =>
      if !board.crcOk then .next (s1.bootFail 9)
      else
        let s2 := s1.takeBoard board
        let slot := (s2.boot.dir n).active
        let img (k : Nat) : SlotImage := if k = 0 then a else b
        match slotFail (img slot) s2.boot.svnf with
        | none => .next (s2.bootSlot slot false 0 (img slot))
        | some f =>
          match slotFail (img (1 - slot)) s2.boot.svnf with
          | none => .next (s2.bootSlot (1 - slot) true f (img (1 - slot)))
          | some g => .next (s2.bootFail g)

/-! ### Training and READY (R440, R445) -/

/-- A stack that fails its third attempt (R312, R440): its pseudo-channels are mapped out, and a DEGRADED record tells
of it. [log 112: DEDUCED] -/
def State.stackOut (s : State) (n : Nat) : State :=
  let d : Detection := { source := 0x0A, ukind := 4, unit := 64 * n, master := maltsterId, addr := 0 }
  let s1 := s.modHbm n (fun h => { h with mapout := BitVec.allOnes 64 })
  let r := s1.recordOpen d []
  r.2.recordClose { det := d, record := r.1, at_ := s.ao } .degraded actPc false []

/-- HBM_TRAINING_DONE (R440): one attempt of a stack ends. -/
def execHbmTrainingDone (n : StackId) (ok : Bool) (s : State) : Out :=
  if s.boot.st != .verified || !s.boot.training.getLsbD n.val then .next s
  else
    let done (s : State) : State :=
      let t := s.boot.training &&& ~~~(BitVec.ofNat 12 (1 <<< n.val))
      let s1 : State := { s with boot := { s.boot with training := t } }
      -- the last stack has trained: the zeroing of R305 begins
      if t = 0 then (List.range 12).foldl (fun s n => s.modHbm n (fun h => { h with zbusy := true })) s1 else s1
    let tries := mget 0 s.boot.attempts n.val + 1
    let s1 : State := { s with boot := { s.boot with attempts := mput s.boot.attempts n.val tries } }
    .next (if ok then done s1 else if tries < 3 then s1 else (done s1).stackOut n.val)

/-- SERDES_CALIBRATION_DONE (R319, R440): lanes that failed are marked. -/
def execSerdesCalibrationDone (failed : BitVec 64) (s : State) : Out :=
  if !(s.boot.st == .verified || s.boot.st == .zeroed) || s.boot.lanes == 0 then .next s
  else
    let s1 : State := { s with boot := { s.boot with lanes := 0 } }
    .next (((List.range 64).filter (fun l => failed.getLsbD l)).foldl (fun s l =>
      s.modGroup (l / 4) (fun g => { g with failed := set4 g.failed [l % 4] })) s1)

/-- The binding table written and locked (R238, R440); a table that is locked stays as it is. [log 112: DEDUCED] -/
def State.bindAll (s : State) (binds : List Word) : State :=
  if s.mbx.locked then s
  else
    let m := (binds.take 256).zipIdx.foldl (fun (m : Mbx) e => m.regStore (0x1000 + 8 * e.2) e.1) s.mbx
    { s with mbx := { m with locked := true } }

/-- Kiln-test results of the history counted from a new start of the AO time (R397, R401). -/
def ErrLog.rebase (l : ErrLog) (ao : Nat) : ErrLog :=
  { l with history := (l.history.filter (fun e => decide (ao < e.2.2))).map (fun e => (e.1, e.2.1, e.2.2 - ao)) }

/-- READY (R321, R440, R445): the binding table is locked, READY is released, the AO time and GTIME start at 0, and the
SVN fuses follow the image. -/
def execReady (binds : List (BitVec 64)) (s : State) : Out :=
  if s.boot.st != .zeroed || s.boot.lanes != 0 then .next s
  else
    let s1 := s.bindAll binds
    .next { s1 with
      ao := 0, log := s1.log.rebase s1.ao, gt := {},
      boot := { s1.boot with st := .ready, ready := true, svnf := max s1.boot.svnf (min 64 s1.boot.imageSvn) } }

/-! ### Host links (R440) -/

/-- PERST_N_RISE (R440). -/
def execPerstNRise (h : HostPort) (s : State) : Out :=
  let s1 := s.modHost h.val (fun x => { x with perst := false })
  if s.boot.pwrgood && s.boot.st != .cold then .next (s1.trainHost h.val) else .next s1

/-- HOST_PORT_LINK_UP (R440): training ends with the link up. -/
def execHostPortLinkUp (h : HostPort) (s : State) : Out :=
  if (s.host h.val).link == .training then .next (s.modHost h.val (fun x => { x with link := .up })) else .next s

/-- HOST_PORT_LINK_DOWN (R440): the link is lost, and trains again. -/
def execHostPortLinkDown (h : HostPort) (s : State) : Out :=
  if (s.host h.val).link == .down then .next s
  else .next ((s.modHost h.val (fun x => { x with link := .down })).trainHost h.val)

/-- Four bytes of which R345 fixes the bits of a mask; the others are free values. -/
def State.configBits (s : State) (mask v : Nat) : List Byte × State :=
  let d := s.drawFree
  (leBytes 4 ((d.1 &&& ~~~(BitVec.ofNat 64 mask)) ||| BitVec.ofNat 64 v).toNat, d.2)

/-- Configuration data at an offset (R345): vendor and device ID, class code, subsystem IDs, the two BARs' types and
sizes, no interrupt pin, and of the capabilities 66 MSI-X vectors, a payload of 512 bytes, extended and 10-bit tags,
FLR, the link's speed and width without ASPM, and AER; everything else is a free value. The places of these in the
configuration space are the PCIe standard's. [log 115: DESIGN CHOICE] -/
def State.configData (s : State) (h off : Nat) : List Byte × State :=
  let id := s.boot.pciIds
  if off = 0x00 then (leBytes 4 (id % 2 ^ 16 + 0x0768 * 2 ^ 16), s)
  else if off = 0x08 then s.configBits 0xFFFFFF00 0x12000000
  else if off = 0x10 then s.configBits 0x000FFFFF 0x00000004
  else if off = 0x18 then (leBytes 4 0x0000000C, s)
  else if off = 0x1C then s.configBits 0x000000FF 0
  else if off = 0x20 ∨ off = 0x24 then (leBytes 4 0, s)
  else if off = 0x2C then (leBytes 4 (id / 2 ^ 16), s)
  else if off = 0x3C then s.configBits 0x0000FF00 0
  else if off = Config.msixCap then s.configBits 0x07FF00FF (0x11 + 65 * 2 ^ 16)
  else if off = Config.pcieCap then s.configBits 0x000000FF 0x10
  else if off = Config.pcieCap + 4 then s.configBits 0x10000027 0x10000022
  else if off = Config.pcieCap + 0x0C then s.configBits 0x00000FFF (6 + (if s.pairedPort h then 16 else 8) * 16)
  else if off = Config.pcieCap + 0x24 then s.configBits 0x00030000 0x00030000
  else if off = Config.aerCap then s.configBits 0x0000FFFF 0x0001
  else s.freeBytes 4

/-- CONFIGURATION_REQUEST (R345, R440): a read of the 4 bytes at an offset; until READY the port answers Request Retry
Status. -/
def execConfigurationRequest (h : HostPort) (off : BitVec 12) (s : State) : Out :=
  if (s.host h.val).link != .up || s.upperPort h.val then .next s
  else if s.boot.st != .ready then .next (s.send (.retryStatus h.val))
  else
    let r := s.configData h.val (off.toNat / 4 * 4)
    .next (r.2.send (.hostRead h.val (.data r.1)))

/-! ### The test access port (R446) -/

/-- An instruction loaded, and the bits its data register shifts out. -/
def State.tap (s : State) (code : Nat) (dr : Word) : State :=
  ({ s with boot := { s.boot with jtagIr := BitVec.ofNat 8 code } } : State).send (.jtag code dr)

/-- Boundary-scan data: what the pins hold is open. [log 115: DESIGN CHOICE] -/
def State.tapScan (s : State) (code : Nat) : State :=
  let d := s.drawFree
  d.2.tap code d.1

/-- An instruction that is available in TEST mode only; otherwise it acts as BYPASS, whose one bit captures 0. [log 116: PRESUMED] -/
def State.tapTest (s : State) (code : Nat) : State := if s.boot.st == .test then s.tapScan code else s.tap 0xFF 0

/-- EXTEST (R446). -/
def execExtest (s : State) : Out := .next (s.tapTest 0x00)
/-- IDCODE (R446). -/
def execIdcode (s : State) : Out := .next (s.tap 0x01 0xA07680D5)
/-- SAMPLE/PRELOAD (R446). -/
def execSamplePreload (s : State) : Out := .next (s.tapScan 0x02)
/-- EXTEST_PULSE (R446). -/
def execExtestPulse (s : State) : Out := .next (s.tapTest 0x03)
/-- EXTEST_TRAIN (R446). -/
def execExtestTrain (s : State) : Out := .next (s.tapTest 0x04)
/-- BYPASS (R446). [log 116: PRESUMED] -/
def execBypass (s : State) : Out := .next (s.tap 0xFF 0)
/-- TAP_RESET (R446): IDCODE is selected. -/
def execTapReset (s : State) : Out := .next { s with boot := { s.boot with jtagIr := 0x01 } }

end Sys2Proof.Machine
end

