-- ==== Sys2Proof/Machine/Clocks.lean ====
section
/-!
DEFINITION. Clocks, rails, the cap loop and thermal limits (R416 to R424): what each sample, timer and event does.
-/
namespace Sys2Proof.Machine
open Sys2Proof

/-! ### Supply and clock events -/

/-- DROOP (R418): a cluster's supply falls below its detector's threshold; the event is counted, and the cluster
stretches its cycles. [log 109: DEDUCED] -/
def execDroop (c : ClusterId) (s : State) : Out :=
  if (s.clk.div c.val).stretching then .next s
  else .next { s with clk := s.clk.modDiv c.val (fun d =>
    { d with stretching := true, droop := satAdd 0xFFFFFFFF d.droop 1 }) }

/-- SUPPLY_RECOVERY (R418): the cluster stops stretching. -/
def execSupplyRecovery (c : ClusterId) (s : State) : Out :=
  .next { s with clk := s.clk.modDiv c.val (fun d => { d with stretching := false }) }

/-- PLL_LOSS_OF_LOCK (R389, R414, R416): a CLOCK detection, which is FATAL. -/
def execPllLossOfLock (s : State) : Out :=
  if !s.clk.lock then .next s
  else
    .next (({ s with clk := { s.clk with lock := false } } : State).handleDetection
      { source := 0x10, ukind := 5, unit := 0, master := maltsterId, addr := 0 })

/-- RAIL_OUT_OF_RANGE (R389, R414): a POWER detection, which is FATAL. -/
def execRailOutOfRange (_rail : Fin 9) (s : State) : Out :=
  if !s.boot.pwrgood then .next s
  else .next (s.handleDetection { source := 0x11, ukind := 5, unit := 0, master := maltsterId, addr := 0 })

/-! ### The rail (R419) -/

/-- RAIL_SETTLED (R419): the raised rail has settled, and the faster dividers take effect. [log 3: DESIGN CHOICE] -/
def execRailSettled (s : State) : Out :=
  if !s.clk.raising then .next s
  else
    let want := fastest (s.liveClusters.map (fun c => (s.clk.div c).target))
    .next ({ s with clk := { s.clk with rail := min s.clk.rail want, raising := false } } : State).divApply

/-- RAIL_LOWER_TIMER (R419): 100 µs after a slow-down the rail is lowered to the fastest divider. -/
def execRailLowerTimer (s : State) : Out :=
  if !s.clk.lowering then .next s
  else
    let want := fastest (s.liveClusters.map (fun c => (s.clk.div c).eff))
    .next { s with clk := { s.clk with rail := max s.clk.rail want, lowering := false } }

/-! ### The cap loop (R421) -/

/-- The level and the run of low samples after a sample of power P, in 0.1 W. [log 109: DEDUCED] -/
def capLevel (k : Clk) (p : Nat) : Nat × Nat :=
  let c := k.steps * 250
  if c < p then (k.level + min 16 (ceilDiv (p - c) 120), 0)
  else if p + 500 < c then (if k.below + 1 = 10 then (k.level - 1, 0) else (k.level, k.below + 1))
  else (k.level, 0)

/-- CAP_LOOP_SAMPLE (R421, R422): voltage in mV, current in 0.1 A and power in 0.1 W of the nine rails, and the level that
follows. [log 77: DEDUCED] -/
def execCapLoopSample (rails : List (BitVec 16 × BitVec 16 × BitVec 16)) (s : State) : Out :=
  if rails.length ≠ 9 then .refused (.illFormed "CAP_LOOP_SAMPLE")
  else if s.boot.st != .ready then .next s
  else
    let rs := rails.zipIdx.map (fun e => (e.2, e.1.1.toNat, e.1.2.1.toNat, e.1.2.2.toNat))
    let p := (rs.map (fun e => e.2.2.2)).sum
    let l := capLevel s.clk p
    let k : Clk := { s.clk with rails := rs, p := p, peak := max s.clk.peak p, below := l.2 }
    .next (({ s with clk := k } : State).capApply l.1).alertUpdate

/-! ### Thermal limits (R423, R424) -/

/-- Whether a cluster's diodes read 105 °C or more somewhere, and whether all read below 102 °C. -/
def Clk.hotNow (k : Clk) (c : Nat) : Bool := (List.range 4).any (fun d => atLeast (mget 0 k.temps (4 * c + d)) 105)
def Clk.coolNow (k : Clk) (c : Nat) : Bool := (List.range 4).all (fun d => !atLeast (mget 0 k.temps (4 * c + d)) 102)

/-- A cluster's THERM and timers after a sample: a cluster that becomes hot takes one step at once. -/
def Clk.thermSample (k : Clk) (c : Nat) : Clk :=
  let hot := k.hotNow c
  k.modDiv c (fun d =>
    { d with therm := if hot && !d.hot then min 3 (d.therm + 1) else d.therm, hot := hot, cool := k.coolNow c })

/-- THERMTRIP_N (R424): the pin is asserted, a FATAL THERM record is written, and every clock but AO and DB stops. -/
def State.thermTrip (s : State) : State :=
  let s1 := s.handleDetection { source := 0x12, ukind := 5, unit := 0, master := maltsterId, addr := 0 }
  { s1 with boot := { s1.boot with trip := true, st := .tripped } }

/-- THERMAL_SAMPLE (R423 to R425): the 192 diodes and the 12 stacks, in 1/16 °C. [log 5: DESIGN CHOICE] -/
def execThermalSample (diodes : List (BitVec 16)) (hbmT : List (BitVec 16)) (s : State) : Out :=
  if diodes.length ≠ 192 ∨ hbmT.length ≠ 12 then .refused (.illFormed "THERMAL_SAMPLE")
  else if !s.boot.pwrgood || s.boot.st == .cold || s.boot.trip then .next s
  else
    let k : Clk := { s.clk with temps := diodes.zipIdx.map (fun e => (e.2, e.1.toNat)),
                                hbmTemps := hbmT.zipIdx.map (fun e => (e.2, e.1.toNat)) }
    let k1 := s.liveClusters.foldl (fun (k : Clk) c => k.thermSample c) k
    let s1 := (({ s with clk := k1 } : State).divApply).alertUpdate
    .next (if diodes.any (fun t => atLeast t.toNat 115) then s1.thermTrip else s1)

/-- THERM_STEP_TIMER (R423): 100 µs of a hot cluster, or 1 ms of a cool one, have passed. -/
def execThermStepTimer (c : ClusterId) (s : State) : Out :=
  let d := s.clk.div c.val
  let t : Nat := if d.hot then min 3 (d.therm + 1) else if d.cool then d.therm - 1 else d.therm
  .next (({ s with clk := s.clk.modDiv c.val (fun d => { d with therm := t }) } : State).divApply).alertUpdate

end Sys2Proof.Machine
end

