-- ==== Sys2Proof/Machine/CltRecv.lean ====
section
/-!
DEFINITION. Claruend Transport at the receiver and the connection's life (R329 to R342): handshake, checks,
operations, acknowledgements, timers and resets.
-/
namespace Sys2Proof.Machine
open Sys2Proof

/-! ### Packet fields (R328) -/

def pkVer (k : CltPkt) : Nat := field k.h0 3 0
def pkType (k : CltPkt) : Nat := field k.h0 7 4
def pkAr (k : CltPkt) : Bool := bit k.h0 8
def pkNi (k : CltPkt) : Bool := bit k.h0 10
def pkEpoch (k : CltPkt) : Nat := field k.h0 31 16
def pkSched (k : CltPkt) : Nat := field k.h0 63 32
def pkSnode (k : CltPkt) : Nat := field k.h1 19 0
def pkDnode (k : CltPkt) : Nat := field k.h1 39 20
def pkDconn (k : CltPkt) : Nat := field k.h1 49 40
def pkPath (k : CltPkt) : Nat := field k.h1 53 50
def pkPsn (k : CltPkt) : Nat := field k.h2 31 0
def pkStream (k : CltPkt) : Nat := field k.h2 47 32
def pkLen (k : CltPkt) : Nat := field k.h2 60 48
def pkOpid (k : CltPkt) : Nat := field k.h3 31 0
def pkInc (k : CltPkt) : Nat := field k.h3 47 32

/-- Distance from b up to a, modulo 2^32. -/
def psnDiff (a b : Nat) : Nat := (a + 2 ^ 32 - b) % 2 ^ 32

/-- Whether PSN a is below PSN b. -/
def psnBelow (a b : Nat) : Bool := decide (2 ^ 31 ≤ psnDiff a b)

/-- Check 4 of R332: a reserved TYPE, bit or encoding. -/
def pkReserved (k : CltPkt) : Bool :=
  let w := flagWord k.e0
  field k.h0 15 11 != 0 || field k.h1 63 54 != 0 || field k.h2 63 61 != 0 || field k.h3 63 48 != 0
    || (!pkNi k && pkOpid k != 0) || decide (4096 < pkLen k) || k.payload.length != pkLen k
    || (match pkType k with
        | 1 => pkNi k || field k.e0 63 48 != 0 || k.e1 != 0
        | 2 => !pkNi k || field k.e0 63 48 != 0 || field k.e0 3 0 != 0 || pkLen k % 16 != 0 || k.e1 != 0
        | 3 => pkLen k != 0 || decide (2 < k.e1.toNat) || pkNi k != (k.e1 != 0) || w.reserved (k.e1 != 0) || w.remote || w.node != 0
        | 4 => !pkNi k || pkLen k != 0 || field k.e0 31 8 != 0 || k.e1 != 0
        | _ => true)

/-! ### Packets the receiver sends -/

/-- A control packet on the path given, or on any up path when that one is down (R338); in QUARANTINE none (R330). -/
def State.cltControl (s : State) (p ci path type psn : Nat) (e0 e1 : Word) : State :=
  match s.conn p ci with
  | none => s
  | some c =>
    let ups := s.upPaths c
    match (if c.state == .quarantine then none else if ups.contains path then some path else ups.head?) with
    | none => s
    | some n =>
      s.cltFrame c ci n true
        (cltWords type false false (s.part p).epoch (s.part p).launchId (s.group ((c.path n).port / 4)).node c.node c.peerConn n
          psn 0 0 0 c.inc e0 e1) []

/-- 64 bits of the selective bitmap from PSN base on. -/
def ackBits (set : List Nat) (base : Nat) : Word :=
  (List.range 64).foldl (fun w i => if set.contains ((base + i) % 2 ^ 32) then w ||| flagAt true i else w) 0

/-- An ACK of everything received (R329, R338); a post not yet accepted or refused is not acknowledged (R335). -/
def State.cltAck (s : State) (p ci : Nat) : State :=
  match s.conn p ci with
  | none => s
  | some c =>
    let set := c.recvSet.filter (fun n => !c.held.any (fun h => h.psn == n && h.type == 4))
    (s.cltControl p ci c.lastPath 8 c.recvCum (ackBits set (c.recvCum + 1)) (ackBits set (c.recvCum + 65))).modConn p ci
      (fun c => { c with unackedRx := 0 })

/-- A NAK of a PSN (R333). -/
def State.cltNak (s : State) (p ci g path psn reason sub : Nat) : State :=
  let s1 := s.cltControl p ci path 9 psn (place reason 8 0 ||| place sub 4 8) 0
  s1.modGroup g (fun x =>
    if reason = 2 then { x with emsent := satAdd 0xFFFFFFFF x.emsent 1 } else { x with fnak := satAdd 0xFFFF x.fnak 1 })

/-- R337: an EPOCH_MISMATCH counted, and its event, at most once per connection per millisecond. -/
def State.cltMismatch (s : State) (p ci peerEpoch peerSched : Nat) : State :=
  match s.conn p ci with
  | none => s
  | some c =>
    let n := satAdd (2 ^ 22 - 1) c.mismatches 1
    let due := match c.emAt with | none => true | some t => decide (t + 1000000 ≤ s.ao)
    let s1 := s.modConn p ci (fun c => { c with mismatches := n, emAt := if due then some s.ao else c.emAt })
    if due then
      s1.partEvent p 0x07 0
        (place ci 10 0 ||| place (s.part p).epoch 16 10 ||| place peerEpoch 16 26 ||| place n 22 42)
        (place (s.part p).launchId 32 0 ||| place peerSched 32 32)
    else s1

/-! ### Resets (R342) -/

/-- HELLO or HELLO_ACK on a path (R330): COMPAT, MINCOMPAT, the connection's index and the proposed INC; EPOCH and
SCHED for information. -/
def State.helloPacket (s : State) (p ci n type : Nat) : State :=
  match s.conn p ci with
  | none => s
  | some c =>
    s.cltFrame c ci n true
      (cltWords type false false (s.part p).epoch (s.part p).launchId (s.group ((c.path n).port / 4)).node c.node c.peerConn n
        0 0 0 0 c.inc
        (place s.boot.compat 16 0 ||| place s.boot.mincompat 16 16 ||| place ci 10 32 ||| place c.proposal 16 48)
        (place (s.part p).epoch 16 0 ||| place (s.part p).launchId 32 16)) []

def State.modPath (s : State) (p ci n : Nat) (f : PathSt → PathSt) : State :=
  s.modConn p ci (fun c => { c with paths := c.paths.map (fun e => if e.1 == n then (e.1, f e.2) else e) })

/-- A HELLO sent on a path, which awaits its answer. -/
def State.helloSend (s : State) (p ci n : Nat) : State :=
  (s.helloPacket p ci n 0xC).modPath p ci n (fun x => { x with helloSent := true })

/-- A new handshake: a proposal other than the INC in force, whose value the specification leaves open, and a HELLO on
every path whose port is up (R341). [log 74: DEDUCED] -/
def State.handshake (s : State) (p ci : Nat) : State :=
  let d := s.drawFree
  let v := d.1.toNat % 65536
  let s1 := d.2.modConn p ci (fun c =>
    { c with state := .hello, proposal := if v = c.inc then (v + 1) % 65536 else v,
             paths := c.paths.map (fun e => (e.1, { e.2 with joined := false, helloSent := false })) })
  match s1.conn p ci with
  | none => s1
  | some c => (c.paths.filter (fun e => s1.portUp e.2.port)).foldl (fun s e => s.helloSend p ci e.1) s1

/-- The launch in progress aborts where one of the given operations is its own (R342). -/
def State.cltFails (s : State) (p : Nat) (os : List CltOp) (a : Abort) : State :=
  match (s.part p).launch with
  | none => s
  | some l => if os.any (fun o => o.sched != 0 && o.sched == l.sched) then s.abortLaunch p a else s

/-- A connection reset (R342): causes 0 give-up, 1 OPID, 2 peer lost state. -/
def State.cltReset (s : State) (p ci g cause : Nat) : State :=
  match s.conn p ci with
  | none => s
  | some c =>
    let fails := c.unacked
    let s1 := s.partEvent p 0x08 0 (place ci 10 0 ||| place cause 2 10) (BitVec.ofNat 64 fails.length)
    let s2 := fails.foldl (fun s o =>
      s.partEvent p 0x09 o.psn (place o.stream 16 0 ||| place o.type 4 16 ||| place ci 10 20 ||| place o.opid 32 32)
        (place o.e0.toNat 48 0)) s1
    let s3 := (s2.modGroup g (fun x => { x with reset := satAdd 0xFFFF x.reset 1 })).modConn p ci (fun c =>
      { c with sendPsn := 0, unacked := [], recvCum := 0, recvSet := [], held := [], unackedRx := 0 })
    ((s3.cltFails p fails { cause := 5, sub := 0, hw := false }).handshake p ci).hostsDrain

/-! ### The handshake (R330, R331, R341) -/

/-- Operations numbered again from PSN 0 in their order. -/
def renumber : List CltOp → Nat → List CltOp
  | [], _ => []
  | o :: os, n => { o with psn := n, sends := 0 } :: renumber os (n + 1)

/-- Both directions restart at PSN 0 with an INC, and unacknowledged operations are sent again (R341). An operation
held at the receiver waits for as many packets as were missing below it. -/
def State.incarnate (s : State) (p ci inc : Nat) : State :=
  (s.modConn p ci (fun c =>
    let miss (psn : Nat) : Nat := ((List.range (psnDiff psn c.recvCum)).filter (fun i =>
      !c.recvSet.contains ((c.recvCum + i) % 2 ^ 32))).length
    { c with state := .up, inc := inc, sendPsn := c.unacked.length, unacked := renumber c.unacked 0,
             recvCum := 0, recvSet := [], unackedRx := 0, prior := c.prior.map (fun e => (e.1, none)),
             held := c.held.map (fun h => { h with psn := miss h.psn }) })).cltPump p ci

/-- Whether a proposal on a further path gives the INC in force: it is that INC, or the proposal that the handshake of
the connection took it from (R331). -/
def Conn.sameInc (c : Conn) (inc : Nat) : Bool := inc == c.inc || (inc == c.peerProposal && max c.proposal inc == c.inc)

/-- What a HELLO or HELLO_ACK on path n does to the connection. -/
def State.helloTake (s : State) (p ci n : Nat) (k : CltPkt) (isAck : Bool) : State :=
  match s.conn p ci with
  | none => s
  | some c0 =>
    let compat := field k.e0 15 0
    let minc := field k.e0 31 16
    let inc := field k.e0 63 48
    let fits : Bool := decide (minc ≤ s.boot.compat) && decide (s.boot.mincompat ≤ compat)
    let note (s : State) : State := s.modConn p ci (fun c =>
      { c with peerConn := field k.e0 41 32, peerCompat := compat, peerMin := minc, peerEpoch := field k.e1 15 0,
               peerSched := field k.e1 47 16, peerProposal := inc })
    let join (s : State) : State := s.modPath p ci n (fun x => { x with joined := true, helloSent := false })
    let fresh (s : State) : State :=
      match s.conn p ci with
      | none => s
      | some c =>
        if fits then ((join (note s)).incarnate p ci (max c.proposal inc))
        else
          ((join (note s)).modConn p ci (fun c => { c with state := .quarantine, inc := max c.proposal inc })).partEvent p 0x06 0
            (place ci 10 0 ||| place s.boot.compat 16 10 ||| place compat 16 26)
            (place s.boot.mincompat 16 0 ||| place minc 16 16)
    match c0.state with
    | .down => fresh s
    | .hello => fresh s
    | .quarantine => if fits then fresh s else note s
    | .up =>
      if (c0.path n).joined then
        if isAck || inc == c0.peerProposal || inc == c0.inc then s
        else fresh (s.cltReset p ci ((c0.path n).port / 4) 2)
      else if !c0.sameInc inc || !fits then
        (s.modPath p ci n (fun x => { x with helloSent := false })).partEvent p 0x0A 0
          (place ci 10 0 ||| place n 4 10 ||| flagAt (!fits) 14 ||| flagAt (!c0.sameInc inc) 15) 0
      else join (note s)

/-- A path whose port has come up (R330, R331, R341). -/
def State.pathUp (s : State) (p ci n : Nat) : State :=
  match s.conn p ci with
  | none => s
  | some c =>
    match c.state with
    | .up =>
      if (s.upPaths c).isEmpty then s.handshake p ci
      else (s.modConn p ci (fun c => { c with proposal := c.inc })).helloSend p ci n
    | .hello => s.helloSend p ci n
    | .quarantine => s.helloSend p ci n
    | .down => s.handshake p ci

/-- Every path on a port that has come up. -/
def State.pathsUp (s : State) (p port : Nat) : State :=
  (s.part p).conns.foldl (fun s e =>
    (e.2.paths.filter (fun x => x.2.port == port)).foldl (fun s x => s.pathUp p e.1 x.1) s) s

/-! ### Checks 1 to 3 (R332) -/

def State.badHdr (s : State) (g : Nat) : State := s.modGroup g (fun x => { x with badhdr := satAdd 0xFFFF x.badhdr 1 })

/-- The partition and connection of a packet that passes checks 1 to 3. A HELLO finds its connection by its
sender's node, since it carries the index that its sender could not know, and brings its own INC. -/
def State.cltAdmit (s : State) (port : Nat) (k : CltPkt) : Option (Nat × Nat) :=
  let g := port / 4
  match s.partOfPort g with
  | none => none
  | some p =>
    let t := pkType k
    if pkVer k ≠ 1 ∨ pkDnode k ≠ (s.group g).node then none
    else
      match (if t = 0xC then s.connTo p (pkSnode k) else some (pkDconn k)) with
      | none => none
      | some ci =>
        match s.conn p ci with
        | none => none
        | some c =>
          if t ≠ 0xC ∧ t ≠ 0xD ∧ pkInc k ≠ c.inc then none
          else if c.state = .quarantine ∧ t ≠ 0xC ∧ t ≠ 0xD ∧ t ≠ 0xE then none
          else some (p, ci)

/-- A packet of TYPE t handled after checks 1 to 3; others of the row's command are ill-formed. -/
def cltRow (name : String) (t : Nat) (port : Fin 64) (k : CltPkt) (f : Nat → Nat → State → State) (s : State) : Out :=
  if pkType k ≠ t then .refused (.illFormed name)
  else if !s.portUp port.val then .next s
  else match s.cltAdmit port.val k with
    | none => .next (s.badHdr (port.val / 4))
    | some (p, ci) => .next (f p ci s)

/-- HELLO (R330): answered with HELLO_ACK. -/
def execHello (port : Fin 64) (k : CltPkt) (s : State) : Out :=
  cltRow "HELLO" 0xC port k (fun p ci s => (s.helloTake p ci (pkPath k) k false).helloPacket p ci (pkPath k) 0xD) s

/-- HELLO_ACK (R330). -/
def execHelloAck (port : Fin 64) (k : CltPkt) (s : State) : Out :=
  cltRow "HELLO_ACK" 0xD port k (fun p ci s => s.helloTake p ci (pkPath k) k true) s

/-- MGMT (R329): its payload goes to the maltster firmware. -/
def execMgmt (port : Fin 64) (k : CltPkt) (s : State) : Out :=
  cltRow "MGMT" 0xE port k (fun _ _ s => { s with mgmtQueue := s.mgmtQueue ++ [k.payload] }) s

/-! ### Data operations (R332 to R336) -/

/-- The schedule ID of the launch in progress as arriving packets are checked against it (R332, R384, R414): none
during a switch and once the launch has been stopped. [log 74: DEDUCED] -/
def Part.launchNow (q : Part) : Nat := if q.abort.isSome then 0 else q.launchId

/-- The cumulative PSN moved past every PSN received (R338). -/
def cltAdvance (cum : Nat) (set : List Nat) : Nat → Nat × List Nat
  | 0 => (cum, set)
  | n + 1 => if set.contains cum then cltAdvance ((cum + 1) % 2 ^ 32) (set.filter (fun x => x != cum)) n else (cum, set)

def State.cltReceived (s : State) (p ci psn : Nat) : State :=
  s.modConn p ci (fun c =>
    let r := cltAdvance c.recvCum (psn :: c.recvSet) (c.recvSet.length + 1)
    { c with recvCum := r.1, recvSet := r.2 })

/-- An OPID executed (R340). -/
def State.cltExecuted (s : State) (p ci opid : Nat) : State :=
  s.modConn p ci (fun c =>
    let h := max c.opidHigh opid
    { c with opidHigh := h, opids := (opid :: c.opids).filter (fun x => decide (h < x + 4096)) })

/-- Whether a FLAG or MBPOST follows a finally refused write of its stream (R336). -/
def Conn.priorTo (c : Conn) (h : HeldOp) : Bool :=
  c.prior.any (fun e => e.1 == h.stream && (match e.2 with | some n => psnBelow n h.psn | none => true))

/-- A finally refused WRITE or ACCUM, remembered by its stream (R336). -/
def Conn.addPrior (c : Conn) (stream psn : Nat) : Conn := { c with prior := ((stream, some psn) :: c.prior).eraseDups }

/-- A held FLAG or MBPOST performed (R335, R336): NAK reason and SUB where it is refused; one that was executed before
a new incarnation is not executed again (R341). [log 50: DEDUCED] -/
def State.cltPerform (s : State) (p ci : Nat) (h : HeldOp) : Option (Nat × Nat) × State :=
  match s.conn p ci with
  | none => (none, s)
  | some c =>
    if h.opid ≠ 0 && c.opids.contains h.opid then (none, s)
    else if c.priorTo h then
      (some (7, 0), s.modConn p ci (fun c => { c with priorCount := c.priorCount + 1 }))
    else if h.type = 3 then
      let w := flagWord h.e0
      if s.partOfCluster w.cluster ≠ some p ∨ (s.cluster w.cluster).absent then (some (3, 2), s)
      else match w.target, h.e1.toNat with
        | .cnt k n, e =>
          let a : FlagAct := if e = 2 then .dec else .inc
          match countStep (s.counter k n) a with
          | some v => (none, (s.setCounter k n v).cltExecuted p ci h.opid)
          | none => (some (6, 0), s.flagLimit k n (portId h.group) a)
        | t, _ => (none, s.flagPut t true)
    else
      match s.mbPost (field h.e0 7 0) (portId h.group) (field h.e0 63 32) with
      | .ok s' => (none, s'.cltExecuted p ci h.opid)
      | .error r =>
        (some (5, match r with | .full => 1 | .off => 2 | .devblock => 3 | .partition => 4), s)

/-- The held operations below the cumulative PSN, performed in PSN order. -/
def State.cltRelease (s : State) (p ci : Nat) : Nat → State
  | 0 => s
  | n + 1 =>
    match s.conn p ci with
    | none => s
    | some c =>
      let ready := c.held.filter (fun h => psnBelow h.psn c.recvCum)
      match ready.find? (fun h => ready.all (fun x => x == h || !psnBelow x.psn h.psn)) with
      | none => s
      | some h =>
        let s1 := s.modConn p ci (fun c => { c with held := c.held.filter (fun x => x != h) })
        let r := s1.cltPerform p ci h
        let s2 := match r.1 with
          | some (reason, sub) => r.2.cltNak p ci h.group h.path h.psn reason sub
          | none => r.2
        s2.cltRelease p ci n

/-- An arrival counted towards the next ACK (R338); at once for AR. -/
def State.cltArrive (s : State) (p ci path : Nat) (ar : Bool) : State :=
  let s1 := s.modConn p ci (fun c => { c with unackedRx := c.unackedRx + 1, lastPath := path })
  match s1.conn p ci with
  | none => s1
  | some c => if ar || decide (8 ≤ c.unackedRx) then s1.cltAck p ci else s1

/-- The physical addresses of the bytes of one page, or the NAK that refuses them (R333, R334): translation and access,
then the window check. -/
def State.pageTarget (s : State) (p g va n : Nat) : Except (Nat × Nat × Option (Nat × Nat × Nat × Rej)) (List Nat) :=
  match masterXlateN s p .write va n with
  | .error f => .error (3, f.cause, none)
  | .ok ts =>
    let as := physAddrs ts
    if as.length ≠ n || !as.all (fun x => (placeOf x).isMemory) then .error (3, 1, none)
    else match s.windowsRefuse as (portId g) with
      | some (k, off, len, r) => .error (4, r.code, some (k, off, len, r))
      | none => .ok as

/-- How many of n bytes lie on the page of the first (R334). -/
def State.onPage (s : State) (p va n : Nat) : Nat :=
  match (s.part p).pages.find? (fun g => pageCovers g va) with
  | some g => min n (2 ^ g.bits - va % 2 ^ g.bits)
  | none => min n (65536 - va % 65536)

/-- The physical addresses of a packet's bytes, checked page by page: at most two, since a page holds more than the
largest payload (R334). -/
def State.cltTarget (s : State) (p g va n : Nat) : Except (Nat × Nat × Option (Nat × Nat × Nat × Rej)) (List Nat) :=
  let n1 := s.onPage p va n
  match s.pageTarget p g va n1 with
  | .error e => .error e
  | .ok as =>
    if n1 = n then .ok as
    else match s.pageTarget p g (va + n1) (n - n1) with
      | .error e => .error e
      | .ok bs => .ok (as ++ bs)

/-- Elements of 16 bytes added, modulo 2^128 (R34, R335). -/
def addElems : List Byte → List Byte → Nat → List Byte
  | _, _, 0 => []
  | old, new, n + 1 =>
    leBytes 16 ((leNat (old.take 16) + leNat (new.take 16)) % 2 ^ 128) ++ addElems (old.drop 16) (new.drop 16) n

/-- Checks 10 and 11 of R332 for a WRITE or ACCUM. `h` is what the read of a partial entry or of an accumulator
element finds; an operation that an uncorrectable error stops is neither executed nor acknowledged. [log 134: DESIGN CHOICE] -/
def State.cltStore (s : State) (p ci g : Nat) (k : CltPkt) (h : Hit) : State :=
  let refuse (s : State) (reason sub : Nat) : State :=
    ((s.modConn p ci (fun c => c.addPrior (pkStream k) (pkPsn k))).cltReceived p ci (pkPsn k)).cltNak p ci g
      (pkPath k) (pkPsn k) reason sub
  match s.cltTarget p g k.e0.toNat k.payload.length with
  | .error (reason, sub, none) => refuse s reason sub
  | .error (reason, sub, some (c, off, len, r)) => refuse (s.windowReject c off len (portId g) r) reason sub
  | .ok as =>
    let acc : Bool := pkType k == 2
    let e := if acc then s.eccAll as (portId g) h else (s, true)
    if !e.2 then e.1
    else
      let data := if acc then addElems (as.map (fun a => e.1.getByte a)) k.payload (k.payload.length / 16) else k.payload
      let r := e.1.writeCells (as.zip data) (portId g) (if acc then .clean else h.among as.length)
      if !r.2 then r.1
      else (if acc then r.1.cltExecuted p ci (pkOpid k) else r.1).cltReceived p ci (pkPsn k)

/-- A WRITE, ACCUM, FLAG or MBPOST that has passed checks 1 to 3 (R332). -/
def State.cltData (s : State) (p ci g : Nat) (k : CltPkt) (h : Hit) : State :=
  match s.conn p ci with
  | none => s
  | some c =>
    let psn := pkPsn k
    let arrive (s : State) : State := s.cltArrive p ci (pkPath k) (pkAr k)
    let dup (s : State) : State := s.modGroup g (fun x => { x with dup := satAdd 0xFFFFFFFF x.dup 1 })
    let q := s.part p
    let release (s : State) : State := s.cltRelease p ci ((c.held.length) + 1)
    if pkReserved k then
      let s1 := if pkType k = 1 ∨ pkType k = 2 then
        s.modConn p ci (fun c => c.addPrior (pkStream k) psn) else s
      arrive (release ((s1.cltReceived p ci psn).cltNak p ci g (pkPath k) psn 1 0))
    else if psnBelow psn c.recvCum || c.recvSet.contains psn then arrive (dup s)
    else if 1024 ≤ psnDiff psn c.recvCum then s.badHdr g
    else if pkEpoch k ≠ q.epoch ∨ (pkSched k ≠ 0 ∧ pkSched k ≠ q.launchNow) then
      (s.cltNak p ci g (pkPath k) psn 2 0).cltMismatch p ci (pkEpoch k) (pkSched k)
    else if pkNi k && c.opids.contains (pkOpid k) then arrive (release (dup (s.cltReceived p ci psn)))
    else if pkNi k && decide (pkOpid k + 4096 ≤ c.opidHigh) then s.cltReset p ci g 1
    else if pkType k = 1 ∨ pkType k = 2 then arrive (release (s.cltStore p ci g k h))
    else
      let o : HeldOp := { psn := psn, stream := pkStream k, type := pkType k, e0 := k.e0, e1 := k.e1, opid := pkOpid k,
                          group := g, path := pkPath k }
      arrive (release ((s.cltReceived p ci psn).modConn p ci (fun c => { c with held := c.held ++ [o] })))

/-- A WRITE or ACCUM, held while a map-out moves bytes of the partition's device memory (R310). -/
def State.cltArrives (s : State) (p ci g : Nat) (k : CltPkt) (h : Hit) : State :=
  if s.migrating p then s.modPart p (fun q => { q with rxHold := q.rxHold ++ [(g, k)] }) else s.cltData p ci g k h

/-- The packets that a map-out held are received, in order (R310). -/
def State.rxRelease (s : State) (p : Nat) : State :=
  (s.part p).rxHold.foldl (fun s e =>
    match s.cltAdmit (4 * e.1) e.2 with
    | some (q, ci) => if q = p then s.cltData p ci e.1 e.2 none else s
    | none => s.badHdr e.1) (s.modPart p (fun q => { q with rxHold := [] }))

/-- WRITE (R334). -/
def execWrite (port : Fin 64) (k : CltPkt) (h : Hit) (s : State) : Out :=
  cltRow "WRITE" 1 port k (fun p ci s => s.cltArrives p ci (port.val / 4) k h) s

/-- ACCUM (R335). -/
def execAccum (port : Fin 64) (k : CltPkt) (h : Hit) (s : State) : Out :=
  cltRow "ACCUM" 2 port k (fun p ci s => s.cltArrives p ci (port.val / 4) k h) s

/-- FLAG (R335, R336). -/
def execFlag (port : Fin 64) (k : CltPkt) (s : State) : Out :=
  cltRow "FLAG" 3 port k (fun p ci s => s.cltData p ci (port.val / 4) k none) s

/-- MBPOST of a peer (R335, R336). -/
def execCltMbpost (port : Fin 64) (k : CltPkt) (s : State) : Out :=
  cltRow "CLT_MBPOST" 4 port k (fun p ci s => s.cltData p ci (port.val / 4) k none) s

/-- A packet of a reserved TYPE (check 4 of R332): its PSN, where it is one that may still come, counts as received,
which may release held operations (R333). -/
def State.cltUnknown (s : State) (port : Nat) (k : CltPkt) : State :=
  match s.cltAdmit port k with
  | none => s.badHdr (port / 4)
  | some (p, ci) =>
    match s.conn p ci with
    | none => s
    | some c =>
      let psn := pkPsn k
      let news : Bool := !psnBelow psn c.recvCum && decide (psnDiff psn c.recvCum < 1024)
      let s1 := (if news then s.cltReceived p ci psn else s).cltNak p ci (port / 4) (pkPath k) psn 1 0
      (s1.cltRelease p ci (c.held.length + 1)).cltArrive p ci (pkPath k) (pkAr k)

/-! ### Answers at the sender (R333, R337, R338) -/

/-- Whether a PSN is acknowledged by an ACK. -/
def ackCovers (k : CltPkt) (psn : Nat) : Bool :=
  psnBelow psn (pkPsn k)
    || (let d := psnDiff psn (pkPsn k)
        (decide (1 ≤ d ∧ d ≤ 64) && k.e0.getLsbD (d - 1)) || (decide (65 ≤ d ∧ d ≤ 128) && k.e1.getLsbD (d - 65)))

/-- Whether a repeated run would apply an operation a second time (R409). -/
def CltOp.lasting (o : CltOp) : Bool := o.type == 2 || o.type == 4 || (o.type == 3 && o.e1 != 0)

/-- ACK (R338, R409): the packets it covers are in place. -/
def execAck (port : Fin 64) (k : CltPkt) (s : State) : Out :=
  cltRow "ACK" 8 port k (fun p ci s =>
    match s.conn p ci with
    | none => s
    | some c =>
      let done := c.unacked.filter (fun o => decide (0 < o.sends) && ackCovers k o.psn)
      let s1 := s.modConn p ci (fun c => { c with unacked := c.unacked.filter (fun o => !done.contains o) })
      let s2 := s1.modPart p (fun q => { q with launch := q.launch.map (fun l =>
        if done.any (fun o => o.lasting && o.sched == l.sched) then { l with peerFx := true } else l) })
      (s2.cltPump p ci).hostsDrain) s

/-- NAK (R333, R337, R342). -/
def execNak (port : Fin 64) (k : CltPkt) (s : State) : Out :=
  cltRow "NAK" 9 port k (fun p ci s =>
    match s.conn p ci with
    | none => s
    | some c =>
      let reason := field k.e0 7 0
      match c.unacked.find? (fun o => o.psn == pkPsn k && decide (0 < o.sends)) with
      | none => s
      | some o =>
        if reason = 2 then
          (s.modGroup (port.val / 4) (fun x => { x with emrcvd := satAdd 0xFFFFFFFF x.emrcvd 1 })).cltMismatch p ci (pkEpoch k)
            (pkSched k)
        else
          (((s.modConn p ci (fun c => { c with unacked := c.unacked.filter (fun x => x != o) })).cltFails p [o]
            { cause := 6, sub := reason, hw := false }).cltPump p ci).hostsDrain) s

/-! ### Timers -/

/-- PACKET_FLUSH_TIMEOUT (R327). -/
def execPacketFlushTimeout (p : PartId) (ci : Fin 1024) (stream : BitVec 16) (s : State) : Out :=
  .next (s.cltFlush p.val ci.val stream.toNat)

/-- ACK_TIMER (R338). [log 3: DESIGN CHOICE] -/
def execAckTimer (p : PartId) (ci : Fin 1024) (s : State) : Out :=
  match s.conn p.val ci.val with
  | none => .next s
  | some c => if c.unackedRx = 0 || c.state == .quarantine then .next s else .next (s.cltAck p.val ci.val)

/-- RETRANSMIT_TIMEOUT (R339, R342): the packet is sent again, or at its fifth expiry the sender gives up. -/
def execRetransmitTimeout (p : PartId) (ci : Fin 1024) (psn : BitVec 32) (s : State) : Out :=
  match s.conn p.val ci.val with
  | none => .next s
  | some c =>
    match c.unacked.find? (fun o => o.psn == psn.toNat && decide (0 < o.sends)) with
    | none => .next s
    | some o =>
      let g := (c.path o.path).port / 4
      if 5 ≤ o.sends then
        .next ((s.modGroup g (fun x => { x with giveup := satAdd 0xFFFF x.giveup 1 })).cltReset p.val ci.val g 0)
      else .next (s.cltSend p.val ci.val psn.toNat true)

/-- HELLO_RETRY (R331): a HELLO without an answer is sent again. -/
def execHelloRetry (p : PartId) (ci : Fin 1024) (n : Fin 16) (s : State) : Out :=
  match s.conn p.val ci.val with
  | none => .next s
  | some c =>
    if (c.path n.val).helloSent && s.portUp (c.path n.val).port then .next (s.helloSend p.val ci.val n.val) else .next s

end Sys2Proof.Machine
end

