-- ==== Sys2Proof/Machine/ControlFlow.lean ====
section
/-!
DEFINITION. The control-flow and memory instructions (R189, R190, R199) and undefined opcodes (R194).
-/
namespace Sys2Proof.Machine
open Sys2Proof

/-! ### Control flow -/

/-- A branch: `n` entries popped; `f` of them (top first) gives what is pushed back and whether the branch is
taken (R190, R199). -/
def branchInstr (k : CoreId) (i : Instr) (n : Nat) (rel : Word) (f : List Word → List Word × Bool) (s : State) : Out :=
  let b := instrBytes i
  coreInstr k { bytes := b, pops := n }
    (fun s =>
      let r := f (s.tops k.val n)
      let pc := (s.core k.val).pc
      let s1 := s.stackEffect k.val .data n r.1
      .next (if r.2 then s1.jump k.val (relTarget pc b.length rel) else s1.advance k.val b.length)) s

/-- Branch always. -/
def always (_ : List Word) : List Word × Bool := ([], true)
/-- BZ, BNZ. -/
def onZero (st : List Word) : List Word × Bool := ([], nth st 0 == 0)
def onNonzero (st : List Word) : List Word × Bool := ([], nth st 0 != 0)
/-- DBNZ: 1 is subtracted; a nonzero result is kept and branches. -/
def countDown (st : List Word) : List Word × Bool :=
  let n := nth st 0 - 1
  if n = 0 then ([], false) else ([n], true)

/-- R199: BR8. -/
def execBr8 (k : CoreId) (rel : BitVec 8) (s : State) : Out :=
  branchInstr k (.br8 k rel) 0 (rel.signExtend 64) always s
/-- R199: BR32. -/
def execBr32 (k : CoreId) (rel : BitVec 32) (s : State) : Out :=
  branchInstr k (.br32 k rel) 0 (rel.signExtend 64) always s
/-- R199: BZ8. -/
def execBz8 (k : CoreId) (rel : BitVec 8) (s : State) : Out :=
  branchInstr k (.bz8 k rel) 1 (rel.signExtend 64) onZero s
/-- R199: BZ32. -/
def execBz32 (k : CoreId) (rel : BitVec 32) (s : State) : Out :=
  branchInstr k (.bz32 k rel) 1 (rel.signExtend 64) onZero s
/-- R199: BNZ8. -/
def execBnz8 (k : CoreId) (rel : BitVec 8) (s : State) : Out :=
  branchInstr k (.bnz8 k rel) 1 (rel.signExtend 64) onNonzero s
/-- R199: BNZ32. -/
def execBnz32 (k : CoreId) (rel : BitVec 32) (s : State) : Out :=
  branchInstr k (.bnz32 k rel) 1 (rel.signExtend 64) onNonzero s
/-- R199: DBNZ8. -/
def execDbnz8 (k : CoreId) (rel : BitVec 8) (s : State) : Out :=
  branchInstr k (.dbnz8 k rel) 1 (rel.signExtend 64) countDown s
/-- R199: DBNZ32. -/
def execDbnz32 (k : CoreId) (rel : BitVec 32) (s : State) : Out :=
  branchInstr k (.dbnz32 k rel) 1 (rel.signExtend 64) countDown s

/-- R199: CALL32 pushes the address after the instruction on the return stack and branches. -/
def execCall32 (k : CoreId) (rel : BitVec 32) (s : State) : Out :=
  let b := instrBytes (.call32 k rel)
  coreInstr k { bytes := b, rpushes := 1 }
    (fun s =>
      let pc := (s.core k.val).pc
      .next ((s.stackEffect k.val .ret 0 [pc + BitVec.ofNat 64 b.length]).jump k.val
        (relTarget pc b.length (rel.signExtend 64)))) s

/-- R199: CALLI calls the popped address. -/
def execCalli (k : CoreId) (s : State) : Out :=
  let b := instrBytes (.calli k)
  coreInstr k { bytes := b, pops := 1, rpushes := 1 }
    (fun s =>
      let pc := (s.core k.val).pc
      let a := nth (s.tops k.val 1) 0
      .next (((s.stackEffect k.val .data 1 []).stackEffect k.val .ret 0 [pc + BitVec.ofNat 64 b.length]).jump k.val a)) s

/-- R199: RET continues at the popped return address. -/
def execRet (k : CoreId) (s : State) : Out :=
  coreInstr k { bytes := instrBytes (.ret k), rpops := 1 }
    (fun s =>
      let a := nth (s.rtops k.val 1) 0
      .next ((s.stackEffect k.val .ret 1 []).jump k.val a)) s

/-- R199: JMPI continues at the popped address. -/
def execJmpi (k : CoreId) (s : State) : Out :=
  coreInstr k { bytes := instrBytes (.jmpi k), pops := 1 }
    (fun s =>
      let a := nth (s.tops k.val 1) 0
      .next ((s.stackEffect k.val .data 1 []).jump k.val a)) s

/-! ### Loads and stores -/

/-- A load of n bytes at the effective address, extended by `ext` (R189, R199). -/
def loadInstr (k : CoreId) (i : Instr) (d : Disp) (h : Finding) (n : Nat) (ext : Word → Word) (s : State) : Out :=
  let b := instrBytes i
  coreInstr k { bytes := b, pops := 1, pushes := 1 }
    (fun s =>
      match s.loadBytes k.val (effAddr (nth (s.tops k.val 1) 0) d) n h with
      | .ok bs s' => .next ((s'.stackEffect k.val .data 1 [ext (leWord bs)]).advance k.val b.length)
      | .ev e => .next (s.raise k.val e)
      | .wait => .next (s.waitAt k.val i)
      | .lost s' => .next (s'.stopCore k.val)) s

/-- The low w bits zero-extended, and sign-extended. -/
def zext (w : Nat) (x : Word) : Word := BitVec.ofNat 64 (x.toNat % 2 ^ w)
def sext (w : Nat) (x : Word) : Word := BitVec.ofInt 64 (signedOf w x.toNat)

/-- R199: LD8U. -/
def execLd8u (k : CoreId) (d : Disp) (h : Finding) (s : State) : Out := loadInstr k (.ld8u k d h) d h 1 (zext 8) s
/-- R199: LD8S. -/
def execLd8s (k : CoreId) (d : Disp) (h : Finding) (s : State) : Out := loadInstr k (.ld8s k d h) d h 1 (sext 8) s
/-- R199: LD16U. -/
def execLd16u (k : CoreId) (d : Disp) (h : Finding) (s : State) : Out := loadInstr k (.ld16u k d h) d h 2 (zext 16) s
/-- R199: LD16S. -/
def execLd16s (k : CoreId) (d : Disp) (h : Finding) (s : State) : Out := loadInstr k (.ld16s k d h) d h 2 (sext 16) s
/-- R199: LD32U. -/
def execLd32u (k : CoreId) (d : Disp) (h : Finding) (s : State) : Out := loadInstr k (.ld32u k d h) d h 4 (zext 32) s
/-- R199: LD32S. -/
def execLd32s (k : CoreId) (d : Disp) (h : Finding) (s : State) : Out := loadInstr k (.ld32s k d h) d h 4 (sext 32) s
/-- R199: LD64. -/
def execLd64 (k : CoreId) (d : Disp) (h : Finding) (s : State) : Out := loadInstr k (.ld64 k d h) d h 8 (zext 64) s

/-- A store: `n` entries popped, the address base on top, `bs` of them the bytes stored (R189, R199). A store
that cannot issue waits (R202). -/
def storeInstr (k : CoreId) (i : Instr) (d : Disp) (h : Finding) (n : Nat) (bs : List Word → List Byte) (s : State) : Out :=
  let b := instrBytes i
  coreInstr k { bytes := b, pops := n }
    (fun s =>
      let st := s.tops k.val n
      match s.storeBytes k.val (effAddr (nth st 0) d) (bs st) h with
      | .ok _ s' => .next ((s'.stackEffect k.val .data n []).advance k.val b.length)
      | .ev e => .next (s.raise k.val e)
      | .wait => .next (s.waitAt k.val i)
      | .lost s' => .next (s'.stopCore k.val)) s

/-- The low n bytes of the stored entry. -/
def lowBytes (n : Nat) (st : List Word) : List Byte := leBytes n (nth st 1).toNat

/-- R199: ST8. -/
def execSt8 (k : CoreId) (d : Disp) (h : Finding) (s : State) : Out := storeInstr k (.st8 k d h) d h 2 (lowBytes 1) s
/-- R199: ST16. -/
def execSt16 (k : CoreId) (d : Disp) (h : Finding) (s : State) : Out := storeInstr k (.st16 k d h) d h 2 (lowBytes 2) s
/-- R199: ST32. -/
def execSt32 (k : CoreId) (d : Disp) (h : Finding) (s : State) : Out := storeInstr k (.st32 k d h) d h 2 (lowBytes 4) s
/-- R199: ST64. -/
def execSt64 (k : CoreId) (d : Disp) (h : Finding) (s : State) : Out := storeInstr k (.st64 k d h) d h 2 (lowBytes 8) s
/-- R199: STI.Q stores its immediate. -/
def execStiQ (k : CoreId) (d : Disp) (v : BitVec 64) (h : Finding) (s : State) : Out :=
  storeInstr k (.stiQ k d v h) d h 1 (fun _ => leBytes 8 v.toNat) s

/-- R199: LEA pushes the effective address. -/
def execLea (k : CoreId) (d : Disp) (s : State) : Out :=
  stackInstr k (.lea k d) 1 1 (fun st => [effAddr (nth st 0) d]) s

/-! ### Undefined opcodes -/

/-- R194, R195: bytes that the decoder finds illegal raise ILLEGAL_INSTRUCTION at the byte that decides it.
Bytes that are no illegal instruction of the core are ill-formed. -/
def execUndefinedOpcode (k : CoreId) (bytes : List Byte) (s : State) : Out :=
  match illegalAt (s.core k.val).tmode (k.val == maltsterCore) bytes with
  | none => .refused (.illFormed "UNDEFINED_OPCODE")
  | some n => coreInstr k { bytes := bytes.take n, illegal := some n } (fun s => .next s) s

end Sys2Proof.Machine
end

