-- ==== Sys2Proof/Machine/Fetch.lean ====
section
/-!
DEFINITION. Command packets as they are fetched (R350 to R353, R356, R358): the acceptance checks in their order,
and the interim reply.
-/
namespace Sys2Proof.Machine
open Sys2Proof

/-! ### Reserved fields (check 4 of R353) -/

/-- Whether a word has no bit outside a mask. -/
def within (w mask : Word) : Bool := w &&& ~~~mask == 0

/-- The words of a packet from an index on are zero. -/
def zeroFrom (ws : List Word) (i : Nat) : Bool := (ws.drop i).all (fun w => w == 0)

/-- Bits hi to lo. -/
def maskBits (hi lo : Nat) : Word := BitVec.ofNat 64 (2 ^ (hi + 1) - 2 ^ lo)

/-- P0 (R352). -/
def headerReserved (host : Bool) (w : Word) : Bool :=
  field w 15 9 != 0 || field w 47 32 != 0 || field w 63 51 != 0 || (host && field w 50 48 != 0)

/-- Configuration items that belong to the device (R367, R426). -/
def deviceItem (item : Nat) : Bool := item == 0x0006 || decide (0x0100 ≤ item ∧ item ≤ 0x01FF)

/-- NET_CFG, NET_PFC and CLT_CFG values with a reserved field or encoding. -/
def netCfgReserved (v : Word) : Bool := field v 63 18 != 0 || decide (field v 17 4 < 0x05EE ∨ 0x2400 < field v 17 4)
def netPfcReserved (v : Word) : Bool := field v 63 32 != 0 || field v 23 16 == 0 || decide (field v 23 16 ≤ field v 31 24)
def cltCfgReserved (v : Word) : Bool := field v 63 22 != 0 || field v 15 0 == 0 || field v 18 16 == field v 21 19

/-- A CONFIG_STAGE with a reserved item, an index out of range, or a value with a reserved field or encoding (R367,
R426). [log 83: DEDUCED] -/
def stageReserved (ws : List Word) : Bool :=
  let w (i : Nat) : Word := ws.getD i 0
  let item := field (w 1) 15 0
  let index := field (w 1) 31 16
  field (w 1) 63 32 != 0 ||
    (match item with
     | 0x0001 => decide (64 ≤ index) || !within (w 2) (maskBits 17 16 ||| maskBits 14 0) || decide (19900 < field (w 2) 14 0)
        || !zeroFrom ws 3
     | 0x0002 =>
       index != 0 || !within (w 2) (maskBits 47 16) || !within (w 3) (maskBits 22 0) || decide (4194304 < field (w 3) 22 0)
         || field (w 3) 22 0 == 0 || !within (w 4) (maskBits 47 18) || !within (w 5) (maskBits 19 0) || !zeroFrom ws 6
     | 0x0003 => decide (1024 ≤ index) || !within (w 2) (maskBits 20 0) || !zeroFrom ws 3
     | 0x0004 => decide (16384 ≤ index) || !within (w 2) (maskBits 20 0) || !within (w 3) (maskBits 47 0)
     | 0x0005 =>
       decide (16 ≤ index) || netCfgReserved (w 2) || netPfcReserved (w 3) || cltCfgReserved (w 4) || !zeroFrom ws 5
     | 0x0006 => index != 0 || !within (w 2) (maskBits 19 0) || !zeroFrom ws 3
     | 0x0100 =>
       index != 0 || !within (w 2) (maskBits 15 0) || decide ((w 2).toNat < 900 ∨ 2600 < (w 2).toNat)
         || (w 2).toNat % 25 != 0 || !zeroFrom ws 3
     | 0x0101 => decide (48 ≤ index) || !within (w 2) (maskBits 1 0) || !zeroFrom ws 3
     | 0x0102 => index != 0 || !within (w 2) (maskBits 7 0) || decide ((w 2).toNat < 70 ∨ 104 < (w 2).toNat) || !zeroFrom ws 3
     | _ => true)

/-- The table of opcodes (R359). -/
def opcodes : List Nat :=
  [0x00, 0x01, 0x10, 0x11, 0x20, 0x21, 0x30, 0x31, 0x40, 0x41, 0x42, 0x50, 0x51, 0x52, 0x60, 0x61, 0x70, 0x71, 0x72, 0x73]

/-- Parameters with a reserved field or encoding (R359, R360). -/
def paramsReserved (ws : List Word) : Bool :=
  let w (i : Nat) : Word := ws.getD i 0
  match field (w 0) 7 0 with
  | 0x00 => !zeroFrom ws 1
  | 0x01 =>
    let what := field (w 1) 7 0
    decide (3 < what) || !within (w 1) (if what = 2 then maskBits 31 16 ||| maskBits 7 0 else maskBits 7 0) || !zeroFrom ws 2
  | 0x10 => stageReserved ws
  | 0x11 => !within (w 1) (maskBits 15 0) || !zeroFrom ws 2
  | 0x20 =>
    (w 1).toNat % 64 != 0 || !within (w 2) (maskBits 39 0) || !within (w 3) (maskBits 31 0) || w 3 == 0
      || !within (w 4) (maskBits 0 0) || !zeroFrom ws 5
  | 0x21 => !within (w 1) (maskBits 31 0) || !zeroFrom ws 2
  | 0x30 =>
    !within (w 1) (maskBits 48 0) || !within (w 3) (maskBits 47 0) || (w 3).toNat % 16 != 0
      || !within (w 4) (maskBits 31 16 ||| maskBits 0 0) || !zeroFrom ws 5
  | 0x31 => !within (w 1) (maskBits 15 0) || !zeroFrom ws 2
  | 0x40 => !within (w 3) (maskBits 39 0) || w 3 == 0 || !within (w 4) (maskBits 1 0) || !zeroFrom ws 5
  | 0x41 => !within (w 3) (maskBits 39 0) || w 3 == 0 || !within (w 4) (maskBits 0 0) || !zeroFrom ws 5
  | 0x42 => !within (w 3) (maskBits 39 0) || w 3 == 0 || !within (w 4) (maskBits 1 0) || !zeroFrom ws 5
  | 0x50 => field (w 1) 31 0 == 0 || !zeroFrom ws 3
  | 0x51 => !within (w 1) (maskBits 31 0) || !zeroFrom ws 2
  | 0x52 =>
    !within (w 1) (maskBits 60 0) || !within (w 3) (maskBits 47 0) || (w 3).toNat % 16 != 0
      || !within (w 4) (maskBits 31 16 ||| maskBits 0 0) || !within (w 5) (maskBits 47 0) || !zeroFrom ws 6
  | 0x60 => !within (w 1) (maskBits 47 0) || !zeroFrom ws 2
  | 0x61 => !within (w 1) (maskBits 2 0) || !zeroFrom ws 2
  | 0x70 =>
    !([1, 2, 3, 0x20, 0x21] : List Nat).contains (w 1).toNat || !within (w 3) (maskBits 15 0) || !within (w 4) (maskBits 0 0)
      || !zeroFrom ws 5
  | 0x71 =>
    !within (w 1) (maskBits 34 16 ||| maskBits 2 0) || decide (4 < field (w 1) 2 0)
      || decide (4 < field (w 1) 34 32) || (field (w 1) 2 0 != 0 && field (w 1) 34 32 != 0) || !zeroFrom ws 2
  | 0x72 =>
    !within (w 1) (maskBits 48 48 ||| maskBits 34 16 ||| maskBits 2 0) || decide (4 < field (w 1) 2 0)
      || decide (4 < field (w 1) 34 32) || (field (w 1) 2 0 != 0 && field (w 1) 34 32 != 0)
      || (bit (w 1) 48 && field (w 1) 2 0 != 2) || !zeroFrom ws 2
  | 0x73 => !within (w 1) (maskBits 31 0) || !within (w 3) (maskBits 15 0) || !within (w 4) (maskBits 0 0) || !zeroFrom ws 5
  | _ => true

/-! ### Whom a packet acts on (R352, check 5 of R353) -/

/-- Whether an opcode on the management path acts on a partition (R352). -/
def actsOnPart (ws : List Word) : Bool :=
  let w (i : Nat) : Word := ws.getD i 0
  let pv := bit (w 0) 50
  match field (w 0) 7 0 with
  | 0x00 => false
  | 0x01 => field (w 1) 7 0 != 0
  | 0x60 => false
  | 0x61 => false
  | 0x73 => false
  | 0x70 => pv || !([1, 2, 3] : List Nat).contains (field (w 1) 7 0)
  | 0x10 => pv || !deviceItem (field (w 1) 15 0)
  | 0x11 => pv
  | _ => true

/-- The partition that a packet acts on. -/
def State.packetPart (s : State) (src : CmdSrc) (ws : List Word) : Option Nat :=
  match src with
  | .qp h _ => s.partOfHost h.val
  | .mgmt =>
    let p := field (ws.getD 0 0) 49 48
    if actsOnPart ws && bit (ws.getD 0 0) 50 && (s.part p).bound then some p else none

/-- Check 5 of R353. [log 83: DEDUCED] -/
def State.forbidden (s : State) (src : CmdSrc) (ws : List Word) : Bool :=
  let op := field (ws.getD 0 0) 7 0
  match src with
  | .qp h _ =>
    op == 0x60 || op == 0x61
      || ((s.partOfHost h.val).isNone && !(op == 0 || (op == 1 && field (ws.getD 1 0) 7 0 == 0)))
  | .mgmt => actsOnPart ws && (s.packetPart .mgmt ws).isNone

/-! ### Acceptance -/

/-- The commands whose tags share a space with a source's (R352, R356). -/
def State.tagSpace (s : State) (src : CmdSrc) : List Cmd :=
  s.cmds.filter (fun c => match src, c.src with
    | .qp h _, .qp h' _ => h == h'
    | .mgmt, .mgmt => true
    | _, _ => false)

/-- The class of a packet at its acceptance (R306, R380). [log 99: DEDUCED] -/
def State.classOf (s : State) (src : CmdSrc) (part : Option Nat) : Nat :=
  match src, part with
  | .qp _ q, some p => mget 2 (s.part p).qclass q.val
  | _, _ => 2

/-- A packet refused, with a final reply (R353). -/
def State.rejectPacket (s : State) (src : CmdSrc) (ws : List Word) (status : Nat) : State :=
  s.replyTo src (field (ws.getD 0 0) 7 0) (field (ws.getD 0 0) 31 16) { status := status }

/-- Check 6 of R353 for a CASK_JOIN, settled when its packet arrives (R292): an accepted join waits from then on. -/
def State.joinRefusal (s : State) (part : Option Nat) (ws : List Word) : Option Nat :=
  let w := ws.getD 1 0
  match part with
  | none => none
  | some p =>
    let k := (s.part p).cask
    let waiting := s.cmds.filter (fun c => c.op == 0x50 && c.part == some p && !c.decided)
    if k.seqs.any (fun x => x.handle == field w 31 0) || waiting.any (fun c => field (c.p 1) 31 0 == field w 31 0)
        || decide (256 ≤ waiting.length) then some stRejBusy
    else if 65536 < k.dataCasks (field w 63 32 + 1) then some stNoSpace
    else none

/-- The checks of R353 in their order: a copy is dropped, a refused packet answered, an accepted command queued. [log 69: DESIGN CHOICE] -/
def State.acceptPacket (s : State) (src : CmdSrc) (ws : List Word) : State :=
  let w0 := ws.getD 0 0
  let tag := field w0 31 16
  let host : Bool := match src with | .qp _ _ => true | .mgmt => false
  let space := s.tagSpace src
  if space.any (fun c => c.tag == tag) then
    match src with
    | .qp h q => s.modQp h.val q.val (fun x => { x with dup := satAdd 0xFFFF x.dup 1 })
    | .mgmt => s
  else if 1024 ≤ space.length then s.rejectPacket src ws stRejBusy
  else if !opcodes.contains (field w0 7 0) then s.rejectPacket src ws stRejOpcode
  else if headerReserved host w0 || paramsReserved ws
      || (!host && field w0 7 0 == 0x11 && !bit w0 50 && ws.getD 1 0 != 0) then s.rejectPacket src ws stRejReserved
  else if s.forbidden src ws then s.rejectPacket src ws stRejPermission
  else
    let part := s.packetPart src ws
    let c : Cmd := { src := src, tag := tag, part := part, words := ws, cls := s.classOf src part, at_ := s.ao }
    match (if field w0 7 0 = 0x50 then s.joinRefusal part ws else none) with
    | some st => s.rejectPacket src ws st
    | none => ({ s with cmds := s.cmds ++ [c] } : State).nopSweep

/-- COMMAND_FETCH (R350, R351, R353): the next entry of a submission ring is read, as a packet of 8 quadwords, or its
read fails. [log 80: DESIGN CHOICE] -/
def execCommandFetch (h : HostPort) (q : Fin 64) (pkt : Option (List Word)) (s : State) : Out :=
  let x := (s.host h.val).qp q.val
  if !x.en || x.err || x.sqHead == x.sqt || s.boot.st != .ready then .next s
  else match pkt with
    | none => .next (s.qpError h.val q.val)
    | some ws =>
      if ws.length ≠ 8 then .refused (.illFormed "COMMAND_FETCH")
      else
        .next ((s.modQp h.val q.val (fun x => { x with sqHead := (x.sqHead + 1) % x.sqSize })).acceptPacket (.qp h q) ws)

/-- IN_PROGRESS (R358): a command without a final reply 1 ms after its doorbell gets one interim reply. -/
def execInProgress (src : CmdSrc) (tag : Nat) (s : State) : Out :=
  match s.cmdOf src tag with
  | none => .next s
  | some c =>
    if c.inProgress then .next s
    else .next ((s.modCmd c (fun c => { c with inProgress := true })).replyTo src c.op tag { status := 1 })

end Sys2Proof.Machine
end

