-- ==== Sys2Proof/Machine/DmaCmd.lean ====
section
/-!
DEFINITION. DMA_COPY, FILL and COMPARE as commands (R263, R359, R451, R452).
-/
namespace Sys2Proof.Machine
open Sys2Proof

/-! ### DMA_COPY, FILL, COMPARE -/

/-- The parts of a byte range over m live clusters: offset and length (R452). [log 67: DESIGN CHOICE] -/
def dmaParts (n m : Nat) : List (Nat × Nat) :=
  let eq := if Config.partsRoundUp then ceilDiv (ceilDiv n m) 256 * 256 else n / m / 256 * 256
  (List.range m).map (fun i => (min (i * eq) n, if i + 1 = m then n - min (i * eq) n else min eq (n - min (i * eq) n)))

/-- Whether two ranges of n bytes in one address space overlap. -/
def rangesMeet (a b n : Nat) : Bool := decide (a < b + n) && decide (b < a + n)

/-- The descriptor of one part of a command. Its address and DESCID are no descriptor's in memory: free values. [log 62: DESIGN CHOICE] -/
def dmaCmdDesc (c : Cmd) (op off len : Nat) (f : Word) : DmaDesc :=
  let fill := op == 1
  let srcHost := !fill && bit (c.p 4) 0
  let dstHost := if fill then bit (c.p 4) 0 else bit (c.p 4) 1
  { addr := field f 47 0, id := field f 63 48, op := op,
    src := if fill then c.p 1 else c.p 1 + BitVec.ofNat 64 off, dst := (c.p 2).toNat + off, len0 := len,
    srcHost := srcHost, dstHost := dstHost, cmd := some (c.src, c.tag) }

/-- The command starts: one descriptor on channel 0 of each live cluster's DMA engine, but for a part of no byte (R452). -/
def State.dmaCmdStart (s : State) (p : Nat) (c : Cmd) (op : Nat) : State :=
  let q := s.part p
  let n := field (c.p 3) 39 0
  let parts := (q.live.zip (dmaParts n q.live.length)).filter (fun e => e.2.2 != 0)
  let s1 := (s.modPart p (fun q => { q with lastQp := mput q.lastQp c.cls (srcOrder c.src) })).modCmd c
    (fun c => { c with started := true, parts := parts.length })
  (parts.foldl (fun (s : State) e =>
    let d := s.drawFree
    let run : DmaRun := { desc := dmaCmdDesc c op e.2.1 e.2.2 d.1 }
    d.2.modCluster e.1 (fun x =>
      { x with dma := x.dma.modChan 0 (fun y => { y with descs := [run], fault := none, stopped := false }) })) s1).nopSweep

/-- A DMA command taken in the order of R380 (R452); overlapping ranges of one space fail at once (R359). [log 68: DEDUCED] -/
def State.dmaCommand (s : State) (src : CmdSrc) (tag opcode op : Nat) : State :=
  match s.cmdFor src tag opcode with
  | none => s
  | some c =>
    let p := c.partOr
    let same : Bool := bit (c.p 4) 0 == bit (c.p 4) 1
    if op ≠ 1 ∧ same ∧ rangesMeet (c.p 1).toNat (c.p 2).toNat (field (c.p 3) 39 0) then
      s.finish c { status := stFault, cause := 0x0F, sub := 0x13 }
    else if !s.partFree p || (s.part p).live.isEmpty then s
    else match bestOf (s.cands p) with
      | none => s
      | some b => if b.src == src && b.tag == tag then s.dmaCmdStart p c op else s

/-- DMA_COPY. -/
def execDmaCopy (src : CmdSrc) (tag : Nat) (s : State) : Out := .next (s.dmaCommand src tag 0x40 0)

/-- FILL. -/
def execFill (src : CmdSrc) (tag : Nat) (s : State) : Out := .next (s.dmaCommand src tag 0x41 1)

/-- COMPARE. -/
def execCompare (src : CmdSrc) (tag : Nat) (s : State) : Out := .next (s.dmaCommand src tag 0x42 2)

end Sys2Proof.Machine
end

