-- ==== Sys2Proof/Machine/FlagQueue.lean ====
section
/-!
DEFINITION. The head of a core's flag queue performed (R223, R246, R264, R326, R337).
-/
namespace Sys2Proof.Machine
open Sys2Proof

/-- The operation code of a flag operation in a CLT packet (R329). -/
def FlagAct.cltCode : FlagAct → Nat
  | .set | .clear => 0
  | .inc => 1
  | .dec => 2

/-- The connection on which an entry leaves the device. -/
def State.entryConn (s : State) (p : Nat) (o : FqOp) : Option Nat :=
  match o with
  | .remote node _ _ => s.connTo p node
  | .post ci _ _ => some ci
  | _ => none

/-- Whether the writes that an entry follows are in place; for one on CLT the writes of its stream on its own
connection need only their PSNs (R223, R337). [log 49: DEDUCED] -/
def State.entryOrdered (s : State) (p k : Nat) (e : FqEntry) : Bool :=
  s.storesInPlaceBut k e.stamp (s.entryConn p e.op) && (s.core k).unitsPast e.stamp

/-- Whether the unit that takes an entry has room: a channel with fewer than 4 lists, an engine with fewer than 16
descriptors, a connection with fewer than 1,024 operations (R246, R264, R338). -/
def State.entryRoom (s : State) (p k : Nat) (o : FqOp) : Bool :=
  let c := clusterOf k
  match o with
  | .flag _ _ _ => true
  | .remote _ _ _ | .post _ _ _ => match s.entryConn p o with | some ci => s.cltRoom p ci | none => true
  | .dma ch _ => decide ((s.dmaChan c ch).lists.length < 4) && (s.dmaChan c ch).later.isEmpty
  | .eng e _ => decide ((s.eng c e).queue.length < 16)

/-- Whether an operation announces data: a set, or one on a counted flag (R133). -/
def FqOp.announces : FqOp → Bool
  | .flag _ a _ => a != .clear
  | .remote _ _ _ => true
  | _ => false

/-- An entry performed. -/
def State.entryDo (s : State) (p k : Nat) (e : FqEntry) : State :=
  let c := clusterOf k
  match e.op with
  | .flag t a own => s.flagSend { target := t, act := a, source := k, rank := if own then coreRank else 0, origin := some k }
  | .remote node w a =>
    match s.connTo p node with
    | none => s
    | some ci =>
      (s.cltFlushStream p k).cltIssue p ci
        { type := 3, stream := k, e0 := place (field w 19 0) 20 0, e1 := place a.cltCode 2 0,
          sched := (s.part p).launchId, origin := some k }
  | .post ci ch notice => s.cltPost p ci k ch notice (some k)
  | .dma ch a => s.listQueue p c ch a.toNat
  | .eng n a => s.modEng c n (fun x => { x with queue := x.queue ++ [{ addr := a.toNat, core := k }] })

/-- FLAG_QUEUE_PERFORM (R223): the head of a core's flag queue is performed once the writes before it are in place;
until then their merging-buffer entries drain. An operation behind a rejected write of its stream is not performed
(R133). [log 49: DEDUCED] -/
def execFlagQueuePerform (k : CoreId) (s : State) : Out :=
  match (s.core k.val).flg.queue, s.partOfCore k.val with
  | e :: rest, some p =>
    if (s.core k.val).run == .stopped then .next s
    else if !s.entryOrdered p k.val e then
      .next (s.modCluster (clusterOf k.val) (fun x =>
        { x with l2 := { x.l2 with
          mb := startDrain x.l2.mb (fun m => m.stores.any (fun w => w.1 == k.val && decide (w.2 < e.stamp))) } }))
    else if !s.entryRoom p k.val e.op then .next s
    else
      let s1 := s.modCore k.val (fun c => { c with flg := { c.flg with queue := rest } })
      let dropped : Bool := e.op.announces && (match (s.core k.val).rejAt with
        | some r => decide (r < e.stamp)
        | none => false)
      if dropped then
        .next (if (s.core k.val).presented && rest.isEmpty then s1.presentedDone k.val else s1)
      else .next (s1.entryDo p k.val e)
  | _, _ => .next s

end Sys2Proof.Machine
end

