-- ==== Sys2Proof/Machine/Hbm.lean ====
section
/-!
DEFINITION. Device memory (spec 14): patrol scrub, and the map-out of a pseudo-channel.
-/
namespace Sys2Proof.Machine
open Sys2Proof

/-- Blocks of 64 bytes of one pseudo-channel (R298). -/
def pcBlocks : Nat := 12582912

/-- The pseudo-channels of a partition that are not mapped out: L_p (R309). -/
def State.livePcs (s : State) (ns : List Nat) : Nat :=
  (ns.map (fun n => ((List.range 64).filter (fun i => !(s.hbm n).mapout.getLsbD i)).length)).sum

/-- Whether the pseudo-channels left of a partition's stacks can hold every usable granule (R311). -/
def State.absorbs (s : State) (q : Part) : Bool :=
  decide (q.stackIds.length * q.usable ≤ s.livePcs q.stackIds * 805306368)

/-- The row that a map-out moved to a row of a pseudo-channel: by its place before (R310). -/
def PcMove.source (m : PcMove) (own : Nat) (x : Nat × Nat) : Option (Nat × Nat) :=
  m.order.zipIdx.findSome? (fun e =>
    let first := own + e.1.2
    let k := (x.2 - first) * m.order.length + e.2
    if e.1.1 = x.1 ∧ first ≤ x.2 ∧ k < m.held then some (m.lost, k) else none)

/-- The home of the row that a pseudo-channel holds in a row, map-outs undone from the newest on; none for a free spare
row. -/
def homeRow (own : Nat) : List PcMove → Nat × Nat → Option (Nat × Nat)
  | [], x => if x.2 < own then some x else none
  | m :: ms, x =>
    match m.source own x with
    | some y => homeRow own ms y
    | none => homeRow own ms x

/-- Spare rows of a pseudo-channel in use after map-outs. -/
def spareUsed (own : Nat) (ms : List PcMove) (pc : Nat) : Nat :=
  ms.foldl (fun n m => match m.order.zipIdx.find? (fun e => e.1.1 == pc) with
    | some e => min (pcRows - own) (e.1.2 + (m.held + m.order.length - 1 - e.2) / m.order.length)
    | none => n) 0

/-- The pseudo-channels of stacks that are not mapped out, ascending. -/
def State.livePcList (s : State) (ns : List Nat) : List Nat :=
  (ns.flatMap (fun n => (List.range 64).map (fun i => 64 * n + i))).filter (fun pc => !s.pcOut pc)

/-- Where a map-out of a pseudo-channel moves its rows: to the survivors in rotation, those with the fewest spare rows in
use first (R310). [log 132: DESIGN CHOICE] -/
def State.pcMove (s : State) (q : Part) (pc : Nat) : PcMove :=
  let used (n : Nat) : Nat := spareUsed q.ownRows q.moves n
  let live := (s.livePcList q.stackIds).filter (fun n => n != pc)
  let low := live.foldl (fun m n => min m (used n)) (used (live.headD 0))
  { lost := pc, held := q.ownRows + used pc,
    order := ((live.filter (fun n => used n == low)) ++ live.filter (fun n => used n != low)).map (fun n => (n, used n)) }

/-- A partition with the rows of its mapped-out pseudo-channels moved to spare, as at its creation (R312). -/
def State.withMoves (s : State) (q : Part) : Part :=
  let out := (q.stackIds.flatMap (fun n => (List.range 64).map (fun i => 64 * n + i))).filter s.pcOut
  out.foldl (fun q pc => { q with moves := q.moves ++ [s.pcMove q pc] }) q

/-- The physical address of the block at an offset of a pseudo-channel, by R301 and R310; none for a free spare block,
and for one that no partition owns. -/
def State.addrOf (s : State) (pc off : Nat) : Option Nat :=
  match s.partOfStack (pc / 64) with
  | none => none
  | some p =>
    let q := s.part p
    let st := q.stackIds
    let npc := 64 * st.length
    let u := 6291456 * (32 - q.mspare)
    match homeRow q.ownRows q.moves.reverse (pc, off / 256) with
    | none => none
    | some (pc, row) =>
    let h := ((row ^^^ (row / 2 ^ 13)) * 0x2545F491) % 2 ^ 32 / 2 ^ 8
    let t := 64 * (st.takeWhile (· != pc / 64)).length + pc % 64
    let g := row * npc + (t + npc - h % npc) % npc
    if g < st.length * u then some (st.getD (g / u) 0 * sliceBytes + g % u * 256 + off % 256) else none

/-- The scrubber of a pseudo-channel has read a block: it goes on with the next, and counts its sweeps (R304). -/
def Hbm.scrubNext (h : Hbm) (i : Nat) : Hbm :=
  let b := mget 0 h.scrub i
  let wrap := b + 1 = pcBlocks
  { h with scrub := mput h.scrub i (if wrap then 0 else b + 1),
           sweeps := if wrap && i == 0 then satAdd 0xFFFFFFFF h.sweeps 1 else h.sweeps }

/-- PATROL_SCRUB (R304): one scrub read. A correction writes the block back, which leaves its data as they are; an
uncorrectable block is poisoned, reported and detected. [log 57: DEDUCED; log 106: DEDUCED] -/
def execPatrolScrub (pc : Fin 768) (e : Ecc) (s : State) : Out :=
  if s.boot.st != .ready || s.pcOut pc.val then .next s
  else
    let n := pc.val / 64
    let off := mget 0 (s.hbm n).scrub (pc.val % 64) * 64
    let at_ := s.addrOf pc.val off
    let a := at_.getD 0
    let s1 := s.modHbm n (fun h => h.scrubNext (pc.val % 64))
    let bad : Bool := e == .uncorrectable || (match at_ with | some a => s.poison.contains (a / 64) | none => false)
    if bad then
      let s2 := match at_ with | some a => s1.scrubLoss a | none => s1
      .next (s2.pcUncorrectable pc.val off a maltsterId true)
    else match e with
      | .corrected => .next (s1.pcCorrected pc.val a maltsterId)
      | .onDie => .next (s1.modHbm n (fun h => { h with odcnt := satAdd 0xFFFFFFFF h.odcnt 1 }))
      | _ => .next s1

/-- A range of a partition's device memory lost at a map-out (R311): poisoned, and reported. -/
def State.loseRange (s : State) (p a n : Nat) : State :=
  (((List.range (n / 64)).foldl (fun s i => s.addPoison (a / 64 + i)) s).modPart p (fun q =>
    { q with lossy := q.lossy || q.launch.isSome, lostRanges := q.lostRanges ++ [(a, n)] })).rangeLost p a n

/-- The granules of a pseudo-channel that the survivors' spare does not hold, by their addresses (R311). -/
def State.unfitted (s : State) (q : Part) (m : PcMove) : List Nat :=
  (List.range m.held).filterMap (fun k => if (m.place q.ownRows k).isSome then none else s.addrOf m.lost (256 * k))

/-- Lines of a cellar lost with their launch (R311, R406). -/
def State.cellarLost (s : State) (p : Nat) (lines : List Nat) : State :=
  let q := s.part p
  let gone := q.cellar.filter (fun e => lines.contains e.1)
  let hit (sv : Saved) : Bool := sv.cellar.any (fun e => lines.contains e.1)
  let old := q.suspended.flatMap (fun sv => (sv.cellar.filter (fun e => lines.contains e.1)).map (·.1))
  ((gone.map (·.1)) ++ old).foldl (fun s l => s.rangeLost p (l * 64) 64) (s.modPart p (fun q =>
    { q with cellar := q.cellar.filter (fun e => !lines.contains e.1), lossy := q.lossy || !gone.isEmpty,
             suspended := q.suspended.map (fun sv =>
               if hit sv then { sv with lost := true, cellar := sv.cellar.filter (fun e => !lines.contains e.1) } else sv) }))

/-- The requests that a map-out held are released (R310). -/
def State.migrReleased (s : State) (p : Nat) : State := (s.rxRelease p).hostsDrain

/-- PC_MAPOUT_COMPLETE (R309 to R311): the granules of the pseudo-channel at the head of its partition's queue have
been moved; the granules that the spare does not hold are lost with the blocks that could not be corrected. [log 106: DEDUCED; log 132: DESIGN CHOICE] -/
def execPcMapoutComplete (pc : Fin 768) (lost : PcLoss) (s : State) : Out :=
  let p := s.partOfStack (pc.val / 64)
  match s.handlingOf p with
  | [] => .next s
  | h :: _ =>
    if h.action ≠ actPc ∨ h.det.unit ≠ pc.val then .next s
    else
      let s1 := s.modHbm (pc.val / 64) (fun x => { x with migr := false })
      let done (s : State) (h : Handling) (cls : ErrClass) : State :=
        let s2 := s.handled p h (if h.cmd.isSome then .corrected else cls)
        match h.cmd.bind (fun e => s2.cmdOf e.1 e.2) with
        | some c => s2.finish c {}
        | none => s2
      match p with
      | none => .next (done s1 h .degraded)
      | some p =>
        let q := s.part p
        let m := s.pcMove q pc.val
        -- blocks that were not poisoned before and become so (R311)
        let worse := (lost.bad.filter (fun b => (s.homeOf (64 * b)).map (·.1) == some pc.val && !s.poison.contains b)).eraseDups
        let none_ := s.unfitted q m
        let s2 := (s1.modPart p (fun q => { q with moves := q.moves ++ [m] })).partEvent p 0x01 0
          (place (s.livePcs q.stackIds) 10 0 ||| place (64 * q.stackIds.length) 10 10 ||| place pc.val 10 20) 0
        if worse.isEmpty && none_.isEmpty then .next ((done s2 h .degraded).migrReleased p)
        else
          let s3 := worse.foldl (fun s b => s.loseRange p (64 * b) 64) (none_.foldl (fun s a => s.loseRange p a 256) s2)
          .next ((done (s3.cellarLost p lost.lines) { h with action := actDataLoss } .fatal).migrReleased p)

end Sys2Proof.Machine
end

