-- ==== Sys2Proof/Machine/Maintenance.lean ====
section
/-!
DEFINITION. Cache maintenance and what happens in the memories by itself (specs 06 and 10): the maintenance
instructions (R216), drains (R210, R211), L2 maintenance (R217 to R219), launch boundaries (R214), posted stores
at another scratchpad (R130 to R134, R182) and the scrubbers (R136).
-/
namespace Sys2Proof.Machine
open Sys2Proof

/-! ### Maintenance instructions (R201, R216) -/

/-- The line of device memory of the core's partition that a virtual address translates to (R216). -/
def State.maintLine (s : State) (k : Nat) (a : Word) : Option Nat :=
  if k = maltsterCore then none
  else match coreXlate s k (s.core k).ring .read a.toNat with
    | .ok (.phys pa _) => if pa < memEnd then some (pa / 64) else none
    | _ => none

/-- An instruction that pops an address and acts on its line, where it has one. -/
def lineInstr (k : CoreId) (i : Instr) (illegal : Option Nat) (f : State → Nat → State) (s : State) : Out :=
  let b := instrBytes i
  coreInstr k { bytes := b, pops := 1, illegal := illegal }
    (fun s =>
      let s1 := match s.maintLine k.val (nth (s.tops k.val 1) 0) with
        | some line => f s line
        | none => s
      .next ((s1.stackEffect k.val .data 1 []).advance k.val b.length)) s

/-- An instruction without operands. -/
def plainInstr (k : CoreId) (i : Instr) (maxRing : Nat) (illegal : Option Nat) (f : State → State) (s : State) : Out :=
  let b := instrBytes i
  coreInstr k { bytes := b, maxRing := maxRing, illegal := illegal } (fun s => .next ((f s).advance k.val b.length)) s

/-- R216: DINV. -/
def execDinv (k : CoreId) (s : State) : Out :=
  lineInstr k (.dinv k) none (fun s l => s.modCore k.val (fun c => { c with l1d := dropLine c.l1d l })) s
/-- R216: DINVA. -/
def execDinva (k : CoreId) (s : State) : Out :=
  plainInstr k (.dinva k) 3 none (fun s => s.modCore k.val (fun c => { c with l1d := [] })) s
/-- R216: IINV. -/
def execIinv (k : CoreId) (s : State) : Out :=
  lineInstr k (.iinv k) none (fun s l => s.modCore k.val (fun c => { c with l1i := dropLine c.l1i l })) s
/-- R216: IINVA. -/
def execIinva (k : CoreId) (s : State) : Out :=
  plainInstr k (.iinva k) 3 none (fun s => s.modCore k.val (fun c => { c with l1i := [] })) s
/-- R216: L2FL: the line's merging-buffer entries are in place. [log 16: DESIGN CHOICE] -/
def execL2fl (k : CoreId) (s : State) : Out :=
  lineInstr k (.l2fl k) (notOnMaltster k) (fun s l => s.lineInPlace (clusterOf k.val) l) s
/-- R216: L2FLA. [log 16: DESIGN CHOICE] -/
def execL2fla (k : CoreId) (s : State) : Out :=
  plainInstr k (.l2fla k) 3 (notOnMaltster k) (fun s => s.allInPlace (clusterOf k.val)) s

/-- An L2 line invalidated, or refetched where it is locked (R216). -/
def State.l2Invalidate (s : State) (c line : Nat) : State :=
  let mem := s.getBytes (line * 64) 64
  s.modCluster c (fun x =>
    let ls := dropLine x.l2.lines line
    { x with l2 := { x.l2 with lines := if x.l2.isLocked line then ⟨line, x.l2.lockWay line, mem⟩ :: ls else ls } })

/-- R216: L2INV. [log 16: DESIGN CHOICE] -/
def execL2inv (k : CoreId) (s : State) : Out :=
  lineInstr k (.l2inv k) (notOnMaltster k)
    (fun s l => (s.lineInPlace (clusterOf k.val) l).l2Invalidate (clusterOf k.val) l) s
/-- R216: L2INVA; rings 0 and 1. [log 16: DESIGN CHOICE] -/
def execL2inva (k : CoreId) (s : State) : Out :=
  plainInstr k (.l2inva k) 1 (notOnMaltster k) (fun s => (s.allInPlace (clusterOf k.val)).l2Refresh (clusterOf k.val)) s

/-- R201, R211: MFENCE waits until every earlier store of the core is in place. -/
def execMfence (k : CoreId) (s : State) : Out :=
  let i : Instr := .mfence k
  let b := instrBytes i
  coreInstr k { bytes := b }
    (fun s =>
      let s1 := match s.partOfCore k.val with
        | some p => (s.drainCore k.val).cltFlushStream p k.val
        | none => s.drainCore k.val
      if s1.storesInPlace k.val (s1.core k.val).stamp then .next (s1.advance k.val b.length)
      else .next (s1.waitAt k.val i)) s

/-! ### The merging buffer and L2 maintenance -/

/-- MERGE_DRAIN_START (R211): the entry of a line that still merges has taken no store for the idle time, or one of
the events that call for it has come, and starts to drain. [log 3: DESIGN CHOICE] -/
def execMergeDrainStart (c : ClusterId) (line : Nat) (s : State) : Out :=
  .next (s.modCluster c.val (fun x =>
    { x with l2 := { x.l2 with mb := startDrain x.l2.mb (fun e => e.line == line) } }))

/-- MERGE_ENTRY_IN_PLACE (R210, R211): the HBM controller accepts the drain of a line's oldest entry, where no entry
allocated before it is draining. [log 3: DESIGN CHOICE] -/
def execMergeEntryInPlace (c : ClusterId) (line : Nat) (s : State) : Out :=
  match (s.cluster c.val).l2.mb.find? (fun e => e.draining) with
  | none => .next s
  | some e => if e.line = line then .next (s.entryInPlace c.val line) else .next s

/-- L2_MAINTENANCE_DONE (R217 to R219): the oldest maintenance completes, once the entries present at its
start are in place. [log 125: DESIGN CHOICE] -/
def execL2MaintenanceDone (c : ClusterId) (s : State) : Out :=
  let l := (s.cluster c.val).l2
  match l.work with
  | [] => .next s
  | (w, lines) :: rest =>
    if l.mb.any (fun e => e.draining && lines.contains e.line) || !w.ready l then .next s
    else .next ((s.modCluster c.val (fun x => { x with l2 := { x.l2 with work := rest } })).l2WorkDone c.val w)

/-! ### Posted stores at another scratchpad (R130 to R134, R182) -/

/-- The event of a rejected store: imprecise, with its physical address and the report of R132 (R173). -/
def rejectEv (p : Posted) (k' off m : Nat) (r : Rej) : Ev :=
  let rep := rejReport k' off p.bytes.length m r
  { code := 6, cause := if r = .resident then 4 else 3, kind := .imprecise, iaddr := p.iaddr,
    faddr := BitVec.ofNat 64 p.addr, info0 := rep.1, info1 := rep.2 }

/-- SCRATCHPAD_REMOTE_WRITE: core k's oldest posted store reaches the banks of its scratchpad: it passes the
window check and is in place, or is rejected. `h` is what the read of a partial entry finds (R136). -/
def execScratchpadRemoteWrite (k : CoreId) (h : Ecc) (s : State) : Out :=
  match (s.core k.val).posted with
  | [] => .next s
  | p :: rest =>
    match placeOf p.addr with
    | .spad k' off =>
      let s1 := s.modCore k.val (fun c => { c with posted := rest })
      match s.windowCheck k' off p.bytes.length k.val with
      | some r =>
        .next ((s1.windowReject k' off p.bytes.length k.val r).modCore k.val (fun c =>
          { c with rejAt := (match c.rejAt with | none => some p.stamp | r => r),
                   pendDef := c.pendDef ++ [{ ev := rejectEv p k' off k.val r, stamp := p.stamp }] }))
      | none =>
        let e := s1.writeCells (((List.range p.bytes.length).map (fun i => p.addr + i)).zip p.bytes) k.val h
        if e.2 then .next e.1 else .next (e.1.stopCore k.val)
    | _ => .next s

/-- SCRATCHPAD_SCRUB (R136): the background scrubber reads the entry at an offset of a scratchpad or tun. [log 57: DEDUCED] -/
def execScratchpadScrub (u : ScrubUnit) (off : Nat) (h : Ecc) (s : State) : Out :=
  match u with
  | .spad k =>
    if k.val < 768 ∧ off < 0x100000 then .next (s.eccRead (spadAddr k.val off) k.val h).1
    else .refused (.illFormed "SCRATCHPAD_SCRUB")
  | .tun c =>
    if off < 0x800000 then .next (s.eccRead (tunAddr c.val off) maltsterId h).1
    else .refused (.illFormed "SCRATCHPAD_SCRUB")

end Sys2Proof.Machine
end

