-- ==== Sys2Proof/Machine/Net.lean ====
section
/-!
DEFINITION. Network ports and time (spec 15): bring-up, received frames, priority flow control, link-level retry,
GTIME and its discipline.
-/
namespace Sys2Proof.Machine
open Sys2Proof

/-- Whether a port number is a port of its group's mode (R313). -/
def State.portExists (s : State) (n : Nat) : Bool := decide (n % 4 < modePorts (s.group (n / 4)).mode)

/-! ### Bring-up and lane faults -/

/-- LANE_FAULT (R319): the port of the lane goes down, and the lane's kiln test starts; a fault of a lane that a port in
operation does not use, or of a failed lane, is none. [log 107: DEDUCED] -/
def execLaneFault (l : Fin 64) (s : State) : Out :=
  let g := l.val / 4
  let x := s.group g
  let i := portOfLane x.mode (l.val % 4)
  if modeWidth x.mode = 0 || x.failed.getLsbD (l.val % 4) || (x.up.getLsbD i && !x.lock.getLsbD (l.val % 4)) then .next s
  else .next ((s.portDown g i).handleDetection { source := 0x0E, ukind := 2, unit := l.val, master := maltsterId, addr := 0 })

/-- LINK_UP (R314, R318, R319, R330, R341): a port that trains comes up on a number of lanes that it advertises and the
far end takes, with link-level retry where both ends offer it. -/
def execLinkUp (port : Fin 64) (far : FarEnd) (s : State) : Out :=
  let g := port.val / 4
  let i := port.val % 4
  let x := s.group g
  match (laneChoices x.mode x.failed i).find? (fun ls => ls.length == far.lanes) with
  | none => .next s
  | some ls =>
    if !s.portExists port.val || !x.training.getLsbD i then .next s
    else
      let s1 := s.modGroup g (fun x =>
        { x with up := set4 x.up [i], lock := set4 x.lock ls, width := mput x.width i (widthCode far.lanes),
                 training := clear4 x.training [i],
                 llron := if far.llr && x.llr then set4 x.llron [i] else clear4 x.llron [i] })
      match s.partOfPort g with
      | none => .next s1
      | some p => .next ((s1.partEvent p 0x03 0 (place port.val 6 0 ||| place far.lanes 3 6) 0).pathsUp p port.val)

/-- NEGOTIATE (R319): the far end refuses the narrower rate; the port stays down. -/
def execNegotiate (port : Fin 64) (s : State) : Out :=
  let g := port.val / 4
  let i := port.val % 4
  let x := s.group g
  let n := (lanesUsed x.mode x.failed i).length
  if !s.portExists port.val || !x.training.getLsbD i || n == 0 || modeWidth x.mode ≤ n then .next s
  else
    let s1 := s.modGroup g (fun x => { x with training := clear4 x.training [i] })
    match s.partOfPort g with
    | none => .next s1
    | some p => .next (s1.partEvent p 0x02 0 (place port.val 6 0 ||| flagAt true 6) 0)

/-! ### Received frames (R315 to R317) -/

/-- What a received frame is delivered to (R315). -/
inductive FrameKind where
  | clt | ptp | pfc | pause | other
  deriving DecidableEq, Repr

/-- The kind of a frame: MAC control by its EtherType and opcode, UDP by its destination port. [log 136: PRESUMED] -/
def frameKind (udpport : Nat) (f : Frame) : FrameKind :=
  let udp : Option Nat := if f.etype = 0x0800 ∨ f.etype = 0x86DD then f.udp else none
  if f.etype = 0x8808 then (if f.opcode = 0x0101 then .pfc else if f.opcode = 0x0001 then .pause else .other)
  else if f.etype = 0x88F7 then .ptp
  else if udp = some udpport then .clt
  else if udp = some 319 ∨ udp = some 320 then .ptp
  else .other

/-- The priority of a frame (R317). -/
def framePrio (prisrc : Bool) (f : Frame) : Nat :=
  if prisrc then f.dscp / 8 % 8 else if f.tags = 1 then f.pcp % 8 else 0

def Port.held (q : Port) (prio : Nat) : Nat := ((q.buffer.filter (fun f => f.prio == prio)).map (fun f => f.bytes)).sum
def Port.total (q : Port) : Nat := (q.buffer.map (fun f => f.bytes)).sum

def bit8 (n : Nat) : BitVec 8 := BitVec.ofNat 8 (1 <<< n)

/-- A PFC frame sent for one priority. -/
def State.sendPfc (s : State) (n prio quanta : Nat) : State := s.send (.pfc n prio quanta)

/-- XOFF for a priority whose receive buffer has reached the threshold. -/
def State.xoffCheck (s : State) (n prio : Nat) : State :=
  let x := s.group (n / 4)
  let q := s.netPort n
  if x.pfcEn.getLsbD prio && !q.xoffSent.getLsbD prio && decide (x.xoff * 4096 ≤ q.held prio) then
    (s.modNetPort n (fun q => { q with xoffSent := q.xoffSent ||| bit8 prio })).sendPfc n prio 0xFFFF
  else s

/-- A good frame of a port: one under link-level retry that the port awaits moves its count on, and ends a retry that
awaits it (R318). [log 75: DEDUCED] -/
def State.frameGood (s : State) (n prio num : Nat) : State :=
  let x := s.group (n / 4)
  if x.llron.getLsbD (n % 4) && x.pfcLlr.getLsbD prio && num == (s.netPort n).rxNum then
    s.modNetPort n (fun q => { q with rxNum := (num + 1) % 2 ^ 32, retrying := if q.retrying == some num then none else q.retrying })
  else s

/-- A bad frame of a port whose link runs link-level retry on some priority: the frame awaited is asked for (R318). -/
def State.frameBad (s : State) (n : Nat) : State :=
  let x := s.group (n / 4)
  let r := (s.netPort n).rxNum
  if x.llron.getLsbD (n % 4) && x.pfcLlr != 0 then
    (s.modNetPort n (fun q => { q with retrying := some r })).send (.replayRequest n r)
  else s

/-- The timestamp of a PTP event message at a port: GTIME to within 4 ns (R322). [log 137: DEDUCED] -/
def State.stampNow (s : State) : Word × State :=
  let d := s.drawFree
  (s.gt.t + BitVec.ofNat 64 (d.1.toNat % 9) - 4, d.2)

/-- Whether a PTP message is an event message (R322). -/
def ptpEvent (k : PtpKind) : Bool :=
  match k with
  | .sync | .delayReq => true
  | .followUp | .delayResp => false

/-- A PTP message reaches the timestamp unit, which stamps an event message, and waits for the maltster (R315, R322). -/
def State.ptpReceive (s : State) (n : Nat) (m : PtpMsg) : State :=
  let d := if ptpEvent m.kind then s.stampNow else (0, s)
  { d.2 with gt := { d.2.gt with rx := d.2.gt.rx ++ [(n, m, d.1)] } }

/-- A frame that enters the receive buffer of its port, which all priorities share (R317). -/
def State.rxBuffer (s : State) (n prio len : Nat) : State :=
  (s.modNetPort n (fun q => { q with buffer := q.buffer ++ [{ prio := prio, bytes := len }] })).xoffCheck n prio

/-- An accepted frame delivered by its kind (R315): a packet of a CLT frame acts by its own command, one of a reserved
TYPE here, and one whose header cannot be read is dropped and counted. [log 76: DESIGN CHOICE] -/
def State.frameDeliver (s : State) (n : Nat) (f : Frame) : State :=
  match frameKind (s.group (n / 4)).udpport f, f.body with
  | .clt, .clt k => if [1, 2, 3, 4, 8, 9, 0xC, 0xD, 0xE].contains (pkType k) then s else s.cltUnknown n k
  | .clt, _ => s.badHdr (n / 4)
  | .ptp, .ptp m => s.ptpReceive n m
  | .other, .bytes bs => { s with mgmtQueue := s.mgmtQueue ++ [bs] }
  | _, _ => s

/-- FRAME_RECEIVED (R315 to R318): a frame that arrives is dropped and counted, or delivered by what it holds;
`excess` says that the management queue has no room at 1 Gb/s. [log 75: DEDUCED; log 76: DESIGN CHOICE] -/
def execFrameReceived (port : Fin 64) (f : Frame) (excess : Bool) (s : State) : Out :=
  let n := port.val
  let x := s.group (n / 4)
  let prio := framePrio x.prisrc f
  let drop (s : State) (g : Port → Port) : State := s.modNetPort n g
  if !s.portUp n then .next s
  else if !f.fec then .next ((drop s (fun q => { q with dropFec := satAdd 0xFFFFFFFF q.dropFec 1 })).frameBad n)
  else if !f.fcs then .next ((drop s (fun q => { q with dropFcs := satAdd 0xFFFFFFFF q.dropFcs 1 })).frameBad n)
  else
    let s1 := s.frameGood n prio f.num
    if f.len < 64 ∨ x.maxfrm + (if f.tags = 1 then 4 else 0) < f.len then
      .next (drop s1 (fun q => { q with dropLen := satAdd 0xFFFFFFFF q.dropLen 1 }))
    else if 1 < f.tags then .next (drop s1 (fun q => { q with dropVlan := satAdd 0xFFFFFFFF q.dropVlan 1 }))
    else match frameKind x.udpport f with
    | .pause => .next (drop s1 (fun q => { q with dropPause := satAdd 0xFFFFFFFF q.dropPause 1 }))
    | .pfc => .next s1
    | k =>
      if 1048576 < (s1.netPort n).total + f.len then
        .next (drop s1 (fun q => { q with dropFull := satAdd 0xFFFFFFFF q.dropFull 1 }))
      else if k = .other && excess then .next (drop s1 (fun q => { q with dropMgmt := satAdd 0xFFFFFFFF q.dropMgmt 1 }))
      else .next ((s1.rxBuffer n prio f.len).frameDeliver n f)

/-- PFC_FRAME (R317): a received PFC frame sets the pause of a priority, which holds its frames until an XON or the
expiry. -/
def execPfcFrame (port : Fin 64) (prio : Fin 8) (quanta : BitVec 16) (s : State) : Out :=
  let n := port.val
  if !s.portUp n then .next s
  else if !(s.group (n / 4)).pfcEn.getLsbD prio.val then
    .next (s.modNetPort n (fun q => { q with pfcIgnored := satAdd 0xFFFFFFFF q.pfcIgnored 1 }))
  else if quanta = 0 then .next ((s.modNetPort n (fun q => { q with paused := q.paused &&& ~~~(bit8 prio.val) })).txRelease n)
  else .next (s.modNetPort n (fun q => { q with paused := q.paused ||| bit8 prio.val }))

/-- XOFF_REPEAT (R317): 100 µs after the last XOFF the buffer still holds the threshold or more. -/
def execXoffRepeat (port : Fin 64) (prio : Fin 8) (s : State) : Out :=
  let n := port.val
  let x := s.group (n / 4)
  let q := s.netPort n
  if s.portUp n && x.pfcEn.getLsbD prio.val && q.xoffSent.getLsbD prio.val && decide (x.xoff * 4096 ≤ q.held prio.val) then
    .next (s.sendPfc n prio.val 0xFFFF)
  else .next s

/-- PAUSE_EXPIRY (R317): the priority resumes. -/
def execPauseExpiry (port : Fin 64) (prio : Fin 8) (s : State) : Out :=
  .next ((s.modNetPort port.val (fun q => { q with paused := q.paused &&& ~~~(bit8 prio.val) })).txRelease port.val)

/-- The oldest n frames of a priority leave a receive buffer. -/
def dropFrames (prio : Nat) : Nat → List RxFrame → List RxFrame
  | 0, fs => fs
  | _ + 1, [] => []
  | n + 1, f :: fs => if f.prio = prio then dropFrames prio n fs else f :: dropFrames prio (n + 1) fs

/-- XON (R317): the oldest n frames of a priority have left the receive buffer; when it has fallen to the threshold,
an XOFF that was sent is ended by an XON. [log 75: DEDUCED] -/
def execXon (port : Fin 64) (prio : Fin 8) (n : Nat) (s : State) : Out :=
  let s1 := s.modNetPort port.val (fun q => { q with buffer := dropFrames prio.val n q.buffer })
  let q := s1.netPort port.val
  if q.xoffSent.getLsbD prio.val && decide (q.held prio.val ≤ (s.group (port.val / 4)).xon * 4096) then
    .next ((s1.modNetPort port.val (fun q => { q with xoffSent := q.xoffSent &&& ~~~(bit8 prio.val) })).sendPfc port.val prio.val 0)
  else .next s1

/-! ### Link-level retry (R318) -/

/-- REPLAY_REQUEST (R318): the far end asks for a frame; the kept frames from it on are sent again, in their order. -/
def execReplayRequest (port : Fin 64) (start : Nat) (s : State) : Out :=
  let n := port.val
  if !(s.group (n / 4)).llron.getLsbD (n % 4) then .next s
  else .next (((s.netPort n).replay.dropWhile (fun f => f.1 != start)).foldl (fun s f => s.txPut n f.2) s)

/-- LLRFAIL (R318): a retry that has not completed in 20 µs is abandoned. -/
def execLlrfail (port : Fin 64) (s : State) : Out :=
  let n := port.val
  if (s.netPort n).retrying.isSome then
    .next (s.modNetPort n (fun q => { q with retrying := none, llrfail := satAdd 0xFFFFFFFF q.llrfail 1 }))
  else .next s

/-! ### Time (R321 to R323) -/

/-- Whether the servo's offset exceeds a magnitude. -/
def GTime.offBy (g : GTime) (n : Nat) : Bool := decide (n < g.offset.toInt.natAbs)

/-- TIME_SKEW comes into force (R323). -/
def State.skewSet (s : State) : State :=
  if s.gt.skew then s
  else ({ s with gt := { s.gt with skew := true, calm := none } } : State).everyEvent 0x04 0 s.gt.offset 0

/-- The servo takes a measured offset: GTIME is stepped by one of more than 10 µs, and otherwise the firmware changes
INC; one of more than 500 ns sets SKEW (R322, R323). -/
def State.servo (s : State) (offset : Word) (inc : Nat) : State :=
  let g := s.gt
  let g1 : GTime := { g with offset := offset }
  let g2 : GTime := { g1 with calm := if g1.offBy 250 then none else some (g.calm.getD s.ao) }
  let s1 : State := { s with gt := if g2.offBy 10000 then g2.step (g2.t - offset) else { g2 with inc := inc } }
  if g2.offBy 500 then s1.skewSet else s1

/-- A PTP message of the maltster put on a port. -/
def State.ptpSend (s : State) (n : Nat) (m : PtpMsg) : State := s.send (.ptp n m)

/-- A PTP message taken by the maltster's firmware with its timestamp (R322): a Sync gives t2; its Follow_Up gives t1 and
is answered by a Delay_Req sent at t3; the Delay_Resp gives t4 and with it the offset
((t2 - t1) - (t4 - t3)) / 2 from the master; a Delay_Req is answered by a Delay_Resp with its receive time.
[log 137: DEDUCED] -/
def State.ptpTake (s : State) (n : Nat) (m : PtpMsg) (t : Word) (inc : Nat) : State :=
  let g := s.gt
  match m.kind with
  | .sync => { s with gt := { g with syncSeq := some m.seq, t1 := none, t2 := some t, t3 := none, syncAt := s.ao } }
  | .followUp =>
    if g.syncSeq ≠ some m.seq then s
    else
      let d := s.stampNow
      let r := (g.reqSeq + 1) % 65536
      ({ d.2 with gt := { d.2.gt with t1 := some m.time, t3 := some d.1, reqSeq := r } } : State).ptpSend n
        { kind := .delayReq, seq := r }
  | .delayReq => s.ptpSend n { kind := .delayResp, seq := m.seq, time := t }
  | .delayResp =>
    match g.t1, g.t2, g.t3 with
    | some t1, some t2, some t3 =>
      if m.seq ≠ g.reqSeq then s
      else
        ({ s with gt := { g with t1 := none, t2 := none, t3 := none } } : State).servo
          (BitVec.ofInt 64 (((t2 - t1) - (m.time - t3)).toInt / 2)) inc
    | _, _, _ => s

/-- PTP_MESSAGE (R322): a message that a port has received, the n-th of those not yet taken, reaches the maltster's servo,
which may set INC; `lock`: the servo is locked to a master. -/
def execPtpMessage (port : Fin 64) (n : Nat) (inc : BitVec 40) (lock : Bool) (s : State) : Out :=
  if !incLegal inc.toNat then .refused (.illFormed "PTP_MESSAGE")
  else match (s.gt.rx.filter (fun e => e.1 == port.val))[n]? with
  | none => .next s
  | some e =>
    .next (({ s with gt := { s.gt with sync := lock, rx := s.gt.rx.erase e } } : State).ptpTake port.val e.2.1 e.2.2 inc.toNat)

/-- GTIME after one AO cycle (R321). -/
def GTime.tick (g : GTime) : GTime :=
  if g.set_ then
    let n := g.frac + g.inc
    { g with t := g.t + BitVec.ofNat 64 (n / 2 ^ 32), frac := n % 2 ^ 32 }
  else g

/-- The cores of a partition that run a task. -/
def State.runningCores (s : State) (p : Nat) : Nat :=
  (s.cores.filter (fun e => s.partOfCore e.1 == some p && e.2.run == .running)).length

/-- GTIME_TICK (R321, R387): one AO cycle of 10 ns. [log 77: DEDUCED] -/
def execGtimeTick (s : State) : Out :=
  if s.boot.st != .ready then .next s
  else
    let s1 : State := { s with ao := s.ao + 10, gt := s.gt.tick }
    .next (partList.foldl (fun s p =>
      match (s.part p).launch with
      | none => s
      | some l => s.modAcct p l.src (fun a => { a with busy := satAdd maxU64 a.busy (10 * s.runningCores p) })) s1)

/-- TIME_SKEW (R323): the servo's offset, which the event carries, exceeds 500 ns, or no Sync has arrived for 4 s. -/
def execTimeSkew (offset : BitVec 64) (s : State) : Out :=
  if offset == s.gt.offset && (s.gt.offBy 500 || decide (s.gt.syncAt + 4000000000 ≤ s.ao)) then .next s.skewSet else .next s

/-- TIME_SKEW_CLEAR (R323): the offset, which the event carries, has stayed within 250 ns for 1 s. -/
def execTimeSkewClear (offset : BitVec 64) (s : State) : Out :=
  if offset == s.gt.offset && s.gt.skew && (match s.gt.calm with | some t => decide (t + 1000000000 ≤ s.ao) | none => false) then
    .next (({ s with gt := { s.gt with skew := false } } : State).everyEvent 0x05 0 s.gt.offset 0)
  else .next s

end Sys2Proof.Machine
end

