-- ==== Sys2Proof/Machine/Queries.lean ====
section
/-!
DEFINITION. Commands that only report: QUERY (R359), TELEMETRY (R388, R425) and ERRLOG_READ (R359, R400).
-/
namespace Sys2Proof.Machine
open Sys2Proof

/-! ### QUERY -/

/-- A QUERY of one kind: what it answers in C2 and C3. -/
def State.query (s : State) (src : CmdSrc) (tag what : Nat) (f : Cmd → Word × Word) : State :=
  match s.cmdFor src tag 0x01 with
  | none => s
  | some c =>
    if field (c.p 1) 7 0 ≠ what then s
    else s.finish c { c2 := (f c).1, c3 := (f c).2 }

/-- QUERY_IDENTITY (R1, R359). -/
def execQueryIdentity (src : CmdSrc) (tag : Nat) (s : State) : Out :=
  .next (s.query src tag 0 (fun _ =>
    (leWord [0x44, 0x58, 0x53, 0x2D, 0x37, 0x36, 0x38, 0x41],
     place 0xA0 8 0 ||| place s.boot.compat 8 8 ||| place (s.group 0).node 20 16)))

/-- The schedule ID of the launch in progress, or 0 (R359). -/
def Part.runningId (q : Part) : Nat :=
  match q.launch with
  | some l => l.sched
  | none => 0

/-- QUERY_PARTITION (R309, R359). -/
def execQueryPartition (src : CmdSrc) (tag : Nat) (s : State) : Out :=
  .next (s.query src tag 1 (fun c =>
    let q := s.part c.partOr
    (place q.epoch 16 0 ||| place (s.livePcs q.stackIds) 10 16 ||| place (64 * q.stackIds.length) 10 26
       ||| place q.scheds.length 8 36 ||| place (q.clusters.length - q.live.length) 8 44,
     place q.runningId 32 0)))

/-- The state of a tag (R359): not outstanding, queued, running, or stopping. [log 86: DEDUCED] -/
def State.tagState (s : State) (src : CmdSrc) (t : Nat) : Nat × Nat :=
  match (s.tagSpace src).find? (fun c => c.tag == t) with
  | none => (0, 0)
  | some c =>
    let q := s.part (c.part.getD 4)
    let st : Nat :=
      if c.decided then 2
      else if c.op = 0x30 ∨ c.op = 0x52 then
        (match q.launch with
         | some l =>
           if l.src == c.src && l.tag == t then (match q.abort with | some a => if a.hw then 2 else 3 | none => 2)
           else if q.suspended.any (fun x => x.launch.src == c.src && x.launch.tag == t) then 2 else 1
         | none => if q.suspended.any (fun x => x.launch.src == c.src && x.launch.tag == t) then 2 else 1)
      else if c.started then 2 else 1
    (st, c.op)

/-- QUERY_TAG (R359). -/
def execQueryTag (src : CmdSrc) (tag : Nat) (s : State) : Out :=
  .next (s.query src tag 2 (fun c =>
    let r := s.tagState src (field (c.p 1) 31 16)
    (place r.1 8 0 ||| place r.2 8 8, 0)))

/-- QUERY_MAPOUTS (R359). [log 86: DEDUCED] -/
def execQueryMapouts (src : CmdSrc) (tag : Nat) (s : State) : Out :=
  .next (s.query src tag 3 (fun c =>
    (place (s.part c.partOr).absent.toNat 48 0,
     (List.range 12).foldl (fun w n => w ||| flagAt ((s.hbm n).mapout != 0) n) 0
       ||| (List.range 16).foldl (fun w g => w ||| flagAt ((s.group g).failed != 0) (12 + g)) 0)))

/-! ### TELEMETRY -/

/-- Bytes that a command puts at its destination P2, in host memory when P4 bit 0 is set: the reason where that
fails. Nothing to write needs no access. -/
def State.cmdPut (s : State) (c : Cmd) (bs : List Byte) : Option Nat × State :=
  if bs.isEmpty then (none, s) else s.cmdWrite c.src c.part (bit (c.p 4) 0) (c.p 2).toNat bs

/-- A command whose write failed (R132, R364): with cause WINDOW and the reason where a window refused it. -/
def State.putFailed (s : State) (c : Cmd) (reason : Nat) : State :=
  s.finish c { status := stFault, cause := if reason = 0 then 0 else 0x0E, sub := reason }

/-- As many whole records as fit, the header first. [log 87: DEDUCED] -/
def wholeRecords (room : Nat) : List (List Byte) → List Byte
  | [] => []
  | r :: rs => if r.length ≤ room then r ++ wholeRecords (room - r.length) rs else []

def wordBytes (w : Word) : List Byte := leBytes 8 w.toNat

/-- The header of R388 and R425. -/
def State.telHeader (s : State) (n : Nat) : List Byte := wordBytes (place n 8 0) ++ wordBytes (BitVec.ofNat 64 s.ao)

/-- Whether a command sees the records of a cluster (R352, R425): one that acts on a partition sees those of its
clusters, and one of the management path with PV = 0 every record. [log 87: DEDUCED] -/
def State.seesCluster (s : State) (part : Option Nat) (c : Nat) : Bool :=
  match part with
  | none => true
  | some p => s.partOfCluster c == some p

/-- A TELEMETRY of one record set. [log 87: DEDUCED] -/
def State.telemetry (s : State) (src : CmdSrc) (tag set_ : Nat) (rs : Cmd → List (List Byte)) (after : Cmd → Nat → State → State) :
    State :=
  match s.cmdFor src tag 0x70 with
  | none => s
  | some c =>
    if field (c.p 1) 7 0 ≠ set_ then s
    else
      let bs := wholeRecords (field (c.p 3) 15 0) (rs c)
      match s.cmdPut c bs with
      | (some r, s') => s'.putFailed c r
      | (none, s') => (after c bs.length s').finish c { c2 := place bs.length 16 0 }

/-- TELEMETRY_TEMPERATURES (R425). -/
def execTelemetryTemperatures (src : CmdSrc) (tag : Nat) (s : State) : Out :=
  .next (s.telemetry src tag 0x01 (fun cmd =>
    s.telHeader 1
      :: (List.range 48).map (fun c => wordBytes (if s.seesCluster cmd.part c then s.clk.tempWord c else 0))
      ++ (List.range 12).map (fun n => leBytes 2 (mget 0 s.clk.hbmTemps n))) (fun _ _ s => s))

/-- TELEMETRY_POWER (R425). -/
def execTelemetryPower (src : CmdSrc) (tag : Nat) (s : State) : Out :=
  .next (s.telemetry src tag 0x02 (fun _ =>
    s.telHeader 2 :: wordBytes s.clk.measWord :: (List.range 9).map (fun n => wordBytes (s.clk.railWord n))) (fun _ _ s => s))

/-- TELEMETRY_CLOCKS (R425). -/
def execTelemetryClocks (src : CmdSrc) (tag : Nat) (s : State) : Out :=
  .next (s.telemetry src tag 0x03 (fun cmd =>
    s.telHeader 3
      :: (List.range 48).map (fun c => wordBytes (if s.seesCluster cmd.part c then (s.clk.div c).word else 0))) (fun _ _ s => s))

/-- A queue pair's record (R388). -/
def Acct.record (a : Acct) (q : Nat) : List Byte :=
  let hist := (List.range 8).map (fun i => place (mget 0 a.hist (2 * i)) 32 0 ||| place (mget 0 a.hist (2 * i + 1)) 32 32)
  ([ place q 6 0 ||| place a.launches 32 32, BitVec.ofNat 64 a.waitSum, BitVec.ofNat 64 a.waitMax, place a.preempts 32 0,
     BitVec.ofNat 64 a.displaced, BitVec.ofNat 64 a.busy, 0, 0 ] ++ hist).flatMap wordBytes

/-- The header and the records of a partition's queue pairs. -/
def State.acctRecords (s : State) (p : Nat) : List (List Byte) :=
  (wordBytes (place p 2 0) ++ wordBytes (BitVec.ofNat 64 s.ao))
    :: (List.range 64).map (fun q => (mget {} (s.part p).acct q).record q)

/-- TELEMETRY_ACCOUNTING (R388). -/
def execTelemetryAccounting (src : CmdSrc) (tag : Nat) (s : State) : Out :=
  .next (s.telemetry src tag 0x20 (fun c => s.acctRecords c.partOr) (fun _ _ s => s))

/-- TELEMETRY_ACCOUNTING_CLEAR (R388): the counters that were copied are cleared. [log 87: DEDUCED] -/
def execTelemetryAccountingClear (src : CmdSrc) (tag : Nat) (s : State) : Out :=
  .next (s.telemetry src tag 0x21 (fun c => s.acctRecords c.partOr) (fun c n s =>
    s.modPart c.partOr (fun q => { q with acct := q.acct.filter (fun e => decide ((n - 16) / 128 ≤ e.1)) })))

/-! ### ERRLOG_READ -/

/-- The records a command may see from an index on (R359, R400). [log 88: DEDUCED] -/
def State.logFrom (s : State) (src : CmdSrc) (first : Nat) : List (Nat × List Word) :=
  let mine (ws : List Word) : Bool := match src with
    | .mgmt => true
    | .qp h _ => match s.partOfHost h.val with
      | some p => bit (ws.getD 0 0) (60 + p)
      | none => false
  s.log.records.filter (fun e => decide (max first s.log.oldest ≤ e.1) && mine e.2)

/-- ERRLOG_READ (R359, R400): C3 is the index with which the next read goes on. [log 81: DESIGN CHOICE; log 88: DEDUCED] -/
def execErrlogRead (src : CmdSrc) (tag : Nat) (s : State) : Out :=
  match s.cmdFor src tag 0x73 with
  | none => .next s
  | some c =>
    let all := s.logFrom src (field (c.p 1) 31 0)
    let out := all.take (field (c.p 3) 15 0)
    let next : Nat :=
      if out.length = all.length then s.log.next else
        match out.getLast? with | some e => e.1 + 1 | none => max (field (c.p 1) 31 0) s.log.oldest
    match s.cmdPut c (out.flatMap (fun e => e.2.flatMap wordBytes)) with
    | (some r, s') => .next (s'.putFailed c r)
    | (none, s') => .next (s'.finish c { c2 := place out.length 16 0, c3 := place next 32 0 })

end Sys2Proof.Machine
end

