-- ==== Sys2Proof/Machine/Partitions.lean ====
section
/-!
DEFINITION. Partitions made and destroyed (R305, R312, R371 to R373), the resets of host ports (R371, R442), and
SELFTEST and MAPOUT (R359, R398).
-/
namespace Sys2Proof.Machine
open Sys2Proof

/-! ### What a partition's memories and state are at its creation and after its teardown -/

/-- Whether a mailbox channel has an end in a partition. -/
def State.chanIn (s : State) (p : Nat) (c : MbChan) : Bool :=
  let at_ (id : Nat) : Bool := match masterOf id with
    | some (.host h) => (s.part p).valid && ((s.part p).hostPort == h || ((s.part p).paired && (s.part p).hostPort + 1 == h))
    | some m => s.partOfMaster m == some p
    | none => false
  c.v && (at_ c.snd || at_ c.rcv)

/-- Device memory of a partition's stacks, zero and without poison (R305). -/
def State.zeroStacks (s : State) (ns : List Nat) : State :=
  { s with mem := s.mem.filter (fun e => !(decide (e.1 < memEnd) && ns.contains (e.1 / sliceBytes))),
           poison := s.poison.filter (fun b => !ns.contains (b * 64 / sliceBytes)) }

/-- The memories and the state of a partition's cores and clusters as at reset (R124, R140, R215, R228, R242, R305,
R442). [log 89: DEDUCED] -/
def State.wipePart (s : State) (p : Nat) : State :=
  let cs := (s.part p).clusters
  let inCs (c : Nat) : Bool := cs.contains c
  let s1 := s.zeroStacks (s.part p).stackIds
  let mem := s1.mem.filter (fun e => match placeOf e.1 with
    | .tun c _ => !inCs c
    | .spad k _ => !inCs (clusterOf k)
    | _ => true)
  let clusters : List (Nat × Cluster) := s1.clusters.map (fun e =>
    if inCs e.1 then (e.1, ({ absent := e.2.absent } : Cluster)) else e)
  let chans : List (Nat × MbChan) := s1.mbx.chans.map (fun e =>
    if s.chanIn p e.2 then (e.1, { e.2 with notices := [], seq := 0 }) else e)
  let hbms : List (Nat × Hbm) := s1.hbms.map (fun e =>
    if (s.part p).hasStack e.1 then (e.1, { e.2 with zbusy := false }) else e)
  { s1 with
    mem := mem, clusters := clusters, hbms := hbms, mbx := { s1.mbx with chans := chans },
    cores := s1.cores.filter (fun e => !(decide (e.1 < 768) && inCs (clusterOf e.1))),
    flight := s1.flight.filter (fun m => !targetIn m.target inCs) }

/-- ZBUSY of the stacks and tuns that are being zeroed. -/
def State.zeroingBegins (s : State) (p : Nat) : State :=
  let s1 := (s.part p).stackIds.foldl (fun s n => s.modHbm n (fun h => { h with zbusy := true })) s
  (s.part p).live.foldl (fun s c => s.modCluster c (fun x => { x with tun := { x.tun with zbusy := true } })) s1

/-- The command that a partition's creation or teardown is for. -/
def State.partCmd (s : State) (op : Nat) (num : Cmd → Nat) (p : Nat) : Option Cmd :=
  s.cmds.find? (fun c => c.op == op && c.started && !c.decided && num c == p)

def Cmd.createNum (c : Cmd) : Nat := field (c.p 1) 47 46
def Cmd.destroyNum (c : Cmd) : Nat := field (c.p 1) 1 0

/-! ### PART_CREATE -/

/-- The partition that a PART_CREATE would make. -/
def Cmd.newPart (c : Cmd) (s : State) : Part :=
  let q : Part := { defn := field (c.p 1) 45 0, valid := true, st := .creating }
  { q with absent := BitVec.ofNat 48 (((q.clusters.filter (fun c => (s.cluster c).absent)).map (fun c => 2 ^ c)).sum) }

/-- Check 1 of R372. -/
def State.createReserved (s : State) (q : Part) : Bool :=
  q.defn % 4096 == 0 || q.defn / 4096 % 4096 == 0 || decide (4 < q.mspare) || q.paired != s.pairedPort q.hostPort
    || (q.paired && q.hostPort % 2 == 1)

/-- Check 2 of R372: a number, a resource or a host port in use. -/
def State.createBusy (s : State) (n : Nat) (q : Part) : Bool :=
  let ports (x : Part) : List Nat := x.hostPort :: (if x.paired then [x.hostPort + 1] else [])
  (s.part n).valid || partList.any (fun p =>
    let x := s.part p
    x.valid && (x.defn % 2 ^ 40 &&& q.defn % 2 ^ 40 != 0 || (ports x).any (fun h => (ports q).contains h)))

/-- PART_CREATE (R312, R313, R372, R373). -/
def execPartCreate (src : CmdSrc) (tag : Nat) (s : State) : Out :=
  match s.cmdFor src tag 0x60 with
  | none => .next s
  | some c =>
    let q := c.newPart s
    if s.createReserved q then .next (s.refuse c stRejReserved)
    else if s.createBusy c.createNum q then .next (s.refuse c stRejBusy)
    else if !s.absorbs q then .next (s.refuse c stRejOvercommit)
    else
      -- the port groups that it names are set to MODE 0b00 (R313)
      let s1 := ((List.range 16).filter q.hasPort).foldl (fun s g => s.groupMode g 0) s
      .next (((s1.setPart c.createNum (s.withMoves q)).zeroingBegins c.createNum).startCmd c)

/-- A created partition takes up its work (R373): its memories are zero, its queue pairs are disabled, its host port
is bound, and the command is answered. -/
def State.createDone (s : State) (p : Nat) : State :=
  let s1 := s.wipePart p
  let s2 := s1.modHost (s1.part p).hostPort (fun x => { x with qps := x.qps.map (fun e => (e.1, { e.2 with en := false, held := [] })) })
  let s3 := s2.modPart p (fun q => { q with st := .idle, epoch := 0, resv := [], qclass := [], staged := [], acct := [] })
  match s3.partCmd 0x60 Cmd.createNum p with
  | some c => s3.finish c {}
  | none => s3

/-! ### PART_DESTROY -/

/-- A partition's teardown begins (R371): its outstanding commands fail, and its host port becomes unbound. [log 89: DEDUCED] -/
def State.destroyBegin (s : State) (p : Nat) : State :=
  (((s.failPart p).modPart p (fun q => { q with st := .destroying, destroy := none, handling := [], acted := [] })).zeroingBegins
    p).hostsDrain

/-- Whether a launch of a partition runs. -/
def Part.launching (q : Part) : Bool := q.launch.isSome || q.st == .switching

/-- PART_DESTROY (R371). Without FORCE it waits while a launch runs; carried out again once none runs, it goes on. With
FORCE it goes on at once, and a command that waits is answered with it. [log 83: DEDUCED; log 89: DEDUCED] -/
def execPartDestroy (src : CmdSrc) (tag : Nat) (s : State) : Out :=
  match s.cmdOf src tag with
  | none => .next s
  | some c =>
    let p := c.destroyNum
    let q := s.part p
    if c.op ≠ 0x61 then .next s
    else if c.started then
      (if q.destroy == some (src, tag) && !q.launching then .next (s.destroyBegin p) else .next s)
    else if !s.mayStart c then .next s
    else if !q.valid then .next (s.refuse c stRejPermission)
    else if !q.bound || (q.destroy.isSome && !bit (c.p 1) 2) then .next (s.refuse c stRejBusy)
    else if bit (c.p 1) 2 || !q.launching then .next ((s.startCmd c).destroyBegin p)
    else .next ((s.modPart p (fun q => { q with destroy := some (src, tag) })).startCmd c)

/-- PART_DESTROY_TIMEOUT (R371): a launch still runs 10 s after a PART_DESTROY without FORCE. [log 3: DESIGN CHOICE] -/
def execPartDestroyTimeout (p : PartId) (s : State) : Out :=
  let q := s.part p.val
  match q.destroy with
  | none => .next s
  | some (src, tag) =>
    if !q.launching then .next s
    else
      let s1 := s.modPart p.val (fun q => { q with destroy := none })
      match s1.cmdOf src tag with
      | some c => .next (s1.refuse c stRejBusy)
      | none => .next s1

/-- A partition is gone (R371): its memories are zero, and its port groups are held at MODE 0b00 (R313). -/
def State.destroyDone (s : State) (p : Nat) : State :=
  let q := s.part p
  let gs := (List.range 16).filter q.hasPort
  let s1 := gs.foldl (fun s g => (List.range (modePorts (s.group g).mode)).foldl (fun s i => s.portOff g i) s) s
  let s2 := gs.foldl (fun s g => s.modGroup g (fun x => ({ failed := x.failed, node := x.node } : NetGroup))) s1
  let s3 := (s2.wipePart p).setPart p {}
  (s3.cmds.filter (fun c => c.op == 0x61 && c.started && !c.decided && c.destroyNum == p)).foldl (fun s c =>
    match s.cmdOf c.src c.tag with
    | some c => s.finish c {}
    | none => s) s3

/-- ZEROING_COMPLETE (R305, R371, R373, R440): the zeroing of a partition that is made or destroyed ends, or that of
the boot. -/
def execZeroingComplete (z : Option PartId) (s : State) : Out :=
  match z with
  | none =>
    if s.boot.st == .verified && s.boot.training == 0 then
      let s1 := s.zeroStacks (List.range 12)
      let hbms : List (Nat × Hbm) := s1.hbms.map (fun e => (e.1, { e.2 with zbusy := false }))
      .next { s1 with hbms := hbms, boot := { s1.boot with st := .zeroed } }
    else .next s
  | some p =>
    match (s.part p.val).st with
    | .creating => .next (s.createDone p.val)
    | .destroying => .next (s.destroyDone p.val)
    | _ => .next s

/-! ### Resets of a host port -/

/-- What an FLR of a port does (R371): the commands of its partition fail, and its queue pairs and registers return
to their reset values. The event number goes on. [log 90: DEDUCED] -/
def State.flr (s : State) (h : Nat) : State :=
  let s1 := match s.partOfHost h with
    | some p => s.failPart p
    | none => s
  let s2 := (List.range 64).foldl (fun s q => s.qpDiscard h q) s1
  s2.modHost h (fun x => ({ link := x.link, perst := x.perst, evseq := x.evseq } : HostS))

/-- FLR (R371). -/
def execFlr (h : HostPort) (s : State) : Out :=
  if s.hostLive h.val then .next (s.flr h.val) else .next s

/-- PERST (R371, R440, R442): PERST_N goes low, or the link carries a hot reset, after which it trains again. [log 90: DEDUCED] -/
def execPerst (h : HostPort) (hot : Bool) (s : State) : Out :=
  if hot then
    (if (s.host h.val).link == .up then
      .next (((s.flr h.val).modHost h.val (fun x => { x with link := .down })).trainHost h.val)
     else .next s)
  else
    let s1 := if s.boot.st == .ready then s.flr h.val else s
    .next (s1.modHost h.val (fun x => { x with link := .down, perst := true }))

/-! ### SELFTEST and MAPOUT -/

/-- The unit that a SELFTEST or MAPOUT names: its kind and index. -/
def Cmd.unit (c : Cmd) : Nat × Nat :=
  let kind := field (c.p 1) 2 0
  let n := field (c.p 1) 31 16
  (kind, if kind = 0 then 5 * n + field (c.p 1) 34 32 else n)

/-- Whether a command may act on its unit (R359): the unit exists and lies in the partition, and no launch runs. [log 91: DEDUCED] -/
def State.unitRefusal (s : State) (c : Cmd) : Option Nat :=
  let u := c.unit
  if unitCount u.1 ≤ u.2 || s.unitPart u.1 u.2 != c.part || c.part.isNone then some stRejPermission
  else if (s.part c.partOr).launching then some stRejBusy
  else none

/-- The detection that a SELFTEST or MAPOUT record shows. -/
def Cmd.hostDetection (c : Cmd) : Detection := { source := 0x13, ukind := c.unit.1, unit := c.unit.2, master := maltsterId, addr := 0 }

/-- SELFTEST (R398): the kiln test of the unit takes its turn in the partition's queue. -/
def execSelftest (src : CmdSrc) (tag : Nat) (s : State) : Out :=
  match s.cmdFor src tag 0x71 with
  | none => .next s
  | some c =>
    match s.unitRefusal c with
    | some st => .next (s.refuse c st)
    | none =>
      let r := (s.startCmd c).recordOpen c.hostDetection (optList c.part)
      let h : Handling := { det := c.hostDetection, record := r.1, at_ := s.ao, cmd := some (src, tag) }
      .next (r.2.modHandling c.part (fun hs => hs ++ [h]))

/-- MAPOUT (R398): the action of R391 for LASTING, or a lane cleared. While an error of the partition is handled, it
is refused. [log 91: DEDUCED] -/
def execMapout (src : CmdSrc) (tag : Nat) (s : State) : Out :=
  match s.cmdFor src tag 0x72 with
  | none => .next s
  | some c =>
    match s.unitRefusal c with
    | some st => .next (s.refuse c st)
    | none =>
      let u := c.unit
      if !(s.handlingOf c.part).isEmpty then .next (s.refuse c stRejBusy)
      else
        let r := (s.startCmd c).recordOpen c.hostDetection (optList c.part)
        let h : Handling := { det := c.hostDetection, record := r.1, at_ := s.ao, cmd := some (src, tag) }
        let done (s : State) : State := match s.cmdOf src tag with | some c => s.finish c {} | none => s
        if bit (c.p 1) 48 then
          let s1 := (r.2.laneMark u.2 false).laneTrain u.2
          .next (done (s1.recordClose h .corrected actNone false (optList c.part)))
        else if s.unitOut u.1 u.2 then .next (done (r.2.recordClose h .corrected actNone false (optList c.part)))
        else if u.1 = 2 then
          let s1 := (r.2.laneMark u.2 true).laneTrain u.2
          .next (done (s1.recordClose { h with action := actLane } .corrected actLane false (optList c.part)))
        else .next ((r.2.modHandling c.part (fun hs => hs ++ [h])).lastingAction c.part h)

end Sys2Proof.Machine
end

