-- ==== Sys2Proof/Machine/Pldm.lean ====
section
/-!
DEFINITION. Management over MCTP: Set Endpoint ID, vendor-defined messages (R428), PLDM for Platform Monitoring and
Control (R427), and PLDM for Firmware Update (R444). Command and completion codes are those of the DMTF's
specifications, which the manual names.
-/
namespace Sys2Proof.Machine
open Sys2Proof

/-- Whether an MCTP binding is served (R428, R434, R439): the firmware serves SMBus, and VDM on a port whose board
configuration enables it; the boot ROM, in RECOVERY mode or after a boot that stopped, only SMBus. [log 119: DEDUCED] -/
def State.mctpServes (s : State) (b : Binding) : Bool :=
  match s.boot.st, b with
  | .verified, .smbus | .zeroed, .smbus | .ready, .smbus | .recovery, .smbus | .stopped, .smbus => true
  | .verified, .vdm h | .zeroed, .vdm h | .ready, .vdm h =>
    s.boot.vdm.getLsbD h.val && (s.host h.val).link == .up && !s.upperPort h.val
  | _, _ => false

/-- SET_ENDPOINT_ID (R428). The EIDs 0x00 and 0xFF are no endpoint's (DSP0236): ERROR_INVALID_DATA. [log 117: PRESUMED] -/
def execSetEndpointId (b : Binding) (eid : BitVec 8) (s : State) : Out :=
  if !s.mctpServes b then .next s
  else if eid = 0 ∨ eid = 0xFF then .next (s.send (.control 0x01 0x02 []))
  else .next (({ s with boot := { s.boot with eid := eid.toNat } } : State).send (.control 0x01 0 [0, eid.zeroExtend 64, 0]))

/-- MCTP_VENDOR_MESSAGE (R352, R428): kind 0x01 carries a command packet of the management path. -/
def execMctpVendorMessage (b : Binding) (vendor : BitVec 16) (kind : BitVec 8) (packet : List Word) (s : State) : Out :=
  if !s.mctpServes b || s.boot.st != .ready || vendor.toNat != s.boot.pciIds % 2 ^ 16 || kind != 1 || packet.length != 8 then
    .next s
  else .next (s.acceptPacket .mgmt packet)

/-! ### PLDM Type 2 (R427) -/

/-- A response, where the binding is served. [log 117: PRESUMED] -/
def State.pldmReply (s : State) (b : Binding) (type cmd code : Nat) (data : List Word) : State :=
  if s.mctpServes b then s.send (.pldm type cmd code data) else s

/-- GETTID. -/
def execGettid (b : Binding) (s : State) : Out := .next (s.pldmReply b 0 0x02 0 [BitVec.ofNat 64 s.boot.tid])

/-- A row of the repository: an ID range, its kind (0 numeric sensor, 1 state sensor, 2 numeric effecter). -/
structure PdrRange where
  first : Nat
  count : Nat
  kind : Nat
  deriving DecidableEq, Repr

/-- The entries of the repository, in the order of R427. -/
def pdrRanges : List PdrRange :=
  [⟨0x0001, 192, 0⟩, ⟨0x0101, 12, 0⟩, ⟨0x0201, 9, 0⟩, ⟨0x0211, 9, 0⟩, ⟨0x0221, 1, 0⟩, ⟨0x0301, 48, 0⟩, ⟨0x0401, 1, 1⟩,
   ⟨0x0402, 2, 1⟩, ⟨0x0501, 1, 2⟩]

/-- Every entry: its ID and kind. [log 117: PRESUMED] -/
def pdrList : List (Nat × Nat) := pdrRanges.flatMap (fun r => (List.range r.count).map (fun i => (r.first + i, r.kind)))

/-- The thresholds of an entry: upper warning, critical and fatal, where R427 gives them. -/
def State.thresholds (s : State) (id : Nat) : List Word :=
  if 1 ≤ id ∧ id ≤ 0xC0 then [BitVec.ofNat 64 s.clk.alertT, 105, 115]
  else if id = 0x0221 then [BitVec.ofNat 64 (s.clk.steps * 25)]
  else []

/-- GETPDRREPOSITORYINFO: the repository is available, and how many records it holds. -/
def execGetpdrrepositoryinfo (b : Binding) (s : State) : Out :=
  .next (s.pldmReply b 2 0x50 0 [0, BitVec.ofNat 64 pdrList.length])

/-- GETPDR: the record of a handle, counted from 1, with 0 for the first: the next handle, its kind, ID and thresholds.
An unknown handle is INVALID_RECORD_HANDLE. -/
def execGetpdr (b : Binding) (handle : BitVec 32) (s : State) : Out :=
  let n := handle.toNat - 1
  match pdrList[n]? with
  | none => .next (s.pldmReply b 2 0x51 0x82 [])
  | some e =>
    let nextH : Nat := if n + 1 < pdrList.length then n + 2 else 0
    .next (s.pldmReply b 2 0x51 0 ([BitVec.ofNat 64 nextH, BitVec.ofNat 64 e.2, BitVec.ofNat 64 e.1] ++ s.thresholds e.1))

/-- EFF of a cluster as a frequency in MHz; 0 when mapped out (R416, R427). -/
def State.freqOf (s : State) (c : Nat) : Nat := if (s.cluster c).absent then 0 else 1800 / ((s.clk.div c).eff + 1)

/-- The reading of a numeric sensor, in the units of its register: 1/16 °C, mV, 0.1 A, 0.1 W, MHz. [log 117: PRESUMED] -/
def State.sensorReading (s : State) (id : Nat) : Option Word :=
  let rail (n : Nat) : Nat × Nat × Nat := mget (0, 0, 0) s.clk.rails n
  let signed (t : Nat) : Word := BitVec.ofInt 64 (tempOf t)
  if 0x0001 ≤ id ∧ id ≤ 0x00C0 then some (signed (mget 0 s.clk.temps (id - 1)))
  else if 0x0101 ≤ id ∧ id ≤ 0x010C then some (signed (mget 0 s.clk.hbmTemps (id - 0x0101)))
  else if 0x0201 ≤ id ∧ id ≤ 0x0209 then some (BitVec.ofNat 64 (rail (id - 0x0201)).1)
  else if 0x0211 ≤ id ∧ id ≤ 0x0219 then some (BitVec.ofNat 64 (rail (id - 0x0211)).2.1)
  else if id = 0x0221 then some (BitVec.ofNat 64 s.clk.p)
  else if 0x0301 ≤ id ∧ id ≤ 0x0330 then some (BitVec.ofNat 64 (s.freqOf (id - 0x0301)))
  else none

/-- The present state of a numeric sensor against its thresholds: 1 normal, 8 upper warning, 9 upper critical, 10 upper
fatal; 0 unknown where the limits are not in the manual. -/
def State.sensorState (s : State) (id : Nat) : Nat :=
  if 0x0001 ≤ id ∧ id ≤ 0x00C0 then
    let t := mget 0 s.clk.temps (id - 1)
    if atLeast t 115 then 10 else if atLeast t 105 then 9 else if atLeast t s.clk.alertT then 8 else 1
  else if id = 0x0221 then (if s.clk.steps * 250 ≤ s.clk.p then 8 else 1)
  else if 0x0301 ≤ id ∧ id ≤ 0x0330 then 1
  else 0

/-- GETSENSORREADING: operational state (enabled), present state and reading; an unknown ID is INVALID_SENSOR_ID. -/
def execGetsensorreading (b : Binding) (id : BitVec 16) (s : State) : Out :=
  match s.sensorReading id.toNat with
  | none => .next (s.pldmReply b 2 0x11 0x80 [])
  | some v => .next (s.pldmReply b 2 0x11 0 [0, BitVec.ofNat 64 (s.sensorState id.toNat), v])

/-- State sensor 0x0401: 0 READY, 1 FAULT, 2 NOT_READY (R427, R439). -/
def State.deviceState (s : State) : Nat := if s.boot.fault then 1 else if s.boot.ready then 0 else 2

/-- GETSTATESENSORREADINGS: operational state and present state. -/
def execGetstatesensorreadings (b : Binding) (id : BitVec 16) (s : State) : Out :=
  match id.toNat with
  | 0x0401 => .next (s.pldmReply b 2 0x21 0 [0, BitVec.ofNat 64 s.deviceState])
  | 0x0402 => .next (s.pldmReply b 2 0x21 0 [0, flagAt s.clk.throttled 0])
  | 0x0403 => .next (s.pldmReply b 2 0x21 0 [0, flagAt (s.clk.level != 0) 0])
  | _ => .next (s.pldmReply b 2 0x21 0x80 [])

/-- SETNUMERICEFFECTERVALUE (R420, R427): the power cap in W; a value outside R420 is ERROR_INVALID_DATA. -/
def execSetnumericeffectervalue (b : Binding) (id : BitVec 16) (v : BitVec 32) (s : State) : Out :=
  if !s.mctpServes b then .next s
  else if id ≠ 0x0501 then .next (s.pldmReply b 2 0x31 0x80 [])
  else if v.toNat % 25 ≠ 0 ∨ !capLegal (v.toNat / 25) then .next (s.pldmReply b 2 0x31 0x02 [])
  else .next (({ s with clk := { s.clk with steps := v.toNat / 25 } } : State).pldmReply b 2 0x31 0 [])

/-- GETNUMERICEFFECTERVALUE: operational state, pending value and present value. -/
def execGetnumericeffectervalue (b : Binding) (id : BitVec 16) (s : State) : Out :=
  if id ≠ 0x0501 then .next (s.pldmReply b 2 0x32 0x80 [])
  else .next (s.pldmReply b 2 0x32 0 [0, BitVec.ofNat 64 (s.clk.steps * 25), BitVec.ofNat 64 (s.clk.steps * 25)])

/-- PLATFORMEVENTMESSAGE: a poll for platform events; which events the device holds is open. [log 118: DESIGN CHOICE] -/
def execPlatformeventmessage (b : Binding) (s : State) : Out :=
  let d := s.drawFree
  .next (if s.mctpServes b then d.2.pldmReply b 2 0x0B 0 [BitVec.ofNat 64 s.boot.tid, d.1] else s)

/-! ### PLDM Type 5 (R444) -/

/-- QUERYDEVICEIDENTIFIERS: which descriptors the device returns is open. [log 118: DESIGN CHOICE] -/
def execQuerydeviceidentifiers (b : Binding) (s : State) : Out :=
  let d := s.drawFree
  .next (if s.mctpServes b then d.2.pldmReply b 5 0x01 0 [d.1] else s)

/-- "BOOTFAIL-0x" and the FAIL digit (R439), one character a word. -/
def bootFailString (fail : Nat) : List Word :=
  [0x42, 0x4F, 0x4F, 0x54, 0x46, 0x41, 0x49, 0x4C, 0x2D, 0x30, 0x78, BitVec.ofNat 64 (0x30 + fail)]

/-- GETFIRMWAREPARAMETERS: the component's classification and identifier, then the active version string; of a
running image that string is open. [log 118: DESIGN CHOICE] -/
def execGetfirmwareparameters (b : Binding) (s : State) : Out :=
  if !s.mctpServes b then .next s
  else if s.boot.st == .stopped then
    .next (s.pldmReply b 5 0x02 0 ([0x000A, 0x0768] ++ bootFailString s.boot.fail))
  else
    let d := s.drawFree
    .next (d.2.pldmReply b 5 0x02 0 [0x000A, 0x0768, d.1])

/-- The slot that is not ACTIVE (R444); with no valid directory copy, slot A. [log 119: DEDUCED] -/
def Boot.inactive (b : Boot) : Nat := match b.governing with | some n => 1 - (b.dir n).active | none => 0

/-- The flash offset of an image slot (R435). -/
def slotBase (slot : Nat) : Nat := 0x01000000 + 0x01000000 * slot

def State.setUpd (s : State) (u : UpdSt) : State := { s with boot := { s.boot with upd := u } }

/-- A request of the update protocol in the state it needs: done, or refused with NOT_IN_UPDATE_MODE or
INVALID_STATE_FOR_COMMAND (DSP0267). [log 117: PRESUMED] -/
def State.updIn (s : State) (b : Binding) (cmd : Nat) (u : UpdSt) (f : State → State) : State :=
  if !s.mctpServes b then s
  else if s.boot.upd == .idle then s.pldmReply b 5 cmd 0x80 []
  else if s.boot.upd != u then s.pldmReply b 5 cmd 0x84 []
  else f s

/-- REQUESTUPDATE (R444): the update reads the directory copies and begins. -/
def execRequestupdate (b : Binding) (d0 d1 : List Byte) (s : State) : Out :=
  if !s.mctpServes b then .next s
  else if s.boot.upd != .idle then .next (s.pldmReply b 5 0x10 0x81 [])
  else
    let s1 : State := { s with boot := { s.boot with dir0 := dirCopyOf d0, dir1 := dirCopyOf d1, upd := .learn } }
    .next (s1.pldmReply b 5 0x10 0 [])

/-- PASSCOMPONENTTABLE: 0 where the component is the device's one, 1 where it is not. -/
def execPasscomponenttable (b : Binding) (id : BitVec 16) (s : State) : Out :=
  .next (s.updIn b 0x13 .learn (fun s => (s.setUpd .ready).pldmReply b 5 0x13 0 [flagAt (id != 0x0768) 0]))

/-- UPDATECOMPONENT: the component is taken when it is the device's one and fits a slot. -/
def execUpdatecomponent (b : Binding) (id : BitVec 16) (size : BitVec 32) (s : State) : Out :=
  .next (s.updIn b 0x14 .ready (fun s =>
    if id ≠ 0x0768 ∨ size = 0 ∨ 0x01000000 < size.toNat then s.pldmReply b 5 0x14 0 [1]
    else ({ s with boot := { s.boot with upd := .download, updSize := size.toNat, updBytes := 0 } } : State).pldmReply b 5 0x14 0 [0]))

/-- REQUESTFIRMWAREDATA (R444): a part of the image that the device asked for is written to the inactive slot. -/
def execRequestfirmwaredata (b : Binding) (off : BitVec 32) (bytes : List Byte) (s : State) : Out :=
  if !s.mctpServes b || s.boot.upd != .download || off.toNat != s.boot.updBytes || bytes.isEmpty
      || decide (s.boot.updSize < off.toNat + bytes.length) then .next s
  else
    .next (({ s with boot := { s.boot with updBytes := s.boot.updBytes + bytes.length } } : State).send
      (.flash (slotBase s.boot.inactive + off.toNat) bytes))

/-- TRANSFERCOMPLETE: the device has received the whole component. -/
def execTransfercomplete (b : Binding) (s : State) : Out :=
  if !s.mctpServes b || s.boot.upd != .download || s.boot.updBytes != s.boot.updSize then .next s
  else .next ((s.setUpd .verify).pldmReply b 5 0x16 0 [0])

/-- VERIFYCOMPLETE (R438, R444): the new image passes the checks of R438, or fails and is not applied. [log 119: DEDUCED] -/
def execVerifycomplete (b : Binding) (img : SlotImage) (s : State) : Out :=
  if !s.mctpServes b || s.boot.upd != .verify then .next s
  else match slotFail img s.boot.svnf with
    | none => .next ((s.setUpd .apply).pldmReply b 5 0x17 0 [0])
    | some f => .next (s.pldmReply b 5 0x17 0 [BitVec.ofNat 64 f])

/-- The bytes of a directory copy (R435). -/
def dirBytes (d : DirCopy) : List Byte :=
  let bs := leBytes 4 d.seq ++ leBytes 4 d.active ++ leBytes 52 0
  bs ++ leBytes 4 (crc32c 0 bs).toNat

/-- APPLYCOMPLETE (R435, R444): the older directory copy is rewritten with SEQ increased by 1 and ACTIVE naming the new
slot. [log 119: DEDUCED] -/
def execApplycomplete (b : Binding) (s : State) : Out :=
  if !s.mctpServes b || s.boot.upd != .apply then .next s
  else
    let g := s.boot.governing
    let seq : Nat := match g with | some n => (s.boot.dir n).seq | none => 0
    let d : DirCopy := { valid := true, seq := (seq + 1) % 2 ^ 32, active := s.boot.inactive }
    let old : Nat := match g with | some n => 1 - n | none => 0
    let boot : Boot := if old = 0 then { s.boot with dir0 := d, upd := .activate } else { s.boot with dir1 := d, upd := .activate }
    .next ((({ s with boot := boot } : State).send (.flash (0x8000 * old) (dirBytes d))).pldmReply b 5 0x18 0 [0])

/-- ACTIVATEFIRMWARE (R444): self-contained activation is not supported; the new image runs from the next reset. -/
def execActivatefirmware (b : Binding) (self : Bool) (s : State) : Out :=
  .next (s.updIn b 0x1A .activate (fun s =>
    if self then s.pldmReply b 5 0x1A 0x8C [] else (s.setUpd .idle).pldmReply b 5 0x1A 0 []))

/-- The state code that GetStatus reports (DSP0267). -/
def UpdSt.code : UpdSt → Nat
  | .idle => 0 | .learn => 1 | .ready => 2 | .download => 3 | .verify => 4 | .apply => 5 | .activate => 6

/-- GETSTATUS. -/
def execGetstatus (b : Binding) (s : State) : Out :=
  .next (s.pldmReply b 5 0x1B 0 [BitVec.ofNat 64 s.boot.upd.code])

/-- CANCELUPDATE (R444): the update is abandoned, and the directory stays as it is. -/
def execCancelupdate (b : Binding) (s : State) : Out :=
  if !s.mctpServes b then .next s
  else if s.boot.upd == .idle then .next (s.pldmReply b 5 0x1D 0x80 [])
  else .next ((s.setUpd .idle).pldmReply b 5 0x1D 0 [])

end Sys2Proof.Machine
end

