-- ==== Sys2Proof/Machine/RegWrite.lean ====
section
/-!
DEFINITION. Writes of registers (R5, R17, R447): one shared operation for every register of the device, and the rows
whose registers act when they are written.
-/
namespace Sys2Proof.Machine
open Sys2Proof

/-- A physical address of a 64-bit register. -/
def regAddr (pa : Nat) : Bool :=
  pa % 8 == 0 && (match placeOf pa with | .coreReg _ _ | .clReg _ _ | .devReg _ _ _ => true | _ => false)

/-- What a refused or accepted write of a core leaves. [log 15: DESIGN CHOICE] -/
def State.writeOutcome (s : State) (k : Nat) (r : Acc Unit) : State :=
  match r with
  | .ok _ s' => s'
  | .ev e => s.raise k e
  | .wait => s
  | .lost s' => s'

/-- A 64-bit write of a register by a core in its current ring (R17, R447): refused writes raise their fault. Writes by a
core that issues nothing, and by the maltster while its clock or power is off, do not happen. [log 120: DEDUCED] -/
def State.coreRegWrite (s : State) (k pa : Nat) (v : Word) : State :=
  let a := BitVec.ofNat 64 pa
  if k = maltsterCore then
    if s.boot.st == .cold || s.boot.trip then s else s.writeOutcome k (s.storeReg k a pa (leBytes 8 v.toNat))
  else
    if !(s.core k).issues then s
    else match s.partOfCore k with
      | none => s
      | some p =>
        match placeFault s p false .write pa pa with
        | some f => s.raise k f.ev
        | none => s.writeOutcome k (s.storeReg k a pa (leBytes 8 v.toNat))

/-- A register written by a master: a core, the maltster, or a host port through BAR0, which reaches its own HOST_
registers alone (R17). [log 79: DEDUCED] -/
def State.regWrite (s : State) (m : Writer) (pa : Nat) (v : Word) : State :=
  match m with
  | .core k => s.coreRegWrite k.val pa v
  | .host h =>
    match placeOf pa with
    | .devReg 5 i off => if i = h.val && s.hostLive h.val then (s.hostRegStore h off v).hostsDrain else s
    | _ => s

/-- REGISTER_WRITE (R5). -/
def execRegisterWrite (m : Writer) (pa : BitVec 48) (v : Word) (s : State) : Out :=
  if regAddr pa.toNat then .next (s.regWrite m pa.toNat v) else .refused (.illFormed "REGISTER_WRITE")

/-! ### Registers of a core -/

/-- TU_CTL_DROP (R89): TU_CTL written with DROP = 1. -/
def execTuCtlDrop (m : Writer) (k : Fin 768) (v : Word) (s : State) : Out :=
  .next (s.regWrite m (coreRegAddr k.val 0x1008) (v ||| flagAt true 16))

/-- VSU_CTL_DROP (R111): VSU_CTL written with DROP = 1. -/
def execVsuCtlDrop (m : Writer) (k : Fin 768) (v : Word) (s : State) : Out :=
  .next (s.regWrite m (coreRegAddr k.val 0x2008) (v ||| flagAt true 16))

/-- CLRREJ (R134): SP_CTL written with CLRREJ = 1. -/
def execClrrej (m : Writer) (k : Fin 768) (v : Word) (s : State) : Out :=
  .next (s.regWrite m (coreRegAddr k.val 0x3008) (v ||| flagAt true 1))

/-- CORE_ISET (R179). -/
def execCoreIset (m : Writer) (k : Fin 768) (v : Word) (s : State) : Out := .next (s.regWrite m (coreRegAddr k.val 0x20) v)

/-- PRECISE (R181): CORE_CFG written; one that changes PRECISE waits for the unit queues to be empty. [log 15: DESIGN CHOICE] -/
def execPrecise (m : Writer) (k : Fin 768) (v : Word) (s : State) : Out := .next (s.regWrite m (coreRegAddr k.val 0x08) v)

/-! ### Registers of a cluster -/

/-- L2_DISABLE (R217): L2_CTL written with EN = 0. -/
def execL2Disable (m : Writer) (c : ClusterId) (v : Word) (s : State) : Out :=
  .next (s.regWrite m (clRegAddr c.val 0x00008) (v &&& ~~~(flagAt true 0)))

/-- L2_WAYPWR (R218, R220). -/
def execL2Waypwr (m : Writer) (c : ClusterId) (v : Word) (s : State) : Out := .next (s.regWrite m (clRegAddr c.val 0x00010) v)

/-- L2_LOCK (R219, R220). -/
def execL2Lock (m : Writer) (c : ClusterId) (v : Word) (s : State) : Out := .next (s.regWrite m (clRegAddr c.val 0x00018) v)

/-- DMA_CHNPOP (R257). -/
def execDmaChnpop (m : Writer) (c : ClusterId) (ch : Fin 16) (n : BitVec 16) (s : State) : Out :=
  .next (s.regWrite m (clRegAddr c.val (0x30110 + 0x40 * ch.val)) (n.zeroExtend 64))

/-- DMA_MISM_CLEAR (R253): DMA_CHnCMP written with MISM = 1. -/
def execDmaMismClear (m : Writer) (c : ClusterId) (ch : Fin 16) (s : State) : Out :=
  .next (s.regWrite m (clRegAddr c.val (0x30118 + 0x40 * ch.val)) (flagAt true 32))

/-- FPR_MISM_CLEAR (R286): FPR_STATUS written with MISM = 1. -/
def execFprMismClear (m : Writer) (c : ClusterId) (v : Word) (s : State) : Out :=
  .next (s.regWrite m (clRegAddr c.val 0x70000) (v ||| flagAt true 25))

/-! ### Registers of the device blocks -/

/-- MBX_CTL_LOCK (R238): MBX_CTL written with LOCK = 1. -/
def execMbxCtlLock (m : Writer) (s : State) : Out := .next (s.regWrite m (devRegAddr 1 0 0x08) 1)

/-- CLK_GTIME (R322). -/
def execClkGtime (m : Writer) (v : Word) (s : State) : Out := .next (s.regWrite m (devRegAddr 6 0 0x8000) v)

/-- PWR_CAP (R420). -/
def execPwrCap (m : Writer) (v : Word) (s : State) : Out := .next (s.regWrite m (devRegAddr 6 0 0x1000) v)

/-- BOOT_CTL_WARM (R442): BOOT_CTL written with WARM = 1. -/
def execBootCtlWarm (m : Writer) (s : State) : Out := .next (s.regWrite m (devRegAddr 0 0 0x00008) 1)

end Sys2Proof.Machine
end

