-- ==== Sys2Proof/Machine/TileOps.lean ====
section
/-!
DEFINITION. What the tile unit's instructions share (spec 04): shapes (R68, R69), the checks at issue (R85),
rows (R78), products (R80 to R82) and read-out (R84).
-/
namespace Sys2Proof.Machine
open Sys2Proof

/-! ### Shapes -/

structure TShape where
  rows : Nat
  cols : Nat
  fmt : Fmt
  deriving DecidableEq, Repr

/-- The bytes of a row of C elements (R69). -/
def Fmt.rowBytes (f : Fmt) (c : Nat) : Nat :=
  match f with
  | .e3m2 | .e2m3 => 3 * ceilDiv c 4
  | .e2m1 | .int4 => ceilDiv c 2
  | f => f.width / 8 * c

/-- The shape a TSW gives; none unless it is legal (R69). -/
def tswShape (t : Nat) : Option TShape :=
  if t / 2 ^ 23 % 2 = 0 ∨ t / 2 ^ 13 % 8 ≠ 0 ∨ t / 2 ^ 20 % 8 ≠ 0 then none
  else match Fmt.ofCode (t / 2 ^ 16 % 16) with
    | none | some .afx128 => none
    | some f =>
      let c := t / 64 % 128 + 1
      if f.rowBytes c ≤ 64 then some ⟨t % 64 + 1, c, f⟩ else none

/-! ### Illegal encodings (R71, R203) -/

/-- After how many bytes a tile instruction is illegal: on the maltster, or with a shape prefix that its mode
forbids or lacks, at the opcode byte; with an ill-formed shape word at the byte that decides it. -/
def tileIllegal (maltster tmode : Bool) (d : Option Disp) (shaped : Bool) (shp : List (BitVec 24)) : Option Nat :=
  let pre := (d.map (fun d => (dispPre d).length)).getD 0 + (if shp.isEmpty then 0 else 1)
  let dl := (d.map (fun d => (dispBytes d).length)).getD 0
  if maltster || (shaped && (tmode == !shp.isEmpty)) then some (pre + 1)
  else
    let q := pre + 2 + dl
    match shp with
    | a :: b :: _ =>
      match tswIllegal a.toNat with
      | some j => some (q + j)
      | none => (tswIllegal b.toNat).map (fun j => q + 3 + j)
    | [a] => (tswIllegal a.toNat).map (fun j => q + j)
    | [] => none

/-! ### Faults at issue (R87) -/

/-- A fault of the tile unit: exception code, TU_FINFO.CAUSE and IDX. -/
structure TileFail where
  code : Nat
  cause : Nat
  idx : Nat := 0
  deriving DecidableEq, Repr

def tileConfig (cause idx : Nat) : TileFail := ⟨9, cause, idx⟩
def tileDesc : TileFail := ⟨0xF, 0x19, 0⟩

/-- TU_FINFO as a word. -/
def TuFault.word (f : TuFault) : Word :=
  place f.cause 8 0 ||| place f.idx 6 8 ||| flagAt f.wr 15 ||| place f.iaddr 48 16

/-- A fault found at issue: TU_FINFO is written and the fault is precise; TU_FADDR keeps the last row fault's address. -/
def State.tileIssueFault (s : State) (k : Nat) (f : TileFail) : State :=
  let pc := (s.core k).pc
  (s.modCore k (fun c =>
    { c with tile := { c.tile with finfo := { c.tile.finfo with cause := f.cause, idx := f.idx, wr := false, iaddr := pc.toNat } } })).raise k
    { code := f.code, cause := f.cause }

def Tile.depth (t : Tile) : Nat := match t.iqd with | 0 => 4 | 1 => 2 | _ => 1

/-- The shape word an operand register issues under: the prefixed one, or TU_SHAPEn (R71, R72). -/
def Core.shapeWord (c : Core) (t : Nat) (shp : Option Nat) : Nat := shp.getD (mget 0 c.tile.shapes t)

/-- The shape checks of an operand (SHAPE, UNCONF). -/
def Core.shapeCheck (c : Core) (t : Nat) (shp : Option Nat) : Except TileFail TShape :=
  let w := c.shapeWord t shp
  if shp.isNone && w / 2 ^ 23 % 2 = 0 then .error (tileConfig 0x13 t)
  else match tswShape w with
    | none => .error (tileConfig 0x12 t)
    | some x => .ok x

/-- A tile instruction's issue (R74, R89): PENDING, the queue's room, its own checks, then its entry. `mk` gives
the checks' outcome and the queued operation from the popped operands. [log 32: DEDUCED] -/
def tileIssue (k : CoreId) (i : Instr) (d : Option Disp) (shaped : Bool) (shp : List (BitVec 24)) (n : Nat)
    (mk : Core → List Word → Except TileFail TileOp) (s : State) : Out :=
  let b := instrBytes i
  coreInstr k { bytes := b, pops := n,
                illegal := tileIllegal (k.val == maltsterCore) (s.core k.val).tmode d shaped shp }
    (fun s =>
      let c := s.core k.val
      if !c.tile.frozen.isEmpty then .next (s.tileIssueFault k.val (tileConfig 0x16 0))
      else if c.tile.depth ≤ c.tile.queue.length then .next (s.waitAt k.val i)
      else match mk c (s.tops k.val n) with
        | .error f => .next (s.tileIssueFault k.val f)
        | .ok op =>
          let s1 := (s.stackEffect k.val .data n []).modCore k.val (fun c =>
            { c with stamp := c.stamp + 1,
                     tile := { c.tile with queue := c.tile.queue ++
                       [{ op := op, iaddr := c.pc, ring := c.ring, stamp := c.stamp }] } })
          .next (s1.advance k.val b.length)) s

/-! ### Registers and accumulators -/

/-- The 64 bytes of row r of tile register t. -/
def Tile.row (u : Tile) (t r : Nat) : List Byte := (List.range 64).map (fun b => mget 0 u.regs (t * 4096 + r * 64 + b))

/-- Element c of a row of a format (R30). -/
def rowElem (f : Fmt) (bs : List Byte) (c : Nat) : Nat := leNat bs / 2 ^ (c * f.width) % 2 ^ f.width

/-- A row of elements packed from byte 0 (R30, R69). -/
def packRow (f : Fmt) (cs : List Nat) : List Byte :=
  let rec go : Nat → List Nat → Nat
    | _, [] => 0
    | i, c :: cs => c % 2 ^ f.width * 2 ^ (i * f.width) + go (i + 1) cs
  leBytes (f.rowBytes cs.length) (go 0 cs)

/-- The bytes of a row of n elements with its unused bits cleared (R30): the bits above those of the elements. -/
def Fmt.cleanRow (f : Fmt) (n : Nat) (bs : List Byte) : List Byte := leBytes bs.length (leNat bs % 2 ^ (n * f.width))

/-- A row of a tile register written whole: bytes beyond those given are zero (R69). -/
def Tile.putRow (u : Tile) (t r : Nat) (bs : List Byte) : Tile :=
  { u with regs := (List.range 64).foldl (fun m b => mput m (t * 4096 + r * 64 + b) (bs.getD b 0)) u.regs }

def Tile.putRows (u : Tile) (t : Nat) : Nat → List (List Byte) → Tile
  | _, [] => u
  | r, bs :: rest => (u.putRow t r bs).putRows t (r + 1) rest

def Tile.elem (u : Tile) (a i j : Nat) : X96 := mget 0 u.acc (a * 4096 + i * 64 + j)
def Tile.putElem (u : Tile) (a i j : Nat) (e : X96) : Tile := { u with acc := mput u.acc (a * 4096 + i * 64 + j) e }

/-! ### Rows in memory (R78) -/

/-- Why a row stops the instruction: TU_FINFO.CAUSE and the first byte that could not be reached. -/
structure RowFault where
  cause : Nat
  addr : Nat
  deriving DecidableEq, Repr

/-- The physical addresses of a row of n bytes, in the core's own scratchpad, its cluster's tun or device
memory. -/
def tileRow (s : State) (k : Nat) (ring : Fin 4) (kind : AccKind) (a : Word) (n : Nat) : Except RowFault (List Nat) :=
  if a.toNat % 4 ≠ 0 then .error ⟨3, a.toNat⟩
  else match coreXlateN s k ring kind a.toNat n with
    | .error f => .error ⟨if f.code = 5 then 1 else 2, f.addr⟩
    | .ok ts =>
      let inReach (t : Target) : Bool := match t with
        | .remote _ _ _ _ => false
        | .phys pa _ => match placeOf pa with
          | .mem _ => true
          | .tun c _ => c == clusterOf k
          | .spad k' _ => k' == k
          | _ => false
      match (List.range n).find? (fun i => !(ts[i]?.map inReach).getD false) with
      | some i => .error ⟨2, a.toNat + i⟩
      | none => .ok (physAddrs ts)

/-- Consecutive addresses of one 64-byte line. -/
def lineGroups : List Nat → List (List Nat)
  | [] => []
  | a :: rest =>
    match lineGroups rest with
    | (b :: g) :: gs => if b / 64 = a / 64 then (a :: b :: g) :: gs else [a] :: (b :: g) :: gs
    | gs => [a] :: gs

/-- The bytes of a row's lines read by the tile unit; the finding falls on the first line. Device memory is read
through L1D, and checked where no cache serves the line; none where an uncorrectable error stops it (R88, R205,
R213). -/
def State.tileLines (s : State) (k : Nat) : List (List Nat) → Finding → Option (List Byte) × State
  | [], _ => (some [], s)
  | g :: gs, h =>
    let a := g.headD 0
    let l2 := (s.cluster (clusterOf k)).l2
    let cached : Bool := decide (a < memEnd)
      && (!h.l1 && !(s.core k).ddis && (findLine (s.core k).l1d (a / 64)).isSome
          || !h.l2 && l2.en && (findLine l2.lines (a / 64)).isSome)
    let r := if cached then (s, true) else s.eccSpan g k h.ecc
    if !r.2 then (none, r.1)
    else
      let d := if a < memEnd then r.1.cachedBytes k h.l1 h.l2 g else (g.map r.1.getByte, r.1)
      match d.2.tileLines k gs {} with
      | (some bs, s') => (some (d.1 ++ bs), s')
      | x => x

/-- The bytes of a row read by the tile unit; none where an uncorrectable error stops it (R88). -/
def State.tileRead (s : State) (k : Nat) (pas : List Nat) (h : Finding) : Option (List Byte) × State :=
  s.tileLines k (lineGroups pas) h

/-- Room made in the merging buffer: the store stalls until the oldest entry has drained (R210). -/
def State.mbMakeRoom (s : State) (c line : Nat) : State :=
  if mbRoom (s.cluster c).l2.mb line then s
  else match (s.cluster c).l2.mb with
    | e :: _ => s.entryInPlace c e.line
    | [] => s

/-- Consecutive cells of one 64-byte line. -/
def byLine : List (Nat × Byte) → List (List (Nat × Byte))
  | [] => []
  | e :: rest =>
    match byLine rest with
    | [] => [[e]]
    | (f :: g) :: gs => if f.1 / 64 = e.1 / 64 then (e :: f :: g) :: gs else [e] :: (f :: g) :: gs
    | [] :: gs => [e] :: gs

/-- The lines of a row written by the tile unit; the finding falls on the first: device memory through the caches and
the merging buffer, other places at once, where a write of a part of an entry reads it first (R136). Whether every
line was written. -/
def State.tileWriteLines (s : State) (k stamp : Nat) : List (List (Nat × Byte)) → Finding → State × Bool
  | [], _ => (s, true)
  | cs :: rest, h =>
    let a := (cs.headD (0, 0)).1
    let r :=
      if a < memEnd then
        let s1 := s.mbMakeRoom (clusterOf k) (a / 64)
        ((s1.cachedStore k a (cs.map (·.2)) h stamp).getD s1, true)
      else s.writeCells cs k h.ecc
    if r.2 then r.1.tileWriteLines k stamp rest {} else r

/-- A row written by the tile unit. -/
def State.tileWrite (s : State) (k stamp : Nat) (cells : List (Nat × Byte)) (h : Finding) : State × Bool :=
  s.tileWriteLines k stamp (byLine cells) h

/-! ### Products (R80 to R82) -/

/-- Block scale values read from a scale register's row. -/
def scaleVals (m : ScaleMode) (row : List Byte) (base : Nat) : List Val :=
  (List.range 32).map (fun f => decodeCode m.sfmt 0 ((row.getD (base + f) 0).toNat))

/-- What TMMA accumulates into one element. -/
def mmaElem (e : X96) (cl : PClass) (ma mb : ScaleMode) (ra rb : List Val) (sa sb : List Val) : Accum :=
  let ts := ra.zip rb
  if ma.kind = 2 ∨ mb.kind = 2 then
    accumFrag e ts (if ma.kind = 2 then some (ma.blk, sa) else none) (if mb.kind = 2 then some (mb.blk, sb) else none)
  else if cl = .n then accumN e ts
  else accumHS cl e ts

/-- The elements of row r of a register under a shape, as values. -/
def Tile.vals (u : Tile) (t : Nat) (x : TShape) (r : Nat) : List Val :=
  let row := u.row t r
  (List.range x.cols).map (fun c => decodeCode x.fmt 0 (rowElem x.fmt row c))

/-- The checks of R80 and R81 on the operands of TMMA. -/
def mmaCheck (a b : TShape) (pd : Word) : Option TileFail :=
  let sm (v : Nat) : Nat := v % 4
  let scaled : Bool := decide (2 ≤ sm (field pd 7 0)) || decide (2 ≤ sm (field pd 15 8))
  match a.fmt.pclass, b.fmt.pclass with
  | some ca, some cb =>
    if ca ≠ cb then some (tileConfig 0x10 0)
    else if b.cols ≠ a.cols then some (tileConfig 0x11 0)
    else if ca ≠ .n && scaled then some (tileConfig 0x15 0)
    else if field pd 63 19 ≠ 0 || (scaleMode (field pd 7 0)).isNone || (scaleMode (field pd 15 8)).isNone then some tileDesc
    else none
  | _, _ => some (tileConfig 0x10 0)

/-- The positions of an M × N region in row-major order. -/
def grid (m n : Nat) : List (Nat × Nat) := (List.range m).flatMap (fun i => (List.range n).map (fun j => (i, j)))

/-! ### Read-out (R84, R85) -/

/-- A read-out descriptor with its fields decoded. -/
structure ReadOut where
  sma : ScaleMode
  smb : ScaleMode
  rm : RMode
  nosat : Bool
  tsc : Nat
  anchor : Int
  deriving DecidableEq, Repr

/-- The descriptor checks of R85; `sta` for TSTA. Answers the decoded descriptor with TSTA's shape. -/
def rdCheck (rd : Word) (sta : Bool) : Except TileFail (ReadOut × TShape) :=
  let f := Fmt.ofCode (field rd 55 52)
  match scaleMode (field rd 7 0), scaleMode (field rd 15 8), RMode.ofCode (field rd 18 16), f with
  | some a, some b, some rm, some fmt =>
    if bit rd 23 || field rd 63 56 ≠ 0 then .error tileDesc
    else if sta && fmt == .e8m0 then .error tileDesc
    else if !sta && field rd 55 40 ≠ 0 then .error tileDesc
    else .ok (⟨a, b, rm, bit rd 19, field rd 22 20, signedOf 16 (field rd 39 24)⟩,
              ⟨field rd 45 40 + 1, field rd 51 46 + 1, fmt⟩)
  | _, _, _, _ => .error tileDesc

/-- The scale factors of element (i, j) at read-out: σ_A, σ_B, m_A(i), n_B(j). -/
def readScales (u : Tile) (r : ReadOut) (sig : Word) (i j : Nat) : List Val :=
  let one : Val := .fin ⟨1, 0⟩
  let row := u.row r.tsc 0
  [ if r.sma.kind = 0 then one else valFp32 (field sig 31 0),
    if r.smb.kind = 0 then one else valFp32 (field sig 63 32),
    if r.sma.kind = 3 then (scaleVals r.sma row 0).getD (i / r.sma.blk) one else one,
    if r.smb.kind = 3 then (scaleVals r.smb row 32).getD (j / r.smb.blk) one else one ]

/-- Element (i, j) of a read-out under its key (R61, R63, R84). -/
def readElem (c : Core) (a : Nat) (r : ReadOut) (f : Fmt) (sig key : Word) (i j : Nat) : Nat × Conds :=
  let u := (field key 39 16 + i) % 2 ^ 24
  let v := (field key 63 40 + j) % 2 ^ 24
  readOut (c.tile.elem a i j) f r.anchor ⟨r.rm, r.nosat, draw32 c.seed (field key 15 0) u v⟩
    (readScales c.tile r sig i j)

/-- Row i of a read-out: codes and conditions. -/
def readRow (c : Core) (a : Nat) (r : ReadOut) (x : TShape) (sig key : Word) (i : Nat) : List Nat × Conds :=
  let es := (List.range x.cols).map (fun j => readElem c a r x.fmt sig key i j)
  (es.map (·.1), es.foldl (fun cs e => cs.or e.2) {})

/-! ### Order against the vector stream unit (R96) -/

/-- The tile registers an operation reads (R76, R96). -/
def VecEntry.tiles (e : VecEntry) : List Nat :=
  match e.op with
  | .vcache _ _ _ _ => []
  | .vexec _ => ((List.range 5).map (vstream e.desc)).filterMap (fun x => if x.src = 3 then some (x.base % 8) else none)

/-- The tile register an operation writes. -/
def TileOp.writes : TileOp → Option Nat
  | .tld t _ _ _ | .tzeroT t | .tcva t _ _ _ _ _ => some t
  | _ => none

/-- Whether a tile instruction must wait for an earlier vector instruction that reads the register it writes. -/
def Core.tileWaits (c : Core) (e : TileEntry) : Bool :=
  match e.op.writes with
  | none => false
  | some t => (c.vsu.queue ++ c.vsu.frozen).any (fun v => decide (v.stamp < e.stamp) && v.tiles.contains t)

/-! ### Outcomes of execution -/

/-- What an execution that completes records (R91, R92): conditions, a saturated accumulator, the first NaN
written (row, column, destination, accumulator). -/
structure TileRec where
  conds : Conds := {}
  sat : Option Nat := none
  nan : Option (Nat × Nat × Bool × Nat) := none
  deriving DecidableEq, Repr

inductive TileRes where
  | done (s : State) (r : TileRec)
  | fault (s : State) (f : TileFail) (wr : Bool) (addr : Nat)
  | lost (s : State)

/-- The first position of a region whose code is a NaN. -/
def firstNan (f : Fmt) (rows : List (List Nat)) : Option (Nat × Nat) :=
  let idx := (List.range rows.length).flatMap (fun i =>
    (List.range (rows.getD i []).length).map (fun j => (i, j)))
  idx.find? (fun p => isNanCode f ((rows.getD p.1 []).getD p.2 0))

end Sys2Proof.Machine
end

