-- ==== Sys2Proof/Machine/Tile.lean ====
section
/-!
DEFINITION. The tile instructions (spec 04): issue (R73, R74, R77), execution (R78 to R86), completion
(R91, R92) and execution faults (R88).
-/
namespace Sys2Proof.Machine
open Sys2Proof

/-! ### Rows of an instruction -/

/-- The addresses of an instruction's rows, with their indices (R78). -/
def rowAddrs (base stride : Word) (n : Nat) : List (Nat × Word) :=
  (List.range n).map (fun r => (r, base + BitVec.ofNat 64 r * stride))

/-- What the arrays report for row r. [log 44: DESIGN CHOICE] -/
def findingAt (h : Option (Nat × Finding)) (r : Nat) : Finding :=
  match h with
  | some (i, e) => if i = r then e else {}
  | none => {}

inductive RowsRes where
  | ok (rows : List (List Byte)) (s : State)
  | fault (r : Nat) (f : RowFault) (s : State)
  | lost (s : State)

/-- Rows of n bytes read in order (R78, R88). -/
def State.readRows (s : State) (k : Nat) (ring : Fin 4) (n : Nat) (h : Option (Nat × Finding)) :
    List (Nat × Word) → RowsRes
  | [] => .ok [] s
  | (r, a) :: rest =>
    match tileRow s k ring .read a n with
    | .error f => .fault r f s
    | .ok pas =>
      match s.tileRead k pas (findingAt h r) with
      | (none, s1) => .lost s1
      | (some bs, s1) =>
        match s1.readRows k ring n h rest with
        | .ok rows s2 => .ok (bs :: rows) s2
        | x => x

/-- Rows written in order; those before a fault stay in memory (R78, R90). A row outside device memory is
read first where it covers an entry in part (R136). -/
def State.writeRows (s : State) (k : Nat) (ring : Fin 4) (stamp : Nat) (h : Option (Nat × Finding)) :
    List ((Nat × Word) × List Byte) → RowsRes
  | [] => .ok [] s
  | ((r, a), bs) :: rest =>
    match tileRow s k ring .write a bs.length with
    | .error f => .fault r f s
    | .ok pas =>
      let c := s.tileWrite k stamp (pas.zip bs) (findingAt h r)
      if !c.2 then .lost c.1 else c.1.writeRows k ring stamp h rest

/-! ### Execution -/

def State.modTile (s : State) (k : Nat) (f : Tile → Tile) : State := s.modCore k (fun c => { c with tile := f c.tile })

/-- A row fault as the outcome of execution. -/
def rowFail (s : State) (r : Nat) (f : RowFault) (wr : Bool) : TileRes := .fault s ⟨0x0A, f.cause, r⟩ wr f.addr

/-- TLD (R78): the unused bits of a row of a narrow format are written as zero (R30). -/
def runTld (s : State) (k : Nat) (ring : Fin 4) (h : Option (Nat × Finding)) (t : Nat) (base stride : Word) (x : TShape) : TileRes :=
  match s.readRows k ring (x.fmt.rowBytes x.cols) h (rowAddrs base stride x.rows) with
  | .ok rows s' => .done (s'.modTile k (fun u => u.putRows t 0 (rows.map (x.fmt.cleanRow x.cols)))) {}
  | .fault r f s' => rowFail s' r f false
  | .lost s' => .lost s'

/-- Rows stored by TST, TSTA or TSPILL. -/
def runStore (s : State) (k : Nat) (e : TileEntry) (h : Option (Nat × Finding)) (rows : List ((Nat × Word) × List Byte))
    (rec_ : TileRec) : TileRes :=
  match s.writeRows k e.ring e.stamp h rows with
  | .ok _ s' => .done s' rec_
  | .fault r f s' => rowFail s' r f true
  | .lost s' => .lost s'

/-- The new elements of a TMMA's region with their positions (R80 to R82). -/
def mmaRegion (u : Tile) (a ta tb : Nat) (xa xb : TShape) (ma mb : ScaleMode) (tsc : Nat) (cl : PClass) :
    List ((Nat × Nat) × X96 × Accum) :=
  (grid xa.rows xb.rows).map (fun p =>
    let old := u.elem a p.1 p.2
    (p, old, mmaElem old cl ma mb (u.vals ta xa p.1) (u.vals tb xb p.2)
      (scaleVals ma (u.row tsc p.1) 0) (scaleVals mb (u.row tsc p.2) 32)))

/-- TMMA (R53, R80). -/
def runTmma (s : State) (k a ta tb : Nat) (xa xb : TShape) (pd : Word) : TileRes :=
  let u := (s.core k).tile
  match scaleMode (field pd 7 0), scaleMode (field pd 15 8), xa.fmt.pclass with
  | some ma, some mb, some cl =>
    let xe : Bool := cl != .n || ma.kind == 2 || mb.kind == 2
    if (grid xa.rows xb.rows).any (fun p => (u.elem a p.1 p.2).layoutFault xe) then
      .fault s (tileConfig 0x14 0) false 0
    else
      let out := mmaRegion u a ta tb xa xb ma mb (field pd 18 16) cl
      let nan := out.find? (fun o => o.2.2.e.isNan && !o.2.1.isNan)
      .done (s.modTile k (fun u => out.foldl (fun u o => u.putElem a o.1.1 o.1.2 o.2.2.e) u))
        { conds := out.foldl (fun c o => c.or o.2.2.conds) {},
          sat := if out.any (fun o => o.2.2.sat) then some a else none,
          nan := nan.map (fun o => (o.1.1, o.1.2, false, a)) }
  | _, _, _ => .fault s tileDesc false 0

/-- The rows of a read-out and what it records (R84). -/
def outRows (c : Core) (a : Nat) (r : ReadOut) (x : TShape) (sig key : Word) : List (List Nat) × TileRec :=
  let rs := (List.range x.rows).map (readRow c a r x sig key)
  let codes := rs.map (·.1)
  (codes, { conds := rs.foldl (fun c o => c.or o.2) {},
            nan := (firstNan x.fmt codes).map (fun p => (p.1, p.2, true, a)) })

/-- The base of TSPILL and TFILL (R86). [log 33: DEDUCED] -/
def spillBase (base disp : Word) : Except RowFault Word :=
  if base.toNat % 16 ≠ 0 then .error ⟨3, (base + disp).toNat⟩ else .ok (base + disp)

/-- The 768 bytes of accumulator row i (R86). -/
def Tile.spillRow (u : Tile) (a i : Nat) : List Byte :=
  (List.range 64).flatMap (fun j => leBytes 12 (u.elem a i j).toNat)

/-- TFILL's elements once every row is read: checked, then written (R86). -/
def fillDone (s : State) (k a : Nat) (rows : List (List Byte)) : TileRes :=
  let u := (s.core k).tile
  let new (p : Nat × Nat) : X96 := BitVec.ofNat 96 (leNat (((rows.getD p.1 []).drop (12 * p.2)).take 12))
  match (grid 64 64).find? (fun p => (new p).malformed) with
  | some p => .fault s (tileConfig 0x17 p.1) false 0
  | none =>
    .done (s.modTile k (fun u => (grid 64 64).foldl (fun u p => u.putElem a p.1 p.2 (new p)) u))
      { nan := ((grid 64 64).find? (fun p => (new p).isNan && !(u.elem a p.1 p.2).isNan)).map
          (fun p => (p.1, p.2, false, a)) }

/-- The rows that a store writes, with their addresses; none for an instruction that stores no row. A row of a narrow
format has its unused bits written as zero (R30). -/
def State.storedRows (s : State) (k : Nat) (e : TileEntry) : Option (List ((Nat × Word) × List Byte)) :=
  let c := s.core k
  match e.op with
  | .tst t base stride sw => (tswShape sw).map (fun x =>
      (rowAddrs base stride x.rows).map (fun ra => (ra, x.fmt.cleanRow x.cols ((c.tile.row t ra.1).take (x.fmt.rowBytes x.cols)))))
  | .tsta a base stride sig key rd =>
    match rdCheck rd true with
    | .ok (r, x) =>
      some ((rowAddrs base stride x.rows).map (fun ra => (ra, packRow x.fmt ((outRows c a r x sig key).1.getD ra.1 []))))
    | .error _ => none
  | .tspill a base disp =>
    match spillBase base disp with
    | .ok b => some ((rowAddrs b 768 64).map (fun ra => (ra, c.tile.spillRow a ra.1)))
    | .error _ => none
  | _ => none

/-- The execution of a queued tile instruction. [log 35: DEDUCED] -/
def State.tileRun (s : State) (k : Nat) (e : TileEntry) (h : Option (Nat × Finding)) : TileRes :=
  let c := s.core k
  match e.op with
  | .tld t base stride sw =>
    match tswShape sw with
    | some x => runTld s k e.ring h t base stride x
    | none => .fault s (tileConfig 0x12 t) false 0
  | .tst t _ _ _ =>
    match s.storedRows k e with
    | some rows => runStore s k e h rows {}
    | none => .fault s (tileConfig 0x12 t) false 0
  | .tzeroT t => .done (s.modTile k (fun u => { u with regs := u.regs.filter (fun r => r.1 / 4096 != t) })) {}
  | .tzeroA a => .done (s.modTile k (fun u => { u with acc := u.acc.filter (fun r => r.1 / 4096 != a) })) {}
  | .tmma a ta tb swa swb pd =>
    match tswShape swa, tswShape swb with
    | some xa, some xb => runTmma s k a ta tb xa xb pd
    | _, _ => .fault s (tileConfig 0x12 0) false 0
  | .tsta a _ _ sig key rd =>
    match rdCheck rd true with
    | .ok (r, x) => runStore s k e h ((s.storedRows k e).getD []) (outRows c a r x sig key).2
    | .error f => .fault s f false 0
  | .tcva td a sw sig key rd =>
    match rdCheck rd false, tswShape sw with
    | .ok (r, _), some x =>
      let o := outRows c a r x sig key
      .done (s.modTile k (fun u => u.putRows td 0 (o.1.map (packRow x.fmt)))) o.2
    | _, _ => .fault s tileDesc false 0
  | .tspill _ base disp =>
    match spillBase base disp with
    | .error f => rowFail s 0 f true
    | .ok _ => runStore s k e h ((s.storedRows k e).getD []) {}
  | .tfill a base disp =>
    match spillBase base disp with
    | .error f => rowFail s 0 f false
    | .ok b =>
      match s.readRows k e.ring 768 h (rowAddrs b 768 64) with
      | .ok rows s' => fillDone s' k a rows
      | .fault r f s' => rowFail s' r f false
      | .lost s' => .lost s'

/-! ### Completion and faults -/

/-- TU_NANPOS as a word. -/
def TuNan.word (n : TuNan) : Word :=
  place n.i 6 0 ||| place n.j 6 6 ||| flagAt n.dst 12 ||| place n.acc 1 13 ||| place n.iaddr 48 16

/-- Whether conditions meet their enables. -/
def Conds.meets (c te : Conds) : Bool :=
  (c.nx && te.nx) || (c.uf && te.uf) || (c.of && te.of) || (c.nv && te.nv) || (c.dz && te.dz)

/-- What a completion records and raises (R91 to R93). [log 34: DEDUCED] -/
def Core.tileRecord (c : Core) (e : TileEntry) (r : TileRec) : Core :=
  let t := c.tile
  let pos : TuNan := match r.nan with
    | some (i, j, d, a) => { i := i, j := j, dst := d, acc := a, iaddr := e.iaddr.toNat }
    | none => t.nanpos
  let t1 : Tile := { t with conds := t.conds.or r.conds, aovf0 := t.aovf0 || r.sat == some 0,
                            aovf1 := t.aovf1 || r.sat == some 1, nanf := t.nanf || r.nan.isSome, nanpos := pos,
                            queue := t.queue.tail }
  let kind : EvKind := if c.preciseM then .precise else .imprecise
  let c1 := { c with tile := t1 }
  if r.nan.isSome && t.nanen then
    { c1 with pendNan := c1.pendNan ++
        [{ ev := { code := 0x0C, cause := 1, kind := kind, iaddr := e.iaddr, info0 := pos.word }, stamp := e.stamp }] }
  else if r.conds.meets t.te || (r.sat.isSome && t.teAovf) then
    { c1 with pendArith := c1.pendArith ++
        [{ ev := { code := 0x0B, cause := 1, kind := kind, iaddr := e.iaddr }, stamp := e.stamp }] }
  else c1

/-- An executing store has put the first n of its rows in place (R90): it stays at the head of its queue, where a trap,
interrupt or gate may freeze it, and its next run writes every row again. -/
def State.tilePart (s : State) (k : Nat) (e : TileEntry) (n : Nat) (h : Option (Nat × Finding)) : State :=
  match s.storedRows k e with
  | none => s
  | some rows =>
    match s.writeRows k e.ring e.stamp h (rows.take n) with
    | .ok _ s' => s'
    | .fault _ _ _ => s
    | .lost s' => (s'.modTile k (fun t => { t with stopped := true })).stopCore k

/-- TILE_INSTRUCTION_COMPLETE: the oldest queued instruction executes and completes, or has come as far as its
first n stored rows. Nothing happens where it would fault. [log 35: DEDUCED; log 36: DESIGN CHOICE] -/
def execTileInstructionComplete (k : CoreId) (h : TileRun) (s : State) : Out :=
  let c := s.core k.val
  match c.tile.queue with
  | [] => .next s
  | e :: _ =>
    if c.run != .running || c.tile.stopped || c.tileWaits e then .next s
    else match h.rows with
    | some n => .next (s.tilePart k.val e n h.found)
    | none =>
      match s.tileRun k.val e h.found with
      | .done s' r => .next (s'.modCore k.val (fun c => c.tileRecord e r))
      | .fault _ _ _ _ => .next s
      | .lost s' => .next ((s'.modTile k.val (fun t => { t with stopped := true })).stopCore k.val)

/-- The fault of an executing instruction (R88): TU_FINFO, TU_FADDR for a row, and the deferred event. -/
def Core.tileFault (c : Core) (e : TileEntry) (f : TileFail) (wr : Bool) (addr : Nat) : Core :=
  let fi : TuFault := { cause := f.cause, idx := f.idx, wr := wr, iaddr := e.iaddr.toNat,
                        addr := if f.code = 0x0A then addr else c.tile.finfo.addr }
  { c with tile := { c.tile with finfo := fi, stopped := true },
           pendDef := c.pendDef ++
             [{ ev := { code := f.code, cause := f.cause, kind := .deferred, iaddr := e.iaddr,
                        faddr := if f.code = 0x0A then BitVec.ofNat 64 addr else 0,
                        info0 := if f.code = 0x0A then fi.word else 0 },
                stamp := e.stamp }] }

/-- TILE_EXECUTION_FAULT (R88): the oldest queued instruction meets the fault its execution finds; rows that
a store wrote before stay. Nothing happens where it would complete. -/
def execTileExecutionFault (k : CoreId) (s : State) : Out :=
  let c := s.core k.val
  match c.tile.queue with
  | [] => .next s
  | e :: _ =>
    if c.run != .running || c.tile.stopped || c.tileWaits e then .next s
    else match s.tileRun k.val e none with
      | .fault s' f wr addr => .next (s'.modCore k.val (fun c => c.tileFault e f wr addr))
      | _ => .next s

/-! ### Issue -/

/-- The word of an optional shape prefix. -/
def shpNat (x : Option (BitVec 24)) : Option Nat := x.map (·.toNat)

/-- R73: whether TCFG accepts a popped word for a register. -/
def tcfgOk (w : Word) : Bool := w == 0 || (decide (w.toNat < 2 ^ 24) && (tswShape w.toNat).isSome)

/-- The registers a mask names, lowest first. -/
def maskRegs (m : BitVec 8) : List Nat := (List.range 8).filter (fun i => m.getLsbD i)

/-- R73: TCFG. -/
def execTcfg (k : CoreId) (mask : BitVec 8) (s : State) : Out :=
  let i : Instr := .tcfg k mask
  let b := instrBytes i
  let rs := maskRegs mask
  coreInstr k { bytes := b, pops := rs.length, illegal := notOnMaltster k }
    (fun s =>
      let t := (s.core k.val).tile
      if !t.frozen.isEmpty then .next (s.tileIssueFault k.val (tileConfig 0x16 0))
      else if !t.queue.isEmpty then .next (s.waitAt k.val i)
      else
        let ws := rs.zip (s.tops k.val rs.length)
        match ws.find? (fun x => !tcfgOk x.2) with
        | some x => .next (s.tileIssueFault k.val (tileConfig 0x12 x.1))
        | none =>
          .next (((s.stackEffect k.val .data rs.length []).modTile k.val (fun t =>
            { t with shapes := ws.foldl (fun m x => mput m x.1 x.2.toNat) t.shapes })).advance k.val b.length)) s

/-- R77, R78: TLD. -/
def execTld (k : CoreId) (t : Fin 8) (d : Disp) (shp : Option (BitVec 24)) (s : State) : Out :=
  tileIssue k (.tld k t d shp) (some d) true shp.toList 2 (fun c ops =>
    match c.shapeCheck t.val (shpNat shp) with
    | .error f => .error f
    | .ok _ => .ok (.tld t.val (effAddr (nth ops 1) d) (nth ops 0) (c.shapeWord t.val (shpNat shp)))) s

/-- R77, R78: TST. -/
def execTst (k : CoreId) (t : Fin 8) (d : Disp) (shp : Option (BitVec 24)) (s : State) : Out :=
  tileIssue k (.tst k t d shp) (some d) true shp.toList 2 (fun c ops =>
    match c.shapeCheck t.val (shpNat shp) with
    | .error f => .error f
    | .ok _ => .ok (.tst t.val (effAddr (nth ops 1) d) (nth ops 0) (c.shapeWord t.val (shpNat shp)))) s

/-- R77, R86: TZERO. -/
def execTzero (k : CoreId) (t : TZeroTarget) (s : State) : Out :=
  tileIssue k (.tzero k t) none false [] 0 (fun _ _ =>
    .ok (match t with | .tile t => .tzeroT t.val | .acc a => .tzeroA a.val)) s

/-- R77, R80, R81: TMMA. -/
def execTmma (k : CoreId) (acc : Fin 2) (ta : Fin 8) (tb : Fin 8) (shp : Option (BitVec 24 × BitVec 24)) (s : State) : Out :=
  let sa := shp.map (fun x => x.1.toNat)
  let sb := shp.map (fun x => x.2.toNat)
  tileIssue k (.tmma k acc ta tb shp) none true (match shp with | some x => [x.1, x.2] | none => []) 1 (fun c ops =>
    match c.shapeCheck ta.val sa, c.shapeCheck tb.val sb with
    | .error f, _ => .error f
    | _, .error f => .error f
    | .ok a, .ok b =>
      match mmaCheck a b (nth ops 0) with
      | some f => .error f
      | none => .ok (.tmma acc.val ta.val tb.val (c.shapeWord ta.val sa) (c.shapeWord tb.val sb) (nth ops 0))) s

/-- R77, R84, R85: TSTA. -/
def execTsta (k : CoreId) (acc : Fin 2) (d : Disp) (s : State) : Out :=
  tileIssue k (.tsta k acc d) (some d) false [] 5 (fun _ ops =>
    match rdCheck (nth ops 0) true with
    | .error f => .error f
    | .ok _ => .ok (.tsta acc.val (effAddr (nth ops 4) d) (nth ops 3) (nth ops 2) (nth ops 1) (nth ops 0))) s

/-- R77, R84, R85: TCVA. -/
def execTcva (k : CoreId) (td : Fin 8) (acc : Fin 2) (shp : Option (BitVec 24)) (s : State) : Out :=
  tileIssue k (.tcva k td acc shp) none true shp.toList 3 (fun c ops =>
    match c.shapeCheck td.val (shpNat shp) with
    | .error f => .error f
    | .ok x =>
      if 64 < x.cols || x.fmt == .e8m0 then .error (tileConfig 0x18 td.val)
      else match rdCheck (nth ops 0) false with
        | .error f => .error f
        | .ok _ => .ok (.tcva td.val acc.val (c.shapeWord td.val (shpNat shp)) (nth ops 2) (nth ops 1) (nth ops 0))) s

/-- R77, R86: TSPILL. [log 33: DEDUCED] -/
def execTspill (k : CoreId) (acc : Fin 2) (d : Disp) (s : State) : Out :=
  tileIssue k (.tspill k acc d) (some d) false [] 1 (fun _ ops =>
    .ok (.tspill acc.val (nth ops 0) (dispVal d))) s

/-- R77, R86: TFILL. [log 33: DEDUCED] -/
def execTfill (k : CoreId) (acc : Fin 2) (d : Disp) (s : State) : Out :=
  tileIssue k (.tfill k acc d) (some d) false [] 1 (fun _ ops =>
    .ok (.tfill acc.val (nth ops 0) (dispVal d))) s

/-- R76: TSYNC waits until the tile queue is empty. -/
def execTsync (k : CoreId) (s : State) : Out :=
  let i : Instr := .tsync k
  let b := instrBytes i
  coreInstr k { bytes := b, illegal := notOnMaltster k }
    (fun s =>
      if (s.core k.val).tile.queue.isEmpty then .next (s.advance k.val b.length) else .next (s.waitAt k.val i)) s

end Sys2Proof.Machine
end

