-- ==== Sys2Proof/Machine/Vector.lean ====
section
/-!
DEFINITION. The vector stream unit at work (spec 05): issue of VEXEC and VCACHE (R96, R100, R109), the
operations on streams (R99, R101 to R108), completion (R113, R114) and execution faults (R112).
-/
namespace Sys2Proof.Machine
open Sys2Proof

def State.modVsu (s : State) (k : Nat) (f : Vsu → Vsu) : State := s.modCore k (fun c => { c with vsu := f c.vsu })

/-! ### Reading and writing stream elements (R99) -/

/-- The outcome of an access by the unit. -/
inductive VRes (α : Type) where
  | ok (x : α) (s : State)
  | fault (f : VecFault)
  | lost (s : State)

/-- Whether a physical byte lies in the core's own scratchpad or its cluster's tun (R96, R99). -/
def ownPlace (k pa : Nat) : Bool :=
  match placeOf pa with
  | .tun c _ => c == clusterOf k
  | .spad k' _ => k' == k
  | _ => false

/-- The physical addresses of n bytes that the unit reaches, or the failed access: PAGE_FAULT, ACCESS_FAULT,
or ACCESS_FAULT with cause PLACE (R99, R182). -/
def vecXlate (s : State) (k : Nat) (ring : Fin 4) (kind : AccKind) (va n : Nat) : Except AFault (List Nat) :=
  match coreXlateN s k ring kind va n with
  | .error f => .error f
  | .ok ts =>
    let ok (t : Target) : Bool := match t with
      | .phys pa _ => ownPlace k pa
      | .remote _ _ _ _ => false
    match (List.range n).find? (fun i => !(ts[i]?.map ok).getD false) with
    | some i => .error ⟨6, 8, va + i⟩
    | none => .ok (physAddrs ts)

/-- VSU_FINFO.CAUSE of a failed access. -/
def finfoCause (f : AFault) : Nat := if f.code = 5 then 1 else if f.code = 6 then 2 else 3

def AFault.vec (f : AFault) (stream : Nat) (wr : Bool) (row col : Nat) : VecFault :=
  { code := f.code, evCause := f.cause, cause := finfoCause f, stream := stream, wr := wr, row := row, col := col,
    addr := f.addr }

/-- Where element (r, c) of a memory or operand-cache stream lies: its first byte and the bit it starts at. [log 37: DEDUCED] -/
def VStream.place (x : VStream) (r c : Nat) : Nat × Nat :=
  if x.xpose then (((x.base : Int) + c * x.rstride + (r * (x.fmt.width / 8) : Nat)).toNat, 0)
  else (((x.base : Int) + r * x.rstride + (c * x.fmt.width / 8 : Nat)).toNat, c * x.fmt.width % 8)

/-- The bytes an element of w bits at a bit offset spans. -/
def elemBytes (w b : Nat) : Nat := (b + w + 7) / 8

/-- A read of the operand cache (R110): an uncorrectable error is detected in the core. The state, and whether the
read delivers its data. -/
def State.cacheRead (s : State) (k : Nat) (h : Ecc) : State × Bool :=
  if h = .uncorrectable then (s.detect { source := 0x02, ukind := 1, unit := k, master := k, addr := 0 }, false)
  else (s, true)

/-- One element of an input stream: its code; `h` is what the array behind it reports. [log 44: DESIGN CHOICE] -/
def State.vread (s : State) (k : Nat) (ring : Fin 4) (h : Ecc) (i : Nat) (x : VStream) (r c : Nat) : VRes Nat :=
  let w := x.fmt.width
  let u := s.core k
  match x.src with
  | 4 => .ok (x.base % 2 ^ w) s
  | 3 => .ok (if x.xpose then rowElem x.fmt (u.tile.row (x.base % 8) c) r
              else rowElem x.fmt (u.tile.row (x.base % 8) r) c) s
  | 2 =>
    let p := x.place r c
    let e := s.cacheRead k h
    if e.2 then .ok (leNat ((List.range (elemBytes w p.2)).map (fun j => mget 0 u.vsu.cache (p.1 + j))) / 2 ^ p.2 % 2 ^ w) e.1
    else .lost e.1
  | _ =>
    let p := x.place r c
    match vecXlate s k ring .read p.1 (elemBytes w p.2) with
    | .error f => .fault (f.vec i false r c)
    | .ok pas =>
      let e := s.eccSpan pas k h
      if e.2 then .ok (leNat (pas.map e.1.getByte) / 2 ^ p.2 % 2 ^ w) e.1 else .lost e.1

/-- The protected accesses that reads of elements make. -/
def vAccesses (rs : List (Nat × VStream × Nat × Nat)) : Nat := (rs.map (fun e => e.2.1.arrayReads)).sum

/-- Elements of several streams in order. -/
def State.vreads (s : State) (k : Nat) (ring : Fin 4) (h : Hit) :
    List (Nat × VStream × Nat × Nat) → VRes (List Nat)
  | [] => .ok [] s
  | (i, x, r, c) :: rest =>
    match s.vread k ring (if x.arrayReads = 0 then .clean else h.now) i x r c with
    | .fault f => .fault f
    | .lost s' => .lost s'
    | .ok v s1 =>
      match s1.vreads k ring (h.skip x.arrayReads) rest with
      | .ok vs s2 => .ok (v :: vs) s2
      | y => y

/-- The low bits of a byte list replaced from bit b on by w bits of a code. -/
def patchBits (old : List Byte) (b w code : Nat) (clear : Bool) : List Byte :=
  let o := leNat old
  let low := o % 2 ^ b
  let high := if clear then 0 else o / 2 ^ (b + w) * 2 ^ (b + w)
  leBytes old.length (high + code % 2 ^ w * 2 ^ b + low)

/-- One element of D written; the last element of a row of narrow elements clears the row's unused bits
(R30). `cols` is the number of elements in a row of D. A write of a part of an entry reads it, with what the array
reports (R136). [log 37: DEDUCED] -/
def State.vwrite (s : State) (k : Nat) (ring : Fin 4) (h : Ecc) (x : VStream) (cols r c code : Nat) : VRes Unit :=
  let w := x.fmt.width
  let p := x.place r c
  let last : Bool := decide (w < 8) && decide (c + 1 = cols) && !x.xpose
  let n := min (if last then x.fmt.packedBytes cols - c * w / 8 else elemBytes w p.2) ((if x.src = 2 then 65536 else 2 ^ 48) - p.1)
  if x.src = 2 then
    let e := if p.1 % 16 = 0 ∧ n = 16 then (s, true) else s.cacheRead k h
    if !e.2 then .lost e.1
    else
    let old := (List.range n).map (fun j => mget 0 (s.core k).vsu.cache (p.1 + j))
    let new := patchBits old p.2 w code last
    .ok () (e.1.modVsu k (fun u =>
      { u with cache := (List.range n).foldl (fun m j => mput m (p.1 + j) (new.getD j 0)) u.cache }))
  else
    match vecXlate s k ring .write p.1 n with
    | .error f => .fault (f.vec 0 true r c)
    | .ok pas =>
      let e := s.writeCells (pas.zip (patchBits (pas.map s.getByte) p.2 w code last)) k h
      if e.2 then .ok () e.1 else .lost e.1

/-! ### The executing instruction -/

/-- The head of the queue changed. -/
def Vsu.modHead (u : Vsu) (f : VecEntry → VecEntry) : Vsu :=
  match u.queue with
  | [] => u
  | e :: rest => { u with queue := f e :: rest }

/-- Conditions, and the first NaN in row-major order of D positions (R114), joined to what an instruction has
produced. [log 43: DEDUCED] -/
def VecAcc.add (a : VecAcc) (o : VOut) (r c : Nat) : VecAcc :=
  { a with conds := a.conds.or o.conds,
           nan := match a.nan, o.nan with
             | some n, some g => if r < n.1 || (r == n.1 && decide (c < n.2.1)) then some (r, c, g) else some n
             | some n, none => some n
             | none, some g => some (r, c, g)
             | none, none => none }

/-- The head of a core's vector queue, where it can execute: the core runs, nothing of it is stopped or
done, and tile instructions issued before it have completed where it reads a tile register (R76). A restarted VEXEC
is judged by the descriptor that it reads again (R111). -/
def State.vecHead (s : State) (k : Nat) : Option VecEntry :=
  let c := s.core k
  match c.vsu.queue with
  | [] => none
  | e :: _ =>
    let waits : Bool := !e.reread && !e.tiles.isEmpty
      && (c.tile.queue ++ c.tile.frozen).any (fun t => decide (t.stamp < e.stamp))
    if c.run == .running && !c.vsu.stopped && !e.done && e.fault.isNone && !waits then some e else none

/-- The head meets a fault; its progress stands. -/
def State.vecFail (s : State) (k : Nat) (f : VecFault) : State :=
  s.modVsu k (fun u => u.modHead (fun e => { e with fault := some f }))

/-- An uncorrectable error ends the operation with its core (R136). -/
def State.vecLost (s : State) (k : Nat) : State :=
  (s.modVsu k (fun u => { u with stopped := true })).stopCore k

/-- The descriptor at a virtual address, in the issuing ring: the bytes, with the state that their read leaves and
whether it delivers them (R136). -/
def State.vecFetch (s : State) (k : Nat) (ring : Fin 4) (a : Word) (h : Ecc) : Except AFault (State × Bool × List Byte) :=
  if a.toNat % 16 ≠ 0 then .error ⟨4, 0, a.toNat⟩
  else match vecXlate s k ring .read a.toNat 96 with
    | .error f => .error f
    | .ok pas => .ok ((s.eccSpan pas k h).1, (s.eccSpan pas k h).2, pas.map s.getByte)

/-- R111: a restarted VEXEC executes the descriptor that it reads at restart; one that can no longer be
fetched, or fails R100, is a fault of the execution. [log 40: DEDUCED] -/
def State.vecReread (s : State) (k : Nat) (e : VecEntry) (h : Ecc) : VRes Unit :=
  match e.op, e.reread with
  | .vexec a, true =>
    match s.vecFetch k e.ring a h with
    | .error f => .fault (f.vec vFetchStream false 0 0)
    | .ok (s1, false, _) => .lost s1
    | .ok (s1, true, bs) =>
      match vecCheck bs with
      | some (cause, st) =>
        .fault { code := 0x0F, evCause := cause, cause := cause, stream := st, wr := false, row := 0, col := 0, addr := 0 }
      | none => .ok () (s1.modVsu k (fun u => u.modHead (fun e => { e with desc := bs, reread := false })))
  | _, _ => .ok () (s.modVsu k (fun u => u.modHead (fun e => { e with reread := false })))

/-- The instruction that the head of the queue runs next, once a restart has read its descriptor again: it waits where
that names a tile register still to be written (R76, R111). -/
def State.vecBegin (s : State) (k : Nat) (op : Nat) (h : Hit) (run : State → VecEntry → Hit → State) : State :=
  match s.vecHead k with
  | none => s
  | some e =>
    match e.op with
    | .vcache _ _ _ _ => s
    | .vexec _ =>
      match s.vecReread k e h.now with
      | .fault f => s.vecFail k f
      | .lost s' => s'.vecLost k
      | .ok _ s1 =>
        match s1.vecHead k with
        | none => s1
        | some e1 => if (vhead e1.desc).op = op then run s1 e1 (if e.reread then h.next else h) else s

/-- The rounding of the output at a position of D (R101). -/
def outRnd (h : VHead) (seed : Word) (r c : Nat) : Rnd :=
  ⟨(RMode.ofCode h.rm).getD .rne, h.nosat,
   draw32 seed h.tid ((h.u0 + r) % 2 ^ 24) ((h.v0 + c) % 2 ^ 24)⟩

/-! ### Element-wise operations -/

/-- Up to n further outputs of the element-wise operation at the head of the queue, which is done when its last is
in place. -/
def State.vecElems (s : State) (k : Nat) (h : Hit) : Nat → State
  | 0 => s
  | n + 1 =>
    match (s.core k).vsu.queue with
    | [] => s
    | e :: _ =>
      let hd := vhead e.desc
      let d := vstream e.desc 0
      let ins := ((List.range 5).filter (fun i => i != 0 && hd.uses i)).map (fun i => (i, vstream e.desc i))
      let r := e.progress / hd.cols
      let c := e.progress % hd.cols
      let reads := ins.map (fun x => (x.1, x.2, r, c))
      if hd.rows * hd.cols ≤ e.progress then s.modVsu k (fun u => u.modHead (fun e => { e with done := true }))
      else match s.vreads k e.ring h reads with
        | .fault f => s.vecFail k f
        | .lost s' => s'.vecLost k
        | .ok cs s1 =>
          let o := elemOut hd.op d (ins.map (·.2)) (outRnd hd (s1.core k).seed r c) cs
          match s1.vwrite k e.ring (h.skip (vAccesses reads)).now d hd.cols r c o.code with
          | .fault f => s1.vecFail k f
          | .lost s' => s'.vecLost k
          | .ok _ s2 =>
            (s2.modVsu k (fun u => u.modHead (fun e =>
              { e with progress := e.progress + 1, acc := e.acc.add o r c,
                       done := decide (hd.rows * hd.cols ≤ e.progress + 1) }))).vecElems k (h.skip (vAccesses reads + 1)) n

/-- An element-wise operation of the head of the queue produces up to n further outputs (R101, R111). [log 36: DESIGN CHOICE] -/
def elemCommand (k : Nat) (op n : Nat) (h : Hit) (s : State) : Out :=
  .next (s.vecBegin k op h (fun s _ h => s.vecElems k h n))

/-! ### Reductions and scans -/

/-- The outputs written in order; a fault stops there, and what was written stays (R111). -/
def State.vecWrites (s : State) (k : Nat) (ring : Fin 4) (h : Hit) (d : VStream) (cols : Nat) :
    List ((Nat × Nat) × VOut) → VRes Unit
  | [] => .ok () s
  | (p, o) :: rest =>
    match s.vwrite k ring h.now d cols p.1 p.2 o.code with
    | .fault f => .fault f
    | .lost s' => .lost s'
    | .ok _ s1 => s1.vecWrites k ring h.next d cols rest

/-- Outputs before the one that faults, written. -/
def State.vecBefore (s : State) (k : Nat) (ring : Fin 4) (h : Hit) (d : VStream) (cols : Nat) :
    List ((Nat × Nat) × VOut) → State
  | [] => s
  | (p, o) :: rest =>
    match s.vwrite k ring h.now d cols p.1 p.2 o.code with
    | .ok _ s1 => s1.vecBefore k ring h.next d cols rest
    | _ => s

/-- The positions of a rows × cols grid in row-major order for stream i. -/
def gridReads (i : Nat) (x : VStream) (rows cols : Nat) : List (Nat × VStream × Nat × Nat) :=
  (grid rows cols).map (fun p => (i, x, p.1, p.2))

/-- The segment lengths that S1's codes give, or where length mode fails (R106). -/
def segLens (h : VHead) (x : VStream) (codes : List Nat) : Except Nat (List Nat) :=
  if h.segm then
    let ls := codes.map (fun c => signedOf 32 c)
    match lensFault (h.rows * h.cols) 0 0 ls with
    | some i => .error i
    | none => .ok (ls.map Int.toNat)
  else .ok (headLens (codes.map (fun c => selTakes (decodeCode x.fmt 0 c))))

/-- The whole of a reduction or scan at the head of the queue (R104 to R108). S0 is read before S1, so that a fault
of S0 stands before one of S1 and before SEGLEN. [log 39: DEDUCED; log 128: DEDUCED] -/
def State.vecFold (s : State) (k : Nat) (e : VecEntry) (h : Hit) : State :=
  let hd := vhead e.desc
  let d := vstream e.desc 0
  let s0 := vstream e.desc 1
  let s1d := hd.view 2 (vstream e.desc 2)
  let terms0 := gridReads 1 s0 hd.rows hd.cols
  let red : Bool := match vop hd.op with | some (.red, _) => true | _ => false
  match s.vreads k e.ring h terms0 with
  | .fault f => s.vecFail k f
  | .lost s' => s'.vecLost k
  | .ok codes s1 =>
    let marks := if hd.seg then gridReads 2 s1d (hd.dims 2).1 (hd.dims 2).2 else []
    let h1 := h.skip (vAccesses terms0)
    match s1.vreads k e.ring h1 marks with
    | .fault f => s1.vecFail k f
    | .lost s' => s'.vecLost k
    | .ok ms s2 =>
      match segLens hd s1d ms with
      | .error i =>
        s2.vecFail k { code := 0x0F, evCause := vSeglen, cause := vSeglen, stream := 2, wr := false, row := 0, col := i, addr := 0 }
      | .ok lens =>
        let terms := if hd.seg then segTerms hd red codes lens else plainTerms hd red codes
        let outs := terms.map (fun t => (t.1, foldOut hd.op d s0 (outRnd hd (s2.core k).seed t.1.1 t.1.2) t.2))
        let cols := if red && hd.seg then outs.length else (hd.dims 0).2
        let h2 := h1.skip (vAccesses marks)
        match s2.vecWrites k e.ring h2 d cols outs with
        | .fault f => (s2.vecBefore k e.ring h2 d cols outs).vecFail k f
        | .lost s' => s'.vecLost k
        | .ok _ s3 =>
          s3.modVsu k (fun u => u.modHead (fun e =>
            { e with acc := { outs.foldl (fun (a : VecAcc) o => a.add o.2 o.1.1 o.1.2) {} with
                                segcnt := if hd.seg then some lens.length else none },
                     done := true }))

/-- The reduction or scan at the head of the queue runs. -/
def foldCommand (k : Nat) (op : Nat) (h : Hit) (s : State) : Out :=
  .next (s.vecBegin k op h (fun s e h => s.vecFold k e h))

/-! ### Operand-cache directives (R109) -/

/-- Block b of a directive: 64 bytes. -/
def State.vecBlock (s : State) (k : Nat) (ring : Fin 4) (h : Ecc) (base : Word) (off dir b : Nat) : VRes Unit :=
  let a := base.toNat + 64 * b
  let o := off + 64 * b
  let setCache (s : State) (bs : List Byte) : State :=
    s.modVsu k (fun u => { u with cache := (List.range 64).foldl (fun m j => mput m (o + j) (bs.getD j 0)) u.cache })
  match dir with
  | 2 => .ok () (setCache s [])
  | 0 =>
    match vecXlate s k ring .read a 64 with
    | .error f => .fault (f.vec vCacheStream false 0 b)
    | .ok pas =>
      let e := s.eccSpan pas k h
      if e.2 then .ok () (setCache e.1 (pas.map e.1.getByte)) else .lost e.1
  | _ =>
    match vecXlate s k ring .write a 64 with
    | .error f => .fault (f.vec vCacheStream true 0 b)
    | .ok pas =>
      let e := s.cacheRead k h
      if e.2 then .ok () (e.1.placeCells (pas.zip ((List.range 64).map (fun j => mget 0 (s.core k).vsu.cache (o + j)))) k)
      else .lost e.1

/-- Up to n further blocks of the directive at the head of the queue. -/
def State.vecBlocks (s : State) (k : Nat) (ring : Fin 4) (h : Hit) (base : Word) (off len dir : Nat) : Nat → State
  | 0 => s
  | m + 1 =>
    match (s.core k).vsu.queue with
    | [] => s
    | e :: _ =>
      if len ≤ 64 * e.progress then s
      else match s.vecBlock k ring h.now base off dir e.progress with
        | .fault f => s.vecFail k f
        | .lost s' => s'.vecLost k
        | .ok _ s1 =>
          (s1.modVsu k (fun u => u.modHead (fun e => { e with progress := e.progress + 1 }))).vecBlocks
            k ring h.next base off len dir m

/-- A directive is done when its last block is; one of no length at once. -/
def State.vecBlocksDone (s : State) (k len : Nat) : State :=
  s.modVsu k (fun u => u.modHead (fun e => if len ≤ 64 * e.progress then { e with done := true } else e))

/-- The directive at the head of the queue moves up to n further blocks. -/
def cacheCommand (k : Nat) (dir n : Nat) (h : Hit) (s : State) : Out :=
  match s.vecHead k with
  | none => .next s
  | some e =>
    match e.op with
    | .vexec _ => .next s
    | .vcache base off len d => if d = dir then .next ((s.vecBlocks k e.ring h base off len dir n).vecBlocksDone k len) else .next s

/-- R109: FILL copies bytes from memory into the cache. -/
def execVcacheFill (k : CoreId) (n : Nat) (h : Hit) (s : State) : Out := cacheCommand k.val 0 n h s
/-- R109: WBACK copies bytes from the cache to memory. -/
def execVcacheWback (k : CoreId) (n : Nat) (h : Hit) (s : State) : Out := cacheCommand k.val 1 n h s
/-- R109: ZERO clears bytes of the cache. -/
def execVcacheZero (k : CoreId) (n : Nat) (h : Hit) (s : State) : Out := cacheCommand k.val 2 n h s

/-- R102: CVT. -/
def execVCvt (k : CoreId) (n : Nat) (h : Hit) (s : State) : Out := elemCommand k.val 0x01 n h s
/-- R102: ADD. -/
def execVAdd (k : CoreId) (n : Nat) (h : Hit) (s : State) : Out := elemCommand k.val 0x02 n h s
/-- R102: SUB. -/
def execVSub (k : CoreId) (n : Nat) (h : Hit) (s : State) : Out := elemCommand k.val 0x03 n h s
/-- R102: MUL. -/
def execVMul (k : CoreId) (n : Nat) (h : Hit) (s : State) : Out := elemCommand k.val 0x04 n h s
/-- R102: FMA. -/
def execVFma (k : CoreId) (n : Nat) (h : Hit) (s : State) : Out := elemCommand k.val 0x05 n h s
/-- R102: AXPBY. -/
def execVAxpby (k : CoreId) (n : Nat) (h : Hit) (s : State) : Out := elemCommand k.val 0x06 n h s
/-- R102: MAX. -/
def execVMax (k : CoreId) (n : Nat) (h : Hit) (s : State) : Out := elemCommand k.val 0x07 n h s
/-- R102: MIN. -/
def execVMin (k : CoreId) (n : Nat) (h : Hit) (s : State) : Out := elemCommand k.val 0x08 n h s
/-- R102: ABS. -/
def execVAbs (k : CoreId) (n : Nat) (h : Hit) (s : State) : Out := elemCommand k.val 0x09 n h s
/-- R102: NEG. -/
def execVNeg (k : CoreId) (n : Nat) (h : Hit) (s : State) : Out := elemCommand k.val 0x0A n h s
/-- R102: SEL. -/
def execVSel (k : CoreId) (n : Nat) (h : Hit) (s : State) : Out := elemCommand k.val 0x0B n h s
/-- R102: DIV. -/
def execVDiv (k : CoreId) (n : Nat) (h : Hit) (s : State) : Out := elemCommand k.val 0x0C n h s
/-- R102: SQRT. -/
def execVSqrt (k : CoreId) (n : Nat) (h : Hit) (s : State) : Out := elemCommand k.val 0x0D n h s
/-- R102: RSQRT. -/
def execVRsqrt (k : CoreId) (n : Nat) (h : Hit) (s : State) : Out := elemCommand k.val 0x0E n h s
/-- R102: RCP. -/
def execVRcp (k : CoreId) (n : Nat) (h : Hit) (s : State) : Out := elemCommand k.val 0x0F n h s
/-- R102: EXP2. -/
def execVExp2 (k : CoreId) (n : Nat) (h : Hit) (s : State) : Out := elemCommand k.val 0x10 n h s
/-- R102: LOG2. -/
def execVLog2 (k : CoreId) (n : Nat) (h : Hit) (s : State) : Out := elemCommand k.val 0x11 n h s

/-- R104: RSUM. -/
def execVRsum (k : CoreId) (h : Hit) (s : State) : Out := foldCommand k.val 0x20 h s
/-- R104: RMAX. -/
def execVRmax (k : CoreId) (h : Hit) (s : State) : Out := foldCommand k.val 0x21 h s
/-- R104: RMIN. -/
def execVRmin (k : CoreId) (h : Hit) (s : State) : Out := foldCommand k.val 0x22 h s
/-- R104: RAMAX. -/
def execVRamax (k : CoreId) (h : Hit) (s : State) : Out := foldCommand k.val 0x23 h s
/-- R104: RSUMSQ. -/
def execVRsumsq (k : CoreId) (h : Hit) (s : State) : Out := foldCommand k.val 0x24 h s
/-- R105: SCAN. -/
def execVScan (k : CoreId) (h : Hit) (s : State) : Out := foldCommand k.val 0x30 h s
/-- R105: SCANX. -/
def execVScanx (k : CoreId) (h : Hit) (s : State) : Out := foldCommand k.val 0x31 h s
/-- R105: SCANMAX. -/
def execVScanmax (k : CoreId) (h : Hit) (s : State) : Out := foldCommand k.val 0x32 h s
/-- R105: SCANXMAX. -/
def execVScanxmax (k : CoreId) (h : Hit) (s : State) : Out := foldCommand k.val 0x33 h s

/-! ### Completion and faults -/

/-- VSU_NANPOS as a word. [log 43: DEDUCED] -/
def Vsu.nanPosWord (u : Vsu) : Word := place u.nanRow 16 0 ||| place u.nanCol 16 16

/-- What a completed vector instruction records and raises (R113 to R115). VSU_NANINFO and VSU_NANPOS are written also
while NANEN is 0. [log 34: DEDUCED] -/
def Core.vecRecord (c : Core) (e : VecEntry) : Core :=
  let u := c.vsu
  let op := (vhead e.desc).op
  let kind : EvKind := if c.preciseM then .precise else .imprecise
  let u0 : Vsu := { u with conds := u.conds.or e.acc.conds, nanf := u.nanf || e.acc.nan.isSome,
                           segcnt := e.acc.segcnt.getD u.segcnt, queue := u.queue.tail }
  let u1 : Vsu := match e.acc.nan with
    | some (r, col, g) => { u0 with nanOp := op, nanOrigin := g, nanIaddr := e.iaddr.toNat, nanRow := r, nanCol := col }
    | none => u0
  let c1 := { c with vsu := u1 }
  if e.acc.nan.isSome && u.nanen then
    { c1 with pendNan := c1.pendNan ++
        [{ ev := { code := 0x0C, cause := 2, kind := kind, iaddr := e.iaddr, info0 := u1.nanPosWord }, stamp := e.stamp }] }
  else if e.acc.conds.meets u.te then
    { c1 with pendArith := c1.pendArith ++
        [{ ev := { code := 0x0B, cause := 2, kind := kind, iaddr := e.iaddr }, stamp := e.stamp }] }
  else c1

/-- VECTOR_INSTRUCTION_COMPLETE: the head of the queue, every output of which is in place, completes. -/
def execVectorInstructionComplete (k : CoreId) (s : State) : Out :=
  let c := s.core k.val
  match c.vsu.queue with
  | [] => .next s
  | e :: _ =>
    if c.run == .running && !c.vsu.stopped && e.done then .next (s.modCore k.val (fun c => c.vecRecord e)) else .next s

/-- The fault of the head of the queue (R112): VSU_FINFO, VSU_FPOS, VSU_FADDR and the deferred event. A COL of 65,536,
where 65,536 lengths fall short (R106), reads 0 in the 16-bit field. [log 128: DEDUCED] -/
def Core.vecFault (c : Core) (e : VecEntry) (f : VecFault) : Core :=
  let isMem : Bool := f.code != 0x0F
  { c with
      vsu := { c.vsu with stopped := true, fcause := f.cause, fstream := f.stream, fwr := f.wr,
                          fiaddr := e.iaddr.toNat, frow := f.row, fcol := f.col,
                          faddr := if isMem then f.addr else c.vsu.faddr },
      pendDef := c.pendDef ++
        [{ ev := { code := f.code, cause := f.evCause, kind := .deferred, iaddr := e.iaddr,
                   faddr := if isMem then BitVec.ofNat 64 f.addr else 0 },
           stamp := e.stamp }] }

/-- VECTOR_EXECUTION_FAULT: the fault that the head of the queue has met is raised. -/
def execVectorExecutionFault (k : CoreId) (s : State) : Out :=
  let c := s.core k.val
  match c.vsu.queue with
  | [] => .next s
  | e :: _ =>
    match e.fault with
    | none => .next s
    | some f =>
      if c.run == .running && !c.vsu.stopped then .next (s.modCore k.val (fun c => c.vecFault e f)) else .next s

/-! ### Issue -/

/-- A fault found at issue: VSU_FINFO is written and the fault is precise (R100). -/
def State.vecIssueFault (s : State) (k cause stream : Nat) (ev : Ev) : State :=
  let pc := (s.core k).pc
  (s.modVsu k (fun u =>
    { u with fcause := cause, fstream := stream, fwr := false, fiaddr := pc.toNat,
             faddr := if ev.code = 0x0F then u.faddr else ev.faddr.toNat })).raise k ev

/-- DESCRIPTOR_FAULT of the vector unit. -/
def vecDescEv (cause : Nat) : Ev := { code := 0x0F, cause := cause }

def Vsu.depth (u : Vsu) : Nat := match u.iqd with | 0 => 4 | 1 => 2 | _ => 1

/-- A vector instruction enters its queue. -/
def State.vecEnqueue (s : State) (k : Nat) (i : Instr) (pops : Nat) (op : VecOp) (desc : List Byte) : State :=
  let s1 := (s.stackEffect k .data pops []).modCore k (fun c =>
    { c with stamp := c.stamp + 1,
             vsu := { c.vsu with queue := c.vsu.queue ++
               [{ op := op, desc := desc, iaddr := c.pc, ring := c.ring, stamp := c.stamp }] } })
  s1.advance k (instrBytes i).length

/-- R95, R96, R100: VEXEC copies and checks its descriptor and enters the queue. PENDING names the header. [log 32: DEDUCED; log 128: DEDUCED] -/
def execVexec (k : CoreId) (d : DescRead) (s : State) : Out :=
  let i : Instr := .vexec k d
  coreInstr k { bytes := instrBytes i, pops := 1, illegal := notOnMaltsterM k d.disp }
    (fun s =>
      let u := (s.core k.val).vsu
      if !u.frozen.isEmpty then .next (s.vecIssueFault k.val vPending vHeaderStream (vecDescEv vPending))
      else if u.depth ≤ u.queue.length then .next (s.waitAt k.val i)
      else
        let a := effAddr (nth (s.tops k.val 1) 0) d.disp
        match s.vecFetch k.val (s.core k.val).ring a d.hit.now with
        | .error f => .next (s.vecIssueFault k.val (finfoCause f) vFetchStream f.ev)
        | .ok (s1, false, _) => .next (s1.stopCore k.val)
        | .ok (s1, true, bs) =>
          match vecCheck bs with
          | some (cause, st) => .next (s1.vecIssueFault k.val cause st (vecDescEv cause))
          | none => .next (s1.vecEnqueue k.val i 1 (.vexec a) bs)) s

/-- The checks of VCACHE at issue (R109): the cause of the first that fails. [log 37: DEDUCED; log 38: DEDUCED] -/
def State.vcacheCheck (s : State) (k : Nat) (base off len dir : Word) : Option Nat :=
  if 3 ≤ dir.toNat then some vReserved
  else if dir = 2 && base != 0 then some vReserved
  else if off.toNat % 64 ≠ 0 || len.toNat % 64 ≠ 0 || 65536 < off.toNat + len.toNat then some vShape
  else if dir = 2 then none
  else if base.toNat % 64 ≠ 0 then some vShape
  else match coreXlate s k (s.core k).ring (if dir = 0 then .read else .write) base.toNat with
    | .ok (.phys pa _) => if ownPlace k pa then none else some vShape
    | _ => some vShape

/-- R95, R96, R109: VCACHE checks its operands and enters the queue. PENDING names the VCACHE operands. [log 32:
DEDUCED; log 128: DEDUCED] -/
def execVcache (k : CoreId) (s : State) : Out :=
  let i : Instr := .vcache k
  coreInstr k { bytes := instrBytes i, pops := 4, illegal := notOnMaltster k }
    (fun s =>
      let u := (s.core k.val).vsu
      let o := s.tops k.val 4
      if !u.frozen.isEmpty then .next (s.vecIssueFault k.val vPending vCacheStream (vecDescEv vPending))
      else if u.depth ≤ u.queue.length then .next (s.waitAt k.val i)
      else match s.vcacheCheck k.val (nth o 3) (nth o 2) (nth o 1) (nth o 0) with
        | some cause => .next (s.vecIssueFault k.val cause vCacheStream (vecDescEv cause))
        | none =>
          .next (s.vecEnqueue k.val i 4
            (.vcache (nth o 3) (nth o 2).toNat (nth o 1).toNat (nth o 0).toNat) [])) s

/-- R95: VSYNC waits until the vector queue is empty and every output of every earlier vector instruction is in place:
frozen ones still have outputs to write. -/
def execVsync (k : CoreId) (s : State) : Out :=
  let i : Instr := .vsync k
  let b := instrBytes i
  coreInstr k { bytes := b, illegal := notOnMaltster k }
    (fun s =>
      if (s.core k.val).vsu.queue.isEmpty && (s.core k.val).vsu.frozen.isEmpty then .next (s.advance k.val b.length) else .next (s.waitAt k.val i)) s

end Sys2Proof.Machine
end

