-- ==== Sys2Proof/Machine/Resume.lean ====
section
/-!
DEFINITION. A waiting instruction goes on (R202, R233).
-/
namespace Sys2Proof.Machine
open Sys2Proof

/-- The instructions that may wait, executed from their start (R202). [log 13: DEDUCED] -/
def resumeWait (i : Instr) (s : State) : Out :=
  match i with
  | .ld8u k d h => execLd8u k d h s
  | .ld8s k d h => execLd8s k d h s
  | .ld16u k d h => execLd16u k d h s
  | .ld16s k d h => execLd16s k d h s
  | .ld32u k d h => execLd32u k d h s
  | .ld32s k d h => execLd32s k d h s
  | .ld64 k d h => execLd64 k d h s
  | .st8 k d h => execSt8 k d h s
  | .st16 k d h => execSt16 k d h s
  | .st32 k d h => execSt32 k d h s
  | .st64 k d h => execSt64 k d h s
  | .stiQ k d v h => execStiQ k d v h s
  | .tcfg k m => execTcfg k m s
  | .tld k t d x => execTld k t d x s
  | .tst k t d x => execTst k t d x s
  | .tzero k t => execTzero k t s
  | .tmma k a ta tb x => execTmma k a ta tb x s
  | .tsta k a d => execTsta k a d s
  | .tspill k a d => execTspill k a d s
  | .tfill k a d => execTfill k a d s
  | .tcva k t a x => execTcva k t a x s
  | .tsync k => execTsync k s
  | .vexec k d => execVexec k d s
  | .vcache k => execVcache k s
  | .vsync k => execVsync k s
  | .dmaq k c => execDmaq k c s
  | .dmaw k c => execDmaw k c s
  | .engq k e => execEngq k e s
  | .engw k e => execEngw k e s
  | .fset k f => execFset k f s
  | .fclr k f => execFclr k f s
  | .ftest k f => execFtest k f s
  | .fwait k f => execFwait k f s
  | .cfinc k c => execCfinc k c s
  | .cfdec k c => execCfdec k c s
  | .cfread k c => execCfread k c s
  | .cfwait k c => execCfwait k c s
  | .rfset k => execRfset k s
  | .rcfinc k => execRcfinc k s
  | .rcfdec k => execRcfdec k s
  | .clfset k f => execClfset k f s
  | .clfclr k f => execClfclr k f s
  | .clftest k f => execClftest k f s
  | .clfwait k f => execClfwait k f s
  | .fenceF k => execFenceF k s
  | .mfence k => execMfence k s
  | .mbpost k ch => execMbpost k ch s
  | .tend k => execTend k s
  | .waiti k => execWaiti k s
  | _ => .next s

/-- WAIT_CONDITION_MET (R202, R233): a waiting instruction takes a pending event, or goes on from its start. A counted
operation presented to its flag goes on when its flag answers. [log 13: DEDUCED] -/
def execWaitConditionMet (k : CoreId) (s : State) : Out :=
  let c := s.core k.val
  match c.waiting with
  | none => .next s
  | some i =>
    if c.run != .running || c.halt || c.presented then .next s
    else match s.takePending k.val .clean with
      | some s' => .next s'
      | none => resumeWait i (s.modCore k.val (fun c => { c with waiting := none }))

end Sys2Proof.Machine
end

