-- ==== Sys2Proof/Machine/Stack.lean ====
section
/-!
DEFINITION. The stack, literal and arithmetic instructions (R196 to R198). Operand lists stand top first:
in ( x y -- z ), y is entry 0 and x entry 1.
-/
namespace Sys2Proof.Machine
open Sys2Proof

/-! ### Values (R196 to R198) -/

/-- 1 when a relation holds, 0 otherwise (R196). -/
def truthWord (b : Bool) : Word := if b then 1 else 0

def popcount (x : Word) : Nat := ((List.range 64).filter (fun i => bit x i)).length

/-- Leading zeros; 64 for 0 (R197). -/
def leadingZeros (x : Word) : Nat := if x = 0 then 64 else 63 - log2 x.toNat

/-- Trailing zeros; 64 for 0 (R197). -/
def trailingZeros (x : Word) : Nat :=
  match (List.range 64).find? (fun i => bit x i) with
  | some i => i
  | none => 64

/-- DIVU (R198). -/
def divU (x y : Word) : Word := if y = 0 then BitVec.allOnes 64 else x / y

/-- REMU (R198). -/
def remU (x y : Word) : Word := if y = 0 then x else x % y

/-- DIVS: the quotient truncated toward zero; −1 for y = 0, −2⁶³ for −2⁶³ ÷ −1 (R198). -/
def divS (x y : Word) : Word := if y = 0 then BitVec.allOnes 64 else BitVec.ofInt 64 (x.toInt.tdiv y.toInt)

/-- REMS: the remainder with the sign of x; x for y = 0 (R198). -/
def remS (x y : Word) : Word := if y = 0 then x else BitVec.ofInt 64 (x.toInt.tmod y.toInt)

/-- ABS: |x|, −2⁶³ for −2⁶³ (R197). -/
def absW (x : Word) : Word := if x.toInt < 0 then -x else x

def mulHiS (x y : Word) : Word := BitVec.ofInt 64 ((x.toInt * y.toInt) / 2 ^ 64)
def mulHiU (x y : Word) : Word := BitVec.ofNat 64 (x.toNat * y.toNat / 2 ^ 64)

def shiftN (n : Word) : Nat := n.toNat % 64

/-! ### Meanings -/

/-- R197: nothing. -/
def execNop (k : CoreId) (s : State) : Out :=
  stackInstr k (.nop k) 0 0 (fun _ => []) s

/-- R197: ( x -- ) -/
def execDrop (k : CoreId) (s : State) : Out :=
  stackInstr k (.drop k) 1 0 (fun _ => []) s

/-- R197: ( x -- x x ) -/
def execDup (k : CoreId) (s : State) : Out :=
  stackInstr k (.dup k) 1 2 (fun st => [nth st 0, nth st 0]) s

/-- R197: ( x y -- y x ) -/
def execSwap (k : CoreId) (s : State) : Out :=
  stackInstr k (.swap k) 2 2 (fun st => [nth st 1, nth st 0]) s

/-- R197: ( x y -- x y x ) -/
def execOver (k : CoreId) (s : State) : Out :=
  stackInstr k (.over k) 2 3 (fun st => [nth st 1, nth st 0, nth st 1]) s

/-- R197: ( x y z -- y z x ) -/
def execRot (k : CoreId) (s : State) : Out :=
  stackInstr k (.rot k) 3 3 (fun st => [nth st 2, nth st 0, nth st 1]) s

/-- R197: ( x y -- y ) -/
def execNip (k : CoreId) (s : State) : Out :=
  stackInstr k (.nip k) 2 1 (fun st => [nth st 0]) s

/-- R197: ( x y -- y x y ) -/
def execTuck (k : CoreId) (s : State) : Out :=
  stackInstr k (.tuck k) 2 3 (fun st => [nth st 0, nth st 1, nth st 0]) s

/-- R197: 2DROP ( x y -- ) -/
def execTwoDrop (k : CoreId) (s : State) : Out :=
  stackInstr k (.twoDrop k) 2 0 (fun _ => []) s

/-- R197: 2DUP ( x y -- x y x y ) -/
def execTwoDup (k : CoreId) (s : State) : Out :=
  stackInstr k (.twoDup k) 2 4 (fun st => [nth st 0, nth st 1, nth st 0, nth st 1]) s

/-- R197: PICK n copies entry n below the top; fewer than n + 1 entries raise STACK_UNDERFLOW. -/
def execPick (k : CoreId) (n : BitVec 8) (s : State) : Out :=
  let b := instrBytes (.pick k n)
  coreInstr k { bytes := b, pushes := 1, reads := n.toNat + 1 }
    (fun s =>
      let x := s.stackEntry k.val (s.core k.val).bank .data n.toNat
      .next ((s.stackEffect k.val .data 0 [x]).advance k.val b.length)) s

/-- R197: >R moves the top to the return stack. -/
def execToR (k : CoreId) (s : State) : Out :=
  let b := instrBytes (.toR k)
  coreInstr k { bytes := b, pops := 1, rpushes := 1 }
    (fun s =>
      let x := nth (s.tops k.val 1) 0
      .next (((s.stackEffect k.val .data 1 []).stackEffect k.val .ret 0 [x]).advance k.val b.length)) s

/-- R197: R> moves the top of the return stack back. -/
def execFromR (k : CoreId) (s : State) : Out :=
  let b := instrBytes (.fromR k)
  coreInstr k { bytes := b, pushes := 1, rpops := 1 }
    (fun s =>
      let x := nth (s.rtops k.val 1) 0
      .next (((s.stackEffect k.val .ret 1 []).stackEffect k.val .data 0 [x]).advance k.val b.length)) s

/-- R197: R@ copies the top of the return stack. -/
def execFetchR (k : CoreId) (s : State) : Out :=
  let b := instrBytes (.fetchR k)
  coreInstr k { bytes := b, pushes := 1, rreads := 1 }
    (fun s =>
      let x := nth (s.rtops k.val 1) 0
      .next (((s.stackEffect k.val .ret 1 [x]).stackEffect k.val .data 0 [x]).advance k.val b.length)) s

/-- R197: RDROP discards the top of the return stack. -/
def execRdrop (k : CoreId) (s : State) : Out :=
  let b := instrBytes (.rdrop k)
  coreInstr k { bytes := b, rpops := 1 }
    (fun s => .next ((s.stackEffect k.val .ret 1 []).advance k.val b.length)) s

/-- R190, R197: pushes the sign-extended imm8. -/
def execLit8 (k : CoreId) (v : BitVec 8) (s : State) : Out :=
  stackInstr k (.lit8 k v) 0 1 (fun _ => [v.signExtend 64]) s

/-- R190, R197: pushes the sign-extended imm16. -/
def execLit16 (k : CoreId) (v : BitVec 16) (s : State) : Out :=
  stackInstr k (.lit16 k v) 0 1 (fun _ => [v.signExtend 64]) s

/-- R190, R197: pushes the sign-extended imm32. -/
def execLit32 (k : CoreId) (v : BitVec 32) (s : State) : Out :=
  stackInstr k (.lit32 k v) 0 1 (fun _ => [v.signExtend 64]) s

/-- R190, R197: pushes the imm64. -/
def execLit64 (k : CoreId) (v : BitVec 64) (s : State) : Out :=
  stackInstr k (.lit64 k v) 0 1 (fun _ => [v]) s

/-- R190, R197: pushes the zero-extended imm32. -/
def execLitu32 (k : CoreId) (v : BitVec 32) (s : State) : Out :=
  stackInstr k (.litu32 k v) 0 1 (fun _ => [v.zeroExtend 64]) s

/-- R190, R197: LEAPC pushes the target address. -/
def execLeapc (k : CoreId) (rel : BitVec 32) (s : State) : Out :=
  let b := instrBytes (.leapc k rel)
  coreInstr k { bytes := b, pushes := 1 }
    (fun s =>
      let a := relTarget (s.core k.val).pc b.length (rel.signExtend 64)
      .next ((s.stackEffect k.val .data 0 [a]).advance k.val b.length)) s

/-- R197: adds the sign-extended imm8. -/
def execAddi8 (k : CoreId) (v : BitVec 8) (s : State) : Out :=
  stackInstr k (.addi8 k v) 1 1 (fun st => [nth st 0 + v.signExtend 64]) s

/-- R197: adds the sign-extended imm32. -/
def execAddi32 (k : CoreId) (v : BitVec 32) (s : State) : Out :=
  stackInstr k (.addi32 k v) 1 1 (fun st => [nth st 0 + v.signExtend 64]) s

/-- R197: x + y modulo 2⁶⁴. -/
def execAdd (k : CoreId) (s : State) : Out :=
  stackInstr k (.add k) 2 1 (fun st => [nth st 1 + nth st 0]) s

/-- R197: x − y modulo 2⁶⁴. -/
def execSub (k : CoreId) (s : State) : Out :=
  stackInstr k (.sub k) 2 1 (fun st => [nth st 1 - nth st 0]) s

/-- R197: the low 64 bits of x × y. -/
def execMul (k : CoreId) (s : State) : Out :=
  stackInstr k (.mul k) 2 1 (fun st => [nth st 1 * nth st 0]) s

/-- R197: the high 64 bits of the signed product. -/
def execMulhs (k : CoreId) (s : State) : Out :=
  stackInstr k (.mulhs k) 2 1 (fun st => [mulHiS (nth st 1) (nth st 0)]) s

/-- R197: the high 64 bits of the unsigned product. -/
def execMulhu (k : CoreId) (s : State) : Out :=
  stackInstr k (.mulhu k) 2 1 (fun st => [mulHiU (nth st 1) (nth st 0)]) s

/-- R198: signed quotient. -/
def execDivs (k : CoreId) (s : State) : Out :=
  stackInstr k (.divs k) 2 1 (fun st => [divS (nth st 1) (nth st 0)]) s

/-- R198: unsigned quotient. -/
def execDivu (k : CoreId) (s : State) : Out :=
  stackInstr k (.divu k) 2 1 (fun st => [divU (nth st 1) (nth st 0)]) s

/-- R198: signed remainder. -/
def execRems (k : CoreId) (s : State) : Out :=
  stackInstr k (.rems k) 2 1 (fun st => [remS (nth st 1) (nth st 0)]) s

/-- R198: unsigned remainder. -/
def execRemu (k : CoreId) (s : State) : Out :=
  stackInstr k (.remu k) 2 1 (fun st => [remU (nth st 1) (nth st 0)]) s

/-- R197: −x. -/
def execNeg (k : CoreId) (s : State) : Out :=
  stackInstr k (.neg k) 1 1 (fun st => [-(nth st 0)]) s

/-- R197: |x|. -/
def execAbs (k : CoreId) (s : State) : Out :=
  stackInstr k (.abs k) 1 1 (fun st => [absW (nth st 0)]) s

/-- R197: signed minimum. -/
def execMins (k : CoreId) (s : State) : Out :=
  stackInstr k (.mins k) 2 1 (fun st => [if BitVec.slt (nth st 1) (nth st 0) then nth st 1 else nth st 0]) s

/-- R197: signed maximum. -/
def execMaxs (k : CoreId) (s : State) : Out :=
  stackInstr k (.maxs k) 2 1 (fun st => [if BitVec.slt (nth st 0) (nth st 1) then nth st 1 else nth st 0]) s

/-- R197: unsigned minimum. -/
def execMinu (k : CoreId) (s : State) : Out :=
  stackInstr k (.minu k) 2 1 (fun st => [if BitVec.ult (nth st 1) (nth st 0) then nth st 1 else nth st 0]) s

/-- R197: unsigned maximum. -/
def execMaxu (k : CoreId) (s : State) : Out :=
  stackInstr k (.maxu k) 2 1 (fun st => [if BitVec.ult (nth st 0) (nth st 1) then nth st 1 else nth st 0]) s

/-- R197: bitwise. -/
def execAnd (k : CoreId) (s : State) : Out :=
  stackInstr k (.and k) 2 1 (fun st => [nth st 1 &&& nth st 0]) s

/-- R197: bitwise. -/
def execOr (k : CoreId) (s : State) : Out :=
  stackInstr k (.or k) 2 1 (fun st => [nth st 1 ||| nth st 0]) s

/-- R197: bitwise. -/
def execXor (k : CoreId) (s : State) : Out :=
  stackInstr k (.xor k) 2 1 (fun st => [nth st 1 ^^^ nth st 0]) s

/-- R197: bitwise complement. -/
def execNot (k : CoreId) (s : State) : Out :=
  stackInstr k (.not k) 1 1 (fun st => [~~~(nth st 0)]) s

/-- R197: shifts x left by n mod 64. -/
def execShl (k : CoreId) (s : State) : Out :=
  stackInstr k (.shl k) 2 1 (fun st => [nth st 1 <<< shiftN (nth st 0)]) s

/-- R197: shifts x right by n mod 64, filling with 0. -/
def execShr (k : CoreId) (s : State) : Out :=
  stackInstr k (.shr k) 2 1 (fun st => [nth st 1 >>> shiftN (nth st 0)]) s

/-- R197: shifts x right by n mod 64, filling with the sign. -/
def execSar (k : CoreId) (s : State) : Out :=
  stackInstr k (.sar k) 2 1 (fun st => [BitVec.sshiftRight (nth st 1) (shiftN (nth st 0))]) s

/-- R197: rotates x left by n mod 64. -/
def execRol (k : CoreId) (s : State) : Out :=
  stackInstr k (.rol k) 2 1 (fun st => [BitVec.rotateLeft (nth st 1) (shiftN (nth st 0))]) s

/-- R197: rotates x right by n mod 64. -/
def execRor (k : CoreId) (s : State) : Out :=
  stackInstr k (.ror k) 2 1 (fun st => [BitVec.rotateRight (nth st 1) (shiftN (nth st 0))]) s

/-- R197: ones counted. -/
def execPopc (k : CoreId) (s : State) : Out :=
  stackInstr k (.popc k) 1 1 (fun st => [BitVec.ofNat 64 (popcount (nth st 0))]) s

/-- R197: leading zeros. -/
def execClz (k : CoreId) (s : State) : Out :=
  stackInstr k (.clz k) 1 1 (fun st => [BitVec.ofNat 64 (leadingZeros (nth st 0))]) s

/-- R197: trailing zeros. -/
def execCtz (k : CoreId) (s : State) : Out :=
  stackInstr k (.ctz k) 1 1 (fun st => [BitVec.ofNat 64 (trailingZeros (nth st 0))]) s

/-- R197: extends bits [7:0]. -/
def execSext8 (k : CoreId) (s : State) : Out :=
  stackInstr k (.sext8 k) 1 1 (fun st => [(BitVec.truncate 8 (nth st 0)).signExtend 64]) s

/-- R197: extends bits [15:0]. -/
def execSext16 (k : CoreId) (s : State) : Out :=
  stackInstr k (.sext16 k) 1 1 (fun st => [(BitVec.truncate 16 (nth st 0)).signExtend 64]) s

/-- R197: extends bits [31:0]. -/
def execSext32 (k : CoreId) (s : State) : Out :=
  stackInstr k (.sext32 k) 1 1 (fun st => [(BitVec.truncate 32 (nth st 0)).signExtend 64]) s

/-- R197: zero-extends bits [31:0]. -/
def execZext32 (k : CoreId) (s : State) : Out :=
  stackInstr k (.zext32 k) 1 1 (fun st => [(BitVec.truncate 32 (nth st 0)).zeroExtend 64]) s

/-- R197: x = y. -/
def execEq (k : CoreId) (s : State) : Out :=
  stackInstr k (.eq k) 2 1 (fun st => [truthWord (nth st 1 == nth st 0)]) s

/-- R197: x ≠ y. -/
def execNe (k : CoreId) (s : State) : Out :=
  stackInstr k (.ne k) 2 1 (fun st => [truthWord (nth st 1 != nth st 0)]) s

/-- R197: x < y, signed. -/
def execLts (k : CoreId) (s : State) : Out :=
  stackInstr k (.lts k) 2 1 (fun st => [truthWord (BitVec.slt (nth st 1) (nth st 0))]) s

/-- R197: x < y, unsigned. -/
def execLtu (k : CoreId) (s : State) : Out :=
  stackInstr k (.ltu k) 2 1 (fun st => [truthWord (BitVec.ult (nth st 1) (nth st 0))]) s

/-- R197: x ≤ y, signed. -/
def execLes (k : CoreId) (s : State) : Out :=
  stackInstr k (.les k) 2 1 (fun st => [truthWord (!BitVec.slt (nth st 0) (nth st 1))]) s

/-- R197: x ≤ y, unsigned. -/
def execLeu (k : CoreId) (s : State) : Out :=
  stackInstr k (.leu k) 2 1 (fun st => [truthWord (!BitVec.ult (nth st 0) (nth st 1))]) s

/-- R197: x > y, signed. -/
def execGts (k : CoreId) (s : State) : Out :=
  stackInstr k (.gts k) 2 1 (fun st => [truthWord (BitVec.slt (nth st 0) (nth st 1))]) s

/-- R197: x > y, unsigned. -/
def execGtu (k : CoreId) (s : State) : Out :=
  stackInstr k (.gtu k) 2 1 (fun st => [truthWord (BitVec.ult (nth st 0) (nth st 1))]) s

/-- R197: x ≥ y, signed. -/
def execGes (k : CoreId) (s : State) : Out :=
  stackInstr k (.ges k) 2 1 (fun st => [truthWord (!BitVec.slt (nth st 1) (nth st 0))]) s

/-- R197: x ≥ y, unsigned. -/
def execGeu (k : CoreId) (s : State) : Out :=
  stackInstr k (.geu k) 2 1 (fun st => [truthWord (!BitVec.ult (nth st 1) (nth st 0))]) s

/-- R197: x = 0. -/
def execZeq (k : CoreId) (s : State) : Out :=
  stackInstr k (.zeq k) 1 1 (fun st => [truthWord (nth st 0 == 0)]) s

/-- R197: ( x y f -- z ): x if f ≠ 0, otherwise y. -/
def execSel (k : CoreId) (s : State) : Out :=
  stackInstr k (.sel k) 3 1 (fun st => [if nth st 0 = 0 then nth st 1 else nth st 2]) s

end Sys2Proof.Machine
end

