-- ==== Sys2Proof/Machine/Staging.lean ====
section
/-!
DEFINITION. Staged configuration (R287, R307, R367, R368, R426): CONFIG_STAGE item by item, CONFIG_COMMIT, and the
moment a commit is applied.
-/
namespace Sys2Proof.Machine
open Sys2Proof

/-! ### Reservations (R307) -/

def Part.resvSum (q : Part) : Nat := ((List.range 64).map (fun i => mget 0 q.resv i)).sum

/-- The nominal rates committed in every partition. -/
def State.resvTotal (s : State) : Nat := (partList.map (fun p => if (s.part p).valid then (s.part p).resvSum else 0)).sum

/-- ⌊1,492.5 × n⌋ GB/s. -/
def resvLimit (n : Nat) : Nat := 2985 * n / 2

/-- Whether changes of RESV by queue pair would raise a sum above its limit. -/
def State.overcommits (s : State) (p : Nat) (changes : List (Nat × Nat)) : Bool :=
  let q := s.part p
  let q' : Part := { q with resv := changes.foldl (fun m e => mput m e.1 e.2) q.resv }
  let total := s.resvTotal - q.resvSum + q'.resvSum
  changes.any (fun e => decide (mget 0 q.resv e.1 < e.2))
    && decide (q.resvSum < q'.resvSum)
    && (decide (17910 < total) || decide (resvLimit q.stackIds.length < q'.resvSum))

/-- The changes of RESV that a staging copy holds. -/
def resvChanges (xs : List Staged) : List (Nat × Nat) :=
  (xs.filter (fun x => x.item == 1)).map (fun x => (x.index, field (x.value.getD 0 0) 14 0))

/-! ### CONFIG_STAGE -/

/-- An item put into a staging copy, in place of an earlier value. -/
def stagePut (xs : List Staged) (x : Staged) : List Staged :=
  xs.filter (fun y => !(y.item == x.item && y.index == x.index)) ++ [x]

/-- The item that a CONFIG_STAGE carries. -/
def Cmd.stagedItem (c : Cmd) : Staged :=
  { item := field (c.p 1) 15 0, index := field (c.p 1) 31 16, value := c.words.drop 2 }

/-- An item of a partition: refused, or staged. -/
def State.stagePart (s : State) (src : CmdSrc) (tag item : Nat) (check : Nat → Staged → Option Nat) : State :=
  match s.cmdFor src tag 0x10 with
  | none => s
  | some c =>
    let x := c.stagedItem
    if x.item ≠ item then s
    else match c.part with
      | none => s.refuse c stRejPermission
      | some p =>
        match check p x with
        | some st => s.refuse c st
        | none => (s.modPart p (fun q => { q with staged := stagePut q.staged x })).finish c {}

/-- An item of the device: only the management path, with PV = 0, may stage it. -/
def State.stageDevice (s : State) (src : CmdSrc) (tag item : Nat) : State :=
  match s.cmdFor src tag 0x10 with
  | none => s
  | some c =>
    let x := c.stagedItem
    if x.item ≠ item then s
    else if c.part.isSome then s.refuse c stRejPermission
    else ({ s with staged := stagePut s.staged x } : State).finish c {}

/-- Whether a partition has a port group (R372). -/
def Part.anyPort (q : Part) : Bool := (List.range 16).any q.hasPort

/-- QPSET (R306, R307). -/
def execQpset (src : CmdSrc) (tag : Nat) (s : State) : Out :=
  .next (s.stagePart src tag 1 (fun p x =>
    if s.overcommits p (resvChanges [x]) then some stRejOvercommit else none))

/-- CASKPOOL (R287). -/
def execCaskpool (src : CmdSrc) (tag : Nat) (s : State) : Out :=
  .next (s.stagePart src tag 2 (fun _ _ => none))

/-- CONN (R324, R372). -/
def execConn (src : CmdSrc) (tag : Nat) (s : State) : Out :=
  .next (s.stagePart src tag 3 (fun p _ => if (s.part p).anyPort then none else some stRejPermission))

/-- PATH (R372): its port lies in a port group of the partition. -/
def execPath (src : CmdSrc) (tag : Nat) (s : State) : Out :=
  .next (s.stagePart src tag 4 (fun p x =>
    if (s.part p).hasPort (field (x.value.getD 0 0) 5 0 / 4) then none else some stRejPermission))

/-- PGCFG: its port group belongs to the partition. -/
def execPgcfg (src : CmdSrc) (tag : Nat) (s : State) : Out :=
  .next (s.stagePart src tag 5 (fun p x => if (s.part p).hasPort x.index then none else some stRejPermission))

/-- NODEID. -/
def execNodeid (src : CmdSrc) (tag : Nat) (s : State) : Out := .next (s.stageDevice src tag 0x0006)

/-- PCAP (R426). -/
def execPcap (src : CmdSrc) (tag : Nat) (s : State) : Out := .next (s.stageDevice src tag 0x0100)

/-- CLDIV (R426). -/
def execCldiv (src : CmdSrc) (tag : Nat) (s : State) : Out := .next (s.stageDevice src tag 0x0101)

/-- ALERTT (R426). -/
def execAlertt (src : CmdSrc) (tag : Nat) (s : State) : Out := .next (s.stageDevice src tag 0x0102)

/-! ### CONFIG_COMMIT -/

/-- The slices from n on that a partition owns without a gap. -/
def Part.runFrom (q : Part) (n : Nat) : Nat := ((List.range 12).filter (fun i => decide (n ≤ i))).takeWhile q.hasStack |>.length

/-- R287: the pool and the sequence table lie within one contiguous run of the partition's slices and do not
overlap. -/
def Part.poolOk (q : Part) (base n tab : Nat) : Bool :=
  let lo := min base tab
  let hi := max (base + n * 65536) (tab + 262144)
  let first := lo / sliceBytes
  decide (hi ≤ (first + q.runFrom first) * sliceBytes) && (decide (base + n * 65536 ≤ tab) || decide (tab + 262144 ≤ base))

/-- Whether a staged CASKPOOL changes the pool or the geometry in force (R287). -/
def Part.poolChanges (q : Part) (x : Staged) : Bool :=
  let w (i : Nat) : Word := x.value.getD i 0
  (w 0).toNat != q.cask.base || field (w 1) 22 0 != q.cask.ncask || (w 2).toNat != q.cask.seqtab
    || field (w 3) 11 0 != q.cask.tpgM1 || field (w 3) 19 12 != q.cask.cpgM1

/-- The connections of a partition and their nodes with its staged CONN items applied. -/
def Part.connNodes (q : Part) : List (Nat × Nat) :=
  (q.staged.filter (fun x => x.item == 3)).foldl (fun cs x =>
    let v := x.value.getD 0 0
    let rest := cs.filter (fun e => e.1 != x.index)
    if bit v 20 then rest ++ [(x.index, field v 19 0)] else rest) (q.conns.map (fun e => (e.1, e.2.node)))

/-- Two connections to one peer node, of which a partition holds one at most (R324). -/
def Part.connTwice (q : Part) : Bool := decide ((q.connNodes.map (·.2)).eraseDups.length < q.connNodes.length)

/-- Why a staging copy cannot be applied: the status of the refusal (R287, R307, R324). [log 85: DEDUCED; log 138: DESIGN CHOICE] -/
def State.commitRefusal (s : State) (p : Nat) (tepoch : Nat) : Option Nat :=
  let q := s.part p
  if tepoch = q.epoch then some stRejEpoch
  else if s.overcommits p (resvChanges q.staged) then some stRejOvercommit
  else if q.connTwice then some stRejPermission
  else match q.staged.find? (fun x => x.item == 2) with
    | none => none
    | some x =>
      let w (i : Nat) : Word := x.value.getD i 0
      if !q.poolOk (w 0).toNat (w 1).toNat (w 2).toNat then some stRejPermission
      else if !q.poolChanges x then none
      else if q.cask.seqs.any (fun e => !(e.index.isEmpty && e.casks.isEmpty)) || !q.cask.joins.isEmpty then some stRejBusy
      else none

/-- CONFIG_COMMIT (R368): refused, or pending until CONFIG_APPLY. -/
def execConfigCommit (src : CmdSrc) (tag : Nat) (s : State) : Out :=
  match s.cmdFor src tag 0x11 with
  | none => .next s
  | some c =>
    match c.part with
    | none => .next ({ s.startCmd c with devCommits := s.devCommits ++ [(src, tag)] })
    | some p =>
      let te := field (c.p 1) 15 0
      match (if (s.part p).commits.isEmpty then s.commitRefusal p te else none) with
      | some st => .next (s.refuse c st)
      | none => .next ((s.modPart p (fun q => { q with commits := q.commits ++ [(src, tag, te)] })).startCmd c)

/-! ### Applying -/

/-- CONN applied: a connection deleted, made, or given another peer, whose paths then have still to shake hands. -/
def Part.applyConn (q : Part) (x : Staged) : Part :=
  let v := x.value.getD 0 0
  let node := field v 19 0
  let rest := q.conns.filter (fun e => e.1 != x.index)
  if !bit v 20 then { q with conns := rest }
  else match q.conns.find? (fun e => e.1 == x.index) with
    | some e => if e.2.node = node then q else { q with conns := rest ++ [(x.index,
        { node := node, paths := e.2.paths.map (fun y => (y.1, { y.2 with joined := false, helloSent := false })) })] }
    | none => { q with conns := rest ++ [(x.index, { node := node })] }

/-- PATH applied: a path of an existing connection deleted or set. -/
def Part.applyPath (q : Part) (x : Staged) : Part :=
  let v := x.value.getD 0 0
  let n := x.index % 16
  { q with conns := q.conns.map (fun e =>
      if e.1 = x.index / 16 then
        let ps : List (Nat × PathSt) :=
          if bit v 7 then mput e.2.paths n { port := field v 5 0, config := x.value } else mdrop e.2.paths n
        (e.1, { e.2 with paths := ps })
      else e) }

/-- Paths that the new configuration has brought up (R330, R341). -/
def State.startPaths (s : State) (p : Nat) : State :=
  (s.part p).conns.foldl (fun s e =>
    (e.2.paths.filter (fun x => s.portUp x.2.port && !x.2.joined && !x.2.helloSent)).foldl (fun s x => s.pathUp p e.1 x.1) s) s

/-- CASKPOOL applied: where it changes the pool, every slot of the sequence table is FREE, and reads all zero (R288). -/
def State.applyPool (s : State) (p : Nat) (x : Staged) : State :=
  let w (i : Nat) : Word := x.value.getD i 0
  let tab := (w 2).toNat
  if !(s.part p).poolChanges x then s
  else
    ({ s with mem := s.mem.filter (fun e => !(decide (tab ≤ e.1) && decide (e.1 < tab + 262144))) } : State).modPart p (fun q =>
      { q with cask := { q.cask with base := (w 0).toNat, ncask := field (w 1) 22 0, seqtab := tab,
                                      tpgM1 := field (w 3) 11 0, cpgM1 := field (w 3) 19 12 } })

/-- One item of a partition applied. -/
def State.applyPart (s : State) (p : Nat) (x : Staged) : State :=
  let w (i : Nat) : Word := x.value.getD i 0
  match x.item with
  | 1 => s.modPart p (fun q =>
      { q with resv := mput q.resv x.index (field (w 0) 14 0), qclass := mput q.qclass x.index (field (w 0) 17 16) })
  | 2 => s.applyPool p x
  | 3 => s.modPart p (fun q => q.applyConn x)
  | 4 => s.modPart p (fun q => q.applyPath x)
  | 5 => ((s.netCfgWrite x.index (w 0)).pfcCfgWrite x.index (w 1)).modGroup x.index (fun g => g.cltCfgWrite (w 2))
  | _ => s

/-- One item of the device applied. -/
def State.applyDevice (s : State) (x : Staged) : State :=
  let v := (x.value.getD 0 0).toNat
  match x.item with
  | 0x0006 => (List.range 16).foldl (fun s g => s.modGroup g (fun y => { y with node := v })) s
  | 0x0100 => s.pwrCapWrite (v / 25)
  | 0x0101 => s.setCfgDiv x.index v
  | 0x0102 => ({ s with clk := { s.clk with alertT := v } } : State).alertUpdate
  | _ => s

/-- Items of a staging copy in the order of their codes: connections before paths. [log 85: DEDUCED] -/
def inOrder (xs : List Staged) : List Staged :=
  ([1, 2, 3, 4, 5, 6, 0x100, 0x101, 0x102] : List Nat).flatMap (fun i => xs.filter (fun x => x.item == i))

/-- Whether the partition stands at a launch boundary (R368). -/
def State.atBoundary (s : State) (p : Nat) : Bool :=
  let q := s.part p
  q.valid && q.launch.isNone && q.st == .idle

/-- Whether no CLT operation of the partition is unacknowledged. -/
def State.cltQuiet (s : State) (p : Nat) : Bool :=
  (s.part p).conns.all (fun e => e.2.unacked.isEmpty && e.2.filling.isEmpty)

/-- CONFIG_APPLY (R368): the oldest pending commit of a partition, or of the device, is applied. [log 85: DEDUCED] -/
def execConfigApply (u : Option PartId) (s : State) : Out :=
  match u with
  | none =>
    match s.devCommits with
    | [] => .next s
    | t :: rest =>
      let s1 := (inOrder s.staged).foldl (fun s x => s.applyDevice x) s
      let s2 : State := { s1 with staged := [], devCommits := rest }
      match s2.cmdOf t.1 t.2 with
      | none => .next s2
      | some c => .next (s2.finish c {})
  | some p =>
    let q := s.part p.val
    match q.commits with
    | [] => .next s
    | t :: rest =>
      if !s.atBoundary p.val || (q.staged.any quiescentItem && !s.cltQuiet p.val) then .next s
      else
        let s0 := s.modPart p.val (fun q => { q with commits := rest })
        match s0.cmdOf t.1 t.2.1 with
        | none => .next s0
        | some c =>
          match s0.commitRefusal p.val t.2.2 with
          | some st => .next (s0.refuse c st)
          | none =>
            let s1 := ((inOrder q.staged).foldl (fun s x => s.applyPart p.val x) s0).modPart p.val (fun q =>
              { q with epoch := t.2.2, staged := [] })
            .next (((s1.startPaths p.val).finish c { c2 := place t.2.2 16 0 }).preemptCheck p.val)

/-- CONFIG_QUIESCE_TIMEOUT (R368, R381): a quiescent commit that could not be applied within 1 s; launches behind it are
ready again. -/
def execConfigQuiesceTimeout (p : PartId) (s : State) : Out :=
  let q := s.part p.val
  match q.commits with
  | [] => .next s
  | t :: rest =>
    if !q.staged.any quiescentItem then .next s
    else
      let s0 := s.modPart p.val (fun q => { q with commits := rest })
      match s0.cmdOf t.1 t.2.1 with
      | none => .next s0
      | some c => .next ((s0.refuse c stRejBusy).preemptCheck p.val)

end Sys2Proof.Machine
end

