-- ==== Sys2Proof/Machine/Dispatch.lean ====
section
/-!
DEFINITION. What each command does: one arm per command, each a direct call of its own meaning.
-/
namespace Sys2Proof.Machine
open Sys2Proof

def exec (i : Instr) (s : State) : Host.Outcome State Fault Refusal :=
  match i with
  | .nop k => Sys2Proof.Machine.execNop k s
  | .drop k => Sys2Proof.Machine.execDrop k s
  | .dup k => Sys2Proof.Machine.execDup k s
  | .swap k => Sys2Proof.Machine.execSwap k s
  | .over k => Sys2Proof.Machine.execOver k s
  | .rot k => Sys2Proof.Machine.execRot k s
  | .nip k => Sys2Proof.Machine.execNip k s
  | .tuck k => Sys2Proof.Machine.execTuck k s
  | .twoDrop k => Sys2Proof.Machine.execTwoDrop k s
  | .twoDup k => Sys2Proof.Machine.execTwoDup k s
  | .pick k n => Sys2Proof.Machine.execPick k n s
  | .toR k => Sys2Proof.Machine.execToR k s
  | .fromR k => Sys2Proof.Machine.execFromR k s
  | .fetchR k => Sys2Proof.Machine.execFetchR k s
  | .rdrop k => Sys2Proof.Machine.execRdrop k s
  | .lit8 k v => Sys2Proof.Machine.execLit8 k v s
  | .lit16 k v => Sys2Proof.Machine.execLit16 k v s
  | .lit32 k v => Sys2Proof.Machine.execLit32 k v s
  | .lit64 k v => Sys2Proof.Machine.execLit64 k v s
  | .litu32 k v => Sys2Proof.Machine.execLitu32 k v s
  | .leapc k rel => Sys2Proof.Machine.execLeapc k rel s
  | .addi8 k v => Sys2Proof.Machine.execAddi8 k v s
  | .addi32 k v => Sys2Proof.Machine.execAddi32 k v s
  | .add k => Sys2Proof.Machine.execAdd k s
  | .sub k => Sys2Proof.Machine.execSub k s
  | .mul k => Sys2Proof.Machine.execMul k s
  | .mulhs k => Sys2Proof.Machine.execMulhs k s
  | .mulhu k => Sys2Proof.Machine.execMulhu k s
  | .divs k => Sys2Proof.Machine.execDivs k s
  | .divu k => Sys2Proof.Machine.execDivu k s
  | .rems k => Sys2Proof.Machine.execRems k s
  | .remu k => Sys2Proof.Machine.execRemu k s
  | .neg k => Sys2Proof.Machine.execNeg k s
  | .abs k => Sys2Proof.Machine.execAbs k s
  | .mins k => Sys2Proof.Machine.execMins k s
  | .maxs k => Sys2Proof.Machine.execMaxs k s
  | .minu k => Sys2Proof.Machine.execMinu k s
  | .maxu k => Sys2Proof.Machine.execMaxu k s
  | .and k => Sys2Proof.Machine.execAnd k s
  | .or k => Sys2Proof.Machine.execOr k s
  | .xor k => Sys2Proof.Machine.execXor k s
  | .not k => Sys2Proof.Machine.execNot k s
  | .shl k => Sys2Proof.Machine.execShl k s
  | .shr k => Sys2Proof.Machine.execShr k s
  | .sar k => Sys2Proof.Machine.execSar k s
  | .rol k => Sys2Proof.Machine.execRol k s
  | .ror k => Sys2Proof.Machine.execRor k s
  | .popc k => Sys2Proof.Machine.execPopc k s
  | .clz k => Sys2Proof.Machine.execClz k s
  | .ctz k => Sys2Proof.Machine.execCtz k s
  | .sext8 k => Sys2Proof.Machine.execSext8 k s
  | .sext16 k => Sys2Proof.Machine.execSext16 k s
  | .sext32 k => Sys2Proof.Machine.execSext32 k s
  | .zext32 k => Sys2Proof.Machine.execZext32 k s
  | .eq k => Sys2Proof.Machine.execEq k s
  | .ne k => Sys2Proof.Machine.execNe k s
  | .lts k => Sys2Proof.Machine.execLts k s
  | .ltu k => Sys2Proof.Machine.execLtu k s
  | .les k => Sys2Proof.Machine.execLes k s
  | .leu k => Sys2Proof.Machine.execLeu k s
  | .gts k => Sys2Proof.Machine.execGts k s
  | .gtu k => Sys2Proof.Machine.execGtu k s
  | .ges k => Sys2Proof.Machine.execGes k s
  | .geu k => Sys2Proof.Machine.execGeu k s
  | .zeq k => Sys2Proof.Machine.execZeq k s
  | .sel k => Sys2Proof.Machine.execSel k s
  | .br8 k rel => Sys2Proof.Machine.execBr8 k rel s
  | .br32 k rel => Sys2Proof.Machine.execBr32 k rel s
  | .bz8 k rel => Sys2Proof.Machine.execBz8 k rel s
  | .bz32 k rel => Sys2Proof.Machine.execBz32 k rel s
  | .bnz8 k rel => Sys2Proof.Machine.execBnz8 k rel s
  | .bnz32 k rel => Sys2Proof.Machine.execBnz32 k rel s
  | .dbnz8 k rel => Sys2Proof.Machine.execDbnz8 k rel s
  | .dbnz32 k rel => Sys2Proof.Machine.execDbnz32 k rel s
  | .call32 k rel => Sys2Proof.Machine.execCall32 k rel s
  | .calli k => Sys2Proof.Machine.execCalli k s
  | .ret k => Sys2Proof.Machine.execRet k s
  | .jmpi k => Sys2Proof.Machine.execJmpi k s
  | .ld8u k d h => Sys2Proof.Machine.execLd8u k d h s
  | .ld8s k d h => Sys2Proof.Machine.execLd8s k d h s
  | .ld16u k d h => Sys2Proof.Machine.execLd16u k d h s
  | .ld16s k d h => Sys2Proof.Machine.execLd16s k d h s
  | .ld32u k d h => Sys2Proof.Machine.execLd32u k d h s
  | .ld32s k d h => Sys2Proof.Machine.execLd32s k d h s
  | .ld64 k d h => Sys2Proof.Machine.execLd64 k d h s
  | .st8 k d h => Sys2Proof.Machine.execSt8 k d h s
  | .st16 k d h => Sys2Proof.Machine.execSt16 k d h s
  | .st32 k d h => Sys2Proof.Machine.execSt32 k d h s
  | .st64 k d h => Sys2Proof.Machine.execSt64 k d h s
  | .stiQ k d v h => Sys2Proof.Machine.execStiQ k d v h s
  | .lea k d => Sys2Proof.Machine.execLea k d s
  | .undefinedOpcode k bytes => Sys2Proof.Machine.execUndefinedOpcode k bytes s
  | .tcfg k mask => Sys2Proof.Machine.execTcfg k mask s
  | .tld k t d shp => Sys2Proof.Machine.execTld k t d shp s
  | .tst k t d shp => Sys2Proof.Machine.execTst k t d shp s
  | .tzero k t => Sys2Proof.Machine.execTzero k t s
  | .tmma k acc ta tb shp => Sys2Proof.Machine.execTmma k acc ta tb shp s
  | .tsta k acc d => Sys2Proof.Machine.execTsta k acc d s
  | .tcva k td acc shp => Sys2Proof.Machine.execTcva k td acc shp s
  | .tspill k acc d => Sys2Proof.Machine.execTspill k acc d s
  | .tfill k acc d => Sys2Proof.Machine.execTfill k acc d s
  | .tsync k => Sys2Proof.Machine.execTsync k s
  | .tileInstructionComplete k h => Sys2Proof.Machine.execTileInstructionComplete k h s
  | .tileExecutionFault k => Sys2Proof.Machine.execTileExecutionFault k s
  | .vexec k d => Sys2Proof.Machine.execVexec k d s
  | .vcache k => Sys2Proof.Machine.execVcache k s
  | .vsync k => Sys2Proof.Machine.execVsync k s
  | .vcacheFill k n h => Sys2Proof.Machine.execVcacheFill k n h s
  | .vcacheWback k n h => Sys2Proof.Machine.execVcacheWback k n h s
  | .vcacheZero k n h => Sys2Proof.Machine.execVcacheZero k n h s
  | .vCvt k n h => Sys2Proof.Machine.execVCvt k n h s
  | .vAdd k n h => Sys2Proof.Machine.execVAdd k n h s
  | .vSub k n h => Sys2Proof.Machine.execVSub k n h s
  | .vMul k n h => Sys2Proof.Machine.execVMul k n h s
  | .vFma k n h => Sys2Proof.Machine.execVFma k n h s
  | .vAxpby k n h => Sys2Proof.Machine.execVAxpby k n h s
  | .vMax k n h => Sys2Proof.Machine.execVMax k n h s
  | .vMin k n h => Sys2Proof.Machine.execVMin k n h s
  | .vAbs k n h => Sys2Proof.Machine.execVAbs k n h s
  | .vNeg k n h => Sys2Proof.Machine.execVNeg k n h s
  | .vSel k n h => Sys2Proof.Machine.execVSel k n h s
  | .vDiv k n h => Sys2Proof.Machine.execVDiv k n h s
  | .vSqrt k n h => Sys2Proof.Machine.execVSqrt k n h s
  | .vRsqrt k n h => Sys2Proof.Machine.execVRsqrt k n h s
  | .vRcp k n h => Sys2Proof.Machine.execVRcp k n h s
  | .vExp2 k n h => Sys2Proof.Machine.execVExp2 k n h s
  | .vLog2 k n h => Sys2Proof.Machine.execVLog2 k n h s
  | .vRsum k h => Sys2Proof.Machine.execVRsum k h s
  | .vRmax k h => Sys2Proof.Machine.execVRmax k h s
  | .vRmin k h => Sys2Proof.Machine.execVRmin k h s
  | .vRamax k h => Sys2Proof.Machine.execVRamax k h s
  | .vRsumsq k h => Sys2Proof.Machine.execVRsumsq k h s
  | .vScan k h => Sys2Proof.Machine.execVScan k h s
  | .vScanx k h => Sys2Proof.Machine.execVScanx k h s
  | .vScanmax k h => Sys2Proof.Machine.execVScanmax k h s
  | .vScanxmax k h => Sys2Proof.Machine.execVScanxmax k h s
  | .vectorInstructionComplete k => Sys2Proof.Machine.execVectorInstructionComplete k s
  | .vectorExecutionFault k => Sys2Proof.Machine.execVectorExecutionFault k s
  | .dmaq k c => Sys2Proof.Machine.execDmaq k c s
  | .dmaw k c => Sys2Proof.Machine.execDmaw k c s
  | .engq k e => Sys2Proof.Machine.execEngq k e s
  | .engw k e => Sys2Proof.Machine.execEngw k e s
  | .fset k f => Sys2Proof.Machine.execFset k f s
  | .fclr k f => Sys2Proof.Machine.execFclr k f s
  | .ftest k f => Sys2Proof.Machine.execFtest k f s
  | .fwait k f => Sys2Proof.Machine.execFwait k f s
  | .fwatch k f => Sys2Proof.Machine.execFwatch k f s
  | .cfinc k c => Sys2Proof.Machine.execCfinc k c s
  | .cfdec k c => Sys2Proof.Machine.execCfdec k c s
  | .cfread k c => Sys2Proof.Machine.execCfread k c s
  | .cfwait k c => Sys2Proof.Machine.execCfwait k c s
  | .fenceF k => Sys2Proof.Machine.execFenceF k s
  | .rfset k => Sys2Proof.Machine.execRfset k s
  | .rcfinc k => Sys2Proof.Machine.execRcfinc k s
  | .rcfdec k => Sys2Proof.Machine.execRcfdec k s
  | .clfset k f => Sys2Proof.Machine.execClfset k f s
  | .clfclr k f => Sys2Proof.Machine.execClfclr k f s
  | .clftest k f => Sys2Proof.Machine.execClftest k f s
  | .clfwait k f => Sys2Proof.Machine.execClfwait k f s
  | .mbpost k ch => Sys2Proof.Machine.execMbpost k ch s
  | .mbpoll k ch => Sys2Proof.Machine.execMbpoll k ch s
  | .dinv k => Sys2Proof.Machine.execDinv k s
  | .dinva k => Sys2Proof.Machine.execDinva k s
  | .iinv k => Sys2Proof.Machine.execIinv k s
  | .iinva k => Sys2Proof.Machine.execIinva k s
  | .l2fl k => Sys2Proof.Machine.execL2fl k s
  | .l2fla k => Sys2Proof.Machine.execL2fla k s
  | .l2inv k => Sys2Proof.Machine.execL2inv k s
  | .l2inva k => Sys2Proof.Machine.execL2inva k s
  | .mfence k => Sys2Proof.Machine.execMfence k s
  | .trap k n h => Sys2Proof.Machine.execTrap k n h s
  | .gret k n => Sys2Proof.Machine.execGret k n s
  | .tend k => Sys2Proof.Machine.execTend k s
  | .waiti k => Sys2Proof.Machine.execWaiti k s
  | .rdtime k => Sys2Proof.Machine.execRdtime k s
  | .rdcyc k => Sys2Proof.Machine.execRdcyc k s
  | .rddsp k => Sys2Proof.Machine.execRddsp k s
  | .rdrsp k => Sys2Proof.Machine.execRdrsp k s
  | .waitConditionMet k => Sys2Proof.Machine.execWaitConditionMet k s
  | .eventEntry k h => Sys2Proof.Machine.execEventEntry k h s
  | .flagQueuePerform k => Sys2Proof.Machine.execFlagQueuePerform k s
  | .flagArrival t n => Sys2Proof.Machine.execFlagArrival t n s
  | .mergeDrainStart c line => Sys2Proof.Machine.execMergeDrainStart c line s
  | .mergeEntryInPlace c line => Sys2Proof.Machine.execMergeEntryInPlace c line s
  | .scratchpadRemoteWrite k h => Sys2Proof.Machine.execScratchpadRemoteWrite k h s
  | .scratchpadScrub u off h => Sys2Proof.Machine.execScratchpadScrub u off h s
  | .routeWindowStart k => Sys2Proof.Machine.execRouteWindowStart k s
  | .routeBeat k h x => Sys2Proof.Machine.execRouteBeat k h x s
  | .routeWindowEnd k => Sys2Proof.Machine.execRouteWindowEnd k s
  | .stall k => Sys2Proof.Machine.execStall k s
  | .dmaDescriptorFetch c ch h => Sys2Proof.Machine.execDmaDescriptorFetch c ch h s
  | .dmaDescriptorStart c ch => Sys2Proof.Machine.execDmaDescriptorStart c ch s
  | .copy c ch nr nw h w => Sys2Proof.Machine.execCopy c ch nr nw h w s
  | .dmaFill c ch n w => Sys2Proof.Machine.execDmaFill c ch n w s
  | .dmaCompare c ch n h => Sys2Proof.Machine.execDmaCompare c ch n h s
  | .dmaDescriptorComplete c ch => Sys2Proof.Machine.execDmaDescriptorComplete c ch s
  | .dmaStall c ch => Sys2Proof.Machine.execDmaStall c ch s
  | .midStreamFault c ch => Sys2Proof.Machine.execMidStreamFault c ch s
  | .engineDescriptorFetch c e h => Sys2Proof.Machine.execEngineDescriptorFetch c e h s
  | .rows c h => Sys2Proof.Machine.execRows c h s
  | .casks c h => Sys2Proof.Machine.execCasks c h s
  | .sort c h => Sys2Proof.Machine.execSort c h s
  | .topk c h => Sys2Proof.Machine.execTopk c h s
  | .route c h => Sys2Proof.Machine.execRoute c h s
  | .sample c h => Sys2Proof.Machine.execSample c h s
  | .crc32c c h => Sys2Proof.Machine.execCrc32c c h s
  | .fp64 c h => Sys2Proof.Machine.execFp64 c h s
  | .fp64raw c h => Sys2Proof.Machine.execFp64raw c h s
  | .engineDescriptorComplete c e => Sys2Proof.Machine.execEngineDescriptorComplete c e s
  | .midStreamEngineFault c e => Sys2Proof.Machine.execMidStreamEngineFault c e s
  | .stepBoundary p => Sys2Proof.Machine.execStepBoundary p s
  | .patrolScrub pc e => Sys2Proof.Machine.execPatrolScrub pc e s
  | .pcMapoutComplete pc lost => Sys2Proof.Machine.execPcMapoutComplete pc lost s
  | .zeroingComplete z => Sys2Proof.Machine.execZeroingComplete z s
  | .laneFault l => Sys2Proof.Machine.execLaneFault l s
  | .linkUp port far => Sys2Proof.Machine.execLinkUp port far s
  | .frameReceived port f excess => Sys2Proof.Machine.execFrameReceived port f excess s
  | .pfcFrame port prio quanta => Sys2Proof.Machine.execPfcFrame port prio quanta s
  | .xoffRepeat port prio => Sys2Proof.Machine.execXoffRepeat port prio s
  | .pauseExpiry port prio => Sys2Proof.Machine.execPauseExpiry port prio s
  | .xon port prio n => Sys2Proof.Machine.execXon port prio n s
  | .replayRequest port start => Sys2Proof.Machine.execReplayRequest port start s
  | .llrfail port => Sys2Proof.Machine.execLlrfail port s
  | .ptpMessage port n inc lock => Sys2Proof.Machine.execPtpMessage port n inc lock s
  | .gtimeTick => Sys2Proof.Machine.execGtimeTick s
  | .timeSkew offset => Sys2Proof.Machine.execTimeSkew offset s
  | .timeSkewClear offset => Sys2Proof.Machine.execTimeSkewClear offset s
  | .write port k h => Sys2Proof.Machine.execWrite port k h s
  | .accum port k h => Sys2Proof.Machine.execAccum port k h s
  | .flag port k => Sys2Proof.Machine.execFlag port k s
  | .cltMbpost port k => Sys2Proof.Machine.execCltMbpost port k s
  | .ack port k => Sys2Proof.Machine.execAck port k s
  | .nak port k => Sys2Proof.Machine.execNak port k s
  | .hello port k => Sys2Proof.Machine.execHello port k s
  | .helloAck port k => Sys2Proof.Machine.execHelloAck port k s
  | .mgmt port k => Sys2Proof.Machine.execMgmt port k s
  | .packetFlushTimeout p ci stream => Sys2Proof.Machine.execPacketFlushTimeout p ci stream s
  | .ackTimer p ci => Sys2Proof.Machine.execAckTimer p ci s
  | .retransmitTimeout p ci psn => Sys2Proof.Machine.execRetransmitTimeout p ci psn s
  | .helloRetry p ci n => Sys2Proof.Machine.execHelloRetry p ci n s
  | .sqDoorbell h q idx => Sys2Proof.Machine.execSqDoorbell h q idx s
  | .commandFetch h q pkt => Sys2Proof.Machine.execCommandFetch h q pkt s
  | .cqHeadWrite h q idx => Sys2Proof.Machine.execCqHeadWrite h q idx s
  | .qpEnable h q v => Sys2Proof.Machine.execQpEnable h q v s
  | .inProgress src tag => Sys2Proof.Machine.execInProgress src tag s
  | .bar2Read h o n e => Sys2Proof.Machine.execBar2Read h o n e s
  | .bar2Write h o bs e => Sys2Proof.Machine.execBar2Write h o bs e s
  | .hostMbpoll h ch => Sys2Proof.Machine.execHostMbpoll h ch s
  | .hostMbpost h ch notice => Sys2Proof.Machine.execHostMbpost h ch notice s
  | .flr h => Sys2Proof.Machine.execFlr h s
  | .perst h hot => Sys2Proof.Machine.execPerst h hot s
  | .queryIdentity src tag => Sys2Proof.Machine.execQueryIdentity src tag s
  | .queryPartition src tag => Sys2Proof.Machine.execQueryPartition src tag s
  | .queryTag src tag => Sys2Proof.Machine.execQueryTag src tag s
  | .queryMapouts src tag => Sys2Proof.Machine.execQueryMapouts src tag s
  | .qpset src tag => Sys2Proof.Machine.execQpset src tag s
  | .caskpool src tag => Sys2Proof.Machine.execCaskpool src tag s
  | .conn src tag => Sys2Proof.Machine.execConn src tag s
  | .path src tag => Sys2Proof.Machine.execPath src tag s
  | .pgcfg src tag => Sys2Proof.Machine.execPgcfg src tag s
  | .nodeid src tag => Sys2Proof.Machine.execNodeid src tag s
  | .pcap src tag => Sys2Proof.Machine.execPcap src tag s
  | .cldiv src tag => Sys2Proof.Machine.execCldiv src tag s
  | .alertt src tag => Sys2Proof.Machine.execAlertt src tag s
  | .configCommit src tag => Sys2Proof.Machine.execConfigCommit src tag s
  | .configApply u => Sys2Proof.Machine.execConfigApply u s
  | .configQuiesceTimeout p => Sys2Proof.Machine.execConfigQuiesceTimeout p s
  | .schedLoad src tag im h => Sys2Proof.Machine.execSchedLoad src tag im h s
  | .schedUnload src tag => Sys2Proof.Machine.execSchedUnload src tag s
  | .launch src tag => Sys2Proof.Machine.execLaunch src tag s
  | .cancel src tag => Sys2Proof.Machine.execCancel src tag s
  | .dmaCopy src tag => Sys2Proof.Machine.execDmaCopy src tag s
  | .fill src tag => Sys2Proof.Machine.execFill src tag s
  | .compare src tag => Sys2Proof.Machine.execCompare src tag s
  | .caskJoin src tag => Sys2Proof.Machine.execCaskJoin src tag s
  | .caskLeave src tag => Sys2Proof.Machine.execCaskLeave src tag s
  | .caskStep src tag => Sys2Proof.Machine.execCaskStep src tag s
  | .partCreate src tag => Sys2Proof.Machine.execPartCreate src tag s
  | .partDestroy src tag => Sys2Proof.Machine.execPartDestroy src tag s
  | .partDestroyTimeout p => Sys2Proof.Machine.execPartDestroyTimeout p s
  | .telemetryTemperatures src tag => Sys2Proof.Machine.execTelemetryTemperatures src tag s
  | .telemetryPower src tag => Sys2Proof.Machine.execTelemetryPower src tag s
  | .telemetryClocks src tag => Sys2Proof.Machine.execTelemetryClocks src tag s
  | .telemetryAccounting src tag => Sys2Proof.Machine.execTelemetryAccounting src tag s
  | .telemetryAccountingClear src tag => Sys2Proof.Machine.execTelemetryAccountingClear src tag s
  | .selftest src tag => Sys2Proof.Machine.execSelftest src tag s
  | .mapout src tag => Sys2Proof.Machine.execMapout src tag s
  | .errlogRead src tag => Sys2Proof.Machine.execErrlogRead src tag s
  | .launchStart p => Sys2Proof.Machine.execLaunchStart p s
  | .taskStart k => Sys2Proof.Machine.execTaskStart k s
  | .switchStart p => Sys2Proof.Machine.execSwitchStart p s
  | .switchComplete p => Sys2Proof.Machine.execSwitchComplete p s
  | .launchCommit p => Sys2Proof.Machine.execLaunchCommit p s
  | .hwErrorDetected d => Sys2Proof.Machine.execHwErrorDetected d s
  | .cwdog k => Sys2Proof.Machine.execCwdog k s
  | .kilnTestResult u r ktime lost => Sys2Proof.Machine.execKilnTestResult u r ktime lost s
  | .kilnBudgetExpiry u => Sys2Proof.Machine.execKilnBudgetExpiry u s
  | .rollbackComplete p bad => Sys2Proof.Machine.execRollbackComplete p bad s
  | .repitch p => Sys2Proof.Machine.execRepitch p s
  | .clusterMapout c lost => Sys2Proof.Machine.execClusterMapout c lost s
  | .droop c => Sys2Proof.Machine.execDroop c s
  | .pllLossOfLock => Sys2Proof.Machine.execPllLossOfLock s
  | .railOutOfRange r => Sys2Proof.Machine.execRailOutOfRange r s
  | .capLoopSample rails => Sys2Proof.Machine.execCapLoopSample rails s
  | .thermalSample diodes hbmT => Sys2Proof.Machine.execThermalSample diodes hbmT s
  | .thermStepTimer c => Sys2Proof.Machine.execThermStepTimer c s
  | .railSettled => Sys2Proof.Machine.execRailSettled s
  | .railLowerTimer => Sys2Proof.Machine.execRailLowerTimer s
  | .pwrgoodFall => Sys2Proof.Machine.execPwrgoodFall s
  | .pwrgoodRise lowLong bootsel smb => Sys2Proof.Machine.execPwrgoodRise lowLong bootsel smb s
  | .warmRstN => Sys2Proof.Machine.execWarmRstN s
  | .pllLock => Sys2Proof.Machine.execPllLock s
  | .pllLockTimeout => Sys2Proof.Machine.execPllLockTimeout s
  | .avsTimeout => Sys2Proof.Machine.execAvsTimeout s
  | .imageVerify d0 d1 board a b => Sys2Proof.Machine.execImageVerify d0 d1 board a b s
  | .hbmTrainingDone n ok => Sys2Proof.Machine.execHbmTrainingDone n ok s
  | .serdesCalibrationDone failed => Sys2Proof.Machine.execSerdesCalibrationDone failed s
  | .ready binds => Sys2Proof.Machine.execReady binds s
  | .setEndpointId b eid => Sys2Proof.Machine.execSetEndpointId b eid s
  | .mctpVendorMessage b vendor kind packet => Sys2Proof.Machine.execMctpVendorMessage b vendor kind packet s
  | .gettid b => Sys2Proof.Machine.execGettid b s
  | .getpdrrepositoryinfo b => Sys2Proof.Machine.execGetpdrrepositoryinfo b s
  | .getpdr b handle => Sys2Proof.Machine.execGetpdr b handle s
  | .getsensorreading b id => Sys2Proof.Machine.execGetsensorreading b id s
  | .getstatesensorreadings b id => Sys2Proof.Machine.execGetstatesensorreadings b id s
  | .setnumericeffectervalue b id v => Sys2Proof.Machine.execSetnumericeffectervalue b id v s
  | .getnumericeffectervalue b id => Sys2Proof.Machine.execGetnumericeffectervalue b id s
  | .platformeventmessage b => Sys2Proof.Machine.execPlatformeventmessage b s
  | .querydeviceidentifiers b => Sys2Proof.Machine.execQuerydeviceidentifiers b s
  | .getfirmwareparameters b => Sys2Proof.Machine.execGetfirmwareparameters b s
  | .requestupdate b d0 d1 => Sys2Proof.Machine.execRequestupdate b d0 d1 s
  | .passcomponenttable b id => Sys2Proof.Machine.execPasscomponenttable b id s
  | .updatecomponent b id size => Sys2Proof.Machine.execUpdatecomponent b id size s
  | .requestfirmwaredata b off bytes => Sys2Proof.Machine.execRequestfirmwaredata b off bytes s
  | .transfercomplete b => Sys2Proof.Machine.execTransfercomplete b s
  | .verifycomplete b img => Sys2Proof.Machine.execVerifycomplete b img s
  | .applycomplete b => Sys2Proof.Machine.execApplycomplete b s
  | .activatefirmware b self => Sys2Proof.Machine.execActivatefirmware b self s
  | .getstatus b => Sys2Proof.Machine.execGetstatus b s
  | .cancelupdate b => Sys2Proof.Machine.execCancelupdate b s
  | .extest => Sys2Proof.Machine.execExtest s
  | .idcode => Sys2Proof.Machine.execIdcode s
  | .samplePreload => Sys2Proof.Machine.execSamplePreload s
  | .extestPulse => Sys2Proof.Machine.execExtestPulse s
  | .extestTrain => Sys2Proof.Machine.execExtestTrain s
  | .bypass => Sys2Proof.Machine.execBypass s
  | .tuCtlDrop m k v => Sys2Proof.Machine.execTuCtlDrop m k v s
  | .vsuCtlDrop m k v => Sys2Proof.Machine.execVsuCtlDrop m k v s
  | .clrrej m k v => Sys2Proof.Machine.execClrrej m k v s
  | .coreIset m k v => Sys2Proof.Machine.execCoreIset m k v s
  | .precise m k v => Sys2Proof.Machine.execPrecise m k v s
  | .l2Disable m c v => Sys2Proof.Machine.execL2Disable m c v s
  | .l2Waypwr m c v => Sys2Proof.Machine.execL2Waypwr m c v s
  | .l2Lock m c v => Sys2Proof.Machine.execL2Lock m c v s
  | .l2MaintenanceDone c => Sys2Proof.Machine.execL2MaintenanceDone c s
  | .dmaChnpop m c ch n => Sys2Proof.Machine.execDmaChnpop m c ch n s
  | .dmaMismClear m c ch => Sys2Proof.Machine.execDmaMismClear m c ch s
  | .fprMismClear m c v => Sys2Proof.Machine.execFprMismClear m c v s
  | .mbxCtlLock m => Sys2Proof.Machine.execMbxCtlLock m s
  | .clkGtime m v => Sys2Proof.Machine.execClkGtime m v s
  | .pwrCap m v => Sys2Proof.Machine.execPwrCap m v s
  | .bootCtlWarm m => Sys2Proof.Machine.execBootCtlWarm m s
  | .registerWrite m pa v => Sys2Proof.Machine.execRegisterWrite m pa v s
  | .hostPortLinkUp h => Sys2Proof.Machine.execHostPortLinkUp h s
  | .hostPortLinkDown h => Sys2Proof.Machine.execHostPortLinkDown h s
  | .perstNRise h => Sys2Proof.Machine.execPerstNRise h s
  | .configurationRequest h off => Sys2Proof.Machine.execConfigurationRequest h off s
  | .coldResetHoldExpiry bootsel smb => Sys2Proof.Machine.execColdResetHoldExpiry bootsel smb s
  | .supplyRecovery c => Sys2Proof.Machine.execSupplyRecovery c s
  | .negotiate port => Sys2Proof.Machine.execNegotiate port s
  | .tapReset => Sys2Proof.Machine.execTapReset s

end Sys2Proof.Machine
end

