-- ==== Sys2Proof/WellFormed.lean ====
section
/-!
DEFINITION. Well-formed commands: those whose operands name an operation or an event of the device. Register
and engine numbers are bounded by their types; what is left are the lengths, codes and addresses below.
-/
namespace Sys2Proof
open Sys2Proof.Machine

/-- What the specification says of every schedule image, wherever its pages stand (R376, R377). -/
def imageFormed (im : SchedImage) : Bool :=
  im.pages.all (fun g => !g.writable && (g.bits == 16 || g.bits == 21 || g.bits == 30) && g.va % 2 ^ g.bits == 0)
    && decide (im.tasks.length ≤ 768 ∧ im.variants.length ≤ 48)
    && (imAllWindows im).all (fun w => decide (w.slot < 16) && decide (winLo w < winHi w))

/-- Whether a command is well-formed. -/
def Instr.wellFormed (i : Instr) : Bool :=
  match i with
  | .nop _ | .drop _ | .dup _ | .swap _ | .over _ | .rot _ | .nip _ | .tuck _ | .twoDrop _ | .twoDup _ | .pick _ _
  | .toR _ | .fromR _ | .fetchR _ | .rdrop _ | .lit8 _ _ | .lit16 _ _ | .lit32 _ _ | .lit64 _ _ | .litu32 _ _
  | .leapc _ _ | .addi8 _ _ | .addi32 _ _ | .add _ | .sub _ | .mul _ | .mulhs _ | .mulhu _ | .divs _ | .divu _
  | .rems _ | .remu _ | .neg _ | .abs _ | .mins _ | .maxs _ | .minu _ | .maxu _ | .and _ | .or _ | .xor _ | .not _
  | .shl _ | .shr _ | .sar _ | .rol _ | .ror _ | .popc _ | .clz _ | .ctz _ | .sext8 _ | .sext16 _ | .sext32 _
  | .zext32 _ | .eq _ | .ne _ | .lts _ | .ltu _ | .les _ | .leu _ | .gts _ | .gtu _ | .ges _ | .geu _ | .zeq _
  | .sel _ | .br8 _ _ | .br32 _ _ | .bz8 _ _ | .bz32 _ _ | .bnz8 _ _ | .bnz32 _ _ | .dbnz8 _ _ | .dbnz32 _ _
  | .call32 _ _ | .calli _ | .ret _ | .jmpi _ | .ld8u _ _ _ | .ld8s _ _ _ | .ld16u _ _ _ | .ld16s _ _ _
  | .ld32u _ _ _ | .ld32s _ _ _ | .ld64 _ _ _ | .st8 _ _ _ | .st16 _ _ _ | .st32 _ _ _ | .st64 _ _ _
  | .stiQ _ _ _ _ | .lea _ _ => true
  | .undefinedOpcode k bytes => [false, true].any (fun m => (illegalAt m (k.val == maltsterCore) bytes).isSome)
  | .tcfg _ _ | .tld _ _ _ _ | .tst _ _ _ _ | .tzero _ _ | .tmma _ _ _ _ _ | .tsta _ _ _ | .tcva _ _ _ _
  | .tspill _ _ _ | .tfill _ _ _ | .tsync _ | .tileInstructionComplete _ _ | .tileExecutionFault _ | .vexec _ _
  | .vcache _ | .vsync _ | .vcacheFill _ _ _ | .vcacheWback _ _ _ | .vcacheZero _ _ _ | .vCvt _ _ _ | .vAdd _ _ _
  | .vSub _ _ _ | .vMul _ _ _ | .vFma _ _ _ | .vAxpby _ _ _ | .vMax _ _ _ | .vMin _ _ _ | .vAbs _ _ _ | .vNeg _ _ _
  | .vSel _ _ _ | .vDiv _ _ _ | .vSqrt _ _ _ | .vRsqrt _ _ _ | .vRcp _ _ _ | .vExp2 _ _ _ | .vLog2 _ _ _
  | .vRsum _ _ | .vRmax _ _ | .vRmin _ _ | .vRamax _ _ | .vRsumsq _ _ | .vScan _ _ | .vScanx _ _ | .vScanmax _ _
  | .vScanxmax _ _ | .vectorInstructionComplete _ | .vectorExecutionFault _ | .dmaq _ _ | .dmaw _ _ | .engq _ _
  | .engw _ _ | .fset _ _ | .fclr _ _ | .ftest _ _ | .fwait _ _ | .fwatch _ _ | .cfinc _ _ | .cfdec _ _
  | .cfread _ _ | .cfwait _ _ | .fenceF _ | .rfset _ | .rcfinc _ | .rcfdec _ | .clfset _ _ | .clfclr _ _
  | .clftest _ _ | .clfwait _ _ | .mbpost _ _ | .mbpoll _ _ | .dinv _ | .dinva _ | .iinv _ | .iinva _ | .l2fl _
  | .l2fla _ | .l2inv _ | .l2inva _ | .mfence _ | .trap _ _ _ | .gret _ _ | .tend _ | .waiti _ | .rdtime _
  | .rdcyc _ | .rddsp _ | .rdrsp _ | .waitConditionMet _ | .eventEntry _ _ | .flagQueuePerform _ | .flagArrival _ _
  | .mergeDrainStart _ _ | .mergeEntryInPlace _ _ | .scratchpadRemoteWrite _ _ => true
  | .scratchpadScrub u off _ => match u with | .spad k => decide (k.val < 768 ∧ off < 0x100000) | .tun _ => decide (off < 0x800000)
  | .routeWindowStart _ | .routeBeat _ _ _ | .routeWindowEnd _ | .stall _ | .dmaDescriptorFetch _ _ _
  | .dmaDescriptorStart _ _ | .copy _ _ _ _ _ _ | .dmaFill _ _ _ _ | .dmaCompare _ _ _ _
  | .dmaDescriptorComplete _ _ | .dmaStall _ _ | .midStreamFault _ _ | .engineDescriptorFetch _ _ _ | .rows _ _
  | .casks _ _ | .sort _ _ | .topk _ _ | .route _ _ | .sample _ _ | .crc32c _ _ | .fp64 _ _ | .fp64raw _ _
  | .engineDescriptorComplete _ _ | .midStreamEngineFault _ _ | .stepBoundary _ | .patrolScrub _ _ => true
  | .pcMapoutComplete _ _ => true
  | .zeroingComplete _ | .laneFault _ | .linkUp _ _ | .frameReceived _ _ _ | .pfcFrame _ _ _ | .xoffRepeat _ _
  | .pauseExpiry _ _ | .xon _ _ _ | .replayRequest _ _ | .llrfail _ => true
  | .ptpMessage _ _ inc _ => incLegal inc.toNat
  | .gtimeTick | .timeSkew _ | .timeSkewClear _ => true
  | .write _ k _ => pkType k == 1
  | .accum _ k _ => pkType k == 2
  | .flag _ k => pkType k == 3
  | .cltMbpost _ k => pkType k == 4
  | .ack _ k => pkType k == 8
  | .nak _ k => pkType k == 9
  | .hello _ k => pkType k == 0xC
  | .helloAck _ k => pkType k == 0xD
  | .mgmt _ k => pkType k == 0xE
  | .packetFlushTimeout _ _ _ | .ackTimer _ _ | .retransmitTimeout _ _ _ | .helloRetry _ _ _ | .sqDoorbell _ _ _ => true
  | .commandFetch _ _ pkt => match pkt with | none => true | some ws => ws.length == 8
  | .cqHeadWrite _ _ _ | .qpEnable _ _ _ | .inProgress _ _ | .bar2Read _ _ _ _ => true
  | .bar2Write _ _ bs _ => !bs.isEmpty && decide (bs.length ≤ 4096)
  | .hostMbpoll _ _ | .hostMbpost _ _ _ | .flr _ | .perst _ _ | .queryIdentity _ _ | .queryPartition _ _
  | .queryTag _ _ | .queryMapouts _ _ | .qpset _ _ | .caskpool _ _ | .conn _ _ | .path _ _ | .pgcfg _ _
  | .nodeid _ _ | .pcap _ _ | .cldiv _ _ | .alertt _ _ | .configCommit _ _ | .configApply _
  | .configQuiesceTimeout _ => true
  | .schedLoad _ _ im _ => imageFormed im
  | .schedUnload _ _ | .launch _ _ | .cancel _ _ | .dmaCopy _ _ | .fill _ _ | .compare _ _ | .caskJoin _ _
  | .caskLeave _ _ | .caskStep _ _ | .partCreate _ _ | .partDestroy _ _ | .partDestroyTimeout _
  | .telemetryTemperatures _ _ | .telemetryPower _ _ | .telemetryClocks _ _ | .telemetryAccounting _ _
  | .telemetryAccountingClear _ _ | .selftest _ _ | .mapout _ _ | .errlogRead _ _ | .launchStart _ | .taskStart _
  | .switchStart _ | .switchComplete _ | .launchCommit _ => true
  | .hwErrorDetected d => match d with | none => true | some d => detLegal d
  | .cwdog _ | .kilnTestResult _ _ _ _ | .kilnBudgetExpiry _ | .rollbackComplete _ _ | .repitch _
  | .clusterMapout _ _ | .droop _ | .pllLossOfLock | .railOutOfRange _ => true
  | .capLoopSample rails => rails.length == 9
  | .thermalSample diodes hbmT => diodes.length == 192 && hbmT.length == 12
  | .thermStepTimer _ | .railSettled | .railLowerTimer | .pwrgoodFall | .pwrgoodRise _ _ _ | .warmRstN | .pllLock
  | .pllLockTimeout | .avsTimeout | .imageVerify _ _ _ _ _ | .hbmTrainingDone _ _ | .serdesCalibrationDone _
  | .ready _ | .setEndpointId _ _ | .mctpVendorMessage _ _ _ _ | .gettid _ | .getpdrrepositoryinfo _ | .getpdr _ _
  | .getsensorreading _ _ | .getstatesensorreadings _ _ | .setnumericeffectervalue _ _ _
  | .getnumericeffectervalue _ _ | .platformeventmessage _ | .querydeviceidentifiers _ | .getfirmwareparameters _
  | .requestupdate _ _ _ | .passcomponenttable _ _ | .updatecomponent _ _ _ | .requestfirmwaredata _ _ _
  | .transfercomplete _ | .verifycomplete _ _ | .applycomplete _ | .activatefirmware _ _ | .getstatus _
  | .cancelupdate _ | .extest | .idcode | .samplePreload | .extestPulse | .extestTrain | .bypass | .tuCtlDrop _ _ _
  | .vsuCtlDrop _ _ _ | .clrrej _ _ _ | .coreIset _ _ _ | .precise _ _ _ | .l2Disable _ _ _ | .l2Waypwr _ _ _
  | .l2Lock _ _ _ | .l2MaintenanceDone _ | .dmaChnpop _ _ _ _ | .dmaMismClear _ _ _ | .fprMismClear _ _ _
  | .mbxCtlLock _ | .clkGtime _ _ | .pwrCap _ _ | .bootCtlWarm _ => true
  | .registerWrite _ pa _ => regAddr pa.toNat
  | .hostPortLinkUp _ | .hostPortLinkDown _ | .perstNRise _ | .configurationRequest _ _ | .coldResetHoldExpiry _ _
  | .supplyRecovery _ | .negotiate _ | .tapReset => true

end Sys2Proof
end

