-- ==== Sys2Proof/Safety.lean ====
section
/-!
DEFINITION. What a safe step of the block is, in the terms statements use: the canonical form of memory, the
conditions under which a control core carries out an instruction, its stacks as software sees them, and what a
command leaves unchanged.
-/
namespace Sys2Proof.Machine
open Sys2Proof

/-- The step answers a next state. -/
def Goes (s : State) : Prop := ∃ t, step s = .next t

/-- Addressed memory and the maltster's own memory keep their canonical form. -/
def State.Canonical (s : State) : Prop := Memory.wf s.mem = true ∧ Memory.wf s.sram = true

/-! ### An instruction of a control core -/

/-- A core carries out an instruction of `n` bytes at its PC: it issues, no event is taken at this boundary
(R178), and every byte of the instruction can be fetched in its ring and is delivered without an uncorrectable error
(R136, R182, R195 step 1, R303). -/
def State.Runs (s : State) (k n : Nat) : Prop :=
  (s.core k).issues = true ∧ s.takePending k .clean = none ∧ s.fetchFaultN k (s.core k).pc.toNat n = none
    ∧ s.fetchError k n = none

/-- A stack of the current bank holds the entries an instruction pops or reads and has room for those it pushes
(R166), and none of the entries that move between its cache and memory lies in a resident window of another schedule
or meets an uncorrectable error (R128, R136, R165). -/
def State.Fits (s : State) (k : Nat) (x : Stk) (pops pushes : Nat) (reads : Nat := 0) : Prop :=
  pops ≤ (s.core k).bank.depth x ∧ reads ≤ (s.core k).bank.depth x
    ∧ (pushes = 0 ∨ ((s.core k).region (s.core k).ring x).lim + 8 * pushes ≤ (s.core k).bank.ptr x + 8 * pops)
    ∧ s.barOf k (s.core k).bank x pops reads pushes = none

/-- Entry i of a stack of the current bank, the top being entry 0, whether the cache or memory holds it (R165). -/
def State.entry (s : State) (k : Nat) (x : Stk) (i : Nat) : Word := s.stackEntry k (s.core k).bank x i

/-- From s to t, `pops` entries left a stack of the core and `res` (top first) were pushed: the pointer moves by
8 for each (R165), the entries below keep their values, and the floor stands. -/
def Stacked (s t : State) (k : Nat) (x : Stk) (pops : Nat) (res : List Word) : Prop :=
  (t.core k).bank.ptr x = (s.core k).bank.ptr x + 8 * pops - 8 * res.length
    ∧ (t.core k).bank.floor x = (s.core k).bank.floor x
    ∧ (∀ j, j < res.length → t.entry k x j = res.getD j 0)
    ∧ ∀ j, pops ≤ j → j < (s.core k).bank.depth x → t.entry k x (j - pops + res.length) = s.entry k x j

/-- The core's ring, bank state, masks and registers stand: nothing of a core changes but its current bank. -/
def CoreFrame (c c' : Core) : Prop :=
  c' = c.setBank c'.bank ∧ c'.bank.busy = c.bank.busy

/-- What a control-core instruction without a memory operand leaves after its fetch: every other core, every
partition but its cellar and dirty marks, and all else but the bytes that a stack spills to and the errors that they
replace (R136, R165). -/
def InstrFrame (s t : State) (k : Nat) : Prop :=
  t = { s with cores := t.cores, parts := t.parts, mem := t.mem, sram := t.sram, bad := t.bad }
    ∧ (∀ j, j ≠ k → t.core j = s.core j)
    ∧ ∀ p, t.part p = { s.part p with cellar := (t.part p).cellar, scheds := (t.part p).scheds }

/-- What a fetch leaves: of its core all but the lines of its L1I and the counter of their parity errors; of its
cluster all but the lines of L2, the counter of their parity errors and the merging buffer; and in memory all but what
the buffer puts in place (R204 to R208, R212, R213). -/
def FetchFrame (s t : State) (k : Nat) : Prop :=
  t = { s with free := t.free, cores := t.cores, clusters := t.clusters, mem := t.mem, parts := t.parts }
    ∧ (∀ j, j ≠ k → t.core j = s.core j)
    ∧ t.core k = { s.core k with l1i := (t.core k).l1i, ipar := (t.core k).ipar, issued := true }
    ∧ (∀ c, c ≠ clusterOf k → t.cluster c = s.cluster c)
    ∧ t.cluster (clusterOf k) = { s.cluster (clusterOf k) with
        l2 := { (s.cluster (clusterOf k)).l2 with
          lines := (t.cluster (clusterOf k)).l2.lines, parcnt := (t.cluster (clusterOf k)).l2.parcnt,
          mb := (t.cluster (clusterOf k)).l2.mb } }
    ∧ ∀ p, t.part p = { s.part p with cellar := (t.part p).cellar, scheds := (t.part p).scheds }

/-- The bytes of the entries that the cache of a stack holds in excess of what an instruction keeps: those
spilled (R165). -/
def Spilled (s : State) (k : Nat) (x : Stk) (keep a : Nat) : Prop :=
  ∃ i, keep ≤ i ∧ i < ((s.core k).bank.cache x).length ∧ spadAddr k ((s.core k).bank.ptr x + 8 * i) ≤ a
    ∧ a < spadAddr k ((s.core k).bank.ptr x + 8 * i) + 8

end Sys2Proof.Machine
end

