-- ==== Sys2Proof/Certificates/Slice0/Obligations.lean ====
section
/-!
DEFINITION. The statements for the provers, by family of commands. Names under Sys2Proof.Stated are tables and
conditions written from the specification for the statements alone.
-/
namespace Sys2Proof.Stated
end Sys2Proof.Stated

open Sys2Proof Sys2Proof.Machine Sys2Proof.Stated

/-! ### Stack, literal and arithmetic instructions -/

namespace Sys2Proof.Stated

/-- A row of the tables of R197 and R199: the core, the entries popped, and what is pushed for operands listed as
R196 lists them, the top on the right. -/
structure StackRow where
  k : CoreId
  pops : Nat
  out : List Word → List Word

def row0 (k : CoreId) (r : List Word) : StackRow := ⟨k, 0, fun _ => r⟩
def row1 (k : CoreId) (f : Word → List Word) : StackRow := ⟨k, 1, fun l => f (l.getD 0 0)⟩
def row2 (k : CoreId) (f : Word → Word → List Word) : StackRow := ⟨k, 2, fun l => f (l.getD 0 0) (l.getD 1 0)⟩
def row3 (k : CoreId) (f : Word → Word → Word → List Word) : StackRow :=
  ⟨k, 3, fun l => f (l.getD 0 0) (l.getD 1 0) (l.getD 2 0)⟩

/-- A comparison pushes 1 or 0 (R196). -/
def holds (p : Prop) [Decidable p] : List Word := [if p then 1 else 0]

def signedWord (i : Int) : Word := BitVec.ofInt 64 i

/-- The effects and results of R197, R198 and of LEA under R199, written from the tables' own columns. -/
def stackRow : Instr → Option StackRow
  | .nop k => some (row0 k [])
  | .drop k => some (row1 k (fun _ => []))
  | .dup k => some (row1 k (fun x => [x, x]))
  | .swap k => some (row2 k (fun x y => [y, x]))
  | .over k => some (row2 k (fun x y => [x, y, x]))
  | .rot k => some (row3 k (fun x y z => [y, z, x]))
  | .nip k => some (row2 k (fun _ y => [y]))
  | .tuck k => some (row2 k (fun x y => [y, x, y]))
  | .twoDrop k => some (row2 k (fun _ _ => []))
  | .twoDup k => some (row2 k (fun x y => [x, y, x, y]))
  | .lit8 k v => some (row0 k [signedWord v.toInt])
  | .lit16 k v => some (row0 k [signedWord v.toInt])
  | .lit32 k v => some (row0 k [signedWord v.toInt])
  | .lit64 k v => some (row0 k [v])
  | .litu32 k v => some (row0 k [BitVec.ofNat 64 v.toNat])
  | .addi8 k v => some (row1 k (fun x => [x + signedWord v.toInt]))
  | .addi32 k v => some (row1 k (fun x => [x + signedWord v.toInt]))
  | .add k => some (row2 k (fun x y => [x + y]))
  | .sub k => some (row2 k (fun x y => [x - y]))
  | .mul k => some (row2 k (fun x y => [BitVec.ofNat 64 (x.toNat * y.toNat)]))
  | .mulhs k => some (row2 k (fun x y => [signedWord (x.toInt * y.toInt / 2 ^ 64)]))
  | .mulhu k => some (row2 k (fun x y => [BitVec.ofNat 64 (x.toNat * y.toNat / 2 ^ 64)]))
  | .divs k => some (row2 k (fun x y => [if y = 0 then signedWord (-1) else signedWord (x.toInt.tdiv y.toInt)]))
  | .divu k => some (row2 k (fun x y => [if y = 0 then BitVec.allOnes 64 else BitVec.ofNat 64 (x.toNat / y.toNat)]))
  | .rems k => some (row2 k (fun x y => [if y = 0 then x else signedWord (x.toInt.tmod y.toInt)]))
  | .remu k => some (row2 k (fun x y => [if y = 0 then x else BitVec.ofNat 64 (x.toNat % y.toNat)]))
  | .neg k => some (row1 k (fun x => [signedWord (-x.toInt)]))
  | .abs k => some (row1 k (fun x => [signedWord x.toInt.natAbs]))
  | .mins k => some (row2 k (fun x y => [signedWord (min x.toInt y.toInt)]))
  | .maxs k => some (row2 k (fun x y => [signedWord (max x.toInt y.toInt)]))
  | .minu k => some (row2 k (fun x y => [BitVec.ofNat 64 (min x.toNat y.toNat)]))
  | .maxu k => some (row2 k (fun x y => [BitVec.ofNat 64 (max x.toNat y.toNat)]))
  | .and k => some (row2 k (fun x y => [x &&& y]))
  | .or k => some (row2 k (fun x y => [x ||| y]))
  | .xor k => some (row2 k (fun x y => [x ^^^ y]))
  | .not k => some (row1 k (fun x => [~~~x]))
  | .shl k => some (row2 k (fun x n => [BitVec.ofNat 64 (x.toNat * 2 ^ (n.toNat % 64))]))
  | .shr k => some (row2 k (fun x n => [BitVec.ofNat 64 (x.toNat / 2 ^ (n.toNat % 64))]))
  | .sar k => some (row2 k (fun x n => [signedWord (x.toInt / 2 ^ (n.toNat % 64))]))
  | .rol k => some (row2 k (fun x n => [x <<< (n.toNat % 64) ||| x >>> (64 - n.toNat % 64)]))
  | .ror k => some (row2 k (fun x n => [x >>> (n.toNat % 64) ||| x <<< (64 - n.toNat % 64)]))
  | .popc k => some (row1 k (fun x => [BitVec.ofNat 64 ((List.range 64).countP (fun i => x.getLsbD i))]))
  | .clz k => some (row1 k (fun x => [BitVec.ofNat 64 ((List.range 64).takeWhile (fun i => !x.getLsbD (63 - i))).length]))
  | .ctz k => some (row1 k (fun x => [BitVec.ofNat 64 ((List.range 64).takeWhile (fun i => !x.getLsbD i)).length]))
  | .sext8 k => some (row1 k (fun x => [signedWord (x.truncate 8).toInt]))
  | .sext16 k => some (row1 k (fun x => [signedWord (x.truncate 16).toInt]))
  | .sext32 k => some (row1 k (fun x => [signedWord (x.truncate 32).toInt]))
  | .zext32 k => some (row1 k (fun x => [BitVec.ofNat 64 (x.toNat % 2 ^ 32)]))
  | .eq k => some (row2 k (fun x y => holds (x = y)))
  | .ne k => some (row2 k (fun x y => holds (x ≠ y)))
  | .lts k => some (row2 k (fun x y => holds (x.toInt < y.toInt)))
  | .ltu k => some (row2 k (fun x y => holds (x.toNat < y.toNat)))
  | .les k => some (row2 k (fun x y => holds (x.toInt ≤ y.toInt)))
  | .leu k => some (row2 k (fun x y => holds (x.toNat ≤ y.toNat)))
  | .gts k => some (row2 k (fun x y => holds (y.toInt < x.toInt)))
  | .gtu k => some (row2 k (fun x y => holds (y.toNat < x.toNat)))
  | .ges k => some (row2 k (fun x y => holds (y.toInt ≤ x.toInt)))
  | .geu k => some (row2 k (fun x y => holds (y.toNat ≤ x.toNat)))
  | .zeq k => some (row1 k (fun x => holds (x = 0)))
  | .sel k => some (row3 k (fun x y f => [if f ≠ 0 then x else y]))
  | .lea k d => some (row1 k (fun a => [a + dispVal d]))
  | _ => none

/-- The entries an instruction pops, the top on the right. -/
def operands (s : State) (k n : Nat) : List Word := ((List.range n).map (fun i => s.entry k .data i)).reverse

end Sys2Proof.Stated

/-- Every stack, literal and arithmetic instruction of R197 and LEA, where it may run and its operands and results
fit: the step completes, the results of R197 and R198 replace the operands that its fetch finds, the return stack
stands, and the PC moves past the instruction. -/
def Obligations.StackInstructionsCompute : Prop :=
  ∀ (i : Instr) (r : StackRow) (s : State), stackRow i = some r →
    let k := r.k.val
    let f := s.fetched k (instrBytes i).length
    let res := (r.out (operands f k r.pops)).reverse
    s.Runs k (instrBytes i).length → s.Fits k .data r.pops res.length →
    ∃ t, exec i s = .next t ∧ Stacked f t k .data r.pops res
      ∧ (t.core k).pc = (s.core k).pc + BitVec.ofNat 64 (instrBytes i).length
      ∧ (t.core k).bank.rsp = (s.core k).bank.rsp ∧ (t.core k).bank.rs = (s.core k).bank.rs
      ∧ (t.core k).bank.rsFloor = (s.core k).bank.rsFloor

namespace Sys2Proof.Stated

/-- What the instructions of R197 and LEA leave alone after their fetch. -/
def StackInstructionsFrame : Prop :=
  ∀ (i : Instr) (r : StackRow) (s t : State), stackRow i = some r →
    let k := r.k.val
    let f := s.fetched k (instrBytes i).length
    let res := (r.out (operands f k r.pops)).reverse
    s.Runs k (instrBytes i).length → s.Fits k .data r.pops res.length → exec i s = .next t →
    InstrFrame f t k ∧ CoreFrame (f.core k) (t.core k)
      ∧ ∀ a, (k = maltsterCore ∨ ¬Spilled f k .data (16 + r.pops - res.length) a) → t.getByte a = f.getByte a

/-- Merging-buffer entries of a cluster hold bytes of lines of device memory (R210). -/
def BuffersMemory (s : State) (c : Nat) : Prop :=
  ∀ e ∈ (s.cluster c).l2.mb, e.line < memEnd / 64 ∧ ∀ b ∈ e.bytes, b.1 < 64

/-- A byte that no entry of a cluster's merging buffer holds. -/
def Unbuffered (s : State) (c b : Nat) : Prop :=
  ∀ e ∈ (s.cluster c).l2.mb, ∀ x ∈ e.bytes, e.line * 64 + x.1 ≠ b

/-- What every fetch leaves alone (R204 to R208, R212): all but its core's L1I, its cluster's L2 and merging buffer and
the bytes that the buffer puts in place; an entry of a line it does not read stays. -/
def FetchesKeep : Prop :=
  ∀ (s : State) (k n : Nat),
    let f := s.fetched k n
    let c := clusterOf k
    BuffersMemory s c → (∀ e ∈ (s.cluster c).l2.mb, s.poison.contains e.line = false) →
    FetchFrame s f k ∧ (∀ b, Unbuffered s c b → f.getByte b = s.getByte b)
      ∧ ∀ e ∈ (s.cluster c).l2.mb, (∀ i, i < n → (s.fetchAddr k ((s.core k).pc.toNat + i)).map (· / 64) ≠ some e.line) →
          n ≠ 0 → ∃ d, { e with draining := d } ∈ (f.cluster c).l2.mb
end Sys2Proof.Stated

/-! ### Return stack, control flow -/

namespace Sys2Proof.Stated

/-- A row of R197 or R199 that also touches the return stack or the PC: entries popped and read on both stacks, and
what the operands (the top on the right), the return-stack entries and the address after the instruction give: data
results, return-stack results (top on the right), and the address execution continues at. `keeps`: the only entry it
pushes is in the place of one it popped, so that it needs no room. -/
structure FlowRow where
  k : CoreId
  keeps : Bool := false
  pops : Nat := 0
  reads : Nat := 0
  rpops : Nat := 0
  rreads : Nat := 0
  eff : List Word → List Word → Word → List Word × List Word × Word

/-- A branch to a relative target when `c` holds (R190). -/
def branchTo (c : Prop) [Decidable c] (after rel : Word) : Word := if c then after + rel else after

/-- DBNZ: 1 is subtracted; a nonzero result is kept and branches (R199). -/
def countRow (k : CoreId) (rel : Word) : FlowRow :=
  { k := k, keeps := true, pops := 1, eff := fun d _ a =>
      let n := d.getD 0 0 - 1
      if n ≠ 0 then ([n], [], a + rel) else ([], [], a) }

/-- The effects of R197 and R199, written from the tables' own columns. -/
def flowRow : Instr → Option FlowRow
  | .pick k n => some { k := k, reads := n.toNat + 1, eff := fun d _ a => ([d.getD 0 0], [], a) }
  | .toR k => some { k := k, pops := 1, eff := fun d _ a => ([], [d.getD 0 0], a) }
  | .fromR k => some { k := k, rpops := 1, eff := fun _ r a => ([r.getD 0 0], [], a) }
  | .fetchR k => some { k := k, rreads := 1, eff := fun _ r a => ([r.getD 0 0], [], a) }
  | .rdrop k => some { k := k, rpops := 1, eff := fun _ _ a => ([], [], a) }
  | .leapc k rel => some { k := k, eff := fun _ _ a => ([a + signedWord rel.toInt], [], a) }
  | .br8 k rel => some { k := k, eff := fun _ _ a => ([], [], a + signedWord rel.toInt) }
  | .br32 k rel => some { k := k, eff := fun _ _ a => ([], [], a + signedWord rel.toInt) }
  | .bz8 k rel => some { k := k, pops := 1, eff := fun d _ a => ([], [], branchTo (d.getD 0 0 = 0) a (signedWord rel.toInt)) }
  | .bz32 k rel => some { k := k, pops := 1, eff := fun d _ a => ([], [], branchTo (d.getD 0 0 = 0) a (signedWord rel.toInt)) }
  | .bnz8 k rel => some { k := k, pops := 1, eff := fun d _ a => ([], [], branchTo (d.getD 0 0 ≠ 0) a (signedWord rel.toInt)) }
  | .bnz32 k rel => some { k := k, pops := 1, eff := fun d _ a => ([], [], branchTo (d.getD 0 0 ≠ 0) a (signedWord rel.toInt)) }
  | .dbnz8 k rel => some (countRow k (signedWord rel.toInt))
  | .dbnz32 k rel => some (countRow k (signedWord rel.toInt))
  | .call32 k rel => some { k := k, eff := fun _ _ a => ([], [a], a + signedWord rel.toInt) }
  | .calli k => some { k := k, pops := 1, eff := fun d _ a => ([], [a], d.getD 0 0) }
  | .ret k => some { k := k, rpops := 1, eff := fun _ r _ => ([], [], r.getD 0 0) }
  | .jmpi k => some { k := k, pops := 1, eff := fun d _ _ => ([], [], d.getD 0 0) }
  | _ => none

/-- The return-stack entries an instruction pops or reads, the top on the right. -/
def returns (s : State) (k n : Nat) : List Word := ((List.range n).map (fun i => s.entry k .ret i)).reverse

/-- What a row gives in a state. -/
def FlowRow.at_ (r : FlowRow) (s : State) (n : Nat) : List Word × List Word × Word :=
  r.eff (operands s r.k.val (max r.pops r.reads)) (returns s r.k.val (max r.rpops r.rreads))
    ((s.core r.k.val).pc + BitVec.ofNat 64 n)

/-- The conditions under which a row completes: it runs, what it reads and pops lies above the floors, what it pushes
fits, and the entries that move can be reached (R128, R136, R166, R195). -/
def FlowRow.ok (r : FlowRow) (s : State) (n : Nat) : Prop :=
  s.Runs r.k.val n
    ∧ s.Fits r.k.val .data r.pops (if r.keeps then 0 else (r.at_ (s.fetched r.k.val n) n).1.length) r.reads
    ∧ s.Fits r.k.val .ret r.rpops (r.at_ (s.fetched r.k.val n) n).2.1.length r.rreads

/-- The bytes behind the entries of the two stacks, cached or not, lie apart. -/
def StacksApart (s : State) (k : Nat) : Prop :=
  let b := (s.core k).bank
  b.dsp + 8 * max (b.depth .data) b.ds.length ≤ b.rsp ∨ b.rsp + 8 * max (b.depth .ret) b.rs.length ≤ b.dsp

end Sys2Proof.Stated

/-- PICK, >R, R>, R@, RDROP, LEAPC and every branch, call and return (R197, R199): the step completes, both stacks
take the effect of the table and execution continues where the table says. -/
def Obligations.ControlFlowComputes : Prop :=
  ∀ (i : Instr) (r : FlowRow) (s : State), flowRow i = some r →
    let k := r.k.val
    let n := (instrBytes i).length
    let f := s.fetched k n
    r.ok s n → StacksApart s k →
    ∃ t, exec i s = .next t ∧ Stacked f t k .data r.pops (r.at_ f n).1.reverse
      ∧ Stacked f t k .ret r.rpops (r.at_ f n).2.1.reverse ∧ (t.core k).pc = (r.at_ f n).2.2

namespace Sys2Proof.Stated

/-- What the instructions of those tables leave alone after their fetch: all but the core's current bank and the bytes
that the two stacks spill (R165). -/
def ControlFlowFrame : Prop :=
  ∀ (i : Instr) (r : FlowRow) (s t : State), flowRow i = some r →
    let k := r.k.val
    let n := (instrBytes i).length
    let f := s.fetched k n
    r.ok s n → exec i s = .next t →
    InstrFrame f t k ∧ CoreFrame (f.core k) (t.core k)
      ∧ ∀ a, (k = maltsterCore ∨ (¬Spilled f k .data (16 + r.pops - (r.at_ f n).1.length) a ∧ ¬Spilled f k .ret 15 a)) →
          t.getByte a = f.getByte a

end Sys2Proof.Stated

/-- Frames of every fetch and of the stack, literal, arithmetic, control-flow and LEA instructions. -/
def Obligations.StackAndControlFrame : Prop := FetchesKeep ∧ StackInstructionsFrame ∧ ControlFlowFrame

/-- A stack fault is precise and comes before any effect (R166, R175, R195): with fewer entries above the floor than it
pops an instruction of R197 takes STACK_UNDERFLOW, and with no room for those it pushes STACK_OVERFLOW, CAUSE naming
the data stack. -/
def Obligations.StackChecksFault : Prop :=
  ∀ (i : Instr) (r : StackRow) (s : State), stackRow i = some r →
    let k := r.k.val
    let m := (r.out (operands s k r.pops)).length
    s.Runs k (instrBytes i).length →
    ((s.core k).bank.depth .data < r.pops → exec i s = .next (s.raise k { code := 0x08, cause := 1 }))
    ∧ (r.pops ≤ (s.core k).bank.depth .data → m ≠ 0 →
        (s.core k).bank.dsp + 8 * r.pops < ((s.core k).dsr.get (s.core k).ring).lim + 8 * m →
        exec i s = .next (s.raise k { code := 0x07, cause := 1 }))
/-! ### Loads, stores, undefined opcodes -/

namespace Sys2Proof.Stated

/-- A row of the loads of R199: core, displacement, what the arrays report, bytes, and the extension. -/
structure LoadRow where
  k : CoreId
  d : Disp
  h : Finding
  n : Nat
  ext : Nat → Word

def zeroExt (v : Nat) : Word := BitVec.ofNat 64 v
/-- The low w bits of a number, sign-extended. -/
def signExt (w v : Nat) : Word := if 2 ^ (w - 1) ≤ v then signedWord ((v : Int) - 2 ^ w) else signedWord v

def loadRow : Instr → Option LoadRow
  | .ld8u k d h => some ⟨k, d, h, 1, zeroExt⟩
  | .ld8s k d h => some ⟨k, d, h, 1, signExt 8⟩
  | .ld16u k d h => some ⟨k, d, h, 2, zeroExt⟩
  | .ld16s k d h => some ⟨k, d, h, 2, signExt 16⟩
  | .ld32u k d h => some ⟨k, d, h, 4, zeroExt⟩
  | .ld32s k d h => some ⟨k, d, h, 4, signExt 32⟩
  | .ld64 k d h => some ⟨k, d, h, 8, zeroExt⟩
  | _ => none

/-- The physical bytes behind an access that every check of R182 lets pass: consecutive and aligned, as pages lie. -/
def Reaches (s : State) (k : Nat) (kind : AccKind) (va n : Nat) (pas : List Nat) : Prop :=
  ∃ ts, coreXlateN s k (s.core k).ring kind va n = .ok ts ∧ physAddrs ts = pas
    ∧ pas = rangeFrom (pas.headD 0) n ∧ pas.headD 0 % n = 0

/-- The byte that a load of core k reads at a physical address: of a scratchpad, a tun or a register its own; of device
memory the one in L1D, else in L2, else in memory once the line's merging-buffer entries are in place (R205, R206). -/
def seenByte (s : State) (k : Nat) (h : Finding) (a : Nat) : Byte :=
  if k = maltsterCore ∨ memEnd ≤ a then s.readByte a
  else
    let c := s.core k
    let l2 := (s.cluster (clusterOf k)).l2
    let l1 := if c.ddis || h.l1 then none else findLine c.l1d (a / 64)
    let l2h := if !l2.en || h.l2 then none else findLine l2.lines (a / 64)
    match l1, l2h with
    | some x, _ => x.data.getD (a % 64) 0
    | none, some x => x.data.getD (a % 64) 0
    | none, none => (s.lineInPlace (clusterOf k) (a / 64)).getByte a

/-- Whether a cache serves core k's loads from a line of device memory (R206). -/
def Cached (s : State) (k : Nat) (h : Finding) (a : Nat) : Prop :=
  k ≠ maltsterCore ∧ a < memEnd
    ∧ (h.l1 = false ∧ (s.core k).ddis = false ∧ (findLine (s.core k).l1d (a / 64)).isSome = true
        ∨ h.l2 = false ∧ (s.cluster (clusterOf k)).l2.en = true
            ∧ (findLine (s.cluster (clusterOf k)).l2.lines (a / 64)).isSome = true)

/-- A load's address is aligned and reached, and its data are delivered: a cache serves them, or the entry that holds
them can be corrected (R136, R182, R303). -/
def LoadRow.ok (r : LoadRow) (s : State) (n : Nat) (pas : List Nat) : Prop :=
  let k := r.k.val
  let f := s.fetched k n
  let a := f.entry k .data 0 + dispVal r.d
  s.Runs k n ∧ s.Fits k .data 1 1 ∧ a.toNat % r.n = 0 ∧ Reaches f k .read a.toNat r.n pas
    ∧ (Cached f k r.h (pas.headD 0) ∨ r.h.ecc ≠ .uncorrectable ∧ f.holdsError (pas.headD 0) = false)

/-- Every load that is reached and delivered completes: the bytes it reads, little-endian and extended as R199 says,
replace the address, and the PC moves on (R182, R189, R199, R205). -/
def LoadsRead : Prop :=
  ∀ (i : Instr) (r : LoadRow) (s : State) (pas : List Nat), loadRow i = some r →
    let k := r.k.val
    let n := (instrBytes i).length
    let f := s.fetched k n
    r.ok s n pas → BuffersMemory f (clusterOf k) →
    ∃ t, exec i s = .next t
      ∧ Stacked f t k .data 1 [r.ext (leNat (pas.map (seenByte f k r.h)))]
      ∧ (t.core k).pc = (s.core k).pc + BitVec.ofNat 64 n
      ∧ (t.core k).bank.rsp = (s.core k).bank.rsp ∧ (t.core k).bank.rs = (s.core k).bank.rs

/-- The core whose scratchpad holds a physical address. -/
def spadOf (a : Nat) : Option Nat := match placeOf a with | .spad k _ => some k | _ => none

/-- A load changes no byte but those its stack spills and, on a miss in the caches, those that merging-buffer entries
of its cluster hold; of a core nothing but its own current bank, its L1D and the counter of its parity errors, and the
SP_ registers of the scratchpad it reads; a host port only by the notice that a load of HOST_MBPOLL takes
(R199, R205, R370). -/
def LoadsFrame : Prop :=
  ∀ (i : Instr) (r : LoadRow) (s t : State) (pas : List Nat), loadRow i = some r →
    let k := r.k.val
    let n := (instrBytes i).length
    let f := s.fetched k n
    r.ok s n pas → BuffersMemory f (clusterOf k) → exec i s = .next t →
    t = { f with cores := t.cores, clusters := t.clusters, mem := t.mem, sram := t.sram, bad := t.bad, poison := t.poison,
                 parts := t.parts, hbms := t.hbms, detections := t.detections, hosts := t.hosts, free := t.free }
      ∧ (∀ j, j ≠ k → spadOf (pas.headD 0) ≠ some j → t.core j = f.core j)
      ∧ (∀ j, j ≠ k → t.core j = { f.core j with sp := (t.core j).sp })
      ∧ t.core k = { f.core k with banks := (f.core k).banks.set (f.core k).ring (t.core k).bank,
                                   l1d := (t.core k).l1d, dpar := (t.core k).dpar, sp := (t.core k).sp }
      ∧ (∀ p, t.part p = { f.part p with cellar := (t.part p).cellar, scheds := (t.part p).scheds })
      ∧ ∀ b, (k = maltsterCore ∨ ¬Spilled f k .data 16 b) → Unbuffered f (clusterOf k) b → t.getByte b = f.getByte b

end Sys2Proof.Stated

/-- Loads read the bytes at their address and leave everything else. -/
def Obligations.LoadsReadAndKeep : Prop := LoadsRead ∧ LoadsFrame

namespace Sys2Proof.Stated

/-- A row of the stores of R199: core, displacement, report, entries popped, and the bytes stored. -/
structure StoreRow where
  k : CoreId
  d : Disp
  h : Finding
  pops : Nat
  n : Nat
  value : List Word → Nat

/-- Little-endian bytes of a number (R3). -/
def bytesOf (n v : Nat) : List Byte := (List.range n).map (fun i => BitVec.ofNat 8 (v / 2 ^ (8 * i)))

def storeRow : Instr → Option StoreRow
  | .st8 k d h => some ⟨k, d, h, 2, 1, fun l => (l.getD 0 0).toNat⟩
  | .st16 k d h => some ⟨k, d, h, 2, 2, fun l => (l.getD 0 0).toNat⟩
  | .st32 k d h => some ⟨k, d, h, 2, 4, fun l => (l.getD 0 0).toNat⟩
  | .st64 k d h => some ⟨k, d, h, 2, 8, fun l => (l.getD 0 0).toNat⟩
  | .stiQ k d v h => some ⟨k, d, h, 1, 8, fun _ => v.toNat⟩
  | _ => none

/-- The bytes a row stores. -/
def StoreRow.bytes (r : StoreRow) (s : State) : List Byte := bytesOf r.n (r.value (operands s r.k.val r.pops))

/-- The address a row stores to. -/
def StoreRow.addr (r : StoreRow) (s : State) : Word := s.entry r.k.val .data 0 + dispVal r.d

/-- What a store is checked by before it has its effect: it runs, its operands lie above the floor, its address is
aligned and every byte is reached (R182, R189, R199). -/
def StoreRow.ok (r : StoreRow) (s : State) (len : Nat) (pas : List Nat) : Prop :=
  let f := s.fetched r.k.val len
  s.Runs r.k.val len ∧ s.Fits r.k.val .data r.pops 0 ∧ (r.addr f).toNat % r.n = 0
    ∧ Reaches f r.k.val .write (r.addr f).toNat r.n pas

/-- The memory in which a store of core k is in place at once: its own scratchpad, a tun, and for the maltster every
scratchpad and device memory (R182, R199). -/
def InPlaceAtOnce (k p : Nat) : Prop :=
  match placeOf p with
  | .spad k' _ => k' = k ∨ k = maltsterCore
  | .tun _ _ => True
  | .mem _ => k = maltsterCore
  | _ => False

/-- A store that is in place at once, into an entry that can be corrected (R136, R182, R199, R303): the operands leave,
the stored bytes stand at their addresses, and every other byte but those the stack spills stands. -/
def StoresPlace : Prop :=
  ∀ (i : Instr) (r : StoreRow) (s : State) (pas : List Nat), storeRow i = some r →
    let k := r.k.val
    let f := s.fetched k (instrBytes i).length
    r.ok s (instrBytes i).length pas → (∀ p ∈ pas, InPlaceAtOnce k p) →
    (r.h.ecc ≠ .uncorrectable ∨ pas.headD 0 < memEnd) → f.holdsError (pas.headD 0) = false →
    (∀ p ∈ pas, k = maltsterCore ∨ ¬Spilled f k .data (16 + r.pops) p) →
    ∃ t, exec i s = .next t ∧ (t.core k).bank.dsp = (s.core k).bank.dsp + 8 * r.pops
      ∧ (t.core k).pc = (s.core k).pc + BitVec.ofNat 64 (instrBytes i).length
      ∧ (∀ j, j < r.n → t.getByte (pas.getD j 0) = (r.bytes f).getD j 0)
      ∧ ∀ b, b ∉ pas → (k = maltsterCore ∨ ¬Spilled f k .data (16 + r.pops) b) → t.getByte b = f.getByte b

end Sys2Proof.Stated

/-- A store by a core to device memory enters its cluster's merging buffer and updates the line where L1D and L2 hold
it; memory itself stands (R209, R210, R213). -/
def Obligations.StoresMerge : Prop :=
  ∀ (i : Instr) (r : StoreRow) (s : State) (pas : List Nat), storeRow i = some r →
    let k := r.k.val
    let f := s.fetched k (instrBytes i).length
    let l2 := (f.cluster (clusterOf k)).l2
    let line := pas.headD 0 / 64
    let cells := (pas.map (fun p => p % 64)).zip (r.bytes f)
    let stored (parity : Bool) (ls : List CLine) : List CLine := if parity then dropLine ls line else updateLine ls line cells
    r.ok s (instrBytes i).length pas → k ≠ maltsterCore → (∀ p ∈ pas, p < memEnd) → mbRoom l2.mb line = true →
    ∃ t, exec i s = .next t ∧ (t.core k).bank.dsp = (s.core k).bank.dsp + 8 * r.pops
      ∧ (t.core k).pc = (s.core k).pc + BitVec.ofNat 64 (instrBytes i).length
      ∧ t.cluster (clusterOf k) = { f.cluster (clusterOf k) with
          l2 := { l2 with mb := mbMerge l2.mb line cells (k, (s.core k).stamp), lines := stored r.h.l2 l2.lines } }
      ∧ (t.core k).l1d = stored r.h.l1 (f.core k).l1d
      ∧ (t.core k).stamp = (s.core k).stamp + 1
      ∧ ∀ b, ¬Spilled f k .data (16 + r.pops) b → t.getByte b = f.getByte b

namespace Sys2Proof.Stated

/-- A store by a core to another core's scratchpad is posted: it waits, in issue order, for its window check (R130,
R182), and memory stands until then. -/
def StoresPost : Prop :=
  ∀ (i : Instr) (r : StoreRow) (s : State) (pas : List Nat) (k' off : Nat), storeRow i = some r →
    let k := r.k.val
    let f := s.fetched k (instrBytes i).length
    r.ok s (instrBytes i).length pas → k ≠ maltsterCore → k' ≠ k → placeOf (pas.headD 0) = .spad k' off →
    ∃ t, exec i s = .next t ∧ (t.core k).bank.dsp = (s.core k).bank.dsp + 8 * r.pops
      ∧ (t.core k).pc = (s.core k).pc + BitVec.ofNat 64 (instrBytes i).length
      ∧ (t.core k).posted = (s.core k).posted ++
          [{ addr := pas.headD 0, bytes := r.bytes f, iaddr := (s.core k).pc, stamp := (s.core k).stamp }]
      ∧ ∀ b, ¬Spilled f k .data (16 + r.pops) b → t.getByte b = f.getByte b

end Sys2Proof.Stated

/-- Stores to the own scratchpad and tuns are in place at once; to another scratchpad they are posted. -/
def Obligations.StoresPlaced : Prop := StoresPlace ∧ StoresPost

namespace Sys2Proof.Stated

/-- A load or store whose address is no multiple of its size raises ALIGNMENT with that address, and one whose byte
cannot be reached raises the fault of R182 with the first such byte (R175, R182). -/
def AccessesFault : Prop :=
  (∀ (i : Instr) (r : LoadRow) (s : State), loadRow i = some r →
    let k := r.k.val
    let f := s.fetched k (instrBytes i).length
    let a := f.entry k .data 0 + dispVal r.d
    s.Runs k (instrBytes i).length → s.Fits k .data 1 1 →
    (a.toNat % r.n ≠ 0 → exec i s = .next (f.raise k { code := 0x04, faddr := a }))
      ∧ ∀ e, a.toNat % r.n = 0 → coreXlateN f k (f.core k).ring .read a.toNat r.n = .error e →
          exec i s = .next (f.raise k { code := e.code, cause := e.cause, faddr := BitVec.ofNat 64 e.addr }))
  ∧ ∀ (i : Instr) (r : StoreRow) (s : State), storeRow i = some r →
    let k := r.k.val
    let f := s.fetched k (instrBytes i).length
    let a := r.addr f
    s.Runs k (instrBytes i).length → s.Fits k .data r.pops 0 →
    (a.toNat % r.n ≠ 0 → exec i s = .next (f.raise k { code := 0x04, faddr := a }))
      ∧ ∀ e, a.toNat % r.n = 0 → coreXlateN f k (f.core k).ring .write a.toNat r.n = .error e →
          exec i s = .next (f.raise k { code := e.code, cause := e.cause, faddr := BitVec.ofNat 64 e.addr })

/-- Bytes that make an illegal instruction raise ILLEGAL_INSTRUCTION at once, INFO0 giving the 8 bytes at IADDR (R176,
R194, R195). -/
def UndefinedOpcodeFaults : Prop :=
  ∀ (k : CoreId) (bytes : List Byte) (n : Nat) (s : State),
    illegalAt (s.core k.val).tmode (k.val == maltsterCore) bytes = some n →
    (s.core k.val).issues = true → s.takePending k.val .clean = none →
    s.fetchFaultN k.val (s.core k.val).pc.toNat n = none →
    exec (.undefinedOpcode k bytes) s = .next (s.raise k.val { code := 0x01, info0 := s.info0 k.val (bytes.take n) })

end Sys2Proof.Stated

/-- ALIGNMENT and access faults of loads and stores, and ILLEGAL_INSTRUCTION. -/
def Obligations.InstructionsFault : Prop := AccessesFault ∧ UndefinedOpcodeFaults

namespace Sys2Proof.Stated

/-- A store of 8 bytes by a core to a register of its own block, in a ring that may write it, writes the register
(R17, R447); memory stands. -/
def StoresWriteRegisters : Prop :=
  ∀ (i : Instr) (r : StoreRow) (s : State) (pas : List Nat) (off : Nat), storeRow i = some r → r.n = 8 →
    let k := r.k.val
    let f := s.fetched k (instrBytes i).length
    let v := BitVec.ofNat 64 (leNat (r.bytes f))
    r.ok s (instrBytes i).length pas → k ≠ maltsterCore → placeOf (pas.headD 0) = .coreReg k off →
    (s.core k).ring.val ≤ coreRegRing off v → off ≠ 8 →
    ∃ t, exec i s = .next t ∧ (t.core k).bank.dsp = (s.core k).bank.dsp + 8 * r.pops
      ∧ (t.core k).pc = (s.core k).pc + BitVec.ofNat 64 (instrBytes i).length
      ∧ (∃ b, t.core k = { coreRegStore false off v (f.core k) with banks := b })
      ∧ ∀ b, ¬Spilled f k .data (16 + r.pops) b → t.getByte b = f.getByte b

/-- A store through a remote page becomes a write on its connection when the connection has room (R326). -/
def StoresReachPeers : Prop :=
  ∀ (i : Instr) (r : StoreRow) (s : State) (ts : List Target) (p rk ci pva pg : Nat), storeRow i = some r →
    let k := r.k.val
    let f := s.fetched k (instrBytes i).length
    s.Runs k (instrBytes i).length → s.Fits k .data r.pops 0 → (r.addr f).toNat % r.n = 0 →
    coreXlateN f k (f.core k).ring .write (r.addr f).toNat r.n = .ok (.remote rk ci pva pg :: ts) →
    rk ≠ 2 → mboxFault rk pva pg r.n (r.addr f).toNat = none → f.partOfCore k = some p → f.cltRoom p ci = true →
    exec i s = .next
      ((((f.bump k).cltWrite p ci rk k pva pg (f.stampOf k) (r.bytes f)).stackEffect k .data r.pops []).advance k
        (instrBytes i).length)
end Sys2Proof.Stated

/-- Stores to registers write them, and stores through remote pages become writes on the connection. -/
def Obligations.StoresElsewhere : Prop := StoresWriteRegisters ∧ StoresReachPeers

/-! ### Events, TRAP and GRET -/

namespace Sys2Proof.Stated

/-- Entry E0 of a trap record from its fields (R173). -/
def recordE0 (code cause gate ring kind : Nat) (nest gie : Bool) : Word :=
  BitVec.ofNat 64 (code % 256 + 2 ^ 8 * (cause % 256) + 2 ^ 16 * (gate % 256) + 2 ^ 24 * (ring % 4) + 2 ^ 26 * (kind % 4)
    + 2 ^ 28 * nest.toNat + 2 ^ 29 * gie.toNat)

/-- Entry E6: DSFLOOR and RSFLOOR of the context entered from (R173). -/
def recordE6 (dsf rsf : Nat) : Word := BitVec.ofNat 64 (dsf % 2 ^ 21 + 2 ^ 21 * (rsf % 2 ^ 21))

/-- The eight entries of R173 stand on top of the return stack, E0 on top, RSFLOOR at the top. -/
def HasRecord (s t : State) (k : Nat) (ev : Ev) (kind : Nat) (nest : Bool) (rpc : Word) : Prop :=
  let c := s.core k
  t.entry k .ret 0 = recordE0 ev.code ev.cause ev.gate c.ring.val kind nest c.gie ∧ t.entry k .ret 1 = rpc
    ∧ t.entry k .ret 2 = ev.iaddr ∧ t.entry k .ret 3 = ev.faddr ∧ t.entry k .ret 4 = ev.info0 ∧ t.entry k .ret 5 = ev.info1
    ∧ t.entry k .ret 6 = recordE6 c.bank.dsFloor c.bank.rsFloor ∧ t.entry k .ret 7 = 0
    ∧ (t.core k).bank.rsFloor = (t.core k).bank.rsp

/-- The record fits above the RS LIM of ring m (R171). -/
def RecordFits (s : State) (k : Nat) (m : Fin 4) : Prop :=
  let c := s.core k
  (c.rsr.get m).lim + 64 ≤ (if (c.banks.get m).busy then (c.banks.get m).rsp else (c.rsr.get m).top)

/-- The ring that handles an exception (R176, R177). -/
def handlingRing (code : Nat) (ring : Fin 4) : Fin 4 :=
  toRing (min (if code = 0x0B ∨ code = 0x0C then 2 else if code = 0x11 then 0 else 1) ring.val)

/-- A precise fault whose record fits and whose handler can be fetched enters its ring (R171, R173, R175 to R177): the
lower of its table ring and the current ring, at CORE_VBASEm + code × 64, GIE 0, the record on top of the return stack,
RPC and IADDR the faulting instruction; the data stack of a busy bank stays where it is and a free bank starts at its
TOP; the units freeze. -/
def ExceptionsEnter : Prop :=
  ∀ (k : CoreId) (ev : Ev) (s : State),
    let c := s.core k.val
    let m := handlingRing ev.code c.ring
    let busy := (c.banks.get m).busy
    let t := s.raise k.val ev
    let e := { ev with kind := .precise, iaddr := c.pc }
    ev.code < 0x20 → RecordFits s k.val m → (m = c.ring ↔ busy = true) → s.spillFails k.val m .clean = none →
    (s.enter k.val e (c.exceptionEntry ev.code) c.pc).instrFetch k.val (c.vbase.get m * 4096 + ev.code * 64) = none →
    c.vbase.get m * 4096 + ev.code * 64 < 2 ^ 48 →
    (t.core k.val).ring = m ∧ (t.core k.val).gie = false ∧ (t.core k.val).bank.busy = true
      ∧ (t.core k.val).pc = BitVec.ofNat 64 (c.vbase.get m * 4096 + ev.code * 64)
      ∧ HasRecord s t k.val e 0 busy c.pc
      ∧ (t.core k.val).bank.dsFloor = (t.core k.val).bank.dsp
      ∧ (m = c.ring → (t.core k.val).bank.dsp = c.bank.dsp ∧ (t.core k.val).bank.rsp = c.bank.rsp - 64)
      ∧ (busy = false → (t.core k.val).bank.dsp = (c.dsr.get m).top ∧ (t.core k.val).bank.rsp = (c.rsr.get m).top - 64)
      ∧ (t.core k.val).tile.queue = [] ∧ (t.core k.val).tile.frozen = c.tile.frozen ++ c.tile.queue

/-- An event whose record does not fit, whose spill cannot complete, or whose handler's first instruction cannot be
fetched is a DOUBLE_FAULT into ring 0 with the failed code as its CAUSE, and where that fails as well the core halts:
HALT is set, the core issues nothing more and its launch aborts (R171, R180). A record that does not fit changes
nothing before that. -/
def DoubleFaultHalts : Prop :=
  ∀ (k : CoreId) (ev : Ev) (e : Entry) (rpc : Word) (h : Ecc) (s : State),
    let c := s.core k.val
    (¬RecordFits s k.val e.ring → s.tryEnter k.val ev e rpc h = .error s)
    ∧ (RecordFits s k.val e.ring → (c.banks.get e.ring).busy = true → h = .uncorrectable →
        8 < (c.banks.get e.ring).rs.length → ∃ t, s.tryEnter k.val ev e rpc h = .error t)
    ∧ (RecordFits s k.val e.ring → s.spillFails k.val e.ring h = none →
        ((s.enter k.val ev e rpc).instrFetch k.val e.target.toNat).isSome →
        s.tryEnter k.val ev e rpc h = .error (s.enter k.val ev e rpc))
    ∧ (ev.code ≠ 0x11 → ∀ t, s.tryEnter k.val ev e rpc h = .error t →
        let d := { ev with kind := .boundary, code := 0x11, cause := ev.code, gate := 0 }
        s.takeEvent k.val ev e rpc h =
          (match t.tryEnter k.val d ((t.core k.val).exceptionEntry 0x11) rpc .clean with
           | .ok u => u
           | .error u => u.haltCore k.val))
    ∧ (ev.code = 0x11 → ∀ t, s.tryEnter k.val ev e rpc h = .error t → s.takeEvent k.val ev e rpc h = t.haltCore k.val)
    ∧ ((s.haltCore k.val).core k.val).halt = true ∧ ((s.haltCore k.val).core k.val).issues = false

end Sys2Proof.Stated

/-- A precise fault enters its handler with its record; one that cannot enter is DOUBLE_FAULT or halts the core. -/
def Obligations.ExceptionsEnterOrHalt : Prop := ExceptionsEnter ∧ DoubleFaultHalts

namespace Sys2Proof.Stated

/-- What the next event of a core is (R178): the oldest deferred fault or rejection, else the oldest NAN_TRAP, else the
oldest ARITH, else the lowest enabled interrupt whose ring admits it. -/
def pendingEvent (c : Core) : Option Ev :=
  match oldest c.pendDef, oldest c.pendNan, oldest c.pendArith with
  | some p, _, _ => some p.ev
  | none, some p, _ => some p.ev
  | none, none, some p => some p.ev
  | none, none, none =>
    ((List.range 16).find? (fun i => c.ipend.getLsbD i && c.ie.getLsbD i && c.gie
      && decide ((if i = 0 then 0 else 1) ≤ c.ring.val))).map (fun i => { code := 0x20 + i, kind := .boundary })

/-- EVENT_ENTRY takes the next event in the order of R178, RPC being the instruction at the boundary: where its entry
succeeds, an interrupt's bit of CORE_IPEND clears; where it fails, the bit stands and the failure is taken (R179,
R180). -/
def EventsTaken : Prop :=
  ∀ (k : CoreId) (h : Ecc) (s : State) (ev : Ev),
    let c := s.core k.val
    c.run = .running → c.halt = false → c.presented = false → c.waiting = none → pendingEvent c = some ev →
    ∃ c' e, c.nextEvent = some (ev, e, c')
      ∧ (∀ t, (s.setCore k.val c').tryEnter k.val ev e c.pc h = .ok t → exec (.eventEntry k h) s = .next t
          ∧ (c.pendDef = [] → c.pendNan = [] → c.pendArith = [] →
              (t.core k.val).ipend = c.ipend &&& ~~~(BitVec.ofNat 16 (2 ^ (ev.code - 0x20)))
              ∧ e.target = BitVec.ofNat 64 (c.vbase.get (toRing (if ev.code = 0x20 then 0 else 1)) * 4096 + ev.code * 64)))
      ∧ ∀ t, (s.setCore k.val c').tryEnter k.val ev e c.pc h = .error t →
          exec (.eventEntry k h) s
            = .next ((t.modCore k.val (fun x => { x with ipend := x.ipend ||| c.ipend })).entryFailed k.val ev c.pc)

/-- The gate entry n as the table holds it: two quadwords at GTB × 4 KiB + 16 n (R169). -/
def gateLo (s : State) (k n : Nat) : Word := s.stackGet k ((s.core k).gtb * 4096 + 16 * n)
def gateHi (s : State) (k n : Nat) : Word := s.stackGet k ((s.core k).gtb * 4096 + 16 * n + 8)

/-- A core parked at its yield point with the given ENTRY (R381). -/
def parkedAt (s : State) (k : Nat) (arg : Word) : State :=
  s.modCore k (fun c => { c with run := .parked, yieldAt := arg.toNat })

/-- TRAP n enters its gate's ring at its TARGET where the checks of R170 pass, its arguments are there and fit, and every
entry it reads can be reached (R128, R136, R169 to R171): RPC is the next instruction, GIE is IEN; at the yield gate with
PREEMPT pending the core then parks (R381); a failed gate check raises GATE_FAULT with the cause of R170 and the gate
number. -/
def TrapEntersGate : Prop :=
  ∀ (k : CoreId) (n : BitVec 8) (h : Ecc) (s : State),
    let f := s.fetched k.val 2
    let o := (f.core k.val).gtb * 4096 + 16 * n.toNat
    let r := if k.val = maltsterCore then f else (f.eccRead (spadAddr k.val o) k.val h).1
    let c := s.core k.val
    let lo := gateLo f k.val n.toNat
    let ring := lo.toNat / 2 ^ 48 % 4
    let args := lo.toNat / 2 ^ 52 % 8
    s.Runs k.val 2 → (k.val = maltsterCore ∨ h ≠ .uncorrectable) → f.stackBar k.val [o] [] = none →
    (lo.getLsbD 63 = false → exec (.trap k n h) s = .next (r.raise k.val { code := 3, cause := 1, gate := n.toNat }))
    ∧ (lo.getLsbD 63 = true → (lo.toNat / 2 ^ 56 % 128 ≠ 0 ∨ gateHi f k.val n.toNat ≠ 0) →
        exec (.trap k n h) s = .next (r.raise k.val { code := 3, cause := 2, gate := n.toNat }))
    ∧ (lo.getLsbD 63 = true → lo.toNat / 2 ^ 56 % 128 = 0 → gateHi f k.val n.toNat = 0 →
        (lo.toNat / 2 ^ 50 % 4 < c.ring.val →
          exec (.trap k n h) s = .next (r.raise k.val { code := 3, cause := 3, gate := n.toNat }))
        ∧ (c.ring.val ≤ lo.toNat / 2 ^ 50 % 4 → c.ring.val < ring →
          exec (.trap k n h) s = .next (r.raise k.val { code := 3, cause := 4, gate := n.toNat }))
        ∧ (c.ring.val ≤ lo.toNat / 2 ^ 50 % 4 → ring ≤ c.ring.val → args ≤ c.bank.depth .data →
          ((c.banks.get (toRing ring)).busy = true
            ∨ (c.dsr.get (toRing ring)).lim + 8 * args ≤ (c.dsr.get (toRing ring)).top) →
          r.barOf k.val (r.core k.val).bank .data (if (c.banks.get (toRing ring)).busy then 0 else args) 0 0 = none →
          let u := r.takeEvent k.val { code := 0x40, gate := n.toNat, kind := .boundary, iaddr := c.pc }
            { ring := toRing ring, args := args, ien := lo.getLsbD 55, target := BitVec.ofNat 64 (lo.toNat % 2 ^ 48) }
            (c.pc + 2) .clean
          let yields := u.yieldGate k.val = some n.toNat ∧ (u.core k.val).ipend.getLsbD 0 = true ∧ (u.core k.val).halt = false
          (¬yields → exec (.trap k n h) s = .next u)
          ∧ (yields → exec (.trap k n h) s = .next (parkedAt u k.val (f.entry k.val .data 0)))))

/-- The entry of a TRAP through a gate (R171): into a free bank its ARGS entries move, in their order, onto the new data
stack and leave the caller's; into a busy bank they stay, and DSFLOOR is set above them. -/
def TrapMovesArguments : Prop :=
  ∀ (k : CoreId) (s : State) (ev : Ev) (e : Entry) (rpc : Word),
    let c := s.core k.val
    let t := s.takeEvent k.val ev e rpc .clean
    RecordFits s k.val e.ring → s.spillFails k.val e.ring .clean = none →
    (s.enter k.val ev e rpc).instrFetch k.val e.target.toNat = none →
    e.args ≤ c.bank.depth .data → (e.ring = c.ring ↔ (c.banks.get e.ring).busy = true) →
    e.args ≤ 7 → StacksApart s k.val →
    (t.core k.val).ring = e.ring ∧ (t.core k.val).pc = e.target ∧ (t.core k.val).gie = e.ien
      ∧ (∀ j, j < e.args → t.entry k.val .data j = s.entry k.val .data j)
      ∧ (e.ring = c.ring → (t.core k.val).bank.dsp = c.bank.dsp ∧ (t.core k.val).bank.dsFloor = c.bank.dsp + 8 * e.args)
      ∧ (e.ring ≠ c.ring → (t.core k.val).bank.dsFloor = (c.dsr.get e.ring).top
          ∧ (t.core k.val).bank.dsp = (c.dsr.get e.ring).top - 8 * e.args
          ∧ ((t.core k.val).banks.get c.ring).dsp = c.bank.dsp + 8 * e.args)

end Sys2Proof.Stated

/-- TRAP enters its gate or raises the fault of its failed check; its arguments move. -/
def Obligations.TrapsEnter : Prop := TrapEntersGate ∧ TrapMovesArguments

/-- GRET k returns where every check of R174 passes and the entries it moves can be reached (R128, R136): the record
leaves the return stack, GIE and the PC come from it, and the ring is FROM; in the same ring the top k entries sit at the
old floor and both floors come from E6; otherwise they go to bank FROM's stack and the bank left becomes free. The first
check that fails raises its fault. -/
def Obligations.GretReturns : Prop :=
  ∀ (k : CoreId) (n : Fin 8) (s : State),
    let f := s.fetched k.val 2
    let c := s.core k.val
    let e0 := (f.entry k.val .ret 0).toNat
    let src := toRing (e0 / 2 ^ 24 % 4)
    let e6 := (f.entry k.val .ret 6).toNat
    s.Runs k.val 2 →
    (c.bank.rsp ≠ c.bank.rsFloor → exec (.gret k n) s = .next (f.raise k.val { code := 3, cause := 5 }))
    ∧ (c.bank.rsp = c.bank.rsFloor → f.stackBar k.val (f.core k.val).bank.recordIns [] = none →
        let stops (e : Ev) : Prop := exec (.gret k n) s = .next (f.raise k.val e)
        (src.val < c.ring.val → stops { code := 3, cause := 6 })
        ∧ (c.ring.val ≤ src.val → n.val ≠ 0 → e0 % 256 ≠ 0x40 → stops { code := 3, cause := 5 })
        ∧ (c.ring.val ≤ src.val → n.val = 0 ∨ e0 % 256 = 0x40 → c.bank.depth .data < n.val → stops { code := 8, cause := 1 })
        ∧ (c.ring.val ≤ src.val → n.val = 0 ∨ e0 % 256 = 0x40 → n.val ≤ c.bank.depth .data → src ≠ c.ring →
            (c.banks.get src).dsp < (c.dsr.get src).lim + 8 * n.val → stops { code := 7, cause := 1 }))
    ∧ (c.bank.rsp = c.bank.rsFloor → f.stackBar k.val (f.core k.val).bank.recordIns [] = none →
        f.gretBar k.val n.val src = none →
        c.ring.val ≤ src.val → (n.val = 0 ∨ e0 % 256 = 0x40) → n.val ≤ c.bank.depth .data →
        (src = c.ring ∨ (c.dsr.get src).lim + 8 * n.val ≤ (c.banks.get src).dsp) →
        ∃ t, exec (.gret k n) s = .next t ∧ (t.core k.val).ring = src ∧ (t.core k.val).gie = e0.testBit 29
          ∧ (t.core k.val).pc = f.entry k.val .ret 1
          ∧ (src = c.ring → (t.core k.val).bank.rsp = c.bank.rsp + 64 ∧ (t.core k.val).bank.dsp = c.bank.dsFloor - 8 * n.val
              ∧ (t.core k.val).bank.dsFloor = e6 % 2 ^ 21 ∧ (t.core k.val).bank.rsFloor = e6 / 2 ^ 21 % 2 ^ 21
              ∧ (∀ j, j < n.val → t.entry k.val .data j = f.entry k.val .data j))
          ∧ (src ≠ c.ring → (t.core k.val).bank.dsp = (c.banks.get src).dsp - 8 * n.val
              ∧ ((t.core k.val).banks.get c.ring).busy = false
              ∧ (∀ j, j < n.val → t.entry k.val .data j = f.entry k.val .data j))
          ∧ (t.core k.val).tile.queue = c.tile.queue ++ c.tile.frozen.filter (fun x => x.ring == src)
          ∧ (t.core k.val).vsu.queue = c.vsu.queue ++ c.vsu.frozen.filter (fun x => x.ring == src))

/-! ### System instructions -/

namespace Sys2Proof.Stated

/-- An instruction that runs, with its operands there and room for its results. -/
def Ready (s : State) (k : CoreId) (i : Instr) (pops pushes : Nat) : Prop :=
  s.Runs k.val (instrBytes i).length ∧ s.Fits k.val .data pops pushes

/-- The state after the fetch of an instruction. -/
def fetchOf (s : State) (k : CoreId) (i : Instr) : State := s.fetched k.val (instrBytes i).length

/-- Where the PC of a completed instruction stands. -/
def pcAfter (s : State) (k : CoreId) (i : Instr) : Word := (s.core k.val).pc + BitVec.ofNat 64 (instrBytes i).length

/-- An instruction that waits: the PC stays at it, its operands are in place, and the core remembers it (R202). -/
def WaitsAt (s t : State) (k : CoreId) (i : Instr) : Prop :=
  (t.core k.val).waiting = some i ∧ (t.core k.val).pc = (s.core k.val).pc ∧ (t.core k.val).bank = (s.core k.val).bank

end Sys2Proof.Stated

/-- RDTIME, RDCYC, RDDSP and RDRSP push one value (R201, R321): DSP or RSP as it stood before; 0 while GTIME is unset, else
a value within 20 ns of it; a count of cycles, which this model leaves free. -/
def Obligations.ReadsPush : Prop :=
  ∀ (k : CoreId) (s : State),
    (Ready s k (.rddsp k) 0 1 → ∃ t, exec (.rddsp k) s = .next t ∧ (t.core k.val).pc = pcAfter s k (.rddsp k)
      ∧ Stacked (fetchOf s k (.rddsp k)) t k.val .data 0 [BitVec.ofNat 64 (s.core k.val).bank.dsp])
    ∧ (Ready s k (.rdrsp k) 0 1 → ∃ t, exec (.rdrsp k) s = .next t ∧ (t.core k.val).pc = pcAfter s k (.rdrsp k)
      ∧ Stacked (fetchOf s k (.rdrsp k)) t k.val .data 0 [BitVec.ofNat 64 (s.core k.val).bank.rsp])
    ∧ (Ready s k (.rdtime k) 0 1 → ∃ t x, exec (.rdtime k) s = .next t ∧ (t.core k.val).pc = pcAfter s k (.rdtime k)
      ∧ Stacked (fetchOf s k (.rdtime k)) t k.val .data 0 [x] ∧ (s.gt.set_ = false → x = 0)
      ∧ (s.gt.set_ = true → ∃ d : Nat, d ≤ 40 ∧ x = s.gt.t + BitVec.ofNat 64 d - 20))
    ∧ (Ready s k (.rdcyc k) 0 1 → ∃ t x, exec (.rdcyc k) s = .next t ∧ (t.core k.val).pc = pcAfter s k (.rdcyc k)
      ∧ Stacked (fetchOf s k (.rdcyc k)) t k.val .data 0 [x])

namespace Sys2Proof.Stated

/-- The line that an address operand names (R216): one of device memory that the core may read. -/
def NamesLine (s : State) (k : CoreId) (line : Nat) : Prop :=
  k.val ≠ maltsterCore ∧ ∃ pa img, coreXlate s k.val (s.core k.val).ring .read (s.entry k.val .data 0).toNat = .ok (.phys pa img)
    ∧ pa < memEnd ∧ pa / 64 = line

/-- Merging-buffer entries but for the mark that they drain. -/
def merging (mb : List MbEntry) : List MbEntry := mb.map (fun e => { e with draining := false })

/-- The instructions that act on a line. -/
def lineOp (k : CoreId) (i : Instr) : Prop := i = .dinv k ∨ i = .iinv k ∨ i = .l2fl k ∨ i = .l2inv k

end Sys2Proof.Stated

/-- DINV, IINV, L2FL and L2INV act on the line their address names, and on nothing where it names none; DINVA, IINVA,
L2FLA and L2INVA act on the whole cache or buffer (R216): lines leave L1D or L1I; entries of the merging buffer are in
place; an unlocked L2 line goes and a locked one is read again from memory. On the maltster the four of L2 are
ILLEGAL_INSTRUCTION (R203). -/
def Obligations.CacheMaintenance : Prop :=
  ∀ (k : CoreId) (s : State) (line : Nat),
    let cl := clusterOf k.val
    let f := fetchOf s k (.dinv k)
    let mb := (f.cluster cl).l2.mb
    (Ready s k (.dinv k) 1 0 → NamesLine f k line → ∃ t, exec (.dinv k) s = .next t ∧ (t.core k.val).pc = pcAfter s k (.dinv k)
      ∧ (t.core k.val).l1d = (s.core k.val).l1d.filter (fun x => x.line != line))
    ∧ (Ready s k (.iinv k) 1 0 → NamesLine f k line → ∃ t, exec (.iinv k) s = .next t ∧ (t.core k.val).pc = pcAfter s k (.iinv k)
      ∧ (t.core k.val).l1i = (f.core k.val).l1i.filter (fun x => x.line != line))
    ∧ (Ready s k (.dinva k) 0 0 → ∃ t, exec (.dinva k) s = .next t ∧ (t.core k.val).pc = pcAfter s k (.dinva k)
      ∧ (t.core k.val).l1d = [])
    ∧ (Ready s k (.iinva k) 0 0 → ∃ t, exec (.iinva k) s = .next t ∧ (t.core k.val).pc = pcAfter s k (.iinva k)
      ∧ (t.core k.val).l1i = [])
    ∧ (Ready s k (.l2fl k) 1 0 → NamesLine f k line →
      ∃ t, exec (.l2fl k) s = .next t ∧ (t.core k.val).pc = pcAfter s k (.l2fl k)
        ∧ merging (t.cluster cl).l2.mb = merging (mb.filter (fun e => e.line != line)))
    ∧ (Ready s k (.l2fla k) 0 0 → k.val ≠ maltsterCore → ∃ t, exec (.l2fla k) s = .next t
      ∧ (t.core k.val).pc = pcAfter s k (.l2fla k) ∧ (t.cluster cl).l2.mb = [])
    ∧ (Ready s k (.l2inv k) 1 0 → NamesLine f k line →
      ∃ t, exec (.l2inv k) s = .next t ∧ (t.core k.val).pc = pcAfter s k (.l2inv k)
        ∧ merging (t.cluster cl).l2.mb = merging (mb.filter (fun e => e.line != line))
        ∧ (t.cluster cl).l2.lines.filter (fun x => x.line != line)
            = (f.cluster cl).l2.lines.filter (fun x => x.line != line)
        ∧ ((f.cluster cl).l2.isLocked line = false → ∀ x ∈ (t.cluster cl).l2.lines, x.line ≠ line)
        ∧ ((f.cluster cl).l2.isLocked line = true → ∃ x ∈ (t.cluster cl).l2.lines, x.line = line
            ∧ (∀ y ∈ (t.cluster cl).l2.lines, y.line = line → y = x)
            ∧ x.data = (f.lineInPlace cl line).getBytes (line * 64) 64))
    ∧ (Ready s k (.l2inva k) 0 0 → k.val ≠ maltsterCore → (s.core k.val).ring.val ≤ 1 →
      ∃ t, exec (.l2inva k) s = .next t ∧ (t.core k.val).pc = pcAfter s k (.l2inva k) ∧ (t.cluster cl).l2.mb = []
        ∧ ∀ x ∈ (t.cluster cl).l2.lines, (s.cluster cl).l2.isLocked x.line = true)
    ∧ (∀ i, lineOp k i → k.val ≠ maltsterCore ∨ i = .dinv k ∨ i = .iinv k → Ready s k i 1 0 →
      (∀ l, ¬NamesLine f k l) → ∃ t, exec i s = .next t ∧ (t.core k.val).pc = pcAfter s k i
        ∧ t.cluster cl = f.cluster cl ∧ (t.core k.val).l1d = (f.core k.val).l1d ∧ (t.core k.val).l1i = (f.core k.val).l1i)
    ∧ (∀ i ∈ [Instr.l2fl k, .l2fla k, .l2inv k, .l2inva k], k.val = maltsterCore →
      (s.core k.val).issues = true → s.takePending k.val .clean = none →
      s.fetchFaultN k.val (s.core k.val).pc.toNat 1 = none →
      exec i s = .next (s.raise k.val { code := 0x01, info0 := s.info0 k.val (instrBytes i) }))

namespace Sys2Proof.Stated

/-- A store that core k issued before a place in its issue order is not in place: it is posted, merged, or in a CLT
write of the core's stream (R222, R337). -/
def Outstanding (s : State) (k stamp : Nat) : Prop :=
  (∃ p ∈ (s.core k).posted, p.stamp < stamp)
    ∨ (∃ e ∈ (s.cluster (clusterOf k)).l2.mb, ∃ w ∈ e.stores, w.1 = k ∧ w.2 < stamp)
    ∨ ∃ p, s.partOfCore k = some p ∧ ∃ c ∈ (s.part p).conns, ∃ o ∈ c.2.filling ++ c.2.unacked,
        o.stream = k ∧ o.type ≤ 2 ∧ ∃ x ∈ o.stamps, x < stamp

/-- A unit instruction that core k issued before a place in its issue order is unfinished. -/
def UnitsBusy (s : State) (k stamp : Nat) : Prop :=
  (∃ e ∈ (s.core k).tile.queue ++ (s.core k).tile.frozen, e.stamp < stamp)
    ∨ ∃ e ∈ (s.core k).vsu.queue ++ (s.core k).vsu.frozen, e.stamp < stamp

/-- A flag operation or post of core k is queued, or has not taken effect (R223, R236). -/
def FlagsOut (s : State) (k : Nat) : Prop :=
  (s.core k).flg.queue ≠ [] ∨ (∃ m ∈ s.flight, m.origin = some k)
    ∨ ∃ p, s.partOfCore k = some p ∧ ∃ c ∈ (s.part p).conns, ∃ o ∈ c.2.filling ++ c.2.unacked, o.origin = some k ∧ 3 ≤ o.type

/-- Everything that core k issued is done. -/
def AllDone (s : State) (k : Nat) : Prop :=
  ¬Outstanding s k (s.core k).stamp ∧ ¬UnitsBusy s k (s.core k).stamp ∧ ¬FlagsOut s k

/-- MFENCE, TEND and WAITI (R201, R202, R222): MFENCE completes where every store is in place and waits otherwise; TEND
completes where the units and the flag queue are done as well, and ends the task: the core issues nothing further and the
launch counts the task as ended; it waits otherwise; WAITI completes where an enabled interrupt is pending and waits
otherwise. -/
def FencesAndEnds : Prop :=
  ∀ (k : CoreId) (s : State),
    let c := s.core k.val
    let f := s.fetched k.val 1
    (Ready s k (.mfence k) 0 0 → ¬Outstanding f k.val c.stamp → ∃ t, exec (.mfence k) s = .next t
      ∧ (t.core k.val).pc = pcAfter s k (.mfence k) ∧ (t.core k.val).waiting = none)
    ∧ (Ready s k (.mfence k) 0 0 → Outstanding f k.val c.stamp → ∃ t, exec (.mfence k) s = .next t ∧ WaitsAt s t k (.mfence k))
    ∧ (Ready s k (.tend k) 0 0 → k.val ≠ maltsterCore → AllDone f k.val →
        ∃ t, exec (.tend k) s = .next t ∧ (t.core k.val).run = .ended ∧ (t.core k.val).issues = false
          ∧ ∀ p l, s.partOfCore k.val = some p → (s.part p).launch = some l →
              ∃ l', (t.part p).launch = some l' ∧ mget {} l'.tasks c.task = { mget {} l.tasks c.task with st := .ended, core := k.val })
    ∧ (Ready s k (.tend k) 0 0 → k.val ≠ maltsterCore → ¬AllDone f k.val →
        ∃ t, exec (.tend k) s = .next t ∧ WaitsAt s t k (.tend k))
    ∧ (Ready s k (.waiti k) 0 0 → c.ring.val ≤ 1 → c.ipend &&& c.ie ≠ 0 →
        ∃ t, exec (.waiti k) s = .next t ∧ (t.core k.val).pc = pcAfter s k (.waiti k))
    ∧ (Ready s k (.waiti k) 0 0 → c.ring.val ≤ 1 → c.ipend &&& c.ie = 0 →
        ∃ t, exec (.waiti k) s = .next t ∧ WaitsAt s t k (.waiti k))

/-- A privileged instruction above its ring raises PRIVILEGE (R168, R195). -/
def PrivilegedRings : Prop :=
  ∀ (k : CoreId) (s : State) (i : Instr), (i = .waiti k ∨ (i = .l2inva k ∧ k.val ≠ maltsterCore)) →
    s.Runs k.val (instrBytes i).length → 1 < (s.core k.val).ring.val → exec i s = .next (s.raise k.val { code := 0x02 })

end Sys2Proof.Stated

/-- MFENCE, TEND and WAITI complete, end or wait; privileged instructions above their ring raise PRIVILEGE. -/
def Obligations.SystemInstructions : Prop := FencesAndEnds ∧ PrivilegedRings

namespace Sys2Proof.Stated

/-- The instructions that may wait (R202, R233). -/
def mayWait : Instr → Bool
  | .ld8u _ _ _ | .ld8s _ _ _ | .ld16u _ _ _ | .ld16s _ _ _ | .ld32u _ _ _ | .ld32s _ _ _ | .ld64 _ _ _ => true
  | .st8 _ _ _ | .st16 _ _ _ | .st32 _ _ _ | .st64 _ _ _ | .stiQ _ _ _ _ => true
  | .tcfg _ _ | .tld _ _ _ _ | .tst _ _ _ _ | .tzero _ _ | .tmma _ _ _ _ _ | .tsta _ _ _ | .tspill _ _ _ | .tfill _ _ _ => true
  | .tcva _ _ _ _ | .tsync _ | .vexec _ _ | .vcache _ | .vsync _ | .dmaq _ _ | .dmaw _ _ | .engq _ _ | .engw _ _ => true
  | .fset _ _ | .fclr _ _ | .ftest _ _ | .fwait _ _ | .cfinc _ _ | .cfdec _ _ | .cfread _ _ | .cfwait _ _ => true
  | .rfset _ | .rcfinc _ | .rcfdec _ | .clfset _ _ | .clfclr _ _ | .clftest _ _ | .clfwait _ _ => true
  | .fenceF _ | .mfence _ | .mbpost _ _ | .tend _ | .waiti _ => true
  | _ => false

/-- A waiting instruction goes on from its start when it is resumed with no event pending, as if it had just issued; one
with an event pending takes it; an operation that its flag has not answered goes on waiting (R202, R230, R233). So a
WAITI whose interrupt has come completes. -/
def WaitingResumes : Prop :=
  ∀ (k : CoreId) (i : Instr) (s : State), (s.core k.val).waiting = some i → (s.core k.val).run = .running →
    (s.core k.val).halt = false →
    let u := s.modCore k.val (fun c => { c with waiting := none })
    ((s.core k.val).presented = false → s.takePending k.val .clean = none → mayWait i = true →
      exec (.waitConditionMet k) s = exec i u)
    ∧ ((s.core k.val).presented = true → exec (.waitConditionMet k) s = .next s)
    ∧ ((s.core k.val).presented = false → ∀ t, s.takePending k.val .clean = some t → exec (.waitConditionMet k) s = .next t)
    ∧ ((s.core k.val).presented = false → s.takePending k.val .clean = none → i = .waiti k → Ready u k (.waiti k) 0 0 →
        (s.core k.val).ring.val ≤ 1 → (s.core k.val).ipend &&& (s.core k.val).ie ≠ 0 →
        ∃ t, exec (.waitConditionMet k) s = .next t ∧ (t.core k.val).waiting = none ∧ (t.core k.val).pc = (s.core k.val).pc + 1)
end Sys2Proof.Stated

/-- EVENT_ENTRY takes the next event in order, and a waiting instruction resumes. -/
def Obligations.EventsAndWaits : Prop := EventsTaken ∧ WaitingResumes

/-! ### Flags and mailboxes -/

namespace Sys2Proof.Stated

/-- The flag a flag target word names on this device (R232): class [9:8], unit [19:10], flag [7:0]. -/
def wordTarget (w : Word) : FlagTarget :=
  let u := w.toNat / 2 ^ 10 % 1024
  let f := w.toNat % 256
  match w.toNat / 2 ^ 8 % 4 with
  | 0 => .bin u f
  | 1 => .cnt u f
  | _ => .cl u f

/-- A remote flag operation's entry: on this device, or on the NODE [40:21] that bit 20 says it names (R232). -/
def wordOp (w : Word) (a : FlagAct) : FqOp :=
  if w.getLsbD 20 then .remote (w.toNat / 2 ^ 21 % 2 ^ 20) w a else .flag (wordTarget w) a false

/-- A row of the flag queue: core, entries popped, the entry, whether the core then waits for a counted flag's answer, what
keeps it from issuing, and what its operand must be. -/
structure QueueRow where
  k : CoreId
  pops : Nat
  op : FqOp
  held : Bool := false
  stall : Prop := False
  ok : Prop := True

def engineNumber : EngKind → Nat
  | .gather => 1 | .select => 2 | .sampler => 3 | .fingerprint => 4

/-- The instructions that place an entry in the flag queue (R223, R230, R232, R246, R264). -/
def queueRow (s : State) : Instr → Option QueueRow
  | .fset k f => some { k := k, pops := 0, op := .flag (.bin k.val f.val) .set true }
  | .fclr k f => some { k := k, pops := 0, op := .flag (.bin k.val f.val) .clear true }
  | .clfset k f => some { k := k, pops := 0, op := .flag (.cl (clusterOf k.val) f.toNat) .set true }
  | .clfclr k f => some { k := k, pops := 0, op := .flag (.cl (clusterOf k.val) f.toNat) .clear true }
  | .cfinc k c => some {
      k := k, pops := 0, op := .flag (.cnt k.val c.val) .inc true, held := true
      stall := (s.core k.val).flg.queue ≠ [] ∨ Outstanding s k.val (s.core k.val).stamp ∨ UnitsBusy s k.val (s.core k.val).stamp }
  | .cfdec k c => some {
      k := k, pops := 0, op := .flag (.cnt k.val c.val) .dec true, held := true
      stall := (s.core k.val).flg.queue ≠ [] ∨ Outstanding s k.val (s.core k.val).stamp ∨ UnitsBusy s k.val (s.core k.val).stamp }
  | .rfset k => some {
      k := k, pops := 1, op := wordOp (s.entry k.val .data 0) .set
      ok := s.flagWordFault k.val (s.entry k.val .data 0) false = none }
  | .rcfinc k => some {
      k := k, pops := 1, op := wordOp (s.entry k.val .data 0) .inc
      ok := s.flagWordFault k.val (s.entry k.val .data 0) true = none }
  | .rcfdec k => some {
      k := k, pops := 1, op := wordOp (s.entry k.val .data 0) .dec
      ok := s.flagWordFault k.val (s.entry k.val .data 0) true = none }
  | .dmaq k c => some { k := k, pops := 1, op := .dma c.val (s.entry k.val .data 0), ok := (s.entry k.val .data 0).toNat % 64 = 0 }
  | .engq k e => some {
      k := k, pops := 1, op := .eng (engineNumber e) (s.entry k.val .data 0)
      stall := 16 ≤ ((s.cluster (clusterOf k.val)).eng (engineNumber e)).queue.length
      ok := (s.entry k.val .data 0).toNat % 64 = 0 }
  | _ => none

end Sys2Proof.Stated

/-- FSET, FCLR, CLFSET, CLFCLR, CFINC, CFDEC, RFSET, RCFINC, RCFDEC, DMAQ and ENGQ enter the core's flag queue with the place
in its issue order and their own address; they wait with no effect while it holds 8 entries, ENGQ also while its engine
holds 16 descriptors, CFINC and CFDEC also while anything that they follow is under way (R202, R223, R230, R264). CFINC and
CFDEC then wait for their flag's answer. -/
def Obligations.FlagQueueTakes : Prop :=
  ∀ (i : Instr) (s : State) (k : CoreId) (r : QueueRow),
    queueRow (fetchOf s k i) i = some r → r.k = k → k.val ≠ maltsterCore → Ready s k i r.pops 0 → r.ok →
    ((s.core k.val).flg.queue.length < 8 → ¬r.stall →
      ∃ t, exec i s = .next t
        ∧ (t.core k.val).flg.queue = (s.core k.val).flg.queue ++ [⟨r.op, (s.core k.val).stamp, (s.core k.val).pc⟩]
        ∧ (t.core k.val).stamp = (s.core k.val).stamp + 1 ∧ (t.core k.val).bank.dsp = (s.core k.val).bank.dsp + 8 * r.pops
        ∧ (r.held = false → (t.core k.val).pc = pcAfter s k i ∧ (t.core k.val).waiting = none)
        ∧ (r.held = true → (t.core k.val).presented = true ∧ WaitsAt s t k i))
    ∧ ((8 ≤ (s.core k.val).flg.queue.length ∨ r.stall) → ∃ t, exec i s = .next t ∧ WaitsAt s t k i
        ∧ (t.core k.val).flg = (s.core k.val).flg)

namespace Sys2Proof.Stated

/-- No operation of the core on a flag is under way (R235). -/
def NoneOwn (s : State) (k : Nat) (g : FlagTarget) : Prop :=
  (∀ e ∈ (s.core k).flg.queue, ∀ a own, e.op ≠ .flag g a own) ∧ ∀ m ∈ s.flight, ¬(m.origin = some k ∧ m.target = g)

/-- The value of a flag: a bit of F, of the cluster flags, or a counter (R227, R230). -/
def flagValue (s : State) : FlagTarget → Nat
  | .bin k f => ((s.core k).flg.f.getLsbD f).toNat
  | .cl c f => ((s.cluster c).flags.getLsbD f).toNat
  | .cnt k c => mget 0 (s.core k).flg.cf c

/-- FTEST, CLFTEST and CFREAD push the flag's value; FWAIT, CLFWAIT and CFWAIT complete when the flag is 1 or the counter
has reached n, and wait otherwise; all of them wait for the core's own operations on the flag (R201, R227, R230, R235). -/
def FlagsRead : Prop :=
  ∀ (k : CoreId) (s : State) (f : Fin 64) (c : Fin 16) (b : BitVec 8), k.val ≠ maltsterCore →
    (∀ (i : Instr) (g : FlagTarget),
      (i = .ftest k f ∧ g = .bin k.val f.val) ∨ (i = .clftest k b ∧ g = .cl (clusterOf k.val) b.toNat)
        ∨ (i = .cfread k c ∧ g = .cnt k.val c.val) →
      Ready s k i 0 1 → (NoneOwn s k.val g → ∃ t, exec i s = .next t ∧ (t.core k.val).pc = pcAfter s k i
        ∧ Stacked (fetchOf s k i) t k.val .data 0 [BitVec.ofNat 64 (flagValue s g)])
        ∧ (¬NoneOwn s k.val g → ∃ t, exec i s = .next t ∧ WaitsAt s t k i))
    ∧ (∀ (i : Instr) (g : FlagTarget) (n : Nat) (pops : Nat),
      (i = .fwait k f ∧ g = .bin k.val f.val ∧ n = 1 ∧ pops = 0)
        ∨ (i = .clfwait k b ∧ g = .cl (clusterOf k.val) b.toNat ∧ n = 1 ∧ pops = 0)
        ∨ (i = .cfwait k c ∧ g = .cnt k.val c.val ∧ n = ((fetchOf s k i).entry k.val .data 0).toNat ∧ n ≤ 65535 ∧ pops = 1) →
      Ready s k i pops 0 → (NoneOwn s k.val g ∧ n ≤ flagValue s g → ∃ t, exec i s = .next t ∧ (t.core k.val).pc = pcAfter s k i
        ∧ (t.core k.val).bank.dsp = (s.core k.val).bank.dsp + 8 * pops)
        ∧ (¬(NoneOwn s k.val g ∧ n ≤ flagValue s g) → ∃ t, exec i s = .next t ∧ WaitsAt s t k i))
    ∧ (Ready s k (.cfwait k c) 1 0 → 65535 < ((fetchOf s k (.cfwait k c)).entry k.val .data 0).toNat →
        exec (.cfwait k c) s = .next ((fetchOf s k (.cfwait k c)).raise k.val
          { code := 0x0F, cause := 0x10, info0 := (fetchOf s k (.cfwait k c)).entry k.val .data 0 }))

/-- FENCE.F, DMAW and ENGW complete when the core's flag operations are performed, its channel has no list outstanding or
its engine holds no descriptor of the core, and wait otherwise; FWATCH arms the watch of a flag, which fires interrupt
0x22 at once when the flag is 1 (R229, R236, R246, R264). -/
def FlagWaits : Prop :=
  ∀ (k : CoreId) (s : State) (f : Fin 64) (c : Fin 16) (e : EngKind), k.val ≠ maltsterCore →
    let q := (s.core k.val).flg.queue
    let ch := s.dmaChan (clusterOf k.val) c.val
    let en := engineNumber e
    (Ready s k (.fenceF k) 0 0 → ¬FlagsOut s k.val → ∃ t, exec (.fenceF k) s = .next t
        ∧ (t.core k.val).pc = pcAfter s k (.fenceF k))
    ∧ (Ready s k (.fenceF k) 0 0 → FlagsOut s k.val → ∃ t, exec (.fenceF k) s = .next t ∧ WaitsAt s t k (.fenceF k))
    ∧ (Ready s k (.dmaw k c) 0 0 → (∀ x ∈ q, ∀ a, x.op ≠ .dma c.val a) → ch.lists = [] → ch.later = [] →
        ∃ t, exec (.dmaw k c) s = .next t ∧ (t.core k.val).pc = pcAfter s k (.dmaw k c))
    ∧ (Ready s k (.dmaw k c) 0 0 → (∃ x ∈ q, ∃ a, x.op = .dma c.val a) ∨ ch.lists ≠ [] ∨ ch.later ≠ [] → ∃ t, exec (.dmaw k c) s = .next t ∧ WaitsAt s t k (.dmaw k c))
    ∧ (Ready s k (.engw k e) 0 0 → (∀ x ∈ q, ∀ a, x.op ≠ .eng en a) →
        (∀ x ∈ ((s.cluster (clusterOf k.val)).eng en).queue, x.core ≠ k.val) →
        ∃ t, exec (.engw k e) s = .next t ∧ (t.core k.val).pc = pcAfter s k (.engw k e))
    ∧ (Ready s k (.engw k e) 0 0 → (∃ x ∈ q, ∃ a, x.op = .eng en a)
          ∨ (∃ x ∈ ((s.cluster (clusterOf k.val)).eng en).queue, x.core = k.val) →
        ∃ t, exec (.engw k e) s = .next t ∧ WaitsAt s t k (.engw k e))
    ∧ (Ready s k (.fwatch k f) 0 0 → ∃ t, exec (.fwatch k f) s = .next t ∧ (t.core k.val).pc = pcAfter s k (.fwatch k f)
        ∧ ((s.core k.val).flg.f.getLsbD f.val = true → (t.core k.val).ipend.getLsbD 2 = true)
        ∧ ((s.core k.val).flg.f &&& (s.core k.val).flg.watch = 0 → (s.core k.val).flg.f.getLsbD f.val = false →
            (t.core k.val).flg.watch.getLsbD f.val = true))

end Sys2Proof.Stated

/-- Flag tests, reads, waits and watches complete by the value of their flag, and wait otherwise. -/
def Obligations.FlagsReadAndWait : Prop := FlagsRead ∧ FlagWaits

/-- FLAG_QUEUE_PERFORM takes the head of a core's flag queue once the writes before it are in place and its unit has room
(R223, R246, R264): a flag operation goes on its way to its flag, a list to its channel, a descriptor to its engine, an operation on another
device to its connection; while an earlier store waits, the entry stays; one that announces data behind a rejected write
of its stream is dropped (R133). -/
def Obligations.FlagQueuePerforms : Prop :=
  ∀ (k : CoreId) (s : State) (e : FqEntry) (rest : List FqEntry) (p : Nat),
    let t1 := s.modCore k.val (fun c => { c with flg := { c.flg with queue := rest } })
    let cl := clusterOf k.val
    (s.core k.val).flg.queue = e :: rest → s.partOfCore k.val = some p → (s.core k.val).run ≠ .stopped →
    (s.entryOrdered p k.val e = true → s.entryRoom p k.val e.op = true → (s.core k.val).rejAt = none →
      (∀ g a own, e.op = .flag g a own → exec (.flagQueuePerform k) s
          = .next (t1.flagSend { target := g, act := a, source := k.val, rank := if own then 18 else 0, origin := some k.val }))
      ∧ (∀ ch a, e.op = .dma ch a → exec (.flagQueuePerform k) s = .next (t1.listQueue p cl ch a.toNat))
      ∧ (∀ n a, e.op = .eng n a → exec (.flagQueuePerform k) s
          = .next (t1.modEng cl n (fun x => { x with queue := x.queue ++ [{ addr := a.toNat, core := k.val }] })))
      ∧ (∀ ci ch notice, e.op = .post ci ch notice → exec (.flagQueuePerform k) s
          = .next (t1.cltPost p ci k.val ch notice (some k.val)))
      ∧ (∀ node w a ci, e.op = .remote node w a → t1.connTo p node = some ci → exec (.flagQueuePerform k) s
          = .next ((t1.cltFlushStream p k.val).cltIssue p ci
              { type := 3, stream := k.val, e0 := BitVec.ofNat 64 (w.toNat % 2 ^ 20),
                e1 := match a with | .inc => 1 | .dec => 2 | _ => 0, sched := (t1.part p).launchId, origin := some k.val })))
    ∧ ((∃ x ∈ (s.core k.val).posted, x.stamp < e.stamp) →
        ∃ t, exec (.flagQueuePerform k) s = .next t ∧ (t.core k.val).flg.queue = e :: rest)
    ∧ (s.entryOrdered p k.val e = true → s.entryRoom p k.val e.op = true → e.op.announces = true →
        (∃ r, (s.core k.val).rejAt = some r ∧ r < e.stamp) → (s.core k.val).presented = false →
        exec (.flagQueuePerform k) s = .next t1)

namespace Sys2Proof.Stated

/-- FLAG_ARRIVAL: a set wins over clears that reach a binary flag in one cycle; on a counter the increments come before the
decrements, each adds or subtracts 1, and it stays between 0 and 65,535 (R228, R230, R234). -/
def FlagsArrive : Prop :=
  ∀ (s : State) (g : FlagTarget) (ms : List FlagMsg), s.flight = ms → (∀ m ∈ ms, m.target = g) → ms ≠ [] →
    ((∃ m ∈ ms, m.act = .set) → (∀ k c, g ≠ .cnt k c) →
      ∃ t, exec (.flagArrival g ms.length) s = .next t ∧ t.flight = [] ∧ ((∀ c f, g = .cl c f → f < 256) →
        (∀ k f, g = .bin k f → f < 64) → flagValue t g = 1))
    ∧ ((∀ m ∈ ms, m.act = .clear) → (∀ k c, g ≠ .cnt k c) →
      ∃ t, exec (.flagArrival g ms.length) s = .next t ∧ t.flight = [] ∧ flagValue t g = 0)
    ∧ (∀ k c, g = .cnt k c → (∀ m ∈ ms, m.act = .inc ∨ m.act = .dec) → (∀ m ∈ ms, m.rank < 18) →
        flagValue s g + (ms.filter (fun m => m.act == .inc)).length ≤ 65535 →
        (ms.filter (fun m => m.act == .dec)).length ≤ flagValue s g + (ms.filter (fun m => m.act == .inc)).length →
      ∃ t, exec (.flagArrival g ms.length) s = .next t ∧ t.flight = []
        ∧ flagValue t g = flagValue s g + (ms.filter (fun m => m.act == .inc)).length - (ms.filter (fun m => m.act == .dec)).length)

/-- A core's own CFDEC that meets a counter at 0 raises FLAG_UNDERFLOW cause 1 as a precise fault; a remote decrement there
sets LIM and aborts the launch (R230, R231). -/
def CountersUnderflow : Prop :=
  ∀ (s : State) (k c : Nat) (m : FlagMsg), s.flight = [m] → m.target = .cnt k c → m.act = .dec → mget 0 (s.core k).flg.cf c = 0 →
    (m.rank = 18 → (s.core k).presented = true → exec (.flagArrival (.cnt k c) 1) s
      = .next ((({ s with flight := [] } : State).modCore k (fun x => { x with waiting := none, presented := false })).raise k
          { code := 0x0D, cause := 1, info0 := BitVec.ofNat 64 c }))
    ∧ (m.rank < 18 → ∃ t, exec (.flagArrival (.cnt k c) 1) s = .next t ∧ (t.core k).flg.lim = true
        ∧ (t.core k).flg.ldir = true ∧ (t.core k).flg.lcf = c ∧ (t.core k).flg.lsrc = m.source)

end Sys2Proof.Stated

/-- Flag operations that arrive take effect together, and counters at their limits report. -/
def Obligations.FlagsArriveAndUnderflow : Prop := FlagsArrive ∧ CountersUnderflow

namespace Sys2Proof.Stated

/-- The precise fault of a refused post (R239). -/
def postFault (s : State) (ch : Nat) : MbRefusal → Ev
  | .devblock => { code := 6, cause := 6 }
  | .partition => { code := 6, cause := 2 }
  | .off => { code := 0x0E, cause := 2, info0 := BitVec.ofNat 64 ch, info1 := BitVec.ofNat 64 (s.mbx.chan ch).rcv }
  | .full => { code := 0x0E, cause := 1, info0 := BitVec.ofNat 64 ch, info1 := BitVec.ofNat 64 (s.mbx.chan ch).rcv }

/-- The state in which MBPOST posts: the packets that its stream was filling are sent, its merged stores drain. -/
def flushed (s : State) (k : Nat) : State :=
  match s.partOfCore k with
  | some p => (s.drainCore k).cltFlushStream p k
  | none => s.drainCore k

end Sys2Proof.Stated

/-- MBPOST appends its notice with the channel's SEQ once everything of the core is done and the checks of R239 pass, waits
until then, and raises the fault of a check that fails; MBPOLL takes the oldest notice of a channel that the core
receives, x and f being 0 on an empty one (R239 to R241). A channel that is not the core's raises ACCESS_FAULT cause
DEVBLOCK. SEQ counts the accepted posts, from 0 at reset. -/
def Obligations.MailboxesDeliver : Prop :=
  ∀ (k : CoreId) (ch : BitVec 8) (s : State),
    let c := s.mbx.chan ch.toNat
    let me := if k.val = maltsterCore then 0x410 else k.val
    let f := s.fetched k.val 2
    (Ready s k (.mbpost k ch) 1 0 → AllDone f k.val → f.mbCheck ch.toNat me = none →
        ∃ t, exec (.mbpost k ch) s = .next t ∧ (t.core k.val).pc = pcAfter s k (.mbpost k ch)
          ∧ (t.mbx.chan ch.toNat).notices = c.notices ++ [((f.entry k.val .data 0).toNat % 2 ^ 32, c.seq)]
          ∧ (t.mbx.chan ch.toNat).seq = (c.seq + 1) % 65536)
    ∧ (Ready s k (.mbpost k ch) 1 0 → AllDone f k.val → ∀ r, f.mbCheck ch.toNat me = some r →
        exec (.mbpost k ch) s = .next ((flushed f k.val).raise k.val (postFault s ch.toNat r)))
    ∧ (Ready s k (.mbpost k ch) 1 0 → ¬AllDone f k.val → ∃ t, exec (.mbpost k ch) s = .next t ∧ WaitsAt s t k (.mbpost k ch)
        ∧ t.mbx = s.mbx)
    ∧ (Ready s k (.mbpoll k ch) 0 2 → c.v = true → c.rcv = me →
        ∃ t x g, exec (.mbpoll k ch) s = .next t ∧ (t.core k.val).pc = pcAfter s k (.mbpoll k ch)
          ∧ Stacked f t k.val .data 0 [g, x]
          ∧ (c.notices = [] → g = 0 ∧ x = 0)
          ∧ (∀ n q l, c.notices = (n, q) :: l → g = 1 ∧ x.toNat = n % 2 ^ 32 + c.snd % 2 ^ 12 * 2 ^ 32 + q % 2 ^ 16 * 2 ^ 44
              ∧ (t.mbx.chan ch.toNat).notices = l))
    ∧ (Ready s k (.mbpoll k ch) 0 2 → (c.v = false ∨ c.rcv ≠ me) →
        exec (.mbpoll k ch) s = .next (f.raise k.val { code := 6, cause := 6 }))
    ∧ (State.reset.mbx.chan ch.toNat).seq = 0

/-! ### The tile unit -/

namespace Sys2Proof.Stated

/-- The largest number of elements in a row, by format code (R69); 0 where the code is no tile format. -/
def largestCols (fmt : Nat) : Nat :=
  ([16, 32, 32, 64, 64, 84, 84, 128, 64, 128, 16, 64] : List Nat).getD fmt 0

/-- A tile shape word is legal (R68, R69). -/
def LegalShape (w : Nat) : Prop :=
  w.testBit 23 = true ∧ w / 2 ^ 13 % 8 = 0 ∧ w / 2 ^ 20 % 8 = 0 ∧ w / 64 % 128 + 1 ≤ largestCols (w / 2 ^ 16 % 16)

def shapeOf (w : Nat) : TShape := ⟨w % 64 + 1, w / 64 % 128 + 1, (Fmt.ofCode (w / 2 ^ 16 % 16)).getD .fp32⟩

/-- A row of R77: the core, the entries popped, the shaped operands in the order of R71 with their prefixed words, the
queued operation from shape words and operands (the top on the right), and what its own checks accept. -/
structure TileRow where
  k : CoreId
  pops : Nat
  shaped : List (Fin 8 × Option (BitVec 24))
  op : List Nat → List Word → TileOp
  ok : List Nat → List Word → Bool

def tileRow77 : Instr → Option TileRow
  | .tld k t d shp => some ⟨k, 2, [(t, shp)], fun w o => .tld t.val (o.getD 0 0 + dispVal d) (o.getD 1 0) (w.getD 0 0),
      fun _ _ => true⟩
  | .tst k t d shp => some ⟨k, 2, [(t, shp)], fun w o => .tst t.val (o.getD 0 0 + dispVal d) (o.getD 1 0) (w.getD 0 0),
      fun _ _ => true⟩
  | .tzero k (.tile t) => some ⟨k, 0, [], fun _ _ => .tzeroT t.val, fun _ _ => true⟩
  | .tzero k (.acc a) => some ⟨k, 0, [], fun _ _ => .tzeroA a.val, fun _ _ => true⟩
  | .tmma k a ta tb shp => some ⟨k, 1, [(ta, shp.map (·.1)), (tb, shp.map (·.2))],
      fun w o => .tmma a.val ta.val tb.val (w.getD 0 0) (w.getD 1 0) (o.getD 0 0),
      fun w o => (mmaCheck (shapeOf (w.getD 0 0)) (shapeOf (w.getD 1 0)) (o.getD 0 0)).isNone⟩
  | .tsta k a d => some ⟨k, 5, [], fun _ o => .tsta a.val (o.getD 0 0 + dispVal d) (o.getD 1 0) (o.getD 2 0) (o.getD 3 0) (o.getD 4 0),
      fun _ o => (rdCheck (o.getD 4 0) true).isOk⟩
  | .tcva k t a shp => some ⟨k, 3, [(t, shp)], fun w o => .tcva t.val a.val (w.getD 0 0) (o.getD 0 0) (o.getD 1 0) (o.getD 2 0),
      fun w o => decide ((shapeOf (w.getD 0 0)).cols ≤ 64) && (shapeOf (w.getD 0 0)).fmt != .e8m0
        && (rdCheck (o.getD 2 0) false).isOk⟩
  | .tspill k a d => some ⟨k, 1, [], fun _ o => .tspill a.val (o.getD 0 0) (dispVal d), fun _ _ => true⟩
  | .tfill k a d => some ⟨k, 1, [], fun _ o => .tfill a.val (o.getD 0 0) (dispVal d), fun _ _ => true⟩
  | _ => none

/-- The shape words a row issues under: its prefix's in shape mode, TU_SHAPEn in configured mode (R71, R72). -/
def TileRow.words (r : TileRow) (s : State) : List Nat :=
  r.shaped.map (fun x => (x.2.map (·.toNat)).getD (mget 0 (s.core r.k.val).tile.shapes x.1.val))

/-- The shape prefix stands exactly where TMODE asks for it (R71). -/
def TileRow.moded (r : TileRow) (s : State) : Prop := ∀ x ∈ r.shaped, x.2.isSome = !(s.core r.k.val).tmode

/-- The entries TU_CTL.IQD allows in the queue (R74). -/
def queueRoom (iqd : Nat) : Nat := ([4, 2, 1] : List Nat).getD iqd 1

end Sys2Proof.Stated

/-- A tile instruction that passes every check of R85 issues (R74): its operands leave the stack, it enters the tile queue
with the shapes and operands it issued under, and the PC moves on; with a full queue it waits; with frozen entries it raises
TILE_CONFIG with cause PENDING (R89). TSYNC completes when the queue is empty, frozen entries or not, and waits otherwise
(R76). TCFG waits for the queue, then writes every named register, the lowest from the top of the stack, or raises TILE_CONFIG
naming the lowest that fails, and writes none (R73). -/
def Obligations.TileInstructionsIssue : Prop :=
  (∀ (i : Instr) (r : TileRow) (s : State), tileRow77 i = some r →
    let k := r.k.val
    let u := (s.core k).tile
    let f := s.fetched k (instrBytes i).length
    s.Runs k (instrBytes i).length → s.Fits k .data r.pops 0 → k ≠ maltsterCore → r.moded s →
    (∀ x ∈ r.shaped, ∀ w, x.2 = some w → LegalShape w.toNat) →
    (u.frozen = [] → u.queue.length < queueRoom u.iqd → (∀ w ∈ r.words s, LegalShape w) →
      r.ok (r.words s) (operands f k r.pops) = true →
      ∃ t, exec i s = .next t ∧ Stacked f t k .data r.pops [] ∧ (t.core k).pc = pcAfter s r.k i
        ∧ (t.core k).tile = { u with queue := u.queue ++
            [{ op := r.op (r.words s) (operands f k r.pops), iaddr := (s.core k).pc, ring := (s.core k).ring,
               stamp := (s.core k).stamp }] })
    ∧ (u.frozen = [] → queueRoom u.iqd ≤ u.queue.length → ∃ t, exec i s = .next t ∧ WaitsAt s t r.k i)
    ∧ (u.frozen ≠ [] → ∃ g : State, exec i s = .next (g.raise k { code := 0x09, cause := 0x16 }) ∧ (g.core k).bank = (s.core k).bank
        ∧ (g.core k).tile = { u with finfo := { u.finfo with cause := 0x16, idx := 0, wr := false, iaddr := (s.core k).pc.toNat } }))
  ∧ (∀ (k : CoreId) (s : State), Ready s k (.tsync k) 0 0 → k.val ≠ maltsterCore →
      ((s.core k.val).tile.queue = [] → ∃ t, exec (.tsync k) s = .next t ∧ (t.core k.val).pc = pcAfter s k (.tsync k)
        ∧ (t.core k.val).tile = (s.core k.val).tile)
      ∧ ((s.core k.val).tile.queue ≠ [] → ∃ t, exec (.tsync k) s = .next t ∧ WaitsAt s t k (.tsync k)))
  ∧ ∀ (k : CoreId) (mask : BitVec 8) (s : State),
      let i : Instr := .tcfg k mask
      let rs := (List.range 8).filter (fun n => mask.getLsbD n)
      let u := (s.core k.val).tile
      let f := fetchOf s k i
      let ok (n : Nat) : Prop := f.entry k.val .data n = 0 ∨ (LegalShape (f.entry k.val .data n).toNat ∧ (f.entry k.val .data n).toNat < 2 ^ 24)
      Ready s k i rs.length 0 → k.val ≠ maltsterCore → u.frozen = [] →
      (u.queue = [] → (∀ n < rs.length, ok n) → ∃ t, exec i s = .next t ∧ Stacked f t k.val .data rs.length []
        ∧ (t.core k.val).pc = pcAfter s k i
        ∧ (∀ n < rs.length, mget 0 (t.core k.val).tile.shapes (rs.getD n 0) = (f.entry k.val .data n).toNat)
        ∧ (∀ n, n ∉ rs → mget 0 (t.core k.val).tile.shapes n = mget 0 u.shapes n)
        ∧ (t.core k.val).tile = { u with shapes := (t.core k.val).tile.shapes })
      ∧ (∀ n, u.queue = [] → n < rs.length → ¬ok n → (∀ m < n, ok m) →
        ∃ g : State, exec i s = .next (g.raise k.val { code := 0x09, cause := 0x12 }) ∧ (g.core k.val).bank = (s.core k.val).bank
          ∧ (g.core k.val).tile = { u with finfo := { u.finfo with cause := 0x12, idx := rs.getD n 0, wr := false, iaddr := (s.core k.val).pc.toNat } })
      ∧ (u.queue ≠ [] → ∃ t, exec i s = .next t ∧ WaitsAt s t k i)

namespace Sys2Proof.Stated

/-- The head of a tile queue that executes now: the core runs, nothing stopped the unit, and no earlier vector instruction
still reads the register it writes (R75, R76, R96). -/
def TileHead (s : State) (k : CoreId) (e : TileEntry) : Prop :=
  (s.core k.val).tile.queue.head? = some e ∧ (s.core k.val).run = .running ∧ (s.core k.val).tile.stopped = false
    ∧ (s.core k.val).tileWaits e = false

/-- The rows of an access are reached at the addresses given: n consecutive bytes each, in the core's own scratchpad or its
cluster's tun, in entries without an uncorrectable error (R78, R136). -/
def RowsAt (s : State) (k : Nat) (ring : Fin 4) (kind : AccKind) (base stride : Word) (rows n : Nat) (at_ : Nat → Nat) : Prop :=
  ∀ r < rows, tileRow s k ring kind (base + BitVec.ofNat 64 r * stride) n = .ok (rangeFrom (at_ r) n)
    ∧ ∀ j < n, s.holdsError (at_ r + j) = false
      ∧ ((∃ off, placeOf (at_ r + j) = .spad k off) ∨ ∃ off, placeOf (at_ r + j) = .tun (clusterOf k) off)

/-- The bytes of a row of a shape with the bits beyond its elements zero (R30). -/
def rowBits (x : TShape) (bs : List Byte) : List Byte := bytesOf bs.length (leNat bs % 2 ^ (x.cols * x.fmt.width))

/-- A tile register's byte. -/
def tileByte (s : State) (k t r b : Nat) : Byte := mget 0 (s.core k).tile.regs (t * 4096 + r * 64 + b)

/-- The rows a queued store writes: base, stride, rows, bytes of a row, and each row's bytes (R78, R84, R86). -/
def storedRows (c : Core) : TileOp → Option (Word × Word × Nat × Nat × (Nat → List Byte))
  | .tst t base stride w =>
    let x := shapeOf w
    some (base, stride, x.rows, x.fmt.rowBytes x.cols, fun r => rowBits x ((c.tile.row t r).take (x.fmt.rowBytes x.cols)))
  | .tsta a base stride sig key rd =>
    match rdCheck rd true with
    | .ok (o, x) => some (base, stride, x.rows, x.fmt.rowBytes x.cols, fun r => packRow x.fmt (readRow c a o x sig key r).1)
    | .error _ => none
  | .tspill a base disp =>
    if base.toNat % 16 = 0 then
      some (base + disp, 768, 64, 768, fun i => (List.range 64).flatMap (fun j => bytesOf 12 (c.tile.elem a i j).toNat))
    else none
  | _ => none

/-- A class N value with its weight 2⁻¹⁶ taken out: an integer (R49, R54). -/
def scaled16 (v : Val) : Int := v.dy.m * 2 ^ (v.dy.e + 16).toNat

end Sys2Proof.Stated

/-- A completed tile instruction leaves the queue and has all of its effect (R75): TZERO clears (R86); TLD fills rows with
memory's bytes and zeros and leaves the others; TST, TSTA and TSPILL write their rows and nothing else in memory; TFILL loads
every element; TCVA writes its register's rows; TMMA accumulates into its region and leaves the rest (R78 to R86). Wherever
its rows lie, an instruction whose execution ends completes with what it found and its record (R91); one that has come as
far as n rows has stored those and stays (R90). -/
def Obligations.TileInstructionsComplete : Prop :=
  ∀ (k : CoreId) (e : TileEntry) (s : State), TileHead s k e →
    let u := (s.core k.val).tile
    let i : Instr := .tileInstructionComplete k {}
    (∀ h t r, s.tileRun k.val e h = .done t r →
      exec (.tileInstructionComplete k { found := h }) s = .next (t.setCore k.val ((t.core k.val).tileRecord e r)))
    ∧ (∀ base stride rows n bs at_ m, storedRows (s.core k.val) e.op = some (base, stride, rows, n, bs) → m ≤ rows →
      (∀ a b st w, e.op = .tst a b st w → LegalShape w) → RowsAt s k.val e.ring .write base stride rows n at_ →
      ∃ t, exec (.tileInstructionComplete k { rows := some m }) s = .next t ∧ (t.core k.val).tile = u
        ∧ (∀ r j, r < m → j < n → (∀ r', r < r' → r' < m → at_ r + j < at_ r' ∨ at_ r' + n ≤ at_ r + j) →
            t.getByte (at_ r + j) = (bs r).getD j 0)
        ∧ ∀ b, (∀ r < m, b < at_ r ∨ at_ r + n ≤ b) → t.getByte b = s.getByte b)
    ∧ (∀ a, e.op = .tzeroT a → ∃ t, exec i s = .next t ∧ (t.core k.val).tile.queue = u.queue.tail
      ∧ (∀ r b, r < 64 → b < 64 → tileByte t k.val a r b = 0)
      ∧ (∀ a' r b, a' ≠ a → r < 64 → b < 64 → tileByte t k.val a' r b = tileByte s k.val a' r b) ∧ (t.core k.val).tile.acc = u.acc)
    ∧ (∀ a, e.op = .tzeroA a → ∃ t, exec i s = .next t ∧ (t.core k.val).tile.queue = u.queue.tail
      ∧ (∀ r j, r < 64 → j < 64 → (t.core k.val).tile.elem a r j = 0)
      ∧ (∀ a' r j, a' ≠ a → r < 64 → j < 64 → (t.core k.val).tile.elem a' r j = u.elem a' r j) ∧ (t.core k.val).tile.regs = u.regs)
    ∧ (∀ a base stride w at_, e.op = .tld a base stride w → LegalShape w →
      let x := shapeOf w
      let n := x.fmt.rowBytes x.cols
      RowsAt s k.val e.ring .read base stride x.rows n at_ →
      ∃ t, exec i s = .next t ∧ (t.core k.val).tile.queue = u.queue.tail
        ∧ (∀ r b, r < x.rows → b < 64 → tileByte t k.val a r b = (rowBits x (s.getBytes (at_ r) n)).getD b 0)
        ∧ (∀ a' r b, (a' ≠ a ∨ x.rows ≤ r) → r < 64 → b < 64 → tileByte t k.val a' r b = tileByte s k.val a' r b)
        ∧ (t.core k.val).tile.acc = u.acc ∧ t.mem = s.mem)
    ∧ (∀ base stride rows n bs at_, storedRows (s.core k.val) e.op = some (base, stride, rows, n, bs) →
      (∀ a b st w, e.op = .tst a b st w → LegalShape w) → RowsAt s k.val e.ring .write base stride rows n at_ →
      ∃ t, exec i s = .next t ∧ (t.core k.val).tile.queue = u.queue.tail ∧ (t.core k.val).tile.regs = u.regs
        ∧ (t.core k.val).tile.acc = u.acc
        ∧ (∀ r j, r < rows → j < n → (∀ r', r < r' → r' < rows → at_ r + j < at_ r' ∨ at_ r' + n ≤ at_ r + j) →
            t.getByte (at_ r + j) = (bs r).getD j 0)
        ∧ ∀ b, (∀ r < rows, b < at_ r ∨ at_ r + n ≤ b) → t.getByte b = s.getByte b)
    ∧ (∀ a base disp at_, e.op = .tfill a base disp → base.toNat % 16 = 0 →
      RowsAt s k.val e.ring .read (base + disp) 768 64 768 at_ →
      let new (r j : Nat) : X96 := BitVec.ofNat 96 (leNat (s.getBytes (at_ r + 12 * j) 12))
      (∀ r j, r < 64 → j < 64 → (new r j).malformed = false) →
      ∃ t, exec i s = .next t ∧ (t.core k.val).tile.queue = u.queue.tail ∧ (t.core k.val).tile.regs = u.regs
        ∧ (∀ r j, r < 64 → j < 64 → (t.core k.val).tile.elem a r j = new r j)
        ∧ ∀ a' r j, a' ≠ a → r < 64 → j < 64 → (t.core k.val).tile.elem a' r j = u.elem a' r j)
    ∧ (∀ d a w sig key rd o y, e.op = .tcva d a w sig key rd → LegalShape w → rdCheck rd false = .ok (o, y) →
      let x := shapeOf w
      let n := x.fmt.rowBytes x.cols
      ∃ t, exec i s = .next t ∧ (t.core k.val).tile.queue = u.queue.tail ∧ (t.core k.val).tile.acc = u.acc
        ∧ (∀ r b, r < x.rows → b < 64 → tileByte t k.val d r b = (packRow x.fmt (readRow (s.core k.val) a o x sig key r).1).getD b 0)
        ∧ (∀ a' r b, (a' ≠ d ∨ x.rows ≤ r) → r < 64 → b < 64 → tileByte t k.val a' r b = tileByte s k.val a' r b)
        ∧ (n = (packRow x.fmt (readRow (s.core k.val) a o x sig key 0).1).length))
    ∧ ∀ a ta tb wa wb pd ma mb cl, e.op = .tmma a ta tb wa wb pd → LegalShape wa → LegalShape wb →
      let xa := shapeOf wa
      let xb := shapeOf wb
      scaleMode (field pd 7 0) = some ma → scaleMode (field pd 15 8) = some mb → xa.fmt.pclass = some cl →
      xb.fmt.pclass = some cl → xb.cols = xa.cols →
      (∀ r j, r < xa.rows → j < xb.rows → (u.elem a r j).layoutFault (cl != .n || ma.kind == 2 || mb.kind == 2) = false) →
      ∃ t, exec i s = .next t ∧ (t.core k.val).tile.queue = u.queue.tail ∧ (t.core k.val).tile.regs = u.regs
        ∧ (∀ a' r j, (a' ≠ a ∨ xa.rows ≤ r ∨ xb.rows ≤ j) → r < 64 → j < 64 → (t.core k.val).tile.elem a' r j = u.elem a' r j)
        ∧ (∀ r j, r < xa.rows → j < xb.rows → (t.core k.val).tile.elem a r j =
            (mmaElem (u.elem a r j) cl ma mb (u.vals ta xa r) (u.vals tb xb j)
              (scaleVals ma (u.row (field pd 18 16) r) 0) (scaleVals mb (u.row (field pd 18 16) j) 32)).e)
        ∧ (∀ r j, cl = .n → ma.kind ≠ 2 → mb.kind ≠ 2 → r < xa.rows → j < xb.rows →
            (∀ v ∈ u.vals ta xa r ++ u.vals tb xb j, v.isNan = false ∧ v.isInf = false) →
            let f := (u.elem a r j).fields
            let n := f.n + (((u.vals ta xa r).zip (u.vals tb xb j)).map (fun p => scaled16 p.1 * scaled16 p.2)).sum
            f.xe = false → f.spc = 0 → f.ovf = false →
            ((t.core k.val).tile.elem a r j).fields =
              { f with n := max (-2 ^ 84) (min (2 ^ 84 - 1) n), v := ((t.core k.val).tile.elem a r j).fields.v,
                       ovf := decide (n < -2 ^ 84 ∨ 2 ^ 84 - 1 < n) })

/-- What a completed tile instruction records (R91, R92): its conditions are ORed into TU_STATUS; a NaN written sets NANF and
with NANEN raises NAN_TRAP (code 0x0C) alone; otherwise an enabled condition raises ARITH (0x0B); both give the instruction's
address, and are precise with PRECISE on. A tile instruction that stops in execution (R88): TILE_EXECUTION_FAULT leaves its registers, accumulators and conditions as
they were, stops the unit, and raises a deferred fault with the instruction's address. A row that cannot be reached gives
TILE_ROW_FAULT (0x0A) with cause PAGE, ACCESS or ALIGN, the row, and its first byte not reached; an element of the wrong layout
or one that R53 forbids gives TILE_CONFIG (0x09) with LAYOUT or FILL. Nothing happens where it would complete. -/
def Obligations.TileUnitReports : Prop :=
  (∀ (c : Core) (e : TileEntry) (r : TileRec),
    let d := c.tileRecord e r
    let kind : EvKind := if c.preciseM then .precise else .imprecise
    let enabled : Bool := (r.conds.nx && c.tile.te.nx) || (r.conds.uf && c.tile.te.uf) || (r.conds.of && c.tile.te.of)
      || (r.conds.nv && c.tile.te.nv) || (r.conds.dz && c.tile.te.dz) || (r.sat.isSome && c.tile.teAovf)
    d.tile.conds = c.tile.conds.or r.conds ∧ (d.tile.aovf0 = true ↔ c.tile.aovf0 = true ∨ r.sat = some 0)
      ∧ (d.tile.aovf1 = true ↔ c.tile.aovf1 = true ∨ r.sat = some 1) ∧ d.tile.nanf = (c.tile.nanf || r.nan.isSome)
      ∧ (r.nan.isSome = true → c.tile.nanen = true → d.pendArith = c.pendArith ∧ ∃ p, d.pendNan = c.pendNan ++ [p]
          ∧ p.ev.code = 0x0C ∧ p.ev.cause = 1 ∧ p.ev.kind = kind ∧ p.ev.iaddr = e.iaddr)
      ∧ ((r.nan = none ∨ c.tile.nanen = false) → d.pendNan = c.pendNan
          ∧ d.pendArith = c.pendArith ++ (if enabled then
              [{ ev := { code := 0x0B, cause := 1, kind := kind, iaddr := e.iaddr }, stamp := e.stamp }] else [])))
  ∧ ∀ (k : CoreId) (e : TileEntry) (s : State), TileHead s k e →
    let u := (s.core k.val).tile
    let i : Instr := .tileExecutionFault k
    (∀ s' f wr a, s.tileRun k.val e none = .fault s' f wr a →
      let row : Bool := f.code == 0x0A
      let fi : TuFault := { cause := f.cause, idx := f.idx, wr := wr, iaddr := e.iaddr.toNat,
                            addr := if row then a else (s'.core k.val).tile.finfo.addr }
      ∃ t, exec i s = .next t ∧ t = s'.setCore k.val (t.core k.val)
        ∧ ∃ p, t.core k.val = { s'.core k.val with
              tile := { (s'.core k.val).tile with finfo := fi, stopped := true }, pendDef := (s'.core k.val).pendDef ++ [p] }
          ∧ p.stamp = e.stamp ∧ p.ev.code = f.code ∧ p.ev.cause = f.cause ∧ p.ev.kind = .deferred ∧ p.ev.iaddr = e.iaddr
          ∧ p.ev.faddr = (if row then BitVec.ofNat 64 a else 0))
    ∧ (∀ s' r, s.tileRun k.val e none = .done s' r → exec i s = .next s)
    ∧ (∀ a base stride w r f, e.op = .tld a base stride w → LegalShape w → r < (shapeOf w).rows →
      (∃ at_, RowsAt s k.val e.ring .read base stride r ((shapeOf w).fmt.rowBytes (shapeOf w).cols) at_) →
      tileRow s k.val e.ring .read (base + BitVec.ofNat 64 r * stride) ((shapeOf w).fmt.rowBytes (shapeOf w).cols) = .error f →
      ∃ t, exec i s = .next t ∧ (t.core k.val).tile =
          { u with finfo := { cause := f.cause, idx := r, wr := false, iaddr := e.iaddr.toNat, addr := f.addr }, stopped := true }
        ∧ t.mem = s.mem ∧ (∃ p, (t.core k.val).pendDef = (s.core k.val).pendDef ++ [p] ∧ p.stamp = e.stamp ∧ p.ev.code = 0x0A
          ∧ p.ev.cause = f.cause ∧ p.ev.kind = .deferred ∧ p.ev.iaddr = e.iaddr ∧ p.ev.faddr = BitVec.ofNat 64 f.addr))
    ∧ (∀ a base stride w at_, e.op = .tld a base stride w → LegalShape w →
      RowsAt s k.val e.ring .read base stride (shapeOf w).rows ((shapeOf w).fmt.rowBytes (shapeOf w).cols) at_ →
      exec i s = .next s)
    ∧ (∀ a ta tb wa wb pd ma mb cl r j, e.op = .tmma a ta tb wa wb pd → LegalShape wa → LegalShape wb →
      scaleMode (field pd 7 0) = some ma → scaleMode (field pd 15 8) = some mb → (shapeOf wa).fmt.pclass = some cl →
      r < (shapeOf wa).rows → j < (shapeOf wb).rows →
      (u.elem a r j).layoutFault (cl != .n || ma.kind == 2 || mb.kind == 2) = true →
      ∃ t, exec i s = .next t ∧ (t.core k.val).tile =
          { u with finfo := { cause := 0x14, idx := 0, wr := false, iaddr := e.iaddr.toNat, addr := u.finfo.addr }, stopped := true }
        ∧ (t.core k.val).pendDef = (s.core k.val).pendDef ++
          [{ ev := { code := 0x09, cause := 0x14, kind := .deferred, iaddr := e.iaddr }, stamp := e.stamp }])
    ∧ (∀ a base disp at_ r j, e.op = .tfill a base disp → base.toNat % 16 = 0 →
      RowsAt s k.val e.ring .read (base + disp) 768 64 768 at_ → r < 64 → j < 64 →
      let new (r j : Nat) : X96 := BitVec.ofNat 96 (leNat (s.getBytes (at_ r + 12 * j) 12))
      (new r j).malformed = true → (∀ r' j', r' < 64 → j' < 64 → 64 * r' + j' < 64 * r + j → (new r' j').malformed = false) →
      ∃ t, exec i s = .next t ∧ (t.core k.val).tile =
          { u with finfo := { cause := 0x17, idx := r, wr := false, iaddr := e.iaddr.toNat, addr := u.finfo.addr }, stopped := true }
        ∧ (t.core k.val).pendDef = (s.core k.val).pendDef ++
          [{ ev := { code := 0x09, cause := 0x17, kind := .deferred, iaddr := e.iaddr }, stamp := e.stamp }])
    ∧ ∀ base stride rows n bs at_ r f, storedRows (s.core k.val) e.op = some (base, stride, rows, n, bs) →
      (∀ a b st w, e.op = .tst a b st w → LegalShape w) → r < rows → RowsAt s k.val e.ring .write base stride r n at_ →
      tileRow s k.val e.ring .write (base + BitVec.ofNat 64 r * stride) n = .error f →
      ∃ t, exec i s = .next t ∧ (t.core k.val).tile =
          { u with finfo := { cause := f.cause, idx := r, wr := true, iaddr := e.iaddr.toNat, addr := f.addr }, stopped := true }
        ∧ ∀ b, (∀ r' < r, b < at_ r' ∨ at_ r' + n ≤ b) → t.getByte b = s.getByte b
/-! ### The vector stream unit -/

namespace Sys2Proof.Stated

/-- VCACHE's operands are in order (R109): base, off, len, dir. -/
def VcacheOk (s : State) (k : Nat) (base off len dir : Word) : Prop :=
  dir.toNat < 3 ∧ (dir = 2 → base = 0) ∧ off.toNat % 64 = 0 ∧ len.toNat % 64 = 0 ∧ off.toNat + len.toNat ≤ 65536
    ∧ (dir ≠ 2 → base.toNat % 64 = 0 ∧ ∃ pa img, coreXlate s k (s.core k).ring (if dir = 0 then .read else .write) base.toNat
        = .ok (.phys pa img) ∧ ((∃ o, placeOf pa = .spad k o) ∨ ∃ o, placeOf pa = .tun (clusterOf k) o))

/-- The descriptor of 96 bytes that VEXEC copies: aligned to 16 bytes, wholly in the core's own scratchpad or its
cluster's tun, and without an uncorrectable error (R96, R99, R136). -/
def DescriptorAt (s : State) (k : Nat) (ring : Fin 4) (a : Word) (bs : List Byte) : Prop :=
  a.toNat % 16 = 0 ∧ ∃ pas : List (Nat × Bool), coreXlateN s k ring .read a.toNat 96 = .ok (pas.map (fun p => Target.phys p.1 p.2))
    ∧ (∀ p ∈ pas, s.holdsError p.1 = false ∧ ((∃ o, placeOf p.1 = .spad k o) ∨ ∃ o, placeOf p.1 = .tun (clusterOf k) o))
    ∧ bs = pas.map (fun p => s.getByte p.1)

/-- No access meets an uncorrectable error. -/
def MildHit (h : Hit) : Prop := ∀ n x, h = some (n, x) → x ≠ Ecc.uncorrectable

end Sys2Proof.Stated

/-- VEXEC copies a descriptor that passes R100 and enters the vector queue, and one that fails it raises DESCRIPTOR_FAULT with
the cause and the stream in VSU_FINFO; VCACHE enters with its four operands (R95, R96, R109). With a full queue either waits;
with frozen entries either raises DESCRIPTOR_FAULT with cause PENDING (R111). VSYNC completes where the queue is empty and
nothing is frozen, and waits otherwise (R95). -/
def Obligations.VectorInstructionsIssue : Prop :=
  (∀ (k : CoreId) (d : Disp) (h : Hit) (s : State) (bs : List Byte), MildHit h →
    let i : Instr := .vexec k ⟨d, h⟩
    let f := fetchOf s k i
    let u := (s.core k.val).vsu
    let a := f.entry k.val .data 0 + dispVal d
    Ready s k i 1 0 → k.val ≠ maltsterCore → u.frozen = [] → u.queue.length < queueRoom u.iqd →
    DescriptorAt f k.val (s.core k.val).ring a bs →
    (vecCheck bs = none → ∃ t, exec i s = .next t ∧ Stacked f t k.val .data 1 [] ∧ (t.core k.val).pc = pcAfter s k i
      ∧ (t.core k.val).vsu = { u with queue := u.queue ++
          [{ op := .vexec a, desc := bs, iaddr := (s.core k.val).pc, ring := (s.core k.val).ring, stamp := (s.core k.val).stamp }] })
    ∧ ∀ cause stream, vecCheck bs = some (cause, stream) →
      ∃ g : State, exec i s = .next (g.raise k.val { code := 0x0F, cause := cause }) ∧ (g.core k.val).bank = (s.core k.val).bank
        ∧ (g.core k.val).vsu = { u with fcause := cause, fstream := stream, fwr := false, fiaddr := (s.core k.val).pc.toNat })
  ∧ (∀ (k : CoreId) (s : State),
    let i : Instr := .vcache k
    let u := (s.core k.val).vsu
    let f := fetchOf s k i
    let o := operands f k.val 4
    Ready s k i 4 0 → k.val ≠ maltsterCore → u.frozen = [] → u.queue.length < queueRoom u.iqd →
    VcacheOk f k.val (o.getD 0 0) (o.getD 1 0) (o.getD 2 0) (o.getD 3 0) →
    ∃ t, exec i s = .next t ∧ Stacked f t k.val .data 4 [] ∧ (t.core k.val).pc = pcAfter s k i
      ∧ (t.core k.val).vsu = { u with queue := u.queue ++
          [{ op := .vcache (o.getD 0 0) (o.getD 1 0).toNat (o.getD 2 0).toNat (o.getD 3 0).toNat, desc := [],
             iaddr := (s.core k.val).pc, ring := (s.core k.val).ring, stamp := (s.core k.val).stamp }] })
  ∧ (∀ (k : CoreId) (i : Instr) (n : Nat) (s : State), ((∃ d, i = .vexec k d ∧ n = 1) ∨ (i = .vcache k ∧ n = 4)) →
    let u := (s.core k.val).vsu
    Ready s k i n 0 → k.val ≠ maltsterCore →
    (u.frozen = [] → queueRoom u.iqd ≤ u.queue.length → ∃ t, exec i s = .next t ∧ WaitsAt s t k i)
    ∧ (u.frozen ≠ [] → ∃ g : State, exec i s = .next (g.raise k.val { code := 0x0F, cause := 0x15 })
        ∧ (g.core k.val).bank = (s.core k.val).bank ∧ (g.core k.val).vsu.fcause = 0x15
        ∧ (g.core k.val).vsu.fstream = (if n = 1 then 5 else 6)))
  ∧ ∀ (k : CoreId) (s : State), Ready s k (.vsync k) 0 0 → k.val ≠ maltsterCore →
    ((s.core k.val).vsu.queue = [] → (s.core k.val).vsu.frozen = [] → ∃ t, exec (.vsync k) s = .next t ∧ (t.core k.val).pc = pcAfter s k (.vsync k))
    ∧ ((s.core k.val).vsu.queue ≠ [] ∨ (s.core k.val).vsu.frozen ≠ [] → ∃ t, exec (.vsync k) s = .next t ∧ WaitsAt s t k (.vsync k))

namespace Sys2Proof.Stated

/-- The head of a vector queue that executes now: the core runs, it is neither stopped nor done nor at a fault, no descriptor
is to be read again, and no earlier tile instruction is left where it reads a tile register (R76, R96). -/
def VecHead (s : State) (k : Nat) (e : VecEntry) : Prop :=
  (s.core k).vsu.queue.head? = some e ∧ (s.core k).run = .running ∧ (s.core k).vsu.stopped = false ∧ e.done = false
    ∧ e.fault = none ∧ e.reread = false
    ∧ ∀ t ∈ (s.core k).tile.queue ++ (s.core k).tile.frozen, t.stamp < e.stamp → e.tiles = []

/-- The element-wise rows of R102: core, OP, the outputs produced and what the arrays report. -/
def elemRow : Instr → Option (CoreId × Nat × Nat × Hit)
  | .vCvt k n h => some (k, 0x01, n, h)
  | .vAdd k n h => some (k, 0x02, n, h)
  | .vSub k n h => some (k, 0x03, n, h)
  | .vMul k n h => some (k, 0x04, n, h)
  | .vFma k n h => some (k, 0x05, n, h)
  | .vAxpby k n h => some (k, 0x06, n, h)
  | .vMax k n h => some (k, 0x07, n, h)
  | .vMin k n h => some (k, 0x08, n, h)
  | .vAbs k n h => some (k, 0x09, n, h)
  | .vNeg k n h => some (k, 0x0A, n, h)
  | .vSel k n h => some (k, 0x0B, n, h)
  | .vDiv k n h => some (k, 0x0C, n, h)
  | .vSqrt k n h => some (k, 0x0D, n, h)
  | .vRsqrt k n h => some (k, 0x0E, n, h)
  | .vRcp k n h => some (k, 0x0F, n, h)
  | .vExp2 k n h => some (k, 0x10, n, h)
  | .vLog2 k n h => some (k, 0x11, n, h)
  | _ => none

/-- The number of input streams of an element-wise OP (R102). -/
def arity (op : Nat) : Nat := ([0, 1, 2, 2, 2, 3, 4, 2, 2, 1, 1, 3, 2] : List Nat).getD op 1

/-- Where element (r, c) of a memory or cache stream starts, and its bit there (R99). -/
def elemAt (x : VStream) (r c : Nat) : Nat × Nat :=
  if x.xpose then (((x.base : Int) + c * x.rstride + (r * (x.fmt.width / 8) : Nat)).toNat, 0)
  else (((x.base : Int) + r * x.rstride + (c * x.fmt.width / 8 : Nat)).toNat, c * x.fmt.width % 8)

/-- The code that a stream supplies at (r, c) (R98, R99): a scalar's, a tile register's, the operand cache's, or memory's,
without an uncorrectable error. -/
def Supplies (s : State) (k : Nat) (ring : Fin 4) (x : VStream) (r c code : Nat) : Prop :=
  let w := x.fmt.width
  let p := elemAt x r c
  let n := (p.2 + w + 7) / 8
  (x.src = 4 ∧ code = x.base % 2 ^ w)
    ∨ (x.src = 3 ∧ code = rowElem x.fmt ((s.core k).tile.row (x.base % 8) (if x.xpose then c else r)) (if x.xpose then r else c))
    ∨ (x.src = 2 ∧ code = leNat ((List.range n).map (fun j => mget 0 (s.core k).vsu.cache (p.1 + j))) / 2 ^ p.2 % 2 ^ w)
    ∨ (x.src = 1 ∧ ∃ pas, vecXlate s k ring .read p.1 n = .ok pas ∧ (∀ p ∈ pas, s.holdsError p = false)
        ∧ code = leNat (pas.map s.getByte) / 2 ^ p.2 % 2 ^ w)

end Sys2Proof.Stated

/-- Each element-wise operation of R102 produces its next output, at row-major position P of the grid: it takes the inputs of
its streams there, converts the exact result once into D's format (R101), writes it at D's place and nowhere else, and P grows
by one; after the last output it is done. An input that cannot be reached is a fault at that position, and P stands (R111,
R112). n + 1 outputs are one and then n. -/
def Obligations.ElementsProduced : Prop :=
  (∀ (i : Instr) (k : CoreId) (op : Nat) (h : Hit) (s : State) (e : VecEntry) (a : Word), elemRow i = some (k, op, 1, h) →
    MildHit h →
    VecHead s k.val e → e.op = .vexec a →
    let hd := vhead e.desc
    let d := vstream e.desc 0
    let ins := (List.range (arity op)).map (fun j => vstream e.desc (j + 1))
    let r := e.progress / hd.cols
    let c := e.progress % hd.cols
    hd.op = op → hd.seg = false → e.progress < hd.rows * hd.cols →
    (∀ (cs : List Nat) (pas : List Nat), cs.length = arity op →
      (∀ j < arity op, Supplies s k.val e.ring (ins.getD j d) r c (cs.getD j 0)) →
      let o := elemOut op d ins (outRnd hd (s.core k.val).seed r c) cs
      let w := d.fmt.width
      let p := elemAt d r c
      let last := w < 8 ∧ c + 1 = hd.cols ∧ d.xpose = false
      let room := (if d.src = 2 then 65536 else 2 ^ 48) - p.1
      let n := min (if last then d.fmt.packedBytes hd.cols - c * w / 8 else (p.2 + w + 7) / 8) room
      (p.2 + w + 7) / 8 ≤ room →
      (d.src = 2 ∨ (d.src = 1 ∧ pas.Nodup ∧ (∀ x ∈ pas, s.holdsError x = false) ∧ vecXlate s k.val e.ring .write p.1 n = .ok pas)) →
      ∃ t, exec i s = .next t
        ∧ (t.core k.val).vsu.queue = { e with progress := e.progress + 1, acc := e.acc.add o r c, done := decide (e.progress + 1 = hd.rows * hd.cols) }
            :: (s.core k.val).vsu.queue.tail
        ∧ (d.src = 1 → (t.core k.val).vsu.cache = (s.core k.val).vsu.cache
          ∧ leNat ((pas.take ((p.2 + w + 7) / 8)).map t.getByte) / 2 ^ p.2 % 2 ^ w = o.code % 2 ^ w
          ∧ ∀ b, b ∉ pas → t.getByte b = s.getByte b)
        ∧ (d.src = 2 → t.mem = s.mem
          ∧ leNat ((List.range ((p.2 + w + 7) / 8)).map (fun j => mget 0 (t.core k.val).vsu.cache (p.1 + j))) / 2 ^ p.2 % 2 ^ w
              = o.code % 2 ^ w
          ∧ ∀ b, (b < p.1 ∨ p.1 + n ≤ b) → mget 0 (t.core k.val).vsu.cache b = mget 0 (s.core k.val).vsu.cache b))
    ∧ ∀ (j : Nat) (f : AFault), j < arity op → (ins.getD j d).src = 1 →
      (∀ m < j, ∃ code, Supplies s k.val e.ring (ins.getD m d) r c code) →
      vecXlate s k.val e.ring .read (elemAt (ins.getD j d) r c).1
        (((elemAt (ins.getD j d) r c).2 + (ins.getD j d).fmt.width + 7) / 8) = .error f →
      ∃ t, exec i s = .next t ∧ t.mem = s.mem ∧ ∃ g, (t.core k.val).vsu.queue = { e with fault := some g } :: (s.core k.val).vsu.queue.tail
        ∧ g.code = f.code ∧ g.stream = j + 1 ∧ g.wr = false ∧ g.row = r ∧ g.col = c ∧ g.addr = f.addr)
  ∧ ∀ (i i₁ : Instr) (k : CoreId) (op n : Nat) (h : Hit) (s : State), elemRow i = some (k, op, n + 1, h) →
      elemRow i₁ = some (k, op, 1, h) → ∃ i₂ h' t, elemRow i₂ = some (k, op, n, h') ∧ exec i₁ s = .next t ∧ exec i s = exec i₂ t

namespace Sys2Proof.Stated

/-- A whole number cut to the range of a signed format of w bits (R44). -/
def clampTo (w : Nat) (x : Int) : Int := max (-2 ^ (w - 1)) (min (2 ^ (w - 1) - 1) x)

/-- The exact results of R102 on whole numbers. -/
def intResult (op : Nat) (v : List Int) : Option Int :=
  let a := v.getD 0 0
  let b := v.getD 1 0
  match op with
  | 0x01 => some a
  | 0x02 => some (a + b)
  | 0x03 => some (a - b)
  | 0x04 => some (a * b)
  | 0x05 => some (a * b + v.getD 2 0)
  | 0x06 => some (a * b + v.getD 2 0 * v.getD 3 0)
  | 0x07 => some (max a b)
  | 0x08 => some (min a b)
  | 0x09 => some a.natAbs
  | 0x0A => some (-a)
  | 0x0B => some (if v.getD 2 0 ≠ 0 then a else b)
  | _ => none

/-- The same for reductions and scans over a run of whole numbers that is not empty (R104, R105). -/
def intFold (op : Nat) (v : List Int) : Option Int :=
  match op with
  | 0x20 | 0x30 | 0x31 => some v.sum
  | 0x21 | 0x32 | 0x33 => some (v.tail.foldl max (v.headD 0))
  | 0x22 => some (v.tail.foldl min (v.headD 0))
  | 0x23 => some ((v.tail.map (fun x => (x.natAbs : Int))).foldl max (v.headD 0).natAbs)
  | 0x24 => some (v.map (fun x => x * x)).sum
  | _ => none

def intFmt (f : Fmt) : Bool := f == .int8 || f == .int4 || f == .int32

end Sys2Proof.Stated

/-- On integer streams the exact results of R102, R104 and R105 reach an integer D saturated, NV recorded exactly where they
do not fit and no other condition (R44, R101), in every rounding mode. The special inputs of R103 and the zero and NaN rules of R102 for MAX, MIN and SEL. -/
def Obligations.ExactResults : Prop :=
  (∀ (op : Nat) (d : VStream) (ins : List VStream) (r : Rnd) (cs : List Nat) (x : Int),
    intFmt d.fmt = true → (∀ y ∈ ins, intFmt y.fmt = true) → ins.length = arity op → cs.length = arity op →
    intResult op ((ins.zip cs).map (fun e => signedOf e.1.fmt.width e.2)) = some x →
    (∀ e ∈ ins.zip cs, e.2 < 2 ^ e.1.fmt.width) →
    let o := elemOut op d ins r cs
    let w := d.fmt.width
    o.code = toTwos w (clampTo w x) ∧ o.conds = { nv := decide (clampTo w x ≠ x) } ∧ o.nan = none)
  ∧ (∀ (op : Nat) (d s0 : VStream) (r : Rnd) (cs : List Nat) (x : Int), intFmt d.fmt = true → intFmt s0.fmt = true → cs ≠ [] →
    (∀ c ∈ cs, c < 2 ^ s0.fmt.width) → intFold op (cs.map (signedOf s0.fmt.width)) = some x →
    let o := foldOut op d s0 r (some cs)
    let w := d.fmt.width
    o.code = toTwos w (clampTo w x) ∧ o.conds = { nv := decide (clampTo w x ≠ x) } ∧ o.nan = none)
  ∧ ∀ (rm : RMode) (d : Dy) (n m : Bool) (v : Val), d.m ≠ 0 →
    exactOp 0x0C rm [.fin d, .zero n] = { x := .val (.inf (n != decide (d.m < 0))), dz := true }
    ∧ exactOp 0x0F rm [.zero n] = { x := .val (.inf n), dz := true }
    ∧ exactOp 0x0E rm [.zero n] = { x := .val (.inf n), dz := true }
    ∧ exactOp 0x11 rm [.zero n] = { x := .val (.inf true), dz := true }
    ∧ exactOp 0x0C rm [.zero n, .zero m] = { x := .val (.nan false), inv := true }
    ∧ exactOp 0x0C rm [.inf n, .inf m] = { x := .val (.nan false), inv := true }
    ∧ (d.m < 0 → ∀ op ∈ [0x0D, 0x0E, 0x11], exactOp op rm [.fin d] = { x := .val (.nan false), inv := true }
        ∧ exactOp op rm [.inf true] = { x := .val (.nan false), inv := true })
    ∧ exactOp 0x0D rm [.zero true] = { x := .val (.zero true) }
    ∧ exactOp 0x11 rm [.fin ⟨1, 0⟩] = { x := .val (.zero false) }
    ∧ exactOp 0x10 rm [.inf true] = { x := .val (.zero false) } ∧ exactOp 0x10 rm [.inf false] = { x := .val (.inf false) }
    ∧ exactOp 0x11 rm [.inf false] = { x := .val (.inf false) }
    ∧ exactOp 0x07 rm [.zero n, .zero m] = { x := .val (.zero (n && m)) }
    ∧ exactOp 0x08 rm [.zero n, .zero m] = { x := .val (.zero (n || m)) }
    ∧ (v.isNan = true → exactOp 0x07 rm [v, .fin d] = { x := .val (.nan false) } ∧ exactOp 0x08 rm [.fin d, v] = { x := .val (.nan false) }
        ∧ exactOp 0x0B rm [.fin d, .inf n, v] = { x := .val (.fin d) })
    ∧ exactOp 0x0B rm [.fin d, v, .zero n] = { x := .val v }

namespace Sys2Proof.Stated

/-- The reductions and scans: core, OP and what the arrays report. -/
def foldRow : Instr → Option (CoreId × Nat × Hit)
  | .vRsum k h => some (k, 0x20, h)
  | .vRmax k h => some (k, 0x21, h)
  | .vRmin k h => some (k, 0x22, h)
  | .vRamax k h => some (k, 0x23, h)
  | .vRsumsq k h => some (k, 0x24, h)
  | .vScan k h => some (k, 0x30, h)
  | .vScanx k h => some (k, 0x31, h)
  | .vScanmax k h => some (k, 0x32, h)
  | .vScanxmax k h => some (k, 0x33, h)
  | _ => none

/-- The terms of an operation's output at a position of D, none for an empty run, and whether D has that position, by the
operation's kind (reductions 0x2_, scans 0x3_) and axis (R104, R105), or by segments of the lengths given (R106, R107). -/
def termsAt (h : VHead) (code : Nat → Nat → Nat) (lens : Option (List Nat)) (p : Nat × Nat) : Option (Option (List Nat)) :=
  let excl : Bool := h.op == 0x31 || h.op == 0x33
  let run (l : List Nat) : Option (List Nat) := if l.isEmpty then none else some l
  let seq (n : Nat) : Nat := code (n / h.cols) (n % h.cols)
  match lens with
  | none =>
    if h.op < 0x30 then
      if h.axis then (if p.1 = 0 ∧ p.2 < h.cols then some (some ((List.range h.rows).map (fun r => code r p.2))) else none)
      else (if p.2 = 0 ∧ p.1 < h.rows then some (some ((List.range h.cols).map (code p.1))) else none)
    else if p.1 < h.rows ∧ p.2 < h.cols then
      if h.axis then some (run ((List.range (p.1 + if excl then 0 else 1)).map (fun r => code r p.2)))
      else some (run ((List.range (p.2 + if excl then 0 else 1)).map (code p.1)))
    else none
  | some ls =>
    let start (i : Nat) : Nat := (ls.take i).sum
    if h.op < 0x30 then
      if p.1 = 0 ∧ p.2 < ls.length then some (run ((List.range (ls.getD p.2 0)).map (fun j => seq (start p.2 + j)))) else none
    else if p.1 < h.rows ∧ p.2 < h.cols then
      let n := p.1 * h.cols + p.2
      let a := ((List.range ls.length).map start).foldl (fun m b => if b ≤ n then max m b else m) 0
      some (run ((List.range (n - a + if excl then 0 else 1)).map (fun j => seq (a + j))))
    else none

end Sys2Proof.Stated

namespace Sys2Proof.Stated

/-- Whatever its formats and wherever its streams lie, a reduction or scan whose reads, lengths and writes all succeed leaves
its outputs where its writes put them and is done, with its number of segments (R104 to R108, R111). -/
def FoldsComplete : Prop :=
  ∀ (i : Instr) (k : CoreId) (op : Nat) (h : Hit) (s : State) (e : VecEntry) (a : Word), foldRow i = some (k, op, h) →
    VecHead s k.val e → e.op = .vexec a → (vhead e.desc).op = op →
    let hd := vhead e.desc
    let d := vstream e.desc 0
    let x := vstream e.desc 1
    let y := hd.view 2 (vstream e.desc 2)
    let red : Bool := decide (op < 0x30)
    let r0 := gridReads 1 x hd.rows hd.cols
    let r1 := if hd.seg then gridReads 2 y (hd.dims 2).1 (hd.dims 2).2 else []
    let h1 := h.skip (vAccesses r0)
    ∀ codes s1 marks s2 lens, (s.modCore k.val id).vreads k.val e.ring h r0 = .ok codes s1 → s1.vreads k.val e.ring h1 r1 = .ok marks s2 →
      segLens hd y marks = .ok lens →
      let terms := if hd.seg then segTerms hd red codes lens else plainTerms hd red codes
      let outs := terms.map (fun t => (t.1, foldOut op d x (outRnd hd (s2.core k.val).seed t.1.1 t.1.2) t.2))
      ∀ s3, s2.vecWrites k.val e.ring (h1.skip (vAccesses r1)) d (if red && hd.seg then outs.length else (hd.dims 0).2) outs = .ok () s3 →
      ∃ t e' rest, exec i s = .next t ∧ t = s3.setCore k.val (t.core k.val) ∧ (s3.core k.val).vsu.queue = e :: rest
        ∧ t.core k.val = { s3.core k.val with vsu := { (s3.core k.val).vsu with queue := e' :: rest } }
        ∧ e' = { e with acc := e'.acc, done := true } ∧ e'.acc.segcnt = (if hd.seg then some lens.length else none)

/-- Where the inputs are all there and the outputs are all reached, with D of whole bytes and no two outputs on one byte: every
output of R104 to R107 stands in D, rounded once from its exact value, no other byte changed; an empty run writes the identity
of R108. -/
def FoldValues : Prop :=
  ∀ (i : Instr) (k : CoreId) (op : Nat) (h : Hit) (s : State) (e : VecEntry) (a : Word) (code mark : Nat → Nat → Nat)
    (at_ : Nat × Nat → Nat) (lens : Option (List Nat)), foldRow i = some (k, op, h) → MildHit h → VecHead s k.val e → e.op = .vexec a →
    let hd := vhead e.desc
    let d := vstream e.desc 0
    let x := vstream e.desc 1
    let y := hd.view 2 (vstream e.desc 2)
    let n := d.fmt.width / 8
    hd.op = op → 8 ≤ d.fmt.width →
    (∀ r c, r < hd.rows → c < hd.cols → Supplies s k.val e.ring x r c (code r c)) →
    (hd.seg = false → hd.segm = false ∧ lens = none) →
    (hd.seg = true → (∀ r c, r < (hd.dims 2).1 → c < (hd.dims 2).2 → Supplies s k.val e.ring y r c (mark r c))
      ∧ ∃ ls, lens = some ls ∧ segLens hd y ((grid (hd.dims 2).1 (hd.dims 2).2).map (fun p => mark p.1 p.2)) = .ok ls) →
    (∀ p ts, termsAt hd code lens p = some ts → (elemAt d p.1 p.2).1 + n ≤ (if d.src = 2 then 65536 else 2 ^ 48) ∧ (d.src = 2 ∨
        (d.src = 1 ∧ (∀ j < n, s.holdsError (at_ p + j) = false)
          ∧ vecXlate s k.val e.ring .write (elemAt d p.1 p.2).1 n = .ok (rangeFrom (at_ p) n)))) →
    (d.src = 2 → ∀ p, at_ p = (elemAt d p.1 p.2).1) →
    (∀ p q ts us, termsAt hd code lens p = some ts → termsAt hd code lens q = some us → p ≠ q →
      at_ p + n ≤ at_ q ∨ at_ q + n ≤ at_ p) →
    ∃ t e', exec i s = .next t ∧ (t.core k.val).vsu.queue = e' :: (s.core k.val).vsu.queue.tail ∧ e'.done = true
      ∧ e'.acc.segcnt = lens.map List.length
      ∧ (∀ p ts, termsAt hd code lens p = some ts →
          let out := (foldOut op d x (outRnd hd (s.core k.val).seed p.1 p.2) ts).code % 2 ^ d.fmt.width
          (d.src = 1 → leNat (t.getBytes (at_ p) n) = out)
          ∧ (d.src = 2 → leNat ((List.range n).map (fun j => mget 0 (t.core k.val).vsu.cache (at_ p + j))) = out))
      ∧ (∀ b, (d.src = 2 ∨ ∀ p ts, termsAt hd code lens p = some ts → b < at_ p ∨ at_ p + n ≤ b) → t.getByte b = s.getByte b)

end Sys2Proof.Stated

/-- Reductions and scans complete with all their outputs, each the value that R104 to R108 give. -/
def Obligations.FoldsProduced : Prop := FoldsComplete ∧ FoldValues

namespace Sys2Proof.Stated

/-- The directives of the operand cache: core, direction, blocks and what the arrays report (R109). -/
def cacheRow : Instr → Option (CoreId × Nat × Nat × Hit)
  | .vcacheFill k n h => some (k, 0, n, h)
  | .vcacheWback k n h => some (k, 1, n, h)
  | .vcacheZero k n h => some (k, 2, n, h)
  | _ => none

end Sys2Proof.Stated

/-- Blocks of 64 bytes that a directive moves (R109): FILL copies memory into the cache, WBACK the cache into memory, ZERO
clears the cache; its last block, or a length of 0, makes it done; n + 1 blocks are one and then n. A completed vector instruction leaves the queue, ORs its
conditions into VSU_STATUS and sets VSU_SEGCNT; a NaN written raises NAN_TRAP with NANEN, else an enabled condition ARITH
(R113, R114). A fault it met is raised with its place in VSU_FINFO, VSU_FPOS and VSU_FADDR (R112). A restarted VEXEC goes on
with the descriptor that it reads at restart (R111). -/
def Obligations.VectorUnitAdvances : Prop :=
  (∀ (k : CoreId) (s : State) (e : VecEntry) (base : Word) (off len dir at_ : Nat) (h : Hit), MildHit h → VecHead s k.val e →
    e.op = .vcache base off len dir → 64 * e.progress < len →
    let u := (s.core k.val).vsu
    let o := off + 64 * e.progress
    let va := base.toNat + 64 * e.progress
    let e' : VecEntry := { e with progress := e.progress + 1, done := decide (len ≤ 64 * (e.progress + 1)) }
    (dir = 0 → vecXlate s k.val e.ring .read va 64 = .ok (rangeFrom at_ 64) → (∀ j < 64, s.holdsError (at_ + j) = false) →
      ∃ t, exec (.vcacheFill k 1 h) s = .next t ∧ t.mem = s.mem ∧ (t.core k.val).vsu.queue = e' :: u.queue.tail
        ∧ (∀ j < 64, mget 0 (t.core k.val).vsu.cache (o + j) = s.getByte (at_ + j))
        ∧ ∀ b, (b < o ∨ o + 64 ≤ b) → mget 0 (t.core k.val).vsu.cache b = mget 0 u.cache b)
    ∧ (dir = 1 → vecXlate s k.val e.ring .write va 64 = .ok (rangeFrom at_ 64) → at_ % 16 = 0 →
      ∃ t, exec (.vcacheWback k 1 h) s = .next t ∧ (t.core k.val).vsu = { u with queue := e' :: u.queue.tail }
        ∧ (∀ j < 64, t.getByte (at_ + j) = mget 0 u.cache (o + j)) ∧ ∀ b, (b < at_ ∨ at_ + 64 ≤ b) → t.getByte b = s.getByte b)
    ∧ (dir = 2 → ∃ t, exec (.vcacheZero k 1 h) s = .next t ∧ t.mem = s.mem ∧ (t.core k.val).vsu.queue = e' :: u.queue.tail
        ∧ (∀ j < 64, mget 0 (t.core k.val).vsu.cache (o + j) = 0)
        ∧ ∀ b, (b < o ∨ o + 64 ≤ b) → mget 0 (t.core k.val).vsu.cache b = mget 0 u.cache b))
  ∧ (∀ (k : CoreId) (s : State) (e : VecEntry) (i : Instr) (base : Word) (off len dir n : Nat) (h : Hit), VecHead s k.val e →
    e.op = .vcache base off len dir → len ≤ 64 * e.progress → cacheRow i = some (k, dir, n, h) →
    ∃ t, exec i s = .next t ∧ t.mem = s.mem
      ∧ (t.core k.val).vsu = { (s.core k.val).vsu with queue := { e with done := true } :: (s.core k.val).vsu.queue.tail })
  ∧ (∀ (i i₁ : Instr) (k : CoreId) (dir n : Nat) (h : Hit) (s : State), cacheRow i = some (k, dir, n + 1, h) →
    cacheRow i₁ = some (k, dir, 1, h) → ∃ i₂ h' t, cacheRow i₂ = some (k, dir, n, h') ∧ exec i₁ s = .next t ∧ exec i s = exec i₂ t)
  ∧ (∀ (k : CoreId) (s : State) (e : VecEntry), (s.core k.val).run = .running → (s.core k.val).vsu.stopped = false →
    (s.core k.val).vsu.queue.head? = some e →
    let c := s.core k.val
    (e.done = true → ∃ t, exec (.vectorInstructionComplete k) s = .next t ∧
      let c' := t.core k.val
      let kind : EvKind := if c.preciseM then .precise else .imprecise
      let a := e.acc.conds
      let on : Bool := (a.nx && c.vsu.te.nx) || (a.uf && c.vsu.te.uf) || (a.of && c.vsu.te.of) || (a.nv && c.vsu.te.nv) || (a.dz && c.vsu.te.dz)
      c'.vsu.queue = c.vsu.queue.tail ∧ c'.vsu.conds = c.vsu.conds.or a ∧ c'.vsu.nanf = (c.vsu.nanf || e.acc.nan.isSome)
        ∧ c'.vsu.segcnt = e.acc.segcnt.getD c.vsu.segcnt ∧ c'.vsu.cache = c.vsu.cache ∧ t.mem = s.mem
        ∧ (e.acc.nan.isSome = true → c.vsu.nanen = true → c'.pendArith = c.pendArith ∧ ∃ p, c'.pendNan = c.pendNan ++ [p]
            ∧ p.ev.code = 0x0C ∧ p.ev.cause = 2 ∧ p.ev.kind = kind ∧ p.ev.iaddr = e.iaddr)
        ∧ ((e.acc.nan = none ∨ c.vsu.nanen = false) → c'.pendNan = c.pendNan ∧ c'.pendArith = c.pendArith ++ (if on then
            [{ ev := { code := 0x0B, cause := 2, kind := kind, iaddr := e.iaddr }, stamp := e.stamp }] else []))
        ∧ ∀ r col g, e.acc.nan = some (r, col, g) → c'.vsu.nanRow = r ∧ c'.vsu.nanCol = col ∧ c'.vsu.nanOrigin = g
            ∧ c'.vsu.nanOp = (vhead e.desc).op)
    ∧ (e.done = false → exec (.vectorInstructionComplete k) s = .next s)
    ∧ ∀ f, e.fault = some f → ∃ t, exec (.vectorExecutionFault k) s = .next t ∧
      let c' := t.core k.val
      c'.vsu = { c.vsu with stopped := true, fcause := f.cause, fstream := f.stream, fwr := f.wr, fiaddr := e.iaddr.toNat,
                            frow := f.row, fcol := f.col, faddr := if f.code = 0x0F then c.vsu.faddr else f.addr }
        ∧ ∃ p, c'.pendDef = c.pendDef ++ [p] ∧ p.stamp = e.stamp ∧ p.ev =
            { code := f.code, cause := f.evCause, kind := .deferred, iaddr := e.iaddr,
              faddr := if f.code = 0x0F then 0 else BitVec.ofNat 64 f.addr })
  ∧ ∀ (i : Instr) (k : CoreId) (op n : Nat) (s : State) (e : VecEntry) (rest : List VecEntry) (a : Word) (bs : List Byte),
    (elemRow i = some (k, op, n, none) ∨ foldRow i = some (k, op, none)) →
    (s.core k.val).run = .running → (s.core k.val).vsu.stopped = false → (s.core k.val).vsu.queue = e :: rest → e.done = false →
    e.fault = none → e.reread = true → e.op = .vexec a → DescriptorAt s k.val e.ring a bs → vecCheck bs = none → (vhead bs).op = op →
    exec i s = exec i (s.modCore k.val (fun c =>
      { c with vsu := { c.vsu with queue := { e with desc := bs, reread := false } :: rest } }))

/-! ### Writes on their way, scrubbers, L2 -/

namespace Sys2Proof.Stated

/-- A write of `len` bytes at an offset of core k's scratchpad passes the window check for a master (R130): one enabled window
holds all of it and admits the master, and no byte lies in a resident window of a schedule the core does not run. -/
def Accepts (s : State) (k off len m : Nat) : Prop :=
  (∃ n < 16, let w := (s.core k).window n
    w.en = true ∧ w.base * 16 ≤ off ∧ off + len ≤ w.last * 16 + 16 ∧ s.winAdmits k w m = true)
  ∧ ∀ i < len, ∀ n < 16, ((s.core k).window n).res = true → ((s.core k).window n).base * 16 ≤ off + i →
      off + i < ((s.core k).window n).last * 16 + 16 → (s.core k).runningSched = some ((s.core k).window n).owner

end Sys2Proof.Stated

/-- SCRATCHPAD_REMOTE_WRITE takes a core's oldest posted store (R130, R133, R134, R182): one that R130 accepts is in place,
whole, but where the read of an entry that it writes in part fails, which stops its core (R136); one that it rejects writes no byte, is reported to its core as an imprecise ACCESS_FAULT, and is recorded at the
scratchpad's owner. The window check answers a reason exactly where R130 is not met, and it is the first of R131's that
applies. -/
def Obligations.RemoteWritesChecked : Prop :=
  (∀ (k : CoreId) (s : State) (p : Posted) (rest : List Posted) (k' off : Nat), k.val ≠ maltsterCore →
    (s.core k.val).posted = p :: rest →
    placeOf p.addr = .spad k' off → p.bytes ≠ [] → off + p.bytes.length ≤ 0x100000 →
    (∀ h : Ecc, h ≠ .uncorrectable → Accepts s k' off p.bytes.length k.val → (∀ j < p.bytes.length, s.holdsError (p.addr + j) = false) →
      ∃ t, exec (.scratchpadRemoteWrite k h) s = .next t
      ∧ (t.core k.val).posted = rest ∧ (∀ j < p.bytes.length, t.getByte (p.addr + j) = p.bytes.getD j 0)
      ∧ ∀ b, (b < p.addr ∨ p.addr + p.bytes.length ≤ b) → t.getByte b = s.getByte b)
    ∧ (Accepts s k' off p.bytes.length k.val → p.addr % 16 ≠ 0 ∨ (p.addr + p.bytes.length) % 16 ≠ 0 →
      ∃ t, exec (.scratchpadRemoteWrite k .uncorrectable) s = .next t ∧ t.mem = s.mem ∧ (t.core k.val).run = .stopped
        ∧ ∃ d, t.detections = s.detections ++ [d] ∧ d.source = 0x01 ∧ d.unit = k' ∧ d.master = k.val)
    ∧ (∀ h : Ecc, ¬Accepts s k' off p.bytes.length k.val → k' ≠ k.val → ∃ t r, exec (.scratchpadRemoteWrite k h) s = .next t
      ∧ s.windowCheck k' off p.bytes.length k.val = some r ∧ t.mem = s.mem
      ∧ (t.core k.val).posted = rest ∧ (∃ e, (t.core k.val).pendDef = (s.core k.val).pendDef ++ [e] ∧ e.ev.code = 0x06
          ∧ e.ev.cause = (if r = .resident then 4 else 3) ∧ e.ev.kind = .imprecise ∧ e.ev.iaddr = p.iaddr
          ∧ e.ev.faddr = BitVec.ofNat 64 p.addr)
      ∧ let c := s.core k'
        let c' := t.core k'
        c'.sp = { c.sp with rej := true, rejOff := off, rejReason := r.code, rejSrc := k.val, rejLenM1 := p.bytes.length - 1,
                            rejCount := min 0xFFFFFFFF (c.sp.rejCount + 1) }
        ∧ c'.ipend = (if c.sp.rejie then c.ipend ||| 0x10 else c.ipend)))
  ∧ ∀ (s : State) (k off len m : Nat), m ≠ maltsterId → 0 < len →
    let first (n : Nat) : Prop := ((s.core k).window n).en = true ∧ ((s.core k).window n).base * 16 ≤ off
      ∧ off < ((s.core k).window n).last * 16 + 16
    let whole (n : Nat) : Prop := first n ∧ off + len ≤ ((s.core k).window n).last * 16 + 16
    let closed : Prop := ∃ i < len, (s.core k).residentOther (off + i) = true
    (s.windowCheck k off len m = none ↔ Accepts s k off len m)
    ∧ (s.windowCheck k off len m = some .resident ↔ closed)
    ∧ (s.windowCheck k off len m = some .nowin ↔ ¬closed ∧ ∀ n < 16, ¬first n)
    ∧ (s.windowCheck k off len m = some .span ↔ ¬closed ∧ (∃ n < 16, first n) ∧ ∀ n < 16, ¬whole n)

namespace Sys2Proof.Stated

/-- A merging-buffer entry starts to drain, and a draining one is in place when the HBM controller accepts it, each of its
bytes at its address (R210, R211). A scrubber's read leaves a clean entry as it is, counts a correction, and records and
detects an uncorrectable error (R136); the patrol scrubber goes on to the next block, counts what it corrects, and poisons and
detects a block it cannot (R302 to R304); a block that holds no granule is not poisoned. -/
def MemoriesMaintained : Prop :=
  (∀ (c : ClusterId) (line : Nat) (s : State), ∃ t, exec (.mergeDrainStart c line) s = .next t ∧ t.mem = s.mem
    ∧ (t.cluster c.val).l2.mb = (s.cluster c.val).l2.mb.map (fun e => if e.line = line then { e with draining := true } else e))
  ∧ (∀ (c : ClusterId) (line : Nat) (s : State),
    let mb := (s.cluster c.val).l2.mb
    let oldest := mb.find? (fun e => e.draining)
    ((∀ e, oldest = some e → e.line ≠ line) → exec (.mergeEntryInPlace c line) s = .next s)
    ∧ ∀ e, oldest = some e → e.line = line → findEntry mb line = some e → ∃ t, exec (.mergeEntryInPlace c line) s = .next t
      ∧ (let left := mb.erase e
        (left.length < 48 → (t.cluster c.val).l2.mb = left)
        ∧ ∀ x more, left = x :: more → 48 ≤ left.length → (t.cluster c.val).l2.mb = { x with draining := true } :: more)
      ∧ (∀ a, (∀ b ∈ e.bytes, a ≠ line * 64 + b.1) → t.getByte a = s.getByte a)
      ∧ ((e.bytes.map (·.1)).Nodup → (∀ b ∈ e.bytes, b.1 < 64) → line < memEnd / 64 → line ∉ s.poison →
          ∀ b ∈ e.bytes, t.getByte (line * 64 + b.1) = b.2))
  ∧ (∀ (k : CoreId) (off : Nat) (h : Ecc) (s : State), k.val < 768 → off < 0x100000 →
    let sp := (s.core k.val).sp
    let bad : Prop := h = .uncorrectable ∨ s.holdsError (spadAddr k.val off) = true
    (¬bad → h ≠ .corrected → exec (.scratchpadScrub (.spad k) off h) s = .next s)
    ∧ (¬bad → h = .corrected → ∃ t, exec (.scratchpadScrub (.spad k) off h) s = .next t ∧ t.mem = s.mem ∧ t.detections = s.detections
        ∧ (t.core k.val).sp = { sp with cecnt := min 0xFFFF (sp.cecnt + 1) })
    ∧ (bad → ∃ t, exec (.scratchpadScrub (.spad k) off h) s = .next t ∧ t.mem = s.mem ∧ t.holdsError (spadAddr k.val off) = true
        ∧ (t.core k.val).sp = { sp with ue := true, uerow := off / 1024, uebank := (off / 16 % 64 + off / 1024) % 64 }
        ∧ t.detections = s.detections ++ [{ source := 0x01, ukind := 1, unit := k.val, master := k.val, addr := spadAddr k.val off }]))
  ∧ (∀ (c : ClusterId) (off : Nat) (h : Ecc) (s : State), off < 0x800000 →
    let u := (s.cluster c.val).tun
    let bad : Prop := h = .uncorrectable ∨ s.holdsError (tunAddr c.val off) = true
    (¬bad → h ≠ .corrected → exec (.scratchpadScrub (.tun c) off h) s = .next s)
    ∧ (¬bad → h = .corrected → ∃ t, exec (.scratchpadScrub (.tun c) off h) s = .next t ∧ t.mem = s.mem
        ∧ (t.cluster c.val).tun = { u with cecnt := min 0xFFFF (u.cecnt + 1) })
    ∧ (bad → ∃ t, exec (.scratchpadScrub (.tun c) off h) s = .next t ∧ t.mem = s.mem ∧ t.holdsError (tunAddr c.val off) = true
        ∧ (t.cluster c.val).tun = { u with ue := true, uerow := off / 2048, uebank := (off / 64 % 32 + off / 2048) % 32 }
        ∧ t.detections = s.detections ++ [{ source := 0x08, ukind := 3, unit := c.val, master := maltsterId, addr := tunAddr c.val off }]))
  ∧ (∀ (pc : Fin 768) (e : Ecc) (s : State), s.boot.st ≠ .ready ∨ (s.hbm (pc.val / 64)).mapout.getLsbD (pc.val % 64) = true →
    exec (.patrolScrub pc e) s = .next s)
  ∧ ∀ (pc : Fin 768) (s : State), s.boot.st = .ready → (s.hbm (pc.val / 64)).mapout.getLsbD (pc.val % 64) = false →
    let h := s.hbm (pc.val / 64)
    let i := pc.val % 64
    let blk := mget 0 h.scrub i
    let wrap := blk + 1 = 12582912
    let sound : Prop := ∀ a, s.addrOf pc.val (blk * 64) = some a → s.poison.contains (a / 64) = false
    (sound → ∃ t, exec (.patrolScrub pc .clean) s = .next t ∧ t.mem = s.mem ∧ t.poison = s.poison ∧ t.detections = s.detections
      ∧ mget 0 (t.hbm (pc.val / 64)).scrub i = (if wrap then 0 else blk + 1)
      ∧ (t.hbm (pc.val / 64)).sweeps = (if wrap ∧ i = 0 then min 0xFFFFFFFF (h.sweeps + 1) else h.sweeps))
    ∧ (sound → ∃ t, exec (.patrolScrub pc .onDie) s = .next t ∧ t.mem = s.mem ∧ t.poison = s.poison ∧ t.detections = s.detections
      ∧ (t.hbm (pc.val / 64)).odcnt = min 0xFFFFFFFF (h.odcnt + 1) ∧ (t.hbm (pc.val / 64)).cecnt = h.cecnt)
    ∧ (sound → ∃ t, exec (.patrolScrub pc .corrected) s = .next t ∧ t.mem = s.mem ∧ t.poison = s.poison
      ∧ (t.hbm (pc.val / 64)).cecnt = min 0xFFFFFFFF (h.cecnt + 1)
      ∧ (mget (0, 0) (t.hbm (pc.val / 64)).pcce i).2
          = (if (mget (0, 0) h.pcce i).2 + 1 = 4096 then 0 else (mget (0, 0) h.pcce i).2 + 1)
      ∧ ((mget (0, 0) h.pcce i).2 + 1 = 4096 → t.detections = s.detections ++
          [{ source := 0x0B, ukind := 4, unit := pc.val, master := maltsterId, addr := (s.addrOf pc.val (blk * 64)).getD 0 }]))
    ∧ ∀ e : Ecc, (e = .uncorrectable ∨ ¬sound) →
      let a := (s.addrOf pc.val (blk * 64)).getD 0
      ∃ t, exec (.patrolScrub pc e) s = .next t ∧ t.mem = s.mem
      ∧ (∀ a, s.addrOf pc.val (blk * 64) = some a → a / 64 ∈ t.poison) ∧ (s.addrOf pc.val (blk * 64) = none → t.poison = s.poison)
      ∧ (t.hbm (pc.val / 64)).ue = true ∧ (t.hbm (pc.val / 64)).uePc = i ∧ (t.hbm (pc.val / 64)).ueScrub = true
      ∧ t.detections = s.detections ++ [{ source := 0x0C, ukind := 4, unit := pc.val, master := maltsterId, addr := a }]

/-- The maltster may write registers (R17): its clock and power are on. -/
def MaltsterWrites (s : State) : Prop := s.boot.st ≠ .cold ∧ s.boot.trip = false

def maltsterWriter : Writer := .core ⟨maltsterCore, by decide⟩

/-- A master whose write of a register is accepted (R17, R447): the maltster while its clock and power are on, or a core that issues,
within the register's ring limit and its partition, and of core registers only its own. -/
def MayWrite (s : State) (m : Writer) (pa limit : Nat) : Prop :=
  match m with
  | .core k => (k.val = maltsterCore ∧ MaltsterWrites s)
      ∨ (k.val < 768 ∧ (s.core k.val).issues = true ∧ (s.core k.val).ring.val ≤ limit
        ∧ (∃ p, s.partOfCore k.val = some p ∧ placeFault s p false .write pa pa = none) ∧ ∀ k' off, placeOf pa = .coreReg k' off → k' = k.val)
  | .host _ => False

/-- L2's own maintenance (R217 to R220): a write of EN = 0 starts a drain and, done, leaves L2 disabled with no line and no lock;
L2_WAYPWR takes ways from allocation, and done, gates them with their lines gone; L2_LOCK takes a legal range, and done, holds
every line of it as memory has it once the merging buffer's entries of it are in place, and while EN is 0 fills nothing; NWAYS = 0 unlocks; what R220 forbids leaves the register and sets CFG_ERR. None completes
before the entries that were present are in place. -/
def L2Maintained : Prop :=
  ∀ (c : ClusterId) (s : State),
    let l := (s.cluster c.val).l2
    let lines := l.mb.map (·.line)
    let drained := l.mb.map (fun e => { e with draining := true })
    (∀ (m : Writer) (v : Word), MayWrite s m (clRegAddr c.val 0x00008) 1 → v.toNat / 16 % 4 ≠ 3 →
      let pends : Prop := ∃ w ∈ l.work, ∃ b, w.1 = .disable b
      let off (w : L2Work) : L2Work := match w with | .disable _ => .disable false | w => w
      ∃ t, exec (.l2Disable m c v) s = .next t ∧ t.mem = s.mem
        ∧ (l.en = true → ¬pends → (t.cluster c.val).l2 =
            { l with idle := v.toNat / 16 % 4, mb := drained, work := l.work ++ [(.disable false, lines)] })
        ∧ (pends → (t.cluster c.val).l2 = { l with idle := v.toNat / 16 % 4, work := l.work.map (fun w => (off w.1, w.2)) })
        ∧ (l.en = false → ¬pends → (t.cluster c.val).l2 = { l with idle := v.toNat / 16 % 4 }))
    ∧ (∀ (m : Writer) (v : Word), MayWrite s m (clRegAddr c.val 0x00008) 1 → v.toNat / 16 % 4 = 3 → ∃ t, exec (.l2Disable m c v) s = .next t
        ∧ (t.cluster c.val).l2 = { l with cfg := { err := true, off := 8 } })
    ∧ (∀ (m : Writer) (v : Word), MayWrite s m (clRegAddr c.val 0x00010) 1 → (∀ w < 16, 16 - l.nways ≤ w → l.nways ≠ 0 → v.getLsbD w = false) →
        let pd : BitVec 16 := v.truncate 16
        let fresh := pd &&& ~~~l.pd
        ∃ t, exec (.l2Waypwr m c v) s = .next t ∧ t.mem = s.mem
          ∧ (t.cluster c.val).l2.pd = pd ∧ (t.cluster c.val).l2.gated = l.gated &&& pd
          ∧ (fresh ≠ 0 → (t.cluster c.val).l2.mb = drained ∧ (t.cluster c.val).l2.work = l.work ++ [(.gate fresh, lines)])
          ∧ (fresh = 0 → (t.cluster c.val).l2.mb = l.mb ∧ (t.cluster c.val).l2.work = l.work)
          ∧ ∀ x ∈ (t.cluster c.val).l2.lines, x ∈ l.lines ∧ ¬(l.pd.getLsbD x.way = true ∧ pd.getLsbD x.way = false))
    ∧ (∀ (m : Writer) (v : Word), MayWrite s m (clRegAddr c.val 0x00010) 1 → (∃ w, w < 16 ∧ 16 - l.nways ≤ w ∧ v.getLsbD w = true ∧ l.nways ≠ 0) →
        ∃ t, exec (.l2Waypwr m c v) s = .next t ∧ (t.cluster c.val).l2 = { l with cfg := { err := true, off := 0x10 } })
    ∧ (∀ (m : Writer) (v : Word), MayWrite s m (clRegAddr c.val 0x00018) 1 →
        let base := v.toNat / 2 ^ 17 % 2 ^ 31 * 2 ^ 17
        let n := v.toNat / 2 ^ 48 % 16
        let legal := n ≤ 12 ∧ l.locked = false ∧ (∀ w ∈ l.work, w.1 ≠ .fill) ∧ s.ownsRange c.val base (n * 0x20000) = true
          ∧ ∀ w, 16 - n ≤ w → w < 16 → l.pd.getLsbD w = false ∧ l.gated.getLsbD w = false
        (n ≠ 0 → legal → ∃ t, exec (.l2Lock m c v) s = .next t ∧ t.mem = s.mem
          ∧ (t.cluster c.val).l2 = { l with lockAddr := base, nways := n, mb := drained, work := l.work ++ [(.fill, lines)],
                                            lines := l.lines.filter (fun x => decide (x.way < 16 - n)) })
        ∧ (n ≠ 0 → ¬legal → ∃ t, exec (.l2Lock m c v) s = .next t
            ∧ (t.cluster c.val).l2 = { l with cfg := { err := true, off := 0x18 } })
        ∧ (n = 0 → ∃ t, exec (.l2Lock m c v) s = .next t ∧ (t.cluster c.val).l2.nways = 0
            ∧ (t.cluster c.val).l2.locked = false ∧ ∀ x ∈ (t.cluster c.val).l2.lines, l.nways = 0 ∨ x.way < 16 - l.nways))
    ∧ ∀ w ls rest, l.work = (w, ls) :: rest →
      (((∃ e ∈ l.mb, e.draining = true ∧ e.line ∈ ls) ∨ (w = .fill ∧ l.en = false)) → exec (.l2MaintenanceDone c) s = .next s)
      ∧ ((∀ e ∈ l.mb, e.draining = true → e.line ∉ ls) → (w = .fill → l.en = true) →
        let within (line : Nat) : Prop := l.lockAddr / 64 ≤ line ∧ line < l.lockAddr / 64 + 2048 * l.nways
        ∃ t, exec (.l2MaintenanceDone c) s = .next t
          ∧ (t.cluster c.val).l2.work = rest ∧ (w ≠ .fill → t.mem = s.mem ∧ (t.cluster c.val).l2.mb = l.mb)
          ∧ (∀ b, w = .disable b → (t.cluster c.val).l2.en = b ∧ (t.cluster c.val).l2.lines = [] ∧ (t.cluster c.val).l2.locked = false
              ∧ ((∀ x ∈ rest, x.1 ≠ .fill) → (t.cluster c.val).l2.nways = 0)
              ∧ ((∃ x ∈ rest, x.1 = .fill) → (t.cluster c.val).l2.nways = l.nways))
          ∧ (∀ ways, w = .gate ways → (t.cluster c.val).l2.gated = l.gated ||| (ways &&& l.pd)
              ∧ ∀ x ∈ (t.cluster c.val).l2.lines, x ∈ l.lines ∧ ways.getLsbD x.way = false)
          ∧ (w = .fill → (t.cluster c.val).l2.locked = true
              ∧ (∀ o < 2048 * l.nways,
                ({ line := l.lockAddr / 64 + o, way := 15 - o / 2048, data := t.getBytes (l.lockAddr + 64 * o) 64 } : CLine)
                  ∈ (t.cluster c.val).l2.lines)
              ∧ (∀ e ∈ (t.cluster c.val).l2.mb, ¬within e.line)
              ∧ ∀ a, (∀ e ∈ l.mb, within e.line → ∀ b ∈ e.bytes, a ≠ e.line * 64 + b.1) → t.getByte a = s.getByte a))
end Sys2Proof.Stated

/-- Merging-buffer drains, scrubs and the maintenance of L2. -/
def Obligations.MemoriesAndL2Maintained : Prop := MemoriesMaintained ∧ L2Maintained

/-! ### The mesh -/

namespace Sys2Proof.Stated

/-- A launch abort (R157, R260, R268, R390): its cause is recorded; every core of the partition is stopped with its stores, its
flag queue and its units' queues gone; every router is stopped with its buffers empty; no store is left in a merging buffer and
no list or descriptor in an engine. -/
def Aborts (s t : State) (p : Nat) (a : Abort) : Prop :=
  (t.part p).abort = some a
    ∧ (∀ k, s.partOfCore k = some p → (t.core k).issues = false ∧ (t.core k).posted = [] ∧ (t.core k).flg.queue = []
        ∧ (t.core k).tile.queue = [] ∧ (t.core k).vsu.queue = [] ∧ (t.core k).rt.run = false
        ∧ ∀ d, (t.core k).rt.buf d = [])
    ∧ ∀ c, s.partOfCluster c = some p → (t.cluster c).l2.mb = [] ∧ (∀ n, ((t.cluster c).dma.chan n).lists = []
        ∧ ((t.cluster c).dma.chan n).descs = []) ∧ ∀ e, 1 ≤ e → e ≤ 4 → ((t.cluster c).eng e).queue = []

/-- A launch runs that no error has stopped and whose commit record is not written. -/
def Launched (s : State) (p : Nat) : Prop := (∃ l, (s.part p).launch = some l ∧ l.committed = false) ∧ (s.part p).abort = none

/-- A router works: its core has a task, it has neither stopped on a fault nor reached END, and no abort has stopped its
partition's routers (R145, R148, R157). -/
def RouterWorks (s : State) (k : Nat) : Prop :=
  (s.core k).run ≠ .idle ∧ (s.core k).rt.flt = false ∧ (s.core k).rt.ended = false
    ∧ ∀ p, s.partOfCore k = some p → (s.part p).abort = none

/-- A working router at a FWD word (R145, R148). -/
def AtWindow (s : State) (k : CoreId) (w : Fwd) : Prop :=
  k.val ≠ maltsterCore ∧ RouterWorks s k.val ∧ (s.core k.val).rt.word (s.core k.val).rt.widx = .fwd w

/-- No group of a beat in a core's scratchpad lies in a resident window of a schedule that the core does not run (R128). -/
def BeatOpen (s : State) (k off : Nat) : Prop := ∀ i < 16, (s.core k).residentOther (off + 16 * i) = false

/-- No entry of a beat in a core's scratchpad holds an error (R136). -/
def BeatSound (s : State) (k off : Nat) : Prop := ∀ j < 256, s.holdsError (spadAddr k off + j) = false

/-- Where a stream's beat lies (R150): 256 bytes from group BASEG + (b mod LENB) × STRIDEG, all of it in the scratchpad. -/
def StreamBeat (e : Word) (b off : Nat) : Prop :=
  let len := e.toNat / 2 ^ 32 % 2 ^ 16
  let i := if len = 0 then b else b % len
  let g : Int := (e.toNat % 2 ^ 16 : Nat) + i * signedOf 16 (e.toNat / 2 ^ 16)
  0 ≤ g ∧ g ≤ 65520 ∧ off = g.toNat * 16

/-- A window starts when its flag is 1, or at once where it does not wait, clearing that flag where WAITCLR asks, and shows that
it waits until then (R148). A router that does not work moves nothing (R157). A beat takes one beat of every input the window
uses and gives one to every output, the same bytes each, and writes the scratchpad where SEL_D has a source (R148, R151). A
window ends when its beats have moved, performs its DONE action unless a delivery was rejected, and the router goes on: to the
next word, to END with ROUTE_END pending, or round a LOOP whose counter R149 gives. In-mesh sums are formed element by element
(R153 to R155): INT32 modulo 2³² with IOVF where the exact sum does not fit, AFX128 modulo 2¹²⁸ recording nothing, and FP32 in
operand order with one rounding for each addition. -/
def RouterWindowsRun : Prop :=
  (∀ (k : CoreId) (w : Fwd) (s : State), AtWindow s k w →
    let r := (s.core k.val).rt
    let f := (s.core k.val).flg.f
    (r.run = false → (w.waiten = true → f.getLsbD w.waitf = true) →
      ∃ t, exec (.routeWindowStart k) s = .next t ∧ (t.core k.val).rt = { r with run := true, wait := false, beat := 0, rejected := false }
        ∧ (∀ i < 64, (t.core k.val).flg.f.getLsbD i = (f.getLsbD i && !(w.waitclr && decide (i = w.waitf)))))
    ∧ (r.run = true → exec (.routeWindowStart k) s = .next s)
    ∧ (r.run = false → w.waiten = true → f.getLsbD w.waitf = false → ∃ t, exec (.routeWindowStart k) s = .next t
        ∧ t.core k.val = { s.core k.val with rt := { r with wait := true } } ∧ t.mem = s.mem)
    ∧ (∀ (io dof : Nat) (h : Ecc) (x : List (MeshLink × Ecc)), h ≠ .uncorrectable → (∀ e ∈ x, e.2 ≠ .uncorrectable) → r.run = true → w.moves = true → r.beat < w.beats → s.beatReady k.val w = true →
      (w.uses .inject = true → StreamBeat (mget 0 r.inj w.injs) (mget 0 r.injCur w.injs) io ∧ BeatOpen s k.val io ∧ BeatSound s k.val io) →
      (w.selD ≠ .none → StreamBeat (mget 0 r.dlv w.dlvs) (mget 0 r.dlvCur w.dlvs) dof ∧ (w.deliverLink = none → BeatOpen s k.val dof)) →
      (∀ d, w.deliverLink = some d → ∃ m, neighbour k.val (linkDir d) = some m ∧ Accepts s k.val dof 256 m) →
      let inj := if w.uses .inject then s.getBytes (spadAddr k.val io) 256 else []
      let sum := if w.sumfmt = 0 then [] else (beatSum w.sumfmt (w.order.map (beatOf r inj []))).1
      (w.selD ≠ .none → (beatOf r inj sum w.selD).length = 256) →
      ∃ t, exec (.routeBeat k h x) s = .next t ∧ (t.core k.val).rt.beat = r.beat + 1 ∧ (t.core k.val).rt.run = true
        ∧ (∀ d, (t.core k.val).rt.buf d = if w.uses (.link d) then (r.buf d).tail else r.buf d)
        ∧ (∀ d o, (d, o) ∈ w.outputs → ∃ j, s.meshPeer k.val d = some j
            ∧ (t.core j).rt.buf (linkFar d) = (s.core j).rt.buf (linkFar d) ++ [beatOf r inj sum o]
            ∧ (t.core j).rt.ce = min 0xFF ((s.core j).rt.ce + (x.filter (fun e => e.1 == d && e.2 == .corrected)).length))
        ∧ (w.uses .inject = true → mget 0 (t.core k.val).rt.injCur w.injs = mget 0 r.injCur w.injs + 1)
        ∧ (w.selD ≠ .none → mget 0 (t.core k.val).rt.dlvCur w.dlvs = mget 0 r.dlvCur w.dlvs + 1
          ∧ (∀ j < 256, t.getByte (spadAddr k.val dof + j) = (beatOf r inj sum w.selD).getD j 0)
          ∧ ∀ a, (a < spadAddr k.val dof ∨ spadAddr k.val dof + 256 ≤ a) → t.getByte a = s.getByte a)
        ∧ (w.selD = .none → t.mem = s.mem))
    ∧ (r.run = false ∨ (w.moves = true ∧ r.beat < w.beats) → exec (.routeWindowEnd k) s = .next s)
    ∧ (r.run = true → (w.moves = true → w.beats ≤ r.beat) →
      ∃ t, exec (.routeWindowEnd k) s = .next t
        ∧ t.flight = s.flight ++ (if w.doneen && !r.rejected then
            [{ target := if w.donek then .cnt k.val (w.donef % 16) else .bin k.val w.donef,
               act := if w.donek then .inc else .set, source := k.val, rank := routerRank, origin := none }] else [])
        ∧ (∀ v, r.word (r.widx + 1) = .fwd v → (t.core k.val).ipend = (s.core k.val).ipend ∧ (t.core k.val).rt =
            { r with widx := r.widx + 1, beat := 0, run := false, wait := v.waiten && !f.getLsbD v.waitf })
        ∧ (r.word (r.widx + 1) = .stop → (t.core k.val).ipend = (s.core k.val).ipend ||| 8 ∧ (t.core k.val).rt =
            { r with widx := r.widx + 1, beat := 0, run := false, wait := false, ended := true })
        ∧ t.core k.val = (s.core k.val).routeSettle (r.widx + 1) routeFuel)
    ∧ (∀ (c : Core) (i n back cnt : Nat), c.rt.word i = .loop back cnt →
      let v := ((c.rt.loops.find? (fun e => e.1 == i)).map (·.2)).getD cnt
      c.routeSettle i (n + 1) = (if v = 0
        then ({ c with rt := { c.rt with loops := mdrop c.rt.loops i } } : Core).routeSettle (i + 1) n
        else ({ c with rt := { c.rt with loops := mput c.rt.loops i (v - 1) } } : Core).routeSettle (i - back) n)))
  ∧ (∀ (k : CoreId) (h : Ecc) (x : List (MeshLink × Ecc)) (s : State), ¬RouterWorks s k.val →
      exec (.routeWindowStart k) s = .next s ∧ exec (.routeBeat k h x) s = .next s ∧ exec (.routeWindowEnd k) s = .next s
        ∧ exec (.stall k) s = .next s)
  ∧ (∀ (k : CoreId) (s : State), RouterWorks s k.val → (s.core k.val).rt.run = false →
      (∀ w, (s.core k.val).rt.word (s.core k.val).rt.widx ≠ .fwd w) → ∃ t, exec (.routeWindowStart k) s = .next t
        ∧ t.core k.val = (s.core k.val).routeSettle (s.core k.val).rt.widx routeFuel)
  ∧
    ∀ (bs : List Beat),
      let ints (i : Nat) : Int := (bs.map (fun b => signedOf 32 (beatElem 4 b i))).sum
      let wide (i : Nat) : Int := (bs.map (fun b => signedOf 128 (beatElem 16 b i))).sum
      (∀ i < 64, beatElem 4 (beatSum 1 bs).1 i = toTwos 32 (ints i))
      ∧ ((beatSum 1 bs).2.iovf = true ↔ ∃ i < 64, ints i < -2 ^ 31 ∨ 2 ^ 31 ≤ ints i)
      ∧ (∀ i < 16, beatElem 16 (beatSum 3 bs).1 i = toTwos 128 (wide i)) ∧ (beatSum 3 bs).2 = {}
      ∧ ∀ b rest, bs = b :: rest → ∀ i < 64, beatElem 4 (beatSum 2 bs).1 i =
          rest.foldl (fun acc x => (encodeVal .fp32 0 .rne (Val.sum [valFp32 acc, valFp32 (beatElem 4 x i)]).1).1) (beatElem 4 b i)

/-- A route fault stops the router with its cause, port, word and beat in CORE_RTFLT and aborts the launch (R157): RANGE for a
beat outside the scratchpad, WINDOW for a delivery that R130 rejects and, the model's choice (log 129), for an inject read or
own delivery in a resident window of another schedule, STALL after the timeout, and LINKUE at the receiver of a
beat with an uncorrectable error; the last two are detected hardware errors with their core as the unit. An inject
read that meets an uncorrectable error stops the router (R136). Every corrected unit of a beat is counted (R143). -/
def RouteFaults : Prop :=
  ∀ (k : CoreId) (w : Fwd) (p : Nat) (s : State), AtWindow s k w → s.partOfCore k.val = some p → Launched s p →
    let r := (s.core k.val).rt
    let moving := r.run = true ∧ w.moves = true ∧ r.beat < w.beats ∧ s.beatReady k.val w = true
    let inject (off : Nat) := StreamBeat (mget 0 r.inj w.injs) (mget 0 r.injCur w.injs) off
    let lands (off : Nat) := StreamBeat (mget 0 r.dlv w.dlvs) (mget 0 r.dlvCur w.dlvs) off
    let readable := w.uses .inject = true → ∃ off, inject off ∧ BeatOpen s k.val off ∧ BeatSound s k.val off
    let failed (t : State) (cause port : Nat) : Prop := (t.core k.val).rt.flt = true
      ∧ (t.core k.val).rt.fault = { cause := cause, port := port, widx := r.widx, beat := r.beat }
      ∧ Aborts s t p { cause := 1, sub := cause, hw := decide (3 ≤ cause) }
    (∃ t port, exec (.stall k) s = .next t ∧ port < 6 ∧ failed t 3 port
      ∧ t.detections = s.detections ++ [{ source := 0x04, ukind := 1, unit := k.val, master := k.val, addr := 0 }])
    ∧ (∀ (h : Ecc) (x : List (MeshLink × Ecc)), moving →
      (w.uses .inject = true → (∀ off, ¬inject off) →
        ∃ t, exec (.routeBeat k h x) s = .next t ∧ failed t 2 4 ∧ t.mem = s.mem ∧ t.detections = s.detections)
      ∧ ((w.uses .inject = true → ∃ off, inject off) → w.selD ≠ .none → (∀ off, ¬lands off) →
        ∃ t, exec (.routeBeat k h x) s = .next t ∧ failed t 2 5 ∧ t.mem = s.mem ∧ t.detections = s.detections)
      ∧ (∀ off, w.uses .inject = true → inject off → ¬BeatOpen s k.val off → (w.selD = .none ∨ ∃ o, lands o) →
        ∃ t, exec (.routeBeat k h x) s = .next t ∧ failed t 1 4 ∧ t.mem = s.mem ∧ t.detections = s.detections)
      ∧ (∀ off, w.uses .inject = true → inject off → BeatOpen s k.val off → (w.selD = .none ∨ ∃ o, lands o) →
        h = .uncorrectable ∨ ¬BeatSound s k.val off →
        ∃ t, exec (.routeBeat k h x) s = .next t ∧ (t.core k.val).rt.run = false ∧ t.mem = s.mem
          ∧ ∃ d, t.detections = s.detections ++ [d] ∧ d.source = 0x01 ∧ d.unit = k.val)
      ∧ (∀ dof d m, h ≠ .uncorrectable → readable → w.selD ≠ .none → lands dof → w.deliverLink = some d →
        neighbour k.val (linkDir d) = some m → ¬Accepts s k.val dof 256 m →
        ∃ t, exec (.routeBeat k h x) s = .next t ∧ failed t 1 5 ∧ t.mem = s.mem ∧ t.detections = s.detections
          ∧ (t.core k.val).sp.rej = true ∧ (t.core k.val).sp.rejSrc = m ∧ (t.core k.val).rt.rejected = true)
      ∧ (∀ dof, h ≠ .uncorrectable → readable → w.selD ≠ .none → lands dof → w.deliverLink = none → ¬BeatOpen s k.val dof →
        ∃ t, exec (.routeBeat k h x) s = .next t ∧ failed t 1 5 ∧ t.mem = s.mem ∧ (t.core k.val).rt.rejected = true))
    ∧ ∀ (b : Beat) (d : MeshLink) (j : Nat) (es : List Ecc), s.meshPeer k.val d = some j →
      let t := s.sendBeat k.val d b es
      (t.core j).rt.ce = min 0xFF ((s.core j).rt.ce + (es.filter (fun e => e == .corrected)).length)
      ∧ (.uncorrectable ∉ es → (t.core j).rt.buf (linkFar d) = (s.core j).rt.buf (linkFar d) ++ [b])
      ∧ (.uncorrectable ∈ es → (t.core j).rt.flt = true ∧ (t.core j).rt.fault.cause = 4 ∧ (t.core j).rt.fault.port = linkPort (linkFar d)
          ∧ Aborts s t p { cause := 1, sub := 4, hw := true }
          ∧ t.detections = s.detections ++ [{ source := 0x05, ukind := 1, unit := k.val, master := j, addr := 0 }])
end Sys2Proof.Stated

/-- Router windows start, move beats, sum and end; route faults stop the router and the launch. -/
def Obligations.RouterRuns : Prop := RouterWindowsRun ∧ RouteFaults

/-! ### The cluster engines -/

namespace Sys2Proof.Stated

/-- An engine's access to byte `va` of device memory, a tun or a scratchpad goes to physical byte `pa` (R18, R243, R265). -/
def EngByte (s : State) (g : Agent) (kind : AccKind) (va pa : Nat) : Prop := ∃ img, fabXlate s g kind va = .ok (.phys pa img)

/-- The eight quadwords of a descriptor at virtual address a, in device memory, the cluster's tun or a scratchpad of the
cluster, all of it readable (R246, R264). -/
def DescriptorWords (s : State) (g : Agent) (c a : Nat) (q : List Word) : Prop :=
  ∃ pa, (∀ i < 64, EngByte s g .read ((a + i) % 2 ^ 48) (pa + i)) ∧ (∀ i < 64, s.holdsError (pa + i) = false)
    ∧ (match placeOf pa with
       | .mem _ => True
       | .tun c' _ => c' = c
       | .spad k _ => clusterOf k = c
       | _ => False)
    ∧ q = (List.range 8).map (fun i => leWord (s.getBytes (pa + 8 * i) 8))

/-- Q4 of R248 with DONEEN = 1 names a flag of a live core or cluster of the partition. -/
def DoneLegal (s : State) (p w : Nat) : Prop :=
  let cls := w / 2 ^ 8 % 4
  let unit := w / 2 ^ 10 % 2 ^ 10
  let c := if cls = 2 then unit else clusterOf unit
  w < 2 ^ 20 ∧ cls ≠ 3 ∧ w % 2 ^ 8 < ([64, 16, 256] : List Nat).getD cls 0 ∧ unit < (if cls = 2 then 48 else 768)
    ∧ s.partOfCluster c = some p ∧ (s.cluster c).absent = false

/-- The action of a DONE word, performed by master `id` (R248, R255). -/
def doneOf (w id : Nat) : FlagMsg :=
  let unit := w / 2 ^ 10 % 2 ^ 10
  let f := w % 2 ^ 8
  { target := if w / 2 ^ 8 % 4 = 0 then .bin unit f else if w / 2 ^ 8 % 4 = 1 then .cnt unit f else .cl unit f,
    act := if w / 2 ^ 8 % 4 = 1 then .inc else .set, source := id, rank := 0, origin := none }

/-- R249: what makes a DMA descriptor a reserved encoding. -/
def DmaReserved (s : State) (p : Nat) (q : List Word) : Prop :=
  let n (i : Nat) : Nat := (q.getD i 0).toNat
  let w := n 3
  let op := w % 16
  let cls := w / 2 ^ 40 % 4
  w / 2 ^ 10 % 64 ≠ 0 ∨ w / 2 ^ 47 ≠ 0 ∨ 2 < op ∨ (op ≠ 1 ∧ 2 ^ 48 ≤ n 0) ∨ (op = 1 ∧ (n 5 ≠ 0 ∨ n 6 % 2 ^ 32 ≠ 0))
    ∨ (w.testBit 9 = true ∧ op ≠ 2) ∨ (w.testBit 5 = false ∧ w / 2 ^ 16 % 2 ^ 31 ≠ 0)
    ∨ (w.testBit 5 = true ∧ (cls = 3 ∨ ([64, 16, 256] : List Nat).getD cls 0 ≤ w / 2 ^ 32 % 2 ^ 8 ∨ (w / 2 ^ 16 % 2 ^ 16 ≠ 0 ∧ cls ≠ 1)
        ∨ (w / 2 ^ 42 % 16 ≠ 0 ∧ cls = 2) ∨ (w.testBit 46 = true ∧ cls = 1)))
    ∨ (w.testBit 6 = false ∧ n 4 ≠ 0) ∨ (w.testBit 6 = true ∧ ¬DoneLegal s p (n 4))

/-- R250: for COPY and COMPARE, the ranges from the lowest to the highest byte of source and of destination meet, addresses
being modulo 2^48 (R251). -/
def DmaOverlap (d : DmaDesc) : Prop :=
  let at_ (base : Int) (str : List Int) (v : Nat) : Nat := toTwos 48 <|
    base + (v / d.len0 % d.cnt1 : Nat) * str.getD 0 0 + (v / d.len0 / d.cnt1 % d.cnt2 : Nat) * str.getD 1 0
      + (v / d.len0 / d.cnt1 / d.cnt2 : Nat) * str.getD 2 0 + (v % d.len0 : Nat)
  let src := at_ (d.src.toNat : Int) d.sstr
  let dst := at_ (d.dst : Int) d.dstr
  let n := d.len0 * d.cnt1 * d.cnt2 * d.cnt3
  d.op ≠ 1 ∧ (∃ u < n, ∃ v < n, src u ≤ dst v) ∧ ∃ u < n, ∃ v < n, dst u ≤ src v

/-- A channel of a partition's cluster that works: neither stopped nor at a fault, while no map-out holds the partition's
requests (R310). -/
def ChannelOf (s : State) (p c ch : Nat) : Prop :=
  s.partOfCluster c = some p ∧ (s.dmaChan c ch).stopped = false ∧ (s.dmaChan c ch).fault = none ∧ s.migrating p = false

/-- A channel's fault as DMA_FREC0 to DMA_FREC3 record it (R262). -/
def FaultIs (x : DmaChan) (f : DmaFault) : Prop := ∃ g, x.fault = some g ∧ { g with num := f.num, unit := f.unit } = f

/-- A channel of cluster c meets a fault, which its engine records unless it holds one; a host address that does not answer has
no CAUSE and is not recorded (R260, R262). -/
def Faulted (s t : State) (c ch : Nat) (f : DmaFault) : Prop :=
  FaultIs (t.dmaChan c ch) f
    ∧ ((s.cluster c).dma.flt = false → f.cause ≠ 0 → (t.cluster c).dma.flt = true ∧ (t.cluster c).dma.frecCh = ch
        ∧ { (t.cluster c).dma.frec with num := f.num, unit := f.unit } = f)
    ∧ ((s.cluster c).dma.flt = true → (t.cluster c).dma.frec = (s.cluster c).dma.frec)

end Sys2Proof.Stated

/-- A channel fetches its list in bursts that end at LAST or at a 512-byte block, and only while 2 or fewer fetched descriptors
are unstarted (R247). A reserved encoding, an overlap, a failed access or a descriptor elsewhere is a fault of the channel (R246,
R249, R250, R260). The next descriptor starts once every earlier one has been read, its FENCE, WAITEN and PACE marks allow it,
and no STOPNE mismatch came before; a FENCE waits for the
acknowledgement of earlier writes through remote pages (R222, R337); a wait not satisfied leaves the channel as it is until it is a fault with cause STALL
(R253, R254, R255, R257). While a map-out holds the
partition's requests, and once stopped or at a fault, a channel makes no access (R260, R310). -/
def Obligations.DmaLists : Prop :=
  (∀ (c : ClusterId) (ch : Fin 16) (p n m : Nat) (h w : Hit) (s : State), s.partOfCluster c.val = some p →
    ((s.dmaChan c.val ch.val).stopped = true ∨ (s.dmaChan c.val ch.val).fault ≠ none ∨ s.migrating p = true) →
    exec (.dmaDescriptorFetch c ch h) s = .next s ∧ exec (.copy c ch n m h w) s = .next s ∧ exec (.dmaFill c ch n w) s = .next s
      ∧ exec (.dmaCompare c ch n h) s = .next s)
  ∧ ∀ (c : ClusterId) (ch : Fin 16) (p : Nat) (s : State), ChannelOf s p c.val ch.val →
    let x := s.dmaChan c.val ch.val
    let g : Agent := ⟨p, 0x300 + 5 * c.val, 0x300 + 5 * c.val + ch.val * 4096⟩
    let bad (a : Nat) (q : List Word) (sub : Nat) : DmaFault :=
      { faddr := a, cause := 5, daddr := a, descid := (q.getD 1 0).toNat / 2 ^ 48, sub := sub }
    let faulted (t : State) (f : DmaFault) : Prop := t.dmaChan c.val ch.val = { x with fault := some f } ∧ t.mem = s.mem
    (∀ h : Hit, (∀ l ∈ x.lists, l.fetchedLast = true) → exec (.dmaDescriptorFetch c ch h) s = .next s)
    ∧ (∀ (l : DmaList) (h : Hit), x.lists.find? (fun y => !y.fetchedLast) = some l →
      (2 < (x.descs.filter (fun r => !r.started)).length → exec (.dmaDescriptorFetch c ch h) s = .next s)
      ∧ ((x.descs.filter (fun r => !r.started)).length ≤ 2 → ∀ ds a last f u, fetchBurst g c.val s l.next h 8 = (ds, a, last, f, u) →
          ∃ t, exec (.dmaDescriptorFetch c ch h) s = .next t ∧ (t.dmaChan c.val ch.val).descs = x.descs ++ ds
            ∧ (t.dmaChan c.val ch.val).lists = x.lists.map (fun y => if y = l then { y with next := a, fetchedLast := last } else y)
            ∧ (f = none → (t.dmaChan c.val ch.val).fault = none) ∧ ∀ g, f = some g → Faulted s t c.val ch.val g)
      ∧ (MildHit h → (x.descs.filter (fun r => !r.started)).length ≤ 2 → l.next < 2 ^ 48 →
        (∀ (m : Nat) (q : Nat → List Word), m < 8 →
          let d (i : Nat) : DmaDesc := dmaDesc ((l.next + 64 * i) % 2 ^ 48) (q i)
          let ends (i : Nat) : Prop := (d i).last = true ∨ (l.next + 64 * (i + 1)) % 512 = 0
          (∀ i ≤ m, DescriptorWords s g c.val ((l.next + 64 * i) % 2 ^ 48) (q i) ∧ ¬DmaReserved s p (q i) ∧ ¬DmaOverlap (d i)) →
          (∀ i < m, ¬ends i) → ends m →
          ∃ t, exec (.dmaDescriptorFetch c ch h) s = .next t ∧ t.mem = s.mem ∧ (t.dmaChan c.val ch.val).fault = none
            ∧ (t.dmaChan c.val ch.val).descs = x.descs ++ (List.range (m + 1)).map (fun i => { desc := d i })
            ∧ (t.dmaChan c.val ch.val).lists = x.lists.map (fun y => if y = l then
                { y with next := (l.next + 64 * (m + 1)) % 2 ^ 48, fetchedLast := (d m).last } else y))
        ∧ (∀ q, DescriptorWords s g c.val l.next q →
            (DmaReserved s p q → ∃ t, exec (.dmaDescriptorFetch c ch h) s = .next t
              ∧ Faulted s t c.val ch.val (bad l.next q 0x10) ∧ (t.dmaChan c.val ch.val).descs = x.descs)
            ∧ (¬DmaReserved s p q → DmaOverlap (dmaDesc l.next q) → ∃ t, exec (.dmaDescriptorFetch c ch h) s = .next t
              ∧ Faulted s t c.val ch.val (bad l.next q 0x13) ∧ (t.dmaChan c.val ch.val).descs = x.descs))
        ∧ (∀ f, fabXlate s g .read l.next = .error f → ∃ t, exec (.dmaDescriptorFetch c ch h) s = .next t
            ∧ Faulted s t c.val ch.val { faddr := f.addr, cause := f.cause, list := true, daddr := l.next })
        ∧ (∀ pa c' o, EngByte s g .read l.next pa → placeOf pa = .tun c' o → c' ≠ c.val →
            ∃ t, exec (.dmaDescriptorFetch c ch h) s = .next t
            ∧ Faulted s t c.val ch.val { faddr := l.next, cause := 2, list := true, daddr := l.next })))
    ∧ ∀ before r rest, x.descs = before ++ r :: rest → (∀ b ∈ before, b.started = true) → r.started = false →
      let d := r.desc
      let read (b : DmaRun) : Prop := b.desc.op = 1 ∨ b.desc.total ≤ b.readN
      let may : Prop := (∀ b ∈ before, read b ∧ ¬(b.desc.stopne = true ∧ b.nmis ≠ 0))
        ∧ (d.fence = true → ∀ b ∈ before, b.desc.total ≤ b.doneN) ∧ ¬(d.pace = true ∧ x.held = true)
      let k := coreAt c.val d.wunit
      let target : FlagTarget := if d.wclass = 0 then .bin k d.wflag else if d.wclass = 1 then .cnt k d.wflag else .cl c.val d.wflag
      let cond : Prop := if d.wclass = 1 then d.wcount ≤ s.counter k d.wflag else s.flagGet target = true
      d.wunit < 16 →
      (¬may → exec (.dmaDescriptorStart c ch) s = .next s ∧ exec (.dmaStall c ch) s = .next s)
      ∧ (may → d.waiten = true → ¬cond → exec (.dmaDescriptorStart c ch) s = .next s ∧ ∃ t f, exec (.dmaStall c ch) s = .next t
          ∧ faulted t f ∧ f.cause = 6 ∧ f.daddr = d.addr ∧ f.descid = d.id)
      ∧ (may → (d.waiten = true → cond) → exec (.dmaStall c ch) s = .next s)
      ∧ (may → (d.waiten = true → cond) → d.fence = true → s.dmaUnacked c.val ch.val = true →
          exec (.dmaDescriptorStart c ch) s = .next (s.dmaFlush c.val ch.val))
      ∧ (may → (d.waiten = true → cond) → (d.fence = true → s.dmaUnacked c.val ch.val = false) → ∃ t, exec (.dmaDescriptorStart c ch) s = .next t
          ∧ t.mem = s.mem ∧ (t.dmaChan c.val ch.val).descs = before ++ { r with started := true, fresh := !x.mism } :: rest
          ∧ (let n := x.level + ((before ++ r :: rest).filter (fun b => b.started && b.desc.pace)).length + d.pace.toNat
             ((t.dmaChan c.val ch.val).held = true ↔ x.en = true ∧ (x.hiwm ≤ n ∨ (x.held = true ∧ x.lowm < n))))
          ∧ (d.waiten = true → d.wclass ≠ 1 → d.wflag < 256 → t.flagGet target = !d.wclr))

namespace Sys2Proof.Stated

/-- COPY, FILL and COMPARE visit their bytes in order (R251 to R253): a read takes bytes into the buffer while R244 gives it
slots; a write goes in write beats of 256 bytes of a scratchpad or 64 elsewhere (R256), each checked on its own (R130), and
changes those bytes alone; a rejected one writes nothing and is a fault of the channel. COMPARE counts differing bytes, records
the first and writes nothing. Whatever is read or written, host bus addresses and remote pages too, a channel ends with what its
visits gave, or with the fault of the first that failed (R251, R262, R451). -/
def DmaMoves : Prop :=
  ∀ (c : ClusterId) (ch : Fin 16) (p : Nat) (s : State), ChannelOf s p c.val ch.val →
    let x := s.dmaChan c.val ch.val
    let g : Agent := ⟨p, 0x300 + 5 * c.val, 0x300 + 5 * c.val + ch.val * 4096⟩
    let used := (x.descs.map (fun r => r.buf.length)).foldl (· + ·) 0
    let held (i : Nat) : Nat := ceilDiv (((s.dmaChan c.val i).descs.map (fun r => r.buf.length)).foldl (· + ·) 0) 256
    let slots (n : Nat) : Prop := n ≤ 128 ∧ ((List.range 16).map (fun i => (if i = ch.val then n else held i) - 4)).foldl (· + ·) 0 ≤ 192
    let srcAt (d : DmaDesc) (v : Nat) : Nat := toTwos 48 ((d.src.toNat : Int) + (v / d.len0 % d.cnt1 : Nat) * d.sstr.getD 0 0
      + (v / d.len0 / d.cnt1 % d.cnt2 : Nat) * d.sstr.getD 1 0 + (v / d.len0 / (d.cnt1 * d.cnt2) : Nat) * d.sstr.getD 2 0 + (v % d.len0 : Nat))
    let dstAt (d : DmaDesc) (v : Nat) : Nat := toTwos 48 ((d.dst : Int) + (v / d.len0 % d.cnt1 : Nat) * d.dstr.getD 0 0
      + (v / d.len0 / d.cnt1 % d.cnt2 : Nat) * d.dstr.getD 1 0 + (v / d.len0 / (d.cnt1 * d.cnt2) : Nat) * d.dstr.getD 2 0 + (v % d.len0 : Nat))
    (∀ before r rest, x.descs = before ++ r :: rest → (∀ b ∈ before, ¬(b.started = true ∧ b.wasRead = false)) → r.started = true →
      ∀ (n : Nat) (h w : Hit), 0 < n → r.readN + n ≤ r.desc.total →
      (r.desc.op = 0 → ¬slots (ceilDiv (used + n) 256) → exec (.copy c ch n 0 h w) s = .next s)
      ∧ (r.desc.op = 0 → slots (ceilDiv (used + n) 256) →
        (∀ bs u, dmaReadN g r.desc s r.readN h n = .ok (bs, u) → ∃ t, exec (.copy c ch n 0 h w) s = .next t ∧ t.mem = u.mem
          ∧ (t.dmaChan c.val ch.val).descs = before ++ { r with readN := r.readN + n, buf := r.buf ++ bs } :: rest)
        ∧ ∀ f u, dmaReadN g r.desc s r.readN h n = .error (f, u) → ∃ t, exec (.copy c ch n 0 h w) s = .next t ∧ t.mem = u.mem
          ∧ Faulted s t c.val ch.val f ∧ (t.dmaChan c.val ch.val).descs = x.descs)
      ∧ (r.desc.op = 2 →
        (∀ acc u, dmaCompareN g r.desc s r.readN h {} n = .ok (acc, u) → ∃ t, exec (.dmaCompare c ch n h) s = .next t ∧ t.mem = u.mem
          ∧ ∃ r', (t.dmaChan c.val ch.val).descs = before ++ r' :: rest ∧ r'.readN = r.readN + n ∧ r'.nmis = r.nmis + acc.n)
        ∧ ∀ f u, dmaCompareN g r.desc s r.readN h {} n = .error (f, u) → ∃ t, exec (.dmaCompare c ch n h) s = .next t ∧ t.mem = u.mem
          ∧ Faulted s t c.val ch.val f ∧ (t.dmaChan c.val ch.val).descs = x.descs)
      ∧ ∀ (pa pb : Nat → Nat), MildHit h → r.desc.srcHost = false →
      (∀ i < n, EngByte s g .read (srcAt r.desc (r.readN + i)) (pa i) ∧ s.holdsError (pa i) = false
        ∧ (h = none ∨ (placeOf (pa i)).isMemory = true)) →
      (r.desc.op = 0 → slots (ceilDiv (used + n) 256) → ∃ t, exec (.copy c ch n 0 h w) s = .next t ∧ t.mem = s.mem
        ∧ (t.dmaChan c.val ch.val).descs = before ++
            { r with readN := r.readN + n, buf := r.buf ++ (List.range n).map (fun i => s.readByte (pa i)) } :: rest)
      ∧ (r.desc.op = 2 → r.desc.dstHost = false →
          (∀ i < n, EngByte s g .read (dstAt r.desc (r.readN + i)) (pb i) ∧ s.holdsError (pb i) = false
            ∧ (h = none ∨ (placeOf (pb i)).isMemory = true)) →
          let differ := (List.range n).filter (fun i => s.readByte (pa i) != s.readByte (pb i))
          ∃ t, exec (.dmaCompare c ch n h) s = .next t ∧ t.mem = s.mem
            ∧ (let y := t.dmaChan c.val ch.val
               y.nmis = min 0xFFFFFFFF (x.nmis + differ.length) ∧ (y.mism = true ↔ x.mism = true ∨ differ ≠ [])
               ∧ y.cmpa = (match differ with
                  | i :: _ => if r.fresh = true ∧ r.nmis = 0 then dstAt r.desc (r.readN + i) else x.cmpa
                  | [] => x.cmpa)
               ∧ ∃ r', y.descs = before ++ r' :: rest ∧ r'.readN = r.readN + n ∧ r'.nmis = r.nmis + differ.length ∧ r'.desc = r.desc)))
    ∧ (∀ before r rest, x.descs = before ++ r :: rest → (∀ b ∈ before, b.desc.total ≤ b.doneN) → r.started = true →
      r.doneN < r.desc.total → ∀ (n : Nat) (w : Hit),
      let i : Instr := if r.desc.op = 1 then .dmaFill c ch n w else .copy c ch 0 n none w
      let buf := if r.desc.op = 1 then none else some r.buf
      r.desc.op < 2 →
      (∀ v u, dmaWriteN g r.desc buf s r.doneN w n = .ok (v, u) → ∃ t, exec i s = .next t ∧ t.mem = u.mem
        ∧ (t.dmaChan c.val ch.val).descs = before ++ { r with doneN := v, buf := r.buf.drop (v - r.doneN) } :: rest)
      ∧ ∀ f u, dmaWriteN g r.desc buf s r.doneN w n = .error (f, u) → ∃ t, exec i s = .next t ∧ t.mem = u.mem
        ∧ Faulted s t c.val ch.val f ∧ (t.dmaChan c.val ch.val).descs = x.descs)
    ∧ ∀ before r rest, x.descs = before ++ r :: rest → (∀ b ∈ before, b.desc.total ≤ b.doneN) → r.started = true →
      r.doneN < r.desc.total → r.desc.dstHost = false →
      ∀ (pa : Nat) (w : Hit), MildHit w → EngByte s g .write (dstAt r.desc r.doneN) pa →
      let a := dstAt r.desc r.doneN
      let unit := match placeOf pa with | .spad _ _ => 256 | _ => 64
      let n := min (r.desc.len0 - r.doneN % r.desc.len0) (unit - a % unit)
      let bytes (i : Nat) : Byte := if r.desc.op = 1 then BitVec.ofNat 8 (r.desc.src.toNat / 2 ^ (8 * ((r.doneN % r.desc.len0 + i) % 8)))
        else r.buf.getD i 0
      let i : Instr := if r.desc.op = 1 then .dmaFill c ch 1 w else .copy c ch 0 1 none w
      (r.desc.op = 1 ∨ (r.desc.op = 0 ∧ n ≤ r.buf.length)) →
      (((∀ k off, placeOf pa = .spad k off → Accepts s k off n (0x300 + 5 * c.val)) → (∀ j < n, s.holdsError (pa + j) = false) →
        ∃ t, exec i s = .next t ∧ (∀ j < n, t.getByte (pa + j) = bytes j)
          ∧ (∀ b, (b < pa ∨ pa + n ≤ b) → t.getByte b = s.getByte b)
          ∧ (t.dmaChan c.val ch.val).descs = before ++ { r with doneN := r.doneN + n, buf := r.buf.drop n } :: rest))
      ∧ ∀ k off, placeOf pa = .spad k off → ¬Accepts s k off n (0x300 + 5 * c.val) →
        ∃ t f, exec i s = .next t ∧ t.mem = s.mem ∧ Faulted s t c.val ch.val f ∧ (f.cause = 3 ∨ f.cause = 4)
          ∧ f.faddr = a ∧ f.wr = true ∧ f.daddr = r.desc.addr ∧ f.descid = r.desc.id ∧ f.p = r.doneN % r.desc.len0
          ∧ (t.core k).sp.rej = true ∧ (t.core k).sp.rejSrc = 0x300 + 5 * c.val

/-- A descriptor in place performs its DONE action and adds to LEVEL where PACE is set, and its list ends with LAST or with a
STOPNE mismatch (R253, R255, R257); the schedule's further lists enter the freed place (R245). A fault found in mid-stream is
recorded unless FLT is set, and aborts the launch (R260, R262), or where the channel runs a command stops that alone (R263). A POP takes LEVEL down, not below 0 (R257); clearing MISM clears
NMIS and DMA_CHnCMPA. -/
def DmaEnds : Prop :=
  ∀ (c : ClusterId) (ch : Fin 16) (p : Nat) (s : State),
    let x := s.dmaChan c.val ch.val
    let id := 0x300 + 5 * c.val
    let d0 := (s.cluster c.val).dma
    let sent := s.cltFlushStream p (id + ch.val * 4096)
    let waits : Prop := sent.fabPending ⟨p, id, id + ch.val * 4096⟩ = true
    let ended (r : DmaRun) : Prop := r.started = true ∧ r.desc.total ≤ r.doneN ∧ (r.desc.op = 1 ∨ r.desc.total ≤ r.readN)
    (∀ r rest, x.descs = r :: rest → s.partOfCluster c.val = some p → x.stopped = false → x.fault = none →
      (¬ended r → exec (.dmaDescriptorComplete c ch) s = .next s)
      ∧ (ended r → waits → exec (.dmaDescriptorComplete c ch) s = .next sent)
      ∧ (ended r → ¬waits → r.desc.cmd.isSome = true → ∃ t, exec (.dmaDescriptorComplete c ch) s = .next t ∧ t.mem = sent.mem
          ∧ (t.dmaChan c.val ch.val).descs = rest ∧ (t.dmaChan c.val ch.val).lists = x.lists))
    ∧ (∀ r rest, x.descs = r :: rest → s.partOfCluster c.val = some p → x.stopped = false → x.fault = none → ended r → ¬waits →
      r.desc.cmd = none → x.lists ≠ [] →
      let early : Prop := r.desc.stopne = true ∧ r.nmis ≠ 0
      let n := min x.later.length (4 - (x.lists.length - 1))
      ∃ t, exec (.dmaDescriptorComplete c ch) s = .next t ∧ t.mem = sent.mem
        ∧ t.flight = sent.flight ++ (if r.desc.doneen then [doneOf r.desc.dword.toNat id] else [])
        ∧ (let y := t.dmaChan c.val ch.val
           y.level = (if r.desc.pace then min 65535 (x.level + 1) else x.level)
           ∧ ((r.desc.last = true ∨ ¬early) → y.descs = rest)
           ∧ (∀ mid e rest', early → r.desc.last = false → rest = mid ++ e :: rest' → (∀ m ∈ mid, m.desc.last = false) →
                e.desc.last = true → y.descs = rest')
           ∧ (¬(r.desc.last = true ∨ early) → y.lists.length = x.lists.length ∧ y.later = x.later)
           ∧ ((r.desc.last = true ∨ early) → y.lists.length = x.lists.length - 1 + n ∧ y.later = x.later.drop n))
        ∧ ((t.cluster c.val).dma.pover = true ↔ d0.pover = true ∨ (r.desc.pace = true ∧ 65535 ≤ x.level)))
    ∧ (∀ f, s.partOfCluster c.val = some p → Launched s p → x.fault = some f → f.cause ≠ 0 →
        (∀ r, x.descs.head? = some r → r.desc.cmd = none) →
        ∃ t, exec (.midStreamFault c ch) s = .next t ∧ t.mem = s.mem ∧ Aborts s t p { cause := 2, sub := f.cause, hw := decide (f.cause = 7) }
          ∧ (t.cluster c.val).dma.flt = true
          ∧ (d0.flt = false → (t.cluster c.val).dma.frec = f ∧ (t.cluster c.val).dma.frecCh = ch.val)
          ∧ (d0.flt = true → (t.cluster c.val).dma.frec = d0.frec ∧ (t.cluster c.val).dma.frecCh = d0.frecCh))
    ∧ (∀ f r tag, s.partOfCluster c.val = some p → x.fault = some f → x.descs.head? = some r → r.desc.cmd = some tag →
        ∃ t, exec (.midStreamFault c ch) s = .next t ∧ t.mem = s.mem ∧ (t.part p).abort = (s.part p).abort
          ∧ (t.part p).launch = (s.part p).launch ∧ (t.dmaChan c.val ch.val).descs = [] ∧ (t.dmaChan c.val ch.val).fault = none)
    ∧ (x.fault = none → exec (.midStreamFault c ch) s = .next s)
    ∧ (∀ m : Writer,
        (∀ v : BitVec 16, MayWrite s m (clRegAddr c.val (0x30110 + 0x40 * ch.val)) 3 → ∃ t, exec (.dmaChnpop m c ch v) s = .next t ∧ (t.dmaChan c.val ch.val).level = x.level - v.toNat
          ∧ ((t.cluster c.val).dma.punder = true ↔ d0.punder = true ∨ x.level < v.toNat) ∧ (t.dmaChan c.val ch.val).descs = x.descs)
        ∧ (MayWrite s m (clRegAddr c.val (0x30118 + 0x40 * ch.val)) 1 → ∃ t, exec (.dmaMismClear m c ch) s = .next t
          ∧ t.dmaChan c.val ch.val = { x with mism := false, nmis := 0, cmpa := 0 } ∧ (t.cluster c.val).dma.flt = d0.flt))
end Sys2Proof.Stated

/-- COPY, FILL and COMPARE visit their bytes; descriptors end, fault and pace. -/
def Obligations.DmaMovesAndEnds : Prop := DmaMoves ∧ DmaEnds

namespace Sys2Proof.Stated

/-- R267, R272, R277, R280, R283: what makes a descriptor of engine e a reserved encoding. -/
def EngineReserved (s : State) (p e : Nat) (q : List Word) : Prop :=
  let n (i : Nat) : Nat := (q.getD i 0).toNat
  let w := n 0
  let op := w % 16
  ([0, 2, 3, 1, 3] : List Nat).getD e 0 ≤ op ∨ w / 2 ^ 5 % 2 ^ 11 ≠ 0 ∨ (w.testBit 4 = false ∧ n 1 ≠ 0)
    ∨ (w.testBit 4 = true ∧ ¬DoneLegal s p (n 1))
    ∨ (e = 1 ∧ (2 ^ 48 ≤ n 4 ∨ 2 ^ 40 ≤ n 7 ∨ n 7 % 16 ≠ 0 ∨ 2 ^ 52 ≤ w
        ∨ (op = 0 ∧ (2 ^ 48 ≤ n 2 ∨ 2 ^ 48 ≤ n 3 ∨ n 5 / 2 ^ 24 % 2 ^ 8 ≠ 0 ∨ 2 ^ 40 ≤ n 6 ∨ n 5 % 2 ^ 24 = 0 ∨ n 5 % 16 ≠ 0))
        ∨ (op ≠ 0 ∧ (w / 2 ^ 48 % 16 ≠ 0 ∨ 2 ^ 12 ≤ n 2 ∨ 2 ^ 16 ≤ n 3 ∨ 2 ^ 33 ≤ n 5 ∨ n 6 ≠ 0 ∨ n 5 % 16 ≠ 0
            ∨ n 5 / 2 ^ 16 % 2 ^ 17 % 16 ≠ 0 ∨ n 5 / 2 ^ 16 % 2 ^ 17 < 16 ∨ 65536 < n 5 % 2 ^ 16 + n 5 / 2 ^ 16 % 2 ^ 17))))
    ∨ (e = 2 ∧ (w / 2 ^ 32 % 16 ∉ ([0, 1, 2, 3, 4, 8, 10] : List Nat) ∨ 2 ^ 54 ≤ w ∨ 2 ^ 48 ≤ n 2 ∨ 2 ^ 48 ≤ n 3 ∨ 2 ^ 48 ≤ n 4
        ∨ 2 ^ 48 ≤ n 5 ∨ 2 ^ 48 ≤ n 7 ∨ (op = 0 ∧ n 5 / 2 ^ 32 % 2 ^ 16 ≠ 0)
        ∨ (op = 1 ∧ min (n 5 / 2 ^ 16 % 2 ^ 16 + 1) 1024 < n 5 / 2 ^ 32 % 2 ^ 16 + 1)
        ∨ (2 ≤ op ∧ (min (n 5 / 2 ^ 16 % 2 ^ 16 + 1) 8 < n 5 / 2 ^ 32 % 2 ^ 16 + 1 ∨ w.testBit 36 = false ∨ w.testBit 37 = true))
        ∨ (op < 2 ∧ (w / 2 ^ 38 % 2 ^ 16 ≠ 0 ∨ n 7 ≠ 0 ∨ (w.testBit 37 = false ∧ n 4 ≠ 0)))))
    ∨ (e = 3 ∧ (2 < w / 2 ^ 48 % 16 ∨ 2 ^ 53 ≤ w ∨ 2 ^ 48 ≤ n 2 ∨ 2 ^ 48 ≤ n 3 ∨ 2 ^ 48 ≤ n 4 ∨ 2 ^ 36 ≤ n 5 ∨ 2 ^ 40 ≤ n 6 ∨ n 7 ≠ 0))
    ∨ (e = 4 ∧ (2 ^ 33 ≤ w ∨ 2 ^ 48 ≤ n 2 ∨ 2 ^ 48 ≤ n 3 ∨ 2 ^ 40 ≤ n 4 ∨ n 4 = 0 ∨ (w.testBit 32 = false ∧ n 5 ≠ 0)
        ∨ (op = 1 ∧ n 6 ≠ 0) ∨ n 7 ≠ 0))

/-- Bytes of a key or a logit: the format's code at bit `lo` of Q0. -/
def codeBytes (q : List Word) (lo : Nat) : Nat :=
  ((Fmt.ofCode ((q.getD 0 0).toNat / 2 ^ lo % 16)).getD .fp32).width / 8

/-- R272, R277, R280, R283: an operand address off its alignment. -/
def EngineMisaligned (e : Nat) (q : List Word) : Prop :=
  let n (i : Nat) : Nat := (q.getD i 0).toNat
  let op := n 0 % 16
  (e = 1 ∧ (n 4 % 16 ≠ 0 ∨ (op = 0 ∧ n 3 % 4 ≠ 0)))
    ∨ (e = 2 ∧ (n 2 % codeBytes q 32 ≠ 0 ∨ n 3 % 4 ≠ 0 ∨ (op = 2 ∧ (n 4 % 4 ≠ 0 ∨ n 7 % 4 ≠ 0))))
    ∨ (e = 3 ∧ (n 2 % codeBytes q 48 ≠ 0 ∨ n 3 % 32 ≠ 0 ∨ n 4 % 8 ≠ 0)) ∨ (e = 4 ∧ n 3 % 8 ≠ 0)

/-- Input and output ranges of a descriptor: first byte, bytes in a row, rows, row stride. -/
def engineRanges (e : Nat) (q : List Word) : List (Nat × Nat × Nat × Nat) × List (Nat × Nat × Nat × Nat) :=
  let n (i : Nat) : Nat := (q.getD i 0).toNat
  let op := n 0 % 16
  let rows := n 5 % 2 ^ 16 + 1
  let keys := n 5 / 2 ^ 16 % 2 ^ 16 + 1
  let k := n 5 / 2 ^ 32 % 2 ^ 16 + 1
  let outs := if op = 0 then keys else k
  let os := n 6 / 2 ^ 32
  if e = 1 then
    if op = 0 then
      let m := n 0 / 2 ^ 32 % 2 ^ 20 + 1
      ((n 3, 4 * m, 1, 0) :: (if n 5 / 2 ^ 32 = 0 then [] else [(n 2, n 5 % 2 ^ 24, n 5 / 2 ^ 32, n 6)]), [(n 4, n 5 % 2 ^ 24, m, n 7)])
    else ([], [(n 4, n 5 / 2 ^ 16 % 2 ^ 17, n 0 / 2 ^ 32 % 2 ^ 16 + 1, n 7)])
  else if e = 2 then
    ([(n 2, keys * codeBytes q 32, rows, n 6 % 2 ^ 32)],
     (n 3, 4 * outs, rows, os) :: (if op = 2 then [(n 4, 4 * k, rows, os), (n 7, 4 * keys, 1, 0)]
       else if (n 0).testBit 37 then [(n 4, codeBytes q 32 * outs, rows, os)] else []))
  else if e = 3 then ([(n 2, (n 5 / 2 ^ 16 % 2 ^ 20 + 1) * codeBytes q 48, rows, n 6), (n 3, 32 * rows, 1, 0)], [(n 4, 8 * rows, 1, 0)])
  else ([(n 2, n 4, 1, 0)], [(n 3, 8, 1, 0)])

/-- R267: an output range meets an input range, each from its lowest to its highest byte, addresses being modulo 2^48. -/
def EngineOverlap (e : Nat) (q : List Word) : Prop :=
  let holds (r : Nat × Nat × Nat × Nat) (x : Nat) : Prop := ∃ i < r.2.2.1, ∃ j < r.2.1, x = (r.1 + i * r.2.2.2 + j) % 2 ^ 48
  let reaches (a b : Nat × Nat × Nat × Nat) : Prop := ∃ x y, holds a x ∧ holds b y ∧ x ≤ y
  ∃ i ∈ (engineRanges e q).1, ∃ o ∈ (engineRanges e q).2, reaches i o ∧ reaches o i

/-- The bytes at consecutive virtual addresses as an engine reads them; a correction may change the registers that count it, so
with one they are bytes of memory. -/
def Supplied (s : State) (g : Agent) (h : Hit) (va : Nat) (bs : List Byte) : Prop :=
  ∀ i < bs.length, ∃ pa, EngByte s g .read ((va + i) % 2 ^ 48) pa ∧ s.holdsError pa = false
    ∧ (h = none ∨ (placeOf pa).isMemory = true) ∧ s.readByte pa = bs.getD i 0

/-- The same, where they begin in the tun of cluster c or a scratchpad of it (R272, R277). -/
def SuppliedNear (s : State) (g : Agent) (h : Hit) (c va : Nat) (bs : List Byte) : Prop :=
  Supplied s g h va bs ∧ bs ≠ [] ∧ ∃ pa, EngByte s g .read (va % 2 ^ 48) pa ∧
    ((∃ o, placeOf pa = .tun c o) ∨ ∃ k o, placeOf pa = .spad k o ∧ clusterOf k = c)

/-- The same at physical addresses, checked against the partition and not translated (R274). -/
def SuppliedPhys (s : State) (p pa : Nat) (bs : List Byte) : Prop :=
  ∀ i < bs.length, placeFault s p false .read (pa + i) (pa + i) = none ∧ (placeOf (pa + i)).isMemory = true
    ∧ s.holdsError (pa + i) = false ∧ s.getByte (pa + i) = bs.getD i 0

/-- Output runs (virtual address, bytes), run o at physical address at_ o (pages keep the low bits of an address), no two of them
meeting, every scratchpad they lie in open to the engine. -/
def Outputs (s : State) (g : Agent) (outs : List (Nat × List Byte)) (at_ : Nat → Nat) : Prop :=
  (∀ o < outs.length, at_ o % 256 = (outs.getD o (0, [])).1 % 256)
  ∧ (∀ o < outs.length, ∀ i < (outs.getD o (0, [])).2.length,
    EngByte s g .write (((outs.getD o (0, [])).1 + i) % 2 ^ 48) (at_ o + i) ∧ s.holdsError (at_ o + i) = false
      ∧ ∀ k off, placeOf (at_ o + i) = .spad k off → Accepts s k 0 0x100000 g.id)
  ∧ ∀ o < outs.length, ∀ o' < outs.length, o ≠ o' → at_ o + (outs.getD o (0, [])).2.length ≤ at_ o'
      ∨ at_ o' + (outs.getD o' (0, [])).2.length ≤ at_ o

/-- The operation at the head of an engine's queue has run: every byte of its outputs is in place and no other byte has
changed; the descriptor, its address and its core stand, and the engine found the fault given. -/
def EngineRan (s t : State) (c e : Nat) (outs : List (Nat × List Byte)) (at_ : Nat → Nat) (fault : Option EngFault → Prop) : Prop :=
  (∀ o < outs.length, ∀ i < (outs.getD o (0, [])).2.length, t.getByte (at_ o + i) = (outs.getD o (0, [])).2.getD i 0)
  ∧ (∀ b, (∀ o < outs.length, b < at_ o ∨ at_ o + (outs.getD o (0, [])).2.length ≤ b) → t.getByte b = s.getByte b)
  ∧ fault (t.eng c e).fault
  ∧ ∀ y rest, (s.eng c e).queue = y :: rest → ∃ y', (t.eng c e).queue = y' :: rest ∧ y'.addr = y.addr ∧ y'.core = y.core
      ∧ y'.words = y.words ∧ y'.computed = true ∧ y'.outs = []

/-- An engine whose queue's head is a fetched descriptor q that has not run. -/
def EngineAt (s : State) (p c e : Nat) (q : List Word) : Prop :=
  s.partOfCluster c = some p ∧ (s.eng c e).fault = none
    ∧ ∃ y rest, (s.eng c e).queue = y :: rest ∧ y.words = some q ∧ y.computed = false

end Sys2Proof.Stated

/-- An engine fetches and checks the descriptor at its queue's head (R264, R267); a descriptor in place performs its DONE action
and leaves (R265); a fault found is recorded unless FLT is set, and aborts the launch (R268); clearing FPR_STATUS.MISM clears
FPR_CHK. -/
def Obligations.EnginesRun : Prop :=
  ∀ (c : ClusterId) (e : EngKind) (p : Nat) (s : State),
    let n := engineNumber e
    let x := s.eng c.val n
    let id := 0x300 + 5 * c.val + n
    let g : Agent := ⟨p, id, id⟩
    let sent := s.cltFlushStream p id
    (∀ (y : EngEntry) (rest : List EngEntry) (h : Hit), s.partOfCluster c.val = some p → x.fault = none → x.queue = y :: rest →
      (y.words ≠ none → exec (.engineDescriptorFetch c e h) s = .next s)
      ∧ (y.words = none → ∀ f u, fetchDesc g s c.val y.addr h = .fault f u → ∃ t, exec (.engineDescriptorFetch c e h) s = .next t
          ∧ t.mem = u.mem ∧ (t.eng c.val n).queue = x.queue ∧ (t.eng c.val n).flt = true
          ∧ (t.eng c.val n).fault = some { faddr := f.addr, cause := f.cause, core := localIndex y.core, wr := f.wr, daddr := y.addr }
          ∧ (x.flt = false → (t.eng c.val n).fault = some (t.eng c.val n).frec) ∧ (x.flt = true → (t.eng c.val n).frec = x.frec))
      ∧ ∀ q, y.words = none → y.addr < 2 ^ 48 → MildHit h → DescriptorWords s g c.val y.addr q →
      let sub (v : Nat) : EngFault := { faddr := y.addr, cause := 5, core := localIndex y.core, daddr := y.addr,
                                        descid := (q.getD 0 0).toNat / 2 ^ 16 % 2 ^ 16, sub := v }
      ∃ t, exec (.engineDescriptorFetch c e h) s = .next t ∧ t.mem = s.mem
        ∧ (t.eng c.val n).queue = { y with words := some q } :: rest
        ∧ (EngineReserved s p n q → (t.eng c.val n).fault = some (sub 0x10))
        ∧ (¬EngineReserved s p n q → EngineMisaligned n q → (t.eng c.val n).fault = some (sub 0x11))
        ∧ (¬EngineReserved s p n q → ¬EngineMisaligned n q → EngineOverlap n q → (t.eng c.val n).fault = some (sub 0x13))
        ∧ (¬EngineReserved s p n q → ¬EngineMisaligned n q → ¬EngineOverlap n q → (t.eng c.val n).fault = none))
    ∧ (∀ y rest q, s.partOfCluster c.val = some p → x.fault = none → x.queue = y :: rest → y.words = some q →
      (y.computed = false ∨ y.outs ≠ [] → exec (.engineDescriptorComplete c e) s = .next s)
      ∧ (y.computed = true → y.outs = [] → sent.fabPending g = true → exec (.engineDescriptorComplete c e) s = .next sent)
      ∧ (y.computed = true → y.outs = [] → sent.fabPending g = false →
        ∃ t, exec (.engineDescriptorComplete c e) s = .next t ∧ t.mem = sent.mem ∧ (t.eng c.val n).queue = rest
        ∧ t.flight = sent.flight ++ (if (q.getD 0 0).toNat.testBit 4 then [doneOf (q.getD 1 0).toNat id] else [])))
    ∧ (∀ f, s.partOfCluster c.val = some p → Launched s p → x.fault = some f →
      ∃ t, exec (.midStreamEngineFault c e) s = .next t ∧ t.mem = s.mem
        ∧ Aborts s t p { cause := 3, sub := f.cause, hw := decide (f.cause = 7) }
        ∧ (t.eng c.val n).flt = true ∧ (t.eng c.val n).frec = (if x.flt then x.frec else f))
    ∧ (x.fault = none → exec (.midStreamEngineFault c e) s = .next s)
    ∧ ∀ (m : Writer) (v : Word), MayWrite s m (clRegAddr c.val 0x70000) 1 → ∃ t, exec (.fprMismClear m c v) s = .next t ∧ (t.eng c.val 4).mark = false
        ∧ (t.eng c.val 4).nmis = 0 ∧ (t.eng c.val 4).fdesc = 0 ∧ (t.eng c.val 4).queue = (s.eng c.val 4).queue

namespace Sys2Proof.Stated

/-- ROWS places the row of each index, or zeros for −1, and an index outside the table stops it with INDEX and its item (R273).
CASKS places OFF to OFF + LEN of the casks at positions P0 on, found through the slot's index casks, and stops with INDEX where
the slot does not run or holds no such position (R274, R288, R289). -/
def GatherPlaces : Prop :=
  ∀ (c : ClusterId) (p : Nat) (q : List Word) (s : State) (h : Hit) (at_ : Nat → Nat), MildHit h → EngineAt s p c.val 1 q →
    let g : Agent := ⟨p, 0x301 + 5 * c.val, 0x301 + 5 * c.val⟩
    let n (i : Nat) : Nat := (q.getD i 0).toNat
    let dst (r : Nat) : Nat := (n 4 % 2 ^ 48 + r * (n 7 % 2 ^ 40)) % 2 ^ 48
    let none_ (f : Option EngFault) : Prop := f = none
    let index (i : Nat) (f : Option EngFault) : Prop := ∃ x, f = some x ∧ x.cause = 6 ∧ x.item = i
      ∧ x.descid = (q.getD 0 0).toNat / 2 ^ 16 % 2 ^ 16
    (n 0 % 16 = 0 → ∀ (idx : Nat → Nat) (row : Nat → List Byte) (m : Nat), m ≤ n 0 / 2 ^ 32 % 2 ^ 20 + 1 →
      (∀ r ≤ m, r ≤ n 0 / 2 ^ 32 % 2 ^ 20 → idx r < 2 ^ 32
        ∧ SuppliedNear s g h c.val ((n 3 % 2 ^ 48 + 4 * r) % 2 ^ 48) (leBytes 4 (idx r))) →
      (∀ r < m, (idx r = 2 ^ 32 - 1 ∧ row r = List.replicate (n 5 % 2 ^ 24) 0)
        ∨ (idx r < 2 ^ 31 ∧ idx r < n 5 / 2 ^ 32 ∧ (row r).length = n 5 % 2 ^ 24
            ∧ Supplied s g h (n 2 % 2 ^ 48 + idx r * (n 6 % 2 ^ 40)) (row r))) →
      let outs := (List.range m).map (fun r => (dst r, row r))
      Outputs s g outs at_ →
      (m = n 0 / 2 ^ 32 % 2 ^ 20 + 1 → ∃ t, exec (.rows c h) s = .next t ∧ EngineRan s t c.val 1 outs at_ none_)
      ∧ (m ≤ n 0 / 2 ^ 32 % 2 ^ 20 → idx m ≠ 2 ^ 32 - 1 → (2 ^ 31 ≤ idx m ∨ n 5 / 2 ^ 32 ≤ idx m) →
          ∃ t, exec (.rows c h) s = .next t ∧ EngineRan s t c.val 1 outs at_ (index m)))
    ∧ (n 0 % 16 = 1 → ∀ (slot : List Byte) (row : Nat → List Byte) (cask : Nat → Nat) (m : Nat), slot.length = 64 →
      let k := (s.part p).cask
      SuppliedPhys s p (k.seqtab + 64 * (n 2 % 2 ^ 12)) slot →
      let f (at_ len : Nat) : Nat := leNat ((slot.drop at_).take len)
      let idx (i : Nat) : Nat := if i < 4 then f (24 + 4 * i) 4 else 0
      let ncask := f 8 8 / 2 ^ 32 % 2 ^ 17
      let pos (r : Nat) : Nat := n 3 % 2 ^ 16 + r
      m ≤ n 0 / 2 ^ 32 % 2 ^ 16 + 1 →
      (∀ r < m, pos r < ncask ∧ cask r < 2 ^ 32 ∧ (row r).length = n 5 / 2 ^ 16 % 2 ^ 17
        ∧ SuppliedPhys s p (k.base + idx (pos r / 16384) * 0x10000 + 4 * (pos r % 16384)) (leBytes 4 (cask r))
        ∧ SuppliedPhys s p (k.base + cask r * 0x10000 + n 5 % 2 ^ 16) (row r)) →
      let outs := (List.range m).map (fun r => (dst r, row r))
      Outputs s g outs at_ →
      (f 0 8 / 2 ^ 32 % 4 = 1 → m = n 0 / 2 ^ 32 % 2 ^ 16 + 1 → ∃ t, exec (.casks c h) s = .next t
        ∧ EngineRan s t c.val 1 outs at_ none_)
      ∧ (f 0 8 / 2 ^ 32 % 4 = 1 → m ≤ n 0 / 2 ^ 32 % 2 ^ 16 → ncask ≤ pos m → ∃ t, exec (.casks c h) s = .next t
        ∧ EngineRan s t c.val 1 outs at_ (index m))
      ∧ (f 0 8 / 2 ^ 32 % 4 ≠ 1 → m = 0 → ∃ t, exec (.casks c h) s = .next t ∧ EngineRan s t c.val 1 [] at_ (index 0)))

/-- R276: value a comes strictly before value b in a direction; every NaN is above +∞, and −0 and +0 are equal. -/
def KeyBefore (desc : Bool) (a b : Val) : Prop :=
  let less (x y : Val) : Prop := x.isNan = false ∧ (y.isNan = true ∨ x.lt y = true)
  if desc then less b a else less a b

/-- The indices of keys in the order of R276: each once, earlier keys first, equal keys in ascending index. -/
def KeyOrder (desc : Bool) (v : Nat → Val) (n : Nat) (o : List Nat) : Prop :=
  o.Perm (List.range n) ∧ o.Pairwise (fun i j => KeyBefore desc (v i) (v j) ∨ (¬KeyBefore desc (v j) (v i) ∧ i < j))

/-- SORT writes each row's indices in key order, TOPK the first k, and their keys with WVAL; ROUTE writes the first k experts of
each token and their slots: the number of earlier assignments to that expert while it is below the capacity, else −1; then the
counts (R276, R278). -/
def SelectOrders : Prop :=
  ∀ (c : ClusterId) (p : Nat) (q : List Word) (s : State) (at_ : Nat → Nat) (keys : Nat → List Byte) (order : Nat → List Nat) (h : Hit),
    MildHit h → EngineAt s p c.val 2 q →
    let g : Agent := ⟨p, 0x302 + 5 * c.val, 0x302 + 5 * c.val⟩
    let n (i : Nat) : Nat := (q.getD i 0).toNat
    let op := n 0 % 16
    let rows := n 5 % 2 ^ 16 + 1
    let nk := n 5 / 2 ^ 16 % 2 ^ 16 + 1
    let k := if op = 0 then nk else n 5 / 2 ^ 32 % 2 ^ 16 + 1
    let w := codeBytes q 32
    let fmt := (Fmt.ofCode (n 0 / 2 ^ 32 % 16)).getD .fp32
    let code (r i : Nat) : Nat := leNat (((keys r).drop (w * i)).take w)
    n 0 / 2 ^ 32 % 16 ∈ ([0, 1, 2, 3, 4, 8, 10] : List Nat) →
    (∀ r < rows, (keys r).length = w * nk ∧ SuppliedNear s g h c.val ((n 2 % 2 ^ 48 + r * (n 6 % 2 ^ 32)) % 2 ^ 48) (keys r)
      ∧ KeyOrder ((n 0).testBit 36) (fun i => decodeCode fmt 0 (code r i)) nk (order r)) →
    let row (i r : Nat) : Nat := (n i % 2 ^ 48 + r * (n 6 / 2 ^ 32)) % 2 ^ 48
    let top (r : Nat) : List Nat := (order r).take k
    let cap := n 0 / 2 ^ 38 % 2 ^ 16 + 1
    let before (r j e : Nat) : Nat := ((List.range r).map (fun i => (top i).count e)).sum + ((top r).take j).count e
    let slots (r : Nat) : List Byte := (List.range (top r).length).flatMap (fun j =>
      let b := before r j ((top r).getD j 0)
      leBytes 4 (if b < cap then b else 2 ^ 32 - 1))
    let outs : List (Nat × List Byte) := (List.range rows).flatMap (fun r => (row 3 r, (top r).flatMap (leBytes 4)) ::
      (if op = 2 then [(row 4 r, slots r)] else if (n 0).testBit 37 then [(row 4 r, (top r).flatMap (fun i => leBytes w (code r i)))] else []))
      ++ (if op = 2 then [(n 7 % 2 ^ 48, (List.range nk).flatMap (fun e => leBytes 4 (min cap (before rows 0 e))))] else [])
    Outputs s g outs at_ →
    (op = 0 → ∃ t, exec (.sort c h) s = .next t ∧ EngineRan s t c.val 2 outs at_ (fun f => f = none))
    ∧ (op = 1 → k ≤ nk → ∃ t, exec (.topk c h) s = .next t ∧ EngineRan s t c.val 2 outs at_ (fun f => f = none))
    ∧ (op = 2 → k ≤ nk → ∃ t, exec (.route c h) s = .next t ∧ EngineRan s t c.val 2 outs at_ (fun f => f = none))

/-- R281: w of a row, from its temperature and its logits, exact up to the rounded exponential. -/
def drawWeight (temp : Val) (ls : List Val) (i : Nat) : Nat :=
  let x (l : Val) : Val := rounded32 (vdiv l temp).x
  sampleWeight (valMax (ls.map x)) (x (ls.getD i (.inf true)))

/-- R281: what a row's draw gives. -/
def Drawn (seed : Word) (tid pos topk : Nat) (temp topp : Val) (ls : List Val) (tok prob : Nat) (bad : Prop) : Prop :=
  let v := ls.length
  let w := drawWeight temp ls
  let zero (x : Val) : Prop := ∃ b, x = .zero b
  let lowest : Prop := (∀ l ∈ ls, rounded32 (vdiv l temp).x = .inf true)
  let refused : Prop := (∃ l ∈ ls, l.isNan = true) ∨ temp.isNan = true ∨ temp.isInf = true ∨ temp.lt (.zero false) = true
    ∨ topp.isNan = true ∨ (Val.zero false).lt topp = false ∨ v < topk
  let ahead (i j : Nat) : Prop := w j < w i ∨ (w j = w i ∧ i < j)
  let sum (k : Nat → Prop) (n : Nat) (t : Nat) : Prop := ∃ f : Nat → Nat, f 0 = 0 ∧ f n = t
    ∧ ∀ i < n, (k i → f (i + 1) = f i + w i) ∧ (¬k i → f (i + 1) = f i)
  (bad ↔ refused ∨ (¬zero temp ∧ lowest))
  ∧ (bad → tok = 2 ^ 32 - 1 ∧ prob = 0)
  ∧ (¬bad → zero temp → prob = 0x3F800000 ∧ tok < v ∧ (∀ l ∈ ls, (ls.getD tok (.inf true)).lt l = false)
      ∧ ∀ i < tok, ∃ l ∈ ls, (ls.getD i (.inf true)).lt l = true)
  ∧ (¬bad → ¬zero temp → ∃ (k1 keep : Nat → Prop) (total s : Nat),
      (∀ i, k1 i ↔ i < v ∧ 0 < w i ∧ (topk = 0 ∨ ∃ l : List Nat, (∀ j, j ∈ l ↔ j < v ∧ 0 < w j ∧ ahead j i) ∧ l.Nodup ∧ l.length < topk))
      ∧ sum k1 v total
      ∧ (∀ i, keep i ↔ k1 i ∧ (topp.lt (.fin ⟨1, 0⟩) = false
          ∨ ∃ t, sum (fun j => k1 j ∧ ahead j i) v t ∧ (Dy.mk (t : Int) 0).lt (topp.dy.mul ⟨(total : Int), 0⟩) = true))
      ∧ sum keep v s ∧ keep tok
      ∧ (let z := (generator seed tid (pos % 2 ^ 24) 0).toNat
         ∃ t, sum keep tok t ∧ t ≤ z * s / 2 ^ 64 ∧ z * s / 2 ^ 64 < t + w tok)
      ∧ prob = (encodeReal .fp32 0 .rne false (.quot (w tok) s 0)).1)

/-- SAMPLE writes each row's token and probability by the draw of R281, from its row record (R280); an invalid row gives −1 and
+0 and sets BADROW, and is no fault. -/
def SamplerDraws : Prop :=
  ∀ (c : ClusterId) (p : Nat) (q : List Word) (s : State) (at_ : Nat → Nat) (rec logits : Nat → List Byte) (tok prob : Nat → Nat)
    (bad : Nat → Prop) (h : Hit), MildHit h → EngineAt s p c.val 3 q →
    let g : Agent := ⟨p, 0x303 + 5 * c.val, 0x303 + 5 * c.val⟩
    let n (i : Nat) : Nat := (q.getD i 0).toNat
    let rows := n 5 % 2 ^ 16 + 1
    let v := n 5 / 2 ^ 16 % 2 ^ 20 + 1
    let w := codeBytes q 48
    let fmt := (Fmt.ofCode (n 0 / 2 ^ 48 % 16)).getD .fp32
    let f (r at_ len : Nat) : Nat := leNat (((rec r).drop at_).take len)
    let ls (r : Nat) : List Val := (List.range v).map (fun i => decodeCode fmt 0 (leNat (((logits r).drop (w * i)).take w)))
    n 0 % 16 = 0 → n 0 / 2 ^ 48 % 16 ≤ 2 →
    (∀ r < rows, (rec r).length = 32 ∧ Supplied s g h ((n 3 % 2 ^ 48 + 32 * r) % 2 ^ 48) (rec r)
      ∧ (logits r).length = w * v ∧ Supplied s g h ((n 2 % 2 ^ 48 + r * (n 6 % 2 ^ 40)) % 2 ^ 48) (logits r)
      ∧ Drawn (BitVec.ofNat 64 (f r 0 8)) (n 0 / 2 ^ 32 % 2 ^ 16) (f r 19 3) (f r 16 3) (valFp32 (f r 8 4)) (valFp32 (f r 12 4)) (ls r)
          (tok r) (prob r) (bad r)) →
    let outs := (List.range rows).map (fun r => ((n 4 % 2 ^ 48 + 8 * r) % 2 ^ 48,
      leBytes 4 (tok r) ++ leBytes 4 (if (n 0).testBit 52 then prob r else 0)))
    Outputs s g outs at_ →
    ∃ t, exec (.sample c h) s = .next t ∧ EngineRan s t c.val 3 outs at_ (fun x => x = none)
      ∧ ((t.eng c.val 3).mark = true ↔ (s.eng c.val 3).mark = true ∨ ∃ r < rows, bad r)

/-- The operations: cluster, engine, OP and what the arrays report. -/
def engineRow : Instr → Option (ClusterId × Nat × Nat × Hit)
  | .rows c h => some (c, 1, 0, h)
  | .casks c h => some (c, 1, 1, h)
  | .sort c h => some (c, 2, 0, h)
  | .topk c h => some (c, 2, 1, h)
  | .route c h => some (c, 2, 2, h)
  | .sample c h => some (c, 3, 0, h)
  | .crc32c c h => some (c, 4, 0, h)
  | .fp64 c h => some (c, 4, 1, h)
  | .fp64raw c h => some (c, 4, 2, h)
  | _ => none

/-- Whatever its descriptor names, the operation at the head of its engine's queue computes its outputs once and then writes
them, in order, until a connection has no room or a write fails (R265, R268); the engine with another head, or a fault, does
nothing. -/
def EngineSteps : Prop :=
  ∀ (i : Instr) (c : ClusterId) (e op p : Nat) (h : Hit) (s : State) (y : EngEntry) (rest : List EngEntry) (q : List Word),
    engineRow i = some (c, e, op, h) → s.partOfCluster c.val = some p → (s.eng c.val e).queue = y :: rest → y.words = some q →
    ((s.eng c.val e).fault ≠ none ∨ (q.getD 0 0).toNat % 16 ≠ op → exec i s = .next s)
    ∧ ((s.eng c.val e).fault = none → (q.getD 0 0).toNat % 16 = op → ∃ t y', exec i s = .next t
      ∧ (t.eng c.val e).queue = y' :: rest ∧ y'.computed = true ∧ y'.addr = y.addr ∧ y'.core = y.core ∧ y'.words = y.words
      ∧ (y.computed = true → let w := engDrain ⟨p, 0x300 + 5 * c.val + e, 0x300 + 5 * c.val + e⟩ y s h y.outs
          y'.outs = w.1 ∧ y'.fail = y.fail ∧ t.mem = w.2.2.mem
          ∧ (t.eng c.val e).fault = (match w.2.1 with | some f => some f | none => if w.1 = [] then y.fail else none)))

end Sys2Proof.Stated

/-- ROWS, CASKS, SORT, TOPK, ROUTE and SAMPLE place the results that R273 to R281 give. -/
def Obligations.EngineOperations : Prop := EngineSteps ∧ GatherPlaces ∧ SelectOrders ∧ SamplerDraws

namespace Sys2Proof.Stated

/-- The CRC of R284, bit by bit. -/
def crcBits (init : BitVec 32) (bs : List Byte) : BitVec 32 :=
  ~~~((bs.flatMap (fun b => (List.range 8).map b.getLsbD)).foldl (fun (r : BitVec 32) bit =>
    (r >>> 1) ^^^ (if r.getLsbD 0 != bit then 0x82F63B78#32 else 0#32)) (~~~init))

/-- The sum of R285 over the words of the data, from word index i0. -/
def wordSum (i0 : Word) (bs : List Byte) : Word :=
  ((List.range ((bs.length + 7) / 8)).map (fun i =>
    let w := leWord ((bs.drop (8 * i)).take 8)
    let x := (w ^^^ ((i0 + BitVec.ofNat 64 i) * 0x6C3B9A51E2D74F0B)) * 0xB4F12C8E5A973D61
    let x := (x ^^^ (x >>> 31)) * 0x6C3B9A51E2D74F0B
    x ^^^ (x >>> 29))).foldl (· + ·) 0

end Sys2Proof.Stated

/-- CRC32C, FP64 and FP64RAW write the result of their bytes (R283 to R285), and a result that differs from EXPECT under CHK sets
MISM, adds to NMIS and records the first such DESCID; it is no fault (R286). -/
def Obligations.FingerprintsComputed : Prop :=
  ∀ (c : ClusterId) (p : Nat) (q : List Word) (s : State) (at_ : Nat → Nat) (bs : List Byte) (h : Hit), MildHit h → EngineAt s p c.val 4 q →
    let g : Agent := ⟨p, 0x304 + 5 * c.val, 0x304 + 5 * c.val⟩
    let n (i : Nat) : Nat := (q.getD i 0).toNat
    let op := n 0 % 16
    let x := s.eng c.val 4
    bs.length = n 4 % 2 ^ 40 → Supplied s g h (n 2 % 2 ^ 48) bs →
    let result : Word := if op = 0 then (crcBits ((q.getD 6 0).truncate 32) bs).zeroExtend 64
      else if op = 1 then wordSum 0 bs + BitVec.ofNat 64 bs.length * 0xB4F12C8E5A973D61 else wordSum (q.getD 6 0) bs
    let differs : Prop := (n 0).testBit 32 = true ∧ result ≠ q.getD 5 0
    let outs := [(n 3 % 2 ^ 48, leBytes 8 result.toNat)]
    let ran (i : Instr) : Prop := ∃ t, exec i s = .next t ∧ EngineRan s t c.val 4 outs at_ (fun f => f = none)
      ∧ (differs → (t.eng c.val 4).mark = true ∧ (t.eng c.val 4).nmis = min 0xFFFFFFFF (x.nmis + 1)
          ∧ (t.eng c.val 4).fdesc = if x.mark then x.fdesc else n 0 / 2 ^ 16 % 2 ^ 16)
      ∧ (¬differs → (t.eng c.val 4).mark = x.mark ∧ (t.eng c.val 4).nmis = x.nmis ∧ (t.eng c.val 4).fdesc = x.fdesc)
    Outputs s g outs at_ →
    (op = 0 → ran (.crc32c c h)) ∧ (op = 1 → ran (.fp64 c h)) ∧ (op = 2 → ran (.fp64raw c h))

/-! ### Network ports and time -/

namespace Sys2Proof.Stated

/-- An event reported to the host of a partition (R369): where its host port is bound and its event queue pair's ring can take
it, 32 bytes go to the ring's tail. -/
def EventSent (s t : State) (p code d : Nat) (c2 c3 : Word) : Prop :=
  let h := (s.part p).hostPort
  let x := s.host h
  let q := x.qp x.evqp
  let a := q.cqBase * 4096 + 32 * q.cqTail
  (s.part p).bound = true → q.en = true → q.err = false → q.held = [] → q.used < 2 ^ q.cqLogn → Config.hostReachable h a = true →
    x.evqp < 64 → Sent.hostWrite h a (leBytes 8 (code + x.evqp * 2 ^ 32 + 2 ^ 38 + q.phase.toNat * 2 ^ 63)
      ++ leBytes 8 (x.evseq % 2 ^ 32 + d * 2 ^ 32) ++ leBytes 8 c2.toNat ++ leBytes 8 c3.toNat) ∈ t.sent

/-- Lanes of one port of a mode (R313). -/
def lanesOf (mode : Nat) : Nat := ([0, 4, 2, 1] : List Nat).getD mode 0

/-- R314, R319: the sets of lanes on which port i of a group may run when some of the group's lanes have failed, widest and
lowest first; the port advertises the rate of each. -/
def laneSets (mode : Nat) (failed : BitVec 4) (i : Nat) : List (List Nat) :=
  let w := lanesOf mode
  let all := (List.range w).map (fun j => i * w + j)
  let good (ls : List Nat) : Bool := ls.all (fun l => !failed.getLsbD l)
  (if w = 4 then [all, [0, 1], [2, 3]] else [all]).filter good ++ [(all.filter (fun l => !failed.getLsbD l)).take 1]

/-- The number of lanes of the widest of them. -/
def lanesBest (mode : Nat) (failed : BitVec 4) (i : Nat) : Nat := ((laneSets mode failed i).headD []).length

/-- Bytes of a port's receive buffer that frames of a priority hold. -/
def heldBytes (q : Port) (prio : Nat) : Nat := ((q.buffer.filter (fun b => b.prio == prio)).map (·.bytes)).sum

/-- A port that trains comes up on as many lanes as the far end takes of those it advertises, and reports LINK_UP with their
number (R314, R318); a lane fault takes its port down, with its buffers, reports LINK_DOWN where it was up, and starts the lane's
test; a refused narrower rate reports it with NEGOTIATE (R319). -/
def LinksChange : Prop :=
  ∀ (port : Fin 64) (s : State),
    let n := port.val
    let g := n / 4
    let i := n % 4
    let x := s.group g
    let sets := laneSets x.mode x.failed i
    (∀ lanes llr, x.training.getLsbD i = false → exec (.linkUp port ⟨lanes, llr⟩) s = .next s ∧ exec (.negotiate port) s = .next s)
    ∧ (∀ lanes llr, (∀ ls ∈ sets, ls.length ≠ lanes) → exec (.linkUp port ⟨lanes, llr⟩) s = .next s)
    ∧ (∀ lanes llr ls, lanesOf x.mode * i < 4 → sets.find? (fun ls => ls.length == lanes) = some ls → lanes ≠ 0 →
      x.training.getLsbD i = true → ∃ t, exec (.linkUp port ⟨lanes, llr⟩) s = .next t
      ∧ (t.group g).up.getLsbD i = true ∧ (∀ l ∈ ls, (t.group g).lock.getLsbD l = true)
      ∧ mget 0 (t.group g).width i = (if lanes = 4 then 3 else lanes) ∧ (t.group g).training.getLsbD i = false
      ∧ (t.group g).llron.getLsbD i = (llr && x.llr)
      ∧ ∀ p, s.partOfPort g = some p → EventSent s t p 0x03 0 (BitVec.ofNat 64 (n + lanes * 2 ^ 6)) 0)
    ∧ (∀ l : Fin 64, l.val / 4 = g → lanesOf x.mode ≠ 0 → l.val % 4 / lanesOf x.mode = i →
      (x.failed.getLsbD (l.val % 4) = true ∨ (x.up.getLsbD i = true ∧ x.lock.getLsbD (l.val % 4) = false) →
        exec (.laneFault l) s = .next s)
      ∧ (x.failed.getLsbD (l.val % 4) = false → (x.up.getLsbD i = true → x.lock.getLsbD (l.val % 4) = true) →
        ∃ t, exec (.laneFault l) s = .next t ∧ (t.group g).up.getLsbD i = false ∧ (t.group g).training.getLsbD i = false ∧ t.mem = s.mem
        ∧ (x.up.getLsbD i = true → (t.group g).llron.getLsbD i = false ∧ (t.netPort n).buffer = [] ∧ (t.netPort n).replay = []
            ∧ (t.netPort n).waiting = [] ∧ (t.netPort n).retrying = none)
        ∧ ∀ p, s.partOfPort g = some p → (x.up.getLsbD i = true → EventSent s t p 0x02 0 (BitVec.ofNat 64 n) 0)
            ∧ ∃ h ∈ (t.part p).handling, h.det.ukind = 2 ∧ h.det.unit = l.val))
    ∧ (lanesOf x.mode * i < 4 → x.training.getLsbD i = true → 0 < lanesBest x.mode x.failed i →
        lanesBest x.mode x.failed i < lanesOf x.mode → ∃ t, exec (.negotiate port) s = .next t
        ∧ t.group g = { x with training := (t.group g).training } ∧ (t.group g).training.getLsbD i = false
        ∧ ∀ p, s.partOfPort g = some p → EventSent s t p 0x02 0 (BitVec.ofNat 64 (n + 2 ^ 6)) 0)

/-- A frame that arrives at a port that is up is dropped and counted, or goes through the receive buffer to what R315 names: CLT by
the group's UDP port, PTP by its EtherType (the numbers of EtherTypes and MAC control opcodes are the model's, log 136) or UDP port,
MAC control to flow control, all else to management. PFC sends XOFF for a priority whose buffer reaches the threshold (R317). A bad
frame on a link with retry asks for the frame awaited, which ends the retry when it comes (R318). -/
def FramesArrive : Prop :=
  ∀ (port : Fin 64) (f : Frame) (excess : Bool) (s : State),
    let n := port.val
    let g := n / 4
    let x := s.group g
    let q := s.netPort n
    let i : Instr := .frameReceived port f excess
    let prio := if x.prisrc then f.dscp / 8 % 8 else if f.tags = 1 then f.pcp % 8 else 0
    let llr := x.llron.getLsbD (n % 4)
    let limit := x.maxfrm + (if f.tags = 1 then 4 else 0)
    let c (v : Nat) : Nat := min 0xFFFFFFFF (v + 1)
    let awaited : Prop := llr = true ∧ x.pfcLlr.getLsbD prio = true ∧ f.num = q.rxNum
    let isIp : Prop := f.etype = 0x0800 ∨ f.etype = 0x86DD
    let clt : Prop := isIp ∧ f.udp = some x.udpport
    let ptp : Prop := f.etype = 0x88F7 ∨ (isIp ∧ ¬clt ∧ (f.udp = some 319 ∨ f.udp = some 320))
    let pause : Prop := f.etype = 0x8808 ∧ f.opcode = 0x0001
    let pfc : Prop := f.etype = 0x8808 ∧ f.opcode = 0x0101
    let sound : Prop := f.fec = true ∧ f.fcs = true
    let whole : Prop := 64 ≤ f.len ∧ f.len ≤ limit
    let fits : Prop := (q.buffer.map (·.bytes)).sum + f.len ≤ 0x100000
    let run (q' : Port) : Prop := ∃ t, exec i s = .next t ∧ t.netPort n = q' ∧ t.mem = s.mem ∧ t.mgmtQueue = s.mgmtQueue ∧ t.sent = s.sent
    (s.portUp n = false → exec i s = .next s)
    ∧ (s.portUp n = true → ¬sound →
        let q' := if f.fec = true then { q with dropFcs := c q.dropFcs } else { q with dropFec := c q.dropFec }
        let asks : Prop := llr = true ∧ x.pfcLlr ≠ 0
        (¬asks → run q')
        ∧ (asks → ∃ t, exec i s = .next t ∧ t.netPort n = { q' with retrying := some q.rxNum }
            ∧ t.sent = Sent.replayRequest n q.rxNum :: s.sent ∧ t.mem = s.mem ∧ t.mgmtQueue = s.mgmtQueue))
    ∧ ∀ q' : Port, s.portUp n = true → sound →
      (awaited → q' = { q with rxNum := (f.num + 1) % 2 ^ 32, retrying := if q.retrying = some f.num then none else q.retrying }) →
      (¬awaited → q' = q) →
      (¬whole → run { q' with dropLen := c q.dropLen })
      ∧ (whole → 1 < f.tags → run { q' with dropVlan := c q.dropVlan })
      ∧ (whole → f.tags ≤ 1 → pause → run { q' with dropPause := c q.dropPause })
      ∧ (whole → f.tags ≤ 1 → pfc → run q')
      ∧ (whole → f.tags ≤ 1 → ¬pause → ¬pfc → ¬fits → run { q' with dropFull := c q.dropFull })
      ∧ (whole → f.tags ≤ 1 → ¬pause → ¬pfc → fits → ¬clt → ¬ptp → excess = true → run { q' with dropMgmt := c q.dropMgmt })
      ∧ (whole → f.tags ≤ 1 → ¬pause → ¬pfc → fits → (clt ∨ ptp ∨ excess = false) → ∃ t, exec i s = .next t
          ∧ (t.netPort n).buffer = q.buffer ++ [{ prio := prio, bytes := f.len }]
          ∧ (let xoff : Prop := x.pfcEn.getLsbD prio = true ∧ q.xoffSent.getLsbD prio = false ∧ x.xoff * 4096 ≤ heldBytes q prio + f.len
             (xoff → Sent.pfc n prio 0xFFFF ∈ t.sent ∧ (t.netPort n).xoffSent.getLsbD prio = true)
             ∧ (¬xoff → (t.netPort n).xoffSent = q.xoffSent ∧ (¬clt → t.sent = s.sent)))
          ∧ (¬clt → ¬ptp → ∀ bs, f.body = .bytes bs → t.mgmtQueue = s.mgmtQueue ++ [bs])
          ∧ (clt ∨ ptp → t.mgmtQueue = s.mgmtQueue)
          ∧ (¬ptp → t.gt = s.gt)
          ∧ (ptp → ∀ m, f.body = .ptp m → ∃ w, t.gt.rx = s.gt.rx ++ [(n, m, w)]
              ∧ (m.kind = .sync ∨ m.kind = .delayReq → ∃ d ≤ 8, w = s.gt.t + BitVec.ofNat 64 d - 4))
          ∧ (clt → (∀ k, f.body ≠ .clt k) → (t.group g).badhdr = min 0xFFFF (x.badhdr + 1)))

/-- A received PFC frame pauses its priority, or ends the pause, as its expiry does, and the frames that waited are started; XOFF is
repeated while the buffer holds the threshold and ends with XON (R317). Kept frames are sent again from the one asked for, and an
abandoned retry is counted (R318). -/
def FlowControlled : Prop :=
  ∀ (port : Fin 64) (s : State),
    let n := port.val
    let g := n / 4
    let i := n % 4
    let x := s.group g
    let q := s.netPort n
    let started (t : State) (prio : Nat) : Prop :=
      (∀ w ∈ (t.netPort n).waiting, w ∈ q.waiting ∧ w.prio ≠ prio) ∧ ∀ w ∈ q.waiting, w.prio = prio → w.what ∈ t.sent
    (∀ (prio : Fin 8) (quanta : BitVec 16), x.up.getLsbD i = true →
      ∃ t, exec (.pfcFrame port prio quanta) s = .next t
        ∧ (x.pfcEn.getLsbD prio.val = false → t.netPort n = { q with pfcIgnored := min 0xFFFFFFFF (q.pfcIgnored + 1) })
        ∧ (x.pfcEn.getLsbD prio.val = true → (∀ j < 8, (t.netPort n).paused.getLsbD j =
            if j = prio.val then decide (quanta ≠ 0) else q.paused.getLsbD j) ∧ (quanta = 0 → started t prio.val)))
    ∧ (∀ prio : Fin 8, ∃ t, exec (.pauseExpiry port prio) s = .next t
        ∧ (∀ j < 8, (t.netPort n).paused.getLsbD j = (q.paused.getLsbD j && decide (j ≠ prio.val))) ∧ started t prio.val)
    ∧ (∀ prio : Fin 8,
        let above : Prop := x.up.getLsbD i = true ∧ x.pfcEn.getLsbD prio.val = true ∧ q.xoffSent.getLsbD prio.val = true
          ∧ x.xoff * 4096 ≤ heldBytes q prio.val
        (above → ∃ t, exec (.xoffRepeat port prio) s = .next t ∧ t.sent = Sent.pfc n prio.val 0xFFFF :: s.sent ∧ t.groups = s.groups)
        ∧ (¬above → exec (.xoffRepeat port prio) s = .next s))
    ∧ (∀ (prio : Fin 8) (m : Nat), ∃ t, exec (.xon port prio m) s = .next t
        ∧ (t.netPort n).buffer.filter (fun b => b.prio == prio.val) = (q.buffer.filter (fun b => b.prio == prio.val)).drop m
        ∧ (t.netPort n).buffer.filter (fun b => b.prio != prio.val) = q.buffer.filter (fun b => b.prio != prio.val)
        ∧ (let fell : Prop := q.xoffSent.getLsbD prio.val = true
              ∧ (((q.buffer.filter (fun b => b.prio == prio.val)).drop m).map (·.bytes)).sum ≤ x.xon * 4096
           (fell → Sent.pfc n prio.val 0 ∈ t.sent ∧ (t.netPort n).xoffSent.getLsbD prio.val = false) ∧ (¬fell → t.sent = s.sent)))
    ∧ (∀ start,
        (x.llron.getLsbD i = false → exec (.replayRequest port start) s = .next s)
        ∧ (x.llron.getLsbD i = true → ∃ t, exec (.replayRequest port start) s = .next t ∧ (t.netPort n).replay = q.replay
          ∧ ∀ before f rest, q.replay = before ++ f :: rest → (∀ b ∈ before, b.1 ≠ start) → f.1 = start → ∀ y ∈ f :: rest,
              let held : Prop := x.pfcEn.getLsbD y.2.prio = true ∧ q.paused.getLsbD y.2.prio = true
              (¬held → y.2.what ∈ t.sent) ∧ (held → y.2 ∈ (t.netPort n).waiting)))
    ∧ (q.retrying = none → exec (.llrfail port) s = .next s)
    ∧ (q.retrying ≠ none → ∃ t, exec (.llrfail port) s = .next t
        ∧ t.netPort n = { q with retrying := none, llrfail := min 0xFFFFFFFF (q.llrfail + 1) })

end Sys2Proof.Stated

/-- Ports come up and go down; frames are dropped or delivered; flow control and link-level retry (R313 to R319). -/
def Obligations.NetworkPorts : Prop := LinksChange ∧ FramesArrive ∧ FlowControlled

/-- GTIME stays 0 until it is set and then advances by INC each AO cycle (R321). The PTP exchange measures an offset
((t2 − t1) − (t4 − t3)) / 2 from the messages' timestamps; one of more than 10 µs steps GTIME and counts the step, a smaller one
changes INC (R322); CLK_GTIME steps it to the value written. TIME_SKEW comes with an offset of more than 500 ns or 4 s without a
Sync, ends after 1 s within 250 ns, and goes to the host of every partition (R323). A tick adds each running core's time to its
launch's queue pair (R387). -/
def Obligations.TimeKept : Prop :=
  ∀ (s : State),
    let g := s.gt
    let stepped (t : State) (v : Word) : Prop := t.gt.t = v ∧ t.gt.frac = 0 ∧ t.gt.set_ = true ∧ t.gt.steps = min 0xFFFF (g.steps + 1)
      ∧ t.gt.inc = g.inc
    let off (n : Nat) : Prop := n < g.offset.toInt.natAbs
    (s.boot.st ≠ .ready → exec .gtimeTick s = .next s)
    ∧ (s.boot.st = .ready → ∃ t, exec .gtimeTick s = .next t ∧ t.ao = s.ao + 10 ∧ t.mem = s.mem
      ∧ (g.set_ = false → t.gt = g)
      ∧ (g.set_ = true → t.gt.frac = (g.frac + g.inc) % 2 ^ 32 ∧ t.gt.t = g.t + BitVec.ofNat 64 ((g.frac + g.inc) / 2 ^ 32))
      ∧ ∀ p h q l, p < 4 → (s.part p).launch = some l → l.src = .qp h q →
          (mget {} (t.part p).acct q.val).busy = min (2 ^ 64 - 1) ((mget {} (s.part p).acct q.val).busy + 10 * s.runningCores p))
    ∧ (∀ (port : Fin 64) (n : Nat) (inc : BitVec 40) (lock : Bool), 0x09FD70A3D7 ≤ inc.toNat → inc.toNat ≤ 0x0A028F5C29 →
      let i : Instr := .ptpMessage port n inc lock
      let mine := g.rx.filter (fun e => e.1 == port.val)
      (mine.length ≤ n → exec i s = .next s)
      ∧ ∀ m w, mine[n]? = some (port.val, m, w) →
        ∃ t, exec i s = .next t ∧ t.gt.sync = lock ∧ t.gt.rx = g.rx.erase (port.val, m, w)
        ∧ (m.kind = .sync → t.gt.syncSeq = some m.seq ∧ t.gt.t2 = some w ∧ t.gt.t1 = none ∧ t.gt.t3 = none ∧ t.gt.syncAt = s.ao
            ∧ t.gt.t = g.t ∧ t.sent = s.sent)
        ∧ (m.kind = .followUp → g.syncSeq = some m.seq → t.gt.t1 = some m.time ∧ t.gt.reqSeq = (g.reqSeq + 1) % 65536
            ∧ (∃ d ≤ 8, t.gt.t3 = some (g.t + BitVec.ofNat 64 d - 4))
            ∧ t.sent = Sent.ptp port.val { kind := .delayReq, seq := (g.reqSeq + 1) % 65536 } :: s.sent)
        ∧ (m.kind = .followUp → g.syncSeq ≠ some m.seq → t.gt.t1 = g.t1 ∧ t.gt.t3 = g.t3 ∧ t.sent = s.sent)
        ∧ (m.kind = .delayReq → t.gt.t = g.t ∧ t.sent = Sent.ptp port.val { kind := .delayResp, seq := m.seq, time := w } :: s.sent)
        ∧ (m.kind = .delayResp → (m.seq ≠ g.reqSeq ∨ g.t1 = none ∨ g.t2 = none ∨ g.t3 = none) → t.gt.t = g.t ∧ t.gt.inc = g.inc)
        ∧ ∀ t1 t2 t3, m.kind = .delayResp → m.seq = g.reqSeq → g.t1 = some t1 → g.t2 = some t2 → g.t3 = some t3 →
            let o : Word := BitVec.ofInt 64 (((t2 - t1) - (m.time - t3)).toInt / 2)
            t.gt.offset = o ∧ t.gt.t1 = none
            ∧ (10000 < o.toInt.natAbs → stepped t (g.t - o))
            ∧ (o.toInt.natAbs ≤ 10000 → t.gt.inc = inc.toNat ∧ t.gt.t = g.t ∧ t.gt.steps = g.steps)
            ∧ (500 < o.toInt.natAbs → t.gt.skew = true) ∧ (o.toInt.natAbs ≤ 500 → t.gt.skew = g.skew)
            ∧ t.gt.calm = (if 250 < o.toInt.natAbs then none else some (g.calm.getD s.ao)))
    ∧ (∀ v : Word, MaltsterWrites s → ∃ t : State, exec (.clkGtime maltsterWriter v) s = .next t.hostsDrain ∧ stepped t v)
    ∧ (let late : Prop := off 500 ∨ g.syncAt + 4000000000 ≤ s.ao
       (∀ o, o ≠ g.offset ∨ g.skew = true ∨ ¬late → exec (.timeSkew o) s = .next s)
       ∧ (g.skew = false → late → ∃ t, exec (.timeSkew g.offset) s = .next t ∧ t.gt = { g with skew := true, calm := none }
        ∧ ∀ p < 4, (∀ p' < 4, p' ≠ p → (s.part p').bound = true → (s.part p').hostPort ≠ (s.part p).hostPort) →
          EventSent s t p 0x04 0 g.offset 0))
    ∧ (let calm : Prop := ∃ c, g.calm = some c ∧ c + 1000000000 ≤ s.ao
       (∀ o, o ≠ g.offset ∨ g.skew = false ∨ ¬calm → exec (.timeSkewClear o) s = .next s)
       ∧ (g.skew = true → calm → ∃ t, exec (.timeSkewClear g.offset) s = .next t ∧ t.gt = { g with skew := false }
        ∧ ∀ p < 4, (∀ p' < 4, p' ≠ p → (s.part p').bound = true → (s.part p').hostPort ≠ (s.part p).hostPort) →
          EventSent s t p 0x05 0 g.offset 0))

/-! ### Claruend Transport -/

namespace Sys2Proof.Stated

/-- n bits of a quadword from bit lo. -/
def bitsOf (w : Word) (lo n : Nat) : Nat := w.toNat / 2 ^ lo % 2 ^ n

/-- How far PSN a lies above PSN b, modulo 2³²; a lies below b where that is 2³¹ or more (R338). -/
def above (a b : Nat) : Nat := (a + 2 ^ 32 - b) % 2 ^ 32

/-- PSN x has been received on a connection: it is below the cumulative PSN or in the received set (R338). -/
def PsnIn (c : Conn) (x : Nat) : Prop := 2 ^ 31 ≤ above x c.recvCum ∨ x ∈ c.recvSet

/-- A packet passes checks 1 to 3 of R332 on a port that is up: it is for connection ci of partition p, which stands at c. A
HELLO finds its connection by its sender's node. -/
def CltAdmitted (s : State) (port : Nat) (k : CltPkt) (p ci : Nat) (c : Conn) : Prop :=
  let type := bitsOf k.h0 4 4
  s.portUp port = true ∧ s.partOfPort (port / 4) = some p ∧ bitsOf k.h0 0 4 = 1 ∧ bitsOf k.h1 20 20 = (s.group (port / 4)).node
    ∧ (if type = 0xC then s.connTo p (bitsOf k.h1 0 20) = some ci else bitsOf k.h1 40 10 = ci) ∧ s.conn p ci = some c
    ∧ (type = 0xC ∨ type = 0xD ∨ bitsOf k.h3 32 16 = c.inc) ∧ (c.state = .quarantine → type = 0xC ∨ type = 0xD ∨ type = 0xE)

/-- Check 4 of R332 for WRITE, ACCUM, FLAG and MBPOST (R328, R329): a reserved bit or a reserved encoding. -/
def CltReserved (k : CltPkt) : Prop :=
  let type := bitsOf k.h0 4 4
  let ni := k.h0.getLsbD 10
  let len := bitsOf k.h2 48 13
  let cls := bitsOf k.e0 8 2
  bitsOf k.h0 11 5 ≠ 0 ∨ bitsOf k.h1 54 10 ≠ 0 ∨ bitsOf k.h2 61 3 ≠ 0 ∨ bitsOf k.h3 48 16 ≠ 0 ∨ (ni = false ∧ bitsOf k.h3 0 32 ≠ 0)
    ∨ 4096 < len ∨ k.payload.length ≠ len
    ∨ (type = 1 ∧ (ni = true ∨ bitsOf k.e0 48 16 ≠ 0 ∨ k.e1 ≠ 0))
    ∨ (type = 2 ∧ (ni = false ∨ bitsOf k.e0 48 16 ≠ 0 ∨ bitsOf k.e0 0 4 ≠ 0 ∨ len % 16 ≠ 0 ∨ k.e1 ≠ 0))
    ∨ (type = 3 ∧ (len ≠ 0 ∨ 2 < k.e1.toNat ∨ (ni = true ↔ k.e1 = 0) ∨ (k.e1 = 0 ∧ cls ≠ 0 ∧ cls ≠ 2) ∨ (k.e1 ≠ 0 ∧ cls ≠ 1)
        ∨ ([64, 16, 256, 256] : List Nat).getD cls 0 ≤ bitsOf k.e0 0 8 ∨ (if cls = 2 then 48 else 768) ≤ bitsOf k.e0 10 10
        ∨ bitsOf k.e0 20 44 ≠ 0))
    ∨ (type = 4 ∧ (ni = false ∨ len ≠ 0 ∨ bitsOf k.e0 8 24 ≠ 0 ∨ k.e1 ≠ 0))

/-- A packet that passes checks 4 to 9 of R332: it is new, of the partition's epoch and of its launch or of none. -/
def CltFresh (s : State) (p : Nat) (c : Conn) (k : CltPkt) : Prop :=
  let q := s.part p
  let psn := bitsOf k.h2 0 32
  let opid := bitsOf k.h3 0 32
  let now := match q.launch, q.abort with
    | some l, none => if q.st = .running then l.sched else 0
    | _, _ => 0
  ¬CltReserved k ∧ ¬PsnIn c psn ∧ above psn c.recvCum < 1024 ∧ bitsOf k.h0 16 16 = q.epoch
    ∧ (bitsOf k.h0 32 32 = 0 ∨ bitsOf k.h0 32 32 = now) ∧ (k.h0.getLsbD 10 = true → opid ∉ c.opids ∧ c.opidHigh < opid + 4096)

/-- A packet of connection ci is on its way on path n of a port of group g, or waits while its priority is paused there (R317):
UDP port numbers and the mark of its priority are those of R328 and R344. -/
def CltSends (t : State) (ci g n : Nat) (ws : List Word) (payload : List Byte) : Prop :=
  ∃ hdr : CltHdr, (Sent.clt g n hdr ws payload ∈ t.sent
      ∨ ∃ port w, w ∈ (t.netPort port).waiting ∧ w.what = Sent.clt g n hdr ws payload ∧ t.txPaused port w.prio = true)
    ∧ hdr.sport = 0xC000 + 16 * ci + n ∧ hdr.dport = (t.group g).udpport
    ∧ (let prio := if bitsOf (ws.getD 0 0) 4 4 < 8 then (t.group g).dpri else (t.group g).cpri
       ((t.group g).prisrc = true → hdr.dscp = 8 * prio)
       ∧ ((t.group g).prisrc = false → ∀ tag, hdr.tag = some tag → tag / 2 ^ 13 = prio))

/-- A control packet has gone back on a connection that has a path up (R338): its TYPE, PSN and E0. In QUARANTINE none goes
(R330). -/
def CltTold (s t : State) (c : Conn) (ci type psn e0 : Nat) : Prop :=
  s.upPaths c ≠ [] → c.state ≠ .quarantine → ∃ g n ws, CltSends t ci g n ws [] ∧ bitsOf (ws.getD 0 0) 4 4 = type
    ∧ bitsOf (ws.getD 2 0) 0 32 = psn ∧ (ws.getD 4 0).toNat = e0

/-- Exactly one more PSN, at or near the window, has been received, and the cumulative PSN has moved as far as it can. -/
def PsnTaken (t : State) (p ci : Nat) (c : Conn) (psn : Nat) : Prop :=
  ∃ c', t.conn p ci = some c' ∧ c'.recvCum ∉ c'.recvSet
    ∧ ∀ x < 2 ^ 32, above x c.recvCum < 2 ^ 30 → (PsnIn c' x ↔ x = psn ∨ PsnIn c x)

/-- Packets are checked in the order of R332: reserved ones are refused with RESERVED; received ones are counted and not
executed; ones far ahead are dropped; a wrong epoch or schedule is refused and not received; an executed OPID is not executed
again; one older than the window resets the connection. A WRITE that passes puts its bytes in place, whole, and an ACCUM adds
its elements modulo 2¹²⁸, and is held while a map-out moves bytes of the partition (R310); one that fails at its target writes nothing and is refused with ACCESS or WINDOW (R333 to R335). -/
def CltReceives : Prop :=
  ∀ (port : Fin 64) (k : CltPkt) (h : Hit) (p ci : Nat) (c : Conn) (s : State), CltAdmitted s port.val k p ci c →
    let g := port.val / 4
    let type := bitsOf k.h0 4 4
    let psn := bitsOf k.h2 0 32
    let opid := bitsOf k.h3 0 32
    let x := s.group g
    (1 ≤ type ∧ type ≤ 4) → (type ≤ 2 → s.migrating p = false) → c.recvCum < 2 ^ 32 → c.recvCum ∉ c.recvSet → (∀ y ∈ c.recvSet, y < 2 ^ 32 ∧ above y c.recvCum < 1024) →
    let i : Instr := if type = 1 then .write port k h else if type = 2 then .accum port k h
      else if type = 3 then .flag port k else .cltMbpost port k
    let refused (t : State) (reason sub : Nat) : Prop := t.mem = s.mem ∧ PsnTaken t p ci c psn ∧ CltTold s t c ci 9 psn (reason + sub * 2 ^ 8)
    (CltReserved k → ∃ t, exec i s = .next t ∧ (above psn c.recvCum < 1024 → ¬PsnIn c psn → refused t 1 0))
    ∧ (¬CltReserved k → PsnIn c psn → ∃ t, exec i s = .next t ∧ t.mem = s.mem ∧ (t.group g).dup = min 0xFFFFFFFF (x.dup + 1)
        ∧ ∃ c', t.conn p ci = some c' ∧ c'.recvCum = c.recvCum ∧ c'.recvSet = c.recvSet ∧ c'.held = c.held ∧ c'.opids = c.opids)
    ∧ (¬CltReserved k → ¬PsnIn c psn → 1024 ≤ above psn c.recvCum → ∃ t, exec i s = .next t ∧ t = { s with groups := t.groups }
        ∧ (t.group g).badhdr = min 0xFFFF (x.badhdr + 1))
    ∧ (¬CltReserved k → ¬PsnIn c psn → above psn c.recvCum < 1024 → bitsOf k.h0 16 16 ≠ (s.part p).epoch →
        ∃ t, exec i s = .next t ∧ t.mem = s.mem ∧ (t.group g).emsent = min 0xFFFFFFFF (x.emsent + 1) ∧ CltTold s t c ci 9 psn 2
          ∧ ∃ c', t.conn p ci = some c' ∧ c'.recvCum = c.recvCum ∧ c'.recvSet = c.recvSet ∧ c'.mismatches = min (2 ^ 22 - 1) (c.mismatches + 1))
    ∧ (¬CltReserved k → ¬PsnIn c psn → above psn c.recvCum < 1024 → bitsOf k.h0 16 16 = (s.part p).epoch → bitsOf k.h0 32 32 = 0 →
        k.h0.getLsbD 10 = true →
        (opid ∈ c.opids → ∃ t, exec i s = .next t ∧ t.mem = s.mem ∧ (t.group g).dup = min 0xFFFFFFFF (x.dup + 1) ∧ PsnTaken t p ci c psn)
        ∧ (opid ∉ c.opids → opid + 4096 ≤ c.opidHigh → ∃ t : State, exec i s = .next t.hostsDrain ∧ t.mem = s.mem
            ∧ (t.group g).reset = min 0xFFFF (x.reset + 1)
            ∧ EventSent s t p 0x08 0 (BitVec.ofNat 64 (ci % 2 ^ 10 + 2 ^ 10)) (BitVec.ofNat 64 c.unacked.length)
            ∧ ∃ c', t.conn p ci = some c' ∧ c'.state = .hello ∧ c'.unacked = [] ∧ c'.held = [] ∧ c'.recvCum = 0 ∧ c'.recvSet = []
                ∧ c'.opids = c.opids ∧ c'.opidHigh = c.opidHigh))
    ∧ (CltFresh s p c k → type ≤ 2 →
        let n := k.payload.length
        let a := k.e0.toNat
        let m := 0x420 + g
        let eng : Agent := ⟨p, m, 0⟩
        let near : Prop := n ≤ 4096 ∧ a + n ≤ 2 ^ 48
        (∀ pa : Nat → Nat, MildHit h → near → (∀ j < n, EngByte s eng .write (a + j) (pa j) ∧ s.holdsError (pa j) = false
            ∧ ∀ kk off, placeOf (pa j) = .spad kk off → Accepts s kk 0 0x100000 m) →
          (∀ j < n, ∀ j' < n, pa j = pa j' → j = j') →
          ∃ t, exec i s = .next t ∧ PsnTaken t p ci c psn
            ∧ (type = 1 → ∀ j < n, t.getByte (pa j) = k.payload.getD j 0)
            ∧ (type = 2 → ∀ e < n / 16, leNat ((List.range 16).map (fun j => t.getByte (pa (16 * e + j))))
                = (leNat ((List.range 16).map (fun j => s.getByte (pa (16 * e + j)))) + leNat ((k.payload.drop (16 * e)).take 16)) % 2 ^ 128)
            ∧ (∀ b, (∀ j < n, b ≠ pa j) → t.getByte b = s.getByte b))
        ∧ (∀ f, 0 < n → masterXlate s p .write a = .error f → f.cause < 16 → ∃ t, exec i s = .next t ∧ refused t 3 f.cause)
        ∧ (∀ pa kk off, 0 < n → near → s.onPage p a n = n → (∀ j < n, EngByte s eng .write (a + j) (pa + j) ∧ placeOf (pa + j) = .spad kk (off + j)) →
            ¬Accepts s kk off n m → ∃ t r, exec i s = .next t ∧ s.windowCheck kk off n m = some r ∧ refused t 4 r.code
              ∧ (t.core kk).sp.rej = true ∧ (t.core kk).sp.rejSrc = m))

/-- A FLAG and an MBPOST are held until every lower PSN has been received; then the flag takes its operation or the notice is
posted, and one that follows a finally refused WRITE or ACCUM of its stream is refused with PRIOR (R335, R336). -/
def CltHolds : Prop :=
  ∀ (port : Fin 64) (k : CltPkt) (p ci : Nat) (c : Conn) (s : State), CltAdmitted s port.val k p ci c → CltFresh s p c k →
    let g := port.val / 4
    let type := bitsOf k.h0 4 4
    let psn := bitsOf k.h2 0 32
    let opid := bitsOf k.h3 0 32
    let stream := bitsOf k.h2 32 16
    let i : Instr := if type = 3 then .flag port k else .cltMbpost port k
    let prior : Prop := ∃ e ∈ c.prior, e.1 = stream ∧ ∀ n, e.2 = some n → 2 ^ 31 ≤ above n psn
    (type = 3 ∨ type = 4) → c.recvCum < 2 ^ 32 → c.recvSet = [] → c.held = [] →
    (psn ≠ c.recvCum → ∃ t, exec i s = .next t ∧ t.mbx = s.mbx ∧ t.cores = s.cores ∧ t.clusters = s.clusters ∧ t.mem = s.mem
      ∧ ∃ c', t.conn p ci = some c' ∧ c'.recvCum = c.recvCum ∧ c'.recvSet = [psn]
        ∧ c'.held = [{ psn := psn, stream := stream, type := type, e0 := k.e0, e1 := k.e1, opid := opid, group := g,
                        path := bitsOf k.h1 50 4 }])
    ∧ (psn = c.recvCum → prior → ∃ t, exec i s = .next t ∧ t.mbx = s.mbx ∧ t.cores = s.cores ∧ t.clusters = s.clusters
        ∧ CltTold s t c ci 9 psn 7 ∧ PsnTaken t p ci c psn)
    ∧ (psn = c.recvCum → ¬prior → type = 3 →
        let cls := bitsOf k.e0 8 2
        let f := bitsOf k.e0 0 8
        let u := bitsOf k.e0 10 10
        let cl := if cls = 2 then u else clusterOf u
        let here : Prop := s.partOfCluster cl = some p ∧ (s.cluster cl).absent = false
        (¬here → ∃ t, exec i s = .next t ∧ t.cores = s.cores ∧ t.clusters = s.clusters ∧ CltTold s t c ci 9 psn (3 + 2 * 2 ^ 8))
        ∧ (here → cls = 0 → ∃ t, exec i s = .next t ∧ t.flagGet (.bin u f) = true ∧ PsnTaken t p ci c psn)
        ∧ (here → cls = 2 → ∃ t, exec i s = .next t ∧ t.flagGet (.cl u f) = true ∧ PsnTaken t p ci c psn)
        ∧ (here → cls = 1 → k.e1 = 1 → s.counter u f < 65535 → ∃ t, exec i s = .next t ∧ t.counter u f = s.counter u f + 1
            ∧ ∃ c', t.conn p ci = some c' ∧ (c.opidHigh < opid → opid ∈ c'.opids))
        ∧ (here → cls = 1 → k.e1 = 2 → 0 < s.counter u f → ∃ t, exec i s = .next t ∧ t.counter u f = s.counter u f - 1)
        ∧ (here → cls = 1 → k.e1 = 2 → s.counter u f = 0 → ∃ t, exec i s = .next t ∧ t.counter u f = 0 ∧ CltTold s t c ci 9 psn 6
            ∧ (t.core u).flg.lim = true ∧ (t.core u).flg.lsrc = 0x420 + g))
    ∧ (psn = c.recvCum → ¬prior → type = 4 →
        let ch := bitsOf k.e0 0 8
        let b := s.mbx.chan ch
        let bound : Prop := b.v = true ∧ b.snd = 0x420 + g
        (¬bound → ∃ t, exec i s = .next t ∧ t.mbx = s.mbx ∧ CltTold s t c ci 9 psn (5 + 3 * 2 ^ 8))
        ∧ (bound → s.mbTogether b.snd b.rcv = true → s.mbPowered b.rcv = true → b.notices.length < 4 → ∃ t, exec i s = .next t
            ∧ (t.mbx.chan ch).notices = b.notices ++ [(bitsOf k.e0 32 32, b.seq)])
        ∧ (bound → s.mbTogether b.snd b.rcv = true → s.mbPowered b.rcv = true → 4 ≤ b.notices.length → ∃ t, exec i s = .next t
            ∧ t.mbx = s.mbx ∧ CltTold s t c ci 9 psn (5 + 2 ^ 8)))

/-- A WRITE or ACCUM of a partition whose bytes a map-out moves waits, unchecked, behind those that wait (R310). -/
def CltMigrationHolds : Prop :=
  ∀ (port : Fin 64) (k : CltPkt) (h : Hit) (p ci : Nat) (c : Conn) (s : State), CltAdmitted s port.val k p ci c →
    s.migrating p = true → ∀ i, (bitsOf k.h0 4 4 = 1 ∧ i = .write port k h) ∨ (bitsOf k.h0 4 4 = 2 ∧ i = .accum port k h) →
    ∃ t, exec i s = .next t ∧ t = { s with parts := t.parts } ∧ (t.part p).rxHold = (s.part p).rxHold ++ [(port.val / 4, k)]

end Sys2Proof.Stated

/-- CLT packets are checked in the order of R332, placed, refused or held. -/
def Obligations.CltReceivesAndHolds : Prop := CltReceives ∧ CltHolds ∧ CltMigrationHolds

namespace Sys2Proof.Stated

/-- The packet commands with the TYPE of each (R329). -/
def cltType : Instr → Option (Fin 64 × CltPkt × Nat)
  | .write port k _ => some (port, k, 1)
  | .accum port k _ => some (port, k, 2)
  | .flag port k => some (port, k, 3)
  | .cltMbpost port k => some (port, k, 4)
  | .ack port k => some (port, k, 8)
  | .nak port k => some (port, k, 9)
  | .hello port k => some (port, k, 0xC)
  | .helloAck port k => some (port, k, 0xD)
  | .mgmt port k => some (port, k, 0xE)
  | _ => none

/-- What of an operation a send does not change. -/
def opKey (o : CltOp) : Nat × Nat × Nat × Nat × Word × Word × List Byte := (o.type, o.stream, o.psn, o.opid, o.e0, o.e1, o.payload)

/-- The launch in progress, which an operation belongs to, aborts (R342). -/
def OwnAborts (s t : State) (p : Nat) (o : CltOp) (a : Abort) : Prop :=
  ∀ l, (s.part p).launch = some l → l.committed = false → (s.part p).abort = none → o.sched ≠ 0 → o.sched = l.sched → Aborts s t p a

/-- A packet on a port that is down does nothing, and one that fails checks 1 to 3 of R332 is dropped and counted. An ACK ends the
operations it covers (R338); a NAK of an epoch keeps its operation, and a final one ends it and aborts the launch it belongs to
(R333, R337, R342). MGMT goes to the firmware. -/
def CltAnswered : Prop :=
  (∀ (i : Instr) (port : Fin 64) (k : CltPkt) (type : Nat) (s : State), cltType i = some (port, k, type) → bitsOf k.h0 4 4 = type →
    (s.portUp port.val = false → exec i s = .next s)
    ∧ (s.portUp port.val = true → (∀ p ci c, ¬CltAdmitted s port.val k p ci c) → ∃ t, exec i s = .next t ∧ t = { s with groups := t.groups }
      ∧ (t.group (port.val / 4)).badhdr = min 0xFFFF ((s.group (port.val / 4)).badhdr + 1)))
  ∧ ∀ (port : Fin 64) (k : CltPkt) (p ci : Nat) (c : Conn) (s : State), CltAdmitted s port.val k p ci c →
    let type := bitsOf k.h0 4 4
    let psn := bitsOf k.h2 0 32
    let covers (n : Nat) : Bool := decide (2 ^ 31 ≤ above n psn)
      || (decide (1 ≤ above n psn ∧ above n psn ≤ 64) && k.e0.getLsbD (above n psn - 1))
      || (decide (65 ≤ above n psn ∧ above n psn ≤ 128) && k.e1.getLsbD (above n psn - 65))
    (type = 8 → ∃ t : State, ∃ c' : Conn, exec (.ack port k) s = .next t.hostsDrain ∧ t.conn p ci = some c'
      ∧ c'.unacked.map opKey = (c.unacked.filter (fun o => !(decide (0 < o.sends) && covers o.psn))).map opKey)
    ∧ (type = 9 → (∀ o ∈ c.unacked, o.psn = psn → o.sends = 0) → exec (.nak port k) s = .next s)
    ∧ (type = 9 → ∀ o, c.unacked.find? (fun o => o.psn == psn && decide (0 < o.sends)) = some o →
        (bitsOf k.e0 0 8 = 2 → ∃ t c', exec (.nak port k) s = .next t ∧ t.conn p ci = some c' ∧ c'.unacked = c.unacked
          ∧ (t.group (port.val / 4)).emrcvd = min 0xFFFFFFFF ((s.group (port.val / 4)).emrcvd + 1)
          ∧ c'.mismatches = min (2 ^ 22 - 1) (c.mismatches + 1))
        ∧ (bitsOf k.e0 0 8 ≠ 2 → ∃ t : State, ∃ c' : Conn, exec (.nak port k) s = .next t.hostsDrain
          ∧ t.conn p ci = some c' ∧ c'.unacked.map opKey = (c.unacked.filter (fun x => x != o)).map opKey
          ∧ OwnAborts s t p o { cause := 6, sub := bitsOf k.e0 0 8, hw := false }))
    ∧ (type = 0xE → ∃ t, exec (.mgmt port k) s = .next t ∧ t = { s with mgmtQueue := s.mgmtQueue ++ [k.payload] })

/-- A handshake takes the larger proposal and enters UP, or QUARANTINE with an event where the levels do not fit, and a HELLO is
answered (R330). On a connection that is UP it joins a further path with the INC in force, changes nothing on a path that repeats
it, and resets the connection for a new one (R331, R341, R342). -/
def CltHandshakes : Prop :=
  ∀ (port : Fin 64) (k : CltPkt) (p ci : Nat) (c : Conn) (s : State), CltAdmitted s port.val k p ci c →
    let type := bitsOf k.h0 4 4
    (type = 0xC ∨ type = 0xD) →
    let i : Instr := if type = 0xC then .hello port k else .helloAck port k
    let fits : Prop := bitsOf k.e0 16 16 ≤ s.boot.compat ∧ s.boot.mincompat ≤ bitsOf k.e0 0 16
    let n := bitsOf k.h1 50 4
    let v := bitsOf k.e0 48 16
    let x := c.path n
    let ours : Prop := v = c.inc ∨ (v = c.peerProposal ∧ max c.proposal v = c.inc)
    ∃ t c', exec i s = .next t ∧ t.conn p ci = some c'
      ∧ (type = 0xC → ∃ g ws, CltSends t ci g n ws [] ∧ bitsOf (ws.getD 0 0) 4 4 = 0xD)
      ∧ (c.state = .down ∨ c.state = .hello ∨ (c.state = .quarantine ∧ fits) → c'.inc = max c.proposal v
          ∧ c'.peerConn = bitsOf k.e0 32 10 ∧ c'.peerCompat = bitsOf k.e0 0 16 ∧ c'.peerMin = bitsOf k.e0 16 16 ∧ c'.opids = c.opids
          ∧ ((∃ y, (n, y) ∈ c.paths) → (c'.path n).joined = true)
          ∧ (fits → c'.state = .up ∧ c'.recvCum = 0 ∧ c'.recvSet = [] ∧ c'.sendPsn = c.unacked.length
              ∧ c'.unacked.map opKey = c.unacked.zipIdx.map (fun e => opKey { e.1 with psn := e.2 }))
          ∧ (¬fits → c'.state = .quarantine
              ∧ EventSent s t p 0x06 0 (BitVec.ofNat 64 (ci % 2 ^ 10 + 2 ^ 10 * (s.boot.compat % 2 ^ 16) + 2 ^ 26 * bitsOf k.e0 0 16))
                  (BitVec.ofNat 64 (s.boot.mincompat % 2 ^ 16 + 2 ^ 16 * bitsOf k.e0 16 16))))
      ∧ (c.state = .quarantine → ¬fits → c'.state = .quarantine ∧ c'.unacked = c.unacked)
      ∧ (c.state = .up → x.joined = true → (type = 0xD ∨ v = c.peerProposal ∨ v = c.inc) → c' = c)
      ∧ (c.state = .up → x.joined = true → type = 0xC → v ≠ c.peerProposal → v ≠ c.inc →
          (t.group (x.port / 4)).reset = min 0xFFFF ((s.group (x.port / 4)).reset + 1)
          ∧ EventSent s t p 0x08 0 (BitVec.ofNat 64 (ci % 2 ^ 10 + 2 * 2 ^ 10)) (BitVec.ofNat 64 c.unacked.length)
          ∧ c'.state = (if bitsOf k.e0 16 16 ≤ s.boot.compat ∧ s.boot.mincompat ≤ bitsOf k.e0 0 16 then .up else .quarantine))
      ∧ (c.state = .up → x.joined = false → ours → fits → c'.unacked = c.unacked ∧ c'.inc = c.inc
          ∧ ((∃ y, (n, y) ∈ c.paths) → (c'.path n).joined = true))
      ∧ (c.state = .up → x.joined = false → ¬(ours ∧ fits) → c'.state = .up ∧ (c'.path n).joined = false
          ∧ ∃ w, EventSent s t p 0x0A 0 w 0 ∧ bitsOf w 0 10 = ci % 2 ^ 10 ∧ bitsOf w 10 4 = n)

/-- The timers of a connection: a packet being filled is sent, an ACCUM padded to whole elements (R327); arrivals are acknowledged
(R338); a packet is sent again or, at the fifth expiry, the connection is reset and the launch of what it loses aborts (R339, R342);
a HELLO without an answer is sent again (R331). -/
def CltTimers : Prop :=
  ∀ (p : PartId) (ci : Fin 1024) (s : State),
    (s.conn p.val ci.val = none → ∀ (stream : BitVec 16) (psn : BitVec 32) (n : Fin 16), exec (.packetFlushTimeout p ci stream) s = .next s
      ∧ exec (.ackTimer p ci) s = .next s ∧ exec (.retransmitTimeout p ci psn) s = .next s ∧ exec (.helloRetry p ci n) s = .next s)
    ∧ ∀ c : Conn, s.conn p.val ci.val = some c →
    (∀ stream : BitVec 16, (∀ o ∈ c.filling, o.stream ≠ stream.toNat) → exec (.packetFlushTimeout p ci stream) s = .next s)
    ∧ (∀ (stream : BitVec 16) (o : CltOp), c.filling.find? (fun o => o.stream == stream.toNat) = some o →
      ∃ t c', exec (.packetFlushTimeout p ci stream) s = .next t ∧ t.conn p.val ci.val = some c' ∧ c'.filling = c.filling.erase o
        ∧ c'.sendPsn = (c.sendPsn + 1) % 2 ^ 32
        ∧ ∃ o' ∈ c'.unacked, o'.psn = c.sendPsn ∧ o'.stream = o.stream ∧ o'.type = o.type
          ∧ (o.type ≠ 2 → o'.e0 = o.e0 ∧ o'.payload = o.payload)
          ∧ (o.type = 2 → o'.payload.length % 16 = 0 ∧ o'.e0.toNat = o.e0.toNat / 16 * 16
              ∧ (o'.payload.drop (o.e0.toNat % 16)).take o.payload.length = o.payload))
    ∧ (c.unackedRx = 0 ∨ c.state = .quarantine → exec (.ackTimer p ci) s = .next s)
    ∧ (c.unackedRx ≠ 0 → c.state ≠ .quarantine → ∃ t c', exec (.ackTimer p ci) s = .next t ∧ t.conn p.val ci.val = some c' ∧ c'.unackedRx = 0
        ∧ (c.recvCum < 2 ^ 32 → CltTold s t c ci.val 8 c.recvCum ((List.range 64).map (fun j =>
            let x := (c.recvCum + 1 + j) % 2 ^ 32
            if c.recvSet.contains x && !c.held.any (fun h => h.psn == x && h.type == 4) then 2 ^ j else 0)).sum))
    ∧ (∀ psn : BitVec 32, (∀ o ∈ c.unacked, o.psn = psn.toNat → o.sends = 0) → exec (.retransmitTimeout p ci psn) s = .next s)
    ∧ (∀ (psn : BitVec 32) (o : CltOp), c.unacked.find? (fun o => o.psn == psn.toNat && decide (0 < o.sends)) = some o →
        let g := (c.path o.path).port / 4
        (5 ≤ o.sends → ∃ t : State, ∃ c' : Conn, exec (.retransmitTimeout p ci psn) s = .next t.hostsDrain ∧ t.conn p.val ci.val = some c' ∧ c'.unacked = []
          ∧ c'.state = .hello ∧ (t.group g).giveup = min 0xFFFF ((s.group g).giveup + 1) ∧ (t.group g).reset = min 0xFFFF ((s.group g).reset + 1)
          ∧ OwnAborts s t p.val o { cause := 5, sub := 0, hw := false })
        ∧ (o.sends < 5 → (∀ o' ∈ c.unacked, o'.psn = psn.toNat → o' = o) →
          ∃ t c', exec (.retransmitTimeout p ci psn) s = .next t ∧ t.conn p.val ci.val = some c'
          ∧ c'.unacked.map (fun x => (x.psn, x.sends)) = c.unacked.map (fun x => (x.psn, if x.psn = psn.toNat then x.sends + 1 else x.sends))
          ∧ (c.state ≠ .up ∨ s.upPaths c = [] → t.sent = s.sent)
          ∧ ∀ n, c.state = .up → s.nextPath c = some n → ∃ g ws, CltSends t ci.val g n ws o.payload ∧ (ws.getD 0 0).getLsbD 9 = true
              ∧ bitsOf (ws.getD 2 0) 0 32 = psn.toNat))
    ∧ ∀ n : Fin 16,
        let tries : Prop := (c.path n.val).helloSent = true ∧ s.portUp (c.path n.val).port = true
        (¬tries → exec (.helloRetry p ci n) s = .next s)
        ∧ (tries → ∃ t g ws, exec (.helloRetry p ci n) s = .next t ∧ CltSends t ci.val g n.val ws [] ∧ bitsOf (ws.getD 0 0) 4 4 = 0xC)

end Sys2Proof.Stated

/-- Connections answer, shake hands and keep their timers. -/
def Obligations.CltConnections : Prop := CltAnswered ∧ CltHandshakes ∧ CltTimers

/-! ### Host ports, rings and packets -/

namespace Sys2Proof.Stated

/-- A host port whose function is there to be reached (R346, R440). -/
def PortLive (s : State) (h : HostPort) : Prop :=
  s.boot.st = .ready ∧ (s.host h.val).link = .up ∧ (h.val = 1 → s.boot.pair01 = false) ∧ (h.val = 3 → s.boot.pair23 = false)

/-- A reply (R350, R354) goes where its command came from: on the management path into a message; on a queue pair whose ring can
take it to the 32 bytes at its completion tail; a full ring or one in error holds it. -/
def Replied (s t : State) (src : CmdSrc) (op tag status c1 : Nat) (c2 c3 : Word) : Prop :=
  let bytes (q phase : Nat) : List Byte :=
    leBytes 8 (status + op % 2 ^ 8 * 2 ^ 8 + tag % 2 ^ 16 * 2 ^ 16 + q * 2 ^ 32 + phase * 2 ^ 63) ++ leBytes 8 c1 ++ leBytes 8 c2.toNat ++ leBytes 8 c3.toNat
  match src with
  | .mgmt => Sent.mctp (0x02 :: bytes 0 0) ∈ t.sent
  | .qp h q =>
    let x := (s.host h.val).qp q.val
    let a := x.cqBase * 4096 + 32 * x.cqTail
    (x.en = true → x.err = false → x.held = [] → x.used < 2 ^ x.cqLogn → Config.hostReachable h.val a = true →
      Sent.hostWrite h.val a (bytes q.val x.phase.toNat) ∈ t.sent)
    ∧ (x.err = true ∨ 2 ^ x.cqLogn ≤ x.used → ∃ ws ∈ ((t.host h.val).qp q.val).held,
        ws.length = 4 ∧ (ws.getD 0 0).toNat % 2 ^ 32 = status + op % 2 ^ 8 * 2 ^ 8 + tag % 2 ^ 16 * 2 ^ 16)

/-- No command but c is outstanding with its tag, and those of its queue pair fetched before it let it start (R352, R356, R357). -/
def Startable (s : State) (c : Cmd) (src : CmdSrc) (tag op : Nat) : Prop :=
  c.src = src ∧ c.tag = tag ∧ c.op = op ∧ c.started = false ∧ c.decided = false ∧ ∃ pre post, s.cmds = pre ++ c :: post
    ∧ (∀ b ∈ pre ++ post, b.src = src → b.tag ≠ tag) ∧ ∀ b ∈ pre, b.src = src → b.started = true ∧ c.wait = false

/-- The final reply of a command (R354 to R356). -/
def Finished (s t : State) (c : Cmd) (status c1 : Nat) (c2 c3 : Word) : Prop :=
  Replied s t c.src c.op c.tag status c1 c2 c3 ∧ ∀ b ∈ t.cmds, b.src = c.src → b.tag = c.tag → b.decided = true

/-- Bits that the parameters P1 to P7 of an opcode may hold (R359, R360). -/
def paramMask (op what : Nat) : List Nat :=
  let a := 2 ^ 64 - 1
  match op with
  | 0x01 => [if what = 2 then 0xFFFF00FF else 0xFF]
  | 0x11 => [0xFFFF]
  | 0x20 => [a, 2 ^ 40 - 1, 2 ^ 32 - 1, 1]
  | 0x21 => [2 ^ 32 - 1]
  | 0x30 => [2 ^ 49 - 1, a, 2 ^ 48 - 1, 0xFFFF0001]
  | 0x31 => [0xFFFF]
  | 0x40 => [a, a, 2 ^ 40 - 1, 3]
  | 0x41 => [a, a, 2 ^ 40 - 1, 1]
  | 0x42 => [a, a, 2 ^ 40 - 1, 3]
  | 0x50 => [a, a]
  | 0x51 => [2 ^ 32 - 1]
  | 0x52 => [2 ^ 61 - 1, a, 2 ^ 48 - 1, 0xFFFF0001, 2 ^ 48 - 1]
  | 0x60 => [2 ^ 48 - 1]
  | 0x61 => [7]
  | 0x70 => [0xFF, a, 0xFFFF, 1]
  | 0x71 => [2 ^ 35 - 2 ^ 16 + 7]
  | 0x72 => [2 ^ 48 + 2 ^ 35 - 2 ^ 16 + 7]
  | 0x73 => [2 ^ 32 - 1, a, 0xFFFF, 1]
  | _ => []

/-- The words of a packet hold nothing outside the parameters of its opcode. -/
def ParamsIn (ws : List Word) : Prop :=
  ∀ i < 8, 1 ≤ i → (ws.getD i 0).toNat &&& (2 ^ 64 - 1 - (paramMask ((ws.getD 0 0).toNat % 2 ^ 8) ((ws.getD 1 0).toNat % 2 ^ 8)).getD (i - 1) 0) = 0

end Sys2Proof.Stated

/-- A doorbell stores the tail, and one beyond the ring puts the pair into its error state (R350, R351). A write of HOST_QPqSQ
refuses reserved sizes, sets a pair's indices to zero and its phase to 1 where EN is written 1 (R349), and keeps a pair with an outstanding command
enabled. A fetched packet takes the head on and passes the checks of R353 in their order, those of CASK_JOIN among them (R292); a failed fetch is an error.
CQH frees entries and releases held replies (R350). A command without a final reply gets one interim reply (R358). -/
def Obligations.HostRings : Prop :=
  ∀ (h : HostPort) (q : Fin 64) (s : State),
    let x := (s.host h.val).qp q.val
    let failed (t : State) : Prop := ((t.host h.val).qp q.val) = { x with err := true } ∧ Sent.msix h.val 65 ∈ t.sent ∧ t.cmds = s.cmds
    (∀ idx, PortLive s h → (x.en = true ∧ 2 ^ x.sqLogn ≤ idx.toNat → ∃ t, exec (.sqDoorbell h q idx) s = .next t ∧ failed t)
      ∧ (x.en = false ∨ idx.toNat < 2 ^ x.sqLogn → ∃ t, exec (.sqDoorbell h q idx) s = .next t
          ∧ (t.host h.val).qp q.val = { x with sqt := idx.toNat } ∧ t.cmds = s.cmds ∧ t.sent = s.sent))
    ∧ (∀ v : Word, PortLive s h →
      let n := v.toNat % 16
      let en := v.getLsbD 4
      let base := v.toNat / 2 ^ 12
      let outstanding : Prop := ∃ c ∈ s.cmds, c.src = .qp h q ∧ (x.err = false ∨ c.decided = false)
      (n < 4 ∨ 12 < n ∨ (x.en = true ∧ (n ≠ x.sqLogn ∨ base ≠ x.sqBase)) ∨ (x.en = true ∧ en = false ∧ outstanding) →
        ∃ t, exec (.qpEnable h q v) s = .next t ∧ (t.host h.val).qp q.val = x
          ∧ (t.host h.val).cfg = { err := true, off := 0x1000 + 0x40 * q.val })
      ∧ (4 ≤ n → n ≤ 12 → 4 ≤ x.cqLogn → x.cqLogn ≤ 12 → x.en = false → ∃ t, exec (.qpEnable h q v) s = .next t
          ∧ let y := (t.host h.val).qp q.val
            y.sqLogn = n ∧ y.sqBase = base ∧ y.en = en
              ∧ (en = true → x.held = [] → (∀ c ∈ s.cmds, c.op ≠ 0) →
                  y.sqHead = 0 ∧ y.cqTail = 0 ∧ y.sqt = 0 ∧ y.cqh = 0 ∧ y.phase = true ∧ y.err = false))
      ∧ (n = x.sqLogn → base = x.sqBase → 4 ≤ n → n ≤ 12 → 4 ≤ x.cqLogn → x.cqLogn ≤ 12 → x.en = true → en = true → x.held = [] →
          (∀ c ∈ s.cmds, c.op ≠ 0) → ∃ t, exec (.qpEnable h q v) s = .next t
            ∧ (t.host h.val).qp q.val = { x with sqHead := 0, cqTail := 0, sqt := 0, cqh := 0, used := 0, phase := true })
      ∧ (n = x.sqLogn → base = x.sqBase → 4 ≤ n → n ≤ 12 → x.en = true → en = false → ¬outstanding →
          ∃ t, exec (.qpEnable h q v) s = .next t ∧ ((t.host h.val).qp q.val).en = false))
    ∧ (∀ idx, PortLive s h → x.en = true → (2 ^ x.cqLogn ≤ idx.toNat → ∃ t, exec (.cqHeadWrite h q idx) s = .next t ∧ failed t)
      ∧ (idx.toNat < 2 ^ x.cqLogn → (∀ c ∈ s.cmds, c.op ≠ 0) →
          let d := (idx.toNat + 2 ^ x.cqLogn - x.cqh) % 2 ^ x.cqLogn
          let freed := if d = 0 ∧ x.used = 2 ^ x.cqLogn then 2 ^ x.cqLogn else d
          (x.held = [] → ∃ t, exec (.cqHeadWrite h q idx) s = .next t
            ∧ (t.host h.val).qp q.val = { x with cqh := idx.toNat, used := x.used - freed })
          ∧ ∀ w0 w1 w2 w3 rest, x.held = [w0, w1, w2, w3] :: rest → x.err = false → x.used - freed < 2 ^ x.cqLogn →
              let a := x.cqBase * 4096 + 32 * x.cqTail
              Config.hostReachable h.val a = true → ∃ t, exec (.cqHeadWrite h q idx) s = .next t
                ∧ Sent.hostWrite h.val a ((leBytes 8 (w0 ||| BitVec.ofNat 64 (x.phase.toNat * 2 ^ 63)).toNat) ++ leBytes 8 w1.toNat
                    ++ leBytes 8 w2.toNat ++ leBytes 8 w3.toNat) ∈ t.sent))
    ∧ (x.en = true → x.err = false → x.sqHead ≠ x.sqt → s.boot.st = .ready →
      (∃ t, exec (.commandFetch h q none) s = .next t ∧ failed t)
      ∧ ∀ ws : List Word, ws.length = 8 →
        let w0 := (ws.getD 0 0).toNat
        let op := w0 % 2 ^ 8
        let tag := w0 / 2 ^ 16 % 2 ^ 16
        let mine := s.cmds.filter (fun c => match c.src with | .qp h' _ => h' == h | .mgmt => false)
        let copy : Prop := ∃ c ∈ mine, c.tag = tag
        let inTable : Prop := op ∈ ([0, 1, 0x10, 0x11, 0x20, 0x21, 0x30, 0x31, 0x40, 0x41, 0x42, 0x50, 0x51, 0x52, 0x60, 0x61,
          0x70, 0x71, 0x72, 0x73] : List Nat)
        let header : Prop := w0 / 2 ^ 9 % 2 ^ 7 = 0 ∧ w0 / 2 ^ 32 = 0
        let refused (status : Nat) : Prop := ∃ t, exec (.commandFetch h q (some ws)) s = .next t ∧ Replied s t (.qp h q) op tag status 0 0 0
          ∧ t.cmds = s.cmds ∧ ((t.host h.val).qp q.val).sqHead = (x.sqHead + 1) % 2 ^ x.sqLogn
        let queued : Prop := ∃ t c, exec (.commandFetch h q (some ws)) s = .next t ∧ t.cmds = s.cmds ++ [c] ∧ c.src = .qp h q
          ∧ c.part = s.partOfHost h.val ∧ c.words = ws ∧ c.started = false ∧ c.decided = false ∧ t.sent = s.sent
          ∧ ((t.host h.val).qp q.val).sqHead = (x.sqHead + 1) % 2 ^ x.sqLogn
        (copy → ∃ t, exec (.commandFetch h q (some ws)) s = .next t ∧ t.cmds = s.cmds ∧ t.sent = s.sent
          ∧ (t.host h.val).qp q.val = { x with sqHead := (x.sqHead + 1) % 2 ^ x.sqLogn, dup := min 0xFFFF (x.dup + 1) })
        ∧ ((∀ c ∈ s.cmds, c.decided = false) → ¬copy → (1024 ≤ mine.length → refused 0x14)
          ∧ (mine.length < 1024 → (¬inTable → refused 0x10)
            ∧ (inTable → ¬header → refused 0x11)
            ∧ (inTable → op ≠ 0x10 → ¬ParamsIn ws → refused 0x11)
            ∧ (op ∈ ([0x60, 0x61] : List Nat) → header → ParamsIn ws → refused 0x15)
            ∧ (op ∈ ([0x11, 0x21, 0x31, 0x51] : List Nat) → header → ParamsIn ws → s.partOfHost h.val = none → refused 0x15)
            ∧ (∀ p, op ∈ ([0x11, 0x21, 0x30, 0x31, 0x51] : List Nat) → header → ParamsIn ws → (ws.getD 3 0).toNat % 16 = 0 →
                s.partOfHost h.val = some p → (∀ c ∈ s.cmds, c.op ≠ 0) → ∃ t c, exec (.commandFetch h q (some ws)) s = .next t
                  ∧ t.cmds = s.cmds ++ [c] ∧ c.src = .qp h q ∧ c.tag = tag ∧ c.part = some p ∧ c.words = ws ∧ c.started = false
                  ∧ c.decided = false ∧ t.sent = s.sent ∧ ((t.host h.val).qp q.val).sqHead = (x.sqHead + 1) % 2 ^ x.sqLogn)
            ∧ (op ≠ 0 → op ≠ 0x50 → inTable → headerReserved true (ws.getD 0 0) = false → paramsReserved ws = false →
                s.forbidden (.qp h q) ws = false → (∀ c ∈ s.cmds, c.op ≠ 0) → queued)
            ∧ ∀ p, op = 0x50 → header → ParamsIn ws → (ws.getD 1 0).toNat % 2 ^ 32 ≠ 0 → s.partOfHost h.val = some p →
                let handle := (ws.getD 1 0).toNat % 2 ^ 32
                let joins := s.cmds.filter (fun c => c.op == 0x50 && c.part == some p)
                let taken : Prop := (∃ m ∈ (s.part p).cask.seqs, m.handle = handle) ∨ (∃ c ∈ joins, (c.p 1).toNat % 2 ^ 32 = handle)
                  ∨ 256 ≤ joins.length
                let casks := (s.part p).cask.dataCasks ((ws.getD 1 0).toNat / 2 ^ 32 + 1)
                (taken → refused 0x14) ∧ (¬taken → 65536 < casks → refused 0x30)
                ∧ (¬taken → casks ≤ 65536 → (∀ c ∈ s.cmds, c.op ≠ 0) → queued))))
    ∧ ∀ (src : CmdSrc) (tag : Nat) (c : Cmd), s.cmdOf src tag = some c →
        (c.inProgress = false → ∃ t, exec (.inProgress src tag) s = .next t ∧ Replied s t src c.op tag 1 0 0 0
          ∧ ∃ c', t.cmdOf src tag = some c' ∧ c'.inProgress = true)
        ∧ (c.inProgress = true → exec (.inProgress src tag) s = .next s)

namespace Sys2Proof.Stated

/-- Bytes of local memory, of a partition, that an access without a ring reaches at a virtual address (R347), none of them where
an error is held. -/
def LocalBytes (s : State) (p : Nat) (kind : AccKind) (va : Nat) (pas : List Nat) : Prop :=
  ∃ ts, masterXlateN s p kind va pas.length = .ok ts ∧ physAddrs ts = pas ∧ ∀ a ∈ pas, (placeOf a).isMemory = true ∧ s.holdsError a = false

/-- The requests of a host port that wait (R310, R370). -/
def Waits (s t : State) (h : Nat) (xs : List HostHold) : Prop := t = { s with hosts := t.hosts } ∧ t.host h = { s.host h with hold := xs }

end Sys2Proof.Stated

/-- A host reads and writes the partition through BAR2 at WINB · 2⁴⁰ + o (R347): a read that fails is aborted, a write that fails
changes nothing and is recorded, an unbound port answers Unsupported Request and drops writes. A write through a remote page waits
for room on its connection (R338), an access for the end of a map-out (R310), and a post for the port's writes (R370), each behind
what waits already. HOST_MBPOLLch removes the oldest
notice and HOST_MBPOSTch posts one, with its outcome in HOST_MBRES (R370). An FLR leaves every pair disabled and keeps the
partition and its memory (R371). Links train and come up; before READY a port answers Request Retry Status (R345, R440). -/
def Obligations.HostWindows : Prop :=
  ∀ (h : HostPort) (s : State),
    let x := s.host h.val
    (PortLive s h → x.hold ≠ [] → ∀ (o : BitVec 40),
      (∀ (n : Fin 4096) e, ∃ t, exec (.bar2Read h o n e) s = .next t ∧ Waits s t h.val (x.hold ++ [.read o.toNat (n.val + 1)]))
      ∧ (∀ bs e, bs ≠ [] → bs.length ≤ 4096 → ∃ t, exec (.bar2Write h o bs e) s = .next t ∧ Waits s t h.val (x.hold ++ [.write o.toNat bs]))
      ∧ ∀ (ch : BitVec 8) (n : BitVec 32), ∃ t, exec (.hostMbpost h ch n) s = .next t
          ∧ Waits s t h.val (x.hold ++ [.post ch.toNat n.toNat]))
    ∧ (PortLive s h → x.hold = [] → ∀ (o : BitVec 40),
      let va := x.winb * 2 ^ 40 + o.toNat
      (s.partOfHost h.val = none → (∀ n e, exec (.bar2Read h o n e) s = .next (s.send (.hostRead h.val .unsupportedRequest)))
        ∧ ∀ bs e, bs ≠ [] → bs.length ≤ 4096 → exec (.bar2Write h o bs e) s = .next s)
      ∧ (∀ p, s.partOfHost h.val = some p → s.migrating p = true →
        (∀ (n : Fin 4096) e, ∃ t, exec (.bar2Read h o n e) s = .next t ∧ Waits s t h.val [.read o.toNat (n.val + 1)])
        ∧ ∀ bs e, bs ≠ [] → bs.length ≤ 4096 → ∃ t, exec (.bar2Write h o bs e) s = .next t ∧ Waits s t h.val [.write o.toNat bs])
      ∧ ∀ p, s.partOfHost h.val = some p → s.migrating p = false →
        (∀ (n : Fin 4096) pas, pas.length = n.val + 1 → LocalBytes s p .read va pas →
          exec (.bar2Read h o n none) s = .next (s.send (.hostRead h.val (.data (pas.map s.getByte))))
          ∧ (∀ e, MildHit e → ∃ t, exec (.bar2Read h o n e) s = .next t ∧ t.mem = s.mem
              ∧ t.sent.head? = some (.hostRead h.val (.data (pas.map s.getByte))))
          ∧ ∀ m ≤ n.val, ∃ t, exec (.bar2Read h o n (some (m, .uncorrectable))) s = .next t
              ∧ t.sent.head? = some (.hostRead h.val .completerAbort))
        ∧ (∀ (n : Fin 4096) e f, masterXlateN s p .read va (n.val + 1) = .error f →
          exec (.bar2Read h o n e) s = .next (s.send (.hostRead h.val .completerAbort)))
        ∧ (∀ bs pas, bs ≠ [] → bs.length ≤ 4096 → pas.length = bs.length → pas.Nodup → LocalBytes s p .write va pas →
          (s.windowsRefuse pas (hostId h.val) = none → ∃ t, exec (.bar2Write h o bs none) s = .next t
            ∧ (∀ i < bs.length, t.getByte (pas.getD i 0) = bs.getD i 0) ∧ (∀ a, a ∉ pas → t.getByte a = s.getByte a)
            ∧ t.hosts = s.hosts ∧ t.sent = s.sent)
          ∧ (s.windowsRefuse pas (hostId h.val) ≠ none → ∀ e, ∃ t, exec (.bar2Write h o bs e) s = .next t ∧ t.mem = s.mem
            ∧ t.host h.val = { x with werr := true, woff := o.toNat, wreason := 3 }))
        ∧ (∀ bs e f, bs ≠ [] → bs.length ≤ 4096 → masterXlateN s p .write va bs.length = .error f →
          ∃ t, exec (.bar2Write h o bs e) s = .next t ∧ t.mem = s.mem ∧ t.sent = s.sent
            ∧ t.host h.val = { x with werr := true, woff := o.toNat, wreason := if f.code = 5 then 1 else 2 })
        ∧ ∀ bs e rk ci pva pg rest, bs ≠ [] → bs.length ≤ 4096 → masterXlateN s p .write va bs.length = .ok (.remote rk ci pva pg :: rest) →
          (∀ x ∈ rest, ∃ rk' ci' pva', x = .remote rk' ci' pva' pg) →
          (mboxFault rk pva pg bs.length va ≠ none → ∃ t, exec (.bar2Write h o bs e) s = .next t ∧ t.mem = s.mem
            ∧ t.host h.val = { x with werr := true, woff := o.toNat, wreason := 2 })
          ∧ (mboxFault rk pva pg bs.length va = none →
            (rk = 2 → s.cltRoom p ci = true → exec (.bar2Write h o bs e) s =
              .next (s.cltPost p ci (hostId h.val) ((pva - pg) / 4) (leNat bs) none))
            ∧ (rk = 2 → s.cltRoom p ci = false → ∃ t, exec (.bar2Write h o bs e) s = .next t ∧ Waits s t h.val [.write o.toNat bs])
            ∧ (rk ≠ 2 → s.cltAccepts p ci rk (hostId h.val) pva pg = false → ∃ t, exec (.bar2Write h o bs e) s = .next t
                ∧ Waits s t h.val [.clt o.toNat ci rk pva pg bs])
            ∧ (rk ≠ 2 → ∀ b, bs = [b] → s.cltAccepts p ci rk (hostId h.val) pva pg = true → exec (.bar2Write h o bs e) s =
                .next ((s.cltWriteByte p ci rk (hostId h.val) pva pg 0 b).cltFull p ci (hostId h.val)))))
    ∧ (PortLive s h → ∀ ch : BitVec 8,
      let c := s.mbx.chan ch.toNat
      let bound : Prop := c.v = true ∧ c.rcv = hostId h.val
      (¬bound → ∃ t, exec (.hostMbpoll h ch) s = .next t ∧ t.mbx = s.mbx ∧ (t.host h.val).mberr = true
        ∧ mget false (t.host h.val).mbf ch.toNat = false ∧ t.sent = Sent.hostRead h.val (.data (leBytes 8 0)) :: s.sent)
      ∧ (bound → c.notices = [] → ∃ t, exec (.hostMbpoll h ch) s = .next t ∧ mget false (t.host h.val).mbf ch.toNat = false
        ∧ t.sent = Sent.hostRead h.val (.data (leBytes 8 0)) :: s.sent ∧ (t.mbx.chan ch.toNat).notices = [])
      ∧ (∀ n sq rest, bound → c.notices = (n, sq) :: rest → n < 2 ^ 32 → c.snd < 2 ^ 12 → sq < 2 ^ 16 →
        ∃ t, exec (.hostMbpoll h ch) s = .next t ∧ (t.mbx.chan ch.toNat).notices = rest ∧ mget false (t.host h.val).mbf ch.toNat = true
          ∧ t.sent = Sent.hostRead h.val (.data (leBytes 8 (n + c.snd * 2 ^ 32 + sq * 2 ^ 44))) :: s.sent)
      ∧ ∀ notice : BitVec 32,
        let ready : Prop := x.hold = [] ∧ ∀ p, s.partOfHost h.val = some p →
          (s.cltFlushStream p (hostId h.val)).cltPending p (hostId h.val) 1 none = false
        let run (status : Nat) (notices : List (Nat × Nat)) : Prop := ready → ∃ t, exec (.hostMbpost h ch notice) s = .next t
          ∧ (t.host h.val).mbch = ch.toNat ∧ (t.host h.val).mbstatus = status ∧ (t.host h.val).mbv = true
          ∧ (t.mbx.chan ch.toNat).notices = notices
        (∀ p, x.hold = [] → s.partOfHost h.val = some p → (s.cltFlushStream p (hostId h.val)).cltPending p (hostId h.val) 1 none = true →
          ∃ t, exec (.hostMbpost h ch notice) s = .next t ∧ (t.host h.val).hold = [.post ch.toNat notice.toNat] ∧ t.mbx = s.mbx)
        ∧ (c.v = false ∨ c.snd ≠ hostId h.val → run 0x15 c.notices)
        ∧ (∀ p k : Nat, c.v = true → c.snd = hostId h.val → s.partOfHost h.val = some p → c.rcv = k → k < 768 → (masterOf k) = some (.core k) →
            (s.partOfCore k ≠ some p → run 0x15 c.notices)
            ∧ (s.partOfCore k = some p → ((s.cluster (clusterOf k)).absent = true → run 0x20 c.notices)
              ∧ ((s.cluster (clusterOf k)).absent = false → (4 ≤ c.notices.length → run 0x14 c.notices)
                ∧ (c.notices.length < 4 → run 0 (c.notices ++ [(notice.toNat, c.seq)]))))))
    ∧ (PortLive s h → ∃ t, exec (.flr h) s = .next t ∧ (∀ q < 64, ((t.host h.val).qp q).en = false) ∧ (t.host h.val).link = x.link
        ∧ t.boot = s.boot ∧ (s.partOfHost h.val = none → t.mem = s.mem ∧ t.parts = s.parts))
    ∧ (∃ t, exec (.perst h false) s = .next t ∧ (t.host h.val).link = .down ∧ (t.host h.val).perst = true ∧ ∀ q < 64,
        s.boot.st = .ready → ((t.host h.val).qp q).en = false)
    ∧ (x.link = .up → x.perst = false → ¬(h.val = 1 ∧ s.boot.pair01 = true) → ¬(h.val = 3 ∧ s.boot.pair23 = true) →
        (∃ t, exec (.perst h true) s = .next t ∧ (t.host h.val).link = .training ∧ ∀ q < 64, ((t.host h.val).qp q).en = false)
        ∧ (∃ t, exec (.hostPortLinkDown h) s = .next t ∧ (t.host h.val).link = .training ∧ t.cmds = s.cmds)
        ∧ ∀ off : BitVec 12, (s.boot.st ≠ .ready → exec (.configurationRequest h off) s = .next (s.send (.retryStatus h.val)))
          ∧ (s.boot.st = .ready → off.toNat / 4 = 0 → exec (.configurationRequest h off) s =
              .next (s.send (.hostRead h.val (.data (leBytes 4 (s.boot.pciIds % 2 ^ 16 + 0x0768 * 2 ^ 16))))))
          ∧ (s.boot.st = .ready → off.toNat / 4 = 2 → ∃ t b, exec (.configurationRequest h off) s = .next t
              ∧ t.sent = Sent.hostRead h.val (.data [b, 0x00, 0x00, 0x12]) :: s.sent)
          ∧ (s.boot.st = .ready → off.toNat / 4 = 4 → ∃ t b c, exec (.configurationRequest h off) s = .next t
              ∧ t.sent = Sent.hostRead h.val (.data [0x04, 0x00, b, c]) :: s.sent ∧ b.toNat % 16 = 0)
          ∧ (s.boot.st = .ready → off.toNat / 4 = 6 → exec (.configurationRequest h off) s =
              .next (s.send (.hostRead h.val (.data [0x0C, 0x00, 0x00, 0x00]))))
          ∧ (s.boot.st = .ready → ∃ t bs, exec (.configurationRequest h off) s = .next t ∧ bs.length = 4
              ∧ t.sent = Sent.hostRead h.val (.data bs) :: s.sent))
    ∧ (x.link = .training → ∃ t, exec (.hostPortLinkUp h) s = .next t ∧ (t.host h.val).link = .up)
    ∧ (s.boot.pwrgood = true → s.boot.st ≠ .cold → ¬(h.val = 1 ∧ s.boot.pair01 = true) → ¬(h.val = 3 ∧ s.boot.pair23 = true) →
        ∃ t, exec (.perstNRise h) s = .next t ∧ (t.host h.val).link = .training ∧ (t.host h.val).perst = false)

/-! ### Commands that report -/

namespace Sys2Proof.Stated

/-- Where a command's output stands in memory: the bytes of its partition at a virtual address, or, of a command that acts on
no partition, bytes at a physical address. -/
def OutBytes (s : State) (c : Cmd) (pas : List Nat) : Prop :=
  match c.part with
  | some p => LocalBytes s p .write (c.p 2).toNat pas
  | none => pas = (List.range pas.length).map (fun i => (c.p 2).toNat + i) ∧ ∀ a ∈ pas, (placeOf a).isMemory = true ∧ s.holdsError a = false

/-- A command reports bytes at P2, in host memory where P4 bit 0 is set (R359): written whole, with its final reply; or nothing
is written and the command fails, with cause WINDOW where a scratchpad's windows refuse it (R132). -/
def Delivers (i : Instr) (s : State) (c : Cmd) (bs : List Byte) (c2 c3 : Word) (kept good : State → Prop) : Prop :=
  let a := (c.p 2).toNat
  let fails (cause sub : Nat) : Prop := ∃ t, exec i s = .next t ∧ t.mem = s.mem ∧ Finished s t c 0x20 (cause + sub * 2 ^ 8) 0 0 ∧ kept t
  (bs = [] → ∃ t, exec i s = .next t ∧ t.mem = s.mem ∧ Finished s t c 0 0 c2 c3 ∧ good t)
  ∧ (bs ≠ [] → (c.p 4).getLsbD 0 = true →
      (c.part = none → fails 0 0)
      ∧ ∀ p, c.part = some p → (s.part p).valid = true →
        (hostAnswers (s.part p).hostPort a bs.length = true → ∃ t, exec i s = .next t ∧ t.mem = s.mem
          ∧ Sent.hostWrite (s.part p).hostPort a bs ∈ t.sent ∧ Finished s t c 0 0 c2 c3 ∧ good t)
        ∧ (hostAnswers (s.part p).hostPort a bs.length = false → fails 0 0))
  ∧ (bs ≠ [] → (c.p 4).getLsbD 0 = false →
      (∀ p f, c.part = some p → masterXlateN s p .write a bs.length = .error f → fails 0 0)
      ∧ ∀ pas, pas.length = bs.length → pas.Nodup → OutBytes s c pas →
        (s.windowsRefuse pas (srcMaster c.src) = none → ∃ t, exec i s = .next t ∧ Finished s t c 0 0 c2 c3 ∧ good t
          ∧ (∀ j < bs.length, t.getByte (pas.getD j 0) = bs.getD j 0) ∧ ∀ x, x ∉ pas → t.getByte x = s.getByte x)
        ∧ ∀ k off n r, s.windowsRefuse pas (srcMaster c.src) = some (k, off, n, r) → fails 0x0E r.code)

/-- A TELEMETRY of one record set (R359, R388, R425): as many whole records as P3 leaves room for are reported, and C2 counts
their bytes. `all` tells whether a command that acts on no partition sees the set. -/
def TelemetryCopies (i : Instr) (src : CmdSrc) (tag set_ : Nat) (all : Bool) (recs : Option Nat → State → List (List Byte)) : Prop :=
  ∀ (s : State) (c : Cmd) (m : Nat), Startable s c src tag 0x70 → (c.p 1).toNat % 2 ^ 8 = set_ → c.part ≠ none ∨ all = true →
    let rs := recs c.part s
    let room := (c.p 3).toNat % 2 ^ 16
    let bs := (rs.take m).flatten
    m ≤ rs.length → bs.length ≤ room → (m < rs.length → room < (rs.take (m + 1)).flatten.length) →
    Delivers i s c bs (BitVec.ofNat 64 bs.length) 0 (fun t => ∀ p, (t.part p).acct = (s.part p).acct)
      (fun t => ∀ p q, q < 64 → mget {} (t.part p).acct q =
        if set_ = 0x21 ∧ c.part = some p ∧ 16 + 128 * (q + 1) ≤ bs.length then {} else mget {} (s.part p).acct q)

/-- The 16-byte header of a set. -/
def telemetryHeader (n : Nat) (s : State) : List Byte := leBytes 8 n ++ leBytes 8 s.ao

/-- The record of a queue pair (R388). -/
def pairRecord (a : Acct) (q : Nat) : List Byte :=
  ([q % 64 + a.launches % 2 ^ 32 * 2 ^ 32, a.waitSum, a.waitMax, a.preempts % 2 ^ 32, a.displaced, a.busy, 0, 0]
    ++ (List.range 8).map (fun i => mget 0 a.hist (2 * i) % 2 ^ 32 + mget 0 a.hist (2 * i + 1) % 2 ^ 32 * 2 ^ 32)).flatMap (leBytes 8)

/-- TELEMETRY copies temperatures, power, clocks and the counters of queue pairs, the clusters of other partitions
reading zero to a command that acts on a partition; record set 0x21 clears the counters it copies (R388, R425). -/
def TelemetryReports : Prop :=
  ∀ (src : CmdSrc) (tag : Nat),
    TelemetryCopies (.telemetryTemperatures src tag) src tag 0x01 true (fun p s => telemetryHeader 1 s
      :: (List.range 48).map (fun c => leBytes 8 (if p = none ∨ s.partOfCluster c = p then
          ((List.range 4).map (fun d => mget 0 s.clk.temps (4 * c + d) % 2 ^ 16 * 2 ^ (16 * d))).sum else 0))
      ++ (List.range 12).map (fun n => leBytes 2 (mget 0 s.clk.hbmTemps n)))
    ∧ TelemetryCopies (.telemetryPower src tag) src tag 0x02 true (fun _ s => telemetryHeader 2 s
        :: leBytes 8 (s.clk.p % 2 ^ 16 + s.clk.peak % 2 ^ 16 * 2 ^ 16)
        :: (List.range 9).map (fun n =>
            let r := mget (0, 0, 0) s.clk.rails n
            leBytes 8 (r.1 % 2 ^ 16 + r.2.1 % 2 ^ 16 * 2 ^ 16 + r.2.2 % 2 ^ 16 * 2 ^ 32)))
    ∧ TelemetryCopies (.telemetryClocks src tag) src tag 0x03 true (fun p s => telemetryHeader 3 s
        :: (List.range 48).map (fun c =>
            let d := s.clk.div c
            leBytes 8 (if p = none ∨ s.partOfCluster c = p then d.cfg % 4 + d.cap % 4 * 2 ^ 8 + d.therm % 4 * 2 ^ 16 + d.eff % 4 * 2 ^ 24
              + d.droop % 2 ^ 32 * 2 ^ 32 else 0)))
    ∧ TelemetryCopies (.telemetryAccounting src tag) src tag 0x20 false (fun p s => telemetryHeader (p.getD 0 % 4) s
        :: (List.range 64).map (fun q => pairRecord (mget {} (s.part (p.getD 0)).acct q) q))
    ∧ TelemetryCopies (.telemetryAccountingClear src tag) src tag 0x21 false (fun p s => telemetryHeader (p.getD 0 % 4) s
        :: (List.range 64).map (fun q => pairRecord (mget {} (s.part (p.getD 0)).acct q) q))

/-- Two sources whose tags share a space (R352, R356). -/
def SameSpace (a b : CmdSrc) : Prop :=
  match a, b with
  | .qp h _, .qp h' _ => h = h'
  | .mgmt, .mgmt => True
  | _, _ => False

/-- QUERY answers the device's identity, its partition's state, a tag's state and the map-outs (R359); ERRLOG_READ copies the
records it may see from an index on, and tells where to go on (R359, R400). -/
def QueriesAnswer : Prop :=
  ∀ (src : CmdSrc) (tag : Nat) (s : State) (c : Cmd),
    (Startable s c src tag 0x01 →
      let what := (c.p 1).toNat % 2 ^ 8
      (what = 0 → ∃ t, exec (.queryIdentity src tag) s = .next t ∧ Finished s t c 0 0 0x413836372D535844
        (BitVec.ofNat 64 (0xA0 + s.boot.compat % 2 ^ 8 * 2 ^ 8 + (s.group 0).node % 2 ^ 20 * 2 ^ 16)))
      ∧ (∀ p, what = 1 → c.part = some p → ∃ t, exec (.queryPartition src tag) s = .next t ∧
          let q := s.part p
          let owned := (List.range 768).filter (fun n => q.hasStack (n / 64))
          let live := owned.filter (fun n => !(s.hbm (n / 64)).mapout.getLsbD (n % 64))
          Finished s t c 0 0 (BitVec.ofNat 64 (q.epoch % 2 ^ 16 + live.length * 2 ^ 16 + owned.length * 2 ^ 26
              + q.scheds.length % 2 ^ 8 * 2 ^ 36 + (q.clusters.filter (fun x => q.absent.getLsbD x)).length * 2 ^ 44))
            (match q.launch with
             | some l => BitVec.ofNat 64 (l.sched % 2 ^ 32)
             | none => 0))
      ∧ (what = 2 →
          let target := (c.p 1).toNat / 2 ^ 16 % 2 ^ 16
          let answers (v : Nat) : Prop := ∃ t, exec (.queryTag src tag) s = .next t ∧ Finished s t c 0 0 (BitVec.ofNat 64 v) 0
          ((∀ b ∈ s.cmds, SameSpace src b.src → b.tag ≠ target) → answers 0)
          ∧ ∀ b ∈ s.cmds, SameSpace src b.src → b.tag = target → (∀ b' ∈ s.cmds, SameSpace src b'.src → b'.tag = target → b' = b) →
              (b.decided = true → answers (2 + b.op * 2 ^ 8))
              ∧ (b.decided = false → b.op ≠ 0x30 → b.op ≠ 0x52 → answers ((if b.started then 2 else 1) + b.op * 2 ^ 8))
              ∧ ∀ p, b.decided = false → b.part = some p → b.op = 0x30 ∨ b.op = 0x52 →
                  let mine (l : Launch) : Prop := l.src = b.src ∧ l.tag = target
                  ((∀ l, (s.part p).launch = some l → ¬mine l) →
                    ((∃ x ∈ (s.part p).suspended, mine x.launch) → answers (2 + b.op * 2 ^ 8))
                    ∧ ((∀ x ∈ (s.part p).suspended, ¬mine x.launch) → answers (1 + b.op * 2 ^ 8)))
                  ∧ ∀ l, (s.part p).launch = some l →
                      (l.src = b.src → l.tag = target → (s.part p).abort = none → answers (2 + b.op * 2 ^ 8))
                      ∧ ∀ a, l.src = b.src → l.tag = target → (s.part p).abort = some a →
                          answers ((if a.hw then 2 else 3) + b.op * 2 ^ 8))
      ∧ (∀ p, what = 3 → c.part = some p → ∃ t c2 c3, exec (.queryMapouts src tag) s = .next t ∧ Finished s t c 0 0 c2 c3
          ∧ (∀ i < 64, c2.getLsbD i = (decide (i < 48) && (s.part p).absent.getLsbD i))
          ∧ (∀ n < 12, c3.getLsbD n = decide ((s.hbm n).mapout ≠ 0)) ∧ (∀ g < 16, c3.getLsbD (12 + g) = decide ((s.group g).failed ≠ 0))
          ∧ ∀ i < 64, 28 ≤ i → c3.getLsbD i = false))
    ∧ (Startable s c src tag 0x73 →
        let first := (c.p 1).toNat % 2 ^ 32
        let sees (e : Nat × List Word) : Bool := match src with
          | .mgmt => true
          | .qp h _ => match s.partOfHost h.val with
            | some p => (e.2.getD 0 0).getLsbD (60 + p)
            | none => false
        let seen := s.log.records.filter (fun e => decide (max first (s.log.next - 4096) ≤ e.1) && sees e)
        let out := seen.take ((c.p 3).toNat % 2 ^ 16)
        let next := if out.length = seen.length then s.log.next else
          match out.getLast? with | some e => e.1 + 1 | none => max first (s.log.next - 4096)
        Delivers (.errlogRead src tag) s c (out.flatMap (fun e => e.2.flatMap (fun w => leBytes 8 w.toNat)))
          (BitVec.ofNat 64 out.length) (BitVec.ofNat 64 (next % 2 ^ 32)) (fun t => t.log = s.log) (fun t => t.log = s.log))

end Sys2Proof.Stated

/-- TELEMETRY, QUERY and ERRLOG_READ report what R359, R388 and R425 list. -/
def Obligations.ReportsAndQueries : Prop := TelemetryReports ∧ QueriesAnswer

/-! ### Staged configuration -/

namespace Sys2Proof.Stated

/-- The nominal rates committed in a partition. -/
def ratesOf (q : Part) : Nat := ((List.range 64).map (fun i => mget 0 q.resv i)).sum

/-- R307: new rates of queue pairs, index and value, that raise the sum of their partition past what its stacks or the device
allow. -/
def Overcommit (s : State) (p : Nat) (new : List (Nat × Nat)) : Prop :=
  let q := s.part p
  let q' : Part := { q with resv := new.foldl (fun m e => mput m e.1 e.2) q.resv }
  let others := ((List.range 4).map (fun n => if n = p ∨ (s.part n).valid = false then 0 else ratesOf (s.part n))).sum
  (∃ e ∈ new, mget 0 q.resv e.1 < e.2) ∧ ratesOf q < ratesOf q'
    ∧ (17910 < others + ratesOf q' ∨ 2985 * q.stackIds.length / 2 < ratesOf q')

/-- The item that a CONFIG_STAGE carries (R367). -/
def stagedBy (c : Cmd) : Staged :=
  { item := (c.p 1).toNat % 2 ^ 16, index := (c.p 1).toNat / 2 ^ 16 % 2 ^ 16, value := c.words.drop 2 }

/-- A staging copy with an item in place of an earlier value. -/
def staging (xs : List Staged) (x : Staged) : List Staged := xs.filter (fun y => decide (¬(y.item = x.item ∧ y.index = x.index))) ++ [x]

/-- CONFIG_STAGE stages an item of a partition in that partition's copy and one of the device, with PV = 0 on the management path,
in the device's own; it refuses a rate past the limits of R307, connections, paths and port groups outside the partition, and an
item outside its sender's scope (R307, R352, R367, R372, R426). -/
def SettingsStaged : Prop :=
  ∀ (src : CmdSrc) (tag : Nat) (s : State) (c : Cmd), Startable s c src tag 0x10 →
    let x := stagedBy c
    let w (i : Nat) : Nat := (c.p (i + 2)).toNat
    let part (i : Instr) (n : Nat) (refused : Nat → Option Nat) : Prop := x.item = n →
      (c.part = none → ∃ t, exec i s = .next t ∧ Finished s t c 0x15 0 0 0 ∧ t.parts = s.parts)
      ∧ ∀ p, c.part = some p → ∃ t, exec i s = .next t ∧ t.staged = s.staged ∧
          match refused p with
          | some status => Finished s t c status 0 0 0 ∧ t.parts = s.parts
          | none => Finished s t c 0 0 0 0 ∧ t.part p = { s.part p with staged := staging (s.part p).staged x }
    let device (i : Instr) (n : Nat) : Prop := x.item = n →
      (c.part ≠ none → ∃ t, exec i s = .next t ∧ Finished s t c 0x15 0 0 0 ∧ t.staged = s.staged ∧ t.parts = s.parts)
      ∧ (c.part = none → ∃ t, exec i s = .next t ∧ Finished s t c 0 0 0 0 ∧ t.staged = staging s.staged x ∧ t.parts = s.parts
          ∧ t.clk = s.clk)
    (x.item = 1 → ∀ p, c.part = some p → p < 4 → (s.part p).valid = true →
      (Overcommit s p [(x.index, w 0 % 2 ^ 15)] → ∃ t, exec (.qpset src tag) s = .next t ∧ Finished s t c 0x13 0 0 0 ∧ t.parts = s.parts)
      ∧ (¬Overcommit s p [(x.index, w 0 % 2 ^ 15)] → ∃ t, exec (.qpset src tag) s = .next t ∧ Finished s t c 0 0 0 0
          ∧ t.part p = { s.part p with staged := staging (s.part p).staged x }))
    ∧ part (.caskpool src tag) 2 (fun _ => none)
    ∧ part (.conn src tag) 3 (fun p => if (List.range 16).any (s.part p).hasPort then none else some 0x15)
    ∧ part (.path src tag) 4 (fun p => if (s.part p).hasPort (w 0 % 2 ^ 6 / 4) = true then none else some 0x15)
    ∧ part (.pgcfg src tag) 5 (fun p => if (s.part p).hasPort x.index = true then none else some 0x15)
    ∧ device (.nodeid src tag) 0x0006 ∧ device (.pcap src tag) 0x0100 ∧ device (.cldiv src tag) 0x0101 ∧ device (.alertt src tag) 0x0102

/-- CONFIG_COMMIT with the epoch in force, rates past R307, two connections to one node (the model's choice of status, log 138), a
pool outside the partition or one that changes under held casks is refused and keeps the copy; any other waits, and CONFIG_APPLY puts
the whole copy and the new epoch in force at a launch boundary, a copy with connections, paths or port groups once no CLT operation
is unacknowledged, and answers with the epoch; when that does not come within a second the commit is refused. The device's copy
sets node IDs, the cap, dividers and the warning threshold (R367, R368, R426). -/
def CommitsApply : Prop :=
  ∀ (src : CmdSrc) (tag : Nat) (s : State) (c : Cmd),
    (Startable s c src tag 0x11 →
      (∀ p, c.part = some p → (s.part p).commits = [] →
        let q := s.part p
        let te := (c.p 1).toNat % 2 ^ 16
        let rates := (q.staged.filter (fun x => x.item == 1)).map (fun x => (x.index, (x.value.getD 0 0).toNat % 2 ^ 15))
        let refused (status : Nat) : Prop := ∃ t, exec (.configCommit src tag) s = .next t ∧ Finished s t c status 0 0 0 ∧ t.parts = s.parts
        let waits : Prop := ∃ t, exec (.configCommit src tag) s = .next t ∧ t.part p = { q with commits := [(src, tag, te)] }
          ∧ { c with started := true } ∈ t.cmds
        (te = q.epoch → refused 0x12)
        ∧ (te ≠ q.epoch → q.valid = true → p < 4 → (Overcommit s p rates → refused 0x13)
          ∧ (¬Overcommit s p rates → (q.connTwice = true → refused 0x15)
            ∧ (q.connTwice = false → ((∀ x ∈ q.staged, x.item ≠ 2) → waits)
              ∧ ∀ pre x post, q.staged = pre ++ x :: post → x.item = 2 → (∀ y ∈ pre, y.item ≠ 2) →
                let w (i : Nat) : Nat := (x.value.getD i 0).toNat
                let held : Prop := (∃ m ∈ q.cask.seqs, ¬(m.index = [] ∧ m.casks = [])) ∨ q.cask.joins ≠ []
                (q.poolOk (w 0) (w 1) (w 2) = false → refused 0x15)
                ∧ (q.poolOk (w 0) (w 1) (w 2) = true → q.poolChanges x = true → held → refused 0x14)
                ∧ (q.poolOk (w 0) (w 1) (w 2) = true → (q.poolChanges x = true → ¬held) → waits)))))
      ∧ (∀ p, c.part = some p → (s.part p).commits ≠ [] → ∃ t, exec (.configCommit src tag) s = .next t
          ∧ t.part p = { s.part p with commits := (s.part p).commits ++ [(src, tag, (c.p 1).toNat % 2 ^ 16)] } ∧ { c with started := true } ∈ t.cmds)
      ∧ (c.part = none → ∃ t, exec (.configCommit src tag) s = .next t ∧ t.devCommits = s.devCommits ++ [(src, tag)] ∧ t.staged = s.staged))
    ∧ (∀ (p : PartId) (te : Nat) (rest : List (CmdSrc × Nat × Nat)),
        let q := s.part p.val
        let late : Prop := ∃ x ∈ q.staged, x.item = 3 ∨ x.item = 4 ∨ x.item = 5
        let quiet : Prop := ∀ e ∈ q.conns, e.2.unacked = [] ∧ e.2.filling = []
        q.commits = (src, tag, te) :: rest → s.cmdOf src tag = some c →
        (∀ b ∈ s.cmds, b ≠ c → b.src = src → b.tag ≠ tag) →
        (q.valid = true → q.st = .idle → q.launch = none → te < 2 ^ 16 → te ≠ q.epoch →
          (q.staged = [] → q.conns = [] → ∃ t, exec (.configApply (some p)) s = .next t ∧ Finished s t c 0 0 (BitVec.ofNat 64 te) 0
            ∧ t.part p.val = { q with epoch := te, commits := rest })
          ∧ (∀ x, q.staged = [x] → x.item = 1 → q.conns = [] → ¬Overcommit s p.val [(x.index, (x.value.getD 0 0).toNat % 2 ^ 15)] →
              ∃ t, exec (.configApply (some p)) s = .next t ∧ Finished s t c 0 0 (BitVec.ofNat 64 te) 0
                ∧ (t.part p.val).epoch = te ∧ (t.part p.val).staged = []
                ∧ mget 0 (t.part p.val).resv x.index = (x.value.getD 0 0).toNat % 2 ^ 15
                ∧ mget 0 (t.part p.val).qclass x.index = (x.value.getD 0 0).toNat / 2 ^ 16 % 4)
          ∧ (∀ x, q.staged = [x] → x.item = 3 → q.conns = [] → (x.value.getD 0 0).getLsbD 20 = true →
              ∃ t, exec (.configApply (some p)) s = .next t ∧ Finished s t c 0 0 (BitVec.ofNat 64 te) 0 ∧ (t.part p.val).epoch = te
                ∧ (t.part p.val).conns = [(x.index, { node := (x.value.getD 0 0).toNat % 2 ^ 20 })])
          ∧ (∀ x, q.staged = [x] → x.item = 2 → q.cask.seqs = [] → q.cask.joins = [] → q.conns = [] →
              let w (i : Nat) : Nat := (x.value.getD i 0).toNat
              q.poolOk (w 0) (w 1) (w 2) = true → ∃ t, exec (.configApply (some p)) s = .next t ∧ Finished s t c 0 0 (BitVec.ofNat 64 te) 0
                ∧ (t.part p.val).epoch = te
                ∧ (t.part p.val).cask = { q.cask with base := w 0, ncask := w 1 % 2 ^ 23, seqtab := w 2, tpgM1 := w 3 % 2 ^ 12, cpgM1 := w 3 / 2 ^ 12 % 2 ^ 8 }
                ∧ (q.poolChanges x = true → ∀ a, w 2 ≤ a → a < w 2 + 262144 → t.getByte a = 0))
          ∧ (∀ x ci k, q.staged = [x] → x.item = 4 → q.conns = [(ci, k)] → k.paths = [] → k.unacked = [] → k.filling = [] → x.index / 16 = ci →
              (x.value.getD 0 0).getLsbD 7 = true → s.portUp ((x.value.getD 0 0).toNat % 2 ^ 6) = false →
              ∃ t, exec (.configApply (some p)) s = .next t ∧ Finished s t c 0 0 (BitVec.ofNat 64 te) 0 ∧ (t.part p.val).epoch = te
                ∧ (t.part p.val).conns = [(ci, { k with paths := [(x.index % 16, { port := (x.value.getD 0 0).toNat % 2 ^ 6, config := x.value })] })])
          ∧ ∀ x, q.staged = [x] → x.item = 5 → q.conns = [] → s.partOfPort x.index = some p.val → netCfgReserved (x.value.getD 0 0) = false →
              netPfcReserved (x.value.getD 1 0) = false → cltCfgReserved (x.value.getD 2 0) = false →
              ∃ t, exec (.configApply (some p)) s = .next t ∧ (t.part p.val).epoch = te ∧
                let v (i : Nat) : Nat := (x.value.getD i 0).toNat
                let g := t.group x.index
                g.mode = v 0 % 4 ∧ g.prisrc = (v 0).testBit 2 ∧ g.llr = (v 0).testBit 3 ∧ g.maxfrm = v 0 / 16 % 2 ^ 14
                ∧ g.pfcEn.toNat = v 1 % 2 ^ 8 ∧ g.pfcLlr.toNat = v 1 / 2 ^ 8 % 2 ^ 8 ∧ g.xoff = v 1 / 2 ^ 16 % 2 ^ 8 ∧ g.xon = v 1 / 2 ^ 24 % 2 ^ 8
                ∧ g.udpport = v 2 % 2 ^ 16 ∧ g.dpri = v 2 / 2 ^ 16 % 8 ∧ g.cpri = v 2 / 2 ^ 19 % 8)
        ∧ (q.launch ≠ none ∨ (late ∧ ¬quiet) → exec (.configApply (some p)) s = .next s)
        ∧ (late → ∃ t pre, exec (.configQuiesceTimeout p) s = .next t ∧ Finished s t c 0x14 0 0 0
            ∧ t.part p.val = { q with commits := rest, preq := pre }))
    ∧ ∀ rest x, s.devCommits = (src, tag) :: rest → s.staged = [x] → s.cmdOf src tag = some c →
        (∀ b ∈ s.cmds, b ≠ c → b.src = src → b.tag ≠ tag) →
        let v := (x.value.getD 0 0).toNat
        let applied (f : State → Prop) : Prop := ∃ t, exec (.configApply none) s = .next t ∧ Finished s t c 0 0 0 0 ∧ t.staged = []
          ∧ t.devCommits = rest ∧ f t
        (x.item = 6 → applied (fun t => ∀ g < 16, (t.group g).node = v))
        ∧ (x.item = 0x100 → 900 ≤ v → v ≤ 2600 → applied (fun t => t.clk.steps = v / 25))
        ∧ (x.item = 0x101 → applied (fun t => (t.clk.div x.index).cfg = v % 4))
        ∧ (x.item = 0x102 → applied (fun t => t.clk.alertT = v))

end Sys2Proof.Stated

/-- CONFIG_STAGE stages its item or refuses it, and a commit puts the whole copy in force. -/
def Obligations.ConfigurationApplies : Prop := SettingsStaged ∧ CommitsApply

/-! ### Partitions made, tested and destroyed -/

namespace Sys2Proof.Stated

/-- The partition that owns a unit of a kind: engine 5 · cluster + e, core, lane, cluster or pseudo-channel (R359, R389). -/
def ownerOfUnit (s : State) (kind u : Nat) : Option Nat :=
  match kind with
  | 0 => s.partOfCluster (u / 5)
  | 1 => s.partOfCluster (clusterOf u)
  | 2 => s.partOfPort (u / 4)
  | 3 => s.partOfCluster u
  | _ => s.partOfStack (u / 64)

/-- The unit that a SELFTEST or MAPOUT names. -/
def unitNamed (c : Cmd) : Nat × Nat :=
  let w := (c.p 1).toNat
  (w % 8, if w % 8 = 0 then 5 * (w / 2 ^ 16 % 2 ^ 16) + w / 2 ^ 32 % 8 else w / 2 ^ 16 % 2 ^ 16)

end Sys2Proof.Stated

/-- PART_CREATE checks its parameters in the order of R372, then its memories are zeroed; once they are, the epoch and every RESV
are zero, every QCLASS 2 and every pair disabled, the partition stands and the command is answered (R305, R372, R373).
PART_DESTROY waits for a launch unless FORCE is set, ten seconds at most, and is refused while another is pending, but FORCE acts at
once; then the partition's outstanding commands fail and its
memories are zeroed, and with that it is gone (R305, R371). SELFTEST and MAPOUT name a unit of their partition while no launch
runs (R359, R398). -/
def Obligations.PartitionsChange : Prop :=
  (∀ (src : CmdSrc) (tag : Nat) (s : State) (c : Cmd), Startable s c src tag 0x60 →
    let w := (c.p 1).toNat
    let q : Part := { defn := w % 2 ^ 46, valid := true, st := .creating }
    let n := w / 2 ^ 46 % 4
    let ports (x : Part) : List Nat := if x.paired then [x.hostPort, x.hostPort + 1] else [x.hostPort]
    let pair := if q.hostPort < 2 then s.boot.pair01 else s.boot.pair23
    let one : Prop := w % 2 ^ 12 = 0 ∨ w / 2 ^ 12 % 2 ^ 12 = 0 ∨ 4 < w / 2 ^ 43 % 8 ∨ w.testBit 42 ≠ pair ∨ (w.testBit 42 = true ∧ w / 2 ^ 40 % 2 = 1)
    let two : Prop := (s.part n).valid = true ∨ ∃ m < 4, (s.part m).valid = true
      ∧ ((s.part m).defn % 2 ^ 40 &&& w % 2 ^ 40 ≠ 0 ∨ ∃ h ∈ ports (s.part m), h ∈ ports q)
    let live := (List.range 768).filter (fun i => q.hasStack (i / 64) && !(s.hbm (i / 64)).mapout.getLsbD (i % 64))
    let three : Prop := live.length * 0x30000000 < q.stackIds.length * (0xC00000000 / 32 * (32 - w / 2 ^ 43 % 8))
    let refused (status : Nat) : Prop := ∃ t, exec (.partCreate src tag) s = .next t ∧ Finished s t c status 0 0 0 ∧ t.parts = s.parts ∧ t.mem = s.mem
    (one → refused 0x11) ∧ (¬one → two → refused 0x14) ∧ (¬one → ¬two → three → refused 0x13)
    ∧ (¬one → ¬two → ¬three → ∃ t, exec (.partCreate src tag) s = .next t ∧ (t.part n).defn = w % 2 ^ 46 ∧ (t.part n).valid = true
        ∧ (t.part n).st = .creating ∧ (∀ b < 48, (t.part n).absent.getLsbD b = (q.hasGroup (b / 12 * 3 + b % 6 / 2) && (s.cluster b).absent))
        ∧ (∀ b < 12, q.hasStack b = true → (t.hbm b).zbusy = true) ∧ (∀ g < 16, q.hasPort g = true → (t.group g).mode = 0)
        ∧ { c with started := true } ∈ t.cmds ∧ t.mem = s.mem))
  ∧ (∀ (p : PartId) (s : State) (a : Nat),
    let q := s.part p.val
    let owned : Prop := a < memEnd ∧ q.hasStack (a / 0xC00000000) = true
    let tun : Prop := ∃ c off, placeOf a = .tun c off ∧ c ∈ q.clusters
    let spad : Prop := ∃ k off, placeOf a = .spad k off ∧ clusterOf k ∈ q.clusters
    (q.st = .creating → ∃ t, exec (.zeroingComplete (some p)) s = .next t ∧ (t.part p.val).st = .idle ∧ (t.part p.val).epoch = 0
      ∧ (t.part p.val).resv = [] ∧ (∀ n < 64, mget 2 (t.part p.val).qclass n = 2) ∧ (owned ∨ tun ∨ spad → t.getByte a = 0)
      ∧ (∀ n < 64, ((t.host q.hostPort).qp n).en = false) ∧ (∀ k < 768, clusterOf k ∈ q.clusters → t.core k = Core.atReset k)
      ∧ ∀ c pre post, s.cmds = pre ++ c :: post → (∀ b ∈ pre ++ post, b.op ≠ 0x60 ∧ b.op ≠ 0 ∧ (b.src = .mgmt → b.tag ≠ c.tag)) → c.src = .mgmt →
          c.op = 0x60 → c.started = true → c.decided = false → (c.p 1).toNat / 2 ^ 46 % 4 = p.val → Finished s t c 0 0 0 0)
    ∧ (q.st = .destroying → ∃ t, exec (.zeroingComplete (some p)) s = .next t ∧ t.part p.val = {} ∧ (owned ∨ tun ∨ spad → t.getByte a = 0)
      ∧ (∀ g < 16, q.hasPort g = true → (t.group g).mode = 0 ∧ (t.group g).up = 0)
      ∧ ∀ c pre post, s.cmds = pre ++ c :: post → (∀ b ∈ pre ++ post, b.op ≠ 0x61 ∧ b.op ≠ 0 ∧ (b.src = .mgmt → b.tag ≠ c.tag)) → c.src = .mgmt →
          c.op = 0x61 → c.started = true → c.decided = false → (c.p 1).toNat % 4 = p.val → Finished s t c 0 0 0 0))
  ∧ (∀ (s : State) (a : Nat), s.boot.st = .verified → s.boot.training = 0 → ∃ t, exec (.zeroingComplete none) s = .next t
      ∧ t.boot.st = .zeroed ∧ (a < memEnd → t.getByte a = 0))
  ∧ (∀ (tag : Nat) (s : State) (c : Cmd), Startable s c .mgmt tag 0x61 → c.part = none →
    let w := (c.p 1).toNat
    let n := w % 4
    let q := s.part n
    let runs : Prop := q.launch ≠ none ∨ q.st = .switching
    (q.valid = false → ∃ t, exec (.partDestroy .mgmt tag) s = .next t ∧ Finished s t c 0x15 0 0 0 ∧ t.parts = s.parts)
    ∧ (q.valid = true → q.st = .creating ∨ q.st = .destroying ∨ (q.destroy ≠ none ∧ w.testBit 2 = false) →
        ∃ t, exec (.partDestroy .mgmt tag) s = .next t ∧ Finished s t c 0x14 0 0 0 ∧ t.parts = s.parts)
    ∧ (q.valid = true → q.st ≠ .creating → q.st ≠ .destroying →
      (w.testBit 2 = false → q.destroy = none → runs → ∃ t, exec (.partDestroy .mgmt tag) s = .next t
        ∧ t.part n = { q with destroy := some (.mgmt, tag) } ∧ { c with started := true } ∈ t.cmds ∧ t.mem = s.mem)
      ∧ (¬runs → q.destroy = none → q.suspended = [] → (∀ b ∈ s.cmds, b.op ≠ 0) → ∃ t : State, exec (.partDestroy .mgmt tag) s = .next t.hostsDrain
          ∧ (t.part n).st = .destroying
          ∧ (∀ i < 12, q.hasStack i = true → (t.hbm i).zbusy = true) ∧ { c with started := true } ∈ t.cmds
          ∧ ∀ b ∈ s.cmds, b ≠ c → b.part = some n → (∀ b' ∈ s.cmds, b'.part = some n ∨ (b'.src = b.src ∧ b'.tag = b.tag) → b' = b) → b.decided = false → b.op ≠ 0x30 → b.op ≠ 0x52 →
              ¬(b.started = true ∧ b.op ∈ ([0x40, 0x41, 0x42] : List Nat)) → Replied s t b.src b.op b.tag 0x21 0x10 0 0)
      ∧ (w.testBit 2 = true → ∃ t : State, exec (.partDestroy .mgmt tag) s = .next t.hostsDrain ∧ (t.part n).st = .destroying
          ∧ (t.part n).destroy = none ∧ (t.part n).launch = none)))
  ∧ (∀ (tag : Nat) (s : State) (c : Cmd), s.cmdOf .mgmt tag = some c → c.op = 0x61 → c.started = true →
    let n := (c.p 1).toNat % 4
    (s.part n).destroy = some (.mgmt, tag) → (s.part n).launch = none → (s.part n).st ≠ .switching →
      ∃ t : State, exec (.partDestroy .mgmt tag) s = .next t.hostsDrain ∧ (t.part n).st = .destroying ∧ (t.part n).destroy = none)
  ∧ (∀ (p : PartId) (tag : Nat) (s : State) (c : Cmd), (s.part p.val).destroy = some (.mgmt, tag) → (s.part p.val).launch ≠ none →
      s.cmdOf .mgmt tag = some c → (∀ b ∈ s.cmds, b ≠ c → b.src = .mgmt → b.tag ≠ tag) →
      ∃ t, exec (.partDestroyTimeout p) s = .next t ∧ Finished s t c 0x14 0 0 0 ∧ t.part p.val = { s.part p.val with destroy := none })
  ∧ ∀ (src : CmdSrc) (tag : Nat) (s : State) (c : Cmd) (op : Nat) (i : Instr),
      (i = .selftest src tag ∧ op = 0x71) ∨ (i = .mapout src tag ∧ op = 0x72) → Startable s c src tag op →
      let kind := (unitNamed c).1
      let u := (unitNamed c).2
      let count := ([240, 768, 64, 48, 768] : List Nat).getD kind 1
      (c.part = none ∨ count ≤ u ∨ ownerOfUnit s kind u ≠ c.part → kind < 5 → ∃ t, exec i s = .next t ∧ Finished s t c 0x15 0 0 0 ∧ t.parts = s.parts)
      ∧ ∀ p, c.part = some p → u < count → kind < 5 → ownerOfUnit s kind u = some p →
        ((s.part p).launch ≠ none → ∃ t, exec i s = .next t ∧ Finished s t c 0x14 0 0 0 ∧ t.parts = s.parts)
        ∧ ((s.part p).launch = none → (s.part p).st ≠ .switching →
          (op = 0x71 → ∃ t h, exec i s = .next t ∧ (t.part p).handling = (s.part p).handling ++ [h] ∧ h.det.ukind = kind ∧ h.det.unit = u
            ∧ h.cmd = some (src, tag) ∧ { c with started := true } ∈ t.cmds)
          ∧ (op = 0x72 → (s.part p).handling ≠ [] → ∃ t, exec i s = .next t ∧ Finished s t c 0x14 0 0 0 ∧ t.parts = s.parts)
          ∧ (op = 0x72 → (s.part p).handling = [] →
            (kind ≠ 2 → (c.p 1).getLsbD 48 = false → s.unitOut kind u = true → ∃ t, exec i s = .next t ∧ (t.part p).handling = []
              ∧ (src = .mgmt → Finished s t c 0 0 0 0))
            ∧ (kind = 2 → (c.p 1).getLsbD 48 = true → ∃ t, exec i s = .next t ∧ (t.group (u / 4)).failed.getLsbD (u % 4) = false
              ∧ (src = .mgmt → Finished s t c 0 0 0 0))
            ∧ (kind = 2 → (c.p 1).getLsbD 48 = false → ∃ t, exec i s = .next t ∧ (t.group (u / 4)).failed.getLsbD (u % 4) = true
              ∧ (src = .mgmt → Finished s t c 0 0 0 0))
            ∧ ((kind = 0 ∨ kind = 1 ∨ kind = 3) → (c.p 1).getLsbD 48 = false → (s.cluster (if kind = 0 then u / 5 else if kind = 1 then clusterOf u else u)).absent = false →
                ∃ t h, exec i s = .next t ∧ (t.part p).handling = [h] ∧ h.det.unit = u ∧ h.action = 2 ∧ h.cmd = some (src, tag))
            ∧ (kind = 4 → (c.p 1).getLsbD 48 = false → (s.hbm (u / 64)).mapout.getLsbD (u % 64) = false → ∃ t h, exec i s = .next t
                ∧ (t.part p).handling = [h] ∧ h.action = 4 ∧ (t.hbm (u / 64)).mapout.getLsbD (u % 64) = true ∧ (t.hbm (u / 64)).migr = true)))

/-! ### Launches -/

namespace Sys2Proof.Stated

/-- No command of the partition is before c in the order of R380, and nothing holds c: the partition is idle, handles no error, waits
for no commit and runs no other command. -/
def NextUp (s : State) (p : Nat) (c : Cmd) : Prop :=
  let q := s.part p
  q.valid = true ∧ q.st = .idle ∧ q.launch = none ∧ q.handling = [] ∧ q.destroy = none ∧ q.suspended = [] ∧ q.commits = []
    ∧ c ∈ s.cmds ∧ c.part = some p ∧ c.decided = false ∧ (∀ b ∈ s.cmds, b.src = c.src → b.tag = c.tag → b = c)
    ∧ ∀ b ∈ s.cmds, b ≠ c → b.part = some p → c.cls < b.cls ∧ b.started = false

/-- The clusters of a partition that are mapped out. -/
def outClusters (q : Part) : List Nat := q.clusters.filter (fun c => q.absent.getLsbD c)

/-- A launch of an image can run with the clusters that are mapped out (R378). -/
def Fits (q : Part) (im : SchedImage) : Prop :=
  outClusters q = [] ∨ ∃ d v, outClusters q = [d] ∧ v ∈ im.variants ∧ v.absent = d

/-- What a launch start leaves (R140, R214, R228, R269): flags, tuns and first-level caches clear, cores idle. -/
def Cleared (s t : State) (p : Nat) : Prop :=
  (∀ c < 48, s.partOfCluster c = some p → (t.cluster c).flags = 0 ∧ (t.cluster c).gather = {} ∧ ∀ off < 0x800000, t.getByte (tunAddr c off) = 0)
  ∧ ∀ k < 768, s.partOfCore k = some p → (t.core k).run = .idle ∧ (t.core k).flg.f = 0 ∧ (t.core k).l1d = [] ∧ (t.core k).l1i = []

end Sys2Proof.Stated

/-- A LAUNCH or CASK_STEP of a loaded schedule takes its place in the order, and pre-empts a running launch of a higher class (R357,
R360, R381); the launch next in order starts under the epoch and variant in force, unless its epoch check or R378 ends it (R21,
R360, R378). A core starts its next task with the values of R183, its seed from R62 and its scratchpad zero (R66, R125, R361). A
launch whose tasks have ended and whose work is drained writes its commit record and its sequences' lengths; then it reports its items
and is answered (R296, R363, R404, R413). That these are two events is the model's choice (log 131). -/
def Obligations.LaunchesRun : Prop :=
  (∀ (i : Instr) (src : CmdSrc) (tag op p : Nat) (s : State) (c : Cmd), (i = .launch src tag ∧ op = 0x30) ∨ (i = .caskStep src tag ∧ op = 0x52) →
    Startable s c src tag op → c.part = some p →
    let id := (c.p 1).toNat % 2 ^ 32
    ((∀ x ∈ (s.part p).scheds, x.id ≠ id) → ∃ t, exec i s = .next t ∧ Finished s t c 0x15 0 0 0 ∧ t.parts = s.parts)
    ∧ ((∃ x ∈ (s.part p).scheds, x.id = id) → ∃ t, exec i s = .next t ∧ { c with started := true } ∈ t.cmds ∧ t.mem = s.mem
        ∧ ((s.part p).launch = none → t.parts = s.parts)
        ∧ ∀ l, (s.part p).launch = some l → (s.part p).st = .running → (s.part p).abort = none → (s.part p).suspended = [] →
            (s.part p).commits = [] → l.committed = false → l.sched ≠ id → ¬(l.src = src ∧ l.tag = tag) → c.cls < l.cls →
            (s.part p).preq = false → (∀ b ∈ s.cmds, b ≠ c → b.src ≠ src ∨ b.cls ≠ c.cls) →
            (t.part p).preq = true ∧ ∀ k < 768, clusterOf k ∈ (s.part p).live → (t.core k).ipend.getLsbD 0 = true))
  ∧ (∀ (p : PartId) (s : State) (c : Cmd) (x : Sched), NextUp s p.val c → c.op = 0x30 ∨ c.op = 0x52 → c.started = true →
    let q := s.part p.val
    let w := (c.p 1).toNat
    q.sched (w % 2 ^ 32) = some x → x.id = w % 2 ^ 32 →
    let wrong : Prop := w.testBit 48 = true ∧ w / 2 ^ 32 % 2 ^ 16 ≠ q.epoch
    let fits : Prop := Fits q x.image
    (wrong → ∃ t, exec (.launchStart p) s = .next t ∧ Finished s t c 0x12 0 0 0 ∧ t.parts = s.parts)
    ∧ (¬wrong → x.stale = true → ∃ t c1, exec (.launchStart p) s = .next t ∧ Finished s t c 0x41 c1 0xFF00 0 ∧ c1 % 2 ^ 8 = 0x0C
        ∧ (t.part p.val).launch = none)
    ∧ (¬wrong → x.stale = false → ¬fits → ∃ t c1, exec (.launchStart p) s = .next t ∧ Finished s t c 0x40 c1 0xFF00 0
        ∧ c1 % 2 ^ 8 = 0x0D ∧ (t.part p.val).launch = none)
    ∧ (¬wrong → x.stale = false → fits → ∃ t l, exec (.launchStart p) s = .next t ∧ (t.part p.val).launch = some l ∧ (t.part p.val).st = .running
        ∧ (t.part p.val).abort = none ∧ (t.part p.val).cellar = [] ∧ l.sched = x.id ∧ l.src = c.src ∧ l.tag = c.tag ∧ l.seed = c.p 2
        ∧ l.epoch = q.epoch ∧ l.cls = c.cls ∧ l.rollbacks = 0 ∧ l.variant = (outClusters q).head? ∧ l.step = decide (c.op = 0x52)
        ∧ (∀ n < x.image.tasks.length, (mget {} l.tasks n).st = .idle) ∧ c ∈ t.cmds ∧ Cleared s t p.val
        ∧ ∀ h n, c.src = .qp h n → (mget {} (t.part p.val).acct n.val).launches = min 0xFFFFFFFF ((mget {} q.acct n.val).launches + 1)
            ∧ (mget {} (t.part p.val).acct n.val).waitMax = max (mget {} q.acct n.val).waitMax (s.ao - c.at_)))
  ∧ (∀ (p : PartId) (s : State) (b : Cand), s.partFree p.val = true → bestOf (s.cands p.val) = some b → b.fresh = false →
      ∃ t, exec (.launchStart p) s = .next t ∧ t.part p.val = { s.part p.val with st := .switching, incoming := some (b.src, b.tag) }
        ∧ t.cmds = s.cmds ∧ t.mem = s.mem)
  ∧ (∀ (k : CoreId) (p : Nat) (s : State) (l : Launch) (x : Sched) (n : Nat) (d : TaskDef) (pre post : List Nat),
    let q := s.part p
    let o := s.core k.val
    s.partOfCore k.val = some p → q.launch = some l → q.sched l.sched = some x → q.st = .running → q.abort = none → l.ready = true →
    o.run = .idle ∨ o.run = .ended → o.ipend.getLsbD 0 = false →
    imTasksOf x.image l.variant k.val = pre ++ n :: post → (∀ m ∈ pre, (mget {} l.tasks m).st ≠ .idle) →
    (mget {} l.tasks n).st = .idle → x.image.tasks[n]? = some d →
    ∃ t, exec (.taskStart k) s = .next t ∧
      let o' := t.core k.val
      let b := o'.banks.r3
      o'.run = .running ∧ o'.ring = 3 ∧ b.pc = d.entry ∧ b.dsp = b.dsFloor ∧ b.rsp = b.rsFloor ∧ b.ds = [] ∧ b.rs = [] ∧ o'.task = n ∧ o'.sched = l.sched
        ∧ o'.seed = generator l.seed 0xFFFF n 0 ∧ o'.gie = false ∧ o'.ipend = 0 ∧ o'.sp.rej = false ∧ o'.sp.rejCount = 0 ∧ o'.gtb = d.gtb ∧ o'.preciseM = d.preciseM ∧ o'.waiting = none
        ∧ (∃ l', (t.part p).launch = some l' ∧ mget {} l'.tasks n = { st := .running, core := k.val })
        ∧ (∀ w < 16, (o.window w).res = true → o'.window w = o.window w)
        ∧ ((∀ e ∈ x.image.live, e.carried = []) → (∀ w < 16, (o.window w).res = false) → ∀ off < 0x100000,
            (off < d.gtb * 4096 ∨ d.gtb * 4096 + 4096 ≤ off) → t.getByte (spadAddr k.val off) = 0)
        ∧ (d.gtb < 256 → ∀ a, (∀ off, placeOf a ≠ .spad k.val off) → t.getByte a = s.getByte a))
  ∧ ∀ (p : PartId) (s : State) (l : Launch) (x : Sched) (c : Cmd),
    let q := s.part p.val
    q.launch = some l → q.sched l.sched = some x →
    (l.committed = false → q.st = .running → q.abort = none → s.mayCommit p.val l x.image = true →
      ∃ t, exec (.launchCommit p) s = .next t ∧ t.cmds = s.cmds ∧ t.sent = s.sent
        ∧ t.part p.val = { q with commit := some (l.sched, l.tag, l.epoch), cellar := [], launch := some { l with committed := true },
                                   cask := { q.cask with seqs := q.cask.seqs.map (fun y => if y.handle ∈ l.seqs then { y with len := y.len + 1 } else y) } }
        ∧ (∀ y ∈ q.cask.seqs, y.handle ∈ l.seqs → (∀ z ∈ q.cask.seqs, z ≠ y → z.slot ≠ y.slot) →
            ∀ i < 4, t.getByte (q.cask.seqtab + 64 * y.slot + 8 + i) = (leBytes 4 (y.len + 1)).getD i 0)
        ∧ (l.seqs = [] → t.mem = s.mem))
    ∧ (l.committed = true → ∃ t, exec (.launchCommit p) s = .next t ∧ (t.part p.val).launch = none ∧ (t.part p.val).commit = q.commit
      ∧ (q.st = .running → (t.part p.val).st = .idle) ∧ (t.part p.val).cellar = [] ∧ (t.part p.val).cask = q.cask
      ∧ (s.cmdOf l.src l.tag = some c → (∀ b ∈ s.cmds, b ≠ c → b.src = c.src → b.tag ≠ c.tag) → l.src = .mgmt ∨ q.acted = [] →
          let status := if l.rollbacks = 0 then 0 else 2
          (∃ c1, Finished s t c status c1 (BitVec.ofNat 64 (l.rollbacks % 2 ^ 8 + l.variant.getD 0xFF % 2 ^ 8 * 2 ^ 8)) 0 ∧ c1 % 2 ^ 16 = 0)
          ∧ ∀ pas : List Nat, l.src = .mgmt → l.seqs = [] → l.stalled = [] → l.lists = [] → x.image.dma = [] → (c.p 4).getLsbD 0 = false →
              x.image.tasks.length ≤ (c.p 4).toNat / 2 ^ 16 % 2 ^ 16 + 1 → pas.length = 16 * x.image.tasks.length → pas.Nodup →
              (∀ n < x.image.tasks.length, (mget {} l.tasks n).st = .ended) →
              (∀ n < x.image.tasks.length, LocalBytes s p.val .write ((c.p 3).toNat % 2 ^ 48 + 16 * n) ((pas.drop (16 * n)).take 16)) →
              ∀ n < x.image.tasks.length, (mget {} l.tasks n).core < 768 → ∀ j < 16, t.getByte (pas.getD (16 * n + j) 0) =
                (leBytes 8 (status + n * 2 ^ 32) ++ leBytes 8 (mget {} l.tasks n).core).getD j 0))

/-! ### Schedules loaded and unloaded, commands cancelled -/

/-- SCHED_LOAD refuses an identifier in use, an image that cannot be read, one that names cores or clusters outside the partition, a
route program against R147, and one for which there is no room; otherwise the schedule is loaded, its resident windows hold their
initial bytes and its pages are mapped (R129, R147, R376, R377). SCHED_UNLOAD needs a loaded schedule without outstanding launches,
and leaves neither its windows nor its pages (R129, R376). CANCEL acts by the state of its target (R365). -/
def Obligations.SchedulesAndCancels : Prop :=
  (∀ (src : CmdSrc) (tag p : Nat) (s : State) (c : Cmd) (im : SchedImage) (h : Hit), Startable s c src tag 0x20 → c.part = some p →
    imagePlaced s p im = true →
    let q := s.part p
    let id := (c.p 3).toNat % 2 ^ 32
    let n := (c.p 2).toNat % 2 ^ 40
    let host := (c.p 4).getLsbD 0
    let refused (status : Nat) : Prop := ∃ t, exec (.schedLoad src tag im h) s = .next t ∧ Finished s t c status 0 0 0 ∧ t.parts = s.parts
      ∧ t.mem = s.mem
    let loaded (good : State → Prop) : Prop := ∃ t, exec (.schedLoad src tag im h) s = .next t ∧ good t
      ∧ (∃ x, (t.part p).scheds = q.scheds ++ [x] ∧ x.id = id ∧ x.image = im)
      ∧ (t.part p).pages = im.pages.map (fun g => { g with image := some id }) ++ q.pages
      ∧ ∀ w, outClusters q = [] → im.windows.filter (fun v => v.resident) = [w] → w.core < 768 → winHi w ≤ 0x100000 →
          ((t.core w.core).window w.slot).res = true ∧ ((t.core w.core).window w.slot).owner = id
            ∧ ∀ i < winHi w - winLo w, t.getByte (spadAddr w.core (winLo w + i)) = (w.initial.getD []).getD i 0
    let room : Prop := windowsMeet q im = false ∧ roomOk q im n = true
    ((∃ x ∈ q.scheds, x.id = id) → refused 0x14)
    ∧ ((∀ x ∈ q.scheds, x.id ≠ id) →
      (∀ f, host = false → masterXlateN s p .read (c.p 1).toNat n = .error f → refused 0x20)
      ∧ (host = true → q.valid = false ∨ hostAnswers q.hostPort (c.p 1).toNat n = false → refused 0x20)
      ∧ (∀ pas m, host = false → pas.length = n → LocalBytes s p .read (c.p 1).toNat pas → m < n → h = some (m, .uncorrectable) →
          ∃ t, exec (.schedLoad src tag im h) s = .next t ∧ Finished s t c 0x20 0 0 0)
      ∧ ((host = true ∧ q.valid = true ∧ hostAnswers q.hostPort (c.p 1).toNat n = true)
            ∨ (host = false ∧ MildHit h ∧ ∃ pas, pas.length = n ∧ LocalBytes s p .read (c.p 1).toNat pas) →
        (scopeOk s p im = false → refused 0x15)
        ∧ (scopeOk s p im = true → routesOk s im = false → refused 0x11)
        ∧ (scopeOk s p im = true → routesOk s im = true → ¬room → refused 0x30)
        ∧ (scopeOk s p im = true → routesOk s im = true → room → loaded (fun t => Finished s t c 0 0 0 0)))))
  ∧ (∀ (src : CmdSrc) (tag p : Nat) (s : State) (c : Cmd), Startable s c src tag 0x21 → c.part = some p →
    let q := s.part p
    let id := (c.p 1).toNat % 2 ^ 32
    let launched : Prop := ∃ b ∈ s.cmds, b.part = some p ∧ (b.op = 0x30 ∨ b.op = 0x52) ∧ b.decided = false ∧ (b.p 1).toNat % 2 ^ 32 = id
    ((∀ x ∈ q.scheds, x.id ≠ id) → ∃ t, exec (.schedUnload src tag) s = .next t ∧ Finished s t c 0x15 0 0 0 ∧ t.parts = s.parts)
    ∧ ((∃ x ∈ q.scheds, x.id = id) → launched → ∃ t, exec (.schedUnload src tag) s = .next t ∧ Finished s t c 0x14 0 0 0 ∧ t.parts = s.parts)
    ∧ ((∃ x ∈ q.scheds, x.id = id) → ¬launched → ∃ t, exec (.schedUnload src tag) s = .next t ∧ Finished s t c 0 0 0 0
        ∧ (t.part p).scheds = q.scheds.filter (fun x => decide (x.id ≠ id)) ∧ (∀ g ∈ (t.part p).pages, g.image ≠ some id)
        ∧ ∀ k < 768, clusterOf k ∈ q.clusters → ∀ n < 16, ((s.core k).window n).res = true → ((s.core k).window n).owner = id →
            ((t.core k).window n).res = false ∧ ((t.core k).window n).en = false
            ∧ ∀ off, ((s.core k).window n).base * 16 ≤ off → off < ((s.core k).window n).last * 16 + 16 → off < 0x100000 → t.getByte (spadAddr k off) = 0))
  ∧ ∀ (src : CmdSrc) (tag p : Nat) (s : State) (c : Cmd), Startable s c src tag 0x31 → c.part = some p → (s.part p).st ≠ .switching →
    (∀ b ∈ s.cmds, b.op ≠ 0) →
    let q := s.part p
    let target := (c.p 1).toNat % 2 ^ 16
    let space (b : Cmd) : Prop := (b.part = some p ∨ (src = .mgmt ∧ b.part = none)) ∧ ((b.src = .mgmt) ↔ (src = .mgmt)) ∧ b.tag = target
    let answered (n : Nat) : Prop := ∃ t pre, exec (.cancel src tag) s = .next t ∧ Finished s t c 0 0 (BitVec.ofNat 64 n) 0
      ∧ t.part p = { q with preq := pre } ∧ t.mem = s.mem
    let ends (n : Nat) (good : State → Prop) : Prop := ∃ t, exec (.cancel src tag) s = .next t ∧ good t
      ∧ (src = .mgmt → Finished s t c 0 0 (BitVec.ofNat 64 n) 0)
    ((∀ b ∈ s.cmds, ¬space b) → answered 0)
    ∧ (target = tag → (∀ b ∈ s.cmds, space b → b = c) → answered 4)
    ∧ ∀ b ∈ s.cmds, space b → (∀ b' ∈ s.cmds, space b' → b' = b) → b ≠ c → (∀ b' ∈ s.cmds, b'.src = b.src → b'.tag = b.tag → b' = b) →
        (b.decided = true → answered 3)
        ∧ (b.decided = false → b.started = false → b.op ≠ 0x30 → b.op ≠ 0x52 → src = .mgmt → ∃ t, exec (.cancel src tag) s = .next t
            ∧ Finished s t b 0x22 0 0 0 ∧ Finished s t c 0 0 1 0)
        ∧ (b.decided = false → b.started = true → b.op = 0x50 → src = .mgmt → ∃ t, exec (.cancel src tag) s = .next t
            ∧ Finished s t b 0x22 0 0 0 ∧ Finished s t c 0 0 1 0 ∧ ∀ j ∈ (t.part p).cask.joins, ¬(j.src = b.src ∧ j.tag = b.tag))
        ∧ (b.decided = false → b.started = true → b.op ∉ ([0x30, 0x40, 0x41, 0x42, 0x50, 0x52] : List Nat) → answered 4)
        ∧ (b.decided = false → b.started = true → b.op ∈ ([0x40, 0x41, 0x42] : List Nat) → ends 2 (fun t => src = .mgmt → Finished s t b 0x22 0 0 0))
        ∧ (b.decided = false → b.started = true → b.op = 0x30 ∨ b.op = 0x52 →
          let mine (l : Launch) : Prop := l.src = b.src ∧ l.tag = target
          ((∀ l, q.launch = some l → ¬mine l) → (∀ sv ∈ q.suspended, ¬mine sv.launch) →
            ends 1 (fun t => src = .mgmt → ∃ c1 c2, Finished s t b 0x22 c1 c2 0))
          ∧ (∀ sv, (∀ l, q.launch = some l → ¬mine l) → q.suspended = [sv] → mine sv.launch → ends 2 (fun t => (t.part p).suspended = []))
          ∧ ∀ l, q.launch = some l → mine l →
            (l.committed = true → answered 3)
            ∧ (l.committed = false → q.abort = none → ∃ t a, exec (.cancel src tag) s = .next t ∧ (t.part p).abort = some a ∧ a.status = 0x22
                ∧ a.hw = false ∧ (t.part p).cancels = q.cancels ++ [(src, tag)] ∧ t.sent = s.sent)
            ∧ (∀ a, l.committed = false → q.abort = some a →
                (a.hw = false → answered 3)
                ∧ (a.hw = true → q.rolledBack = false → ∃ t a', exec (.cancel src tag) s = .next t ∧ (t.part p).abort = some a'
                    ∧ a'.status = 0x22 ∧ a'.hw = false ∧ (t.part p).cancels = q.cancels ++ [(src, tag)] ∧ t.sent = s.sent)
                ∧ (a.hw = true → q.rolledBack = true → ends 2 (fun t => (t.part p).launch = none))))

/-! ### Commands that move data; the cask manager; switches -/

namespace Sys2Proof.Stated

/-- DMA_COPY, FILL and COMPARE wait for their place in the order, then run as one descriptor on channel 0 of each live cluster, the
parts together covering the bytes in order (R380, R452); ranges of one address space that overlap fail with DESCRIPTOR (R359). -/
def CommandsMove : Prop :=
  ∀ (i : Instr) (src : CmdSrc) (tag op p : Nat) (s : State) (c : Cmd),
    (i = .dmaCopy src tag ∧ op = 0x40) ∨ (i = .fill src tag ∧ op = 0x41) ∨ (i = .compare src tag ∧ op = 0x42) →
    Startable s c src tag op → c.part = some p →
    let n := (c.p 3).toNat % 2 ^ 40
    let a := (c.p 1).toNat
    let b := (c.p 2).toNat
    let srcHost := decide (op ≠ 0x41) && (c.p 4).getLsbD 0
    let dstHost := if op = 0x41 then (c.p 4).getLsbD 0 else (c.p 4).getLsbD 1
    let overlap : Prop := op ≠ 0x41 ∧ (c.p 4).getLsbD 0 = (c.p 4).getLsbD 1 ∧ a < b + n ∧ b < a + n
    (overlap → ∃ t, exec i s = .next t ∧ Finished s t c 0x20 (0x0F + 0x13 * 2 ^ 8) 0 0 ∧ t.mem = s.mem)
    ∧ (¬overlap → NextUp s p c → (s.part p).live ≠ [] → 1 ≤ n → ∃ (t : State) (es : List (Nat × Nat × Nat)), exec i s = .next t ∧ t.mem = s.mem
        ∧ (es.map (·.1)).Sublist (s.part p).live ∧ (es.map (·.2.2)).sum = n
        ∧ (∃ c' ∈ t.cmds, c'.src = src ∧ c'.tag = tag ∧ c'.started = true ∧ c'.parts = es.length)
        ∧ ∀ j < es.length,
          let e := es.getD j (0, 0, 0)
          e.2.1 = ((es.take j).map (·.2.2)).sum ∧ 1 ≤ e.2.2 ∧ (j + 1 < es.length → e.2.2 % 256 = 0)
            ∧ ∃ run, ((t.cluster e.1).dma.chan 0).descs = [run] ∧ run.started = false ∧ run.desc.op = op - 0x40 ∧ run.desc.len0 = e.2.2
              ∧ run.desc.dst = b + e.2.1 ∧ run.desc.src = (if op = 0x41 then c.p 1 else c.p 1 + BitVec.ofNat 64 e.2.1)
              ∧ run.desc.srcHost = srcHost ∧ run.desc.dstHost = dstHost ∧ run.desc.cnt1 = 1 ∧ run.desc.waiten = false ∧ run.desc.doneen = false)

/-- Casks for l tokens: data and index (R290). -/
def casksFor (k : Cask) (l : Nat) : Nat × Nat :=
  let d := (k.cpgM1 + 1) * ((l + k.tpgM1) / (k.tpgM1 + 1))
  (d, (d + 16383) / 16384)

/-- Casks that some sequence holds. -/
def heldCasks (k : Cask) : List Nat := k.seqs.flatMap (fun x => x.index ++ x.casks)

/-- Sequences and one join at a boundary, the sequences oldest first, when the marking of R294 leaves `run`. -/
def Marked (k : Cask) (seqs run : List Seq) : Prop :=
  let d (x : Seq) : Nat := (casksFor k (x.len + 1)).1 + (casksFor k (x.len + 1)).2 - (x.index.length + x.casks.length)
  let f := k.ncask - (heldCasks k).length
  (run.map d).sum ≤ f ∧ run.Sublist seqs
    ∧ ∀ x ∈ seqs, x ∉ run → 0 < d x ∧ (∀ y ∈ run, 0 < d y → seqs.idxOf y < seqs.idxOf x)
        ∧ ((∀ y ∈ seqs, y ∉ run → seqs.idxOf x ≤ seqs.idxOf y) → f < (run.map d).sum + d x)

/-- CASK_JOIN and CASK_LEAVE wait for the step boundary. At the boundary leaves take effect, FULL sequences
are left out, the sequences whose demand fits run and take the casks they need, and the step table lists those that run (R289 to
R295). -/
def CasksStep : Prop :=
  (∀ (src : CmdSrc) (tag p : Nat) (s : State) (c : Cmd), Startable s c src tag 0x50 → c.part = some p →
    let k := (s.part p).cask
    ∃ t, exec (.caskJoin src tag) s = .next t ∧ { c with started := true } ∈ t.cmds ∧ t.mem = s.mem
      ∧ (t.part p).cask = { k with joins := k.joins ++ [{ src := src, tag := tag, handle := (c.p 1).toNat % 2 ^ 32,
                                                           len := (c.p 1).toNat / 2 ^ 32, seed := c.p 2 }] })
  ∧ (∀ (src : CmdSrc) (tag p : Nat) (s : State) (c : Cmd), Startable s c src tag 0x51 → c.part = some p →
    ∃ t, exec (.caskLeave src tag) s = .next t ∧ { c with started := true } ∈ t.cmds ∧ t.mem = s.mem
      ∧ (t.part p).cask = { (s.part p).cask with leaves := (s.part p).cask.leaves ++ [(src, tag, (c.p 1).toNat % 2 ^ 32)] })
  ∧ ∀ (p : PartId) (s : State) (l : Launch) (c : Cmd),
    let q := s.part p.val
    let k := q.cask
    q.launch = some l → l.step = true → l.ready = false → q.abort = none → s.cmdOf l.src l.tag = some c → k.leaves = [] → k.joins = [] →
    (k.seqs.map (·.handle)).Nodup → (∀ x ∈ k.seqs, x.st = .full → 65536 < (casksFor k (x.len + 1)).1) →
    let able := k.seqs.filter (fun x => decide ((casksFor k (x.len + 1)).1 ≤ 65536))
    let bmax := (c.p 1).toNat / 2 ^ 49 % 2 ^ 12 + 1
    ∃ t l' run, exec (.stepBoundary p) s = .next t ∧ (t.part p.val).launch = some l' ∧ l'.ready = true
      ∧ (k.seqs = [] → l'.seqs = [] ∧ l'.stalled = [])
      ∧ Marked k able run ∧ l'.seqs = (run.take bmax).map (·.handle)
      ∧ (∀ x ∈ k.seqs, x ∉ able → (x.handle, 0x08) ∈ l'.stalled) ∧ (∀ x ∈ run.drop bmax, (x.handle, 0x09) ∈ l'.stalled)
      ∧ (∀ x ∈ able, x ∉ run → (x.handle, 0x0A) ∈ l'.stalled)
      ∧ (t.part p.val).cask.seqs.map (·.handle) = k.seqs.map (·.handle)
      ∧ (∀ x ∈ run, ∃ y ∈ (t.part p.val).cask.seqs, y.handle = x.handle ∧ y.len = x.len ∧ y.slot = x.slot
          ∧ ((heldCasks k).Nodup → (∀ d ∈ heldCasks k, d < k.ncask)
            → (∀ z ∈ k.seqs, z.casks.length ≤ (casksFor k (z.len + 1)).1 ∧ z.index.length ≤ (casksFor k (z.len + 1)).2) → (casksFor k (x.len + 1)).1 ≤ y.casks.length ∧ x.casks <+: y.casks))
      ∧ (let tab := (c.p 5).toNat % 2 ^ 48
         let as := (List.range (16 + 16 * l'.seqs.length)).map (fun i => tab + i)
         (∀ a ∈ as, placeFault s p.val false .write a a = none ∧ (placeOf a).isMemory = true ∧ s.holdsError a = false) →
         s.windowsRefuse as (caskId p.val) = none → (t.part p.val).abort = none
           ∧ ∀ i < as.length, t.getByte (tab + i) = (stepTable ((t.part p.val).cask.seqs.filter (fun x => x.st == .running))).getD i 0)

end Sys2Proof.Stated

/-- DMA commands run in parts; casks are joined, left and allotted at step boundaries. -/
def Obligations.CommandsAndCasks : Prop := CommandsMove ∧ CasksStep

/-- With every core parked at one yield point, a switch out saves the launch and leaves the partition switching, or, where a
condition of R382 fails, a YMISS is counted and the cores go on. SWITCH_COMPLETE brings the incoming launch back, its cores and
flags as saved, and counts the switch (R382 to R386). -/
def Obligations.SwitchesMove : Prop :=
  (∀ (p : PartId) (s : State) (l : Launch) (x : Sched),
    let q := s.part p.val
    q.launch = some l → q.sched l.sched = some x → q.st = .running → q.abort = none → q.preq = true → l.committed = false → s.allParked p.val = true →
    (∀ e ∈ s.cores, s.partOfCore e.1 = some p.val → e.2.posted = []) →
    (s.mayLeave p.val = false → ∃ t, exec (.switchStart p) s = .next t ∧ (t.part p.val).ymiss = min 0xFFFFFFFF (q.ymiss + 1)
        ∧ (t.part p.val).launch = some l ∧ (t.part p.val).preq = true ∧ t.mem = s.mem
        ∧ ∀ k < 768, s.partOfCore k = some p.val → (t.core k).run = if (s.core k).run = .parked then .running else (s.core k).run)
    ∧ (s.mayLeave p.val = true → ∃ t sv, exec (.switchStart p) s = .next t ∧ (t.part p.val).launch = none ∧ (t.part p.val).st = .switching
        ∧ (t.part p.val).preq = false ∧ (t.part p.val).suspended = q.suspended ++ [sv] ∧ sv.lost = false ∧ (∀ e ∈ q.cellar, e ∈ sv.cellar)
        ∧ sv.logged = q.logged ∧ sv.launch.sched = l.sched ∧ sv.launch.src = l.src ∧ sv.launch.tag = l.tag ∧ sv.launch.epoch = l.epoch
        ∧ sv.launch.variant = l.variant ∧ sv.launch.outAt = s.ao
        ∧ (∀ k < 768, s.partOfCore k = some p.val → (t.core k).run = .idle
            ∧ ((t.core k).banks.r3.busy = true → (t.core k).banks.r3.ds = [] ∧ (t.core k).banks.r3.rs = []))
        ∧ ∀ h n, l.src = .qp h n → (mget {} (t.part p.val).acct n.val).preempts = min 0xFFFFFFFF ((mget {} q.acct n.val).preempts + 1)))
  ∧ ∀ (p : PartId) (s : State),
    let q := s.part p.val
    q.st = .switching → q.cancels = [] →
    (q.incoming = none → ∃ t, exec (.switchComplete p) s = .next t ∧ (t.part p.val).st = .idle ∧ (t.part p.val).launch = q.launch
        ∧ (t.part p.val).switches = min 0xFFFFFFFF (q.switches + 1) ∧ (t.part p.val).suspended = q.suspended ∧ t.mem = s.mem)
    ∧ (∀ (c : Cmd) (x : Sched), q.incoming = some (c.src, c.tag) → q.suspended = [] → s.cmdOf c.src c.tag = some c →
        s.launchReady p.val c = true → q.sched ((c.p 1).toNat % 2 ^ 32) = some x → (c.p 1).getLsbD 48 = false → x.stale = false →
        Fits q x.image → ∃ t l, exec (.switchComplete p) s = .next t ∧ (t.part p.val).launch = some l ∧ (t.part p.val).st = .running
          ∧ l.sched = x.id ∧ l.src = c.src ∧ l.tag = c.tag ∧ (t.part p.val).switches = min 0xFFFFFFFF (q.switches + 1))
    ∧ ∀ (sv : Saved) (x : Sched) (k : Nat) (o : Core), q.incoming = some (sv.launch.src, sv.launch.tag) → q.suspended = [sv] →
        q.sched sv.launch.sched = some x → q.launch = none →
        (sv.lost = false → sv.cores = [(k, o)] → k < 768 → s.partOfCore k = some p.val → ∃ t, exec (.switchComplete p) s = .next t
            ∧ (t.part p.val).launch = some sv.launch ∧ (t.part p.val).st = .running ∧ (t.part p.val).suspended = []
            ∧ (t.part p.val).switches = min 0xFFFFFFFF (q.switches + 1) ∧ (t.part p.val).logged = sv.logged ∧ (t.part p.val).cellar = sv.cellar
            ∧ (t.core k).banks = o.banks ∧ (t.core k).ring = o.ring ∧ (t.core k).tile = o.tile ∧ (t.core k).flg.f = o.flg.f
            ∧ (t.core k).run = (if o.run = .parked then .running else o.run) ∧ (t.core k).l1d = []
            ∧ ∀ e ∈ sv.bytes, (sv.bytes.filter (fun e' => e'.1 == e.1)).length = 1 → t.getByte e.1 = e.2)
        ∧ (sv.lost = true →
            let goes : Prop := x.stale = false ∧ sv.launch.peerFx = false ∧ sv.launch.rollbacks < 7 ∧ Fits q x.image
            (goes ∨ q.handling ≠ [] → ∃ t a, exec (.switchComplete p) s = .next t ∧ (t.part p.val).launch = some sv.launch
              ∧ (t.part p.val).abort = some a ∧ a.hw = true ∧ (t.part p.val).rolledBack = true ∧ (t.part p.val).suspended = [])
            ∧ (¬goes → q.handling = [] → ∃ t, exec (.switchComplete p) s = .next t ∧ (t.part p.val).launch = none
                ∧ (t.part p.val).suspended = []))

/-! ### Hardware errors -/

namespace Sys2Proof.Stated

/-- UKIND of a SOURCE (R389). -/
def kindOf (source : Nat) : Nat :=
  ([9, 1, 1, 1, 1, 1, 1, 0, 3, 3, 4, 4, 4, 4, 2, 5, 5, 5, 5] : List Nat).getD source 9

/-- Whether a unit is mapped out: its cluster, its lane or its pseudo-channel. -/
def UnitOut (s : State) (kind u : Nat) : Bool :=
  match kind with
  | 0 => (s.cluster (u / 5)).absent
  | 1 => (s.cluster (clusterOf u)).absent
  | 2 => (s.group (u / 4)).failed.getLsbD (u % 4)
  | 3 => (s.cluster u).absent
  | _ => (s.hbm (u / 64)).mapout.getLsbD (u % 64)

/-- A record of the log whose handling is complete: DONE, RESULT and ACTION (R390, R401). -/
def RecordDone (t : State) (n result action : Nat) : Prop :=
  ∃ ws, (n, ws) ∈ t.log.records ∧ (ws.getD 0 0).getLsbD 34 = true ∧ (ws.getD 0 0).toNat / 2 ^ 52 % 16 = result
    ∧ (ws.getD 0 0).toNat / 2 ^ 56 % 16 = action

end Sys2Proof.Stated

/-- A detection is recorded, stops the launch in progress and waits for a kiln test; one of a unit that is mapped out or already
handled does nothing, and one of the device as a whole is FATAL (R389, R390, R393, R401, R414). Detections of memory arrays follow
in order; a core that does not stop is one (R389). A rollback restores every line of the cellar (R406); a launch that a hardware
error stopped then starts again, or ends where that cannot be (R408, R409, R412), any other ends as what stopped it says (R413). -/
def Obligations.ErrorsHandled : Prop :=
  (∀ (d : Detection) (s : State), kindOf d.source = d.ukind → d.unit < ([240, 768, 64, 48, 768, 1] : List Nat).getD d.ukind 0 →
    (∀ p, d.ukind < 5 → ownerOfUnit s d.ukind d.unit = some p →
      let q := s.part p
      let known : Prop := UnitOut s d.ukind d.unit ∨ ∃ h ∈ q.handling, h.det.ukind = d.ukind ∧ h.det.unit = d.unit
      let waits (c : Cmd) : Prop := c.part = some p ∧ c.decided = false ∧ c.hw = some (d.ukind, d.unit)
      (known → d.source ≠ 0x0C → (∀ c ∈ s.cmds, ¬waits c) → exec (.hwErrorDetected (some d)) s = .next s)
      ∧ (∀ c ∈ s.cmds, known → d.source ≠ 0x0C → waits c → (∀ b ∈ s.cmds, waits b → b = c) → s.unitPending p d.ukind d.unit = false →
          (∀ b ∈ s.cmds, b.src = c.src → b.tag = c.tag → b = c) → ∃ t, exec (.hwErrorDetected (some d)) s = .next t
            ∧ Finished s t c 0x20 (0x0B + s.unitResult d.ukind d.unit % 2 ^ 8 * 2 ^ 8) 0 0)
      ∧ (d.source = 0x0C → d.addr < memEnd → ∃ t, exec (.hwErrorDetected (some d)) s = .next t ∧ d.addr / 64 ∈ t.poison)
      ∧ (¬UnitOut s d.ukind d.unit → (∀ h ∈ q.handling, ¬(h.det.ukind = d.ukind ∧ h.det.unit = d.unit)) →
          ∃ t h ws, exec (.hwErrorDetected (some d)) s = .next t ∧ (t.part p).handling = q.handling ++ [h] ∧ h.det = d ∧ h.at_ = s.ao ∧ h.action = 0
            ∧ h.record = s.log.next ∧ t.log.next = (s.log.next + 1) % 2 ^ 32 ∧ (s.log.next, ws) ∈ t.log.records
            ∧ (ws.getD 0 0).toNat % 2 ^ 32 = s.log.next % 2 ^ 32 ∧ (ws.getD 0 0).getLsbD 34 = false
            ∧ (ws.getD 0 0).toNat / 2 ^ 40 % 2 ^ 8 = d.source ∧ (ws.getD 0 0).toNat / 2 ^ 48 % 8 = d.ukind
            ∧ (p < 4 → (ws.getD 0 0).toNat / 2 ^ 60 = 2 ^ p) ∧ ws.getD 1 0 = s.gt.t ∧ ws.getD 2 0 = BitVec.ofNat 64 s.ao
            ∧ ws.getD 3 0 = BitVec.ofNat 64 d.unit ∧ ws.getD 4 0 = BitVec.ofNat 64 (d.addr % 2 ^ 48)
            ∧ (s.log.next < 2 ^ 32 → d.source ≠ 0x0C → EventSent s t p 0x0C 0 (BitVec.ofNat 64 s.log.next) 0) ∧ t.mem = s.mem
            ∧ (t.part p).launch = q.launch
            ∧ (∀ l, q.launch = some l → l.committed = false → q.abort = none → d.source ≠ 0x0B → ∃ a, (t.part p).abort = some a ∧ a.hw = true)
            ∧ (d.source = 0x0B → (t.part p).abort = q.abort)))
    ∧ (d.ukind = 5 → ∃ t, exec (.hwErrorDetected (some d)) s = .next t ∧ t.boot.fault = true ∧ t.boot.ready = false ∧ t.log.fatal = true
        ∧ (∀ c ∈ t.cmds, c.decided = true) ∧ ∀ p < 4, (s.part p).valid = true → (t.part p).launch = none)
    ∧ ∀ ds, s.detections = d :: ds → exec (.hwErrorDetected none) s = .next (({ s with detections := ds } : State).handleDetection d)
        ∧ (d.source ≠ 0x0C → exec (.hwErrorDetected none) s = exec (.hwErrorDetected (some d)) { s with detections := ds }))
  ∧ (∀ s : State, s.detections = [] → exec (.hwErrorDetected none) s = .next s)
  ∧ (∀ (k : CoreId) (p : Nat) (s : State), s.partOfCore k.val = some p → k.val < 768 →
    ((s.part p).abort = none → exec (.cwdog k) s = .next s)
    ∧ ((s.part p).abort ≠ none → exec (.cwdog k) s
        = exec (.hwErrorDetected (some { source := 6, ukind := 1, unit := k.val, master := k.val, addr := 0 })) s))
  ∧ (∀ (p : PartId) (bad : List Nat) (s : State) (l : Launch) (a : Abort),
    let q := s.part p.val
    q.launch = some l → q.abort = some a → q.rolledBack = false → (q.cellar.map (·.1)).Nodup →
    let lossy : Prop := q.lossy = true ∨ ∃ e ∈ q.cellar, e.1 ∈ bad
    let ends : Prop := lossy ∨ l.peerFx = true ∨ 7 ≤ l.rollbacks ∨ ∃ x, q.sched l.sched = some x ∧ (x.stale = true ∨ ¬Fits q x.image)
    (a.hw = true → q.handling = [] → ends → ∃ t, exec (.rollbackComplete p bad) s = .next t ∧ (t.part p.val).launch = none)
    ∧ (a.hw = true → q.handling ≠ [] ∨ (¬ends ∧ ∃ x, q.sched l.sched = some x) → ∃ t, exec (.rollbackComplete p bad) s = .next t ∧ (t.part p.val).rolledBack = true ∧ (t.part p.val).cellar = []
      ∧ (t.part p.val).launch = some l ∧ (t.part p.val).lossy = (q.lossy || q.cellar.any (fun e => bad.contains e.1))
      ∧ (∀ e ∈ q.cellar, e.1 ∉ bad → e.2.length = 64 → e.1 ∉ t.poison ∧ ∀ i < 64, t.getByte (e.1 * 64 + i) = e.2.getD i 0)
      ∧ (∀ b, (∀ e ∈ q.cellar, b / 64 ≠ e.1) → t.getByte b = s.getByte b)
      ∧ ∀ e, q.cellar.filter (fun x => bad.contains x.1) = [e] → EventSent s t p.val 0x0B 0 (BitVec.ofNat 64 (e.1 * 64 % 2 ^ 48)) 64)
    ∧ (a.hw = false → q.lossy = false → (∀ e ∈ q.cellar, e.1 ∉ bad) → ∃ t, exec (.rollbackComplete p bad) s = .next t
        ∧ (t.part p.val).launch = none ∧ (t.part p.val).abort = none
        ∧ ∀ c, s.cmdOf l.src l.tag = some c → (∀ b ∈ s.cmds, b ≠ c → b.src = c.src → b.tag ≠ c.tag) → l.src = .mgmt → a.status < 2 ^ 8 →
            ∃ c1, c1 % 2 ^ 16 = a.cause % 2 ^ 8 + a.sub % 2 ^ 8 * 2 ^ 8
              ∧ Finished s t c a.status c1 (BitVec.ofNat 64 (l.rollbacks % 2 ^ 8 + l.variant.getD 0xFF % 2 ^ 8 * 2 ^ 8)) 0))
  ∧ ∀ (p : PartId) (s : State) (l : Launch) (a : Abort) (x : Sched),
    let q := s.part p.val
    q.launch = some l → q.abort = some a → a.hw = true → q.rolledBack = true → q.handling = [] → q.st = .running → q.sched l.sched = some x →
    let ends : Prop := q.lossy = true ∨ l.peerFx = true ∨ 7 ≤ l.rollbacks ∨ x.stale = true ∨ ¬Fits q x.image
    (ends → ∃ t, exec (.repitch p) s = .next t ∧ (t.part p.val).launch = none)
    ∧ (¬ends → q.destroy = none → ∃ t l', exec (.repitch p) s = .next t ∧ (t.part p.val).launch = some l' ∧ (t.part p.val).abort = none ∧ l'.rollbacks = l.rollbacks + 1
      ∧ l'.seed = l.seed ∧ l'.epoch = l.epoch ∧ l'.sched = l.sched ∧ l'.tag = l.tag ∧ l'.variant = (outClusters q).head?
      ∧ (∀ n < x.image.tasks.length, (mget {} l'.tasks n).st = .idle) ∧ Cleared s t p.val)

/-- A kiln test that ends TRANSIENT returns its unit to use and is remembered for 24 hours; a third within them is REPEATED, and is
handled as LASTING and INCONCLUSIVE are: a lane is marked failed, a cluster or pseudo-channel is mapped out (R391, R394 to R397). At
its budget a test is INCONCLUSIVE (R394, R396). A map-out gates its cluster, and that of a pseudo-channel reports what bandwidth is
left, and the blocks of it that could not be corrected (R309, R310, R311, R410, R411). -/
def Obligations.KilnTestsEnd : Prop :=
  (∀ (u : Option PartId) (r : KilnRes) (ktime : Nat) (lost : List (Nat × Nat)) (s : State) (h : Handling) (rest : List Handling),
    s.handlingOf (u.map (·.val)) = h :: rest → h.action = 0 → (∀ p, u = some p → (s.part p.val).launch = none) →
    (∃ ws, (h.record, ws) ∈ s.log.records) → kindOf h.det.source = h.det.ukind →
    let d := h.det
    let before := (s.log.history.filter (fun e => e.1 == d.ukind && e.2.1 == d.unit && decide (s.ao < e.2.2))).length
    let i : Instr := .kilnTestResult u r ktime lost
    let code : Nat := match r with | .transient => 1 | .lasting => 2 | .inconclusive => 3
    let stays : Prop := ∃ p, u = some p ∧ (d.source = 0x0A ∨ d.source = 0x0C) ∧ d.addr < memEnd ∧ d.addr / 64 ∈ s.poison
    (∀ e, h.cmd = some e → ∃ t, exec i s = .next t ∧ t.handlingOf (u.map (·.val)) = rest ∧ t.log.history = s.log.history
        ∧ RecordDone t h.record code 0 ∧ ∀ c, e.1 = .mgmt → s.cmdOf e.1 e.2 = some c → (∀ b ∈ s.cmds, b.src = c.src → b.tag = c.tag → b = c) →
          Finished s t c 0 0 (BitVec.ofNat 64 code) 0)
    ∧ (h.cmd = none →
    (r = .transient → before < 2 → ∃ t, exec i s = .next t ∧ t.handlingOf (u.map (·.val)) = rest
        ∧ t.log.history = s.log.history ++ [(d.ukind, d.unit, s.ao + 86400000000000)] ∧ t.clusters = s.clusters
        ∧ (¬stays → RecordDone t h.record 1 1) ∧ (stays → RecordDone t h.record 1 7)
        ∧ ∀ p c, u = some p → d.ukind < 2 ∨ d.ukind = 3 → s.cmds.filter (fun b => b.part == some p.val && !b.decided && b.hw == some (d.ukind, d.unit)) = [c] →
            (∀ b ∈ s.cmds, b.src = c.src → b.tag = c.tag → b = c) → c.src = .mgmt → (∀ x ∈ s.detections, ¬(x.ukind = d.ukind ∧ x.unit = d.unit)) →
            (∀ x ∈ rest, ¬(x.det.ukind = d.ukind ∧ x.det.unit = d.unit)) → Finished s t c 0x20 (0x0B + 2 ^ 8) 0 0)
    ∧ (d.ukind < 2 ∨ d.ukind = 3 → ¬(r = .transient ∧ before < 2) → ∃ t h' rest', exec i s = .next t ∧ t.handlingOf (u.map (·.val)) = h' :: rest'
        ∧ rest' = rest ∧ h'.action = 2 ∧ h'.det = d ∧ h'.result = (match r with | .transient => 4 | .lasting => 2 | .inconclusive => 3)
        ∧ t.clusters = s.clusters)
    ∧ (d.ukind = 2 → ¬(r = .transient ∧ before < 2) → ∃ t, exec i s = .next t ∧ t.handlingOf (u.map (·.val)) = rest
        ∧ (t.group (d.unit / 4)).failed.getLsbD (d.unit % 4) = true
        ∧ RecordDone t h.record (match r with | .transient => 4 | .lasting => 2 | .inconclusive => 3) 3)
    ∧ (d.ukind = 4 → ¬(r = .transient ∧ before < 2) → ∃ t h', exec i s = .next t ∧ t.handlingOf (u.map (·.val)) = h' :: rest ∧ h'.action = 4
        ∧ (t.hbm (d.unit / 64)).migr = true ∧ (t.hbm (d.unit / 64)).mapout.getLsbD (d.unit % 64) = true)))
  ∧ (∀ (u : Option PartId) (s : State) (h : Handling) (rest : List Handling), s.handlingOf (u.map (·.val)) = h :: rest →
    exec (.kilnBudgetExpiry u) s = exec (.kilnTestResult u .inconclusive
      (([20000, 30000, 50000, 120000] : List Nat).getD h.det.ukind 200000) []) s)
  ∧ (∀ (c : ClusterId) (lost : List (Nat × Nat)) (s : State) (p : PartId) (h : Handling) (rest : List Handling),
    s.partOfCluster c.val = some p.val → (s.part p.val).handling = h :: rest → h.action = 2 → (s.part p.val).launch = none →
    (if h.det.ukind = 0 then h.det.unit / 5 else if h.det.ukind = 1 then clusterOf h.det.unit else h.det.unit) = c.val →
    (∃ ws, (h.record, ws) ∈ s.log.records) →
    ∃ t, exec (.clusterMapout c lost) s = .next t ∧ (t.cluster c.val).absent = true ∧ (t.part p.val).handling = rest
      ∧ (∀ b < 48, (t.part p.val).absent.getLsbD b = ((s.part p.val).absent.getLsbD b || decide (b = c.val)))
      ∧ (∀ sv ∈ (t.part p.val).suspended, sv.lost = true) ∧ (t.part p.val).suspended.length = (s.part p.val).suspended.length
      ∧ RecordDone t h.record (h.result % 16) 2
      ∧ ∀ tag cmd, h.cmd = some (.mgmt, tag) → s.cmdOf .mgmt tag = some cmd → (∀ b ∈ s.cmds, b.src = .mgmt → b.tag = tag → b = cmd) →
          (∀ x ∈ (s.part p.val).scheds, Fits (t.part p.val) x.image) → Finished s t cmd 0 0 0 0)
  ∧ ∀ (pc : Fin 768) (s : State) (p : PartId) (h : Handling) (rest : List Handling),
    let q := s.part p.val
    let owned := (List.range 768).filter (fun n => q.hasStack (n / 64))
    let live := owned.filter (fun n => !(s.hbm (n / 64)).mapout.getLsbD (n % 64))
    s.partOfStack (pc.val / 64) = some p.val → q.handling = h :: rest → h.action = 4 → h.det.unit = pc.val → q.launch = none →
    s.unfitted q (s.pcMove q pc.val) = [] → (∃ ws, (h.record, ws) ∈ s.log.records) → ∀ lines : List Nat,
    (∃ t : State, exec (.pcMapoutComplete pc ⟨[], lines⟩) s = .next (t.migrReleased p.val) ∧ (t.hbm (pc.val / 64)).migr = false
      ∧ (t.part p.val).handling = rest ∧ (t.part p.val).moves = q.moves ++ [s.pcMove q pc.val]
      ∧ EventSent s t p.val 0x01 0 (BitVec.ofNat 64 (live.length + owned.length * 2 ^ 10 + pc.val * 2 ^ 20)) 0
      ∧ RecordDone t h.record (h.result % 16) 4 ∧ t.mem = s.mem)
    ∧ ∀ b off, s.homeOf (64 * b) = some (pc.val, off) → b ∉ s.poison → ∃ t : State, exec (.pcMapoutComplete pc ⟨[b], []⟩) s = .next (t.migrReleased p.val)
      ∧ b ∈ t.poison ∧ (t.part p.val).lostRanges = q.lostRanges ++ [(64 * b, 64)] ∧ RecordDone t h.record (h.result % 16) 7

/-! ### Clocks, power and thermal limits -/

namespace Sys2Proof.Stated

/-- The dividers follow their terms (R417, R419): one that the rail is set for takes effect, a faster one waits for the rail to rise.
Larger codes are slower. -/
def Rated (s t : State) : Prop := t.clk.rail = s.clk.rail ∧ ∀ c ∈ s.liveClusters,
  let d := t.clk.div c
  let want := max d.cfg (max d.cap d.therm)
  (s.clk.rail ≤ want → d.eff = want) ∧ (want < s.clk.rail → d.eff = (s.clk.div c).eff ∧ t.clk.raising = true)

/-- ALERT_N after READY (R422, R423): the level, a thermal term or a diode at the warning threshold asserts it. -/
def AlertFollows (t : State) : Prop :=
  t.boot.alert = true ↔ t.boot.st = .ready ∧ (t.clk.level ≠ 0 ∨ (∃ e ∈ t.clk.divs, e.2.therm ≠ 0)
    ∨ ∃ e ∈ t.clk.temps, (16 * t.clk.alertT : Int) ≤ (BitVec.ofNat 16 e.2).toInt)

/-- One cluster's divider entry changes as given, and nothing else of the machine. -/
def DivBecomes (s t : State) (c : Nat) (d : Div) : Prop :=
  t = { s with clk := { s.clk with divs := t.clk.divs } } ∧ t.clk.div c = d ∧ ∀ j, j ≠ c → t.clk.div j = s.clk.div j

end Sys2Proof.Stated

/-- Droops are counted as they begin (R418); loss of lock and a rail out of range are FATAL detections (R389, R414, R416). A rail
that has settled lets the faster dividers take effect; a slower rail follows later (R419). The cap loop moves its level by the power
measured, and spreads it over the live clusters (R421, R422); PWR_CAP takes 36 to 104 steps (R420). A hot cluster slows by a step at
once and by further steps; at 115 °C the device trips (R423, R424). -/
def Obligations.ClocksThrottle : Prop :=
  (∀ (c : ClusterId) (s : State),
    ((s.clk.div c.val).stretching = false → ∃ t, exec (.droop c) s = .next t ∧ DivBecomes s t c.val
      { s.clk.div c.val with stretching := true, droop := min ((s.clk.div c.val).droop + 1) 0xFFFFFFFF })
    ∧ ((s.clk.div c.val).stretching = true → exec (.droop c) s = .next s)
    ∧ (∃ t, exec (.supplyRecovery c) s = .next t ∧ DivBecomes s t c.val { s.clk.div c.val with stretching := false })
    ∧ ∃ t, exec (.thermStepTimer c) s = .next t ∧ Rated s t ∧ AlertFollows t ∧ (∀ j, j ≠ c.val → (t.clk.div j).therm = (s.clk.div j).therm)
        ∧ (t.clk.div c.val).therm = if (s.clk.div c.val).hot then min 3 ((s.clk.div c.val).therm + 1)
            else if (s.clk.div c.val).cool then (s.clk.div c.val).therm - 1 else (s.clk.div c.val).therm)
  ∧ (∀ s : State, s.clk.lock = true → exec .pllLossOfLock s
      = exec (.hwErrorDetected (some { source := 0x10, ukind := 5, unit := 0, master := maltsterId, addr := 0 })) { s with clk := { s.clk with lock := false } })
  ∧ (∀ (r : Fin 9) (s : State), s.boot.pwrgood = true → exec (.railOutOfRange r) s
      = exec (.hwErrorDetected (some { source := 0x11, ukind := 5, unit := 0, master := maltsterId, addr := 0 })) s)
  ∧ (∀ s : State,
    (s.clk.raising = true → ∃ t, exec .railSettled s = .next t ∧ t.clk.raising = false ∧ t.clk.rail ≤ s.clk.rail
      ∧ ∀ c ∈ s.liveClusters, ∀ d, s.clk.div c = d → (t.clk.div c).eff = max d.cfg (max d.cap d.therm))
    ∧ (s.clk.lowering = true → ∃ t, exec .railLowerTimer s = .next t ∧ t.clk.lowering = false ∧ t.clk.divs = s.clk.divs ∧ s.clk.rail ≤ t.clk.rail
      ∧ ∀ c ∈ s.liveClusters, s.clk.rail ≤ (s.clk.div c).eff → t.clk.rail ≤ (s.clk.div c).eff))
  ∧ (∀ (rails : List (BitVec 16 × BitVec 16 × BitVec 16)) (s : State), rails.length = 9 → s.boot.st = .ready →
    let p := (rails.map (fun r => r.2.2.toNat)).sum
    let cap := s.clk.steps * 250
    let live := s.liveClusters
    ∃ t, exec (.capLoopSample rails) s = .next t ∧ t.clk.p = p ∧ t.clk.peak = max s.clk.peak p ∧ Rated s t ∧ AlertFollows t
      ∧ (∀ n < 9, ∀ r, rails[n]? = some r → mget (0, 0, 0) t.clk.rails n = (r.1.toNat, r.2.1.toNat, r.2.2.toNat))
      ∧ (cap < p → t.clk.level = min (s.clk.level + min 16 ((p - cap + 119) / 120)) (3 * live.length) ∧ t.clk.below = 0)
      ∧ (p + 500 < cap → s.clk.below = 9 → t.clk.level = min (s.clk.level - 1) (3 * live.length) ∧ t.clk.below = 0)
      ∧ (p + 500 < cap → s.clk.below ≠ 9 → t.clk.level = min s.clk.level (3 * live.length) ∧ t.clk.below = s.clk.below + 1)
      ∧ (p ≤ cap → cap ≤ p + 500 → t.clk.level = min s.clk.level (3 * live.length) ∧ t.clk.below = 0)
      ∧ ∀ i c, live[i]? = some c → (t.clk.div c).cap = t.clk.level / live.length + if i < t.clk.level % live.length then 1 else 0)
  ∧ (∀ (v : Word) (s : State), MaltsterWrites s →
    (36 ≤ v.toNat % 128 → v.toNat % 128 ≤ 104 → exec (.pwrCap maltsterWriter v) s = .next ({ s with clk := { s.clk with steps := v.toNat % 128 } } : State).hostsDrain)
    ∧ (v.toNat % 128 < 36 ∨ 104 < v.toNat % 128 →
        exec (.pwrCap maltsterWriter v) s = .next ({ s with clk := { s.clk with cfg := { err := true, off := 0x1000 } } } : State).hostsDrain))
  ∧ ∀ (diodes hbmT : List (BitVec 16)) (s : State), diodes.length = 192 → hbmT.length = 12 → s.boot.pwrgood = true → s.boot.st ≠ .cold →
    s.boot.trip = false →
    let reads (c : Nat) (deg : Int) : Prop := ∃ d < 4, 16 * deg ≤ (diodes.getD (4 * c + d) 0).toInt
    ∃ t, exec (.thermalSample diodes hbmT) s = .next t ∧ Rated s t
      ∧ (∀ i < 192, mget 0 t.clk.temps i = (diodes.getD i 0).toNat) ∧ (∀ i < 12, mget 0 t.clk.hbmTemps i = (hbmT.getD i 0).toNat)
      ∧ (∀ c ∈ s.liveClusters, ((t.clk.div c).hot = true ↔ reads c 105) ∧ ((t.clk.div c).cool = true ↔ ¬reads c 102)
          ∧ (reads c 105 → (s.clk.div c).hot = false → (t.clk.div c).therm = min 3 ((s.clk.div c).therm + 1))
          ∧ (¬reads c 105 ∨ (s.clk.div c).hot = true → (t.clk.div c).therm = (s.clk.div c).therm))
      ∧ ((∀ c < 48, ¬reads c 115) → AlertFollows t ∧ t.boot.trip = false ∧ t.log = s.log)
      ∧ ((∃ c < 48, reads c 115) → t.boot.trip = true ∧ t.boot.st = .tripped ∧ t.boot.fault = true ∧ t.log.fatal = true
          ∧ ∃ ws, (s.log.next, ws) ∈ t.log.records ∧ (ws.getD 0 0).toNat / 2 ^ 40 % 2 ^ 8 = 0x12)

/-! ### Reset, boot and test access -/

namespace Sys2Proof.Stated

/-- What a cold reset leaves (R431, R442): the reset state, but for fuses, flash, the levels of the reset pins, and the model's own queue,
free values and record of what was sent. -/
def ColdReset (s t : State) : Prop :=
  t = { State.reset with pending := s.pending, free := s.free, sent := s.sent, hosts := t.hosts,
                         boot := { svnf := s.boot.svnf, dir0 := s.boot.dir0, dir1 := s.boot.dir1 } }
    ∧ ∀ h < 4, t.host h = { perst := (s.host h).perst }

/-- Every host port that PERST_N does not hold starts link training; the upper port of a pair has no link (R346, R440). -/
def HostsTrain (s t : State) : Prop :=
  ∀ h < 4, (t.host h).link = if (s.host h).perst || s.upperPort h then (s.host h).link else .training

/-- A boot that stopped (R439). -/
def BootStopped (t : State) (code : Nat) : Prop :=
  t.boot.st = .stopped ∧ t.boot.fail = code ∧ t.boot.fault = true ∧ t.boot.ready = false

/-- The mode that BOOT_SEL selects once the root PLL has locked (R434). -/
def ModeEntered (t : State) (bootsel : Nat) : Prop :=
  (bootsel = 0 → t.boot.st = .locked ∧ t.boot.ready = false) ∧ (bootsel = 1 → t.boot.st = .recovery ∧ t.boot.ready = false)
    ∧ (bootsel = 2 → t.boot.st = .test ∧ t.boot.ready = false) ∧ (bootsel = 3 → BootStopped t 7)

/-- The straps are sampled and the boot begins (R431, R434). -/
def BootBegins (s t : State) (bootsel : BitVec 2) (smb : BitVec 3) : Prop :=
  t.boot.pwrgood = true ∧ t.boot.bootsel = bootsel.toNat ∧ t.boot.smbaddr = smb.toNat ∧ t.boot.held = false ∧ HostsTrain s t
    ∧ (bootsel ≠ 3 → t.boot.st = .straps ∧ t.boot.fault = s.boot.fault) ∧ (bootsel = 3 → BootStopped t 7) ∧ t.mem = s.mem

/-- What a warm reset clears and keeps (R442). -/
def WarmReset (s t : State) (cause : Nat) : Prop :=
  t.boot.rcause = cause ∧ t.boot.ready = false ∧ t.parts = [] ∧ t.cmds = [] ∧ t.cores = [] ∧ t.staged = [] ∧ t.devCommits = []
    ∧ t.mem = s.mem ∧ t.log.records = s.log.records ∧ t.log.next = s.log.next ∧ t.log.history = s.log.history ∧ t.mbx.locked = s.mbx.locked
    ∧ (∀ n, (t.mbx.chan n).snd = (s.mbx.chan n).snd ∧ (t.mbx.chan n).rcv = (s.mbx.chan n).rcv ∧ (t.mbx.chan n).v = (s.mbx.chan n).v)
    ∧ (∀ c, (t.cluster c).absent = (s.cluster c).absent) ∧ (∀ n, (t.hbm n).mapout = (s.hbm n).mapout) ∧ (∀ g, (t.group g).failed = (s.group g).failed)
    ∧ t.clk.steps = s.clk.steps ∧ t.boot.bootsel = s.boot.bootsel ∧ t.boot.smbaddr = s.boot.smbaddr ∧ t.boot.svnf = s.boot.svnf
    ∧ (∀ h < 4, (t.host h).link ≠ .up) ∧ t.boot.pair01 = false ∧ t.boot.pair23 = false ∧ t.boot.upd = .idle
    ∧ (s.clk.lock = true → ModeEntered t s.boot.bootsel) ∧ (s.clk.lock = false → t.boot.st = .straps)

/-- A directory copy that is valid, with its SEQ and ACTIVE (R435). -/
def GoodCopy (bs : List Byte) (seq active : Nat) : Prop :=
  bs.length = 64 ∧ leNat (bs.take 4) = seq ∧ leNat ((bs.drop 4).take 4) = active ∧ active ≤ 1 ∧ (∀ j, 8 ≤ j → j < 60 → bs.getD j 0 = 0)
    ∧ leNat (bs.drop 60) = (crc32c 0 (bs.take 60)).toNat

/-- The slot that the governing copy names ACTIVE (R435). -/
def ActiveSlot (d0 d1 : List Byte) (slot : Nat) : Prop :=
  (∃ n, GoodCopy d0 n slot ∧ ∀ m a, GoodCopy d1 m a → m < n) ∨ (∃ n, GoodCopy d1 n slot ∧ ∀ m a, GoodCopy d0 m a → m < n)

/-- A little-endian field of an image header (R437). -/
def headerField (i : SlotImage) (lo n : Nat) : Nat := leNat ((i.header.drop lo).take n)

/-- Check 1 of R438 over the layout of R437. -/
def HeaderGood (i : SlotImage) : Prop :=
  i.header.length = 4096 ∧ i.header.take 8 = [0x44, 0x58, 0x4B, 0x46, 0x57, 0x49, 0x4D, 0x47] ∧ headerField i 8 2 = 1 ∧ headerField i 10 1 ≤ 1
    ∧ (∀ j, j = 11 ∨ (121 ≤ j ∧ j < 128) ∨ (224 ≤ j ∧ j < 4096) → i.header.getD j 0 = 0)
    ∧ 4096 ≤ headerField i 20 4 ∧ headerField i 20 4 ≤ 1572864 ∧ headerField i 20 4 % 4096 = 0

/-- The FAIL code of the first check of R438 that a slot fails; none where it passes them all. -/
def Verdict (i : SlotImage) (svnf : Nat) (f : Option Nat) : Prop :=
  (¬HeaderGood i ∧ f = some 2) ∨ (HeaderGood i ∧ i.keyOk = false ∧ f = some 3) ∨ (HeaderGood i ∧ i.keyOk = true ∧ i.sigOk = false ∧ f = some 4)
    ∨ (HeaderGood i ∧ i.keyOk = true ∧ i.sigOk = true ∧ headerField i 12 4 < svnf ∧ f = some 5)
    ∨ (HeaderGood i ∧ i.keyOk = true ∧ i.sigOk = true ∧ svnf ≤ headerField i 12 4 ∧ f = none)

/-- The firmware of a slot starts on the maltster: on-chip memories are zero, and every stack and lane is still to train (R438, R440). -/
def SlotBoots (t : State) (slot : Nat) (fallbk : Bool) (i : SlotImage) : Prop :=
  t.boot.st = .verified ∧ t.boot.slot = slot ∧ t.boot.fallbk = fallbk ∧ t.boot.compat = headerField i 16 2 ∧ t.boot.mincompat = headerField i 18 2
    ∧ t.boot.imageSvn = headerField i 12 4 ∧ t.boot.training = BitVec.allOnes 12 ∧ t.boot.lanes = BitVec.allOnes 64
    ∧ (t.core maltsterCore).run = .running ∧ ∀ a, memEnd ≤ a → t.getByte a = 0

/-- A binding that is no reserved one (R238). -/
def GoodBinding (w : Word) : Prop :=
  idAssigned (w.toNat % 2 ^ 12) = true ∧ idAssigned (w.toNat / 2 ^ 12 % 2 ^ 12) = true
    ∧ (w.getLsbD 24 = true → w.toNat % 2 ^ 12 ≠ w.toNat / 2 ^ 12 % 2 ^ 12)
    ∧ (w.getLsbD 24 = false → w.toNat % 2 ^ 24 = 0 ∧ w.getLsbD 25 = false)

end Sys2Proof.Stated

/-- Resets clear and keep what R442 lists; the boot goes by the straps, the directory, the checks of R438 and the training of R440 to
READY, or stops (R431 to R445). -/
def Obligations.BootRuns : Prop :=
  (∀ s : State, ∃ t, exec .pwrgoodFall s = .next t ∧ ColdReset s t)
  ∧ (∀ (bs : BitVec 2) (smb : BitVec 3) (s : State),
    (s.boot.pwrgood = false → ∃ t, exec (.pwrgoodRise true bs smb) s = .next t ∧ BootBegins s t bs smb)
    ∧ (s.boot.pwrgood = false → exec (.pwrgoodRise false bs smb) s = .next { s with boot := { s.boot with pwrgood := true, held := true } })
    ∧ (s.boot.pwrgood = true → s.boot.held = true → ∃ t, exec (.coldResetHoldExpiry bs smb) s = .next t ∧ BootBegins s t bs smb))
  ∧ (∀ s : State, s.boot.st ≠ .cold → s.boot.trip = false →
    (s.boot.warmRunning = false → (∃ t, exec .warmRstN s = .next t ∧ WarmReset s t 1) ∧ ∃ t : State, exec (.bootCtlWarm maltsterWriter) s = .next t.hostsDrain ∧ WarmReset s t 2)
    ∧ (s.boot.warmRunning = true → exec .warmRstN s = .next s ∧ exec (.bootCtlWarm maltsterWriter) s = .next s.hostsDrain))
  ∧ (∀ s : State, s.boot.trip = true → exec .warmRstN s = .next s)
  ∧ (∀ s : State, s.boot.st = .straps →
    (s.boot.ready = false → ∃ t, exec .pllLock s = .next t ∧ t.clk = { s.clk with lock := true } ∧ ModeEntered t s.boot.bootsel)
    ∧ (s.clk.lock = false → ∃ t, exec .pllLockTimeout s = .next t ∧ BootStopped t 8))
  ∧ (∀ s : State, s.boot.st = .verified → s.boot.training = BitVec.allOnes 12 → ∃ t, exec .avsTimeout s = .next t ∧ BootStopped t 6)
  ∧ (∀ (d0 d1 : List Byte) (board : BoardCfg) (a b : SlotImage) (s : State) (slot : Nat), s.boot.st = .locked →
    let i : Instr := .imageVerify d0 d1 board a b
    let first := if slot = 0 then a else b
    let second := if slot = 0 then b else a
    ((∀ n x, ¬GoodCopy d0 n x ∧ ¬GoodCopy d1 n x) → ∃ t, exec i s = .next t ∧ BootStopped t 1)
    ∧ (ActiveSlot d0 d1 slot →
      (board.crcOk = false → ∃ t, exec i s = .next t ∧ BootStopped t 9)
      ∧ (board.crcOk = true →
        (Verdict first s.boot.svnf none → ∃ t, exec i s = .next t ∧ SlotBoots t slot false first ∧ t.boot.pair01 = board.pair01
            ∧ t.boot.pair23 = board.pair23 ∧ t.boot.vdm = board.vdm)
        ∧ (∀ f, Verdict first s.boot.svnf (some f) → Verdict second s.boot.svnf none → ∃ t, exec i s = .next t ∧ SlotBoots t (1 - slot) true second)
        ∧ ∀ f g, Verdict first s.boot.svnf (some f) → Verdict second s.boot.svnf (some g) → ∃ t, exec i s = .next t ∧ BootStopped t g)))
  ∧ (∀ (n : StackId) (s : State), s.boot.st = .verified → s.boot.training.getLsbD n.val = true →
    let left := s.boot.training &&& ~~~(BitVec.ofNat 12 (2 ^ n.val))
    (∃ t, exec (.hbmTrainingDone n true) s = .next t ∧ t.boot.training = left ∧ t.log = s.log ∧ (left ≠ 0 → t.hbms = s.hbms)
      ∧ (left = 0 → ∀ m < 12, t.hbm m = { s.hbm m with zbusy := true }))
    ∧ (mget 0 s.boot.attempts n.val < 2 → ∃ t, exec (.hbmTrainingDone n false) s = .next t ∧ t.boot.training = s.boot.training
        ∧ mget 0 t.boot.attempts n.val = mget 0 s.boot.attempts n.val + 1 ∧ t.hbms = s.hbms)
    ∧ (mget 0 s.boot.attempts n.val = 2 → ∃ t ws, exec (.hbmTrainingDone n false) s = .next t ∧ t.boot.training = left
        ∧ (t.hbm n.val).mapout = BitVec.allOnes 64 ∧ t.boot.st = .verified ∧ (s.log.next, ws) ∈ t.log.records
        ∧ (ws.getD 0 0).toNat / 2 ^ 40 % 2 ^ 8 = 0x0A ∧ (ws.getD 0 0).toNat / 2 ^ 48 % 8 = 4 ∧ (ws.getD 0 0).toNat / 2 ^ 32 % 8 = 6))
  ∧ (∀ (failed : BitVec 64) (s : State), s.boot.st = .verified ∨ s.boot.st = .zeroed → s.boot.lanes ≠ 0 →
    ∃ t, exec (.serdesCalibrationDone failed) s = .next t ∧ t.boot = { s.boot with lanes := 0 }
      ∧ ∀ l < 64, (t.group (l / 4)).failed.getLsbD (l % 4) = ((s.group (l / 4)).failed.getLsbD (l % 4) || failed.getLsbD l))
  ∧ (∀ (binds : List Word) (s : State), s.boot.st = .zeroed → s.boot.lanes = 0 →
    ∃ t, exec (.ready binds) s = .next t ∧ t.boot = { s.boot with st := .ready, ready := true, svnf := max s.boot.svnf (min 64 s.boot.imageSvn) }
      ∧ t.mbx.locked = true ∧ t.gt = {} ∧ t.ao = 0 ∧ t.mem = s.mem ∧ (s.mbx.locked = true → t.mbx = s.mbx)
      ∧ (s.mbx.locked = false → ∀ n < 256, ∀ w, binds[n]? = some w → GoodBinding w → (t.mbx.chan n).snd = w.toNat % 2 ^ 12
          ∧ (t.mbx.chan n).rcv = w.toNat / 2 ^ 12 % 2 ^ 12 ∧ (t.mbx.chan n).v = w.getLsbD 24 ∧ (t.mbx.chan n).ie = w.getLsbD 25))
  ∧ ∀ s : State,
    let shifted (t : State) (code : Nat) : Prop := ∃ dr n, t = { s with free := n, sent := .jtag code dr :: s.sent, boot := { s.boot with jtagIr := BitVec.ofNat 8 code } }
    exec .idcode s = .next { s with sent := .jtag 0x01 0xA07680D5 :: s.sent, boot := { s.boot with jtagIr := 0x01 } }
    ∧ (∃ t, exec .samplePreload s = .next t ∧ shifted t 0x02) ∧ (∃ t, exec .bypass s = .next t ∧ shifted t 0xFF)
    ∧ (∃ t, exec .extest s = .next t ∧ shifted t (if s.boot.st = .test then 0x00 else 0xFF))
    ∧ (∃ t, exec .extestPulse s = .next t ∧ shifted t (if s.boot.st = .test then 0x03 else 0xFF))
    ∧ (∃ t, exec .extestTrain s = .next t ∧ shifted t (if s.boot.st = .test then 0x04 else 0xFF))
    ∧ exec .tapReset s = .next { s with boot := { s.boot with jtagIr := 0x01 } }

/-! ### Management over MCTP -/

namespace Sys2Proof.Stated

/-- Where the management path is served (R428, R434, R439): on SMBus by the firmware, in RECOVERY mode and after a boot that stopped; over
PCIe VDM by the firmware alone, on a linked port whose board configuration enables it. -/
def Served (s : State) : Binding → Prop
  | .smbus => s.boot.st ∈ ([.verified, .zeroed, .ready, .recovery, .stopped] : List BootSt)
  | .vdm h => s.boot.st ∈ ([.verified, .zeroed, .ready] : List BootSt) ∧ s.boot.vdm.getLsbD h.val = true ∧ (s.host h.val).link = .up ∧ s.upperPort h.val = false

/-- A PLDM response of a type and command, with a completion code and data; the rest of the machine as given. -/
def PldmSends (s : State) (i : Instr) (r : State) (type cmd code : Nat) (data : List Word) : Prop :=
  exec i s = .next { r with sent := .pldm type cmd code data :: s.sent }

/-- A numeric sensor and what it reads (R427), in the units of its register. -/
def SensorReads (s : State) (id : Nat) (v : Int) : Prop :=
  (1 ≤ id ∧ id ≤ 0xC0 ∧ v = (BitVec.ofNat 16 (mget 0 s.clk.temps (id - 1))).toInt)
    ∨ (0x101 ≤ id ∧ id ≤ 0x10C ∧ v = (BitVec.ofNat 16 (mget 0 s.clk.hbmTemps (id - 0x101))).toInt)
    ∨ (0x201 ≤ id ∧ id ≤ 0x209 ∧ v = (mget (0, 0, 0) s.clk.rails (id - 0x201)).1)
    ∨ (0x211 ≤ id ∧ id ≤ 0x219 ∧ v = (mget (0, 0, 0) s.clk.rails (id - 0x211)).2.1)
    ∨ (id = 0x221 ∧ v = s.clk.p)
    ∨ (0x301 ≤ id ∧ id ≤ 0x330 ∧ v = if (s.cluster (id - 0x301)).absent then 0 else ((1800 / ((s.clk.div (id - 0x301)).eff + 1) : Nat) : Int))

/-- The repository of R427 by handle: the n-th entry's kind (0 numeric sensor, 1 state sensor, 2 numeric effecter) and ID. -/
def PdrEntry (n kind id : Nat) : Prop :=
  (n < 192 ∧ kind = 0 ∧ id = 1 + n) ∨ (192 ≤ n ∧ n < 204 ∧ kind = 0 ∧ id = 0x101 + (n - 192)) ∨ (204 ≤ n ∧ n < 213 ∧ kind = 0 ∧ id = 0x201 + (n - 204))
    ∨ (213 ≤ n ∧ n < 222 ∧ kind = 0 ∧ id = 0x211 + (n - 213)) ∨ (n = 222 ∧ kind = 0 ∧ id = 0x221) ∨ (223 ≤ n ∧ n < 271 ∧ kind = 0 ∧ id = 0x301 + (n - 223))
    ∨ (271 ≤ n ∧ n < 274 ∧ kind = 1 ∧ id = 0x401 + (n - 271)) ∨ (n = 274 ∧ kind = 2 ∧ id = 0x501)

/-- The thresholds of R427: diodes have three, package power one, at the cap. -/
def Thresholds (s : State) (id : Nat) (ws : List Word) : Prop :=
  (1 ≤ id → id ≤ 0xC0 → ws = [BitVec.ofNat 64 s.clk.alertT, 105, 115]) ∧ (id = 0x221 → ws = [BitVec.ofNat 64 (s.clk.steps * 25)])

/-- The slot that an update writes: the one that is not ACTIVE (R435, R444). -/
def UpdateSlot (b : Boot) (slot : Nat) : Prop :=
  (b.dir0.valid = true ∧ (b.dir1.valid = true → b.dir1.seq < b.dir0.seq) ∧ b.dir0.active ≤ 1 ∧ slot = 1 - b.dir0.active)
    ∨ (b.dir1.valid = true ∧ (b.dir0.valid = true → b.dir0.seq < b.dir1.seq) ∧ b.dir1.active ≤ 1 ∧ slot = 1 - b.dir1.active)

end Sys2Proof.Stated

/-- Set Endpoint ID takes an EID; a vendor message carries a packet of the management path (R352, R428). PLDM Type 2 reads the sensors
and sets the power cap, and refuses a cap outside R420 (R427). PLDM Type 5 takes an image into the slot that is not ACTIVE, verifies it
by R438 and names it ACTIVE in the older directory copy; a cancelled or failed update changes no directory copy (R444). The command and
completion codes are the family's, not the manual's. -/
def Obligations.ManagementServes : Prop :=
  (∀ (b : Binding) (s : State), ¬Served s b → (∀ e, exec (.setEndpointId b e) s = .next s) ∧ (∀ v k ws, exec (.mctpVendorMessage b v k ws) s = .next s)
    ∧ exec (.gettid b) s = .next s ∧ (∀ id v, exec (.setnumericeffectervalue b id v) s = .next s) ∧ (∀ d0 d1, exec (.requestupdate b d0 d1) s = .next s)
    ∧ (∀ o bs, exec (.requestfirmwaredata b o bs) s = .next s) ∧ exec (.applycomplete b) s = .next s ∧ exec (.cancelupdate b) s = .next s)
  ∧ ∀ (b : Binding) (s : State), Served s b →
    (∀ e : BitVec 8, e ≠ 0 → e ≠ 0xFF → ∃ t, exec (.setEndpointId b e) s = .next t ∧ t.boot = { s.boot with eid := e.toNat })
    ∧ (∀ (vendor : BitVec 16) (ws : List Word), s.boot.st = .ready → ws.length = 8 →
      let w0 := (ws.getD 0 0).toNat
      let tag := w0 / 2 ^ 16 % 2 ^ 16
      let mine := s.cmds.filter (fun c => c.src == .mgmt)
      (vendor.toNat ≠ s.boot.pciIds % 2 ^ 16 → exec (.mctpVendorMessage b vendor 1 ws) s = .next s)
      ∧ exec (.mctpVendorMessage b vendor 2 ws) s = .next s
      ∧ (vendor.toNat = s.boot.pciIds % 2 ^ 16 → (∃ c ∈ mine, c.tag = tag) → exec (.mctpVendorMessage b vendor 1 ws) s = .next s)
      ∧ (vendor.toNat = s.boot.pciIds % 2 ^ 16 → (∀ c ∈ mine, c.tag ≠ tag) → mine.length < 1024 → w0 / 2 ^ 9 % 2 ^ 7 = 0 → w0 / 2 ^ 32 = 0 →
          w0 % 2 ^ 8 = 0x60 ∨ w0 % 2 ^ 8 = 0x61 → ParamsIn ws → (∀ c ∈ s.cmds, c.op ≠ 0) →
          ∃ t c, exec (.mctpVendorMessage b vendor 1 ws) s = .next t ∧ t.cmds = s.cmds ++ [c] ∧ c.src = .mgmt ∧ c.tag = tag ∧ c.part = none
            ∧ c.words = ws ∧ c.started = false ∧ c.decided = false ∧ t.sent = s.sent)
      ∧ (vendor.toNat = s.boot.pciIds % 2 ^ 16 → (∀ c ∈ mine, c.tag ≠ tag) → mine.length < 1024 → w0 % 2 ^ 8 ∈ opcodes → w0 % 2 ^ 8 ≠ 0 →
          w0 % 2 ^ 8 ≠ 0x50 → headerReserved false (ws.getD 0 0) = false → paramsReserved ws = false →
          ¬(w0 % 2 ^ 8 = 0x11 ∧ w0.testBit 50 = false ∧ ws.getD 1 0 ≠ 0) → s.forbidden .mgmt ws = false → (∀ c ∈ s.cmds, c.op ≠ 0) →
          ∃ t c, exec (.mctpVendorMessage b vendor 1 ws) s = .next t ∧ t.cmds = s.cmds ++ [c] ∧ c.src = .mgmt ∧ c.tag = tag
            ∧ c.part = s.packetPart .mgmt ws ∧ c.words = ws ∧ c.started = false ∧ c.decided = false ∧ t.sent = s.sent))
    ∧ PldmSends s (.gettid b) s 0 0x02 0 [BitVec.ofNat 64 s.boot.tid]
    ∧ PldmSends s (.getpdrrepositoryinfo b) s 2 0x50 0 [0, 275]
    ∧ (∀ (handle : BitVec 32) (n kind id : Nat), handle.toNat - 1 = n → PdrEntry n kind id → ∃ ws, Thresholds s id ws
        ∧ PldmSends s (.getpdr b handle) s 2 0x51 0 ([BitVec.ofNat 64 (if n = 274 then 0 else n + 2), BitVec.ofNat 64 kind, BitVec.ofNat 64 id] ++ ws))
    ∧ (∀ handle : BitVec 32, 275 < handle.toNat → PldmSends s (.getpdr b handle) s 2 0x51 0x82 [])
    ∧ (∀ id : BitVec 16, (∀ v, SensorReads s id.toNat v → ∃ st, PldmSends s (.getsensorreading b id) s 2 0x11 0 [0, st, BitVec.ofInt 64 v])
        ∧ ((∀ v, ¬SensorReads s id.toNat v) → PldmSends s (.getsensorreading b id) s 2 0x11 0x80 []))
    ∧ PldmSends s (.getstatesensorreadings b 0x0401) s 2 0x21 0 [0, if s.boot.fault then 1 else if s.boot.ready then 0 else 2]
    ∧ PldmSends s (.getstatesensorreadings b 0x0402) s 2 0x21 0 [0, if (∃ e ∈ s.clk.divs, e.2.therm ≠ 0) then 1 else 0]
    ∧ PldmSends s (.getstatesensorreadings b 0x0403) s 2 0x21 0 [0, if s.clk.level ≠ 0 then 1 else 0]
    ∧ (∀ v : BitVec 32, (v.toNat % 25 = 0 → 900 ≤ v.toNat → v.toNat ≤ 2600 →
          PldmSends s (.setnumericeffectervalue b 0x0501 v) { s with clk := { s.clk with steps := v.toNat / 25 } } 2 0x31 0 [])
        ∧ (v.toNat % 25 ≠ 0 ∨ v.toNat < 900 ∨ 2600 < v.toNat → PldmSends s (.setnumericeffectervalue b 0x0501 v) s 2 0x31 0x02 []))
    ∧ PldmSends s (.getnumericeffectervalue b 0x0501) s 2 0x32 0 [0, BitVec.ofNat 64 (s.clk.steps * 25), BitVec.ofNat 64 (s.clk.steps * 25)]
    ∧ (∃ t ev, exec (.platformeventmessage b) s = .next t ∧ t.sent = .pldm 2 0x0B 0 [BitVec.ofNat 64 s.boot.tid, ev] :: s.sent)
    ∧ (∃ t d, exec (.querydeviceidentifiers b) s = .next t ∧ t.sent = .pldm 5 0x01 0 [d] :: s.sent)
    ∧ (s.boot.st = .stopped → s.boot.fail < 10 → PldmSends s (.getfirmwareparameters b) s 5 0x02 0
        ([0x000A, 0x0768] ++ ("BOOTFAIL-0x".toList.map (fun ch => BitVec.ofNat 64 ch.toNat) ++ [BitVec.ofNat 64 (0x30 + s.boot.fail)])))
    ∧ (s.boot.st ≠ .stopped → ∃ t v, exec (.getfirmwareparameters b) s = .next t ∧ t.sent = .pldm 5 0x02 0 [0x000A, 0x0768, v] :: s.sent ∧ t.boot = s.boot)
    ∧ (∀ d0 d1 : List Byte, (s.boot.upd ≠ .idle → PldmSends s (.requestupdate b d0 d1) s 5 0x10 0x81 [])
        ∧ (s.boot.upd = .idle → ∃ t, exec (.requestupdate b d0 d1) s = .next t ∧ t.boot.upd = .learn
            ∧ (∀ n a, GoodCopy d0 n a → t.boot.dir0 = { valid := true, seq := n, active := a })
            ∧ (∀ n a, GoodCopy d1 n a → t.boot.dir1 = { valid := true, seq := n, active := a })))
    ∧ (s.boot.upd = .learn → PldmSends s (.passcomponenttable b 0x0768) { s with boot := { s.boot with upd := .ready } } 5 0x13 0 [0])
    ∧ (∀ size : BitVec 32, s.boot.upd = .ready → 0 < size.toNat → size.toNat ≤ 0x1000000 →
        PldmSends s (.updatecomponent b 0x0768 size) { s with boot := { s.boot with upd := .download, updSize := size.toNat, updBytes := 0 } } 5 0x14 0 [0])
    ∧ (∀ (off : BitVec 32) (bytes : List Byte) (slot : Nat), s.boot.upd = .download → off.toNat = s.boot.updBytes → bytes ≠ [] →
        off.toNat + bytes.length ≤ s.boot.updSize → UpdateSlot s.boot slot → exec (.requestfirmwaredata b off bytes) s
          = .next { s with boot := { s.boot with updBytes := s.boot.updBytes + bytes.length }, sent := .flash (0x1000000 + 0x1000000 * slot + off.toNat) bytes :: s.sent })
    ∧ (s.boot.upd = .download → s.boot.updBytes = s.boot.updSize →
        PldmSends s (.transfercomplete b) { s with boot := { s.boot with upd := .verify } } 5 0x16 0 [0])
    ∧ (∀ img : SlotImage, s.boot.upd = .verify →
        (Verdict img s.boot.svnf none → PldmSends s (.verifycomplete b img) { s with boot := { s.boot with upd := .apply } } 5 0x17 0 [0])
        ∧ ∀ f, Verdict img s.boot.svnf (some f) → PldmSends s (.verifycomplete b img) s 5 0x17 0 [BitVec.ofNat 64 f])
    ∧ (∀ slot : Nat, s.boot.upd = .apply → UpdateSlot s.boot slot → s.boot.dir0.seq < 2 ^ 32 - 1 → s.boot.dir1.seq < 2 ^ 32 - 1 →
        let first : Prop := s.boot.dir0.valid = true ∧ (s.boot.dir1.valid = true → s.boot.dir1.seq < s.boot.dir0.seq)
        ∃ t bs off, exec (.applycomplete b) s = .next t ∧ t.boot.upd = .activate ∧ t.sent = .pldm 5 0x18 0 [0] :: .flash off bs :: s.sent
          ∧ (first → off = 0x8000 ∧ GoodCopy bs (s.boot.dir0.seq + 1) slot ∧ t.boot.dir0 = s.boot.dir0)
          ∧ (¬first → off = 0 ∧ GoodCopy bs (s.boot.dir1.seq + 1) slot ∧ t.boot.dir1 = s.boot.dir1))
    ∧ (s.boot.upd = .activate → PldmSends s (.activatefirmware b true) s 5 0x1A 0x8C []
        ∧ PldmSends s (.activatefirmware b false) { s with boot := { s.boot with upd := .idle } } 5 0x1A 0 [])
    ∧ PldmSends s (.getstatus b) s 5 0x1B 0 [BitVec.ofNat 64 (match s.boot.upd with
        | .idle => 0 | .learn => 1 | .ready => 2 | .download => 3 | .verify => 4 | .apply => 5 | .activate => 6)]
    ∧ (s.boot.upd ≠ .idle → PldmSends s (.cancelupdate b) { s with boot := { s.boot with upd := .idle } } 5 0x1D 0 [])

/-! ### Register writes -/

namespace Sys2Proof.Stated

/-- One core becomes as given, and nothing else of the machine changes. -/
def CoreBecomes (s t : State) (k : Nat) (c : Core) : Prop :=
  t = { s with cores := t.cores } ∧ t.core k = c ∧ ∀ j, j ≠ k → t.core j = s.core j

/-- The low four condition bits of a control register, and DZ. -/
def condsAt (v : Word) (dz : Bool) : Conds :=
  { nx := v.getLsbD 0, uf := v.getLsbD 1, of := v.getLsbD 2, nv := v.getLsbD 3, dz := dz }

end Sys2Proof.Stated

/-- A register write puts the RW fields in place, clears what W1C bits name, discards what is reserved or read-only, and a reserved
encoding leaves the register and sets CFG_ERR with its offset (R5). DROP discards the frozen entries (R89, R111), CLRREJ the rejection
report (R134), a write that changes PRECISE waits for the unit queues (R181), CORE_ISET sets the software interrupts (R179); MBX_CTL.LOCK locks the binding table (R238). The maltster writes every
register, a core its own within the ring limit of each (R17, R447), a host port through BAR0 its own HOST_ registers alone (R17). -/
def Obligations.RegistersWritten : Prop :=
  (∀ (m : Writer) (k : Fin 768) (v : Word) (s : State),
    let c := s.core k.val
    let w (off : Nat) (v : Word) : Instr := .registerWrite m (BitVec.ofNat 48 (coreRegAddr k.val off)) v
    let may (off limit : Nat) : Prop := MayWrite s m (coreRegAddr k.val off) limit
    (v.toNat / 2 ^ 8 % 4 ≠ 3 → (may 0x1008 1 → ∃ t, exec (.tuCtlDrop m k v) s = .next t ∧ CoreBecomes s t k.val { c with tile :=
          { c.tile with te := condsAt v false, teAovf := v.getLsbD 4, nanen := v.getLsbD 5, iqd := v.toNat / 2 ^ 8 % 4, frozen := [] } })
      ∧ (may 0x2008 1 → ∃ t, exec (.vsuCtlDrop m k v) s = .next t ∧ CoreBecomes s t k.val { c with vsu :=
          { c.vsu with te := condsAt v (v.getLsbD 4), nanen := v.getLsbD 5, iqd := v.toNat / 2 ^ 8 % 4, frozen := [] } }))
    ∧ (v.toNat / 2 ^ 8 % 4 = 3 → (may 0x1008 1 → ∃ t, exec (.tuCtlDrop m k v) s = .next t
          ∧ CoreBecomes s t k.val { c with tile := { c.tile with cfg := { err := true, off := 0x1008 } } })
      ∧ (may 0x2008 1 → ∃ t, exec (.vsuCtlDrop m k v) s = .next t ∧ CoreBecomes s t k.val { c with vsu := { c.vsu with cfg := { err := true, off := 0x2008 } } }))
    ∧ (may 0x3008 1 → ∃ t, exec (.clrrej m k v) s = .next t ∧ CoreBecomes s t k.val { c with sp :=
          { c.sp with rejie := v.getLsbD 0, rejOff := 0, rejReason := 0, rejSrc := 0, rejLenM1 := 0, rejCount := 0 } })
    ∧ (may 0x20 1 → ∃ t, exec (.coreIset m k v) s = .next t ∧ CoreBecomes s t k.val { c with ipend := c.ipend ||| (v.truncate 16 &&& 0xFFE0) })
    ∧ (may 0x08 1 → v.getLsbD 1 = c.preciseM ∨ (c.tile.queue = [] ∧ c.vsu.queue = []) → ∃ t, exec (.precise m k v) s = .next t
        ∧ CoreBecomes s t k.val { c with tmode := v.getLsbD 0, preciseM := v.getLsbD 1 })
    ∧ (may 0x08 1 → v.getLsbD 1 ≠ c.preciseM → c.tile.queue ≠ [] ∨ c.vsu.queue ≠ [] → exec (.precise m k v) s = .next s)
    ∧ (may 0x00 1 → ∃ t, exec (w 0x00 v) s = .next t ∧ CoreBecomes s t k.val { c with cfg := { c.cfg with err := c.cfg.err && !v.getLsbD 0 } })
    ∧ (may 0x10 1 → ∃ t, exec (w 0x10 v) s = .next t ∧ CoreBecomes s t k.val { c with ie := v.truncate 16, gie := v.getLsbD 16 } ∧ coreRegRead (t.core k.val) 0x10 = v &&& 0x1FFFF)
    ∧ (may 0x18 3 → ∃ t, exec (w 0x18 v) s = .next t ∧ CoreBecomes s t k.val c)
    ∧ (may 0x808 3 → ∃ t, exec (w 0x808 v) s = .next t ∧ CoreBecomes s t k.val { c with rt :=
        { c.rt with nx := c.rt.nx && !v.getLsbD 4, of := c.rt.of && !v.getLsbD 5, nv := c.rt.nv && !v.getLsbD 6, iovf := c.rt.iovf && !v.getLsbD 7 } })
    ∧ (may 0x3000 1 → ∃ t, exec (w 0x3000 v) s = .next t ∧ CoreBecomes s t k.val { c with sp :=
        { c.sp with cfg := { c.sp.cfg with err := c.sp.cfg.err && !v.getLsbD 0 }, rej := c.sp.rej && !v.getLsbD 24, ue := c.sp.ue && !v.getLsbD 25 } })
    ∧ (∀ n : Fin 4, (may (0x80 + 8 * n.val) 0 → ∃ t, exec (w (0x80 + 8 * n.val) v) s = .next t ∧ CoreBecomes s t k.val { c with vbase := c.vbase.set n (v.toNat / 2 ^ 12 % 2 ^ 36) }
          ∧ coreRegRead (t.core k.val) (0x80 + 8 * n.val) = v &&& 0x0000FFFFFFFFF000)
      ∧ (may (0x40 + 0x10 * n.val) 0 →
         let limg := v.toNat % 2 ^ 16
         let topg := v.toNat / 2 ^ 16 % 2 ^ 17
         ((c.banks.get n).busy = true ∨ topg ≤ limg ∨ 0x10000 < topg → ∃ t, exec (w (0x40 + 0x10 * n.val) v) s = .next t
            ∧ CoreBecomes s t k.val { c with cfg := { err := true, off := 0x40 + 0x10 * n.val } })
         ∧ ((c.banks.get n).busy = false → limg < topg → topg ≤ 0x10000 → ∃ t, exec (w (0x40 + 0x10 * n.val) v) s = .next t
            ∧ CoreBecomes s t k.val { c with dsr := c.dsr.set n ⟨limg, topg⟩ }))))
  ∧ (∀ s : State, MaltsterWrites s →
    exec (.mbxCtlLock maltsterWriter) s = .next ({ s with mbx := { s.mbx with locked := true } } : State).hostsDrain
    ∧ (∀ (n : StackId) (v : Word), exec (.registerWrite maltsterWriter (BitVec.ofNat 48 (devRegAddr 3 n.val 0)) v) s = .next (s.setHbm n.val
        { s.hbm n.val with cfg := { (s.hbm n.val).cfg with err := (s.hbm n.val).cfg.err && !v.getLsbD 0 }, ue := (s.hbm n.val).ue && !v.getLsbD 24 }).hostsDrain)
    ∧ ∀ (n : Fin 256) (v : Word),
      let i : Instr := .registerWrite maltsterWriter (BitVec.ofNat 48 (devRegAddr 1 0 (0x1000 + 8 * n.val))) v
      (s.mbx.locked = true ∨ ¬GoodBinding v → exec i s = .next ({ s with mbx := { s.mbx with cfg := { err := true, off := 0x1000 + 8 * n.val } } } : State).hostsDrain)
      ∧ (s.mbx.locked = false → GoodBinding v → ∃ t : State, exec i s = .next t.hostsDrain ∧ t = { s with mbx := { s.mbx with chans := t.mbx.chans } }
          ∧ (t.mbx.chan n.val).snd = v.toNat % 2 ^ 12 ∧ (t.mbx.chan n.val).rcv = v.toNat / 2 ^ 12 % 2 ^ 12 ∧ (t.mbx.chan n.val).v = v.getLsbD 24
          ∧ (t.mbx.chan n.val).ie = v.getLsbD 25 ∧ ∀ m, m ≠ n.val → t.mbx.chan m = s.mbx.chan m))
  ∧ (∀ (k : Fin 768) (pa : BitVec 48) (v : Word) (s : State) (p : Nat), (s.core k.val).issues = true → s.partOfCore k.val = some p → pa.toNat % 8 = 0 →
    let ring := (s.core k.val).ring.val
    let i : Instr := .registerWrite (.core ⟨k.val, by omega⟩) pa v
    let faults (code cause : Nat) : Prop := exec i s = .next (s.raise k.val { code := code, cause := cause, faddr := BitVec.ofNat 64 pa.toNat })
    (∀ b n off, placeOf pa.toNat = .devReg b n off → faults 6 6)
    ∧ (placeFault s p false .write pa.toNat pa.toNat = none →
      (∀ j off, placeOf pa.toNat = .coreReg j off → (j ≠ k.val → faults 6 7) ∧ (j = k.val → coreRegRing off v < ring → faults 2 0))
      ∧ ∀ c off, placeOf pa.toNat = .clReg c off → clusterRegRings off ≤ ring → faults 2 0))
  ∧ (∀ (h : HostPort) (k : Fin 768) (c : ClusterId) (ch : Fin 16) (n : BitVec 16) (v : Word) (s : State),
    ∀ i ∈ ([.tuCtlDrop (.host h) k v, .vsuCtlDrop (.host h) k v, .clrrej (.host h) k v, .coreIset (.host h) k v, .precise (.host h) k v,
      .l2Disable (.host h) c v, .l2Waypwr (.host h) c v, .l2Lock (.host h) c v, .dmaChnpop (.host h) c ch n, .dmaMismClear (.host h) c ch,
      .fprMismClear (.host h) c v, .mbxCtlLock (.host h), .clkGtime (.host h) v, .pwrCap (.host h) v, .bootCtlWarm (.host h)] : List Instr),
      exec i s = .next s)
  ∧ ∀ (h : HostPort) (pa : BitVec 48) (v : Word) (s : State), pa.toNat % 8 = 0 →
    (∀ off, placeOf pa.toNat = .devReg 5 h.val off → PortLive s h → off = 8 → ∃ t : State, exec (.registerWrite (.host h) pa v) s = .next t.hostsDrain
        ∧ t = { s with hosts := t.hosts } ∧ t.host h.val = { s.host h.val with evqp := v.toNat % 2 ^ 6, winb := v.toNat / 2 ^ 8 % 2 ^ 8 })
    ∧ ((∃ b i off, placeOf pa.toNat = .devReg b i off ∧ ¬(b = 5 ∧ i = h.val)) ∨ (∃ k off, placeOf pa.toNat = .coreReg k off) →
        exec (.registerWrite (.host h) pa v) s = .next s)

/-! ### The machine as a whole -/

/-- The command at the front of the queue takes its effect with the queue's rest in place (the model's own queue, log 1). -/
def Obligations.StepRunsFront : Prop :=
  ∀ (c : Instr) (rest : List Instr) (s : State), step { s with pending := c :: rest } = exec c { s with pending := rest }

/-- What reset leaves (R431, R434, R442): the device waits in cold reset with READY low; no partition exists, nothing is bound, no error is
recorded, no memory byte is set, the power cap is 2,600 W (R420), the increment of GTIME is 10 ns (R321), and no interrupt
is enabled or pending. The model's own choices (DESIGN CHOICE, DEDUCED): no core runs a task (log 7), a byte that nothing has written reads as 0
(log 8), memory has its canonical form, and the queue is empty (log 1). -/
def Obligations.ResetState : Prop :=
  State.reset.pending = [] ∧ State.reset.boot.ready = false ∧ State.reset.boot.st = .cold ∧ State.reset.boot.fault = false
    ∧ State.reset.boot.alert = false ∧ State.reset.boot.trip = false
    ∧ State.reset.boot.rcause = 0 ∧ State.reset.boot.jtagIr = 0x01 ∧ State.reset.clk.steps = 104 ∧ State.reset.clk.lock = false
    ∧ State.reset.clk.level = 0 ∧ State.reset.gt.inc = 0x0A00000000 ∧ State.reset.gt.t = 0 ∧ State.reset.log.next = 0 ∧ State.reset.log.records = []
    ∧ State.reset.mbx.locked = false ∧ State.reset.cmds = [] ∧ (∀ p < 4, (State.reset.part p).valid = false)
    ∧ (∀ k < 769, (State.reset.core k).run = .idle ∧ (State.reset.core k).ie = 0 ∧ (State.reset.core k).ipend = 0 ∧ (State.reset.core k).gie = false)
    ∧ (∀ c < 48, (State.reset.cluster c).absent = false ∧ (State.reset.cluster c).flags = 0) ∧ (∀ n < 12, (State.reset.hbm n).mapout = 0)
    ∧ (∀ n < 256, (State.reset.mbx.chan n).v = false) ∧ (∀ a, State.reset.getByte a = 0) ∧ State.reset.Canonical

/-- Addressed memory and the maltster's own memory keep their canonical form whatever command takes effect: equal memories are equal data. -/
def Obligations.StepKeepsInvariant : Prop :=
  ∀ s t : State, s.Canonical → step s = .next t → t.Canonical

namespace Sys2Proof.Stated

/-- The instructions without operand bytes that every control core has (R193, R203). -/
def plainAll (k : CoreId) : List Instr :=
  [.nop k, .drop k, .dup k, .swap k, .over k, .rot k, .nip k, .tuck k, .twoDrop k, .twoDup k, .toR k, .fromR k, .fetchR k,
   .rdrop k, .add k, .sub k, .mul k, .mulhs k, .mulhu k, .divs k, .divu k, .rems k, .remu k, .neg k, .abs k, .mins k, .maxs k,
   .minu k, .maxu k, .and k]
  ++ [.or k, .xor k, .not k, .shl k, .shr k, .sar k, .rol k, .ror k, .popc k, .clz k, .ctz k, .sext8 k, .sext16 k, .sext32 k,
   .zext32 k, .eq k, .ne k, .lts k, .ltu k, .les k, .leu k, .gts k, .gtu k, .ges k, .geu k, .zeq k, .sel k, .calli k, .ret k,
   .jmpi k]
  ++ [.dinv k, .dinva k, .iinv k, .iinva k, .mfence k, .waiti k, .rdtime k, .rdcyc k, .rddsp k, .rdrsp k]

/-- The instructions without operand bytes that the maltster lacks (R203). -/
def plainCluster (k : CoreId) : List Instr :=
  [.tsync k, .vcache k, .vsync k, .fenceF k, .rfset k, .rcfinc k, .rcfdec k, .l2fl k, .l2fla k, .l2inv k, .l2inva k, .tend k]

/-- The encoder's bytes, whatever follows them, decode to the instruction and its length. -/
def RoundTrips (k : CoreId) (i : Instr) : Prop :=
  ∃ bs, encodeCore i = some bs ∧ ∀ rest : List Byte, decodeCore k (bs ++ rest) = .ok (i, bs.length)

/-- The form a decoder meets a load, store or trap in: no error found yet. -/
def clean : Finding := {}

end Sys2Proof.Stated

/-- Every control-core instruction, with every operand its encoding admits, decodes from its encoding whatever bytes follow (R185 to R193),
on a core of a cluster; the maltster has those that R203 leaves it. -/
def Obligations.EncodingsRoundTrip : Prop :=
  (∀ (k : CoreId) (d : Disp) (b : BitVec 8) (h : BitVec 16) (w : BitVec 32) (q : BitVec 64) (r : Fin 8),
    (∀ i ∈ plainAll k, RoundTrips k i)
    ∧ (∀ i ∈ ([.pick k b, .lit8 k b, .addi8 k b, .br8 k b, .bz8 k b, .bnz8 k b, .dbnz8 k b, .mbpost k b, .mbpoll k b] : List Instr), RoundTrips k i)
    ∧ (∀ i ∈ ([.lit32 k w, .litu32 k w, .leapc k w, .addi32 k w, .br32 k w, .bz32 k w, .bnz32 k w, .dbnz32 k w, .call32 k w, .lit16 k h, .lit64 k q] : List Instr), RoundTrips k i)
    ∧ (∀ i ∈ ([.ld8u k d clean, .ld8s k d clean, .ld16u k d clean, .ld16s k d clean, .ld32u k d clean, .ld32s k d clean, .ld64 k d clean, .st8 k d clean, .st16 k d clean, .st32 k d clean, .st64 k d clean, .stiQ k d q clean,
          .lea k d, .trap k b .clean, .gret k r] : List Instr), RoundTrips k i))
  ∧ ∀ (k : CoreId) (d : Disp) (b : BitVec 8) (e : EngKind) (f : Fin 64) (c : Fin 16) (ta tb : Fin 8) (a : Fin 2) (s1 : Option (BitVec 24))
      (s2 : Option (BitVec 24 × BitVec 24)), k.val < 768 →
    (∀ i ∈ plainCluster k, RoundTrips k i)
    ∧ (∀ i ∈ ([.tcfg k b, .clfset k b, .clfclr k b, .clftest k b, .clfwait k b, .engq k e, .engw k e] : List Instr), RoundTrips k i)
    ∧ (∀ i ∈ ([.fset k f, .fclr k f, .ftest k f, .fwait k f, .fwatch k f, .dmaq k c, .dmaw k c, .cfinc k c, .cfdec k c, .cfread k c, .cfwait k c] : List Instr), RoundTrips k i)
    ∧ ∀ i ∈ ([.vexec k ⟨d, none⟩, .tld k ta d s1, .tst k ta d s1, .tzero k (.tile ta), .tzero k (.acc a), .tmma k a ta tb s2, .tsta k a d, .tcva k ta a s1,
          .tspill k a d, .tfill k a d] : List Instr), RoundTrips k i
end

