-- ==== Sys2Proof/Laws/Memory.lean ====
section
/-!
SUPPORT. The laws of the memory: a read after a write, and the canonical form that every write keeps.
-/
namespace Sys2Proof.Laws
open Sys2Proof Sys2Proof.Machine

theorem memGet_filter_ne (m : List Host.Cell) (a : Nat) :
    memGet (m.filter (fun e => e.1 != a)) a = 0 := by
  induction m with
  | nil => rfl
  | cons e m ih =>
    by_cases h : e.1 = a
    · simp [List.filter, h, ih]
    · rw [List.filter_cons_of_pos (by simpa using h)]
      simp [h, memGet, ih]

theorem memGet_filter_other (m : List Host.Cell) (p : Nat → Bool) (a : Nat) (h : p a = true) :
    memGet (m.filter (fun e => p e.1)) a = memGet m a := by
  induction m with
  | nil => rfl
  | cons e m ih =>
    by_cases he : e.1 = a
    · subst he; simp [List.filter, h, memGet]
    · cases hp : p e.1 <;> simp [List.filter, hp, memGet, he, ih]

theorem memGet_insert (m : List Host.Cell) (a : Nat) (b : Byte) (a' : Nat) (h : memGet m a = 0) (hn : ∀ e ∈ m, e.1 ≠ a) :
    memGet (memInsert m a b) a' = if a' = a then b else memGet m a' := by
  induction m with
  | nil =>
    by_cases h' : a' = a
    · simp [memInsert, memGet, h']
    · simp [memInsert, memGet, h', Ne.symm h']
  | cons e m ih =>
    have hne : e.1 ≠ a := hn e (by simp)
    have hn' : ∀ e ∈ m, e.1 ≠ a := fun x hx => hn x (by simp [hx])
    have h' : memGet m a = 0 := by simpa [memGet, hne] using h
    unfold memInsert
    by_cases hl : a < e.1
    · simp only [hl, if_true, memGet]
      by_cases h2 : a' = a
      · simp [h2]
      · simp [h2, Ne.symm h2]
    · simp only [hl, if_false, memGet, ih h' hn']
      by_cases h2 : a' = a
      · subst h2; simp [hne]
      · simp [h2]

/-- A read after a write gives the byte written at its address and the old byte at every other. -/
@[simp] theorem memGet_put (m : List Host.Cell) (a : Nat) (b : Byte) (a' : Nat) :
    memGet (memPut m a b) a' = if a' = a then b else memGet m a' := by
  unfold memPut
  by_cases hb : b = 0
  · subst hb
    simp only [if_true]
    by_cases h : a' = a
    · subst h; simp [memGet_filter_ne]
    · simp only [h, if_false]
      exact memGet_filter_other m (fun x => x != a) a' (by simpa using h)
  · simp only [hb, if_false]
    rw [memGet_insert _ _ _ _ (memGet_filter_ne m a) (by intro e he; simpa using (List.mem_filter.mp he).2)]
    by_cases h : a' = a
    · simp [h]
    · simp only [h, if_false]
      exact memGet_filter_other m (fun x => x != a) a' (by simpa using h)

theorem memGet_put_self (m : List Host.Cell) (a : Nat) (b : Byte) : memGet (memPut m a b) a = b := by simp

theorem memGet_put_ne (m : List Host.Cell) (a a' : Nat) (b : Byte) (h : a' ≠ a) :
    memGet (memPut m a b) a' = memGet m a' := by simp [h]

/-- Several bytes written at consecutive addresses leave every address outside them alone. -/
theorem memGet_putN_outside (bs : List Byte) (m : List Host.Cell) (a a' : Nat)
    (h : a' < a ∨ a + bs.length ≤ a') : memGet (memPutN m a bs) a' = memGet m a' := by
  induction bs generalizing m a with
  | nil => rfl
  | cons b bs ih =>
    simp only [memPutN, List.length_cons] at *
    rw [ih _ _ (by omega), memGet_put_ne _ _ _ _ (by omega)]

/-- Inside them each address reads the byte written to it. -/
theorem memGet_putN_inside (bs : List Byte) (m : List Host.Cell) (a i : Nat) (h : i < bs.length) :
    memGet (memPutN m a bs) (a + i) = bs[i] := by
  induction bs generalizing m a i with
  | nil => simp at h
  | cons b bs ih =>
    cases i with
    | zero =>
      simp only [memPutN, Nat.add_zero, List.getElem_cons_zero]
      rw [memGet_putN_outside _ _ _ _ (by omega)]; simp
    | succ i =>
      simp only [memPutN, List.getElem_cons_succ]
      rw [show a + (i + 1) = a + 1 + i by omega]
      exact ih _ _ _ (by simpa using h)

theorem memWfFrom_mono (m : List Host.Cell) (lo lo' : Nat) (h : lo' ≤ lo) (hm : memWfFrom lo m = true) :
    memWfFrom lo' m = true := by
  cases m with
  | nil => rfl
  | cons e m =>
    simp only [memWfFrom, Bool.and_eq_true, decide_eq_true_eq] at *
    exact ⟨⟨by omega, hm.1.2⟩, hm.2⟩

theorem memWfFrom_filter (m : List Host.Cell) (p : Host.Cell → Bool) (lo : Nat) (h : memWfFrom lo m = true) :
    memWfFrom lo (m.filter p) = true := by
  induction m generalizing lo with
  | nil => rfl
  | cons e m ih =>
    simp only [memWfFrom, Bool.and_eq_true, decide_eq_true_eq] at h
    cases hp : p e
    · simp only [List.filter, hp]
      exact memWfFrom_mono _ _ _ (by omega) (ih _ h.2)
    · simp only [List.filter, hp, memWfFrom, Bool.and_eq_true, decide_eq_true_eq]
      exact ⟨h.1, ih _ h.2⟩

theorem memWfFrom_insert (m : List Host.Cell) (a : Nat) (b : Byte) (lo : Nat) (hlo : lo ≤ a) (hb : b ≠ 0)
    (hn : ∀ e ∈ m, e.1 ≠ a) (h : memWfFrom lo m = true) : memWfFrom lo (memInsert m a b) = true := by
  induction m generalizing lo with
  | nil => simpa [memInsert, memWfFrom, hlo] using hb
  | cons e m ih =>
    simp only [memWfFrom, Bool.and_eq_true, decide_eq_true_eq] at h
    have hne : e.1 ≠ a := hn e (by simp)
    unfold memInsert
    by_cases hl : a < e.1
    · simp only [hl, if_true, memWfFrom, Bool.and_eq_true, decide_eq_true_eq]
      exact ⟨⟨hlo, by simpa using hb⟩, ⟨⟨by omega, h.1.2⟩, h.2⟩⟩
    · simp only [hl, if_false, memWfFrom, Bool.and_eq_true, decide_eq_true_eq]
      exact ⟨h.1, ih _ (by omega) (fun x hx => hn x (by simp [hx])) h.2⟩

/-- A write keeps the canonical form. -/
theorem memWf_put (m : List Host.Cell) (a : Nat) (b : Byte) (h : Memory.wf m = true) :
    Memory.wf (memPut m a b) = true := by
  unfold Memory.wf memPut at *
  have hf := memWfFrom_filter m (fun e => e.1 != a) 0 h
  by_cases hb : b = 0
  · simpa [hb] using hf
  · simp only [hb, if_false]
    exact memWfFrom_insert _ _ _ _ (Nat.zero_le _) hb
      (by intro e he; simpa using (List.mem_filter.mp he).2) hf

theorem memWf_putN (bs : List Byte) (m : List Host.Cell) (a : Nat) (h : Memory.wf m = true) :
    Memory.wf (memPutN m a bs) = true := by
  induction bs generalizing m a with
  | nil => exact h
  | cons b bs ih => exact ih _ _ (memWf_put _ _ _ h)

/-- Clearing a range keeps the canonical form. -/
theorem memWf_zero (m : List Host.Cell) (lo hi : Nat) (h : Memory.wf m = true) :
    Memory.wf (memZero m lo hi) = true := memWfFrom_filter m _ 0 h

theorem memGet_zero (m : List Host.Cell) (lo hi a : Nat) :
    memGet (memZero m lo hi) a = if lo ≤ a ∧ a < hi then 0 else memGet m a := by
  induction m with
  | nil => simp [memZero, memGet]
  | cons e m ih =>
    unfold memZero at *
    by_cases he : lo ≤ e.1 ∧ e.1 < hi
    · rw [List.filter_cons_of_neg (by simp [he])]
      rw [ih]
      by_cases ha : lo ≤ a ∧ a < hi
      · simp [ha]
      · have : e.1 ≠ a := by rintro rfl; exact ha he
        simp [ha, memGet, this]
    · rw [List.filter_cons_of_pos (by simp; omega)]
      simp only [memGet]
      rw [ih]
      by_cases hea : e.1 = a
      · subst hea; simp [he]
      · simp [hea]

end Sys2Proof.Laws
end

