-- ==== Sys2Proof/Laws/Maps.lean ====
section
/-!
SUPPORT. The laws of the sparse maps that hold units and registers by number.
-/
namespace Sys2Proof.Laws
open Sys2Proof Sys2Proof.Machine

/-- What a map holds after one key is written. -/
@[simp] theorem mget_mput {α : Type} (d : α) (m : List (Nat × α)) (k : Nat) (v : α) (j : Nat) :
    mget d (mput m k v) j = if j = k then v else mget d m j := by
  have hs : (k = j) = (j = k) := propext eq_comm
  induction m with
  | nil => by_cases h : j = k <;> simp [mput, mget, hs, h]
  | cons e m ih =>
    obtain ⟨k', v'⟩ := e
    unfold mput
    by_cases h1 : k' = k
    · subst h1
      by_cases h : j = k' <;> simp [mget, hs, h]
    · by_cases h2 : k < k'
      · by_cases h : j = k <;> simp [h1, h2, mget, hs, h]
      · simp only [h1, h2, if_false, mget, ih]
        by_cases h3 : k' = j
        · subst h3; simp [h1]
        · simp [h3]

end Sys2Proof.Laws
end

