-- ==== Sys2Proof/Laws/State.lean ====
section
/-!
SUPPORT. One lemma for each field of the state and each update: what an update of one field leaves, and what it
writes. No later proof unfolds a record update.
-/
namespace Sys2Proof.Laws
open Sys2Proof Sys2Proof.Machine

/-! ### State.setCore -/
@[simp] theorem setCore_pending (s : State) (k : Nat) (c : Core) : (s.setCore k c).pending = s.pending := rfl
@[simp] theorem setCore_free (s : State) (k : Nat) (c : Core) : (s.setCore k c).free = s.free := rfl
@[simp] theorem setCore_clusters (s : State) (k : Nat) (c : Core) : (s.setCore k c).clusters = s.clusters := rfl
@[simp] theorem setCore_parts (s : State) (k : Nat) (c : Core) : (s.setCore k c).parts = s.parts := rfl
@[simp] theorem setCore_mem (s : State) (k : Nat) (c : Core) : (s.setCore k c).mem = s.mem := rfl
@[simp] theorem setCore_poison (s : State) (k : Nat) (c : Core) : (s.setCore k c).poison = s.poison := rfl
@[simp] theorem setCore_bad (s : State) (k : Nat) (c : Core) : (s.setCore k c).bad = s.bad := rfl
@[simp] theorem setCore_sram (s : State) (k : Nat) (c : Core) : (s.setCore k c).sram = s.sram := rfl
@[simp] theorem setCore_flight (s : State) (k : Nat) (c : Core) : (s.setCore k c).flight = s.flight := rfl
@[simp] theorem setCore_hbms (s : State) (k : Nat) (c : Core) : (s.setCore k c).hbms = s.hbms := rfl
@[simp] theorem setCore_mbx (s : State) (k : Nat) (c : Core) : (s.setCore k c).mbx = s.mbx := rfl
@[simp] theorem setCore_groups (s : State) (k : Nat) (c : Core) : (s.setCore k c).groups = s.groups := rfl
@[simp] theorem setCore_hosts (s : State) (k : Nat) (c : Core) : (s.setCore k c).hosts = s.hosts := rfl
@[simp] theorem setCore_cmds (s : State) (k : Nat) (c : Core) : (s.setCore k c).cmds = s.cmds := rfl
@[simp] theorem setCore_staged (s : State) (k : Nat) (c : Core) : (s.setCore k c).staged = s.staged := rfl
@[simp] theorem setCore_devCommits (s : State) (k : Nat) (c : Core) : (s.setCore k c).devCommits = s.devCommits := rfl
@[simp] theorem setCore_log (s : State) (k : Nat) (c : Core) : (s.setCore k c).log = s.log := rfl
@[simp] theorem setCore_clk (s : State) (k : Nat) (c : Core) : (s.setCore k c).clk = s.clk := rfl
@[simp] theorem setCore_gt (s : State) (k : Nat) (c : Core) : (s.setCore k c).gt = s.gt := rfl
@[simp] theorem setCore_ao (s : State) (k : Nat) (c : Core) : (s.setCore k c).ao = s.ao := rfl
@[simp] theorem setCore_boot (s : State) (k : Nat) (c : Core) : (s.setCore k c).boot = s.boot := rfl
@[simp] theorem setCore_detections (s : State) (k : Nat) (c : Core) : (s.setCore k c).detections = s.detections := rfl
@[simp] theorem setCore_mgmtQueue (s : State) (k : Nat) (c : Core) : (s.setCore k c).mgmtQueue = s.mgmtQueue := rfl
@[simp] theorem setCore_sent (s : State) (k : Nat) (c : Core) : (s.setCore k c).sent = s.sent := rfl

/-! ### State.modCore -/
@[simp] theorem modCore_pending (s : State) (k : Nat) (f : Core → Core) : (s.modCore k f).pending = s.pending := rfl
@[simp] theorem modCore_free (s : State) (k : Nat) (f : Core → Core) : (s.modCore k f).free = s.free := rfl
@[simp] theorem modCore_clusters (s : State) (k : Nat) (f : Core → Core) : (s.modCore k f).clusters = s.clusters := rfl
@[simp] theorem modCore_parts (s : State) (k : Nat) (f : Core → Core) : (s.modCore k f).parts = s.parts := rfl
@[simp] theorem modCore_mem (s : State) (k : Nat) (f : Core → Core) : (s.modCore k f).mem = s.mem := rfl
@[simp] theorem modCore_poison (s : State) (k : Nat) (f : Core → Core) : (s.modCore k f).poison = s.poison := rfl
@[simp] theorem modCore_bad (s : State) (k : Nat) (f : Core → Core) : (s.modCore k f).bad = s.bad := rfl
@[simp] theorem modCore_sram (s : State) (k : Nat) (f : Core → Core) : (s.modCore k f).sram = s.sram := rfl
@[simp] theorem modCore_flight (s : State) (k : Nat) (f : Core → Core) : (s.modCore k f).flight = s.flight := rfl
@[simp] theorem modCore_hbms (s : State) (k : Nat) (f : Core → Core) : (s.modCore k f).hbms = s.hbms := rfl
@[simp] theorem modCore_mbx (s : State) (k : Nat) (f : Core → Core) : (s.modCore k f).mbx = s.mbx := rfl
@[simp] theorem modCore_groups (s : State) (k : Nat) (f : Core → Core) : (s.modCore k f).groups = s.groups := rfl
@[simp] theorem modCore_hosts (s : State) (k : Nat) (f : Core → Core) : (s.modCore k f).hosts = s.hosts := rfl
@[simp] theorem modCore_cmds (s : State) (k : Nat) (f : Core → Core) : (s.modCore k f).cmds = s.cmds := rfl
@[simp] theorem modCore_staged (s : State) (k : Nat) (f : Core → Core) : (s.modCore k f).staged = s.staged := rfl
@[simp] theorem modCore_devCommits (s : State) (k : Nat) (f : Core → Core) : (s.modCore k f).devCommits = s.devCommits := rfl
@[simp] theorem modCore_log (s : State) (k : Nat) (f : Core → Core) : (s.modCore k f).log = s.log := rfl
@[simp] theorem modCore_clk (s : State) (k : Nat) (f : Core → Core) : (s.modCore k f).clk = s.clk := rfl
@[simp] theorem modCore_gt (s : State) (k : Nat) (f : Core → Core) : (s.modCore k f).gt = s.gt := rfl
@[simp] theorem modCore_ao (s : State) (k : Nat) (f : Core → Core) : (s.modCore k f).ao = s.ao := rfl
@[simp] theorem modCore_boot (s : State) (k : Nat) (f : Core → Core) : (s.modCore k f).boot = s.boot := rfl
@[simp] theorem modCore_detections (s : State) (k : Nat) (f : Core → Core) : (s.modCore k f).detections = s.detections := rfl
@[simp] theorem modCore_mgmtQueue (s : State) (k : Nat) (f : Core → Core) : (s.modCore k f).mgmtQueue = s.mgmtQueue := rfl
@[simp] theorem modCore_sent (s : State) (k : Nat) (f : Core → Core) : (s.modCore k f).sent = s.sent := rfl

/-! ### State.setCluster -/
@[simp] theorem setCluster_pending (s : State) (k : Nat) (c : Cluster) : (s.setCluster k c).pending = s.pending := rfl
@[simp] theorem setCluster_free (s : State) (k : Nat) (c : Cluster) : (s.setCluster k c).free = s.free := rfl
@[simp] theorem setCluster_cores (s : State) (k : Nat) (c : Cluster) : (s.setCluster k c).cores = s.cores := rfl
@[simp] theorem setCluster_parts (s : State) (k : Nat) (c : Cluster) : (s.setCluster k c).parts = s.parts := rfl
@[simp] theorem setCluster_mem (s : State) (k : Nat) (c : Cluster) : (s.setCluster k c).mem = s.mem := rfl
@[simp] theorem setCluster_poison (s : State) (k : Nat) (c : Cluster) : (s.setCluster k c).poison = s.poison := rfl
@[simp] theorem setCluster_bad (s : State) (k : Nat) (c : Cluster) : (s.setCluster k c).bad = s.bad := rfl
@[simp] theorem setCluster_sram (s : State) (k : Nat) (c : Cluster) : (s.setCluster k c).sram = s.sram := rfl
@[simp] theorem setCluster_flight (s : State) (k : Nat) (c : Cluster) : (s.setCluster k c).flight = s.flight := rfl
@[simp] theorem setCluster_hbms (s : State) (k : Nat) (c : Cluster) : (s.setCluster k c).hbms = s.hbms := rfl
@[simp] theorem setCluster_mbx (s : State) (k : Nat) (c : Cluster) : (s.setCluster k c).mbx = s.mbx := rfl
@[simp] theorem setCluster_groups (s : State) (k : Nat) (c : Cluster) : (s.setCluster k c).groups = s.groups := rfl
@[simp] theorem setCluster_hosts (s : State) (k : Nat) (c : Cluster) : (s.setCluster k c).hosts = s.hosts := rfl
@[simp] theorem setCluster_cmds (s : State) (k : Nat) (c : Cluster) : (s.setCluster k c).cmds = s.cmds := rfl
@[simp] theorem setCluster_staged (s : State) (k : Nat) (c : Cluster) : (s.setCluster k c).staged = s.staged := rfl
@[simp] theorem setCluster_devCommits (s : State) (k : Nat) (c : Cluster) : (s.setCluster k c).devCommits = s.devCommits := rfl
@[simp] theorem setCluster_log (s : State) (k : Nat) (c : Cluster) : (s.setCluster k c).log = s.log := rfl
@[simp] theorem setCluster_clk (s : State) (k : Nat) (c : Cluster) : (s.setCluster k c).clk = s.clk := rfl
@[simp] theorem setCluster_gt (s : State) (k : Nat) (c : Cluster) : (s.setCluster k c).gt = s.gt := rfl
@[simp] theorem setCluster_ao (s : State) (k : Nat) (c : Cluster) : (s.setCluster k c).ao = s.ao := rfl
@[simp] theorem setCluster_boot (s : State) (k : Nat) (c : Cluster) : (s.setCluster k c).boot = s.boot := rfl
@[simp] theorem setCluster_detections (s : State) (k : Nat) (c : Cluster) : (s.setCluster k c).detections = s.detections := rfl
@[simp] theorem setCluster_mgmtQueue (s : State) (k : Nat) (c : Cluster) : (s.setCluster k c).mgmtQueue = s.mgmtQueue := rfl
@[simp] theorem setCluster_sent (s : State) (k : Nat) (c : Cluster) : (s.setCluster k c).sent = s.sent := rfl

/-! ### State.modCluster -/
@[simp] theorem modCluster_pending (s : State) (k : Nat) (f : Cluster → Cluster) : (s.modCluster k f).pending = s.pending := rfl
@[simp] theorem modCluster_free (s : State) (k : Nat) (f : Cluster → Cluster) : (s.modCluster k f).free = s.free := rfl
@[simp] theorem modCluster_cores (s : State) (k : Nat) (f : Cluster → Cluster) : (s.modCluster k f).cores = s.cores := rfl
@[simp] theorem modCluster_parts (s : State) (k : Nat) (f : Cluster → Cluster) : (s.modCluster k f).parts = s.parts := rfl
@[simp] theorem modCluster_mem (s : State) (k : Nat) (f : Cluster → Cluster) : (s.modCluster k f).mem = s.mem := rfl
@[simp] theorem modCluster_poison (s : State) (k : Nat) (f : Cluster → Cluster) : (s.modCluster k f).poison = s.poison := rfl
@[simp] theorem modCluster_bad (s : State) (k : Nat) (f : Cluster → Cluster) : (s.modCluster k f).bad = s.bad := rfl
@[simp] theorem modCluster_sram (s : State) (k : Nat) (f : Cluster → Cluster) : (s.modCluster k f).sram = s.sram := rfl
@[simp] theorem modCluster_flight (s : State) (k : Nat) (f : Cluster → Cluster) : (s.modCluster k f).flight = s.flight := rfl
@[simp] theorem modCluster_hbms (s : State) (k : Nat) (f : Cluster → Cluster) : (s.modCluster k f).hbms = s.hbms := rfl
@[simp] theorem modCluster_mbx (s : State) (k : Nat) (f : Cluster → Cluster) : (s.modCluster k f).mbx = s.mbx := rfl
@[simp] theorem modCluster_groups (s : State) (k : Nat) (f : Cluster → Cluster) : (s.modCluster k f).groups = s.groups := rfl
@[simp] theorem modCluster_hosts (s : State) (k : Nat) (f : Cluster → Cluster) : (s.modCluster k f).hosts = s.hosts := rfl
@[simp] theorem modCluster_cmds (s : State) (k : Nat) (f : Cluster → Cluster) : (s.modCluster k f).cmds = s.cmds := rfl
@[simp] theorem modCluster_staged (s : State) (k : Nat) (f : Cluster → Cluster) : (s.modCluster k f).staged = s.staged := rfl
@[simp] theorem modCluster_devCommits (s : State) (k : Nat) (f : Cluster → Cluster) : (s.modCluster k f).devCommits = s.devCommits := rfl
@[simp] theorem modCluster_log (s : State) (k : Nat) (f : Cluster → Cluster) : (s.modCluster k f).log = s.log := rfl
@[simp] theorem modCluster_clk (s : State) (k : Nat) (f : Cluster → Cluster) : (s.modCluster k f).clk = s.clk := rfl
@[simp] theorem modCluster_gt (s : State) (k : Nat) (f : Cluster → Cluster) : (s.modCluster k f).gt = s.gt := rfl
@[simp] theorem modCluster_ao (s : State) (k : Nat) (f : Cluster → Cluster) : (s.modCluster k f).ao = s.ao := rfl
@[simp] theorem modCluster_boot (s : State) (k : Nat) (f : Cluster → Cluster) : (s.modCluster k f).boot = s.boot := rfl
@[simp] theorem modCluster_detections (s : State) (k : Nat) (f : Cluster → Cluster) : (s.modCluster k f).detections = s.detections := rfl
@[simp] theorem modCluster_mgmtQueue (s : State) (k : Nat) (f : Cluster → Cluster) : (s.modCluster k f).mgmtQueue = s.mgmtQueue := rfl
@[simp] theorem modCluster_sent (s : State) (k : Nat) (f : Cluster → Cluster) : (s.modCluster k f).sent = s.sent := rfl

/-! ### State.setPart -/
@[simp] theorem setPart_pending (s : State) (k : Nat) (c : Part) : (s.setPart k c).pending = s.pending := rfl
@[simp] theorem setPart_free (s : State) (k : Nat) (c : Part) : (s.setPart k c).free = s.free := rfl
@[simp] theorem setPart_cores (s : State) (k : Nat) (c : Part) : (s.setPart k c).cores = s.cores := rfl
@[simp] theorem setPart_clusters (s : State) (k : Nat) (c : Part) : (s.setPart k c).clusters = s.clusters := rfl
@[simp] theorem setPart_mem (s : State) (k : Nat) (c : Part) : (s.setPart k c).mem = s.mem := rfl
@[simp] theorem setPart_poison (s : State) (k : Nat) (c : Part) : (s.setPart k c).poison = s.poison := rfl
@[simp] theorem setPart_bad (s : State) (k : Nat) (c : Part) : (s.setPart k c).bad = s.bad := rfl
@[simp] theorem setPart_sram (s : State) (k : Nat) (c : Part) : (s.setPart k c).sram = s.sram := rfl
@[simp] theorem setPart_flight (s : State) (k : Nat) (c : Part) : (s.setPart k c).flight = s.flight := rfl
@[simp] theorem setPart_hbms (s : State) (k : Nat) (c : Part) : (s.setPart k c).hbms = s.hbms := rfl
@[simp] theorem setPart_mbx (s : State) (k : Nat) (c : Part) : (s.setPart k c).mbx = s.mbx := rfl
@[simp] theorem setPart_groups (s : State) (k : Nat) (c : Part) : (s.setPart k c).groups = s.groups := rfl
@[simp] theorem setPart_hosts (s : State) (k : Nat) (c : Part) : (s.setPart k c).hosts = s.hosts := rfl
@[simp] theorem setPart_cmds (s : State) (k : Nat) (c : Part) : (s.setPart k c).cmds = s.cmds := rfl
@[simp] theorem setPart_staged (s : State) (k : Nat) (c : Part) : (s.setPart k c).staged = s.staged := rfl
@[simp] theorem setPart_devCommits (s : State) (k : Nat) (c : Part) : (s.setPart k c).devCommits = s.devCommits := rfl
@[simp] theorem setPart_log (s : State) (k : Nat) (c : Part) : (s.setPart k c).log = s.log := rfl
@[simp] theorem setPart_clk (s : State) (k : Nat) (c : Part) : (s.setPart k c).clk = s.clk := rfl
@[simp] theorem setPart_gt (s : State) (k : Nat) (c : Part) : (s.setPart k c).gt = s.gt := rfl
@[simp] theorem setPart_ao (s : State) (k : Nat) (c : Part) : (s.setPart k c).ao = s.ao := rfl
@[simp] theorem setPart_boot (s : State) (k : Nat) (c : Part) : (s.setPart k c).boot = s.boot := rfl
@[simp] theorem setPart_detections (s : State) (k : Nat) (c : Part) : (s.setPart k c).detections = s.detections := rfl
@[simp] theorem setPart_mgmtQueue (s : State) (k : Nat) (c : Part) : (s.setPart k c).mgmtQueue = s.mgmtQueue := rfl
@[simp] theorem setPart_sent (s : State) (k : Nat) (c : Part) : (s.setPart k c).sent = s.sent := rfl

/-! ### State.modPart -/
@[simp] theorem modPart_pending (s : State) (k : Nat) (f : Part → Part) : (s.modPart k f).pending = s.pending := rfl
@[simp] theorem modPart_free (s : State) (k : Nat) (f : Part → Part) : (s.modPart k f).free = s.free := rfl
@[simp] theorem modPart_cores (s : State) (k : Nat) (f : Part → Part) : (s.modPart k f).cores = s.cores := rfl
@[simp] theorem modPart_clusters (s : State) (k : Nat) (f : Part → Part) : (s.modPart k f).clusters = s.clusters := rfl
@[simp] theorem modPart_mem (s : State) (k : Nat) (f : Part → Part) : (s.modPart k f).mem = s.mem := rfl
@[simp] theorem modPart_poison (s : State) (k : Nat) (f : Part → Part) : (s.modPart k f).poison = s.poison := rfl
@[simp] theorem modPart_bad (s : State) (k : Nat) (f : Part → Part) : (s.modPart k f).bad = s.bad := rfl
@[simp] theorem modPart_sram (s : State) (k : Nat) (f : Part → Part) : (s.modPart k f).sram = s.sram := rfl
@[simp] theorem modPart_flight (s : State) (k : Nat) (f : Part → Part) : (s.modPart k f).flight = s.flight := rfl
@[simp] theorem modPart_hbms (s : State) (k : Nat) (f : Part → Part) : (s.modPart k f).hbms = s.hbms := rfl
@[simp] theorem modPart_mbx (s : State) (k : Nat) (f : Part → Part) : (s.modPart k f).mbx = s.mbx := rfl
@[simp] theorem modPart_groups (s : State) (k : Nat) (f : Part → Part) : (s.modPart k f).groups = s.groups := rfl
@[simp] theorem modPart_hosts (s : State) (k : Nat) (f : Part → Part) : (s.modPart k f).hosts = s.hosts := rfl
@[simp] theorem modPart_cmds (s : State) (k : Nat) (f : Part → Part) : (s.modPart k f).cmds = s.cmds := rfl
@[simp] theorem modPart_staged (s : State) (k : Nat) (f : Part → Part) : (s.modPart k f).staged = s.staged := rfl
@[simp] theorem modPart_devCommits (s : State) (k : Nat) (f : Part → Part) : (s.modPart k f).devCommits = s.devCommits := rfl
@[simp] theorem modPart_log (s : State) (k : Nat) (f : Part → Part) : (s.modPart k f).log = s.log := rfl
@[simp] theorem modPart_clk (s : State) (k : Nat) (f : Part → Part) : (s.modPart k f).clk = s.clk := rfl
@[simp] theorem modPart_gt (s : State) (k : Nat) (f : Part → Part) : (s.modPart k f).gt = s.gt := rfl
@[simp] theorem modPart_ao (s : State) (k : Nat) (f : Part → Part) : (s.modPart k f).ao = s.ao := rfl
@[simp] theorem modPart_boot (s : State) (k : Nat) (f : Part → Part) : (s.modPart k f).boot = s.boot := rfl
@[simp] theorem modPart_detections (s : State) (k : Nat) (f : Part → Part) : (s.modPart k f).detections = s.detections := rfl
@[simp] theorem modPart_mgmtQueue (s : State) (k : Nat) (f : Part → Part) : (s.modPart k f).mgmtQueue = s.mgmtQueue := rfl
@[simp] theorem modPart_sent (s : State) (k : Nat) (f : Part → Part) : (s.modPart k f).sent = s.sent := rfl

/-! ### State.setHbm -/
@[simp] theorem setHbm_pending (s : State) (k : Nat) (c : Hbm) : (s.setHbm k c).pending = s.pending := rfl
@[simp] theorem setHbm_free (s : State) (k : Nat) (c : Hbm) : (s.setHbm k c).free = s.free := rfl
@[simp] theorem setHbm_cores (s : State) (k : Nat) (c : Hbm) : (s.setHbm k c).cores = s.cores := rfl
@[simp] theorem setHbm_clusters (s : State) (k : Nat) (c : Hbm) : (s.setHbm k c).clusters = s.clusters := rfl
@[simp] theorem setHbm_parts (s : State) (k : Nat) (c : Hbm) : (s.setHbm k c).parts = s.parts := rfl
@[simp] theorem setHbm_mem (s : State) (k : Nat) (c : Hbm) : (s.setHbm k c).mem = s.mem := rfl
@[simp] theorem setHbm_poison (s : State) (k : Nat) (c : Hbm) : (s.setHbm k c).poison = s.poison := rfl
@[simp] theorem setHbm_bad (s : State) (k : Nat) (c : Hbm) : (s.setHbm k c).bad = s.bad := rfl
@[simp] theorem setHbm_sram (s : State) (k : Nat) (c : Hbm) : (s.setHbm k c).sram = s.sram := rfl
@[simp] theorem setHbm_flight (s : State) (k : Nat) (c : Hbm) : (s.setHbm k c).flight = s.flight := rfl
@[simp] theorem setHbm_mbx (s : State) (k : Nat) (c : Hbm) : (s.setHbm k c).mbx = s.mbx := rfl
@[simp] theorem setHbm_groups (s : State) (k : Nat) (c : Hbm) : (s.setHbm k c).groups = s.groups := rfl
@[simp] theorem setHbm_hosts (s : State) (k : Nat) (c : Hbm) : (s.setHbm k c).hosts = s.hosts := rfl
@[simp] theorem setHbm_cmds (s : State) (k : Nat) (c : Hbm) : (s.setHbm k c).cmds = s.cmds := rfl
@[simp] theorem setHbm_staged (s : State) (k : Nat) (c : Hbm) : (s.setHbm k c).staged = s.staged := rfl
@[simp] theorem setHbm_devCommits (s : State) (k : Nat) (c : Hbm) : (s.setHbm k c).devCommits = s.devCommits := rfl
@[simp] theorem setHbm_log (s : State) (k : Nat) (c : Hbm) : (s.setHbm k c).log = s.log := rfl
@[simp] theorem setHbm_clk (s : State) (k : Nat) (c : Hbm) : (s.setHbm k c).clk = s.clk := rfl
@[simp] theorem setHbm_gt (s : State) (k : Nat) (c : Hbm) : (s.setHbm k c).gt = s.gt := rfl
@[simp] theorem setHbm_ao (s : State) (k : Nat) (c : Hbm) : (s.setHbm k c).ao = s.ao := rfl
@[simp] theorem setHbm_boot (s : State) (k : Nat) (c : Hbm) : (s.setHbm k c).boot = s.boot := rfl
@[simp] theorem setHbm_detections (s : State) (k : Nat) (c : Hbm) : (s.setHbm k c).detections = s.detections := rfl
@[simp] theorem setHbm_mgmtQueue (s : State) (k : Nat) (c : Hbm) : (s.setHbm k c).mgmtQueue = s.mgmtQueue := rfl
@[simp] theorem setHbm_sent (s : State) (k : Nat) (c : Hbm) : (s.setHbm k c).sent = s.sent := rfl

/-! ### State.modHbm -/
@[simp] theorem modHbm_pending (s : State) (k : Nat) (f : Hbm → Hbm) : (s.modHbm k f).pending = s.pending := rfl
@[simp] theorem modHbm_free (s : State) (k : Nat) (f : Hbm → Hbm) : (s.modHbm k f).free = s.free := rfl
@[simp] theorem modHbm_cores (s : State) (k : Nat) (f : Hbm → Hbm) : (s.modHbm k f).cores = s.cores := rfl
@[simp] theorem modHbm_clusters (s : State) (k : Nat) (f : Hbm → Hbm) : (s.modHbm k f).clusters = s.clusters := rfl
@[simp] theorem modHbm_parts (s : State) (k : Nat) (f : Hbm → Hbm) : (s.modHbm k f).parts = s.parts := rfl
@[simp] theorem modHbm_mem (s : State) (k : Nat) (f : Hbm → Hbm) : (s.modHbm k f).mem = s.mem := rfl
@[simp] theorem modHbm_poison (s : State) (k : Nat) (f : Hbm → Hbm) : (s.modHbm k f).poison = s.poison := rfl
@[simp] theorem modHbm_bad (s : State) (k : Nat) (f : Hbm → Hbm) : (s.modHbm k f).bad = s.bad := rfl
@[simp] theorem modHbm_sram (s : State) (k : Nat) (f : Hbm → Hbm) : (s.modHbm k f).sram = s.sram := rfl
@[simp] theorem modHbm_flight (s : State) (k : Nat) (f : Hbm → Hbm) : (s.modHbm k f).flight = s.flight := rfl
@[simp] theorem modHbm_mbx (s : State) (k : Nat) (f : Hbm → Hbm) : (s.modHbm k f).mbx = s.mbx := rfl
@[simp] theorem modHbm_groups (s : State) (k : Nat) (f : Hbm → Hbm) : (s.modHbm k f).groups = s.groups := rfl
@[simp] theorem modHbm_hosts (s : State) (k : Nat) (f : Hbm → Hbm) : (s.modHbm k f).hosts = s.hosts := rfl
@[simp] theorem modHbm_cmds (s : State) (k : Nat) (f : Hbm → Hbm) : (s.modHbm k f).cmds = s.cmds := rfl
@[simp] theorem modHbm_staged (s : State) (k : Nat) (f : Hbm → Hbm) : (s.modHbm k f).staged = s.staged := rfl
@[simp] theorem modHbm_devCommits (s : State) (k : Nat) (f : Hbm → Hbm) : (s.modHbm k f).devCommits = s.devCommits := rfl
@[simp] theorem modHbm_log (s : State) (k : Nat) (f : Hbm → Hbm) : (s.modHbm k f).log = s.log := rfl
@[simp] theorem modHbm_clk (s : State) (k : Nat) (f : Hbm → Hbm) : (s.modHbm k f).clk = s.clk := rfl
@[simp] theorem modHbm_gt (s : State) (k : Nat) (f : Hbm → Hbm) : (s.modHbm k f).gt = s.gt := rfl
@[simp] theorem modHbm_ao (s : State) (k : Nat) (f : Hbm → Hbm) : (s.modHbm k f).ao = s.ao := rfl
@[simp] theorem modHbm_boot (s : State) (k : Nat) (f : Hbm → Hbm) : (s.modHbm k f).boot = s.boot := rfl
@[simp] theorem modHbm_detections (s : State) (k : Nat) (f : Hbm → Hbm) : (s.modHbm k f).detections = s.detections := rfl
@[simp] theorem modHbm_mgmtQueue (s : State) (k : Nat) (f : Hbm → Hbm) : (s.modHbm k f).mgmtQueue = s.mgmtQueue := rfl
@[simp] theorem modHbm_sent (s : State) (k : Nat) (f : Hbm → Hbm) : (s.modHbm k f).sent = s.sent := rfl

/-! ### State.putByte -/
@[simp] theorem putByte_pending (s : State) (a : Nat) (b : Byte) : (s.putByte a b).pending = s.pending := rfl
@[simp] theorem putByte_free (s : State) (a : Nat) (b : Byte) : (s.putByte a b).free = s.free := rfl
@[simp] theorem putByte_cores (s : State) (a : Nat) (b : Byte) : (s.putByte a b).cores = s.cores := rfl
@[simp] theorem putByte_clusters (s : State) (a : Nat) (b : Byte) : (s.putByte a b).clusters = s.clusters := rfl
@[simp] theorem putByte_parts (s : State) (a : Nat) (b : Byte) : (s.putByte a b).parts = s.parts := rfl
@[simp] theorem putByte_poison (s : State) (a : Nat) (b : Byte) : (s.putByte a b).poison = s.poison := rfl
@[simp] theorem putByte_bad (s : State) (a : Nat) (b : Byte) : (s.putByte a b).bad = s.bad := rfl
@[simp] theorem putByte_sram (s : State) (a : Nat) (b : Byte) : (s.putByte a b).sram = s.sram := rfl
@[simp] theorem putByte_flight (s : State) (a : Nat) (b : Byte) : (s.putByte a b).flight = s.flight := rfl
@[simp] theorem putByte_hbms (s : State) (a : Nat) (b : Byte) : (s.putByte a b).hbms = s.hbms := rfl
@[simp] theorem putByte_mbx (s : State) (a : Nat) (b : Byte) : (s.putByte a b).mbx = s.mbx := rfl
@[simp] theorem putByte_groups (s : State) (a : Nat) (b : Byte) : (s.putByte a b).groups = s.groups := rfl
@[simp] theorem putByte_hosts (s : State) (a : Nat) (b : Byte) : (s.putByte a b).hosts = s.hosts := rfl
@[simp] theorem putByte_cmds (s : State) (a : Nat) (b : Byte) : (s.putByte a b).cmds = s.cmds := rfl
@[simp] theorem putByte_staged (s : State) (a : Nat) (b : Byte) : (s.putByte a b).staged = s.staged := rfl
@[simp] theorem putByte_devCommits (s : State) (a : Nat) (b : Byte) : (s.putByte a b).devCommits = s.devCommits := rfl
@[simp] theorem putByte_log (s : State) (a : Nat) (b : Byte) : (s.putByte a b).log = s.log := rfl
@[simp] theorem putByte_clk (s : State) (a : Nat) (b : Byte) : (s.putByte a b).clk = s.clk := rfl
@[simp] theorem putByte_gt (s : State) (a : Nat) (b : Byte) : (s.putByte a b).gt = s.gt := rfl
@[simp] theorem putByte_ao (s : State) (a : Nat) (b : Byte) : (s.putByte a b).ao = s.ao := rfl
@[simp] theorem putByte_boot (s : State) (a : Nat) (b : Byte) : (s.putByte a b).boot = s.boot := rfl
@[simp] theorem putByte_detections (s : State) (a : Nat) (b : Byte) : (s.putByte a b).detections = s.detections := rfl
@[simp] theorem putByte_mgmtQueue (s : State) (a : Nat) (b : Byte) : (s.putByte a b).mgmtQueue = s.mgmtQueue := rfl
@[simp] theorem putByte_sent (s : State) (a : Nat) (b : Byte) : (s.putByte a b).sent = s.sent := rfl

/-! ### State.putBytes -/
@[simp] theorem putBytes_pending (s : State) (a : Nat) (b : List Byte) : (s.putBytes a b).pending = s.pending := rfl
@[simp] theorem putBytes_free (s : State) (a : Nat) (b : List Byte) : (s.putBytes a b).free = s.free := rfl
@[simp] theorem putBytes_cores (s : State) (a : Nat) (b : List Byte) : (s.putBytes a b).cores = s.cores := rfl
@[simp] theorem putBytes_clusters (s : State) (a : Nat) (b : List Byte) : (s.putBytes a b).clusters = s.clusters := rfl
@[simp] theorem putBytes_parts (s : State) (a : Nat) (b : List Byte) : (s.putBytes a b).parts = s.parts := rfl
@[simp] theorem putBytes_poison (s : State) (a : Nat) (b : List Byte) : (s.putBytes a b).poison = s.poison := rfl
@[simp] theorem putBytes_bad (s : State) (a : Nat) (b : List Byte) : (s.putBytes a b).bad = s.bad := rfl
@[simp] theorem putBytes_sram (s : State) (a : Nat) (b : List Byte) : (s.putBytes a b).sram = s.sram := rfl
@[simp] theorem putBytes_flight (s : State) (a : Nat) (b : List Byte) : (s.putBytes a b).flight = s.flight := rfl
@[simp] theorem putBytes_hbms (s : State) (a : Nat) (b : List Byte) : (s.putBytes a b).hbms = s.hbms := rfl
@[simp] theorem putBytes_mbx (s : State) (a : Nat) (b : List Byte) : (s.putBytes a b).mbx = s.mbx := rfl
@[simp] theorem putBytes_groups (s : State) (a : Nat) (b : List Byte) : (s.putBytes a b).groups = s.groups := rfl
@[simp] theorem putBytes_hosts (s : State) (a : Nat) (b : List Byte) : (s.putBytes a b).hosts = s.hosts := rfl
@[simp] theorem putBytes_cmds (s : State) (a : Nat) (b : List Byte) : (s.putBytes a b).cmds = s.cmds := rfl
@[simp] theorem putBytes_staged (s : State) (a : Nat) (b : List Byte) : (s.putBytes a b).staged = s.staged := rfl
@[simp] theorem putBytes_devCommits (s : State) (a : Nat) (b : List Byte) : (s.putBytes a b).devCommits = s.devCommits := rfl
@[simp] theorem putBytes_log (s : State) (a : Nat) (b : List Byte) : (s.putBytes a b).log = s.log := rfl
@[simp] theorem putBytes_clk (s : State) (a : Nat) (b : List Byte) : (s.putBytes a b).clk = s.clk := rfl
@[simp] theorem putBytes_gt (s : State) (a : Nat) (b : List Byte) : (s.putBytes a b).gt = s.gt := rfl
@[simp] theorem putBytes_ao (s : State) (a : Nat) (b : List Byte) : (s.putBytes a b).ao = s.ao := rfl
@[simp] theorem putBytes_boot (s : State) (a : Nat) (b : List Byte) : (s.putBytes a b).boot = s.boot := rfl
@[simp] theorem putBytes_detections (s : State) (a : Nat) (b : List Byte) : (s.putBytes a b).detections = s.detections := rfl
@[simp] theorem putBytes_mgmtQueue (s : State) (a : Nat) (b : List Byte) : (s.putBytes a b).mgmtQueue = s.mgmtQueue := rfl
@[simp] theorem putBytes_sent (s : State) (a : Nat) (b : List Byte) : (s.putBytes a b).sent = s.sent := rfl

/-! ### State.zeroRange -/
@[simp] theorem zeroRange_pending (s : State) (a n : Nat) : (s.zeroRange a n).pending = s.pending := rfl
@[simp] theorem zeroRange_free (s : State) (a n : Nat) : (s.zeroRange a n).free = s.free := rfl
@[simp] theorem zeroRange_cores (s : State) (a n : Nat) : (s.zeroRange a n).cores = s.cores := rfl
@[simp] theorem zeroRange_clusters (s : State) (a n : Nat) : (s.zeroRange a n).clusters = s.clusters := rfl
@[simp] theorem zeroRange_parts (s : State) (a n : Nat) : (s.zeroRange a n).parts = s.parts := rfl
@[simp] theorem zeroRange_poison (s : State) (a n : Nat) : (s.zeroRange a n).poison = s.poison := rfl
@[simp] theorem zeroRange_bad (s : State) (a n : Nat) :
    (s.zeroRange a n).bad
      = s.bad.filter (fun b => !(decide (a ≤ 16 * b) && decide (16 * b + 16 ≤ a + n))) := rfl
@[simp] theorem zeroRange_sram (s : State) (a n : Nat) : (s.zeroRange a n).sram = s.sram := rfl
@[simp] theorem zeroRange_flight (s : State) (a n : Nat) : (s.zeroRange a n).flight = s.flight := rfl
@[simp] theorem zeroRange_hbms (s : State) (a n : Nat) : (s.zeroRange a n).hbms = s.hbms := rfl
@[simp] theorem zeroRange_mbx (s : State) (a n : Nat) : (s.zeroRange a n).mbx = s.mbx := rfl
@[simp] theorem zeroRange_groups (s : State) (a n : Nat) : (s.zeroRange a n).groups = s.groups := rfl
@[simp] theorem zeroRange_hosts (s : State) (a n : Nat) : (s.zeroRange a n).hosts = s.hosts := rfl
@[simp] theorem zeroRange_cmds (s : State) (a n : Nat) : (s.zeroRange a n).cmds = s.cmds := rfl
@[simp] theorem zeroRange_staged (s : State) (a n : Nat) : (s.zeroRange a n).staged = s.staged := rfl
@[simp] theorem zeroRange_devCommits (s : State) (a n : Nat) : (s.zeroRange a n).devCommits = s.devCommits := rfl
@[simp] theorem zeroRange_log (s : State) (a n : Nat) : (s.zeroRange a n).log = s.log := rfl
@[simp] theorem zeroRange_clk (s : State) (a n : Nat) : (s.zeroRange a n).clk = s.clk := rfl
@[simp] theorem zeroRange_gt (s : State) (a n : Nat) : (s.zeroRange a n).gt = s.gt := rfl
@[simp] theorem zeroRange_ao (s : State) (a n : Nat) : (s.zeroRange a n).ao = s.ao := rfl
@[simp] theorem zeroRange_boot (s : State) (a n : Nat) : (s.zeroRange a n).boot = s.boot := rfl
@[simp] theorem zeroRange_detections (s : State) (a n : Nat) : (s.zeroRange a n).detections = s.detections := rfl
@[simp] theorem zeroRange_mgmtQueue (s : State) (a n : Nat) : (s.zeroRange a n).mgmtQueue = s.mgmtQueue := rfl
@[simp] theorem zeroRange_sent (s : State) (a n : Nat) : (s.zeroRange a n).sent = s.sent := rfl

/-! ### State.detect -/
@[simp] theorem detect_pending (s : State) (d : Detection) : (s.detect d).pending = s.pending := rfl
@[simp] theorem detect_free (s : State) (d : Detection) : (s.detect d).free = s.free := rfl
@[simp] theorem detect_cores (s : State) (d : Detection) : (s.detect d).cores = s.cores := rfl
@[simp] theorem detect_clusters (s : State) (d : Detection) : (s.detect d).clusters = s.clusters := rfl
@[simp] theorem detect_parts (s : State) (d : Detection) : (s.detect d).parts = s.parts := rfl
@[simp] theorem detect_mem (s : State) (d : Detection) : (s.detect d).mem = s.mem := rfl
@[simp] theorem detect_poison (s : State) (d : Detection) : (s.detect d).poison = s.poison := rfl
@[simp] theorem detect_bad (s : State) (d : Detection) : (s.detect d).bad = s.bad := rfl
@[simp] theorem detect_sram (s : State) (d : Detection) : (s.detect d).sram = s.sram := rfl
@[simp] theorem detect_flight (s : State) (d : Detection) : (s.detect d).flight = s.flight := rfl
@[simp] theorem detect_hbms (s : State) (d : Detection) : (s.detect d).hbms = s.hbms := rfl
@[simp] theorem detect_mbx (s : State) (d : Detection) : (s.detect d).mbx = s.mbx := rfl
@[simp] theorem detect_groups (s : State) (d : Detection) : (s.detect d).groups = s.groups := rfl
@[simp] theorem detect_hosts (s : State) (d : Detection) : (s.detect d).hosts = s.hosts := rfl
@[simp] theorem detect_cmds (s : State) (d : Detection) : (s.detect d).cmds = s.cmds := rfl
@[simp] theorem detect_staged (s : State) (d : Detection) : (s.detect d).staged = s.staged := rfl
@[simp] theorem detect_devCommits (s : State) (d : Detection) : (s.detect d).devCommits = s.devCommits := rfl
@[simp] theorem detect_log (s : State) (d : Detection) : (s.detect d).log = s.log := rfl
@[simp] theorem detect_clk (s : State) (d : Detection) : (s.detect d).clk = s.clk := rfl
@[simp] theorem detect_gt (s : State) (d : Detection) : (s.detect d).gt = s.gt := rfl
@[simp] theorem detect_ao (s : State) (d : Detection) : (s.detect d).ao = s.ao := rfl
@[simp] theorem detect_boot (s : State) (d : Detection) : (s.detect d).boot = s.boot := rfl
@[simp] theorem detect_mgmtQueue (s : State) (d : Detection) : (s.detect d).mgmtQueue = s.mgmtQueue := rfl
@[simp] theorem detect_sent (s : State) (d : Detection) : (s.detect d).sent = s.sent := rfl

/-! ### State.flagSend -/
@[simp] theorem flagSend_pending (s : State) (m : FlagMsg) : (s.flagSend m).pending = s.pending := rfl
@[simp] theorem flagSend_free (s : State) (m : FlagMsg) : (s.flagSend m).free = s.free := rfl
@[simp] theorem flagSend_cores (s : State) (m : FlagMsg) : (s.flagSend m).cores = s.cores := rfl
@[simp] theorem flagSend_clusters (s : State) (m : FlagMsg) : (s.flagSend m).clusters = s.clusters := rfl
@[simp] theorem flagSend_parts (s : State) (m : FlagMsg) : (s.flagSend m).parts = s.parts := rfl
@[simp] theorem flagSend_mem (s : State) (m : FlagMsg) : (s.flagSend m).mem = s.mem := rfl
@[simp] theorem flagSend_poison (s : State) (m : FlagMsg) : (s.flagSend m).poison = s.poison := rfl
@[simp] theorem flagSend_bad (s : State) (m : FlagMsg) : (s.flagSend m).bad = s.bad := rfl
@[simp] theorem flagSend_sram (s : State) (m : FlagMsg) : (s.flagSend m).sram = s.sram := rfl
@[simp] theorem flagSend_hbms (s : State) (m : FlagMsg) : (s.flagSend m).hbms = s.hbms := rfl
@[simp] theorem flagSend_mbx (s : State) (m : FlagMsg) : (s.flagSend m).mbx = s.mbx := rfl
@[simp] theorem flagSend_groups (s : State) (m : FlagMsg) : (s.flagSend m).groups = s.groups := rfl
@[simp] theorem flagSend_hosts (s : State) (m : FlagMsg) : (s.flagSend m).hosts = s.hosts := rfl
@[simp] theorem flagSend_cmds (s : State) (m : FlagMsg) : (s.flagSend m).cmds = s.cmds := rfl
@[simp] theorem flagSend_staged (s : State) (m : FlagMsg) : (s.flagSend m).staged = s.staged := rfl
@[simp] theorem flagSend_devCommits (s : State) (m : FlagMsg) : (s.flagSend m).devCommits = s.devCommits := rfl
@[simp] theorem flagSend_log (s : State) (m : FlagMsg) : (s.flagSend m).log = s.log := rfl
@[simp] theorem flagSend_clk (s : State) (m : FlagMsg) : (s.flagSend m).clk = s.clk := rfl
@[simp] theorem flagSend_gt (s : State) (m : FlagMsg) : (s.flagSend m).gt = s.gt := rfl
@[simp] theorem flagSend_ao (s : State) (m : FlagMsg) : (s.flagSend m).ao = s.ao := rfl
@[simp] theorem flagSend_boot (s : State) (m : FlagMsg) : (s.flagSend m).boot = s.boot := rfl
@[simp] theorem flagSend_detections (s : State) (m : FlagMsg) : (s.flagSend m).detections = s.detections := rfl
@[simp] theorem flagSend_mgmtQueue (s : State) (m : FlagMsg) : (s.flagSend m).mgmtQueue = s.mgmtQueue := rfl
@[simp] theorem flagSend_sent (s : State) (m : FlagMsg) : (s.flagSend m).sent = s.sent := rfl

/-! ### State.send -/
@[simp] theorem send_pending (s : State) (x : Sent) : (s.send x).pending = s.pending := rfl
@[simp] theorem send_free (s : State) (x : Sent) : (s.send x).free = s.free := rfl
@[simp] theorem send_cores (s : State) (x : Sent) : (s.send x).cores = s.cores := rfl
@[simp] theorem send_clusters (s : State) (x : Sent) : (s.send x).clusters = s.clusters := rfl
@[simp] theorem send_parts (s : State) (x : Sent) : (s.send x).parts = s.parts := rfl
@[simp] theorem send_mem (s : State) (x : Sent) : (s.send x).mem = s.mem := rfl
@[simp] theorem send_poison (s : State) (x : Sent) : (s.send x).poison = s.poison := rfl
@[simp] theorem send_bad (s : State) (x : Sent) : (s.send x).bad = s.bad := rfl
@[simp] theorem send_sram (s : State) (x : Sent) : (s.send x).sram = s.sram := rfl
@[simp] theorem send_flight (s : State) (x : Sent) : (s.send x).flight = s.flight := rfl
@[simp] theorem send_hbms (s : State) (x : Sent) : (s.send x).hbms = s.hbms := rfl
@[simp] theorem send_mbx (s : State) (x : Sent) : (s.send x).mbx = s.mbx := rfl
@[simp] theorem send_groups (s : State) (x : Sent) : (s.send x).groups = s.groups := rfl
@[simp] theorem send_hosts (s : State) (x : Sent) : (s.send x).hosts = s.hosts := rfl
@[simp] theorem send_cmds (s : State) (x : Sent) : (s.send x).cmds = s.cmds := rfl
@[simp] theorem send_staged (s : State) (x : Sent) : (s.send x).staged = s.staged := rfl
@[simp] theorem send_devCommits (s : State) (x : Sent) : (s.send x).devCommits = s.devCommits := rfl
@[simp] theorem send_log (s : State) (x : Sent) : (s.send x).log = s.log := rfl
@[simp] theorem send_clk (s : State) (x : Sent) : (s.send x).clk = s.clk := rfl
@[simp] theorem send_gt (s : State) (x : Sent) : (s.send x).gt = s.gt := rfl
@[simp] theorem send_ao (s : State) (x : Sent) : (s.send x).ao = s.ao := rfl
@[simp] theorem send_boot (s : State) (x : Sent) : (s.send x).boot = s.boot := rfl
@[simp] theorem send_detections (s : State) (x : Sent) : (s.send x).detections = s.detections := rfl
@[simp] theorem send_mgmtQueue (s : State) (x : Sent) : (s.send x).mgmtQueue = s.mgmtQueue := rfl

/-! ### State.modMb -/
@[simp] theorem modMb_pending (s : State) (n : Nat) (f : MbChan → MbChan) : (s.modMb n f).pending = s.pending := rfl
@[simp] theorem modMb_free (s : State) (n : Nat) (f : MbChan → MbChan) : (s.modMb n f).free = s.free := rfl
@[simp] theorem modMb_cores (s : State) (n : Nat) (f : MbChan → MbChan) : (s.modMb n f).cores = s.cores := rfl
@[simp] theorem modMb_clusters (s : State) (n : Nat) (f : MbChan → MbChan) : (s.modMb n f).clusters = s.clusters := rfl
@[simp] theorem modMb_parts (s : State) (n : Nat) (f : MbChan → MbChan) : (s.modMb n f).parts = s.parts := rfl
@[simp] theorem modMb_mem (s : State) (n : Nat) (f : MbChan → MbChan) : (s.modMb n f).mem = s.mem := rfl
@[simp] theorem modMb_poison (s : State) (n : Nat) (f : MbChan → MbChan) : (s.modMb n f).poison = s.poison := rfl
@[simp] theorem modMb_bad (s : State) (n : Nat) (f : MbChan → MbChan) : (s.modMb n f).bad = s.bad := rfl
@[simp] theorem modMb_sram (s : State) (n : Nat) (f : MbChan → MbChan) : (s.modMb n f).sram = s.sram := rfl
@[simp] theorem modMb_flight (s : State) (n : Nat) (f : MbChan → MbChan) : (s.modMb n f).flight = s.flight := rfl
@[simp] theorem modMb_hbms (s : State) (n : Nat) (f : MbChan → MbChan) : (s.modMb n f).hbms = s.hbms := rfl
@[simp] theorem modMb_groups (s : State) (n : Nat) (f : MbChan → MbChan) : (s.modMb n f).groups = s.groups := rfl
@[simp] theorem modMb_hosts (s : State) (n : Nat) (f : MbChan → MbChan) : (s.modMb n f).hosts = s.hosts := rfl
@[simp] theorem modMb_cmds (s : State) (n : Nat) (f : MbChan → MbChan) : (s.modMb n f).cmds = s.cmds := rfl
@[simp] theorem modMb_staged (s : State) (n : Nat) (f : MbChan → MbChan) : (s.modMb n f).staged = s.staged := rfl
@[simp] theorem modMb_devCommits (s : State) (n : Nat) (f : MbChan → MbChan) : (s.modMb n f).devCommits = s.devCommits := rfl
@[simp] theorem modMb_log (s : State) (n : Nat) (f : MbChan → MbChan) : (s.modMb n f).log = s.log := rfl
@[simp] theorem modMb_clk (s : State) (n : Nat) (f : MbChan → MbChan) : (s.modMb n f).clk = s.clk := rfl
@[simp] theorem modMb_gt (s : State) (n : Nat) (f : MbChan → MbChan) : (s.modMb n f).gt = s.gt := rfl
@[simp] theorem modMb_ao (s : State) (n : Nat) (f : MbChan → MbChan) : (s.modMb n f).ao = s.ao := rfl
@[simp] theorem modMb_boot (s : State) (n : Nat) (f : MbChan → MbChan) : (s.modMb n f).boot = s.boot := rfl
@[simp] theorem modMb_detections (s : State) (n : Nat) (f : MbChan → MbChan) : (s.modMb n f).detections = s.detections := rfl
@[simp] theorem modMb_mgmtQueue (s : State) (n : Nat) (f : MbChan → MbChan) : (s.modMb n f).mgmtQueue = s.mgmtQueue := rfl
@[simp] theorem modMb_sent (s : State) (n : Nat) (f : MbChan → MbChan) : (s.modMb n f).sent = s.sent := rfl

/-! ### State.modHost -/
@[simp] theorem modHost_pending (s : State) (n : Nat) (f : HostS → HostS) : (s.modHost n f).pending = s.pending := rfl
@[simp] theorem modHost_free (s : State) (n : Nat) (f : HostS → HostS) : (s.modHost n f).free = s.free := rfl
@[simp] theorem modHost_cores (s : State) (n : Nat) (f : HostS → HostS) : (s.modHost n f).cores = s.cores := rfl
@[simp] theorem modHost_clusters (s : State) (n : Nat) (f : HostS → HostS) : (s.modHost n f).clusters = s.clusters := rfl
@[simp] theorem modHost_parts (s : State) (n : Nat) (f : HostS → HostS) : (s.modHost n f).parts = s.parts := rfl
@[simp] theorem modHost_mem (s : State) (n : Nat) (f : HostS → HostS) : (s.modHost n f).mem = s.mem := rfl
@[simp] theorem modHost_poison (s : State) (n : Nat) (f : HostS → HostS) : (s.modHost n f).poison = s.poison := rfl
@[simp] theorem modHost_bad (s : State) (n : Nat) (f : HostS → HostS) : (s.modHost n f).bad = s.bad := rfl
@[simp] theorem modHost_sram (s : State) (n : Nat) (f : HostS → HostS) : (s.modHost n f).sram = s.sram := rfl
@[simp] theorem modHost_flight (s : State) (n : Nat) (f : HostS → HostS) : (s.modHost n f).flight = s.flight := rfl
@[simp] theorem modHost_hbms (s : State) (n : Nat) (f : HostS → HostS) : (s.modHost n f).hbms = s.hbms := rfl
@[simp] theorem modHost_mbx (s : State) (n : Nat) (f : HostS → HostS) : (s.modHost n f).mbx = s.mbx := rfl
@[simp] theorem modHost_groups (s : State) (n : Nat) (f : HostS → HostS) : (s.modHost n f).groups = s.groups := rfl
@[simp] theorem modHost_cmds (s : State) (n : Nat) (f : HostS → HostS) : (s.modHost n f).cmds = s.cmds := rfl
@[simp] theorem modHost_staged (s : State) (n : Nat) (f : HostS → HostS) : (s.modHost n f).staged = s.staged := rfl
@[simp] theorem modHost_devCommits (s : State) (n : Nat) (f : HostS → HostS) : (s.modHost n f).devCommits = s.devCommits := rfl
@[simp] theorem modHost_log (s : State) (n : Nat) (f : HostS → HostS) : (s.modHost n f).log = s.log := rfl
@[simp] theorem modHost_clk (s : State) (n : Nat) (f : HostS → HostS) : (s.modHost n f).clk = s.clk := rfl
@[simp] theorem modHost_gt (s : State) (n : Nat) (f : HostS → HostS) : (s.modHost n f).gt = s.gt := rfl
@[simp] theorem modHost_ao (s : State) (n : Nat) (f : HostS → HostS) : (s.modHost n f).ao = s.ao := rfl
@[simp] theorem modHost_boot (s : State) (n : Nat) (f : HostS → HostS) : (s.modHost n f).boot = s.boot := rfl
@[simp] theorem modHost_detections (s : State) (n : Nat) (f : HostS → HostS) : (s.modHost n f).detections = s.detections := rfl
@[simp] theorem modHost_mgmtQueue (s : State) (n : Nat) (f : HostS → HostS) : (s.modHost n f).mgmtQueue = s.mgmtQueue := rfl
@[simp] theorem modHost_sent (s : State) (n : Nat) (f : HostS → HostS) : (s.modHost n f).sent = s.sent := rfl

/-! ### State.modGroup -/
@[simp] theorem modGroup_pending (s : State) (n : Nat) (f : NetGroup → NetGroup) : (s.modGroup n f).pending = s.pending := rfl
@[simp] theorem modGroup_free (s : State) (n : Nat) (f : NetGroup → NetGroup) : (s.modGroup n f).free = s.free := rfl
@[simp] theorem modGroup_cores (s : State) (n : Nat) (f : NetGroup → NetGroup) : (s.modGroup n f).cores = s.cores := rfl
@[simp] theorem modGroup_clusters (s : State) (n : Nat) (f : NetGroup → NetGroup) : (s.modGroup n f).clusters = s.clusters := rfl
@[simp] theorem modGroup_parts (s : State) (n : Nat) (f : NetGroup → NetGroup) : (s.modGroup n f).parts = s.parts := rfl
@[simp] theorem modGroup_mem (s : State) (n : Nat) (f : NetGroup → NetGroup) : (s.modGroup n f).mem = s.mem := rfl
@[simp] theorem modGroup_poison (s : State) (n : Nat) (f : NetGroup → NetGroup) : (s.modGroup n f).poison = s.poison := rfl
@[simp] theorem modGroup_bad (s : State) (n : Nat) (f : NetGroup → NetGroup) : (s.modGroup n f).bad = s.bad := rfl
@[simp] theorem modGroup_sram (s : State) (n : Nat) (f : NetGroup → NetGroup) : (s.modGroup n f).sram = s.sram := rfl
@[simp] theorem modGroup_flight (s : State) (n : Nat) (f : NetGroup → NetGroup) : (s.modGroup n f).flight = s.flight := rfl
@[simp] theorem modGroup_hbms (s : State) (n : Nat) (f : NetGroup → NetGroup) : (s.modGroup n f).hbms = s.hbms := rfl
@[simp] theorem modGroup_mbx (s : State) (n : Nat) (f : NetGroup → NetGroup) : (s.modGroup n f).mbx = s.mbx := rfl
@[simp] theorem modGroup_hosts (s : State) (n : Nat) (f : NetGroup → NetGroup) : (s.modGroup n f).hosts = s.hosts := rfl
@[simp] theorem modGroup_cmds (s : State) (n : Nat) (f : NetGroup → NetGroup) : (s.modGroup n f).cmds = s.cmds := rfl
@[simp] theorem modGroup_staged (s : State) (n : Nat) (f : NetGroup → NetGroup) : (s.modGroup n f).staged = s.staged := rfl
@[simp] theorem modGroup_devCommits (s : State) (n : Nat) (f : NetGroup → NetGroup) : (s.modGroup n f).devCommits = s.devCommits := rfl
@[simp] theorem modGroup_log (s : State) (n : Nat) (f : NetGroup → NetGroup) : (s.modGroup n f).log = s.log := rfl
@[simp] theorem modGroup_clk (s : State) (n : Nat) (f : NetGroup → NetGroup) : (s.modGroup n f).clk = s.clk := rfl
@[simp] theorem modGroup_gt (s : State) (n : Nat) (f : NetGroup → NetGroup) : (s.modGroup n f).gt = s.gt := rfl
@[simp] theorem modGroup_ao (s : State) (n : Nat) (f : NetGroup → NetGroup) : (s.modGroup n f).ao = s.ao := rfl
@[simp] theorem modGroup_boot (s : State) (n : Nat) (f : NetGroup → NetGroup) : (s.modGroup n f).boot = s.boot := rfl
@[simp] theorem modGroup_detections (s : State) (n : Nat) (f : NetGroup → NetGroup) : (s.modGroup n f).detections = s.detections := rfl
@[simp] theorem modGroup_mgmtQueue (s : State) (n : Nat) (f : NetGroup → NetGroup) : (s.modGroup n f).mgmtQueue = s.mgmtQueue := rfl
@[simp] theorem modGroup_sent (s : State) (n : Nat) (f : NetGroup → NetGroup) : (s.modGroup n f).sent = s.sent := rfl

/-! ### State.addPoison -/
@[simp] theorem addPoison_pending (s : State) (n : Nat) : (s.addPoison n).pending = s.pending := rfl
@[simp] theorem addPoison_free (s : State) (n : Nat) : (s.addPoison n).free = s.free := rfl
@[simp] theorem addPoison_cores (s : State) (n : Nat) : (s.addPoison n).cores = s.cores := rfl
@[simp] theorem addPoison_clusters (s : State) (n : Nat) : (s.addPoison n).clusters = s.clusters := rfl
@[simp] theorem addPoison_parts (s : State) (n : Nat) : (s.addPoison n).parts = s.parts := rfl
@[simp] theorem addPoison_mem (s : State) (n : Nat) : (s.addPoison n).mem = s.mem := rfl
@[simp] theorem addPoison_sram (s : State) (n : Nat) : (s.addPoison n).sram = s.sram := rfl
@[simp] theorem addPoison_flight (s : State) (n : Nat) : (s.addPoison n).flight = s.flight := rfl
@[simp] theorem addPoison_hbms (s : State) (n : Nat) : (s.addPoison n).hbms = s.hbms := rfl
@[simp] theorem addPoison_mbx (s : State) (n : Nat) : (s.addPoison n).mbx = s.mbx := rfl
@[simp] theorem addPoison_groups (s : State) (n : Nat) : (s.addPoison n).groups = s.groups := rfl
@[simp] theorem addPoison_hosts (s : State) (n : Nat) : (s.addPoison n).hosts = s.hosts := rfl
@[simp] theorem addPoison_cmds (s : State) (n : Nat) : (s.addPoison n).cmds = s.cmds := rfl
@[simp] theorem addPoison_staged (s : State) (n : Nat) : (s.addPoison n).staged = s.staged := rfl
@[simp] theorem addPoison_devCommits (s : State) (n : Nat) : (s.addPoison n).devCommits = s.devCommits := rfl
@[simp] theorem addPoison_log (s : State) (n : Nat) : (s.addPoison n).log = s.log := rfl
@[simp] theorem addPoison_clk (s : State) (n : Nat) : (s.addPoison n).clk = s.clk := rfl
@[simp] theorem addPoison_gt (s : State) (n : Nat) : (s.addPoison n).gt = s.gt := rfl
@[simp] theorem addPoison_ao (s : State) (n : Nat) : (s.addPoison n).ao = s.ao := rfl
@[simp] theorem addPoison_boot (s : State) (n : Nat) : (s.addPoison n).boot = s.boot := rfl
@[simp] theorem addPoison_detections (s : State) (n : Nat) : (s.addPoison n).detections = s.detections := rfl
@[simp] theorem addPoison_mgmtQueue (s : State) (n : Nat) : (s.addPoison n).mgmtQueue = s.mgmtQueue := rfl
@[simp] theorem addPoison_sent (s : State) (n : Nat) : (s.addPoison n).sent = s.sent := rfl

/-! ### drawFree -/
@[simp] theorem drawFree_pending (s : State) : s.drawFree.2.pending = s.pending := rfl
@[simp] theorem drawFree_cores (s : State) : s.drawFree.2.cores = s.cores := rfl
@[simp] theorem drawFree_clusters (s : State) : s.drawFree.2.clusters = s.clusters := rfl
@[simp] theorem drawFree_parts (s : State) : s.drawFree.2.parts = s.parts := rfl
@[simp] theorem drawFree_mem (s : State) : s.drawFree.2.mem = s.mem := rfl
@[simp] theorem drawFree_poison (s : State) : s.drawFree.2.poison = s.poison := rfl
@[simp] theorem drawFree_bad (s : State) : s.drawFree.2.bad = s.bad := rfl
@[simp] theorem drawFree_sram (s : State) : s.drawFree.2.sram = s.sram := rfl
@[simp] theorem drawFree_flight (s : State) : s.drawFree.2.flight = s.flight := rfl
@[simp] theorem drawFree_hbms (s : State) : s.drawFree.2.hbms = s.hbms := rfl
@[simp] theorem drawFree_mbx (s : State) : s.drawFree.2.mbx = s.mbx := rfl
@[simp] theorem drawFree_groups (s : State) : s.drawFree.2.groups = s.groups := rfl
@[simp] theorem drawFree_hosts (s : State) : s.drawFree.2.hosts = s.hosts := rfl
@[simp] theorem drawFree_cmds (s : State) : s.drawFree.2.cmds = s.cmds := rfl
@[simp] theorem drawFree_staged (s : State) : s.drawFree.2.staged = s.staged := rfl
@[simp] theorem drawFree_devCommits (s : State) : s.drawFree.2.devCommits = s.devCommits := rfl
@[simp] theorem drawFree_log (s : State) : s.drawFree.2.log = s.log := rfl
@[simp] theorem drawFree_clk (s : State) : s.drawFree.2.clk = s.clk := rfl
@[simp] theorem drawFree_gt (s : State) : s.drawFree.2.gt = s.gt := rfl
@[simp] theorem drawFree_ao (s : State) : s.drawFree.2.ao = s.ao := rfl
@[simp] theorem drawFree_boot (s : State) : s.drawFree.2.boot = s.boot := rfl
@[simp] theorem drawFree_detections (s : State) : s.drawFree.2.detections = s.detections := rfl
@[simp] theorem drawFree_mgmtQueue (s : State) : s.drawFree.2.mgmtQueue = s.mgmtQueue := rfl
@[simp] theorem drawFree_sent (s : State) : s.drawFree.2.sent = s.sent := rfl
@[simp] theorem drawFree_free (s : State) : s.drawFree.2.free = s.free + 1 := rfl

/-! ### Units of kind core -/
theorem core_of_cores (s t : State) (h : t.cores = s.cores) (j : Nat) : t.core j = s.core j := by
  unfold State.core; rw [h]

@[simp] theorem setCore_core (s : State) (k : Nat) (c : Core) (j : Nat) :
    (s.setCore k c).core j = if j = k then c else s.core j := by
  unfold State.core State.setCore; simp only [mget_mput]

@[simp] theorem modCore_core (s : State) (k : Nat) (f : Core → Core) (j : Nat) :
    (s.modCore k f).core j = if j = k then f (s.core k) else s.core j := by
  unfold State.modCore; simp

@[simp] theorem setCluster_core (s : State) (k : Nat) (c : Cluster) (j : Nat) : (s.setCluster k c).core j = s.core j := rfl
@[simp] theorem modCluster_core (s : State) (k : Nat) (f : Cluster → Cluster) (j : Nat) : (s.modCluster k f).core j = s.core j := rfl
@[simp] theorem setPart_core (s : State) (k : Nat) (c : Part) (j : Nat) : (s.setPart k c).core j = s.core j := rfl
@[simp] theorem modPart_core (s : State) (k : Nat) (f : Part → Part) (j : Nat) : (s.modPart k f).core j = s.core j := rfl
@[simp] theorem setHbm_core (s : State) (k : Nat) (c : Hbm) (j : Nat) : (s.setHbm k c).core j = s.core j := rfl
@[simp] theorem modHbm_core (s : State) (k : Nat) (f : Hbm → Hbm) (j : Nat) : (s.modHbm k f).core j = s.core j := rfl
@[simp] theorem putByte_core (s : State) (a : Nat) (b : Byte) (j : Nat) : (s.putByte a b).core j = s.core j := rfl
@[simp] theorem putBytes_core (s : State) (a : Nat) (b : List Byte) (j : Nat) : (s.putBytes a b).core j = s.core j := rfl
@[simp] theorem zeroRange_core (s : State) (a n : Nat) (j : Nat) : (s.zeroRange a n).core j = s.core j := rfl
@[simp] theorem detect_core (s : State) (d : Detection) (j : Nat) : (s.detect d).core j = s.core j := rfl
@[simp] theorem flagSend_core (s : State) (m : FlagMsg) (j : Nat) : (s.flagSend m).core j = s.core j := rfl
@[simp] theorem send_core (s : State) (x : Sent) (j : Nat) : (s.send x).core j = s.core j := rfl
@[simp] theorem modMb_core (s : State) (n : Nat) (f : MbChan → MbChan) (j : Nat) : (s.modMb n f).core j = s.core j := rfl
@[simp] theorem modHost_core (s : State) (n : Nat) (f : HostS → HostS) (j : Nat) : (s.modHost n f).core j = s.core j := rfl
@[simp] theorem modGroup_core (s : State) (n : Nat) (f : NetGroup → NetGroup) (j : Nat) : (s.modGroup n f).core j = s.core j := rfl
@[simp] theorem addPoison_core (s : State) (n : Nat) (j : Nat) : (s.addPoison n).core j = s.core j := rfl
@[simp] theorem drawFree_core (s : State) (j : Nat) : s.drawFree.2.core j = s.core j := rfl

/-! ### Units of kind cluster -/
theorem cluster_of_clusters (s t : State) (h : t.clusters = s.clusters) (j : Nat) : t.cluster j = s.cluster j := by
  unfold State.cluster; rw [h]

@[simp] theorem setCluster_cluster (s : State) (k : Nat) (c : Cluster) (j : Nat) :
    (s.setCluster k c).cluster j = if j = k then c else s.cluster j := by
  unfold State.cluster State.setCluster; simp only [mget_mput]

@[simp] theorem modCluster_cluster (s : State) (k : Nat) (f : Cluster → Cluster) (j : Nat) :
    (s.modCluster k f).cluster j = if j = k then f (s.cluster k) else s.cluster j := by
  unfold State.modCluster; simp

@[simp] theorem setCore_cluster (s : State) (k : Nat) (c : Core) (j : Nat) : (s.setCore k c).cluster j = s.cluster j := rfl
@[simp] theorem modCore_cluster (s : State) (k : Nat) (f : Core → Core) (j : Nat) : (s.modCore k f).cluster j = s.cluster j := rfl
@[simp] theorem setPart_cluster (s : State) (k : Nat) (c : Part) (j : Nat) : (s.setPart k c).cluster j = s.cluster j := rfl
@[simp] theorem modPart_cluster (s : State) (k : Nat) (f : Part → Part) (j : Nat) : (s.modPart k f).cluster j = s.cluster j := rfl
@[simp] theorem setHbm_cluster (s : State) (k : Nat) (c : Hbm) (j : Nat) : (s.setHbm k c).cluster j = s.cluster j := rfl
@[simp] theorem modHbm_cluster (s : State) (k : Nat) (f : Hbm → Hbm) (j : Nat) : (s.modHbm k f).cluster j = s.cluster j := rfl
@[simp] theorem putByte_cluster (s : State) (a : Nat) (b : Byte) (j : Nat) : (s.putByte a b).cluster j = s.cluster j := rfl
@[simp] theorem putBytes_cluster (s : State) (a : Nat) (b : List Byte) (j : Nat) : (s.putBytes a b).cluster j = s.cluster j := rfl
@[simp] theorem zeroRange_cluster (s : State) (a n : Nat) (j : Nat) : (s.zeroRange a n).cluster j = s.cluster j := rfl
@[simp] theorem detect_cluster (s : State) (d : Detection) (j : Nat) : (s.detect d).cluster j = s.cluster j := rfl
@[simp] theorem flagSend_cluster (s : State) (m : FlagMsg) (j : Nat) : (s.flagSend m).cluster j = s.cluster j := rfl
@[simp] theorem send_cluster (s : State) (x : Sent) (j : Nat) : (s.send x).cluster j = s.cluster j := rfl
@[simp] theorem modMb_cluster (s : State) (n : Nat) (f : MbChan → MbChan) (j : Nat) : (s.modMb n f).cluster j = s.cluster j := rfl
@[simp] theorem modHost_cluster (s : State) (n : Nat) (f : HostS → HostS) (j : Nat) : (s.modHost n f).cluster j = s.cluster j := rfl
@[simp] theorem modGroup_cluster (s : State) (n : Nat) (f : NetGroup → NetGroup) (j : Nat) : (s.modGroup n f).cluster j = s.cluster j := rfl
@[simp] theorem addPoison_cluster (s : State) (n : Nat) (j : Nat) : (s.addPoison n).cluster j = s.cluster j := rfl
@[simp] theorem drawFree_cluster (s : State) (j : Nat) : s.drawFree.2.cluster j = s.cluster j := rfl

/-! ### Units of kind part -/
theorem part_of_parts (s t : State) (h : t.parts = s.parts) (j : Nat) : t.part j = s.part j := by
  unfold State.part; rw [h]

@[simp] theorem setPart_part (s : State) (k : Nat) (c : Part) (j : Nat) :
    (s.setPart k c).part j = if j = k then c else s.part j := by
  unfold State.part State.setPart; simp only [mget_mput]

@[simp] theorem modPart_part (s : State) (k : Nat) (f : Part → Part) (j : Nat) :
    (s.modPart k f).part j = if j = k then f (s.part k) else s.part j := by
  unfold State.modPart; simp

@[simp] theorem setCore_part (s : State) (k : Nat) (c : Core) (j : Nat) : (s.setCore k c).part j = s.part j := rfl
@[simp] theorem modCore_part (s : State) (k : Nat) (f : Core → Core) (j : Nat) : (s.modCore k f).part j = s.part j := rfl
@[simp] theorem setCluster_part (s : State) (k : Nat) (c : Cluster) (j : Nat) : (s.setCluster k c).part j = s.part j := rfl
@[simp] theorem modCluster_part (s : State) (k : Nat) (f : Cluster → Cluster) (j : Nat) : (s.modCluster k f).part j = s.part j := rfl
@[simp] theorem setHbm_part (s : State) (k : Nat) (c : Hbm) (j : Nat) : (s.setHbm k c).part j = s.part j := rfl
@[simp] theorem modHbm_part (s : State) (k : Nat) (f : Hbm → Hbm) (j : Nat) : (s.modHbm k f).part j = s.part j := rfl
@[simp] theorem putByte_part (s : State) (a : Nat) (b : Byte) (j : Nat) : (s.putByte a b).part j = s.part j := rfl
@[simp] theorem putBytes_part (s : State) (a : Nat) (b : List Byte) (j : Nat) : (s.putBytes a b).part j = s.part j := rfl
@[simp] theorem zeroRange_part (s : State) (a n : Nat) (j : Nat) : (s.zeroRange a n).part j = s.part j := rfl
@[simp] theorem detect_part (s : State) (d : Detection) (j : Nat) : (s.detect d).part j = s.part j := rfl
@[simp] theorem flagSend_part (s : State) (m : FlagMsg) (j : Nat) : (s.flagSend m).part j = s.part j := rfl
@[simp] theorem send_part (s : State) (x : Sent) (j : Nat) : (s.send x).part j = s.part j := rfl
@[simp] theorem modMb_part (s : State) (n : Nat) (f : MbChan → MbChan) (j : Nat) : (s.modMb n f).part j = s.part j := rfl
@[simp] theorem modHost_part (s : State) (n : Nat) (f : HostS → HostS) (j : Nat) : (s.modHost n f).part j = s.part j := rfl
@[simp] theorem modGroup_part (s : State) (n : Nat) (f : NetGroup → NetGroup) (j : Nat) : (s.modGroup n f).part j = s.part j := rfl
@[simp] theorem addPoison_part (s : State) (n : Nat) (j : Nat) : (s.addPoison n).part j = s.part j := rfl
@[simp] theorem drawFree_part (s : State) (j : Nat) : s.drawFree.2.part j = s.part j := rfl

/-! ### Units of kind hbm -/
theorem hbm_of_hbms (s t : State) (h : t.hbms = s.hbms) (j : Nat) : t.hbm j = s.hbm j := by
  unfold State.hbm; rw [h]

@[simp] theorem setHbm_hbm (s : State) (k : Nat) (c : Hbm) (j : Nat) :
    (s.setHbm k c).hbm j = if j = k then c else s.hbm j := by
  unfold State.hbm State.setHbm; simp only [mget_mput]

@[simp] theorem modHbm_hbm (s : State) (k : Nat) (f : Hbm → Hbm) (j : Nat) :
    (s.modHbm k f).hbm j = if j = k then f (s.hbm k) else s.hbm j := by
  unfold State.modHbm; simp

@[simp] theorem setCore_hbm (s : State) (k : Nat) (c : Core) (j : Nat) : (s.setCore k c).hbm j = s.hbm j := rfl
@[simp] theorem modCore_hbm (s : State) (k : Nat) (f : Core → Core) (j : Nat) : (s.modCore k f).hbm j = s.hbm j := rfl
@[simp] theorem setCluster_hbm (s : State) (k : Nat) (c : Cluster) (j : Nat) : (s.setCluster k c).hbm j = s.hbm j := rfl
@[simp] theorem modCluster_hbm (s : State) (k : Nat) (f : Cluster → Cluster) (j : Nat) : (s.modCluster k f).hbm j = s.hbm j := rfl
@[simp] theorem setPart_hbm (s : State) (k : Nat) (c : Part) (j : Nat) : (s.setPart k c).hbm j = s.hbm j := rfl
@[simp] theorem modPart_hbm (s : State) (k : Nat) (f : Part → Part) (j : Nat) : (s.modPart k f).hbm j = s.hbm j := rfl
@[simp] theorem putByte_hbm (s : State) (a : Nat) (b : Byte) (j : Nat) : (s.putByte a b).hbm j = s.hbm j := rfl
@[simp] theorem putBytes_hbm (s : State) (a : Nat) (b : List Byte) (j : Nat) : (s.putBytes a b).hbm j = s.hbm j := rfl
@[simp] theorem zeroRange_hbm (s : State) (a n : Nat) (j : Nat) : (s.zeroRange a n).hbm j = s.hbm j := rfl
@[simp] theorem detect_hbm (s : State) (d : Detection) (j : Nat) : (s.detect d).hbm j = s.hbm j := rfl
@[simp] theorem flagSend_hbm (s : State) (m : FlagMsg) (j : Nat) : (s.flagSend m).hbm j = s.hbm j := rfl
@[simp] theorem send_hbm (s : State) (x : Sent) (j : Nat) : (s.send x).hbm j = s.hbm j := rfl
@[simp] theorem modMb_hbm (s : State) (n : Nat) (f : MbChan → MbChan) (j : Nat) : (s.modMb n f).hbm j = s.hbm j := rfl
@[simp] theorem modHost_hbm (s : State) (n : Nat) (f : HostS → HostS) (j : Nat) : (s.modHost n f).hbm j = s.hbm j := rfl
@[simp] theorem modGroup_hbm (s : State) (n : Nat) (f : NetGroup → NetGroup) (j : Nat) : (s.modGroup n f).hbm j = s.hbm j := rfl
@[simp] theorem addPoison_hbm (s : State) (n : Nat) (j : Nat) : (s.addPoison n).hbm j = s.hbm j := rfl
@[simp] theorem drawFree_hbm (s : State) (j : Nat) : s.drawFree.2.hbm j = s.hbm j := rfl

end Sys2Proof.Laws
end

