-- ==== Sys2Proof/Laws/Place.lean ====
section
/-!
SUPPORT. Writes in place: a placed byte changes memory at its address, the old line in the cellar and dirty marks,
and nothing else.
-/
namespace Sys2Proof.Laws
open Sys2Proof Sys2Proof.Machine

/-- From s to t nothing changes but cellars and schedules of partitions. -/
def Logged (s t : State) : Prop :=
  t = { s with parts := t.parts } ∧ ∀ p, t.part p = { s.part p with cellar := (t.part p).cellar, scheds := (t.part p).scheds }

theorem Logged.refl (s : State) : Logged s s := ⟨rfl, fun _ => rfl⟩

theorem Logged.trans {s t u : State} (h : Logged s t) (g : Logged t u) : Logged s u := by
  refine ⟨?_, fun p => ?_⟩
  · rw [g.1, h.1]
  · rw [g.2 p, h.2 p]

theorem logged_modPart (s : State) (p : Nat) (f : Part → Part)
    (hf : ∀ q, f q = { q with cellar := (f q).cellar, scheds := (f q).scheds }) : Logged s (s.modPart p f) := by
  refine ⟨rfl, fun j => ?_⟩
  by_cases h : j = p
  · subst h; simp only [modPart_part, if_true]; exact hf _
  · simp [h]

theorem logged_foldl {α : Type} (g : State → α → State) (hg : ∀ s x, Logged s (g s x)) (l : List α) (s : State) :
    Logged s (l.foldl g s) := by
  induction l generalizing s with
  | nil => exact Logged.refl s
  | cons x l ih => exact (hg s x).trans (ih _)

theorem logged_markDirty (s : State) (a : Nat) : Logged s (s.markDirty a) := by
  unfold State.markDirty
  split
  · split
    · exact Logged.refl s
    · apply logged_foldl
      intro s x
      dsimp only
      split
      · exact logged_modPart _ _ _ (fun _ => rfl)
      · exact Logged.refl s
  · exact Logged.refl s

theorem logged_logByte (s : State) (a : Nat) : Logged s (s.logByte a) := by
  unfold State.logByte
  split
  · exact Logged.refl s
  · rename_i p _
    have hd : Logged s (if (s.part p).launch.isSome then s.markDirty a else s) := by
      split
      · exact logged_markDirty s a
      · exact Logged.refl s
    dsimp only
    generalize (if (s.part p).launch.isSome then s.markDirty a else s) = u at hd ⊢
    split
    · exact hd.trans (logged_modPart u p
        (fun q => { q with cellar := q.cellar ++ [(a / 64, u.getBytes (a / 64 * 64) 64)] }) (fun _ => rfl))
    · exact hd

/-- From s to t memory may change as well. -/
def Placed (s t : State) : Prop :=
  t = { s with parts := t.parts, mem := t.mem } ∧ ∀ p, t.part p = { s.part p with cellar := (t.part p).cellar, scheds := (t.part p).scheds }

theorem Placed.refl (s : State) : Placed s s := ⟨rfl, fun _ => rfl⟩

theorem Placed.trans {s t u : State} (h : Placed s t) (g : Placed t u) : Placed s u := by
  refine ⟨?_, fun p => ?_⟩
  · rw [g.1, h.1]
  · rw [g.2 p, h.2 p]

theorem Logged.placed {s t : State} (h : Logged s t) : Placed s t := by
  refine ⟨?_, h.2⟩
  have := h.1
  rw [this]

theorem placed_placeByte (s : State) (a : Nat) (b : Byte) : Placed s (s.placeByte a b) := by
  refine (logged_logByte s a).placed.trans ⟨rfl, fun _ => rfl⟩

@[simp] theorem logByte_mem (s : State) (a : Nat) : (s.logByte a).mem = s.mem := by
  rw [(logged_logByte s a).1]

theorem placeByte_getByte (s : State) (a : Nat) (b : Byte) (a' : Nat) :
    (s.placeByte a b).getByte a' = if a' = a then b else s.getByte a' := by
  simp [State.placeByte, State.getByte, State.putByte]

theorem placed_placeBytes (bs : List Byte) (s : State) (a : Nat) : Placed s (s.placeBytes a bs) := by
  induction bs generalizing s a with
  | nil => exact Placed.refl s
  | cons b bs ih => exact (placed_placeByte s a b).trans (ih _ _)

/-- Bytes placed at consecutive addresses: memory is what memPutN makes of it. -/
theorem placeBytes_mem (bs : List Byte) (s : State) (a : Nat) : (s.placeBytes a bs).mem = memPutN s.mem a bs := by
  induction bs generalizing s a with
  | nil => rfl
  | cons b bs ih => simp [State.placeBytes, memPutN, ih, State.placeByte, State.putByte]

theorem placed_placeAt (cs : List (Nat × Byte)) (s : State) : Placed s (s.placeAt cs) := by
  induction cs generalizing s with
  | nil => exact Placed.refl s
  | cons c cs ih => exact (placed_placeByte s c.1 c.2).trans (ih _)

/-- An address that none of the cells names keeps its byte. -/
theorem placeAt_outside (cs : List (Nat × Byte)) (s : State) (a : Nat) (h : ∀ c ∈ cs, c.1 ≠ a) :
    (s.placeAt cs).getByte a = s.getByte a := by
  induction cs generalizing s with
  | nil => rfl
  | cons c cs ih =>
    have h1 : ¬ a = c.1 := fun e => h c (by simp) e.symm
    have h2 : ∀ x ∈ cs, x.1 ≠ a := fun x hx => h x (by simp [hx])
    unfold State.placeAt
    rw [ih _ h2, placeByte_getByte]; simp [h1]

/-- Every placed write keeps the canonical form of memory. -/
theorem placeBytes_wf (bs : List Byte) (s : State) (a : Nat) (h : Memory.wf s.mem = true) :
    Memory.wf (s.placeBytes a bs).mem = true := by
  rw [placeBytes_mem]; exact memWf_putN _ _ _ h

theorem placeAt_wf (cs : List (Nat × Byte)) (s : State) (h : Memory.wf s.mem = true) :
    Memory.wf (s.placeAt cs).mem = true := by
  induction cs generalizing s with
  | nil => exact h
  | cons c cs ih =>
    apply ih
    simpa [State.placeByte, State.putByte] using memWf_put s.mem c.1 c.2 h

end Sys2Proof.Laws
end

