-- ==== Sys2Proof/Laws/Stack.lean ====
section
/-!
SUPPORT. The stacks: an entry written is read back, and a stack effect pops and pushes what it is given and keeps
every entry below, wherever the cache boundary lies (R165).
-/
namespace Sys2Proof.Laws
open Sys2Proof Sys2Proof.Machine

@[simp] theorem leBytes_length (n v : Nat) : (leBytes n v).length = n := by
  induction n generalizing v with
  | zero => rfl
  | succ n ih => simp [leBytes, ih]

theorem leNat_leBytes (n v : Nat) : leNat (leBytes n v) = v % 256 ^ n := by
  induction n generalizing v with
  | zero => simp [leBytes, leNat, Nat.mod_one]
  | succ n ih =>
    simp only [leBytes, leNat, ih, BitVec.toNat_ofNat]
    rw [show 256 ^ (n + 1) = 256 * 256 ^ n by ring, Nat.mod_mul]

theorem leWord_leBytes (v : Word) : leWord (leBytes 8 v.toNat) = v := by
  unfold leWord
  rw [leNat_leBytes]
  apply BitVec.eq_of_toNat_eq
  simp only [BitVec.toNat_ofNat]
  have := v.isLt
  norm_num at *
  omega

theorem memGetN_putN_self (m : List Host.Cell) (a : Nat) (bs : List Byte) :
    memGetN (memPutN m a bs) a bs.length = bs := by
  apply List.ext_getElem
  · simp [memGetN]
  · intro i h1 h2
    simp only [memGetN, List.getElem_map, List.getElem_range]
    exact memGet_putN_inside bs m a i h2

theorem memGetN_putN_outside (m : List Host.Cell) (a a' n : Nat) (bs : List Byte) (h : a' + n ≤ a ∨ a + bs.length ≤ a') :
    memGetN (memPutN m a bs) a' n = memGetN m a' n := by
  apply List.map_congr_left
  intro i hi
  have := List.mem_range.mp hi
  exact memGet_putN_outside bs m a (a' + i) (by omega)

/-- What a write of a stack entry leaves. -/
def Kept (s t : State) : Prop :=
  t = { s with parts := t.parts, mem := t.mem, sram := t.sram, bad := t.bad }
    ∧ ∀ p, t.part p = { s.part p with cellar := (t.part p).cellar, scheds := (t.part p).scheds }

theorem Kept.refl (s : State) : Kept s s := ⟨rfl, fun _ => rfl⟩

theorem Kept.trans {s t u : State} (h : Kept s t) (g : Kept t u) : Kept s u := by
  refine ⟨?_, fun p => ?_⟩
  · rw [g.1, h.1]
  · rw [g.2 p, h.2 p]

theorem Kept.core {s t : State} (h : Kept s t) (j : Nat) : t.core j = s.core j := by
  rw [h.1]; rfl

theorem Placed.kept {s t : State} (h : Placed s t) : Kept s t := by
  refine ⟨?_, h.2⟩
  have := h.1
  rw [this]

theorem kept_stackPut (s : State) (k a : Nat) (v : Word) : Kept s (s.stackPut k a v) := by
  unfold State.stackPut
  split
  · exact ⟨rfl, fun _ => rfl⟩
  · exact (placed_placeBytes _ _ _).kept

@[simp] theorem stackGet_put (s : State) (k a : Nat) (v : Word) : (s.stackPut k a v).stackGet k a = v := by
  unfold State.stackPut State.stackGet
  split
  · have := memGetN_putN_self s.sram a (leBytes 8 v.toNat)
    rw [leBytes_length] at this
    rw [this, leWord_leBytes]
  · unfold State.getBytes
    rw [placeBytes_mem]
    have := memGetN_putN_self s.mem (spadAddr k a) (leBytes 8 v.toNat)
    rw [leBytes_length] at this
    rw [this, leWord_leBytes]

theorem stackGet_put_other (s : State) (k a a' : Nat) (v : Word) (h : a' + 8 ≤ a ∨ a + 8 ≤ a') :
    (s.stackPut k a v).stackGet k a' = s.stackGet k a' := by
  unfold State.stackPut State.stackGet
  split
  · rw [memGetN_putN_outside _ _ _ _ _ (by simpa using h)]
  · unfold State.getBytes
    rw [placeBytes_mem, memGetN_putN_outside _ _ _ _ _ (by simp [spadAddr]; omega)]

/-- A stack entry of a scratchpad writes its own bytes alone; one of the maltster writes no addressed byte. -/
theorem stackPut_getByte (s : State) (k a : Nat) (v : Word) (a' : Nat)
    (h : k = maltsterCore ∨ a' < spadAddr k a ∨ spadAddr k a + 8 ≤ a') :
    (s.stackPut k a v).getByte a' = s.getByte a' := by
  unfold State.stackPut
  split
  · rfl
  · unfold State.getByte
    rw [placeBytes_mem]
    exact memGet_putN_outside _ _ _ _ (by simp; tauto)

/-! ### Spilling -/

theorem kept_foldl {α : Type} (g : State → α → State) (hg : ∀ s x, Kept s (g s x)) (l : List α) (s : State) :
    Kept s (l.foldl g s) := by
  induction l generalizing s with
  | nil => exact Kept.refl s
  | cons x l ih => exact (hg s x).trans (ih _)

theorem kept_outClears (s : State) (k : Nat) (out : List Nat) : Kept s (s.outClears k out) := ⟨rfl, fun _ => rfl⟩

@[simp] theorem outClears_stackGet (s : State) (k : Nat) (out : List Nat) (j a : Nat) :
    (s.outClears k out).stackGet j a = s.stackGet j a := rfl

@[simp] theorem outClears_getByte (s : State) (k : Nat) (out : List Nat) (a : Nat) :
    (s.outClears k out).getByte a = s.getByte a := rfl

theorem kept_spill (s : State) (k ptr : Nat) (c : List Word) (keep : Nat) : Kept s (s.spill k ptr c keep).2 :=
  (kept_foldl _ (fun s _ => kept_stackPut s _ _ _) _ _).trans (kept_outClears _ _ _)

theorem foldl_stackPut_get (k ptr : Nat) (c : List Word) (l : List Nat) (hl : l.Nodup) (s : State) (i : Nat) :
    (l.foldl (fun s i => s.stackPut k (ptr + 8 * i) (c.getD i 0)) s).stackGet k (ptr + 8 * i)
      = if i ∈ l then c.getD i 0 else s.stackGet k (ptr + 8 * i) := by
  induction l generalizing s with
  | nil => simp
  | cons j l ih =>
    rw [List.nodup_cons] at hl
    simp only [List.foldl_cons]
    rw [ih hl.2]
    by_cases h : i = j
    · subst h; simp [hl.1]
    · by_cases hm : i ∈ l
      · simp [hm]
      · simp only [hm, if_false, List.mem_cons, h, or_self]
        exact stackGet_put_other _ _ _ _ _ (by omega)

/-- Where a spilled entry is read from memory it has the value it had in the cache. -/
theorem spill_get (s : State) (k ptr : Nat) (c : List Word) (keep i : Nat) :
    (s.spill k ptr c keep).2.stackGet k (ptr + 8 * i)
      = if keep ≤ i ∧ i < c.length then c.getD i 0 else s.stackGet k (ptr + 8 * i) := by
  unfold State.spill
  dsimp only
  rw [outClears_stackGet, foldl_stackPut_get _ _ _ _ ((List.nodup_range).filter _)]
  simp [List.mem_filter, List.mem_range, and_comm]

/-- A spill writes no byte but those of the entries it spills. -/
theorem spill_getByte (s : State) (k ptr : Nat) (c : List Word) (keep a : Nat)
    (h : k = maltsterCore ∨ ∀ i, keep ≤ i → i < c.length → a < spadAddr k (ptr + 8 * i) ∨ spadAddr k (ptr + 8 * i) + 8 ≤ a) :
    (s.spill k ptr c keep).2.getByte a = s.getByte a := by
  unfold State.spill
  dsimp only
  rw [outClears_getByte]
  have hl : ∀ i ∈ (List.range c.length).filter (fun i => decide (keep ≤ i)), keep ≤ i ∧ i < c.length := by
    intro i hi; simp [List.mem_filter] at hi; exact ⟨hi.2, hi.1⟩
  generalize (List.range c.length).filter (fun i => decide (keep ≤ i)) = l at hl
  induction l generalizing s with
  | nil => rfl
  | cons j l ih =>
    simp only [List.foldl_cons]
    rw [ih _ (fun i hi => hl i (by simp [hi]))]
    obtain ⟨h1, h2⟩ := hl j (by simp)
    exact stackPut_getByte _ _ _ _ _ (h.imp id (fun h => h j h1 h2))

/-! ### Stack effects -/

/-- The entries a stack effect holds in the cache before it spills. -/
def filledEntries (s : State) (k : Nat) (b : Bank) (x : Stk) (pops : Nat) : List Word :=
  (List.range (min (max pops (b.cache x).length) (max (b.cache x).length (b.depth x)))).map
    (fun i => s.stackEntry k b x i)

theorem stackApply_eq (s : State) (k : Nat) (b : Bank) (x : Stk) (pops : Nat) (pushes : List Word) :
    s.stackApply k b x pops pushes =
      ((s.spill k (b.ptr x) (filledEntries s k b x pops) (16 + pops - pushes.length)).2,
        b.ptr x + 8 * pops - 8 * pushes.length,
        pushes ++ ((filledEntries s k b x pops).take (16 + pops - pushes.length)).drop pops) := rfl

theorem filled_length (s : State) (k : Nat) (b : Bank) (x : Stk) (pops : Nat) :
    (b.cache x).length ≤ (filledEntries s k b x pops).length := by
  simp only [filledEntries, List.length_map, List.length_range]; omega

theorem filled_getD (s : State) (k : Nat) (b : Bank) (x : Stk) (pops i : Nat)
    (h : i < (filledEntries s k b x pops).length) : (filledEntries s k b x pops)[i] = s.stackEntry k b x i := by
  simp [filledEntries]

theorem stackEntry_mem (s : State) (k : Nat) (b : Bank) (x : Stk) (i : Nat) (h : (b.cache x).length ≤ i) :
    s.stackEntry k b x i = s.stackGet k (b.ptr x + 8 * i) := by
  unfold State.stackEntry
  rw [List.getElem?_eq_none h]

theorem stackEntry_cache (s : State) (k : Nat) (b : Bank) (x : Stk) (i : Nat) (h : i < (b.cache x).length) :
    s.stackEntry k b x i = (b.cache x)[i] := by
  unfold State.stackEntry
  rw [List.getElem?_eq_getElem h]

/-- After a stack effect the results lie on top and every entry below is as before. -/
theorem stackApply_entry (s : State) (k : Nat) (b b' : Bank) (x : Stk) (pops : Nat) (pushes : List Word) (t : State)
    (hm : pushes.length ≤ 16) (hp : 8 * pushes.length ≤ b.ptr x + 8 * pops)
    (hb : b'.ptr x = (s.stackApply k b x pops pushes).2.1) (hc : b'.cache x = (s.stackApply k b x pops pushes).2.2)
    (ht : ∀ a, t.stackGet k a = (s.stackApply k b x pops pushes).1.stackGet k a) (j : Nat) :
    t.stackEntry k b' x j
      = if j < pushes.length then pushes.getD j 0 else s.stackEntry k b x (j - pushes.length + pops) := by
  rw [stackApply_eq] at hb hc ht
  dsimp only at hb hc ht
  generalize hf : filledEntries s k b x pops = f at hb hc ht
  have hfl : (b.cache x).length ≤ f.length := hf ▸ filled_length s k b x pops
  have hfg : ∀ i (h : i < f.length), f[i] = s.stackEntry k b x i := by
    subst hf; exact fun i h => filled_getD s k b x pops i h
  have hcl : (b'.cache x).length = pushes.length + (min (16 + pops - pushes.length) f.length - pops) := by
    rw [hc]; simp
  by_cases hj : j < (b'.cache x).length
  · rw [stackEntry_cache _ _ _ _ _ hj]
    by_cases h1 : j < pushes.length
    · simp only [h1, if_true, hc]
      rw [List.getElem_append_left h1, List.getD_eq_getElem _ _ h1]
    · simp only [h1, if_false, hc]
      rw [List.getElem_append_right (by omega), List.getElem_drop, List.getElem_take, hfg]
      congr 1; omega
  · rw [stackEntry_mem _ _ _ _ _ (by omega), ht, hb]
    have h1 : ¬ j < pushes.length := by omega
    simp only [h1, if_false]
    rw [show b.ptr x + 8 * pops - 8 * pushes.length + 8 * j = b.ptr x + 8 * (j - pushes.length + pops) by omega,
      spill_get]
    by_cases h2 : j - pushes.length + pops < f.length
    · rw [if_pos ⟨by omega, h2⟩, List.getD_eq_getElem _ _ h2, hfg]
    · rw [if_neg (by omega), stackEntry_mem _ _ _ _ _ (by omega)]

end Sys2Proof.Laws
end

