-- ==== Sys2Proof/Laws/Instr.lean ====
section
/-!
SUPPORT. What every control-core instruction shares: the fetch, the checks, a stack effect and the advance of the
PC, each with what it leaves.
-/
namespace Sys2Proof.Laws
open Sys2Proof Sys2Proof.Machine

/-! ### Banks -/

@[simp] theorem Four_get_set {α : Type} (f : Four α) (i j : Fin 4) (v : α) :
    (f.set i v).get j = if j = i then v else f.get j := by
  fin_cases i <;> fin_cases j <;> rfl

@[simp] theorem Four_set_set {α : Type} (f : Four α) (i : Fin 4) (v w : α) : (f.set i v).set i w = f.set i w := by
  fin_cases i <;> rfl

@[simp] theorem Four_set_get {α : Type} (f : Four α) (i : Fin 4) : f.set i (f.get i) = f := by
  fin_cases i <;> rfl

@[simp] theorem setBank_bank (c : Core) (b : Bank) : (c.setBank b).bank = b := by simp [Core.setBank, Core.bank]
@[simp] theorem setBank_ring (c : Core) (b : Bank) : (c.setBank b).ring = c.ring := rfl
@[simp] theorem setBank_setBank (c : Core) (b b' : Bank) : (c.setBank b).setBank b' = c.setBank b' := by
  simp [Core.setBank]

theorem setPc_eq (c : Core) (pc : Word) : c.setPc pc = c.setBank { c.bank with pc := pc } := rfl

@[simp] theorem withStack_ptr (b : Bank) (x : Stk) (p : Nat) (c : List Word) : (b.withStack x p c).ptr x = p := by
  cases x <;> rfl
@[simp] theorem withStack_cache (b : Bank) (x : Stk) (p : Nat) (c : List Word) : (b.withStack x p c).cache x = c := by
  cases x <;> rfl
@[simp] theorem withStack_floor (b : Bank) (x y : Stk) (p : Nat) (c : List Word) : (b.withStack x p c).floor y = b.floor y := by
  cases x <;> rfl
@[simp] theorem withStack_pc (b : Bank) (x : Stk) (p : Nat) (c : List Word) : (b.withStack x p c).pc = b.pc := by
  cases x <;> rfl
@[simp] theorem withStack_busy (b : Bank) (x : Stk) (p : Nat) (c : List Word) : (b.withStack x p c).busy = b.busy := by
  cases x <;> rfl
@[simp] theorem withPc_ptr (b : Bank) (pc : Word) (x : Stk) : Bank.ptr { b with pc := pc } x = b.ptr x := by cases x <;> rfl
@[simp] theorem withPc_cache (b : Bank) (pc : Word) (x : Stk) : Bank.cache { b with pc := pc } x = b.cache x := by cases x <;> rfl
@[simp] theorem withPc_floor (b : Bank) (pc : Word) (x : Stk) : Bank.floor { b with pc := pc } x = b.floor x := by cases x <;> rfl

/-! ### The fetch -/

/-- From s to t one or more lines have been read: the lines and counters of caches, the merging buffers, what these put
in place, the records of errors met there, and the free values drawn. -/
def Fetched (s t : State) : Prop :=
  t = { s with cores := t.cores, clusters := t.clusters, parts := t.parts, mem := t.mem, poison := t.poison,
               bad := t.bad, hbms := t.hbms, detections := t.detections, free := t.free }
    ∧ ∀ j, t.core j = { s.core j with
        l1i := (t.core j).l1i, ipar := (t.core j).ipar, l1d := (t.core j).l1d, dpar := (t.core j).dpar,
        issued := (t.core j).issued, sp := (t.core j).sp }

theorem Fetched.refl (s : State) : Fetched s s := ⟨rfl, fun _ => rfl⟩

theorem Fetched.trans {s t u : State} (h : Fetched s t) (g : Fetched t u) : Fetched s u := by
  refine ⟨?_, fun j => ?_⟩
  · rw [g.1, h.1]
  · rw [g.2 j, h.2 j]

theorem fetched_modCore (s : State) (k : Nat) (f : Core → Core)
    (hf : ∀ c, f c = { c with l1i := (f c).l1i, ipar := (f c).ipar, l1d := (f c).l1d, dpar := (f c).dpar,
                              issued := (f c).issued, sp := (f c).sp }) : Fetched s (s.modCore k f) := by
  refine ⟨rfl, fun j => ?_⟩
  by_cases h : j = k
  · subst h; simp only [modCore_core, if_true]; exact hf _
  · simp [h]

theorem fetched_modCluster (s : State) (c : Nat) (f : Cluster → Cluster) : Fetched s (s.modCluster c f) := ⟨rfl, fun _ => rfl⟩
theorem fetched_modHbm (s : State) (i : Nat) (f : Hbm → Hbm) : Fetched s (s.modHbm i f) := ⟨rfl, fun _ => rfl⟩
theorem fetched_setHbm (s : State) (i : Nat) (h : Hbm) : Fetched s (s.setHbm i h) := ⟨rfl, fun _ => rfl⟩
theorem fetched_detect (s : State) (d : Detection) : Fetched s (s.detect d) := ⟨rfl, fun _ => rfl⟩
theorem fetched_addBad (s : State) (a : Nat) : Fetched s (s.addBad a) := ⟨rfl, fun _ => rfl⟩
theorem fetched_addPoison (s : State) (a : Nat) : Fetched s (s.addPoison a) := ⟨rfl, fun _ => rfl⟩
theorem fetched_drawFree (s : State) : Fetched s s.drawFree.2 := ⟨rfl, fun _ => rfl⟩

theorem Placed.fetched {s t : State} (h : Placed s t) : Fetched s t := by
  have h1 := h.1
  refine ⟨by rw [h1], fun j => ?_⟩
  have : t.core j = s.core j := by rw [h1]; rfl
  rw [this]

theorem fetched_foldl {α : Type} (g : State → α → State) (hg : ∀ s x, Fetched s (g s x)) (l : List α) (s : State) :
    Fetched s (l.foldl g s) := by
  induction l generalizing s with
  | nil => exact Fetched.refl s
  | cons x l ih => exact (hg s x).trans (ih _)

theorem fetched_pcUncorrectable (s : State) (pc off a m : Nat) (x : Bool) : Fetched s (s.pcUncorrectable pc off a m x) :=
  (fetched_modHbm s _ _).trans (fetched_detect _ _)

/-- A protected read changes counters and records of errors alone. -/
theorem fetched_eccRead (s : State) (a m : Nat) (e : Ecc) : Fetched s (s.eccRead a m e).1 := by
  have hc : Fetched s (s.hbmCorrected a m) := by
    unfold State.hbmCorrected State.pcCorrected
    split
    · exact Fetched.refl s
    · dsimp only
      split
      · exact (fetched_setHbm s _ _).trans (fetched_detect _ _)
      · exact fetched_setHbm s _ _
  have ho : Fetched s (s.hbmOnDie a) := by
    unfold State.hbmOnDie
    split
    · exact Fetched.refl s
    · exact fetched_modHbm s _ _
  have hu : Fetched s (s.hbmUncorrectable a m) := by
    unfold State.hbmUncorrectable
    split
    · exact fetched_addPoison s _
    · exact (fetched_addPoison s _).trans (fetched_pcUncorrectable _ _ _ _ _ _)
  have hs (k off : Nat) : Fetched s (s.spUncorrectable k off m) :=
    ((fetched_addBad s _).trans (fetched_modCore _ k _ (fun _ => rfl))).trans (fetched_detect _ _)
  have ht (c off : Nat) : Fetched s (s.tunUncorrectable c off m) :=
    ((fetched_addBad s _).trans (fetched_modCluster _ c _)).trans (fetched_detect _ _)
  have hsc (k : Nat) : Fetched s (s.spCorrected k) := fetched_modCore s k _ (fun _ => rfl)
  have htc (c : Nat) : Fetched s (s.tunCorrected c) := fetched_modCluster s c _
  unfold State.eccRead
  dsimp only
  repeat' split
  all_goals first
    | exact Fetched.refl s
    | exact hc | exact ho | exact hu | exact hs _ _ | exact ht _ _ | exact hsc _ | exact htc _

theorem fetched_placeCells (s : State) (cs : List (Nat × Byte)) (m : Nat) : Fetched s (s.placeCells cs m) := by
  unfold State.placeCells
  dsimp only
  refine Fetched.trans ?_ (fetched_foldl _ (fun s a => fetched_eccRead s a m .clean) _ _)
  exact (placed_placeAt _ s).fetched.trans ⟨rfl, fun _ => rfl⟩

theorem fetched_lineInPlace (s : State) (c line : Nat) : Fetched s (s.lineInPlace c line) := by
  refine fetched_foldl _ (fun s _ => ?_) _ s
  unfold State.entryInPlace
  split
  · exact Fetched.refl s
  · exact (fetched_placeCells s _ _).trans (fetched_modCluster _ _ _)

theorem fetched_l2Line (s : State) (c line : Nat) (p : Bool) : Fetched s (s.l2Line c line p).2 := by
  have h (f : Cluster → Cluster) : Fetched s ((s.modCluster c f).lineInPlace c line) :=
    (fetched_modCluster s c f).trans (fetched_lineInPlace _ c line)
  unfold State.l2Line
  dsimp only
  split
  · exact Fetched.refl s
  · split
    · exact h _
    · split
      · exact (h _).trans (fetched_drawFree _)
      · dsimp only
        refine Fetched.trans ?_ (fetched_modCluster _ c _)
        exact (h _).trans (fetched_drawFree _)

theorem fetched_l1Line (s : State) (k line : Nat) (x p q : Bool) : Fetched s (s.l1Line k line x p q).2 := by
  have h (f : Core → Core)
      (hf : ∀ c, f c = { c with l1i := (f c).l1i, ipar := (f c).ipar, l1d := (f c).l1d, dpar := (f c).dpar,
                                issued := (f c).issued, sp := (f c).sp }) :
      Fetched s ((s.modCore k f).l2Line (clusterOf k) line q).2 :=
    (fetched_modCore s k f hf).trans (fetched_l2Line _ _ _ _)
  cases x
  all_goals
    unfold State.l1Line
    simp only [Bool.false_eq_true, if_true, if_false]
    split
    · exact Fetched.refl s
    · generalize hu : State.l2Line _ _ _ _ = u
      have hf : Fetched s u.2 := by rw [← hu]; refine h _ (fun _ => ?_); rfl
      split
      · exact hf
      · split
        · exact hf.trans (fetched_drawFree _)
        · dsimp only
          refine (hf.trans (fetched_drawFree _)).trans (fetched_modCore _ k _ (fun _ => rfl))

theorem fetched_fetchLine (s : State) (k va : Nat) : Fetched s (s.fetchLine k va) := by
  unfold State.fetchLine
  split
  · split
    · exact Fetched.refl s
    · exact Fetched.trans (t := { s with free := s.free + 1 }) ⟨rfl, fun _ => rfl⟩ (fetched_l1Line _ _ _ _ _ _)
  · exact Fetched.refl s

/-- What the fetch of an instruction leaves (R204 to R208, R212, R213). -/
theorem fetched_fetched (s : State) (k n : Nat) : Fetched s (s.fetched k n) := by
  unfold State.fetched
  dsimp only
  refine Fetched.trans ?_ (fetched_modCore _ k _ (fun _ => rfl))
  split
  · exact fetched_fetchLine s k _
  · exact (fetched_fetchLine s k _).trans (fetched_fetchLine _ k _)

theorem Fetched.bank {s t : State} (h : Fetched s t) (k : Nat) : (t.core k).bank = (s.core k).bank := by
  rw [h.2 k]; rfl
theorem Fetched.ring {s t : State} (h : Fetched s t) (k : Nat) : (t.core k).ring = (s.core k).ring := by
  rw [h.2 k]

/-! ### The checks -/

/-- The stack check of R166 passes where the entries fit. -/
theorem stackFault_none (s : State) (k : Nat) (x : Stk) (reads pops pushes : Nat) (h : s.Fits k x pops pushes reads) :
    (s.core k).stackFault x (max pops reads) pops pushes = none := by
  obtain ⟨h0, h1, h2, -⟩ := h
  unfold Core.stackFault
  dsimp only
  rw [if_neg (by omega), if_neg (by omega)]

/-- An instruction that runs, passes its ring limit and fits its stacks is carried out after its fetch. -/
theorem coreInstr_runs (k : CoreId) (x : Shape) (body : State → Out) (s : State) (hr : s.Runs k.val x.bytes.length)
    (hi : x.illegal = none) (hring : (s.core k.val).ring.val ≤ x.maxRing)
    (hd : s.Fits k.val .data x.pops x.pushes x.reads) (hret : s.Fits k.val .ret x.rpops x.rpushes x.rreads) :
    coreInstr k x body s = body (s.fetched k.val x.bytes.length) := by
  obtain ⟨h1, h2, h3, h4⟩ := hr
  have hb : s.shapeBar k.val x = none := by simp [State.shapeBar, hd.2.2.2, hret.2.2.2]
  have hp : s.precheck k.val x = none := by
    unfold State.precheck
    simp only [hi, Option.getD_none, h3, Option.isSome_none]
    rw [if_neg (by simp), if_neg (by omega), stackFault_none s k.val .data _ _ _ hd,
      stackFault_none s k.val .ret _ _ _ hret, hb]
  have he : s.issueError k.val x = none := by simp [State.issueError, h4, hb]
  unfold coreInstr
  simp [h1, h2, hp, he]

/-- An instruction that runs but fails a check takes its precise fault. -/
theorem coreInstr_fault (k : CoreId) (x : Shape) (body : State → Out) (s : State) (e : Ev)
    (h1 : (s.core k.val).issues = true) (h2 : s.takePending k.val .clean = none) (hp : s.precheck k.val x = some e) :
    coreInstr k x body s = .next (s.raise k.val e) := by
  unfold coreInstr
  simp [h1, h2, hp]

/-- A waiting, halted or stopped core leaves the state as it is. -/
theorem coreInstr_idle (k : CoreId) (x : Shape) (body : State → Out) (s : State)
    (h : (s.core k.val).run ≠ .running ∨ (s.core k.val).halt = true ∨ (s.core k.val).waiting.isSome = true) :
    coreInstr k x body s = .next s := by
  unfold coreInstr
  have hi : (s.core k.val).issues = false := by
    unfold Core.issues
    rcases h with h | h | h
    · simp [h]
    · simp [h]
    · rw [Option.isSome_iff_ne_none] at h; simp [h]
  simp only [hi, Bool.not_false, if_true]
  rw [if_neg]
  rcases h with h | h | h
  · simp [h]
  · simp [h]
  · rw [Option.isSome_iff_ne_none] at h; simp [h]

/-- An instruction that leaves a stack alone fits it. -/
theorem fits_zero (s : State) (k : Nat) (x : Stk) : s.Fits k x 0 0 :=
  ⟨Nat.zero_le _, Nat.zero_le _, .inl rfl, by simp [State.barOf]⟩

/-- An instruction that only replaces its operands by results. -/
theorem stackInstr_runs (k : CoreId) (i : Instr) (n m : Nat) (f : List Word → List Word) (s : State)
    (hr : s.Runs k.val (instrBytes i).length) (hd : s.Fits k.val .data n m) :
    stackInstr k i n m f s = .next
      (((s.fetched k.val (instrBytes i).length).stackEffect k.val .data n
        (f ((s.fetched k.val (instrBytes i).length).tops k.val n))).advance k.val (instrBytes i).length) := by
  unfold stackInstr
  dsimp only
  have h3 : (s.core k.val).ring.val ≤ 3 := by have := (s.core k.val).ring.isLt; omega
  rw [coreInstr_runs k _ _ s hr rfl h3 hd (fits_zero s k.val .ret)]

/-! ### A stack effect and the advance -/

/-- What a stack effect followed by any new PC leaves. -/
def StackFrame (s t : State) (k : Nat) : Prop :=
  t = { s with cores := t.cores, parts := t.parts, mem := t.mem, sram := t.sram, bad := t.bad }
    ∧ (∀ j, j ≠ k → t.core j = s.core j) ∧ t.core k = (s.core k).setBank (t.core k).bank
    ∧ (t.core k).bank.busy = (s.core k).bank.busy
    ∧ ∀ p, t.part p = { s.part p with cellar := (t.part p).cellar, scheds := (t.part p).scheds }

theorem StackFrame.trans {s t u : State} {k : Nat} (h : StackFrame s t k) (g : StackFrame t u k) : StackFrame s u k := by
  refine ⟨?_, fun j hj => ?_, ?_, ?_, fun p => ?_⟩
  · rw [g.1, h.1]
  · rw [g.2.1 j hj, h.2.1 j hj]
  · rw [g.2.2.1, h.2.2.1]; simp
  · rw [g.2.2.2.1, h.2.2.2.1]
  · rw [g.2.2.2.2 p, h.2.2.2.2 p]

theorem StackFrame.ring {s t : State} {k : Nat} (h : StackFrame s t k) : (t.core k).ring = (s.core k).ring := by
  rw [h.2.2.1]; rfl

theorem kept_modCore {s u : State} (h : Kept s u) (k : Nat) (f : Core → Core) :
    u.modCore k f = { s with cores := (u.modCore k f).cores, parts := (u.modCore k f).parts, mem := (u.modCore k f).mem,
                             sram := (u.modCore k f).sram, bad := (u.modCore k f).bad } := by
  rw [h.1]; rfl

theorem stackFrame_effect (s : State) (k : Nat) (x : Stk) (n : Nat) (r : List Word) : StackFrame s (s.stackEffect k x n r) k := by
  have hk := kept_spill s k ((s.core k).bank.ptr x) (filledEntries s k (s.core k).bank x n) (16 + n - r.length)
  unfold State.stackEffect
  dsimp only
  rw [stackApply_eq]
  dsimp only
  refine ⟨?_, fun j hj => ?_, ?_, ?_, fun p => ?_⟩
  · exact kept_modCore hk k _
  · simp [hj, hk.core]
  · simp [hk.core]
  · simp [hk.core]
  · simpa using hk.2 p

theorem stackFrame_jump (s : State) (k : Nat) (a : Word) : StackFrame s (s.jump k a) k := by
  refine ⟨rfl, fun j hj => ?_, ?_, ?_, fun p => rfl⟩
  · simp [State.jump, hj]
  · simp [State.jump, setPc_eq]
  · simp [State.jump, setPc_eq]

theorem advance_jump (s : State) (k n : Nat) : s.advance k n = s.jump k ((s.core k).pc + BitVec.ofNat 64 n) := by
  simp [State.advance, State.jump, State.modCore]

/-- The bank after a stack effect. -/
theorem stackEffect_bank (s : State) (k : Nat) (x : Stk) (n : Nat) (r : List Word) :
    ((s.stackEffect k x n r).core k).bank
      = (s.core k).bank.withStack x (s.stackApply k (s.core k).bank x n r).2.1 (s.stackApply k (s.core k).bank x n r).2.2 := by
  have hk := kept_spill s k ((s.core k).bank.ptr x) (filledEntries s k (s.core k).bank x n) (16 + n - r.length)
  unfold State.stackEffect
  dsimp only
  rw [stackApply_eq]
  simp [hk.core]

theorem stackEffect_stackGet (s : State) (k : Nat) (x : Stk) (n : Nat) (r : List Word) (a : Nat) :
    (s.stackEffect k x n r).stackGet k a = (s.stackApply k (s.core k).bank x n r).1.stackGet k a := rfl

/-- STACK EFFECT (R165): n entries leave, r is pushed, the entries below stand. -/
theorem stackEffect_stacked (s : State) (k : Nat) (x : Stk) (n : Nat) (r : List Word) (hm : r.length ≤ 16)
    (hp : 8 * r.length ≤ (s.core k).bank.ptr x + 8 * n) : Stacked s (s.stackEffect k x n r) k x n r := by
  have hb := stackEffect_bank s k x n r
  have he := stackApply_entry s k (s.core k).bank ((s.stackEffect k x n r).core k).bank x n r (s.stackEffect k x n r) hm hp
    (by rw [hb]; simp) (by rw [hb]; simp) (stackEffect_stackGet s k x n r)
  refine ⟨?_, ?_, fun j hj => ?_, fun j h1 _ => ?_⟩
  · rw [hb]; simp [stackApply_eq]
  · rw [hb]; simp
  · unfold State.entry; rw [he]; simp [hj]
  · unfold State.entry; rw [he, if_neg (by omega)]; congr 1; omega

/-- A new PC moves no stack. -/
theorem jump_bank (s : State) (k : Nat) (a : Word) : ((s.jump k a).core k).bank = { (s.core k).bank with pc := a } := by
  simp [State.jump, setPc_eq]

theorem jump_pc (s : State) (k : Nat) (a : Word) : ((s.jump k a).core k).pc = a := by
  simp [Core.pc, jump_bank]

theorem jump_entry (s : State) (k : Nat) (a : Word) (x : Stk) (i : Nat) : (s.jump k a).entry k x i = s.entry k x i := by
  unfold State.entry
  rw [jump_bank]
  simp only [State.stackEntry, withPc_cache, withPc_ptr]
  rfl

theorem stacked_jump {s t : State} {k : Nat} {x : Stk} {n : Nat} {r : List Word} (h : Stacked s t k x n r) (a : Word) :
    Stacked s (t.jump k a) k x n r := by
  refine ⟨?_, ?_, fun j hj => ?_, fun j h1 h2 => ?_⟩
  · rw [jump_bank, withPc_ptr]; exact h.1
  · rw [jump_bank, withPc_floor]; exact h.2.1
  · rw [jump_entry]; exact h.2.2.1 j hj
  · rw [jump_entry]; exact h.2.2.2 j h1 h2

/-- What an instruction with one stack effect leaves after its fetch (R165, R197). -/
theorem instrFrame_of {s t : State} {k : Nat} (h : StackFrame s t k) : InstrFrame s t k ∧ CoreFrame (s.core k) (t.core k) :=
  ⟨⟨h.1, h.2.1, h.2.2.2.2⟩, h.2.2.1, h.2.2.2.1⟩

/-- A stack effect writes no byte but those of the entries it spills. -/
theorem stackEffect_getByte (s : State) (k : Nat) (x : Stk) (n : Nat) (r : List Word) (hr : r.length ≤ 16)
    (hn : n ≤ (s.core k).bank.depth x) (a : Nat)
    (h : k = maltsterCore ∨ ¬Spilled s k x (16 + n - r.length) a) : (s.stackEffect k x n r).getByte a = s.getByte a := by
  have e : (s.stackEffect k x n r).getByte a
      = (s.spill k ((s.core k).bank.ptr x) (filledEntries s k (s.core k).bank x n) (16 + n - r.length)).2.getByte a := rfl
  rw [e]
  apply spill_getByte
  refine h.imp id (fun h i h1 h2 => ?_)
  have h3 : i < ((s.core k).bank.cache x).length := by
    simp only [filledEntries, List.length_map, List.length_range] at h2
    omega
  by_contra hc
  exact h ⟨i, h1, h3, by omega, by omega⟩

@[simp] theorem jump_getByte (s : State) (k : Nat) (a : Word) (b : Nat) : (s.jump k a).getByte b = s.getByte b := rfl

end Sys2Proof.Laws
end

