-- ==== Sys2Proof/Tests/Slice0.lean ====
section
/-!
SUPPORT. Tests: small states and one step each; for every statement with hypotheses a state that meets them; for
every check of well-formedness a command it refuses.
-/
namespace Sys2Proof.Tests
open Sys2Proof Sys2Proof.Machine Sys2Proof.Stated
set_option Elab.async false

/-! ### Small states -/

/-- A partition with cluster group 0, stack 0 and port group 0 on host port 0, and its pages: code and data in
device memory, the scratchpads of cores 0 and 1, the tun of cluster 0 and the registers of core 0. -/
def part0 : Part :=
  { defn := 2 ^ 0 + 2 ^ 12 + 2 ^ 24, valid := true, st := .running, epoch := 1,
    pages := [⟨0x40000, 16, .phys 0x10000, false, true, 15, none⟩, ⟨0x50000, 16, .phys 0x20000, true, false, 15, none⟩,
              ⟨0x200000, 21, .phys 0x410000000000, true, false, 15, none⟩,
              ⟨0x400000, 21, .phys 0x400000000000, true, false, 15, none⟩,
              ⟨0x600000, 16, .phys 0x420000000000, true, false, 15, none⟩] }

/-- Core 0 in ring r at the start of the code page, with the entries given (top first) on its stacks. -/
def core0 (r : Fin 4) (ds rs : List Word) : Core :=
  { banks := (Four.all ({} : Bank)).set r
      { pc := 0x40000, dsp := 0x8000 - 8 * ds.length, rsp := 0xA000 - 8 * rs.length, dsFloor := 0x8000, rsFloor := 0xA000,
        ds := ds, rs := rs, busy := true },
    ring := r, run := .running, dsr := Four.all { limg := 0x600, topg := 0x800 }, rsr := Four.all { limg := 0x800, topg := 0xA00 } }

/-- The device ready, core 0 of that partition running with the stacks given. -/
def st (ds rs : List Word) : State :=
  { State.reset with cores := [(0, core0 3 ds rs)], parts := [(0, part0)],
                     boot := { st := .ready, ready := true, pwrgood := true } }

/-- What a state that a command answers holds; none where it answers no state. -/
def after {α : Type} (f : State → α) (i : Instr) (s : State) : Option α :=
  match exec i s with
  | .next t => some (f t)
  | _ => none

/-- The entries of core 0's data stack, top first. -/
def data (n : Nat) (t : State) : List Word := (List.range n).map (fun i => t.entry 0 .data i)

/-- Nothing poisoned and no entry in error: no byte holds an error. -/
theorem sound_of {s : State} (p : s.poison = []) (b : s.bad = []) (a : Nat) : s.holdsError a = false := by
  simp [State.holdsError, p, b]

/-! ### Stack, control flow, loads and stores -/

/-- R197: ( x y -- x − y ), wrapping. -/
theorem test_sub_wraps : after (data 1) (.sub 0) (st [1, 0] []) = some [BitVec.allOnes 64] := by decide
/-- R197: ROT ( x y z -- y z x ). -/
theorem test_rot : after (data 3) (.rot 0) (st [3, 2, 1] []) = some [1, 3, 2] := by decide
/-- R198: −2⁶³ ÷ −1 is −2⁶³. -/
theorem test_divs_overflow :
    after (data 1) (.divs 0) (st [BitVec.allOnes 64, 0x8000000000000000] []) = some [0x8000000000000000] := by decide
/-- R198: a remainder by 0 is x. -/
theorem test_rems_zero : after (data 1) (.rems 0) (st [0, 7] []) = some [7] := by decide
/-- R197: CLZ of 0 is 64. -/
theorem test_clz_zero : after (data 1) (.clz 0) (st [0] []) = some [64] := by decide
/-- R190: the imm8 of LIT8 is sign-extended. -/
theorem test_lit8 : after (data 1) (.lit8 0 0x80) (st [] []) = some [0xFFFFFFFFFFFFFF80] := by decide
/-- R199: DBNZ entered with 0 branches. -/
theorem test_dbnz_zero : after (fun t => (t.core 0).pc) (.dbnz8 0 0x10) (st [0] []) = some 0x40012 := by decide
/-- R165: the cache spills its oldest entry, and it is read back. -/
theorem test_spill : after (data 18) (.dup 0) (st (List.replicate 16 5 ++ [9]) [])
    = some (List.replicate 17 5 ++ [9]) := by decide

theorem witness_StackInstructionsCompute :
    (st [1, 2, 3] []).Runs 0 (instrBytes (.sel 0)).length ∧ (st [1, 2, 3] []).Fits 0 .data 3 1 := by
  unfold State.Runs State.Fits; decide
theorem witness_StackInstructionsFrame : after (fun t => (t.core 0).pc) (.sel 0) (st [1, 2, 3] []) = some 0x40001 := by decide
theorem witness_StackChecksFault_underflow :
    (st [1] []).Runs 0 (instrBytes (.add 0)).length ∧ ((st [1] []).core 0).bank.depth .data < 2 := by
  unfold State.Runs; decide
/-- Core 0 with its data stack at its limit. -/
def stFull : State := (st [] []).modCore 0 (fun c => c.setBank { c.bank with dsp := 0x6000, dsFloor := 0x6010 })
theorem witness_StackChecksFault_overflow :
    stFull.Runs 0 (instrBytes (.dup 0)).length ∧ 1 ≤ (stFull.core 0).bank.depth .data
      ∧ (stFull.core 0).bank.dsp + 8 * 1 < ((stFull.core 0).dsr.get (stFull.core 0).ring).lim + 8 * 2 := by
  unfold State.Runs; decide

theorem witness_ControlFlowComputes :
    (flowRow (.calli 0)).any (fun r => decide (r.pops = 1)) = true ∧ StacksApart (st [0x40100] [7]) 0
      ∧ (st [0x40100] [7]).Runs 0 (instrBytes (.calli 0)).length ∧ (st [0x40100] [7]).Fits 0 .data 1 0
      ∧ (st [0x40100] [7]).Fits 0 .ret 0 1 := by
  unfold StacksApart State.Runs State.Fits; decide
theorem witness_ControlFlowFrame : after (fun t => (t.core 0).pc) (.calli 0) (st [0x40100] [7]) = some 0x40100 := by decide
/-- R199: RET continues at the popped address. -/
theorem test_ret : after (fun t => (t.core 0).pc) (.ret 0) (st [] [0x40044]) = some 0x40044 := by decide

/-- Core 0 with an address in its scratchpad (offset 0x2000) on top, and a word there. -/
def stSpad (a x : Word) : State := (st [a, x] []).putBytes 0x410000002000 [1, 2, 3, 0x84, 5, 6, 7, 8]

/-- R199: LD32S sign-extends. -/
theorem test_ld32s : after (data 1) (.ld32s 0 (.d8 0) {}) (stSpad 0x202000 0) = some [0xFFFFFFFF84030201] := by decide
/-- R189: the displacement is signed. -/
theorem test_ld8u_disp : after (data 1) (.ld8u 0 (.d8 0xFF) {}) (stSpad 0x202001 0) = some [1] := by decide
/-- R206: a load of device memory sees the core's own store. -/
theorem test_load_after_store : after (data 1) (.ld16u 0 (.d8 0) {}) ((st [0x50010] []).modCluster 0 (fun x =>
    { x with l2 := { x.l2 with mb := [⟨0x800, [(0x10, 0xCD), (0x11, 0xAB)], [(0, 0)], false⟩] } })) = some [0xABCD] := by decide
/-- R210: until it drains, memory stands. -/
theorem test_store_merges :
    after (fun t => (t.getByte 0x20010, (t.cluster 0).l2.mb.length)) (.st8 0 (.d8 0) {}) (st [0x50010, 0xAB] []) = some (0, 1) := by
  decide
theorem test_store_spad : after (fun t => t.getByte 0x410000002004) (.st32 0 (.d8 4) {}) (stSpad 0x202000 0xFFFFFF99)
    = some 0x99 := by decide
/-- R182: a misaligned address raises ALIGNMENT (0x04) in ring 1. -/
theorem test_misaligned : after (fun t => ((t.core 0).ring, (t.core 0).bank.rs.headD 0)) (.ld16u 0 (.d8 0) {})
    ((st [0x202001] []).modCore 0 (fun c => { c with vbase := Four.all 0x40 }))
    = some (1, 0x03000004) := by decide

theorem witness_LoadsRead :
    (stSpad 0x202000 0).Runs 0 (instrBytes (.ld32s 0 (.d8 0) {})).length ∧ (stSpad 0x202000 0).Fits 0 .data 1 1
      ∧ Reaches (stSpad 0x202000 0) 0 .read 0x202000 4 (rangeFrom 0x410000002000 4)
      ∧ BuffersMemory (stSpad 0x202000 0) 0 := by
  refine ⟨by unfold State.Runs; decide, by unfold State.Fits; decide, ⟨_, rfl, by decide, by decide, by decide⟩, ?_⟩
  unfold BuffersMemory; decide
theorem witness_LoadsFrame : (after (data 1) (.ld32s 0 (.d8 0) {}) (stSpad 0x202000 0)).isSome = true := by decide
theorem witness_StoresPlace :
    (stSpad 0x202000 9).Runs 0 (instrBytes (.st64 0 (.d8 0) {})).length ∧ (stSpad 0x202000 9).Fits 0 .data 2 0
      ∧ Reaches (stSpad 0x202000 9) 0 .write 0x202000 8 (rangeFrom 0x410000002000 8)
      ∧ placeOf 0x410000002000 = .spad 0 0x2000 ∧ ∀ a, ¬Spilled (stSpad 0x202000 9) 0 .data 18 a := by
  refine ⟨by unfold State.Runs; decide, by unfold State.Fits; decide, ⟨_, rfl, by decide, by decide, by decide⟩, by decide, ?_⟩
  rintro a ⟨i, h1, h2, -⟩
  have : i < 2 := h2
  omega
theorem witness_StoresMerge :
    (st [0x50010, 9] []).Runs 0 (instrBytes (.st64 0 (.d8 0) {})).length ∧ (st [0x50010, 9] []).Fits 0 .data 2 0
      ∧ Reaches (st [0x50010, 9] []) 0 .write 0x50010 8 (rangeFrom 0x20010 8)
      ∧ mbRoom ((st [0x50010, 9] []).cluster 0).l2.mb 0x800 = true := by
  exact ⟨by unfold State.Runs; decide, by unfold State.Fits; decide, ⟨_, rfl, by decide, by decide, by decide⟩, by decide⟩
theorem witness_StoresPost :
    (st [0x300010, 9] []).Runs 0 (instrBytes (.st64 0 (.d8 0) {})).length
      ∧ Reaches (st [0x300010, 9] []) 0 .write 0x300010 8 (rangeFrom 0x410000100010 8)
      ∧ placeOf 0x410000100010 = .spad 1 0x10 := by
  exact ⟨by unfold State.Runs; decide, ⟨_, rfl, by decide, by decide, by decide⟩, by decide⟩
/-- R17: CORE_IMASK (offset 0x18) of core 0 from ring 1. -/
def stReg : State :=
  { st [] [] with cores := [(0, core0 1 [0x600018, 0x5] [])] }
theorem witness_StoresWriteRegisters :
    stReg.Runs 0 (instrBytes (.st64 0 (.d8 0) {})).length ∧ stReg.Fits 0 .data 2 0
      ∧ Reaches stReg 0 .write 0x600018 8 (rangeFrom 0x420000000018 8) ∧ placeOf 0x420000000018 = .coreReg 0 0x18
      ∧ (stReg.core 0).ring.val ≤ coreRegRing 0x18 5 := by
  exact ⟨by unfold State.Runs; decide, by unfold State.Fits; decide, ⟨_, rfl, by decide, by decide, by decide⟩, by decide, by decide⟩
theorem witness_AccessesFault : (st [0x202001, 1] []).Runs 0 (instrBytes (.st16 0 (.d8 0) {})).length
    ∧ (st [0x202001, 1] []).Fits 0 .data 2 0 ∧ (0x202001 : Word).toNat % 2 ≠ 0 := by
  unfold State.Runs State.Fits; decide
theorem witness_UndefinedOpcodeFaults :
    illegalAt false false [0x00] = some 1 ∧ ((st [] []).core 0).issues = true ∧ (st [] []).takePending 0 .clean = none
      ∧ (st [] []).fetchFaultN 0 0x40000 1 = none := by decide
/-- R194: 74 C8 is decided at byte 2 (the table of 09). -/
theorem test_illegal_tmma : illegalAt true false [0x74, 0xC8] = some 2 := by decide

/-! ### Events -/

/-- Core 0 in ring 3 with handlers at the code page, a gate 5 into ring 1 with 2 arguments, and two entries. -/
def stEv : State :=
  ((st [0x11, 0x22] []).modCore 0 (fun c => { c with vbase := Four.all 0x40, gie := true })).putBytes 0x410000000050
    (leBytes 8 (0x40100 + 2 ^ 48 * 1 + 2 ^ 50 * 3 + 2 ^ 52 * 2 + 2 ^ 63))

/-- R171, R173: GATE, FROM, KIND, GIE of the record of a TRAP from ring 3, and its RPC. -/
theorem test_trap_record : after (fun t => ((t.core 0).bank.rs.headD 0, (t.core 0).bank.rs.getD 1 0)) (.trap 0 5 .clean) stEv
    = some (0x2F050040, 0x40002) := by decide
/-- R171 step 3: the arguments keep their order on the new stack. -/
theorem test_trap_args : after (fun t => ((t.core 0).ring, data 2 t)) (.trap 0 5 .clean) stEv = some (1, [0x11, 0x22]) := by decide
/-- R174: GRET 1 takes one entry back to ring 3. -/
theorem test_gret :
    (match exec (.trap 0 5 .clean) stEv with
     | .next t => after (fun u => ((u.core 0).ring, data 1 u, (u.core 0).pc, (u.core 0).gie)) (.gret 0 1) t
     | _ => none) = some (3, [0x11], 0x40002, true) := by decide
/-- R178: with a deferred fault and an interrupt pending, the fault is taken. -/
theorem test_event_order : after (fun t => (t.core 0).bank.rs.headD 0 &&& 0xFF) (.eventEntry 0 .clean)
    (stEv.modCore 0 (fun c => { c with ipend := 0x20, ie := 0x20, pendDef := [⟨{ code := 0x0A, kind := .deferred }, 0⟩] }))
    = some 0x0A := by decide
/-- R179: the interrupt alone is taken and its bit clears. -/
theorem test_interrupt : after (fun t => ((t.core 0).bank.rs.headD 0 &&& 0xFF, (t.core 0).ipend, (t.core 0).pc))
    (.eventEntry 0 .clean) (stEv.modCore 0 (fun c => { c with ipend := 0x20, ie := 0x20 })) = some (0x25, 0, 0x40940) := by decide

theorem witness_ExceptionsEnter :
    RecordFits stEv 0 (handlingRing 8 3) ∧ ((stEv.core 0).banks.get 1).busy = false
      ∧ (stEv.enter 0 { code := 8, cause := 1, iaddr := 0x40000 } ((stEv.core 0).exceptionEntry 8) 0x40000).fetchFault 0
          (0x40000 + 8 * 64) = none := by
  unfold RecordFits; decide
theorem witness_DoubleFaultHalts :
    ¬RecordFits ((st [] []).modCore 0 (fun c => { c with rsr := Four.all { limg := 0x800, topg := 0x801 } })) 0 (handlingRing 8 3) := by
  unfold RecordFits; decide
theorem witness_EventsTaken : pendingEvent ((stEv.modCore 0 (fun c => { c with ipend := 0x20, ie := 0x20 })).core 0)
    = some { code := 0x25, kind := .boundary } := by decide
theorem witness_TrapEntersGate_invalid : stEv.Runs 0 2 ∧ (gateLo stEv 0 4).getLsbD 63 = false := by unfold State.Runs; decide
theorem witness_TrapEntersGate_reserved : (gateLo (stEv.putByte 0x410000000057 0xC1) 0 5).toNat / 2 ^ 56 % 128 ≠ 0 := by decide
theorem witness_TrapEntersGate_caller : (gateLo (stEv.putByte 0x410000000056 0x29) 0 5).toNat / 2 ^ 50 % 4 < 3 := by decide
theorem witness_TrapEntersGate_outward :
    let s := stEv.modCore 0 (fun c => { (core0 0 [] []) with gtb := c.gtb })
    s.Runs 0 2 ∧ (s.core 0).ring.val < (gateLo s 0 5).toNat / 2 ^ 48 % 4 := by unfold State.Runs; decide
theorem witness_TrapEntersGate_enters : (gateLo stEv 0 5).toNat / 2 ^ 52 % 8 ≤ (stEv.core 0).bank.depth .data
    ∧ gateHi stEv 0 5 = 0 ∧ (stEv.fetched 0 2).yieldGate 0 ≠ some 5 := by decide
theorem witness_TrapMovesArguments : RecordFits stEv 0 1 ∧ StacksApart stEv 0
    ∧ (stEv.enter 0 { code := 0x40, gate := 5, kind := .boundary } ⟨1, 2, false, 0x40100⟩ 0x40002).fetchFault 0 0x40100 = none := by
  unfold RecordFits StacksApart; decide
/-- Core 0 in the handler of that gate. -/
def stHandler : State := (after id (.trap 0 5 .clean) stEv).getD stEv
theorem witness_GretReturns_cross : stHandler.Runs 0 2 ∧ (stHandler.core 0).bank.rsp = (stHandler.core 0).bank.rsFloor
    ∧ (stHandler.entry 0 .ret 0).toNat / 2 ^ 24 % 4 = 3 ∧ 1 ≤ (stHandler.core 0).bank.depth .data := by unfold State.Runs; decide
theorem witness_GretReturns_balance : (st [] [1]).Runs 0 2 ∧ ((st [] [1]).core 0).bank.rsp ≠ ((st [] [1]).core 0).bank.rsFloor := by
  unfold State.Runs; decide
/-- A stack underflow in that handler is handled in ring 1 again. -/
def stNested : State := stHandler.raise 0 { code := 8, cause := 1 }
theorem witness_GretReturns_same : stNested.Runs 0 2 ∧ (stNested.core 0).bank.rsp = (stNested.core 0).bank.rsFloor
    ∧ (stNested.core 0).ring = 1 ∧ (stNested.entry 0 .ret 0).toNat / 2 ^ 24 % 4 = 1 := by unfold State.Runs; decide
/-- A handler in ring 3 whose record gives E0, with its return stack balanced. -/
def stRecord (e0 : Word) : State :=
  (st [] [e0, 0x40100, 0, 0, 0, 0, 0, 0]).modCore 0 (fun c => c.setBank { c.bank with rsFloor := c.bank.rsp })
theorem witness_GretReturns_ring : (stRecord 0x2000040).Runs 0 2 ∧ ((stRecord 0x2000040).core 0).bank.rsp = ((stRecord 0x2000040).core 0).bank.rsFloor
    ∧ ((stRecord 0x2000040).entry 0 .ret 0).toNat / 2 ^ 24 % 4 < 3 ∧ ((stRecord 0x3000008).entry 0 .ret 0).toNat % 256 ≠ 0x40
    ∧ ((stRecord 0x3000040).core 0).bank.depth .data < 1 := by unfold State.Runs; decide
theorem witness_GretReturns_full :
    let s := stHandler.modCore 0 (fun c => { c with banks := c.banks.set 3 { c.banks.get 3 with dsp := 0x6000 } })
    s.Runs 0 2 ∧ ((s.core 0).banks.get 3).dsp < ((s.core 0).dsr.get 3).lim + 8 * 1 ∧ 1 ≤ (s.core 0).bank.depth .data := by unfold State.Runs; decide
/-- R173: NEST is 1 in the record of a nested entry. -/
theorem test_nest : (stNested.entry 0 .ret 0).toNat.testBit 28 = true := by decide

/-! ### System instructions -/

theorem witness_ReadsPush : Ready (st [] []) 0 (.rddsp 0) 0 1 := by unfold Ready State.Runs State.Fits; decide
theorem test_rdtime_unset : after (data 1) (.rdtime 0) (st [] []) = some [0] := by decide
/-- R201: RDDSP pushes DSP as it stood before. -/
theorem test_rddsp : after (data 1) (.rddsp 0) (st [5] []) = some [0x7FF8] := by decide
/-- A line of device memory in both caches and a store in the merging buffer. -/
def stLine : State :=
  (((st [0x50010] []).modCore 0 (fun c => { c with ring := 3, l1d := [⟨0x800, 0, []⟩], l1i := [⟨0x800, 0, []⟩] })).modCluster 0 (fun x =>
    { x with l2 := { x.l2 with lines := [⟨0x800, 0, []⟩], mb := [⟨0x800, [(0x10, 7)], [(0, 0)], false⟩] } }))
theorem witness_CacheMaintenance : Ready stLine 0 (.l2fl 0) 1 0 ∧ Ready stLine 0 (.dinv 0) 1 0 ∧ Ready stLine 0 (.iinva 0) 0 0
    ∧ NamesLine stLine 0 0x800 ∧ BuffersMemory stLine 0 ∧ (stLine.cluster 0).l2.isLocked 0x800 = false := by
  refine ⟨?_, ?_, ?_, ⟨by decide, 0x20010, false, by rfl, by decide, by decide⟩, ?_, by decide⟩
  · unfold Ready State.Runs State.Fits; decide
  · unfold Ready State.Runs State.Fits; decide
  · unfold Ready State.Runs State.Fits; decide
  · unfold BuffersMemory; decide
/-- The maltster's core running in ring 0 at an address of device memory, with the entries given. -/
def stMaltster (ds : List Word) : State := { st [] [] with cores := [(768, core0 0 ds [])] }
/-- Core 0 in ring 1. -/
def stRing1 : State := { st [] [] with cores := [(0, core0 1 [] [])] }
theorem witness_CacheMaintenance_l2inva : Ready stRing1 0 (.l2inva 0) 0 0 ∧ (stRing1.core 0).ring.val ≤ 1 := by
  unfold Ready State.Runs State.Fits; decide
theorem test_l2fl_places : after (fun t => t.getByte 0x20010) (.l2fl 0) stLine = some 7 := by decide
theorem test_l2inv_drops : after (fun t => (((t.cluster 0).l2.lines.filter (fun x => x.line == 0x800)).length, t.getByte 0x20010)) (.l2inv 0) stLine
    = some (0, 7) := by decide
/-- That line locked in L2. -/
def stLocked : State := stLine.modCluster 0 (fun x => { x with l2 := { x.l2 with nways := 1, lockAddr := 0x20000, locked := true } })
theorem witness_CacheMaintenance_locked : Ready stLocked 0 (.l2inv 0) 1 0 ∧ NamesLine (fetchOf stLocked 0 (.dinv 0)) 0 0x800
    ∧ ((fetchOf stLocked 0 (.dinv 0)).cluster 0).l2.isLocked 0x800 = true := by
  refine ⟨?_, ⟨by decide, 0x20010, false, by decide, by decide, by decide⟩, by decide⟩
  unfold Ready State.Runs State.Fits; decide
theorem witness_CacheMaintenance_none : Ready (st [0x202000] []) 0 (.l2inv 0) 1 0 ∧ ∀ l, ¬NamesLine (fetchOf (st [0x202000] []) 0 (.dinv 0)) 0 l := by
  refine ⟨by unfold Ready State.Runs State.Fits; decide, fun l h => ?_⟩
  obtain ⟨-, pa, img, h, m, -⟩ := h
  have e : coreXlate (fetchOf (st [0x202000] []) 0 (.dinv 0)) 0 ((st [0x202000] []).core 0).ring .read 0x202000 = .ok (.phys 0x410000002000 false) := by
    decide +kernel
  have d : ((fetchOf (st [0x202000] []) 0 (.dinv 0)).entry 0 .data 0).toNat = 0x202000 := by decide +kernel
  have r : ((fetchOf (st [0x202000] []) 0 (.dinv 0)).core 0).ring = ((st [0x202000] []).core 0).ring := by decide +kernel
  have u := h
  change coreXlate (fetchOf (st [0x202000] []) 0 (.dinv 0)) 0 ((fetchOf (st [0x202000] []) 0 (.dinv 0)).core 0).ring .read
    ((fetchOf (st [0x202000] []) 0 (.dinv 0)).entry 0 .data 0).toNat = _ at u
  rw [d, r, e] at u
  cases u
  revert m
  decide
theorem witness_CacheMaintenance_maltster : ((stMaltster []).core 768).issues = true ∧ (stMaltster []).takePending 768 .clean = none
    ∧ (stMaltster []).fetchFaultN 768 ((stMaltster []).core 768).pc.toNat 1 = none := by decide +kernel
/-- A core with nothing posted, merged, queued or on its way. -/
theorem allDone_of {s : State} {k p : Nat} (a : (s.core k).posted = []) (b : (s.cluster (clusterOf k)).l2.mb = [])
    (h : s.partOfCore k = some p) (c : (s.part p).conns = []) (t : (s.core k).tile.queue ++ (s.core k).tile.frozen = [])
    (v : (s.core k).vsu.queue ++ (s.core k).vsu.frozen = []) (q : (s.core k).flg.queue = []) (w : s.flight = []) : AllDone s k := by
  refine ⟨?_, ?_, ?_⟩
  · rintro (⟨x, m, -⟩ | ⟨x, m, -⟩ | ⟨p', h', x, m, -⟩)
    · rw [a] at m; cases m
    · rw [b] at m; cases m
    · cases h.symm.trans h'; rw [c] at m; cases m
  · rintro (⟨x, m, -⟩ | ⟨x, m, -⟩)
    · rw [t] at m; cases m
    · rw [v] at m; cases m
  · rintro (m | ⟨x, m, -⟩ | ⟨p', h', x, m, -⟩)
    · exact m q
    · rw [w] at m; cases m
    · cases h.symm.trans h'; rw [c] at m; cases m
theorem witness_FencesAndEnds_completes : Ready (st [] []) 0 (.mfence 0) 0 0 ∧ Ready (st [] []) 0 (.tend 0) 0 0 ∧ AllDone ((st [] []).fetched 0 1) 0 := by
  refine ⟨by unfold Ready State.Runs State.Fits; decide, by unfold Ready State.Runs State.Fits; decide, ?_⟩
  exact allDone_of (p := 0) (by decide) (by decide) (by decide) (by decide) (by decide) (by decide) (by decide) (by decide)
/-- A posted store. -/
def stPosted : State := (st [] []).modCore 0 (fun c => { c with posted := [⟨0x410000100010, [1], 0x40000, 0⟩], stamp := 1 })
theorem witness_FencesAndEnds_waits : Ready stPosted 0 (.mfence 0) 0 0 ∧ Ready stPosted 0 (.tend 0) 0 0
    ∧ Outstanding (stPosted.fetched 0 1) 0 (stPosted.core 0).stamp ∧ ¬AllDone (stPosted.fetched 0 1) 0 := by
  have h : Outstanding (stPosted.fetched 0 1) 0 (stPosted.core 0).stamp := .inl (by decide)
  exact ⟨by unfold Ready State.Runs State.Fits; decide, by unfold Ready State.Runs State.Fits; decide, h, fun a => a.1 h⟩
theorem witness_FencesAndEnds_waiti : Ready stRing1 0 (.waiti 0) 0 0 ∧ (stRing1.core 0).ipend &&& (stRing1.core 0).ie = 0
    ∧ Ready (stRing1.modCore 0 (fun c => { c with ipend := 2, ie := 2 })) 0 (.waiti 0) 0 0 := by
  refine ⟨by unfold Ready State.Runs State.Fits; decide, by decide, by unfold Ready State.Runs State.Fits; decide⟩
theorem witness_PrivilegedRings : (st [] []).Runs 0 (instrBytes (.waiti 0)).length ∧ 1 < ((st [] []).core 0).ring.val := by
  unfold State.Runs; decide
/-- Core 0 in ring 1 waiting at a WAITI. -/
def stWaiti : State := stRing1.modCore 0 (fun c => { c with waiting := some (.waiti 0), ipend := 2, ie := 2 })
theorem witness_WaitingResumes : stWaiti.takePending 0 .clean = none ∧ (stWaiti.core 0).waiting = some (.waiti 0) ∧ mayWait (.waiti 0) = true
    ∧ Ready (stWaiti.modCore 0 (fun c => { c with waiting := none })) 0 (.waiti 0) 0 0 ∧ (stWaiti.core 0).ipend &&& (stWaiti.core 0).ie ≠ 0 := by
  refine ⟨by decide, by decide, rfl, ?_, by decide⟩
  unfold Ready State.Runs State.Fits; decide
theorem test_waiti_resumes : after (fun t => ((t.core 0).waiting, (t.core 0).pc)) (.waitConditionMet 0) stWaiti = some (none, 0x40001) := by decide
theorem witness_WaitingResumes_event :
    (((stEv.modCore 0 (fun c => { c with waiting := some (.fwait 0 3), ipend := 0x20, ie := 0x20 })).takePending 0 .clean).isSome) = true := by decide

/-! ### Flags and mailboxes -/

theorem witness_FlagQueueTakes : Ready (st [] []) 0 (.fset 0 3) 0 0 ∧ ((st [] []).core 0).flg.queue.length < 8
    ∧ Ready (st [0x103] []) 0 (.rcfinc 0) 1 0 ∧ (st [0x103] []).flagWordFault 0 0x103 true = none := by
  unfold Ready State.Runs State.Fits; decide
/-- A full flag queue. -/
def stFull8 : State := (st [] []).modCore 0 (fun c =>
  { c with flg := { c.flg with queue := List.replicate 8 ⟨.flag (.bin 0 1) .set true, 0, 0x40000⟩ } })
theorem witness_FlagQueueTakes_full : Ready stFull8 0 (.fset 0 3) 0 0 ∧ 8 ≤ (stFull8.core 0).flg.queue.length := by
  unfold Ready State.Runs State.Fits; decide
/-- Flag 3 of core 0 is 1, CF2 holds 5, cluster flag 200 is 1. -/
def stFlags : State :=
  ((st [5] []).modCore 0 (fun c => { c with flg := { c.flg with f := 8, cf := [(2, 5)] } })).modCluster 0 (fun x =>
    { x with flags := BitVec.ofNat 256 (2 ^ 200) })
theorem witness_FlagsRead : Ready stFlags 0 (.ftest 0 3) 0 1 ∧ Ready stFlags 0 (.cfwait 0 2) 1 0 ∧ NoneOwn stFlags 0 (.bin 0 3)
    ∧ 5 ≤ flagValue stFlags (.cnt 0 2) := by
  refine ⟨?_, ?_, ?_, by decide⟩
  · unfold Ready State.Runs State.Fits; decide
  · unfold Ready State.Runs State.Fits; decide
  · exact ⟨(by intro e he; cases he), (by intro m hm; cases hm)⟩
theorem witness_FlagsRead_waits : Ready stFull8 0 (.ftest 0 1) 0 1 ∧ ¬NoneOwn stFull8 0 (.bin 0 1) := by
  refine ⟨by unfold Ready State.Runs State.Fits; decide, fun h => ?_⟩
  exact h.1 ⟨.flag (.bin 0 1) .set true, 0, 0x40000⟩ (by decide) .set true rfl
theorem test_cfwait_waits : after (fun t => ((t.core 0).waiting.isSome, (t.core 0).pc)) (.cfwait 0 2)
    (st [6] []) = some (true, 0x40000) := by decide
theorem test_clftest : after (data 1) (.clftest 0 200) stFlags = some [1] := by decide
theorem witness_FlagWaits : Ready (st [] []) 0 (.fenceF 0) 0 0 ∧ Ready stFlags 0 (.fwatch 0 3) 0 0 ∧ Ready (st [] []) 0 (.dmaw 0 1) 0 0
    ∧ Ready (st [] []) 0 (.engw 0 .select) 0 0 ∧ ((st [] []).dmaChan 0 1).lists = [] := by
  unfold Ready State.Runs State.Fits; decide
theorem witness_FlagWaits_done : ¬FlagsOut (st [] []) 0 :=
  (allDone_of (s := st [] []) (k := 0) (p := 0) (by decide) (by decide) (by decide) (by decide) (by decide) (by decide) (by decide) (by decide)).2.2
theorem witness_FlagWaits_waits : Ready stFull8 0 (.fenceF 0) 0 0 ∧ FlagsOut stFull8 0 :=
  ⟨by unfold Ready State.Runs State.Fits; decide, .inl (by decide)⟩
theorem test_fwatch_fires : after (fun t => ((t.core 0).ipend, (t.core 0).flg.watch)) (.fwatch 0 3) stFlags = some (4, 0) := by decide
theorem witness_FlagQueuePerforms : stFull8.entryOrdered 0 0 ⟨.flag (.bin 0 1) .set true, 0, 0x40000⟩ = true
    ∧ stFull8.entryRoom 0 0 (.flag (.bin 0 1) .set true) = true ∧ stFull8.partOfCore 0 = some 0 := by decide
theorem witness_FlagQueuePerforms_stays : ∃ x ∈ (stPosted.core 0).posted, x.stamp < 1 := by decide
/-- A set and a clear on their way to flag 3. -/
def stFlight (a b : FlagAct) (g : FlagTarget) (r : Nat) : State :=
  { st [] [] with flight := [⟨g, a, 0, r, some 0⟩, ⟨g, b, 0, r, some 0⟩] }
theorem witness_FlagsArrive_set : (stFlight .clear .set (.bin 0 3) 18).flight.length = 2 := by decide
theorem test_set_wins : after (fun t => flagValue t (.bin 0 3)) (.flagArrival (.bin 0 3) 2) (stFlight .set .clear (.bin 0 3) 18)
    = some 1 := by decide
theorem test_inc_before_dec : after (fun t => flagValue t (.cnt 0 3)) (.flagArrival (.cnt 0 3) 2) (stFlight .dec .inc (.cnt 0 3) 0)
    = some 0 := by decide
theorem witness_CountersUnderflow : (({ st [] [] with flight := [⟨.cnt 0 3, .dec, 7, 0, none⟩] } : State).flight.length = 1)
    ∧ mget 0 ((st [] []).core 0).flg.cf 3 = 0 := by decide
theorem test_underflow_code : after (fun t => (t.core 0).bank.rs.headD 0 &&& 0xFFFF) (.flagArrival (.cnt 0 3) 1)
    ({ (stEv.modCore 0 (fun c => { c with presented := true })) with flight := [⟨.cnt 0 3, .dec, 0, 18, some 0⟩] }) = some 0x010D := by decide
/-- Channel 9 from core 0 to itself. -/
def stMb (ds : List Word) : State :=
  { st ds [] with mbx := { chans := [(9, { snd := 0, rcv := 0, v := true, seq := 7 })] } }
theorem witness_MailboxesDeliver : Ready (stMb [0xAAAABBBBCCCC]) 0 (.mbpost 0 9) 1 0 ∧ AllDone ((stMb [0xAAAABBBBCCCC]).fetched 0 2) 0
    ∧ ((stMb [0xAAAABBBBCCCC]).fetched 0 2).mbCheck 9 0 = none ∧ Ready (stMb []) 0 (.mbpoll 0 9) 0 2 := by
  refine ⟨by unfold Ready State.Runs State.Fits; decide, ?_, by decide, ?_⟩
  · exact allDone_of (p := 0) (by decide) (by decide) (by decide) (by decide) (by decide) (by decide) (by decide) (by decide)
  · unfold Ready State.Runs State.Fits; decide
theorem witness_MailboxesDeliver_refused : ((stMb [1]).fetched 0 2).mbCheck 8 0 = some .devblock := by decide
theorem witness_MailboxesDeliver_waits : Ready (stPosted.modCore 0 (fun c => { c with banks := ((stMb [1]).core 0).banks })) 0 (.mbpost 0 9) 1 0
    ∧ ¬AllDone ((stPosted.modCore 0 (fun c => { c with banks := ((stMb [1]).core 0).banks })).fetched 0 2) 0 :=
  ⟨by unfold Ready State.Runs State.Fits; decide, fun a => a.1 (.inl (by decide))⟩
theorem witness_MailboxesDeliver_not : Ready (stMb []) 0 (.mbpoll 0 8) 0 2 ∧ ((stMb []).mbx.chan 8).v = false := by
  unfold Ready State.Runs State.Fits; decide
/-- R240: the notice is bits [31:0]. -/
theorem test_mbpost : after (fun t => (t.mbx.chan 9).notices) (.mbpost 0 9) (stMb [0xAAAABBBBCCCC]) = some [(0xBBBBCCCC, 7)] := by decide

/-! ### The tile unit -/

/-- Core 0 in configured mode with T0 as 2 rows of 4 FP32 elements and T1 as 1 row of 8 INT8. -/
def stTile (ds : List Word) : State :=
  (st ds []).modCore 0 (fun c => { c with tmode := true, tile := { c.tile with shapes := [(0, 0x8000C1), (1, 0x8801C0)] } })

/-- The core with an operation at the head of its tile queue. -/
def stTileQ (op : TileOp) : State :=
  (stTile []).modCore 0 (fun c => { c with tile := { c.tile with queue := [{ op := op, iaddr := 0x40000, ring := 3, stamp := 0 }] } })

/-- R69: the two examples and the FP6 row that is too long. -/
theorem test_shapes : LegalShape 0x830FFF ∧ LegalShape 0x871FFF ∧ ¬LegalShape (0x850000 + 84 * 64) := by
  unfold LegalShape; decide
/-- The words as hardware stores them: a prefix, opcode, register and TSW. -/
theorem test_tile_issue : after (fun t => ((t.core 0).tile.queue.length, (t.core 0).bank.depth .data))
    (.tld 0 0 (.d8 0) none) (stTile [64, 0x202000]) = some (1, 0) := by decide
theorem test_tcfg : after (fun t => (mget 0 (t.core 0).tile.shapes 2, mget 0 (t.core 0).tile.shapes 5)) (.tcfg 0 0x24)
    (st [0x830FFF, 0] []) = some (0x830FFF, 0) := by decide
/-- R78: a row of TLD, its other bytes zero. -/
theorem test_tld : after (fun t => (tileByte t 0 0 0 1, tileByte t 0 0 0 16, (t.core 0).tile.queue.length))
    (.tileInstructionComplete 0 {})
    ((stTileQ (.tld 0 0x202000 64 0x8000C0)).putBytes 0x410000002000 [1, 2, 3, 4]) = some (2, 0, 0) := by decide
/-- R51, R54: 3 × 5 and -2 × 7 in INT8 give N = 1 × 2³². -/
theorem test_tmma : after (fun t => ((t.core 0).tile.elem 0 0 0).fields.n) (.tileInstructionComplete 0 {})
    ((stTileQ (.tmma 0 1 2 0x880040 0x880040 0)).modCore 0 (fun c =>
      { c with tile := { c.tile with regs := [(4096, 3), (4097, 0xFE), (8192, 5), (8193, 7)] } })) = some (2 ^ 32) := by decide +kernel
theorem test_tile_fault : after (fun t => ((t.core 0).tile.finfo, (t.core 0).pendDef.length)) (.tileExecutionFault 0)
    (stTileQ (.tld 0 0x202000 2 0x8000C1)) = some (⟨3, 1, false, 0x40000, 0x202002⟩, 1) := by decide

theorem witness_TileInstructionsIssue :
    (stTile [64, 0x202000]).Runs 0 (instrBytes (.tld 0 0 (.d8 0) none)).length ∧ (stTile [64, 0x202000]).Fits 0 .data 2 0
      ∧ ((stTile [64, 0x202000]).core 0).tmode = true ∧ LegalShape 0x8000C1 := by
  unfold State.Runs State.Fits LegalShape; decide
theorem witness_TileInstructionsIssue_prefixed :
    (st [64, 0x202000] []).Runs 0 (instrBytes (.tld 0 0 (.d8 0) (some 0x8000C1))).length
      ∧ ((st [64, 0x202000] []).core 0).tmode = false := by unfold State.Runs; decide
theorem witness_TileInstructionsIssue_full : ((stTile [64, 0x202000]).core 0).tile.queue.length < queueRoom 0 := by decide
theorem witness_TileInstructionsIssue_descriptors :
    (mmaCheck (shapeOf 0x880040) (shapeOf 0x880040) 0).isNone = true ∧ (rdCheck 0 true).isOk = true ∧ (rdCheck 0 false).isOk = true := by
  decide
theorem witness_TileInstructionsIssue_tsync : Ready (stTile []) 0 (.tsync 0) 0 0 := by
  unfold Ready State.Runs State.Fits; decide
theorem witness_TileInstructionsIssue_tcfg : Ready (st [0x830FFF, 0] []) 0 (.tcfg 0 0x24) 2 0 := by
  unfold Ready State.Runs State.Fits; decide
theorem witness_TileInstructionsComplete :
    TileHead (stTileQ (.tzeroT 0)) 0 { op := .tzeroT 0, iaddr := 0x40000, ring := 3, stamp := 0 } := by
  unfold TileHead; decide
theorem witness_TileInstructionsComplete_rows :
    RowsAt (stTileQ (.tld 0 0x202000 64 0x8000C1)) 0 3 .read 0x202000 64 2 16 (fun r => 0x410000002000 + 64 * r) := by
  intro r hr
  have : r = 0 ∨ r = 1 := by omega
  rcases this with rfl | rfl
  · refine ⟨by decide, fun j hj => ⟨?_, .inl ⟨0x2000 + j, ?_⟩⟩⟩ <;> (revert hj; revert j; decide)
  · refine ⟨by decide, fun j hj => ⟨?_, .inl ⟨0x2040 + j, ?_⟩⟩⟩ <;> (revert hj; revert j; decide)
theorem witness_TileUnitReports :
    tileRow (stTileQ (.tld 0 0x202000 2 0x8000C1)) 0 3 .read (0x202000 + BitVec.ofNat 64 1 * 2) 16 = .error ⟨3, 0x202002⟩ := by decide
theorem witness_TileUnitReports_layout : (Elem.pack ⟨true, 0, 0, 5, false⟩).layoutFault false = true := by decide

/-! ### The vector stream unit -/

/-- A stream descriptor: base, format, source, stride (R98). -/
def stm (base fmt src rs : Nat) : List Byte := leBytes 16 (base + 2 ^ 48 * fmt + 2 ^ 52 * src + 2 ^ 56 * rs)
/-- An operation descriptor: header low and high, and five streams (R97). -/
def opd (lo hi : Nat) (ss : List (List Byte)) : List Byte :=
  leBytes 8 lo ++ leBytes 8 hi ++ (ss ++ List.replicate (5 - ss.length) (leBytes 16 0)).flatten

/-- Core 0 with an entry at the head of its vector queue and bytes in its operand cache. -/
def stVec (desc : List Byte) (op : VecOp) (cache : List (Nat × Byte)) : State :=
  (st [] []).modCore 0 (fun c => { c with vsu := { c.vsu with
    queue := [{ op := op, desc := desc, iaddr := 0x40000, ring := 3, stamp := 0 }], cache := cache } })

def vbytes (at_ : Nat) (bs : List Byte) : List (Nat × Byte) := ((List.range bs.length).zip bs).map (fun e => (at_ + e.1, e.2))

/-- The inputs and lengths of the worked example of R108, at 0x100 and 0x200 of the cache. -/
def segInputs : List (Nat × Byte) :=
  vbytes 0x100 ([0x3F800000, 0x40000000, 0x3F000000, 0x40400000, 0xBF800000, 0x40800000, 0x3E800000, 0x3A800000].flatMap (leBytes 4))
    ++ vbytes 0x200 ([3, 0, 2, 3].flatMap (leBytes 4))

/-- The example's descriptor with an OP and D's format. -/
def segDesc (op fmt : Nat) : List Byte :=
  opd (0x0042000700006000 + op) 0x0003000000000000 [stm 0x300 fmt 2 0, stm 0x100 0 2 0, stm 0x200 10 2 0]

theorem test_segdesc_legal : vecCheck (segDesc 0x30 2) = none ∧ vecCheck (segDesc 0x20 0) = none := by decide +kernel
/-- R108: the eight BF16 outputs of the worked example. -/
theorem test_seg_scan :
    after (fun t => (List.range 8).map (fun j => leNat ((List.range 2).map (fun b => mget 0 (t.core 0).vsu.cache (0x300 + 2 * j + b)))))
      (.vScan 0 none) (stVec (segDesc 0x30 2) (.vexec 0x202000) segInputs)
    = some [0x3F80, 0x4040, 0x4060, 0x4040, 0x4000, 0x4080, 0x4088, 0x4088] := by decide +kernel
/-- R108: the four FP32 sums, one of an empty segment. -/
theorem test_seg_sum :
    after (fun t => (List.range 4).map (fun j => leNat ((List.range 4).map (fun b => mget 0 (t.core 0).vsu.cache (0x300 + 4 * j + b)))))
      (.vRsum 0 none) (stVec (segDesc 0x20 0) (.vexec 0x202000) segInputs)
    = some [0x40600000, 0, 0x40000000, 0x40880800] := by decide +kernel
/-- R102: EXP2 of 0.5 into FP32. -/
theorem test_exp2 : (elemOut 0x10 (vstream (opd 0 0 [stm 0 0 2 0]) 0) [vstream (opd 0 0 [stm 0 0 2 0]) 0] Rnd.rne [0x3F000000]).code
    = 0x3FB504F3 := by decide +kernel
/-- R102: INT8 100 + 100 into INT8 in memory. -/
def addDesc : List Byte := opd 0x0002 0 [stm 0x202000 8 1 0, stm 100 8 4 0, stm 100 8 4 0]
theorem test_vadd : after (fun t => (t.getByte 0x410000002000, (t.core 0).vsu.queue.map (·.done))) (.vAdd 0 1 none)
    (stVec addDesc (.vexec 0x202000) []) = some (127, [true]) := by decide +kernel
theorem test_vzero : after (fun t => (mget 0 (t.core 0).vsu.cache 0x105, mget 0 (t.core 0).vsu.cache 0x200)) (.vcacheZero 0 1 none)
    (stVec [] (.vcache 0 0x100 0x80 2) segInputs) = some (0, 3) := by decide
theorem test_vcomplete : after (fun t => ((t.core 0).vsu.queue.length, (t.core 0).vsu.conds.nv)) (.vectorInstructionComplete 0)
    ((after id (.vAdd 0 1 none) (stVec addDesc (.vexec 0x202000) [])).getD (st [] [])) = some (0, true) := by decide +kernel
/-- R102: the largest of −3, −7 and 5 in absolute value. -/
theorem test_ramax : intFold 0x23 [-3, -7, 5] = some 7 := by decide

theorem witness_VectorInstructionsIssue :
    let s := (stSpad 0x202000 0).putBytes 0x410000002000 addDesc
    Ready s 0 (.vexec 0 ⟨.d8 0, none⟩) 1 0 ∧ DescriptorAt s 0 3 0x202000 addDesc ∧ vecCheck addDesc = none ∧ MildHit none := by
  refine ⟨by unfold Ready State.Runs State.Fits; decide, ⟨by decide, (rangeFrom 0x410000002000 96).map (fun p => (p, false)), ?_⟩, by decide +kernel, by rintro n x ⟨⟩⟩
  refine ⟨by rfl, ?_, by decide +kernel⟩
  intro p hp
  refine ⟨?_, .inl ⟨p.1 - 0x410000000000, ?_⟩⟩ <;> (revert p; decide +kernel)
theorem witness_VectorInstructionsIssue_vcache :
    let s := st [2, 0x80, 0x100, 0] []
    Ready s 0 (.vcache 0) 4 0 ∧ VcacheOk s 0 0 0x100 0x80 2 := by
  refine ⟨by unfold Ready State.Runs State.Fits; decide, by decide, by decide, by decide, by decide, by decide, fun h => absurd rfl h⟩
theorem witness_VectorInstructionsIssue_vsync : Ready (st [] []) 0 (.vsync 0) 0 0 := by unfold Ready State.Runs State.Fits; decide
theorem witness_ElementsProduced :
    VecHead (stVec addDesc (.vexec 0x202000) []) 0 { op := .vexec 0x202000, desc := addDesc, iaddr := 0x40000, ring := 3, stamp := 0 }
      ∧ Supplies (stVec addDesc (.vexec 0x202000) []) 0 3 (vstream addDesc 1) 0 0 100
      ∧ vecXlate (stVec addDesc (.vexec 0x202000) []) 0 3 .write 0x202000 1 = .ok [0x410000002000] ∧ ([0x410000002000] : List Nat).Nodup := by
  refine ⟨by unfold VecHead; decide +kernel, .inl ⟨by decide +kernel, by decide +kernel⟩, by decide +kernel, by decide⟩
theorem witness_ExactResults : intResult 0x02 [100, 100] = some 200 ∧ clampTo 8 200 = 127 := by decide +kernel
/-- R104: the sum of two scalars at each of two columns. -/
def rsumDesc : List Byte := opd 0x100000020 0 [stm 0x202000 10 1 0, stm 100 8 4 0]
theorem witness_FoldsProduced :
    let s := stVec rsumDesc (.vexec 0x202000) []
    VecHead s 0 { op := .vexec 0x202000, desc := rsumDesc, iaddr := 0x40000, ring := 3, stamp := 0 }
      ∧ (∀ r c, r < 1 → c < 2 → Supplies s 0 3 (vstream rsumDesc 1) r c 100)
      ∧ termsAt (vhead rsumDesc) (fun _ _ => 100) none (0, 0) = some (some [100, 100])
      ∧ vecXlate s 0 3 .write 0x202000 4 = .ok (rangeFrom 0x410000002000 4) := by
  refine ⟨by unfold VecHead; decide +kernel, fun r c _ _ => .inl ⟨by decide +kernel, by decide +kernel⟩, by decide +kernel, by decide +kernel⟩
theorem witness_FoldsProduced_segments :
    segLens (vhead (segDesc 0x30 2)) (vstream (segDesc 0x30 2) 2) [3, 0, 2, 3] = .ok [3, 0, 2, 3]
      ∧ termsAt (vhead (segDesc 0x30 2)) (fun _ c => c) (some [3, 0, 2, 3]) (0, 4) = some (some [3, 4]) := by decide +kernel
theorem test_rsum : after (fun t => leNat (t.getBytes 0x410000002000 4)) (.vRsum 0 none) (stVec rsumDesc (.vexec 0x202000) []) = some 200 := by
  decide +kernel
theorem witness_VectorUnitAdvances :
    VecHead (stVec [] (.vcache 0x202000 0x100 0x80 0) []) 0 { op := .vcache 0x202000 0x100 0x80 0, desc := [], iaddr := 0x40000, ring := 3, stamp := 0 }
      ∧ vecXlate (stVec [] (.vcache 0x202000 0x100 0x80 0) []) 0 3 .read 0x202000 64 = .ok (rangeFrom 0x410000002000 64) := by
  unfold VecHead; decide +kernel

/-! ### Writes on their way, scrubbers, L2 -/

/-- stPosted with window 0 of core 1 open over its first 32 bytes for masters lo to hi. -/
def stWin (lo hi : Nat) : State :=
  stPosted.modCore 1 (fun c => c.setWindow 0 { c.window 0 with base := 0, last := 1, en := true, lo := lo, hi := hi })
theorem test_remote_write : after (fun t => (t.getByte 0x410000100010, (t.core 0).posted.length)) (.scratchpadRemoteWrite 0 .clean)
    (stWin 0 5) = some (1, 0) := by decide
/-- R131: reason SOURCE for a master that the window does not admit. -/
theorem test_remote_rejected : after (fun t => (t.getByte 0x410000100010, (t.core 1).sp.rejReason, (t.core 1).sp.rejCount))
    (.scratchpadRemoteWrite 0 .clean) (stWin 1 5) = some (0, 2, 1) := by decide
theorem witness_RemoteWritesChecked_accepted : Accepts (stWin 0 5) 1 0x10 1 0 :=
  ⟨⟨0, by decide, by decide⟩, by intro i _ n hn h; exfalso; revert h; interval_cases n <;> decide⟩
theorem witness_RemoteWritesChecked_rejected : (stWin 1 5).windowCheck 1 0x10 1 0 = some .source
    ∧ (stPosted.core 0).posted = [⟨0x410000100010, [1], 0x40000, 0⟩] ∧ placeOf 0x410000100010 = .spad 1 0x10 := by decide
theorem test_drain : (match exec (.mergeDrainStart 0 0x800) stLine with
    | .next t => after (fun u => (u.getByte 0x20010, (u.cluster 0).l2.mb.length)) (.mergeEntryInPlace 0 0x800) t
    | _ => none) = some (7, 0) := by decide
theorem witness_MemoriesMaintained_drains : (([⟨0x800, [(0x10, 7)], [(0, 0)], true⟩] : List MbEntry).find? (fun e => e.draining))
    = some ⟨0x800, [(0x10, 7)], [(0, 0)], true⟩ ∧ (stLine.cluster 0).l2.mb.find? (fun e => e.draining) = none := by decide
theorem witness_MemoriesMaintained : findEntry (stLine.cluster 0).l2.mb 0x800 = some ⟨0x800, [(0x10, 7)], [(0, 0)], false⟩ := by decide
theorem test_scrub : after (fun t => ((t.core 3).sp.uerow, (t.core 3).sp.uebank)) (.scratchpadScrub (.spad 3) 0x840 .uncorrectable)
    (st [] []) = some (2, 6) := by decide
theorem witness_MemoriesMaintained_patrol : (st [] []).boot.st = .ready ∧ ((st [] []).hbm 0).mapout.getLsbD 5 = false := by decide
theorem test_patrol : after (fun t => ((t.hbm 0).cecnt, mget 0 (t.hbm 0).scrub 5)) (.patrolScrub 5 .corrected) (st [] [])
    = some (1, 1) := by decide +kernel
/-- R220: the example's range. -/
def lockWord : Word := 0x0004001800040000
def stOwns2 : State := { st [] [] with parts := [(0, { part0 with defn := 2 ^ 0 + 2 ^ 14 + 2 ^ 24 })] }
theorem test_lock : after (fun t => ((t.cluster 0).l2.lockAddr, (t.cluster 0).l2.nways, (t.cluster 0).l2.work.length))
    (.l2Lock maltsterWriter 0 lockWord) stOwns2 = some (0x001800040000, 4, 1) := by decide
theorem test_lock_refused : after (fun t => ((t.cluster 0).l2.nways, (t.cluster 0).l2.cfg.off)) (.l2Lock maltsterWriter 0 lockWord)
    (st [] []) = some (0, 0x18) := by decide
theorem witness_L2Maintained : MaltsterWrites stOwns2 ∧ (stOwns2.cluster 0).l2.en = true ∧ (stOwns2.cluster 0).l2.nways = 0
    ∧ stOwns2.ownsRange 0 0x001800040000 (4 * 0x20000) = true := by unfold MaltsterWrites; decide
noncomputable def stDisabling : State := (after id (.l2Disable maltsterWriter 0 0) stLine).getD stLine
theorem witness_L2Maintained_done : (stDisabling.cluster 0).l2.work = [(.disable false, [0x800])]
    ∧ ((stDisabling.entryInPlace 0 0x800).cluster 0).l2.mb = [] := by decide
theorem test_disable : after (fun t => ((t.cluster 0).l2.en, (t.cluster 0).l2.lines.length)) (.l2MaintenanceDone 0)
    (stDisabling.entryInPlace 0 0x800) = some (false, 0) := by decide

/-! ### The mesh -/

/-- R155: router 400's word of the worked example. -/
def word400 : BitVec 128 := 0x00000000003B0A0005466000000003F0
theorem test_word400 : routeWord 0x00000000003B0A0005466000000003F0 = .fwd
    { beats := 64, selN := .none, selS := .none, selE := .none, selW := .none, selD := .sum, sumfmt := 2,
      order := [.link .n, .link .s, .inject], injs := 0, dlvs := 0, waiten := true, waitf := 2, waitclr := true,
      doneen := true, donek := false, donef := 7 } := by decide
/-- R155: both operand orders of the example at core 400. -/
theorem test_order : (fpChain 0x4B800000 [0x3F800000, 0x3F800000]).1 = 0x4B800000
    ∧ (fpChain 0x3F800000 [0x3F800000, 0x4B800000]).1 = 0x4B800001 := by decide +kernel

/-- Core 400 of a partition with every cluster, at that word, with a task and a launch. -/
def st400 : State :=
  { State.reset with
    parts := [(0, { part0 with defn := 0xFFFFFF000000 % 2 ^ 46 + 2 ^ 12 - 1, launch := some { sched := 0 } })],
    boot := { st := .ready, ready := true, pwrgood := true },
    cores := [(400, { core0 3 [] [] with
      rt := { store := [(0, 0x00000000003B0A0005466000000003F0)], run := true, bufN := [List.replicate 256 1], bufS := [List.replicate 256 2] },
      sp := { windows := [(0, { base := 0, last := 0xFFFF, en := true, lo := 0, hi := 0x2FF })] } })] }
/-- R148, R154: one beat of INT32 sums from N and S is delivered and both buffers move on. -/
theorem test_beat :
    after (fun t => (t.getBytes (spadAddr 400 0x100) 4, (t.core 400).rt.beat, (t.core 400).rt.bufN.length))
      (.routeBeat 400 .clean [])
      (st400.modCore 400 (fun c => { c with rt := { c.rt with
        store := [(0, BitVec.ofNat 128 (0x3F0 + 6 * 2 ^ 44 + 2 ^ 48 + 2 ^ 50 + 2 * 2 ^ 53))], dlv := [(0, 0x10)] } }))
    = some ([3, 3, 3, 3], 1, 0) := by decide +kernel
/-- R148: the example's window ends with its DONE action, and the next word is END. -/
theorem test_window_end : after (fun t => (t.flight.map (·.target), (t.core 400).rt.ended, (t.core 400).ipend)) (.routeWindowEnd 400)
    (st400.modCore 400 (fun c => { c with rt := { c.rt with beat := 64 } })) = some ([.bin 400 7], true, 8) := by decide +kernel
theorem witness_RouterWindowsRun : ∃ w, AtWindow st400 400 w ∧ w.moves = true ∧ st400.beatReady 400 w = true ∧ w.waitf < 64 :=
  ⟨_, ⟨by decide, ⟨by decide, by decide, by decide, by rintro p h; cases (show st400.partOfCore 400 = some 0 by decide).symm.trans h; decide⟩,
    by rfl⟩, by decide, by decide, by decide⟩
theorem witness_RouterWindowsRun_stopped : ¬RouterWorks (st [] []) 5 := fun h => h.1 (by decide)
theorem witness_RouterWindowsRun_scratchpad : BeatOpen st400 400 0x100 ∧ BeatSound st400 400 0x100 :=
  ⟨by unfold BeatOpen; decide, fun _ _ => sound_of rfl rfl _⟩
theorem witness_RouterWindowsRun_stream : StreamBeat 0x10 0 0x100 ∧ Accepts st400 400 0x100 256 376 := by
  refine ⟨by unfold StreamBeat; decide, ⟨0, by decide, by decide⟩, ?_⟩
  intro i hi n hn h
  exfalso
  revert h
  interval_cases n <;> decide
theorem witness_RouteFaults : st400.partOfCore 400 = some 0 ∧ Launched st400 0 ∧ st400.meshPeer 400 .n = some 376 := by
  unfold Launched; decide
theorem witness_RouteFaults_range : ∀ off, ¬StreamBeat 0xFFFF 0 off := by
  intro off h; exact absurd h.2.1 (by decide)
theorem test_stall : after (fun t => ((t.core 400).rt.fault.cause, (t.core 400).issues)) (.stall 400) st400 = some (3, false) := by decide +kernel

/-! ### The cluster engines -/

/-- R256's example descriptor. -/
def exampleDesc : List Word := [0x3F000203, 0x000700000A000107, 0x3E7, 0x50, 0x64009, 0, 0, 0]
theorem test_dma_format :
    dmaDesc 0x50040 exampleDesc = { addr := 0x50040, id := 7, op := 0, src := 0x3F000203, dst := 0xA000107, len0 := 1000, last := true,
                                    doneen := true, dword := 0x64009 } := by decide
theorem test_done_word : doneOf 0x64009 0x3AF = { target := .bin 400 9, act := .set, source := 0x3AF, rank := 0, origin := none } := by decide

/-- Cluster 0 with a list whose one descriptor stands at 0x50040. -/
def descCells (q : List Word) : List Host.Cell :=
  (((List.range 64).zip (q.flatMap (fun w => leBytes 8 w.toNat))).filter (fun e => e.2 != 0)).map (fun e => (0x20040 + e.1, e.2))
def stDma (x : DmaChan) : State :=
  { st [] [] with mem := descCells [0x50200, 0x0007000000200107, 0x3E7, 0x50, 9, 0, 0, 0] ++ [(0x20200, 5), (0x20201, 6)],
                  clusters := [(0, { dma := { chans := [(2, x)] } })] }
def listAt : DmaChan := { lists := [{ num := 0, next := 0x50040 }] }
/-- A copy of 1,000 bytes from 0x50200 to scratchpad offset 0x107 of core 0. -/
def copyDesc : DmaDesc := dmaDesc 0x50040 [0x50200, 0x0007000000200107, 0x3E7, 0x50, 9, 0, 0, 0]
def copyRun : DmaRun := { desc := copyDesc, started := true }
theorem test_dma_fetch : after (fun t => ((t.dmaChan 0 2).descs.map (·.desc), (t.dmaChan 0 2).lists.map (·.fetchedLast)))
    (.dmaDescriptorFetch 0 2 none) (stDma listAt) = some ([copyDesc], [true]) := by decide +kernel
theorem test_dma_start : after (fun t => (t.dmaChan 0 2).descs.map (·.started)) (.dmaDescriptorStart 0 2)
    (stDma { descs := [{ desc := copyDesc }] }) = some [true] := by decide
theorem test_dma_read : after (fun t => (t.dmaChan 0 2).descs.map (·.buf)) (.copy 0 2 3 0 none none)
    (stDma { descs := [copyRun] }) = some [[5, 6, 0]] := by decide +kernel
/-- A write beat ends at the 256-byte boundary: 16 of 20 bytes. -/
def stBeat (lo hi : Nat) : State :=
  (stDma { descs := [{ copyRun with desc := { copyDesc with dst := 0x2001F0 }, readN := 20, buf := List.replicate 20 3 }] }).modCore 0 (fun c =>
    { c with sp := { windows := [(0, { base := 0, last := 0xFFFF, en := true, mode := 0, lo := lo, hi := hi })] } })
theorem test_dma_beat : after (fun t => ((t.dmaChan 0 2).descs.map (·.doneN), t.getByte 0x4100000001FF, t.getByte 0x410000000200))
    (.copy 0 2 0 1 none none) (stBeat 0 0x3FF) = some ([16], 3, 0) := by decide +kernel
theorem test_dma_compare : after (fun t => ((t.dmaChan 0 2).nmis, (t.dmaChan 0 2).cmpa)) (.dmaCompare 0 2 3 none)
    (stDma { descs := [{ desc := { copyDesc with op := 2 }, started := true, fresh := true }] }) = some (2, 0x200107) := by decide +kernel
theorem test_dma_done : after (fun t => (t.flight.map (·.target), (t.dmaChan 0 2).lists.length)) (.dmaDescriptorComplete 0 2)
    (stDma { listAt with descs := [{ copyRun with readN := 1000, doneN := 1000 }] }) = some ([.bin 0 9], 0) := by decide +kernel

theorem witness_DmaLists : ChannelOf (stDma listAt) 0 0 2
    ∧ DescriptorWords (stDma listAt) ⟨0, 0x300, 0x300 + 8192⟩ 0 0x50040 [0x50200, 0x0007000000200107, 0x3E7, 0x50, 9, 0, 0, 0]
    ∧ ¬DmaReserved (stDma listAt) 0 [0x50200, 0x0007000000200107, 0x3E7, 0x50, 9, 0, 0, 0] ∧ ¬DmaOverlap copyDesc := by
  refine ⟨by unfold ChannelOf; decide, ⟨0x20040, ?_, by decide, trivial, by decide +kernel⟩, ?_, ?_⟩
  · intro i hi
    exact ⟨false, by interval_cases i <;> rfl⟩
  · unfold DmaReserved DoneLegal; decide +kernel
  · rintro ⟨-, -, u, hu, v, hv, h⟩
    have e : copyDesc.src.toNat = 0x50200 ∧ copyDesc.dst = 0x200107 ∧ copyDesc.cnt1 = 1 ∧ copyDesc.cnt2 = 1 ∧ copyDesc.cnt3 = 1
      ∧ copyDesc.sstr = [0, 0, 0] ∧ copyDesc.dstr = [0, 0, 0] ∧ copyDesc.len0 = 1000 := by decide
    obtain ⟨e1, e2, e3, e4, e5, e6, e7, e8⟩ := e
    simp only [e1, e2, e3, e4, e5, e6, e7, e8, List.getD_cons_zero, List.getD_cons_succ, toTwos] at h hu hv
    omega
theorem witness_DmaLists_faults : DmaReserved (stDma listAt) 0 [0, 0, 0, 0x13, 0, 0, 0, 0]
    ∧ ¬DmaReserved (stDma listAt) 0 [0x50000, 0x50000, 0, 0x10, 0, 0, 0, 0] ∧ DmaOverlap (dmaDesc 0x50040 [0x50000, 0x50000, 0, 0x10, 0, 0, 0, 0])
    ∧ (∃ f, fabXlate (stDma listAt) ⟨0, 0x300, 0x300⟩ .read 0x90000 = .error f) ∧ fcPage = 1 := by
  refine ⟨by unfold DmaReserved DoneLegal; decide, by unfold DmaReserved DoneLegal; decide, ?_, ⟨_, rfl⟩, rfl⟩
  exact ⟨by decide, ⟨0, by decide, 0, by decide, by decide⟩, ⟨0, by decide, 0, by decide, by decide⟩⟩
theorem witness_DmaLists_stopped : (stDma {}).partOfCluster 0 = some 0 ∧ ((stDma { stopped := true }).dmaChan 0 2).stopped = true := by decide
theorem witness_DmaLists_start : ChannelOf (stDma { descs := [{ desc := copyDesc }] }) 0 0 2
    ∧ ((stDma { descs := [{ desc := copyDesc }] }).dmaChan 0 2).descs = [] ++ { desc := copyDesc } :: [] := by
  unfold ChannelOf; decide
theorem witness_DmaMoves : EngByte (stDma { descs := [copyRun] }) ⟨0, 0x300, 0x300⟩ .read 0x50200 0x20200
    ∧ copyRun.readN + 3 ≤ copyRun.desc.total ∧ EngByte (stBeat 0 0x3FF) ⟨0, 0x300, 0x300⟩ .write 0x2001F0 0x4100000001F0
    ∧ Accepts (stBeat 0 0x3FF) 0 0x1F0 16 0x300 := by
  refine ⟨⟨_, rfl⟩, by decide, ⟨_, rfl⟩, ⟨0, by decide, by decide⟩, ?_⟩
  intro i hi n hn h
  exfalso
  revert h
  interval_cases n <;> decide
theorem witness_DmaMoves_reads : MildHit (some (1, .corrected)) ∧ ChannelOf (stDma { descs := [copyRun] }) 0 0 2
    ∧ ((stDma { descs := [copyRun] }).dmaChan 0 2).descs = [] ++ copyRun :: [] ∧ (placeOf 0x20200).isMemory = true := by
  refine ⟨?_, by unfold ChannelOf; decide, by decide, by decide⟩
  rintro n x ⟨⟩
  decide
theorem witness_DmaMoves_rejected : (stBeat 0 5).windowCheck 0 0x1F0 16 0x300 = some .source := by decide +kernel
theorem witness_DmaEnds : (stDma listAt).fabPending ⟨0, 0x300, 0x300 + 8192⟩ = false
    ∧ (stDma listAt).cltFlushStream 0 (0x300 + 8192) = stDma listAt ∧ Launched { stDma listAt with parts := [(0, { part0 with launch := some { sched := 0 } })] } 0
    ∧ MaltsterWrites (stDma listAt) := by unfold Launched MaltsterWrites; decide

/-- R284's check value. -/
def digits : List Byte := [0x31, 0x32, 0x33, 0x34, 0x35, 0x36, 0x37, 0x38, 0x39]
theorem test_crc : crcBits 0 digits = 0xE3069283 ∧ crc32c 0 digits = 0xE3069283 := by decide +kernel
/-- R285: parts of a whole number of words add up. -/
theorem test_fp_parts : wordSum 0 (digits ++ digits) = wordSum 0 (digits.take 8) + wordSum 1 ((digits ++ digits).drop 8) := by decide +kernel

/-- Engine e of cluster 0 with a fetched descriptor, and bytes in core 0's scratchpad and in memory. -/
def engWith (q : List Word) : Eng := { queue := [{ addr := 0x50040, core := 0, words := some q }] }
def stEng (e : Nat) (q : List Word) (cells : List Host.Cell) : State :=
  { (st [] []).modCore 0 (fun c => { c with sp := { windows := [(0, { base := 0, last := 0xFFFF, en := true, lo := 0, hi := 0x3FF })] } }) with
    mem := cells, clusters := [(0, ({} : Cluster).setEng e (engWith q))] }
/-- ROWS: indices −1 and 1 at scratchpad offset 0x100, a table of 2 rows of 16 bytes at 0x50000, to offset 0x1000. -/
def rowsQ : List Word := [0x100000000, 0, 0x50000, 0x200100, 0x201000, 0x200000010, 0x10, 0x10]
def stRows (n : Byte) : State :=
  stEng 1 rowsQ [(0x20010, 7), (0x410000000100, 0xFF), (0x410000000101, 0xFF), (0x410000000102, 0xFF), (0x410000000103, 0xFF), (0x410000000104, n)]
theorem test_rows : after (fun t => (t.getByte 0x410000001000, t.getByte 0x410000001010, (t.eng 0 1).fault)) (.rows 0 none) (stRows 1)
    = some (0, 7, none) := by decide +kernel
theorem test_rows_index : after (fun t => ((t.eng 0 1).fault.map (·.cause), (t.eng 0 1).fault.map (·.item))) (.rows 0 none) (stRows 2)
    = some (some 6, some 1) := by decide +kernel
/-- SORT, descending, of the INT8 keys 3, −1, 3 at offset 0x100, with the keys. -/
def sortQ (op : Nat) : List Word := [BitVec.ofNat 64 (op + 2 ^ 36 + 8 * 2 ^ 32 + (if op = 2 then 0 else 2 ^ 37)), 0, 0x200100, 0x201000, 0x202000,
  BitVec.ofNat 64 (2 * 2 ^ 16 + (if op = 0 then 0 else 2 ^ 32)), 0, if op = 2 then 0x203000 else 0]
def stSort (op : Nat) : State := stEng 2 (sortQ op) [(0x410000000100, 3), (0x410000000101, 0xFF), (0x410000000102, 3)]
theorem test_sort : after (fun t => ((List.range 3).map (fun i => t.getByte (0x410000001000 + 4 * i)), t.getBytes 0x410000002000 3)) (.sort 0 none)
    (stSort 0) = some ([0, 2, 1], [3, 3, 0xFF]) := by decide +kernel
theorem test_topk : after (fun t => ((List.range 3).map (fun i => t.getByte (0x410000001000 + 4 * i)))) (.topk 0 none)
    (stSort 1) = some [0, 2, 0] := by decide +kernel
theorem test_route : after (fun t => ((List.range 2).map (fun i => t.getByte (0x410000002000 + 4 * i)), (List.range 3).map (fun i => t.getByte (0x410000003000 + 4 * i))))
    (.route 0 none) (stSort 2) = some ([0, 0], [1, 0, 1]) := by decide +kernel
/-- SAMPLE of two FP32 logits, greedy (TEMP = 0), TOPP = 1. -/
def smpQ : List Word := [0x10000000000000, 0, 0x200100, 0x200200, 0x201000, 0x10000, 0, 0]
def stSmp : State := stEng 3 smpQ [(0x410000000103, 0x3F), (0x410000000106, 0x80), (0x410000000107, 0x3F), (0x41000000020E, 0x80), (0x41000000020F, 0x3F)]
theorem test_sample : after (fun t => (leNat (t.getBytes 0x410000001000 4), leNat (t.getBytes 0x410000001004 4))) (.sample 0 none) stSmp
    = some (1, 0x3F800000) := by decide +kernel
def fprQ (op : Nat) : List Word := [BitVec.ofNat 64 (op + 2 ^ 32 + 9 * 2 ^ 16), 0, 0x200100, 0x201000, 9, 0xE3069283, 0, 0]
def stFpr (op : Nat) : State := stEng 4 (fprQ op) (((List.range 9).zip digits).map (fun e => (0x410000000100 + e.1, e.2)))
theorem test_fpr : after (fun t => (leNat (t.getBytes 0x410000001000 8), (t.eng 0 4).mark)) (.crc32c 0 none) (stFpr 0) = some (0xE3069283, false) := by
  decide +kernel
theorem test_fpr_mismatch : after (fun t => ((t.eng 0 4).nmis, (t.eng 0 4).fdesc)) (.fp64 0 none) (stFpr 1) = some (1, 9) := by decide +kernel

set_option synthInstance.maxSize 4096 in
set_option synthInstance.maxHeartbeats 200000 in
theorem witness_EnginesRun : ¬EngineReserved (st [] []) 0 4 (fprQ 0) ∧ ¬EngineMisaligned 4 (fprQ 0)
    ∧ EngineReserved (st [] []) 0 4 (fprQ 3) ∧ EngineMisaligned 1 (rowsQ.set 4 0x201008)
    ∧ ¬EngineReserved (st [] []) 0 1 rowsQ ∧ ¬EngineMisaligned 1 (rowsQ.set 4 0x200100) := by
  unfold EngineReserved EngineMisaligned DoneLegal
  dsimp only
  refine ⟨?_, ?_, ?_, ?_, ?_, ?_⟩ <;> decide +kernel
theorem witness_EnginesRun_overlap : EngineOverlap 1 (rowsQ.set 4 0x200100) ∧ ¬EngineOverlap 4 (fprQ 0) := by
  constructor
  · exact ⟨(0x200100, 8, 1, 0), by decide, (0x200100, 16, 2, 0x10), by decide,
      ⟨0x200100, 0x200100, ⟨0, by decide, 0, by decide, by decide⟩, ⟨0, by decide, 0, by decide, by decide⟩, Nat.le_refl _⟩,
      ⟨0x200100, 0x200100, ⟨0, by decide, 0, by decide, by decide⟩, ⟨0, by decide, 0, by decide, by decide⟩, Nat.le_refl _⟩⟩
  · rintro ⟨i, hi, o, ho, -, x, y, ⟨a, ha, b, hb, hx⟩, ⟨c, hc, d, hd, hy⟩, h⟩
    have e : engineRanges 4 (fprQ 0) = ([(0x200100, 9, 1, 0)], [(0x201000, 8, 1, 0)]) := by decide +kernel
    rw [e] at hi ho
    cases List.mem_singleton.1 hi
    cases List.mem_singleton.1 ho
    dsimp only at *
    omega
theorem witness_EnginesRun_fetch :
    DescriptorWords (stDma {}) ⟨0, 0x304, 0x304⟩ 0 0x50040 [0x50200, 0x0007000000200107, 0x3E7, 0x50, 9, 0, 0, 0] := by
  refine ⟨0x20040, ?_, by decide, trivial, by decide +kernel⟩
  intro i hi
  exact ⟨false, by interval_cases i <;> rfl⟩
theorem witness_EngineSteps : ((stRows 1).eng 0 1).queue = { addr := 0x50040, core := 0, words := some rowsQ } :: []
    ∧ (rowsQ.getD 0 0).toNat % 16 = 0 ∧ ((stRows 1).eng 0 1).fault = none := by decide
theorem witness_GatherPlaces_open : Accepts (stRows 1) 0 0 0x100000 0x301 := by
  refine ⟨⟨0, by decide, by decide +kernel⟩, ?_⟩
  intro i hi n hn h
  exfalso
  revert h
  interval_cases n <;> decide
theorem witness_GatherPlaces : EngineAt (stRows 1) 0 0 1 rowsQ
    ∧ SuppliedNear (stRows 1) ⟨0, 0x301, 0x301⟩ none 0 0x200100 (leBytes 4 (2 ^ 32 - 1))
    ∧ SuppliedNear (stRows 1) ⟨0, 0x301, 0x301⟩ none 0 0x200104 (leBytes 4 1)
    ∧ Supplied (stRows 1) ⟨0, 0x301, 0x301⟩ none 0x50010 [7, 0, 0, 0, 0, 0, 0, 0, 0, 0, 0, 0, 0, 0, 0, 0]
    ∧ Outputs (stRows 1) ⟨0, 0x301, 0x301⟩ [(0x201000, List.replicate 16 0), (0x201010, [7, 0, 0, 0, 0, 0, 0, 0, 0, 0, 0, 0, 0, 0, 0, 0])]
        (fun o => 0x410000001000 + 16 * o) := by
  refine ⟨⟨by decide, by decide, _, _, rfl, rfl, rfl⟩, ⟨?_, by decide, 0x410000000100, ⟨_, rfl⟩, .inr ⟨0, 0x100, by decide, by decide⟩⟩,
    ⟨?_, by decide, 0x410000000104, ⟨_, rfl⟩, .inr ⟨0, 0x104, by decide, by decide⟩⟩, ?_, ?_, ?_, ?_⟩
  · intro i hi
    refine ⟨0x410000000100 + i, ⟨false, ?_⟩, ?_, ?_⟩ <;> (simp only [leBytes, List.length_cons, List.length_nil] at hi; interval_cases i <;> first | rfl | decide +kernel)
  · intro i hi
    refine ⟨0x410000000104 + i, ⟨false, ?_⟩, ?_, ?_⟩ <;> (simp only [leBytes, List.length_cons, List.length_nil] at hi; interval_cases i <;> first | rfl | decide +kernel)
  · intro i hi
    refine ⟨0x20010 + i, ⟨false, ?_⟩, ?_, ?_⟩ <;> (simp only [List.length_cons, List.length_nil] at hi; interval_cases i <;> first | rfl | decide +kernel)
  · intro o ho
    simp only [List.length_cons, List.length_nil] at ho
    interval_cases o <;> decide
  · intro o ho i hi
    refine ⟨⟨false, ?_⟩, sound_of rfl rfl _, fun k off h => ?_⟩
    · simp only [List.length_cons, List.length_nil] at ho
      interval_cases o <;> (simp at hi; interval_cases i <;> rfl)
    · have : k = 0 := by
        simp only [List.length_cons, List.length_nil] at ho
        revert h
        interval_cases o <;> (simp at hi; interval_cases i <;> exact fun h => by injection h with h _; exact h.symm)
      subst this
      exact witness_GatherPlaces_open
  · intro o ho o' ho' hne
    simp only [List.length_cons, List.length_nil] at ho ho'
    interval_cases o <;> interval_cases o' <;> simp at *
theorem witness_SelectOrders : EngineAt (stSort 0) 0 0 2 (sortQ 0)
    ∧ KeyOrder true (fun i => decodeCode .int8 0 (([3, 0xFF, 3] : List Nat).getD i 0)) 3 [0, 2, 1] := by
  refine ⟨⟨by decide, by decide, _, _, rfl, rfl, rfl⟩, by decide, ?_⟩
  simp only [List.pairwise_cons, List.mem_cons, List.not_mem_nil]
  unfold KeyBefore
  refine ⟨fun a ha => ?_, fun a ha => ?_, fun a ha => absurd ha (by simp), List.Pairwise.nil⟩
  · rcases ha with rfl | rfl | h
    · right; decide +kernel
    · left; decide +kernel
    · exact absurd h (by simp)
  · rcases ha with rfl | h
    · left; decide +kernel
    · exact absurd h (by simp)
theorem witness_SamplerDraws : EngineAt stSmp 0 0 3 smpQ
    ∧ Drawn 0 0 0 0 (.zero false) (.fin ⟨1, 0⟩) [.fin ⟨1, -1⟩, .fin ⟨1, 0⟩] 1 0x3F800000 False := by
  refine ⟨⟨by decide, by decide, _, _, rfl, rfl, rfl⟩, ?_, fun h => h.elim, fun _ _ => ⟨rfl, by decide, ?_, ?_⟩, fun _ h => absurd ⟨false, rfl⟩ h⟩
  · simp [Val.isNan, Val.isInf]
    decide
  · decide
  · intro i hi
    have : i = 0 := by omega
    subst this
    exact ⟨.fin ⟨1, 0⟩, by simp, by decide⟩
theorem witness_FingerprintsComputed : EngineAt (stFpr 0) 0 0 4 (fprQ 0) ∧ Supplied (stFpr 0) ⟨0, 0x304, 0x304⟩ none 0x200100 digits := by
  refine ⟨⟨by decide, by decide, _, _, rfl, rfl, rfl⟩, ?_⟩
  intro i hi
  refine ⟨0x410000000100 + i, ⟨false, ?_⟩, ?_, ?_⟩ <;>
    (simp only [digits, List.length_cons, List.length_nil] at hi; interval_cases i <;> first | rfl | decide +kernel)

/-! ### Network ports and time -/

/-- Port group 0 of the partition in mode 0b01, its port up or down, lane 2 failed or not. -/
def stNet (up : BitVec 4) (failed : BitVec 4) (q : Port) : State :=
  { st [] [] with
    groups := [(0, { mode := 1, up := up, failed := failed, llr := true, llron := up, pfcEn := 8, pfcLlr := 8,
                     lock := if up = 0 then 0 else 15, training := if up = 0 then 1 else 0, ports := [(0, q)] })] }
/-- R319's example: with lane 2 failed the port comes up on lanes 0 and 1. -/
theorem test_link_up : after (fun t => ((t.group 0).up, mget 0 (t.group 0).width 0, (t.group 0).lock)) (.linkUp 0 ⟨2, true⟩) (stNet 0 4 {})
    = some (1, 2, 3) := by decide
theorem test_lane_fault : after (fun t => ((t.group 0).up, (t.part 0).handling.map (fun h => h.det.unit))) (.laneFault 2) (stNet 1 0 {})
    = some (0, [2]) := by decide
/-- A frame of PTP's own EtherType carrying a Sync. -/
def goodFrame (n : Nat) : Frame := { len := n, body := .ptp { kind := .sync, seq := 4 }, etype := 0x88F7 }
theorem test_frame_short : after (fun t => (t.netPort 0).dropLen) (.frameReceived 0 (goodFrame 63) false) (stNet 1 0 {}) = some 1 := by decide
theorem test_frame_fcs : after (fun t => ((t.netPort 0).dropFcs, (t.netPort 0).retrying)) (.frameReceived 0 { goodFrame 64 with fcs := false } false)
    (stNet 1 0 { rxNum := 7 }) = some (1, some 7) := by decide
/-- R322: the Sync's arrival is held with its port. -/
theorem test_frame_ptp : after (fun t => t.gt.rx.map (fun e => (e.1, e.2.1.seq))) (.frameReceived 0 (goodFrame 64) false) (stNet 1 0 {}) = some [(0, 4)] := by decide
theorem test_frame_replay : after (fun t => t.sent) (.replayRequest 0 2) (stNet 1 0 { replay := [(1, ⟨3, 64, .pfc 0 0 0⟩), (2, ⟨3, 64, .pfc 0 1 0⟩)] })
    = some [.pfc 0 1 0] := by decide
theorem test_xon : after (fun t => t.sent) (.xon 0 3 1) (stNet 1 0 { buffer := [⟨3, 9000⟩, ⟨3, 100⟩], xoffSent := 8 }) = some [.pfc 0 3 0] := by decide
theorem witness_NetworkPorts_up : laneSets 1 4 0 = [[0, 1], [0]] ∧ laneSets 1 6 0 = [[0]] ∧ laneSets 2 4 1 = [[3]] ∧ laneSets 3 2 1 = [[]]
    ∧ lanesBest 1 4 0 = 2 ∧ ((stNet 0 4 {}).group 0).training.getLsbD 0 = true ∧ (stNet 0 4 {}).partOfPort 0 = some 0
    ∧ ((stNet 1 0 {}).group 0).lock.getLsbD 2 = true := by decide
theorem witness_NetworkPorts_frames : (stNet 1 0 {}).portUp 0 = true ∧ ((stNet 1 0 { retrying := some 7, rxNum := 7 }).netPort 0).retrying = some 7
    ∧ ((stNet 1 0 {}).group 0).llron.getLsbD 0 = true ∧ ((stNet 1 0 {}).group 0).pfcEn.getLsbD 3 = true := by decide
def stTime (set_ skew : Bool) : State :=
  { stNet 1 0 {} with gt := { set_ := set_, skew := skew, t := 5, frac := 2 ^ 31 }
                      parts := [(0, { part0 with launch := some { sched := 0, src := .qp 0 1 } })] }
theorem test_tick : after (fun t => (t.gt.t, t.gt.frac, (mget {} (t.part 0).acct 1).busy)) .gtimeTick (stTime true false)
    = some (15, 2 ^ 31, 10) := by decide
/-- A device that measured t1 and t2 from a Sync and t3 from its Delay_Req, and holds the Delay_Resp with t4. -/
def stPtp (t4 : Nat) : State :=
  { stTime true false with gt := { set_ := true, t := 100000, t1 := some 0, t2 := some 40000, t3 := some 50000, reqSeq := 9,
                                   rx := [(0, { kind := .delayResp, seq := 9, time := BitVec.ofNat 64 t4 }, 0)] } }
/-- R322: ((40000 − 0) − (t4 − 50000)) / 2 is 20 µs for t4 = 50000, which steps GTIME, and 5 µs for t4 = 80000, which sets INC. -/
theorem test_ptp : after (fun t => (t.gt.t, t.gt.steps, t.gt.skew)) (.ptpMessage 0 0 0x0A00000000 true) (stPtp 50000) = some (80000, 1, true)
    ∧ after (fun t => (t.gt.t, t.gt.inc)) (.ptpMessage 0 0 0x0A00000010 true) (stPtp 80000) = some (100000, 0x0A00000010) := by decide
theorem witness_TimeKept : (stTime true false).boot.st = .ready ∧ (stTime true true).gt.skew = true ∧ MaltsterWrites (stTime true false)
    ∧ ((stPtp 1).gt.rx.filter (fun e => e.1 == 0))[0]? = some (0, { kind := .delayResp, seq := 9, time := 1 }, 0)
    ∧ ∀ p' < 4, p' ≠ 0 → ((stTime true false).part p').bound = false := by
  unfold MaltsterWrites; decide
/-- R323: an offset of 600 ns starts TIME_SKEW, and a second within 250 ns ends it. -/
theorem test_skew : after (fun t => t.gt.skew) (.timeSkew 600) { stTime true false with gt := { offset := 600 } } = some true
    ∧ after (fun t => t.gt.skew) (.timeSkewClear 0) { stTime true true with gt := { skew := true, calm := some 5 }, ao := 1000000005 } = some false := by decide

/-! ### Claruend Transport -/

/-- A packet of TYPE t with NI, PSN and OPID for connection 5 on path 0, from node 0x1A2B to node 0x1A2C, epoch 1, no launch. -/
def pkt (t ni psn opid : Nat) (e0 e1 : Word) (bs : List Byte) : CltPkt :=
  { h0 := BitVec.ofNat 64 (1 + t * 16 + ni * 2 ^ 10 + 2 ^ 16), h1 := BitVec.ofNat 64 (0x1A2B + 0x1A2C * 2 ^ 20 + 5 * 2 ^ 40),
    h2 := BitVec.ofNat 64 (psn + 0x190 * 2 ^ 32 + bs.length * 2 ^ 48), h3 := BitVec.ofNat 64 (opid + 7 * 2 ^ 32), e0 := e0, e1 := e1, payload := bs }
def conn5 : Conn := { node := 0x1A2B, state := .up, inc := 7, recvCum := 1000, opidHigh := 9000, opids := [8999], peerConn := 5,
                      paths := [(0, { port := 0, joined := true })] }
/-- That connection at the receiver, with scratchpad 0 open to the port groups. -/
def stClt (c : Conn) : State :=
  { (st [] []).modCore 0 (fun c => { c with sp := { windows := [(0, { base := 0, last := 0xFFFF, en := true, lo := 0, hi := 0xFFF })] } }) with
    parts := [(0, { part0 with conns := [(5, c)] })]
    groups := [(0, { mode := 1, up := 1, node := 0x1A2C, llron := 0 })]
    mbx := { chans := [(9, { v := true, snd := 0x420, rcv := 0x410 })] } }
def connAfter (i : Instr) (c : Conn) : Option (Nat × List Nat × Nat) :=
  (after (fun t => (t.conn 0 5).map (fun c => (c.recvCum, c.recvSet, c.held.length))) i (stClt c)).join
/-- R328: the words of the worked example's FLAG packet from the sender. -/
theorem test_clt_words : cltWords 3 false false 1 0 0x1A2B 0x1A2C 5 0 1004 0x190 0 0 7 0x4406 0
    = [(pkt 3 0 1004 0 0x4406 0 []).h0, (pkt 3 0 1004 0 0x4406 0 []).h1, (pkt 3 0 1004 0 0x4406 0 []).h2, (pkt 3 0 1004 0 0x4406 0 []).h3, 0x4406, 0] := by
  decide
theorem test_clt_write : after (fun t => t.getBytes 0x410000000100 3) (.write 0 (pkt 1 0 1000 0 0x200100 0 [1, 2, 3]) none) (stClt conn5)
    = some [1, 2, 3] := by decide +kernel
theorem test_clt_accum : after (fun t => leNat (t.getBytes 0x410000000100 16)) (.accum 0 (pkt 2 1 1000 9001 0x200100 0 (leBytes 16 (2 ^ 128 - 1))) none)
    { stClt conn5 with mem := [(0x410000000100, 3)] } = some 2 := by decide +kernel
theorem test_clt_order : connAfter (.flag 0 (pkt 3 0 1004 0 0x4406 0 [])) conn5 = some (1000, [1004], 1)
    ∧ connAfter (.write 0 (pkt 1 0 1000 0 0x200100 0 [1]) none) { conn5 with recvSet := [1001, 1003] } = some (1002, [1003], 0) := by decide +kernel
theorem test_clt_dup : after (fun t => (t.group 0).dup) (.write 0 (pkt 1 0 999 0 0x200100 0 [1]) none) (stClt conn5) = some 1 := by decide
theorem test_clt_far : after (fun t => (t.group 0).badhdr) (.write 0 (pkt 1 0 2024 0 0x200100 0 [1]) none) (stClt conn5) = some 1 := by decide
theorem test_clt_post : after (fun t => (t.mbx.chan 9).notices) (.cltMbpost 0 (pkt 4 1 1000 9001 0xAA00000009 0 [])) (stClt conn5)
    = some [(0xAA, 0)] := by decide
theorem test_clt_hello : (after (fun t => (t.conn 0 5).map (fun c => (c.state, c.inc)))
    (.hello 0 { pkt 0xC 0 0 0 0x0009000500010001 0 [] with h1 := BitVec.ofNat 64 (0x1A2B + 0x1A2C * 2 ^ 20) })
    { stClt { conn5 with state := .down } with boot := { st := .ready, compat := 1, mincompat := 1 } }).join = some (.up, 9) := by decide +kernel

theorem witness_CltReceives : CltAdmitted (stClt conn5) 0 (pkt 1 0 1000 0 0x200100 0 [1]) 0 5 conn5
    ∧ CltReserved (pkt 1 1 1000 9 0x200100 0 []) ∧ ¬CltReserved (pkt 1 0 1000 0 0x200100 0 [1]) ∧ PsnIn conn5 999 ∧ ¬PsnIn conn5 1000
    ∧ ¬PsnIn conn5 2024 ∧ 1024 ≤ above 2024 1000 := by
  refine ⟨?_, ?_, ?_, ?_, ?_, ?_, ?_⟩
  · unfold CltAdmitted; dsimp only; refine ⟨?_, ?_, ?_, ?_, ?_, ?_, ?_, ?_⟩ <;> decide
  · unfold CltReserved; dsimp only; decide
  · unfold CltReserved; dsimp only; decide
  all_goals first | (unfold PsnIn; decide) | decide
theorem witness_CltReceives_fresh : CltFresh (stClt conn5) 0 conn5 (pkt 1 0 1000 0 0x200100 0 [1])
    ∧ CltFresh (stClt conn5) 0 conn5 (pkt 2 1 1000 9001 0x200100 0 (leBytes 16 0)) := by
  unfold CltFresh CltReserved PsnIn
  dsimp only
  refine ⟨⟨?_, ?_, ?_, ?_, ?_, ?_⟩, ⟨?_, ?_, ?_, ?_, ?_, ?_⟩⟩ <;> decide +kernel
theorem witness_CltReceives_place : EngByte (stClt conn5) ⟨0, 0x420, 0⟩ .write 0x200100 0x410000000100
    ∧ (∃ f, masterXlate (stClt conn5) 0 .write 0x900000 = .error f ∧ f.cause < 16)
    ∧ (stClt { conn5 with node := 1 }).windowCheck 1 0x100 4 0x420 = some .nowin := ⟨⟨false, rfl⟩, ⟨_, rfl, by decide⟩, by decide +kernel⟩
theorem witness_CltReceives_old : CltAdmitted (stClt conn5) 0 (pkt 4 1 1000 4000 9 0 []) 0 5 conn5 ∧ 4000 ∉ conn5.opids
    ∧ 4000 + 4096 ≤ conn5.opidHigh ∧ bitsOf (pkt 4 1 1000 4000 9 0 []).h0 16 16 = ((stClt conn5).part 0).epoch := by
  refine ⟨?_, by decide, by decide, by decide⟩
  unfold CltAdmitted; dsimp only; refine ⟨?_, ?_, ?_, ?_, ?_, ?_, ?_, ?_⟩ <;> decide
theorem witness_CltHolds : CltAdmitted (stClt conn5) 0 (pkt 3 0 1000 0 6 0 []) 0 5 conn5 ∧ CltFresh (stClt conn5) 0 conn5 (pkt 3 0 1000 0 6 0 [])
    ∧ CltFresh (stClt conn5) 0 conn5 (pkt 3 0 1004 0 6 0 []) ∧ CltFresh (stClt conn5) 0 conn5 (pkt 4 1 1000 9001 9 0 [])
    ∧ (stClt conn5).partOfCluster (clusterOf 0) = some 0 ∧ ((stClt conn5).mbx.chan 9).snd = 0x420 := by
  unfold CltFresh CltReserved PsnIn CltAdmitted
  dsimp only
  refine ⟨⟨?_, ?_, ?_, ?_, ?_, ?_, ?_, ?_⟩, ⟨?_, ?_, ?_, ?_, ?_, ?_⟩, ⟨?_, ?_, ?_, ?_, ?_, ?_⟩, ⟨?_, ?_, ?_, ?_, ?_, ?_⟩, ?_, ?_⟩ <;> decide +kernel
theorem witness_CltConnections : (stClt conn5).portUp 0 = true ∧ (∀ p ci c, ¬CltAdmitted (stClt conn5) 0 { pkt 8 0 0 0 0 0 [] with h0 := 0x80 } p ci c)
    ∧ CltAdmitted (stClt conn5) 0 (pkt 8 0 1000 0 1 0 []) 0 5 conn5 := by
  refine ⟨by decide, fun p ci c h => absurd h.2.2.1 (by decide), ?_⟩
  unfold CltAdmitted; dsimp only; refine ⟨?_, ?_, ?_, ?_, ?_, ?_, ?_, ?_⟩ <;> decide
def connOut : Conn :=
  { conn5 with unacked := [{ type := 1, stream := 0x190, psn := 3, e0 := 0x200100, sends := 1 }], sendPsn := 4, unackedRx := 1,
               filling := [{ type := 1, stream := 0x191, e0 := 0x200200, payload := [9] }],
               paths := [(0, { port := 0, joined := true, helloSent := true })] }
theorem witness_CltConnections_timers : (stClt connOut).conn 0 5 = some connOut ∧ connOut.unackedRx ≠ 0
    ∧ (connOut.unacked.find? (fun o => o.psn == 3 && decide (0 < o.sends))).isSome = true ∧ (stClt connOut).nextPath connOut = some 0 := by decide
theorem test_clt_ack : (after (fun t => (t.conn 0 5).map (fun c => c.unacked.length)) (.ack 0 (pkt 8 0 2 0 1 0 [])) (stClt connOut)).join = some 0
    ∧ (after (fun t => (t.conn 0 5).map (fun c => c.unacked.length)) (.ack 0 (pkt 8 0 2 0 0 0 [])) (stClt connOut)).join = some 1
    ∧ (after (fun t => (t.conn 0 5).map (fun c => c.unacked.length)) (.ack 0 (pkt 8 0 4 0 0 0 [])) (stClt connOut)).join = some 0 := by decide
theorem test_clt_flush : (after (fun t => (t.conn 0 5).map (fun c => c.unacked.map (·.psn))) (.packetFlushTimeout 0 5 0x191) (stClt connOut)).join
    = some [3, 4] := by decide

/-! ### Host ports, rings and packets -/

/-- Host port 0 with its link up and queue pair 3 as given. -/
def stHost (q : Qp) : State :=
  { st [] [] with hosts := [(0, { link := .up, qps := [(3, q)] })] }
def pair3 : Qp := { sqLogn := 4, cqLogn := 4, en := true, sqt := 1 }
/-- The packet of the specification's worked example, a LAUNCH with tag 0x0123 (R352). -/
def launch123 : List Word := [0x01230130, 0x1004200007A31, 0x2F1D, 0x200000000, 0x3FF0000, 0, 0, 0]
theorem test_doorbell : after (fun t => (((t.host 0).qp 3).sqt, ((t.host 0).qp 3).err)) (.sqDoorbell 0 3 5) (stHost pair3) = some (5, false) := by decide
theorem test_doorbell_error : after (fun t => (((t.host 0).qp 3).err, t.sent)) (.sqDoorbell 0 3 16) (stHost pair3) = some (true, [.msix 0 65]) := by decide
theorem test_fetch : after (fun t => (t.cmds.map (fun c => (c.tag, c.op, c.wait)), ((t.host 0).qp 3).sqHead)) (.commandFetch 0 3 (some launch123)) (stHost pair3)
    = some ([(0x0123, 0x30, true)], 1) := by decide
theorem test_enable_bad : after (fun t => (t.host 0).cfg) (.qpEnable 0 3 0x1D) (stHost {}) = some { err := true, off := 0x10C0 } := by decide
theorem test_in_progress : after (fun t => t.sent) (.inProgress .mgmt 0x0123) { stHost pair3 with cmds := [{ src := .mgmt, tag := 0x0123, part := some 0, words := launch123 }] }
    = some [.mctp [0x02, 0x01, 0x30, 0x23, 0x01, 0, 0, 0, 0, 0, 0, 0, 0, 0, 0, 0, 0, 0, 0, 0, 0, 0, 0, 0, 0, 0, 0, 0, 0, 0, 0, 0, 0]] := by decide
theorem witness_HostRings : PortLive (stHost pair3) 0 ∧ ((stHost pair3).host 0).qp 3 = pair3 ∧ (stHost pair3).partOfHost 0 = some 0 ∧ ParamsIn launch123
    ∧ ¬ParamsIn [0x31, 0x10000] ∧ ParamsIn [0x60] ∧ ParamsIn [0x11] ∧ (∀ ws ∈ [launch123], ws.length = 8) := by
  unfold PortLive ParamsIn; decide +kernel
theorem witness_HostRings_held : 2 ^ 4 ≤ 16 ∧ (16 + 2 ^ 4 - 0) % 2 ^ 4 = 0
    ∧ (stHost { pair3 with used := 16, held := [[0x31, 0, 0, 0]] }).host 0 = { link := .up, qps := [(3, { pair3 with used := 16, held := [[0x31, 0, 0, 0]] })] } := by decide
theorem test_bar2_read : after (fun t => t.sent) (.bar2Read 0 0x50000 1 none) (stHost pair3) = some [.hostRead 0 (.data [0, 0])] := by decide +kernel
theorem test_bar2_page : after (fun t => ((t.host 0).werr, (t.host 0).woff, (t.host 0).wreason)) (.bar2Write 0 0x10 [1] none) (stHost pair3)
    = some (true, 0x10, 1) := by decide
theorem test_mbpoll : after (fun t => ((t.host 0).mberr, t.sent)) (.hostMbpoll 0 2) (stHost pair3) = some (true, [.hostRead 0 (.data (leBytes 8 0))]) := by decide
theorem test_link_down : after (fun t => (t.host 0).link) (.hostPortLinkDown 0) (stHost pair3) = some .training := by decide
/-- Host port 0 with a request that waits. -/
def stHeld : State := { st [] [] with hosts := [(0, { link := .up, hold := [.read 0x50000 4] })] }
theorem test_bar2_waits : after (fun t => (t.host 0).hold) (.bar2Read 0 0x50000 1 none) stHeld = some [.read 0x50000 4, .read 0x50000 2] := by decide
theorem witness_HostWindows_waits : PortLive stHeld 0 ∧ (stHeld.host 0).hold ≠ [] ∧ (stHost pair3).migrating 0 = false
    ∧ ((stHost pair3).host 0).hold = [] ∧ { stHost pair3 with hbms := [(0, { migr := true })] }.migrating 0 = true := by
  unfold PortLive; decide
theorem witness_HostWindows_bytes : LocalBytes (stHost pair3) 0 .write 0x50000 [0x20000, 0x20001] ∧ (stHost pair3).windowsRefuse [0x20000, 0x20001] (hostId 0) = none
    ∧ LocalBytes (stHost pair3) 0 .write 0x200000 [0x410000000000] ∧ (stHost pair3).windowsRefuse [0x410000000000] (hostId 0) ≠ none := by
  refine ⟨⟨_, rfl, ?_⟩, ?_, ⟨_, rfl, ?_⟩, ?_⟩ <;> decide
/-- Mailbox channel 1 from host port 0 to core 0 and channel 2 back, one notice in it. -/
def stHostMb : State :=
  { stHost pair3 with mbx := { chans := [(1, { snd := hostId 0, rcv := 0, v := true }), (2, { snd := 0, rcv := hostId 0, v := true, notices := [(7, 3)] })] } }
theorem test_mb : after (fun t => t.sent) (.hostMbpoll 0 2) stHostMb = some [.hostRead 0 (.data (leBytes 8 (7 + 3 * 2 ^ 44)))]
    ∧ after (fun t => ((t.mbx.chan 1).notices, (t.host 0).mbstatus)) (.hostMbpost 0 1 9) stHostMb = some ([(9, 0)], 0) := by decide
theorem witness_HostWindows_mb : (stHostMb.mbx.chan 1).v = true ∧ (stHostMb.mbx.chan 1).snd = hostId 0 ∧ stHostMb.partOfHost 0 = some 0 ∧ masterOf 0 = some (.core 0)
    ∧ stHostMb.partOfCore 0 = some 0 ∧ (stHostMb.cluster (clusterOf 0)).absent = false := by decide

/-! ### Commands that report -/

/-- A command of the management path about partition 0, accepted. -/
def mgmtCmd (ws : List Word) : Cmd := { src := .mgmt, tag := 7, part := some 0, words := ws }
def stCmd (ws : List Word) : State := { st [] [] with cmds := [mgmtCmd ws], groups := [(0, { node := 3 })] }
/-- A reply of the management path, as its four words. -/
def answer (op status c1 : Nat) (c2 c3 : Word) : Sent :=
  .mctp (0x02 :: (leBytes 8 (status + op * 2 ^ 8 + 7 * 2 ^ 16) ++ leBytes 8 c1 ++ leBytes 8 c2.toNat ++ leBytes 8 c3.toNat))
theorem startable (s : State) (c : Cmd) (h : s.cmds = [c]) (hs : c.started = false) (hd : c.decided = false) :
    Startable s c c.src c.tag c.op :=
  ⟨rfl, rfl, rfl, hs, hd, [], [], h, by simp, by simp⟩
theorem test_identity : after (fun t => (t.sent, t.cmds)) (.queryIdentity .mgmt 7) (stCmd [0x1])
    = some ([answer 1 0 0 0x413836372D535844 0x300A0], []) := by decide
theorem test_query_partition : after (fun t => t.sent) (.queryPartition .mgmt 7) (stCmd [0x1, 1])
    = some [answer 1 0 0 (1 + 64 * 2 ^ 16 + 64 * 2 ^ 26) 0] := by decide
theorem test_query_tag : after (fun t => t.sent) (.queryTag .mgmt 7) (stCmd [0x1, 0x90002]) = some [answer 1 0 0 0 0] := by decide
theorem test_query_mapouts : after (fun t => t.sent) (.queryMapouts .mgmt 7) (stCmd [0x1, 3]) = some [answer 1 0 0 0 0] := by decide
theorem witness_QueriesAnswer : Startable (stCmd [0x1, 1]) (mgmtCmd [0x1, 1]) .mgmt 7 0x01 := startable _ _ rfl rfl rfl
theorem witness_QueriesAnswer_log : Startable (stCmd [0x73, 0, 0x50000, 0]) (mgmtCmd [0x73, 0, 0x50000, 0]) .mgmt 7 0x73
    ∧ LocalBytes (stCmd [0x73, 0, 0x50000, 0]) 0 .write 0x50000 [] :=
  ⟨startable _ _ rfl rfl rfl, _, rfl, rfl, by simp⟩
theorem test_errlog_none : after (fun t => t.sent) (.errlogRead .mgmt 7) (stCmd [0x73, 0, 0x50000, 4]) = some [answer 0x73 0 0 0 0] := by decide
theorem test_telemetry_room : after (fun t => t.sent) (.telemetryPower .mgmt 7) (stCmd [0x70, 2, 0x50000, 20]) = some [answer 0x70 0 0 16 0] := by
  decide +kernel
theorem test_telemetry_fails : after (fun t => t.sent) (.telemetryClocks .mgmt 7) (stCmd [0x70, 3, 0x10, 20]) = some [answer 0x70 0x20 0 0 0] := by
  decide +kernel
theorem witness_TelemetryReports : Startable (stCmd [0x70, 2, 0x50000, 1]) (mgmtCmd [0x70, 2, 0x50000, 1]) .mgmt 7 0x70
    ∧ LocalBytes (stCmd [0x70, 2, 0x50000, 1]) 0 .write 0x50000 [] ∧ (telemetryHeader 2 (stCmd [])).length = 16 :=
  ⟨startable _ _ rfl rfl rfl, ⟨_, rfl, rfl, by simp⟩, rfl⟩

/-! ### Staged configuration -/

theorem test_qpset : after (fun t => ((t.part 0).staged.map (fun x => (x.item, x.index)), t.sent)) (.qpset .mgmt 7) (stCmd [0x10, 0x30001, 100])
    = some ([(1, 3)], [answer 0x10 0 0 0 0]) := by decide
theorem test_qpset_over : after (fun t => t.sent) (.qpset .mgmt 7) (stCmd [0x10, 0x30001, 1500]) = some [answer 0x10 0x13 0 0 0] := by decide +kernel
theorem test_pgcfg_outside : after (fun t => t.sent) (.pgcfg .mgmt 7) (stCmd [0x10, 0x20005]) = some [answer 0x10 0x15 0 0 0] := by decide
/-- A command of the management path about the device. -/
def stDev (ws : List Word) : State := { stCmd ws with cmds := [{ mgmtCmd ws with part := none }] }
theorem test_nodeid : after (fun t => (t.staged, t.sent)) (.nodeid .mgmt 7) (stDev [0x10, 6, 0x123])
    = some ([{ item := 6, index := 0, value := [0x123] }], [answer 0x10 0 0 0 0]) := by decide
theorem witness_SettingsStaged : Startable (stCmd [0x10, 0x30001, 100]) (mgmtCmd [0x10, 0x30001, 100]) .mgmt 7 0x10
    ∧ Startable (stDev [0x10, 6, 0x123]) { mgmtCmd [0x10, 6, 0x123] with part := none } .mgmt 7 0x10 :=
  ⟨startable _ _ rfl rfl rfl, startable _ _ rfl rfl rfl⟩
theorem witness_SettingsStaged_rates : Overcommit (stCmd []) 0 [(3, 1500)] ∧ ¬Overcommit (stCmd []) 0 [(3, 1492)] ∧ ((stCmd []).part 0).valid = true := by
  refine ⟨⟨⟨(3, 1500), by simp, by decide⟩, by decide +kernel, by decide +kernel⟩, ?_, by decide⟩
  rintro ⟨-, -, h⟩
  revert h
  decide +kernel
theorem test_commit_epoch : after (fun t => t.sent) (.configCommit .mgmt 7) (stCmd [0x11, 1]) = some [answer 0x11 0x12 0 0 0] := by decide
theorem test_commit_waits : after (fun t => ((t.part 0).commits, t.cmds.map (fun c => c.started))) (.configCommit .mgmt 7) (stCmd [0x11, 2])
    = some ([(.mgmt, 7, 2)], [true]) := by decide
/-- The partition idle with a commit that waits and the copy given. -/
def stCommit (xs : List Staged) : State :=
  { stCmd [0x11, 2] with parts := [(0, { part0 with st := .idle, commits := [(.mgmt, 7, 2)], staged := xs })] }
theorem test_apply : after (fun t => ((t.part 0).epoch, mget 0 (t.part 0).resv 3, (t.part 0).staged, t.sent)) (.configApply (some 0))
    (stCommit [{ item := 1, index := 3, value := [100] }]) = some (2, 100, [], [answer 0x11 0 0 2 0]) := by decide +kernel
theorem test_quiesce : after (fun t => t.sent) (.configQuiesceTimeout 0) (stCommit [{ item := 3, index := 3, value := [2 ^ 20] }])
    = some [answer 0x11 0x14 0 0 0] := by decide
theorem witness_CommitsApply : (stCommit []).cmdOf .mgmt 7 = some (mgmtCmd [0x11, 2]) ∧ ((stCommit []).part 0).st = .idle
    ∧ ((stCommit []).part 0).launch = none ∧ ((stCommit []).part 0).conns = [] ∧ ((stCommit []).part 0).cask.seqs = [] := by decide
def stDevCommit (x : Staged) : State := { stDev [0x11, 0] with devCommits := [(.mgmt, 7)], staged := [x] }
theorem test_apply_cap : after (fun t => (t.clk.steps, t.sent)) (.configApply none) (stDevCommit { item := 0x100, index := 0, value := [1000] })
    = some (40, [answer 0x11 0 0 0 0]) := by decide
theorem witness_CommitsApply_device : (stDevCommit { item := 6, index := 0, value := [1] }).cmdOf .mgmt 7 = some { mgmtCmd [0x11, 0] with part := none } := by decide

/-! ### Partitions made, tested and destroyed -/

/-- PART_CREATE of partition 1: cluster group 1, stack 1, port group 1, host port 1. -/
def create1 : Word := BitVec.ofNat 64 (2 ^ 1 + 2 ^ 13 + 2 ^ 25 + 2 ^ 40 + 2 ^ 46)
theorem test_create : after (fun t => ((t.part 1).st, (t.hbm 1).zbusy, t.sent)) (.partCreate .mgmt 7) (stDev [0x60, create1]) = some (.creating, true, []) := by
  decide +kernel
theorem test_create_busy : after (fun t => t.sent) (.partCreate .mgmt 7) (stDev [0x60, create1 ||| 1]) = some [answer 0x60 0x14 0 0 0] := by decide +kernel
theorem witness_PartitionsChange_create : Startable (stDev [0x60, create1]) { mgmtCmd [0x60, create1] with part := none } .mgmt 7 0x60 := startable _ _ rfl rfl rfl
def stMake (x : PartSt) (op : Word) : State :=
  { stDev [op, create1] with parts := [(1, { defn := create1.toNat % 2 ^ 46, valid := true, st := x })]
                             cmds := [{ mgmtCmd [op, if op = 0x61 then 1 else create1] with part := none, started := true }] }
theorem test_created : after (fun t => ((t.part 1).st, t.sent)) (.zeroingComplete (some 1)) (stMake .creating 0x60) = some (.idle, [answer 0x60 0 0 0 0]) := by
  decide +kernel
theorem test_destroyed : after (fun t => (t.part 1 == {}, t.sent)) (.zeroingComplete (some 1)) (stMake .destroying 0x61) = some (true, [answer 0x61 0 0 0 0]) := by
  decide +kernel
theorem test_destroy_none : after (fun t => t.sent) (.partDestroy .mgmt 7) (stDev [0x61, 2]) = some [answer 0x61 0x15 0 0 0] := by decide
theorem test_destroy : after (fun t => ((t.part 0).st, t.sent)) (.partDestroy .mgmt 7) (stDev [0x61, 0]) = some (.destroying, []) := by decide +kernel
theorem witness_PartitionsChange_destroy : Startable (stDev [0x61, 0]) { mgmtCmd [0x61, 0] with part := none } .mgmt 7 0x61
    ∧ ((stDev [0x61, 0]).part 0).launch = none ∧ ((stDev [0x61, 0]).part 0).st = .running := ⟨startable _ _ rfl rfl rfl, rfl, rfl⟩
def stLate : State :=
  { stDev [0x61, 0] with parts := [(0, { part0 with launch := some { sched := 5 }, destroy := some (.mgmt, 7) })] }
theorem test_destroy_late : after (fun t => ((t.part 0).destroy, t.sent)) (.partDestroyTimeout 0) stLate = some (none, [answer 0x61 0x14 0 0 0]) := by decide
theorem test_selftest : after (fun t => (t.part 0).handling.map (fun h => (h.det.ukind, h.det.unit))) (.selftest .mgmt 7) (stCmd [0x71, 0x10001])
    = some [(1, 1)] := by decide +kernel
theorem test_selftest_outside : after (fun t => t.sent) (.selftest .mgmt 7) (stCmd [0x71, 0x100003]) = some [answer 0x71 0x15 0 0 0] := by decide +kernel
theorem test_mapout_lane : after (fun t => ((t.group 0).failed, t.sent)) (.mapout .mgmt 7) (stCmd [0x72, 0x20002]) = some (4, [answer 0x72 0 0 0 0]) := by decide +kernel
theorem witness_PartitionsChange_units : Startable (stCmd [0x72, 0x20002]) (mgmtCmd [0x72, 0x20002]) .mgmt 7 0x72 ∧ unitNamed (mgmtCmd [0x72, 0x20002]) = (2, 2)
    ∧ ownerOfUnit (stCmd []) 2 2 = some 0 ∧ ownerOfUnit (stCmd []) 1 1 = some 0 ∧ ownerOfUnit (stCmd []) 4 5 = some 0 ∧ ownerOfUnit (stCmd []) 3 16 = none :=
  ⟨startable _ _ rfl rfl rfl, by decide +kernel⟩

/-! ### Launches -/

/-- A schedule of one task for core 0, numbered 5. -/
def image5 : SchedImage :=
  { tasks := [{ entry := 0x40000, gtb := 1, ds := [0, 0, 0, 0xA00000800], rs := [0, 0, 0, 0xC00000A00] }], map := [(0, [0])] }
def sched5 : Sched := { id := 5, image := image5, bytes := 0 }
/-- The partition idle with that schedule loaded, and commands. -/
def stSched (q : Part) (cs : List Cmd) : State := { stCmd [] with parts := [(0, { q with scheds := [sched5] })], cmds := cs }
def idle0 : Part := { part0 with st := .idle }
/-- LAUNCH of schedule 5 with the epoch given checked, seed 9, no report room to speak of. -/
def launchCmd (epoch : Nat) : Cmd := mgmtCmd [0x30, BitVec.ofNat 64 (5 + epoch * 2 ^ 32 + 2 ^ 48), 9, 0x50000, 0, 0, 0, 0]
theorem test_launch : after (fun t => t.cmds.map (·.started)) (.launch .mgmt 7) (stSched idle0 [launchCmd 1]) = some [true] := by decide +kernel
theorem test_launch_unknown : after (fun t => t.sent) (.launch .mgmt 7) (stCmd [0x30, 6]) = some [answer 0x30 0x15 0 0 0] := by decide +kernel
def taken (c : Cmd) : Cmd := { c with started := true }
theorem test_launch_epoch : after (fun t => t.sent) (.launchStart 0) (stSched idle0 [taken (launchCmd 2)]) = some [answer 0x30 0x12 0 0 0] := by decide +kernel
theorem test_launch_start : after (fun t => ((t.part 0).st, (t.part 0).launch.map (fun l => (l.sched, l.seed, l.epoch)))) (.launchStart 0)
    (stSched idle0 [taken (launchCmd 1)]) = some (.running, some (5, 9, 1)) := by decide +kernel
theorem witness_LaunchesRun : Startable (stSched idle0 [launchCmd 1]) (launchCmd 1) .mgmt 7 0x30 ∧ NextUp (stSched idle0 [taken (launchCmd 1)]) 0 (taken (launchCmd 1))
    ∧ outClusters ((stSched idle0 []).part 0) = [] ∧ outClusters { part0 with absent := 1 } = [0] :=
  ⟨startable _ _ rfl rfl rfl, by unfold NextUp; decide +kernel, by decide +kernel, by decide +kernel⟩
/-- The launch of schedule 5 in progress, its task as given. -/
def launch5 (x : TaskSt) : Launch := { sched := 5, tag := 7, seed := 9, epoch := 1, tasks := [(0, { st := x })] }
def stTask (x : TaskSt) (r : RunSt) : State :=
  (stSched { part0 with launch := some (launch5 x) } [taken (launchCmd 1)]).modCore 0 (fun c => { c with run := r })
theorem test_task : after (fun t => ((t.core 0).run, (t.core 0).banks.r3.pc, (t.core 0).task, (t.core 0).seed == generator 9 0xFFFF 0 0)) (.taskStart 0)
    (stTask .idle .idle) = some (.running, 0x40000, 0, true) := by decide +kernel
theorem test_commit : after (fun t => ((t.part 0).commit, (t.part 0).launch.map (·.committed), t.cmds.length)) (.launchCommit 0) (stTask .ended .ended)
    = some (some (5, 7, 1), some true, 1) := by decide +kernel
/-- That launch with its commit record written. -/
def stDone : State := stSched { part0 with launch := some { launch5 .ended with committed := true } } [taken (launchCmd 1)]
theorem test_report : after (fun t => ((t.part 0).st, t.cmds, t.getByte 0x20000)) (.launchCommit 0) stDone = some (.idle, [], 0) := by decide +kernel
theorem witness_LaunchesRun_report : (stDone.part 0).sched 5 = some sched5 ∧ stDone.cmdOf .mgmt 7 = some (taken (launchCmd 1))
    ∧ (stDone.part 0).acted = [] ∧ (image5.tasks.length ≤ 1) := by decide +kernel
theorem witness_LaunchesRun_task : ((stTask .idle .idle).core 0).ipend.getLsbD 0 = false ∧ (stTask .idle .idle).partOfCore 0 = some 0
    ∧ (stTask .ended .ended).mayCommit 0 (launch5 .ended) image5 = true
    ∧ (stTask .ended .ended).cmdOf .mgmt 7 = some (taken (launchCmd 1)) := by decide +kernel

/-! ### Schedules loaded and unloaded, commands cancelled -/

/-- SCHED_LOAD of schedule 6 from no bytes, and the image of schedule 5. -/
def loadCmd (id : Word) : Cmd := mgmtCmd [0x20, 0x50000, 0, id, 0]
theorem test_load : after (fun t => ((t.part 0).scheds.map (·.id), t.sent)) (.schedLoad .mgmt 7 image5 none) (stSched idle0 [loadCmd 6])
    = some ([5, 6], [answer 0x20 0 0 0 0]) := by decide +kernel
theorem test_load_busy : after (fun t => t.sent) (.schedLoad .mgmt 7 image5 none) (stSched idle0 [loadCmd 5]) = some [answer 0x20 0x14 0 0 0] := by decide +kernel
theorem test_load_scope : after (fun t => t.sent) (.schedLoad .mgmt 7 { map := [(200, [])] } none) (stSched idle0 [loadCmd 6])
    = some [answer 0x20 0x15 0 0 0] := by decide +kernel
theorem witness_SchedulesAndCancels_load : Startable (stSched idle0 [loadCmd 6]) (loadCmd 6) .mgmt 7 0x20 ∧ imagePlaced (stSched idle0 [loadCmd 6]) 0 image5 = true
    ∧ scopeOk (stSched idle0 [loadCmd 6]) 0 image5 = true ∧ routesOk (stSched idle0 [loadCmd 6]) image5 = true
    ∧ windowsMeet idle0 image5 = false ∧ roomOk idle0 image5 0 = true
    ∧ LocalBytes (stSched idle0 [loadCmd 6]) 0 .read 0x50000 [0x20000] :=
  ⟨startable _ _ rfl rfl rfl, by decide +kernel, by decide +kernel, by decide +kernel, by decide +kernel, by decide +kernel, _, rfl, rfl, by decide⟩
theorem test_unload : after (fun t => ((t.part 0).scheds.map (·.id), t.sent)) (.schedUnload .mgmt 7) (stSched idle0 [mgmtCmd [0x21, 5]])
    = some ([], [answer 0x21 0 0 0 0]) := by decide +kernel
theorem test_unload_unknown : after (fun t => t.sent) (.schedUnload .mgmt 7) (stSched idle0 [mgmtCmd [0x21, 6]]) = some [answer 0x21 0x15 0 0 0] := by decide +kernel
theorem witness_SchedulesAndCancels_unload : Startable (stSched idle0 [mgmtCmd [0x21, 5]]) (mgmtCmd [0x21, 5]) .mgmt 7 0x21
    ∧ (((stSched idle0 []).part 0).scheds.map (·.id)) = [5] := ⟨startable _ _ rfl rfl rfl, rfl⟩
/-- CANCEL of tag 9 beside a command with that tag. -/
def stCancel (b : Cmd) : State := stSched idle0 [{ b with tag := 9 }, { mgmtCmd [0x31, 9] with }]
theorem test_cancel_none : after (fun t => t.sent) (.cancel .mgmt 7) (stSched idle0 [mgmtCmd [0x31, 9]]) = some [answer 0x31 0 0 0 0] := by decide +kernel
theorem test_cancel_other : after (fun t => t.sent) (.cancel .mgmt 7) (stCancel { taken (mgmtCmd [0x71]) with }) = some [answer 0x31 0 0 4 0] := by decide +kernel
theorem witness_SchedulesAndCancels_cancel : Startable (stCancel (taken (mgmtCmd [0x71]))) (mgmtCmd [0x31, 9]) .mgmt 7 0x31
    ∧ ((stCancel (taken (mgmtCmd [0x71]))).part 0).st ≠ .switching :=
  ⟨⟨rfl, rfl, rfl, rfl, rfl, [{ taken (mgmtCmd [0x71]) with tag := 9 }], [], rfl, by decide, by decide⟩, by decide⟩

/-! ### Commands that move data; the cask manager; switches -/

theorem test_dma_overlap : after (fun t => t.sent) (.dmaCopy .mgmt 7) (stSched idle0 [mgmtCmd [0x40, 0x50000, 0x50008, 9]])
    = some [answer 0x40 0x20 0x130F 0 0] := by decide +kernel
def fillCmd : Cmd := mgmtCmd [0x41, 0, 0x50000, 300]
theorem witness_CommandsMove : Startable (stSched idle0 [fillCmd]) fillCmd .mgmt 7 0x41 ∧ NextUp (stSched idle0 [fillCmd]) 0 fillCmd
    ∧ ((stSched idle0 []).part 0).live = [0, 1, 6, 7] := ⟨startable _ _ rfl rfl rfl, by unfold NextUp; decide +kernel, by decide +kernel⟩
/-- The pool of 32 casks, TPG 256 and CPG 2, of the specification's worked sequence (R294), sequences A and B. -/
def pool : Cask :=
  { ncask := 32, tpgM1 := 255, cpgM1 := 1,
    seqs := [{ handle := 0x101, slot := 0, st := .running, len := 768, seed := 0, index := [0], casks := [1, 2, 3, 4, 5, 6] },
             { handle := 0x102, slot := 1, st := .running, len := 512, seed := 0, index := [7], casks := [8, 9, 10, 11] }] }
theorem test_need : casksFor pool 769 = (8, 1) ∧ casksFor pool 513 = (6, 1) ∧ (heldCasks pool).length = 12 := by decide +kernel
theorem test_join : after (fun t => ((t.part 0).cask.joins.map (fun j => (j.handle, j.len)), t.sent)) (.caskJoin .mgmt 7)
    (stSched { idle0 with cask := pool } [mgmtCmd [0x50, 0x300000103, 5]]) = some ([(0x103, 3)], []) := by decide +kernel
theorem test_join_known : State.joinRefusal { stHost pair3 with parts := [(0, { part0 with cask := pool })] } (some 0) [0x70050, 0x102, 5, 0, 0, 0, 0, 0]
    = some 0x14 := by decide +kernel
theorem test_leave : after (fun t => (t.part 0).cask.leaves) (.caskLeave .mgmt 7) (stSched idle0 [mgmtCmd [0x51, 0x102]]) = some [(.mgmt, 7, 0x102)] := by decide +kernel
/-- A step whose boundary has not been made. -/
def stStep (k : Cask) : State :=
  stSched { part0 with launch := some { launch5 .idle with step := true, ready := false }, cask := k } [taken (mgmtCmd [0x52, 5])]
theorem test_boundary : after (fun t => (t.part 0).launch.map (fun l => (l.ready, l.seqs, l.stalled))) (.stepBoundary 0) (stStep {})
    = some (some (true, [], [])) := by decide +kernel
theorem witness_CasksStep : Startable (stSched { idle0 with cask := pool } [mgmtCmd [0x50, 0x103, 5]]) (mgmtCmd [0x50, 0x103, 5]) .mgmt 7 0x50
    ∧ (stStep pool).cmdOf .mgmt 7 = some (taken (mgmtCmd [0x52, 5])) ∧ (pool.seqs.map (·.handle)).Nodup
    ∧ Startable (stSched idle0 [mgmtCmd [0x51, 0x102]]) (mgmtCmd [0x51, 0x102]) .mgmt 7 0x51 :=
  ⟨startable _ _ rfl rfl rfl, by decide +kernel, by decide +kernel, startable _ _ rfl rfl rfl⟩
/-- The launch in progress with pre-emption requested and every core parked. -/
def stPark (route : Bool) : State :=
  (stSched { part0 with launch := some (launch5 .running), preq := true } []).modCore 0 (fun c =>
    { c with run := .parked, rt := { c.rt with run := route } })
theorem test_switch_out : after (fun t => ((t.part 0).st, (t.part 0).suspended.length, (t.part 0).ymiss)) (.switchStart 0) (stPark false)
    = some (.switching, 1, 0) := by decide +kernel
theorem test_switch_miss : after (fun t => ((t.part 0).st, (t.part 0).ymiss, (t.core 0).run)) (.switchStart 0) (stPark true)
    = some (.running, 1, .running) := by decide +kernel
theorem witness_SwitchesMove : (stPark false).allParked 0 = true ∧ (stPark false).mayLeave 0 = true ∧ (stPark true).mayLeave 0 = false
    ∧ ∀ e ∈ (stPark false).cores, e.2.posted = [] := by decide +kernel
def saved5 : Saved := { launch := launch5 .running, cores := [(0, core0 3 [] [])], flags := [], bytes := [], logged := [], cellar := [] }
def stSwitch : State := stSched { part0 with st := .switching, incoming := some (.mgmt, 7), suspended := [saved5] } []
theorem test_switch_in : after (fun t => ((t.part 0).st, (t.part 0).switches, (t.core 0).ring, (t.core 0).run)) (.switchComplete 0) stSwitch
    = some (.running, 1, 3, .running) := by decide +kernel
theorem witness_SwitchesMove_in : (stSwitch.part 0).sched 5 = some sched5 ∧ (stSwitch.part 0).suspended = [saved5] ∧ (stSwitch.part 0).launch = none := by decide +kernel

/-! ### Hardware errors -/

/-- An uncorrectable scratchpad error of core 1 (R389). -/
def det1 : Detection := { source := 0x01, ukind := 1, unit := 1, master := 0, addr := 0x410000100000 }
theorem test_detect : after (fun t => ((t.part 0).handling.map (fun h => (h.det.unit, h.record)), t.log.next, (t.part 0).abort.map (·.hw)))
    (.hwErrorDetected (some det1)) (stTask .running .running) = some ([(1, 0)], 1, some true) := by decide +kernel
theorem test_detect_fatal : after (fun t => (t.boot.fault, t.boot.ready, t.log.fatal, (t.part 0).launch.isSome)) (.hwErrorDetected
    (some { source := 0x10, ukind := 5, unit := 0, master := 0x410, addr := 0 })) (stTask .running .running) = some (true, false, true, false) := by decide +kernel
theorem test_cwdog : after (fun t => (t.part 0).handling.map (fun h => h.det.source)) (.cwdog 0)
    (stSched { part0 with launch := some (launch5 .running), abort := some { cause := 1, sub := 0, hw := false } } []) = some [6] := by decide +kernel
theorem witness_ErrorsHandled : kindOf det1.source = det1.ukind ∧ ownerOfUnit (stTask .running .running) 1 1 = some 0 ∧ ¬UnitOut (stTask .running .running) 1 1
    ∧ kindOf 0x12 = 5 ∧ ((stTask .running .running).part 0).handling = [] := by decide +kernel
/-- A launch that a hardware error stopped, one line of its cellar at 0x20000. -/
def stRoll (hw rolled : Bool) (hs : List Handling) : State :=
  { stSched { part0 with launch := some (launch5 .running), abort := some { cause := 0x0B, sub := 0, hw := hw }, rolledBack := rolled, handling := hs,
                         cellar := if rolled then [] else [(0x800, List.replicate 64 5)] } [taken (launchCmd 1)] with mem := [(0x20001, 9)] }
def handling1 : Handling := { det := det1, record := 0 }
theorem test_rollback : after (fun t => ((t.part 0).rolledBack, t.getByte 0x20001, t.getByte 0x2003F)) (.rollbackComplete 0 []) (stRoll true false [handling1])
    = some (true, 5, 5) := by decide +kernel
theorem test_repitch : after (fun t => ((t.part 0).launch.map (·.rollbacks), (t.part 0).abort.isSome)) (.repitch 0) (stRoll true true []) = some (some 1, false) := by
  decide +kernel
theorem witness_ErrorsHandled_roll : ((stRoll true false [handling1]).part 0).cellar.map (·.1) = [0x800] ∧ ((stRoll true true []).part 0).sched 5 = some sched5
    ∧ ((stRoll false false []).part 0).abort.map (·.hw) = some false ∧ (stRoll false false []).cmdOf .mgmt 7 = some (taken (launchCmd 1)) := by decide +kernel
/-- A lane's kiln test at the head of the queue, and a cluster that waits to be mapped out. -/
def stKiln (d : Detection) (action : Nat) (out : BitVec 64) : State :=
  { stSched { idle0 with handling := [{ det := d, record := 0, action := action }] } [] with
      log := { next := 1, records := [(0, List.replicate 8 0)] }, hbms := [(0, { mapout := out, migr := true })] }
def lane2 : Detection := { source := 0x0E, ukind := 2, unit := 2, master := 0, addr := 0 }
theorem test_kiln_lane : after (fun t => ((t.group 0).failed, (t.part 0).handling, t.log.degr)) (.kilnTestResult (some 0) .lasting 40 []) (stKiln lane2 0 0)
    = some (4, [], 1) := by decide +kernel
theorem test_kiln_engine : after (fun t => ((t.part 0).handling, t.log.recov, t.log.history.length)) (.kilnTestResult (some 0) .transient 40 [])
    (stKiln { source := 7, ukind := 0, unit := 3, master := 0, addr := 0 } 0 0) = some ([], 1, 1) := by decide +kernel
theorem test_kiln_budget : after (fun t => (t.part 0).handling.map (fun h => (h.action, h.result, h.ktime))) (.kilnBudgetExpiry (some 0))
    (stKiln { source := 7, ukind := 0, unit := 3, master := 0, addr := 0 } 0 0) = some [(2, 3, 20000)] := by decide +kernel
theorem test_mapout_cluster : after (fun t => ((t.cluster 1).absent, (t.part 0).absent, (t.part 0).handling)) (.clusterMapout 1 [])
    (stKiln { source := 8, ukind := 3, unit := 1, master := 0, addr := 0 } 2 0) = some (true, 2, []) := by decide +kernel
def pc5 : Detection := { source := 0x0A, ukind := 4, unit := 5, master := 0, addr := 0 }
/-- R310: of rows moved to two survivors in rotation, row 3 lies in the second one's second spare row. -/
theorem test_mapout_place : ({ lost := 0, held := 4, order := [(1, 0), (2, 7)] } : PcMove).place 100 3 = some (2, 108) := by decide
/-- Where each survivor has room for its share, everything fits. -/
theorem unfitted_nil (s : State) (q : Part) (m : PcMove) (ho : m.order ≠ [])
    (h : ∀ e ∈ m.order, q.ownRows + e.2 + m.held / m.order.length < pcRows) : s.unfitted q m = [] := by
  unfold State.unfitted
  rw [List.filterMap_eq_nil_iff]
  intro k hk
  have hl : k % m.order.length < m.order.length := Nat.mod_lt _ (List.length_pos_iff.mpr ho)
  have hd : k / m.order.length ≤ m.held / m.order.length := Nat.div_le_div_right (List.mem_range.mp hk).le
  have hr : q.ownRows + m.order[k % m.order.length].2 + k / m.order.length < pcRows :=
    lt_of_le_of_lt (Nat.add_le_add_left hd _) (h _ (List.getElem_mem hl))
  simp [PcMove.place, List.getElem?_eq_getElem hl, hr]
/-- A partition with one stack and a spare of 2 / 32, whose pseudo-channel 5 is to be mapped out. -/
def stSpare : State :=
  { stKiln pc5 4 (2 ^ 5) with parts := [(0, { idle0 with defn := 2 ^ 0 + 2 ^ 12 + 2 ^ 24 + 2 * 2 ^ 43, handling := [{ det := pc5, record := 0, action := 4 }] })] }
theorem witness_KilnTestsEnd_fits : stSpare.unfitted (stSpare.part 0) (stSpare.pcMove (stSpare.part 0) 5) = [] := by
  apply unfitted_nil <;> decide +kernel
theorem witness_KilnTestsEnd_pc : stSpare.partOfStack 0 = some 0 ∧ (stSpare.part 0).handling = [{ det := pc5, record := 0, action := 4 }]
    ∧ (stSpare.part 0).launch = none ∧ (stSpare.addrOf 5 0).bind stSpare.homeOf = some (5, 0) ∧ stSpare.log.records = [(0, List.replicate 8 0)] := by decide +kernel
theorem witness_KilnTestsEnd : (stKiln lane2 0 0).handlingOf (some 0) = [{ det := lane2, record := 0 }] ∧ kindOf lane2.source = 2
    ∧ (stKiln lane2 0 0).log.records = [(0, List.replicate 8 0)] ∧ ((stKiln lane2 0 0).part 0).launch = none
    ∧ (stKiln pc5 4 0).partOfStack 0 = some 0 ∧ (stKiln pc5 4 0).partOfCluster 1 = some 0 := by decide +kernel

/-! ### Clocks, power and thermal limits -/

/-- The device ready at a level, every divider at ÷1 but cluster 0's as given. -/
def stClk (level steps : Nat) (d : Div) : State :=
  { st [] [] with clk := { lock := true, level := level, steps := steps, divs := [(0, d)] } }
theorem test_droop : after (fun t => (t.clk.div 0).droop) (.droop 0) (stClk 0 80 { droop := 7 }) = some 8 := by decide
/-- Nine rails, rail 0 at the power given in 0.1 W. -/
def rails (p : BitVec 16) : List (BitVec 16 × BitVec 16 × BitVec 16) := (750, 100, p) :: List.replicate 8 (750, 0, 0)
/-- The manual's example of R422: 2,450 W under a cap of 2,000 W gives L = 16, and then 2,190 W gives L = 32. -/
theorem test_cap : after (fun t => (t.clk.level, (t.clk.div 15).cap, (t.clk.div 16).cap, (t.clk.div 15).eff, t.boot.alert)) (.capLoopSample (rails 24500))
    (stClk 0 80 {}) = some (16, 1, 0, 1, true) := by decide +kernel
theorem test_cap_more : after (fun t => (t.clk.level, (t.clk.div 31).cap, (t.clk.div 32).cap)) (.capLoopSample (rails 21900)) (stClk 16 80 {})
    = some (32, 1, 0) := by decide +kernel
theorem test_cap_tenth : after (fun t => t.clk.level) (.capLoopSample (rails 19300)) { stClk 32 80 {} with clk := { steps := 80, level := 32, below := 9 } }
    = some 31 := by decide +kernel
/-- Diode 1 of cluster 0 at a temperature in °C, every other at 50. -/
def diodes (deg : Nat) : List (BitVec 16) := 800 :: BitVec.ofNat 16 (16 * deg) :: List.replicate 190 800
theorem test_hot : after (fun t => ((t.clk.div 0).therm, (t.clk.div 0).eff, t.boot.alert, t.boot.trip)) (.thermalSample (diodes 105) (List.replicate 12 0)) (stClk 0 80 {})
    = some (1, 1, true, false) := by decide +kernel
theorem test_trip : after (fun t => (t.boot.trip, t.boot.fault, t.log.fatalc)) (.thermalSample (diodes 115) (List.replicate 12 0)) (stClk 0 80 {})
    = some (true, true, 1) := by decide +kernel
theorem test_therm_step : after (fun t => (t.clk.div 0).therm) (.thermStepTimer 0) (stClk 0 80 { therm := 3, hot := true }) = some 3 := by decide +kernel
theorem test_therm_cool : after (fun t => ((t.clk.div 0).therm, t.clk.raising)) (.thermStepTimer 0)
    { stClk 0 80 {} with clk := { rail := 1, divs := (List.range 48).map (fun c => (c, { therm := 1, eff := 1, cool := true })) } }
    = some (0, true) := by decide +kernel
theorem test_pwrCap : after (fun t => (t.clk.steps, t.clk.cfg)) (.pwrCap maltsterWriter 35) (stClk 0 80 {}) = some (80, { err := true, off := 0x1000 }) := by
  decide
theorem witness_ClocksThrottle : (stClk 0 80 {}).clk.lock = true ∧ (stClk 0 80 {}).boot.pwrgood = true ∧ ((stClk 0 80 {}).clk.div 0).stretching = false
    ∧ (rails 24500).length = 9 ∧ (diodes 105).length = 192 ∧ (stClk 0 80 {}).boot.trip = false ∧ 0 ∈ (stClk 0 80 {}).liveClusters := by decide +kernel
theorem witness_ClocksThrottle_rail : ({ stClk 0 80 {} with clk := { rail := 1, raising := true } } : State).clk.raising = true
    ∧ ({ stClk 0 80 {} with clk := { lowering := true } } : State).clk.lowering = true ∧ MaltsterWrites (stClk 0 80 {}) := by unfold MaltsterWrites; decide


/-! ### Reset, boot and test access -/

/-- The device between power-up and READY. -/
def stBoot (b : Boot) : State := { State.reset with boot := { b with pwrgood := true }, clk := { lock := decide (b.st ≠ .straps) } }
theorem test_fall : after (fun t => (t.boot.st, t.boot.svnf, t.cores.length, (t.host 1).perst)) .pwrgoodFall
    { st [] [] with hosts := [(1, { perst := true, link := .up })], boot := { st := .ready, svnf := 3 } } = some (.cold, 3, 0, true) := by decide
theorem test_rise : after (fun t => (t.boot.st, t.boot.smbaddr, (t.host 0).link)) (.pwrgoodRise true 0 3) State.reset = some (.straps, 3, .training) := by decide
theorem test_rise_reserved : after (fun t => (t.boot.st, t.boot.fail, t.boot.fault)) (.pwrgoodRise true 3 0) State.reset = some (.stopped, 7, true) := by decide
theorem test_hold : after (fun t => (t.boot.st, t.boot.held)) (.coldResetHoldExpiry 2 0) (stBoot { st := .cold, held := true }) = some (.straps, false) := by decide
theorem test_warm : after (fun t => (t.boot.st, t.boot.rcause, t.parts.length, t.boot.ready)) (.bootCtlWarm maltsterWriter) (st [] [])
    = some (.straps, 2, 0, false) := by decide
theorem test_warm_tripped : after (fun t => t.boot.st) .warmRstN { st [] [] with boot := { st := .tripped, trip := true } } = some .tripped := by decide
theorem test_pll : after (fun t => t.boot.st) .pllLock (stBoot { st := .straps, bootsel := 2 }) = some .test := by decide
theorem test_pll_timeout : after (fun t => t.boot.fail) .pllLockTimeout (stBoot { st := .straps }) = some 8 := by decide
/-- An image slot with the manual's magic, version 1, key 0, an SVN and a body of 4 KiB. -/
def slotOf (svn : Byte) (key : Bool) : SlotImage :=
  { header := [0x44, 0x58, 0x4B, 0x46, 0x57, 0x49, 0x4D, 0x47, 1, 0, 0, 0, svn, 0, 0, 0, 3, 0, 2, 0, 0, 0x10, 0, 0] ++ List.replicate 97 4
      ++ List.replicate 7 0 ++ List.replicate 96 9 ++ List.replicate 3872 0, keyOk := key, sigOk := true }
/-- A directory copy of SEQ 5 that names slot B, as an update writes it. -/
def copy5 : List Byte := dirBytes { seq := 5, active := 1 }
def board1 : BoardCfg := { vendor := 0x1234, subVendor := 0, subId := 0, pair01 := true, pair23 := false, vdm := 1, crcOk := true }
theorem test_verify : after (fun t => (t.boot.st, t.boot.slot, t.boot.fallbk, t.boot.compat, t.boot.pair01)) (.imageVerify [] copy5 board1 (slotOf 0 true) (slotOf 2 true))
    (stBoot { st := .locked, svnf := 1 }) = some (.verified, 1, false, 3, true) := by decide +kernel
theorem test_verify_fallback : after (fun t => (t.boot.st, t.boot.slot, t.boot.fallbk)) (.imageVerify [] copy5 board1 (slotOf 0 true) (slotOf 2 false))
    (stBoot { st := .locked }) = some (.verified, 0, true) := by decide +kernel
theorem test_verify_svn : after (fun t => (t.boot.st, t.boot.fail)) (.imageVerify [] copy5 board1 (slotOf 0 true) (slotOf 2 false))
    (stBoot { st := .locked, svnf := 1 }) = some (.stopped, 5) := by decide +kernel
theorem test_verify_board : after (fun t => t.boot.fail) (.imageVerify [] copy5 { board1 with crcOk := false } (slotOf 0 true) (slotOf 2 true))
    (stBoot { st := .locked }) = some 9 := by decide +kernel
theorem test_training : after (fun t => ((t.hbm 2).mapout, t.boot.training, t.log.degr)) (.hbmTrainingDone 2 false)
    (stBoot { st := .verified, training := 0xFFF, attempts := [(2, 2)] }) = some (BitVec.allOnes 64, 0xFFB, 1) := by decide +kernel
theorem test_lanes : after (fun t => ((t.group 1).failed, t.boot.lanes)) (.serdesCalibrationDone 0x20) (stBoot { st := .zeroed, lanes := BitVec.allOnes 64 })
    = some (2, 0) := by decide +kernel
theorem test_ready : after (fun t => (t.boot.ready, t.boot.svnf, t.mbx.locked, (t.mbx.chan 0).snd, (t.mbx.chan 0).rcv)) (.ready [0x01001000])
    (stBoot { st := .zeroed, imageSvn := 2 }) = some (true, 2, true, 0, 1) := by decide +kernel
theorem test_idcode : after (fun t => (t.sent, t.boot.jtagIr)) .idcode (stBoot { st := .ready, jtagIr := 0xFF }) = some ([.jtag 1 0xA07680D5], 1) := by decide
theorem test_extest : after (fun t => t.sent.map (fun e => decide (e = .jtag 0xFF 0))) .extest (stBoot { st := .ready }) = some [true] := by decide
theorem witness_BootRuns : State.reset.boot.pwrgood = false ∧ (stBoot { st := .cold, held := true }).boot.held = true ∧ (st [] []).boot.warmRunning = false
    ∧ (stBoot { st := .locked, rcause := 1 }).boot.warmRunning = true ∧ (stBoot { st := .straps }).clk.lock = false
    ∧ (stBoot { st := .verified, training := 0xFFF, attempts := [(2, 1)] }).boot.training = BitVec.allOnes 12 := by decide
theorem witness_BootRuns_copy : GoodCopy copy5 5 1 ∧ ActiveSlot [] copy5 1 ∧ ∀ n x, ¬GoodCopy [] n x := by
  have h : ∀ n x, ¬GoodCopy [] n x := fun n x h => absurd h.1 (by decide)
  have g : GoodCopy copy5 5 1 := by unfold GoodCopy; decide +kernel
  exact ⟨g, Or.inr ⟨5, g, fun m a k => absurd k (h m a)⟩, h⟩
theorem getD_zero_of_all {bs : List Byte} {lo j : Nat} (h : (bs.drop lo).all (fun b => b == 0) = true) (k : lo ≤ j) : bs.getD j 0 = 0 := by
  rw [List.all_eq_true] at h
  have e : bs[j]? = (bs.drop lo)[j - lo]? := by rw [List.getElem?_drop]; congr 1; omega
  rw [List.getD_eq_getElem?_getD, e]
  cases g : (bs.drop lo)[j - lo]? with
  | none => rfl
  | some b => simpa using h b (List.mem_of_getElem? g)
theorem witness_BootRuns_slot : HeaderGood (slotOf 2 true) ∧ Verdict (slotOf 2 true) 1 none := by
  have a : ((slotOf 2 true).header.drop 224).all (fun b => b == 0) = true := by decide +kernel
  have b : ∀ j < 128, (j = 11 ∨ 121 ≤ j) → (slotOf 2 true).header.getD j 0 = 0 := by decide +kernel
  have h : HeaderGood (slotOf 2 true) :=
    ⟨by decide +kernel, by decide +kernel, by decide +kernel, by decide +kernel, fun j k => if l : j < 128 then b j l (by omega) else getD_zero_of_all a (by omega),
      by decide +kernel, by decide +kernel, by decide +kernel⟩
  exact ⟨h, Or.inr (Or.inr (Or.inr (Or.inr ⟨h, rfl, rfl, by decide +kernel, rfl⟩)))⟩


/-! ### Management over MCTP -/

/-- The device at a point of a firmware update, with slot A ACTIVE in copy 0. -/
def stUpd (u : UpdSt) : State :=
  { stBoot { st := .recovery, upd := u, updSize := 200, updBytes := 100, dir0 := { valid := true, seq := 4 }, dir1 := { valid := true, seq := 3, active := 1 } } with
    clk := { temps := [(5, 0xFFF0)], divs := [(2, { eff := 3 })], rails := [(0, 750, 11, 12)] } }
theorem test_sensor : after (fun t => t.sent) (.getsensorreading .smbus 6) (stUpd .idle) = some [.pldm 2 0x11 0 [0, 1, BitVec.ofInt 64 (-16)]] := by decide
theorem test_freq : after (fun t => t.sent) (.getsensorreading .smbus 0x303) (stUpd .idle) = some [.pldm 2 0x11 0 [0, 1, 450]] := by decide
theorem test_no_sensor : after (fun t => t.sent) (.getsensorreading .smbus 0xC1) (stUpd .idle) = some [.pldm 2 0x11 0x80 []] := by decide
/-- R422's example: an effecter write of 2,000 W gives 80 steps. -/
theorem test_effecter : after (fun t => t.clk.steps) (.setnumericeffectervalue .smbus 0x0501 2000) (stUpd .idle) = some 80 := by decide
theorem test_effecter_odd : after (fun t => (t.clk.steps, t.sent)) (.setnumericeffectervalue .smbus 0x0501 2010) (stUpd .idle)
    = some (104, [.pldm 2 0x31 2 []]) := by decide
theorem test_pdr : after (fun t => t.sent) (.getpdr .smbus 275) (stUpd .idle) = some [.pldm 2 0x51 0 [0, 2, 0x501]] := by decide +kernel
theorem test_flash : after (fun t => (t.sent, t.boot.updBytes)) (.requestfirmwaredata .smbus 100 [1, 2]) (stUpd .download)
    = some ([.flash 0x2000064 [1, 2]], 102) := by decide
theorem test_update_apply : after (fun t => (t.boot.dir1, t.boot.dir0.seq, t.sent.length)) (.applycomplete .smbus) (stUpd .apply)
    = some ({ valid := true, seq := 5, active := 1 }, 4, 2) := by decide +kernel
theorem test_update_twice : after (fun t => t.sent) (.requestupdate .smbus [] []) (stUpd .learn) = some [.pldm 5 0x10 0x81 []] := by decide
theorem test_unserved : after (fun t => t.sent) (.gettid (.vdm 0)) (stUpd .idle) = some [] := by decide
theorem test_bootfail : after (fun t => t.sent) (.getfirmwareparameters .smbus) (stBoot { st := .stopped, fail := 9 })
    = some [.pldm 5 2 0 [0x000A, 0x0768, 0x42, 0x4F, 0x4F, 0x54, 0x46, 0x41, 0x49, 0x4C, 0x2D, 0x30, 0x78, 0x39]] := by decide
def partCreateWords : List Word := [0x00070060, create1, 0, 0, 0, 0, 0, 0]
theorem test_vendor : after (fun t => t.cmds.map (fun c => (c.tag, c.op))) (.mctpVendorMessage .smbus 0x1234 1 partCreateWords)
    { st [] [] with boot := { st := .ready, pciIds := 0x1234 } } = some [(7, 0x60)] := by decide +kernel
theorem test_vendor_other : after (fun t => t.cmds.length) (.mctpVendorMessage .smbus 0x1235 1 partCreateWords)
    { st [] [] with boot := { st := .ready, pciIds := 0x1234 } } = some 0 := by decide +kernel
theorem witness_ManagementServes : Served (stUpd .idle) .smbus ∧ ¬Served (stUpd .idle) (.vdm 0) ∧ UpdateSlot (stUpd .apply).boot 1
    ∧ SensorReads (stUpd .idle) 6 (-16) ∧ (∀ v, ¬SensorReads (stUpd .idle) 0xC1 v) ∧ PdrEntry 274 2 0x501 ∧ ParamsIn partCreateWords := by
  refine ⟨by simp [Served, stUpd, stBoot], by simp [Served, stUpd, stBoot], ?_, ?_, ?_, ?_, ?_⟩
  · exact Or.inl ⟨rfl, fun _ => by decide, by decide, rfl⟩
  · exact Or.inl ⟨by decide, by decide, by decide⟩
  · intro v h; unfold SensorReads at h; omega
  · unfold PdrEntry; decide
  · unfold ParamsIn; decide


/-! ### Register writes -/

theorem test_tuCtl : after (fun t => ((t.core 5).tile.iqd, (t.core 5).tile.nanen)) (.tuCtlDrop maltsterWriter 5 0x120) (st [] []) = some (1, true) := by decide
theorem test_clrrej : after (fun t => ((t.core 0).sp.rejCount, (t.core 0).sp.rejie)) (.clrrej maltsterWriter 0 1)
    { st [] [] with cores := [(0, { core0 3 [] [] with sp := { rejCount := 4 } })] } = some (0, true) := by decide
theorem test_iset : after (fun t => (t.core 0).ipend) (.coreIset maltsterWriter 0 0xFFFF) (st [] []) = some 0xFFE0 := by decide
theorem test_iset_ring3 : after (fun t => ((t.core 0).ipend, (t.core 0).ring)) (.coreIset (.core 0) 0 0x20) (st [] []) = some (0, 0) := by decide
theorem test_mbx_lock : after (fun t => t.mbx.locked) (.mbxCtlLock maltsterWriter) (st [] []) = some true := by decide
theorem test_vbase : after (fun t => coreRegRead (t.core 0) 0x88) (.registerWrite maltsterWriter (BitVec.ofNat 48 (coreRegAddr 0 0x88)) 0xFFFFFFFFFFFFFFFF) (st [] [])
    = some 0x0000FFFFFFFFF000 := by decide
theorem test_host_write : after (fun t => ((t.host 0).evqp, (t.host 0).winb)) (.registerWrite (.host 0) (BitVec.ofNat 48 (devRegAddr 5 0 8)) 0x1205)
    { st [] [] with hosts := [(0, { link := .up })] } = some (5, 0x12) := by decide
theorem test_precise : after (fun t => ((t.core 0).preciseM, (t.core 0).tmode)) (.precise maltsterWriter 0 3) (st [] []) = some (true, true) := by decide
theorem witness_RegistersWritten_waits : ((st [] []).core 0).preciseM = false ∧ ((st [] []).core 0).vsu.queue = [] := by decide
theorem witness_RegistersWritten : MaltsterWrites (st [] []) ∧ (st [] []).partOfCore 0 = some 0 ∧ (st [] []).partOfCore 1 = some 0
    ∧ ((st [] []).core 0).run = .running ∧ ((st [] []).core 0).waiting = none ∧ GoodBinding 0x1001000 ∧ ¬GoodBinding 0x1000000
    ∧ placeOf (devRegAddr 5 0 8) = .devReg 5 0 8 ∧ placeOf (coreRegAddr 0 0) = .coreReg 0 0 ∧ (((st [] []).core 0).banks.get 3).busy = true := by
  unfold MaltsterWrites GoodBinding; decide


/-! ### The machine as a whole -/

theorem test_idle : step State.reset = .next State.reset := by rfl
theorem witness_StepKeepsInvariant : (st [1] []).Canonical ∧ step { st [1] [] with pending := [.tapReset] } = exec .tapReset (st [1] []) := by
  unfold State.Canonical; exact ⟨by decide, rfl⟩
/-- One word of each family, written out from the encodings of R185 to R193. -/
theorem test_words : decodeCore 0 [0x21] = .ok (.sub 0, 1) ∧ decodeCore 0 [0x11, 0x34, 0x12] = .ok (.lit16 0 0x1234, 3)
    ∧ decodeCore 0 [0x51, 0xFE, 0xFF, 0xFF, 0xFF] = .ok (.br32 0 0xFFFFFFFE, 5) ∧ decodeCore 0 [0x66, 0xF8] = .ok (.ld64 0 (.d8 0xF8) {}, 2)
    ∧ decodeCore 0 [0xF0, 0x6B, 0x00, 0x01] = .ok (.st64 0 (.d16 0x0100) {}, 4)
    ∧ decodeCore 0 [0x6C, 0x10, 1, 0, 0, 0, 0, 0, 0, 0x80] = .ok (.stiQ 0 (.d8 0x10) 0x8000000000000001 {}, 10) := by decide
theorem test_words_units : decodeCore 0 [0x73, 0xC0] = .ok (.tzero 0 (.acc 1), 2) ∧ decodeCore 0 [0x74, 0x4A] = .ok (.tmma 0 1 2 1 none, 2)
    ∧ decodeCore 0 [0xF4, 0x76, 0x43, 0x11, 0x00, 0x83] = .ok (.tcva 0 3 1 (some 0x830011), 6) ∧ decodeCore 0 [0x80, 0x08] = .ok (.vexec 0 ⟨.d8 8, none⟩, 2)
    ∧ decodeCore 0 [0x90, 0x3F] = .ok (.fset 0 63, 2) ∧ decodeCore 0 [0xA4, 0xFF] = .ok (.mbpost 0 0xFF, 2) ∧ decodeCore 0 [0xC1, 0x07] = .ok (.gret 0 7, 2)
    ∧ decodeCore 0 [0xB6] = .ok (.l2inv 0, 1) := by decide
theorem test_illegal : decodeCore 0 [0x00] = .illegal 1 ∧ decodeCore 0 [0x90, 0x40] = .illegal 2 ∧ decodeCore 0 [0xF0, 0xF1] = .illegal 2
    ∧ decodeCore 768 [0x90, 0x00] = .illegal 1 ∧ decodeCore 0 [0xF0, 0x01] = .illegal 2 := by decide

/-! ### Commands that are not well-formed -/

def ill (i : Instr) : Bool := !i.wellFormed
theorem test_ill_opcode : ill (.undefinedOpcode 0 [0x01]) = true ∧ ill (.undefinedOpcode 0 [0x00]) = false := by decide
theorem test_ill_scrub : ill (.scratchpadScrub (.spad 0) 0x100000 .clean) = true ∧ ill (.scratchpadScrub (.spad 768) 0 .clean) = true
    ∧ ill (.scratchpadScrub (.tun 0) 0x800000 .clean) = true ∧ ill (.scratchpadScrub (.tun 0) 0x7FFFC0 .clean) = false := by decide
theorem test_ill_ptp : ill (.ptpMessage 0 0 0 true) = true ∧ ill (.ptpMessage 0 0 0x0A00000000 true) = false := by decide
theorem test_ill_packets : ill (.write 0 (pkt 2 0 0 0 0 0 []) none) = true ∧ ill (.accum 0 (pkt 1 0 0 0 0 0 []) none) = true ∧ ill (.flag 0 (pkt 1 0 0 0 0 0 [])) = true
    ∧ ill (.cltMbpost 0 (pkt 1 0 0 0 0 0 [])) = true ∧ ill (.ack 0 (pkt 1 0 0 0 0 0 [])) = true ∧ ill (.nak 0 (pkt 1 0 0 0 0 0 [])) = true
    ∧ ill (.hello 0 (pkt 1 0 0 0 0 0 [])) = true ∧ ill (.helloAck 0 (pkt 1 0 0 0 0 0 [])) = true ∧ ill (.mgmt 0 (pkt 1 0 0 0 0 0 [])) = true
    ∧ ill (.write 0 (pkt 1 0 0 0 0 0 []) none) = false := by decide
theorem test_ill_host : ill (.commandFetch 0 1 (some [0, 0])) = true ∧ ill (.bar2Write 0 0 [] none) = true
    ∧ ill (.bar2Write 0 0 (List.replicate 4097 0) none) = true ∧ ill (.bar2Write 0 0 [1] none) = false := by decide +kernel
theorem test_ill_image : ill (.schedLoad .mgmt 0 { image5 with pages := [⟨0x40000, 16, .phys 0, true, false, 15, none⟩] } none) = true
    ∧ ill (.schedLoad .mgmt 0 image5 none) = false := by decide +kernel
theorem test_ill_detection : ill (.hwErrorDetected (some { source := 1, ukind := 0, unit := 0, master := 0, addr := 0 })) = true
    ∧ ill (.hwErrorDetected (some { source := 1, ukind := 1, unit := 768, master := 0, addr := 0 })) = true ∧ ill (.hwErrorDetected (some det1)) = false := by decide
theorem test_ill_samples : ill (.capLoopSample []) = true ∧ ill (.thermalSample [] (List.replicate 12 0)) = true
    ∧ ill (.thermalSample (List.replicate 192 0) []) = true := by decide +kernel
theorem test_ill_register : ill (.registerWrite maltsterWriter (BitVec.ofNat 48 (devRegAddr 6 0 4)) 0) = true ∧ ill (.registerWrite maltsterWriter 0x8 0) = true
    ∧ ill (.registerWrite maltsterWriter (BitVec.ofNat 48 (devRegAddr 6 0 8)) 0) = false := by decide
theorem test_refused : exec (.capLoopSample []) State.reset = .refused (.illFormed "CAP_LOOP_SAMPLE") := by rfl


end Sys2Proof.Tests
end

section
/-!
PROOFS. Writes of registers (R5, R17, R447): where a register's address lies, what an accepted write of a core's, a device block's or a
host port's register leaves, and which writes are refused.
-/
namespace Sys2Proof.Proofs
open Sys2Proof Sys2Proof.Machine Sys2Proof.Stated Sys2Proof.Laws

/-! ### Fields and bits of a word -/

theorem field_eq_div (x : Word) (hi lo : Nat) : field x hi lo = x.toNat / 2 ^ lo % 2 ^ (hi + 1 - lo) := by
  rw [field, Nat.shiftRight_eq_div_pow]

theorem field_or (x y : Word) (hi lo : Nat) : field (x ||| y) hi lo = field x hi lo ||| field y hi lo := by
  simp only [field, BitVec.toNat_or, Nat.shiftRight_or_distrib, Nat.or_mod_two_pow]

theorem bit_or (x y : Word) (i : Nat) : bit (x ||| y) i = (bit x i || bit y i) := BitVec.getLsbD_or

theorem bit_flagAt_true {n : Nat} (hn : n < 64) (i : Nat) : bit (flagAt true n) i = decide (i = n) := by
  simp only [bit, flagAt, if_true, BitVec.getLsbD_ofNat, Nat.one_shiftLeft, Nat.testBit_two_pow]
  by_cases h : i = n
  · subst h; simp [hn]
  · simp [h, Ne.symm h]

/-- A flag set at one bit leaves every other bit. -/
theorem bit_or_flagAt {n i : Nat} (hn : n < 64) (h : i ≠ n) (v : Word) : bit (v ||| flagAt true n) i = bit v i := by
  simp [bit_or, bit_flagAt_true hn, h]

theorem bit_or_flagAt_self {n : Nat} (hn : n < 64) (v : Word) : bit (v ||| flagAt true n) n = true := by
  simp [bit_or, bit_flagAt_true hn]

/-- A field placed where it stood is the word under the field's mask. -/
theorem place_field_self (v : Word) {w lo : Nat} : place (v.toNat / 2 ^ lo % 2 ^ w) w lo = v &&& BitVec.ofNat 64 ((2 ^ w - 1) <<< lo) := by
  apply BitVec.eq_of_getLsbD_eq
  intro i hi
  simp only [place, BitVec.getLsbD_and, BitVec.getLsbD_ofNat, Nat.testBit_mod_two_pow, Nat.testBit_shiftLeft, Nat.testBit_div_two_pow,
    Nat.testBit_two_pow_sub_one, hi, decide_true, Bool.true_and, BitVec.testBit_toNat]
  by_cases h : lo ≤ i
  · simp [h, Bool.and_comm]
  · simp [h]

/-! ### Where registers lie (R12, R14 to R16) -/

/-- The bounds of the address map as numbers, for arithmetic on addresses. -/
theorem addressMap : memEnd = 0x9000000000 ∧ tunBase = 0x400000000000 ∧ spadBase = 0x410000000000 ∧ coreRegBase = 0x420000000000
    ∧ clRegBase = 0x430000000000 ∧ devBase = 0x440000000000 := ⟨rfl, rfl, rfl, rfl, rfl, rfl⟩

theorem placeOf_coreRegAddr {k off : Nat} (hk : k < 768) (ho : off < 0x10000) : placeOf (coreRegAddr k off) = .coreReg k off := by
  obtain ⟨hmem, htun, hspad, hcore, -, -⟩ := addressMap
  have ha : coreRegAddr k off = coreRegBase + k * 0x10000 + off := rfl
  have hcoreNo : (coreRegAddr k off - coreRegBase) / 0x10000 = k := by omega
  have hoff : (coreRegAddr k off - coreRegBase) % 0x10000 = off := by omega
  unfold placeOf
  rw [if_neg (by omega), if_neg (by omega), if_neg (by omega), if_pos (by omega), hcoreNo, hoff]

theorem placeOf_clRegAddr {c off : Nat} (hc : c < 48) (ho : off < 0x80000) : placeOf (clRegAddr c off) = .clReg c off := by
  obtain ⟨hmem, htun, hspad, hcore, hcl, -⟩ := addressMap
  have ha : clRegAddr c off = clRegBase + c * 0x100000 + off := rfl
  have hcluster : (clRegAddr c off - clRegBase) / 0x100000 = c := by omega
  have hoff : (clRegAddr c off - clRegBase) % 0x100000 = off := by omega
  unfold placeOf
  rw [if_neg (by omega), if_neg (by omega), if_neg (by omega), if_neg (by omega), if_pos (by omega)]
  dsimp only
  rw [hcluster, hoff, if_pos ho]

theorem placeOf_devRegAddr {b i off : Nat} (hb : b < 8) (hi : i < devInstances b) (h16 : i < 16) (ho : off < 0x100000) :
    placeOf (devRegAddr b i off) = .devReg b i off := by
  obtain ⟨hmem, htun, hspad, hcore, hcl, hdev⟩ := addressMap
  have ha : devRegAddr b i off = devBase + b * 0x1000000 + i * 0x100000 + off := rfl
  have hblk : (devRegAddr b i off - devBase) / 0x1000000 = b := by omega
  have hinst : (devRegAddr b i off - devBase) % 0x1000000 / 0x100000 = i := by omega
  have hoff : (devRegAddr b i off - devBase) % 0x100000 = off := by omega
  unfold placeOf
  rw [if_neg (by omega), if_neg (by omega), if_neg (by omega), if_neg (by omega), if_neg (by omega), if_pos (by omega)]
  dsimp only
  rw [hblk, hinst, hoff, if_pos hi]

/-- Register blocks begin at aligned addresses: an aligned address names an aligned offset. -/
theorem coreReg_offset_aligned {a j off : Nat} (h : placeOf a = .coreReg j off) (h8 : a % 8 = 0) : off % 8 = 0 := by
  obtain ⟨-, -, -, hcore, -, -⟩ := addressMap
  unfold placeOf at h
  dsimp only at h
  split_ifs at h
  simp only [Place.coreReg.injEq] at h
  omega

theorem clReg_offset_aligned {a c off : Nat} (h : placeOf a = .clReg c off) (h8 : a % 8 = 0) : off % 8 = 0 := by
  obtain ⟨-, -, -, -, hcl, -⟩ := addressMap
  unfold placeOf at h
  dsimp only at h
  split_ifs at h
  simp only [Place.clReg.injEq] at h
  omega

theorem aligned_div_mul {off : Nat} (h : off % 8 = 0) : off / 8 * 8 = off := Nat.div_mul_cancel (Nat.dvd_of_mod_eq_zero h)

theorem regAddr_of_aligned {a : Nat} (h8 : a % 8 = 0)
    (hp : (∃ k off, placeOf a = .coreReg k off) ∨ (∃ c off, placeOf a = .clReg c off) ∨ ∃ b i off, placeOf a = .devReg b i off) :
    regAddr a = true := by
  rcases hp with ⟨k, off, hp⟩ | ⟨c, off, hp⟩ | ⟨b, i, off, hp⟩ <;> simp [regAddr, h8, hp]

/-! ### A store to a register block -/

/-- A write of CORE_CFG that changes PRECISE while a unit queue holds an instruction (R181). -/
@[reducible] def WaitsForUnits (c : Core) (off : Nat) (v : Word) : Prop :=
  off = 8 ∧ bit v 1 ≠ c.preciseM ∧ (c.tile.queue ≠ [] ∨ c.vsu.queue ≠ [])

theorem regValue_word (s : State) (pa : Nat) (v : Word) : s.regValue pa (leBytes 8 v.toNat) = (v, s) := by
  simp [State.regValue, leWord_leBytes]

/-- What a 64-bit store by core k to a core's block can do. -/
theorem storeReg_coreReg {pa j off : Nat} (hp : placeOf pa = .coreReg j off) (h8 : off % 8 = 0) (s : State) (k : Nat) (a v : Word) :
    s.storeReg k a pa (leBytes 8 v.toNat)
      = if k ≠ maltsterCore ∧ j ≠ k then .ev { code := 6, cause := 7, faddr := a }
        else if k ≠ maltsterCore ∧ coreRegRing off v < (s.core k).ring.val then .ev { code := 2, faddr := BitVec.ofNat 64 pa }
        else if WaitsForUnits (s.core j) off v then .wait
        else .ok () (s.modCore j (coreRegStore (k == maltsterCore) off v)) := by
  simp [State.storeReg, regValue_word, hp, aligned_div_mul h8, WaitsForUnits, and_assoc]

theorem storeReg_clReg_refused {pa c off k : Nat} {s : State} {v : Word} (hp : placeOf pa = .clReg c off) (h8 : off % 8 = 0)
    (hk : k ≠ maltsterCore) (hr : clusterRegRings off ≤ (s.core k).ring.val) (a : Word) :
    s.storeReg k a pa (leBytes 8 v.toNat) = .ev { code := 2, faddr := BitVec.ofNat 64 pa } := by
  simp [State.storeReg, hp, aligned_div_mul h8, hk, hr]

theorem storeReg_devReg {pa b i off : Nat} (hp : placeOf pa = .devReg b i off) (h8 : off % 8 = 0) (s : State) (k : Nat) (a v : Word) :
    s.storeReg k a pa (leBytes 8 v.toNat) = .ok () (devRegStore s b i off v).hostsDrain := by
  simp [State.storeReg, regValue_word, hp, aligned_div_mul h8]

/-! ### Who writes (R17, R447) -/

theorem coreRegWrite_maltster {s : State} (h : MaltsterWrites s) (pa : Nat) (v : Word) :
    s.coreRegWrite maltsterCore pa v
      = s.writeOutcome maltsterCore (s.storeReg maltsterCore (BitVec.ofNat 64 pa) pa (leBytes 8 v.toNat)) := by
  obtain ⟨hcold, htrip⟩ := h
  simp [State.coreRegWrite, hcold, htrip]

section
variable {s : State} {k p pa : Nat} (hk : k ≠ maltsterCore) (hi : (s.core k).issues = true) (hp : s.partOfCore k = some p)
include hk hi hp

theorem coreRegWrite_core {v : Word} (hf : placeFault s p false .write pa pa = none) :
    s.coreRegWrite k pa v = s.writeOutcome k (s.storeReg k (BitVec.ofNat 64 pa) pa (leBytes 8 v.toNat)) := by
  simp [State.coreRegWrite, hk, hi, hp, hf]

theorem coreRegWrite_core_fault {v : Word} {f : AFault} (hf : placeFault s p false .write pa pa = some f) :
    s.coreRegWrite k pa v = s.raise k f.ev := by
  simp [State.coreRegWrite, hk, hi, hp, hf]
end

/-- A master that may write a core's register, within the register's ring limit, stores it; a write that waits has no effect. -/
theorem regWrite_coreReg {s : State} {m : Writer} {k off limit : Nat} {v : Word} (hk : k < 768) (ho : off < 0x10000) (h8 : off % 8 = 0)
    (hm : MayWrite s m (coreRegAddr k off) limit) (hr : limit ≤ coreRegRing off v) :
    ∃ b, s.regWrite m (coreRegAddr k off) v = if WaitsForUnits (s.core k) off v then s else s.modCore k (coreRegStore b off v) := by
  have hpl := placeOf_coreRegAddr hk ho
  cases m with
  | host h => exact hm.elim
  | core w =>
    refine ⟨w.val == maltsterCore, ?_⟩
    have hstore : s.regWrite (.core w) (coreRegAddr k off) v
          = s.writeOutcome w.val (s.storeReg w.val (BitVec.ofNat 64 (coreRegAddr k off)) (coreRegAddr k off) (leBytes 8 v.toNat))
        ∧ ¬(w.val ≠ maltsterCore ∧ k ≠ w.val) ∧ ¬(w.val ≠ maltsterCore ∧ coreRegRing off v < (s.core w.val).ring.val) := by
      rcases hm with ⟨hw, hmalt⟩ | ⟨hw, hissues, hring, ⟨p, hpart, hfault⟩, hown⟩
      · refine ⟨?_, fun h => h.1 hw, fun h => h.1 hw⟩
        simp only [State.regWrite, hw]
        exact coreRegWrite_maltster hmalt _ _
      · have hne : w.val ≠ maltsterCore := Nat.ne_of_lt hw
        exact ⟨coreRegWrite_core hne hissues hpart hfault, fun h => h.2 (hown k off hpl), fun h => by omega⟩
    obtain ⟨heq, hforeign, habove⟩ := hstore
    rw [heq, storeReg_coreReg hpl h8, if_neg hforeign, if_neg habove]
    split <;> rfl

theorem coreBecomes_modCore (s : State) (k : Nat) (f : Core → Core) : CoreBecomes s (s.modCore k f) k (f (s.core k)) :=
  ⟨rfl, by simp, fun j hj => by simp [hj]⟩

/-- The rule of every write of a core's register: what its store makes of the core is what becomes of the core. -/
theorem coreReg_written {s : State} {i : Instr} {m : Writer} {k : Fin 768} {off limit : Nat} {v : Word} {c : Core}
    (hi : exec i s = .next (s.regWrite m (coreRegAddr k.val off) v)) (hm : MayWrite s m (coreRegAddr k.val off) limit)
    (hoff : off < 0x10000 ∧ off % 8 = 0) (hr : limit ≤ coreRegRing off v) (hw : ¬WaitsForUnits (s.core k.val) off v)
    (hc : ∀ b, coreRegStore b off v (s.core k.val) = c) : ∃ t, exec i s = .next t ∧ CoreBecomes s t k.val c := by
  obtain ⟨b, hb⟩ := regWrite_coreReg k.isLt hoff.1 hoff.2 hm hr
  rw [if_neg hw] at hb
  refine ⟨_, hi, ?_⟩
  rw [hb, ← hc b]
  exact coreBecomes_modCore s k.val _

theorem not_waitsForUnits {c : Core} {off : Nat} {v : Word} (h : off ≠ 8) : ¬WaitsForUnits c off v := fun hw => h hw.1

/-- REGISTER_WRITE at the address of a register writes it. -/
theorem exec_registerWrite {a : Nat} (ha : a < 2 ^ 48) (hreg : regAddr a = true) (m : Writer) (v : Word) (s : State) :
    exec (.registerWrite m (BitVec.ofNat 48 a) v) s = .next (s.regWrite m a v) := by
  have e : (BitVec.ofNat 48 a).toNat = a := by rw [BitVec.toNat_ofNat, Nat.mod_eq_of_lt ha]
  change execRegisterWrite m (BitVec.ofNat 48 a) v s = _
  simp [execRegisterWrite, e, hreg]

theorem exec_registerWrite_pa {pa : BitVec 48} (hreg : regAddr pa.toNat = true) (m : Writer) (v : Word) (s : State) :
    exec (.registerWrite m pa v) s = .next (s.regWrite m pa.toNat v) := by
  simpa using exec_registerWrite pa.isLt hreg m v s

theorem exec_registerWrite_coreReg (k : Fin 768) {off : Nat} (hoff : off < 0x10000 ∧ off % 8 = 0) (m : Writer) (v : Word) (s : State) :
    exec (.registerWrite m (BitVec.ofNat 48 (coreRegAddr k.val off)) v) s = .next (s.regWrite m (coreRegAddr k.val off) v) := by
  have hk := k.isLt
  obtain ⟨ho, h8⟩ := hoff
  have ha : coreRegAddr k.val off = 0x420000000000 + k.val * 0x10000 + off := rfl
  exact exec_registerWrite (by omega) (regAddr_of_aligned (by omega) (.inl ⟨_, _, placeOf_coreRegAddr hk ho⟩)) m v s

/-- The rule for REGISTER_WRITE of a register that no write waits for. -/
theorem coreReg_registerWritten {s : State} {m : Writer} {k : Fin 768} {off limit : Nat} {v : Word} {c : Core}
    (hm : MayWrite s m (coreRegAddr k.val off) limit) (hoff : (off < 0x10000 ∧ off % 8 = 0) ∧ off ≠ 8) (hr : limit ≤ coreRegRing off v)
    (hc : ∀ b, coreRegStore b off v (s.core k.val) = c) :
    ∃ t, exec (.registerWrite m (BitVec.ofNat 48 (coreRegAddr k.val off)) v) s = .next t ∧ CoreBecomes s t k.val c :=
  coreReg_written (exec_registerWrite_coreReg k hoff.1 m v s) hm hoff.1 hr (not_waitsForUnits hoff.2) hc

theorem exec_registerWrite_devReg {b i off : Nat} (hb : b < 8) (hi : i < devInstances b) (h16 : i < 16) (ho : off < 0x100000)
    (h8 : off % 8 = 0) (m : Writer) (v : Word) (s : State) :
    exec (.registerWrite m (BitVec.ofNat 48 (devRegAddr b i off)) v) s = .next (s.regWrite m (devRegAddr b i off) v) := by
  have ha : devRegAddr b i off = 0x440000000000 + b * 0x1000000 + i * 0x100000 + off := rfl
  exact exec_registerWrite (by omega) (regAddr_of_aligned (by omega) (.inr (.inr ⟨_, _, _, placeOf_devRegAddr hb hi h16 ho⟩))) m v s

/-! ### Registers of a core, one by one -/

/-- TU_CTL and VSU_CTL written with DROP: bit 16 touches no other field. -/
theorem field_ctl_drop (v : Word) : field (v ||| flagAt true 16) 9 8 = v.toNat / 2 ^ 8 % 4 := by
  rw [field_or, field_eq_div]; exact Nat.or_zero _

theorem condsOfBits_drop (v : Word) (dz : Bool) : Conds.ofBits (v ||| flagAt true 16) 0 dz = Conds.ofBits v 0 dz := by
  simp only [Conds.ofBits, bit_or_flagAt (n := 16), ne_eq, Nat.reduceAdd, Nat.reduceEqDiff, Nat.reduceLT, not_false_eq_true]

theorem tile_ctlWrite_drop (t : Tile) {v : Word} (hv : v.toNat / 2 ^ 8 % 4 ≠ 3) :
    t.ctlWrite (v ||| flagAt true 16)
      = { t with te := condsAt v false, teAovf := v.getLsbD 4, nanen := v.getLsbD 5, iqd := v.toNat / 2 ^ 8 % 4, frozen := [] } := by
  rw [Tile.ctlWrite, field_ctl_drop, if_neg hv, condsOfBits_drop, bit_or_flagAt_self (by decide), bit_or_flagAt (by decide) (by decide),
    bit_or_flagAt (by decide) (by decide)]
  rfl

theorem tile_ctlWrite_reserved (t : Tile) {v : Word} (hv : v.toNat / 2 ^ 8 % 4 = 3) :
    t.ctlWrite (v ||| flagAt true 16) = { t with cfg := { err := true, off := 0x1008 } } := by
  rw [Tile.ctlWrite, field_ctl_drop, if_pos hv]; rfl

theorem vsu_ctlWrite_drop (u : Vsu) {v : Word} (hv : v.toNat / 2 ^ 8 % 4 ≠ 3) :
    u.ctlWrite (v ||| flagAt true 16)
      = { u with te := condsAt v (v.getLsbD 4), nanen := v.getLsbD 5, iqd := v.toNat / 2 ^ 8 % 4, frozen := [] } := by
  rw [Vsu.ctlWrite, field_ctl_drop, if_neg hv, condsOfBits_drop, bit_or_flagAt_self (by decide), bit_or_flagAt (by decide) (by decide),
    bit_or_flagAt (by decide) (by decide)]
  rfl

theorem vsu_ctlWrite_reserved (u : Vsu) {v : Word} (hv : v.toNat / 2 ^ 8 % 4 = 3) :
    u.ctlWrite (v ||| flagAt true 16) = { u with cfg := { err := true, off := 0x2008 } } := by
  rw [Vsu.ctlWrite, field_ctl_drop, if_pos hv]; rfl

theorem le_coreRegRing_drop {off : Nat} (h : off = 0x1008 ∨ off = 0x2008) (v : Word) : 1 ≤ coreRegRing off v := by
  have hring : coreRegRing off v = if bit v 16 then 1 else 3 := by rcases h with rfl | rfl <;> rfl
  rw [hring]; split <;> decide

theorem coreRegStore_clrrej (b : Bool) (v : Word) (c : Core) :
    coreRegStore b 0x3008 (v ||| flagAt true 1) c
      = { c with sp := { c.sp with rejie := v.getLsbD 0, rejOff := 0, rejReason := 0, rejSrc := 0, rejLenM1 := 0, rejCount := 0 } } := by
  change { c with sp := if bit (v ||| flagAt true 1) 1 then { c.sp with rejie := bit (v ||| flagAt true 1) 0 }.clrrej else _ } = _
  rw [bit_or_flagAt_self (by decide), bit_or_flagAt (by decide) (by decide), if_pos rfl]
  rfl

theorem coreRegStore_dsr (b : Bool) (n : Fin 4) (v : Word) (c : Core) :
    coreRegStore b (0x40 + 0x10 * n.val) v c
      = match stkRegWrite (c.banks.get n).busy v with
        | none => { c with cfg := cfgErr (0x40 + 0x10 * n.val) }
        | some r => { c with dsr := c.dsr.set n r } := by
  fin_cases n <;> rfl

theorem coreRegStore_dsr_refused (b : Bool) (n : Fin 4) {v : Word} {c : Core}
    (h : (c.banks.get n).busy = true ∨ v.toNat / 2 ^ 16 % 2 ^ 17 ≤ v.toNat % 2 ^ 16 ∨ 0x10000 < v.toNat / 2 ^ 16 % 2 ^ 17) :
    coreRegStore b (0x40 + 0x10 * n.val) v c = { c with cfg := { err := true, off := 0x40 + 0x10 * n.val } } := by
  have hw : stkRegWrite (c.banks.get n).busy v = none := by
    simpa only [stkRegWrite, field_eq_div, Nat.div_one, pow_zero, Bool.or_eq_true, decide_eq_true_eq, or_assoc, ite_eq_left_iff, reduceCtorEq,
      imp_false, not_not] using h
  rw [coreRegStore_dsr, hw]; rfl

theorem coreRegStore_dsr_taken (b : Bool) (n : Fin 4) {v : Word} {c : Core} (hbusy : (c.banks.get n).busy = false)
    (hlt : v.toNat % 2 ^ 16 < v.toNat / 2 ^ 16 % 2 ^ 17) (htop : v.toNat / 2 ^ 16 % 2 ^ 17 ≤ 0x10000) :
    coreRegStore b (0x40 + 0x10 * n.val) v c = { c with dsr := c.dsr.set n ⟨v.toNat % 2 ^ 16, v.toNat / 2 ^ 16 % 2 ^ 17⟩ } := by
  have hw : stkRegWrite (c.banks.get n).busy v = some ⟨v.toNat % 2 ^ 16, v.toNat / 2 ^ 16 % 2 ^ 17⟩ := by
    simpa [stkRegWrite, field_eq_div, hbusy] using ⟨hlt, htop⟩
  rw [coreRegStore_dsr, hw]

theorem coreRegStore_vbase (b : Bool) (n : Fin 4) (v : Word) (c : Core) :
    coreRegStore b (0x80 + 8 * n.val) v c = { c with vbase := c.vbase.set n (v.toNat / 2 ^ 12 % 2 ^ 36) } := by
  rw [← field_eq_div v 47 12]; fin_cases n <;> rfl

theorem coreRegRead_vbase (n : Fin 4) (c : Core) (v : Word) :
    coreRegRead { c with vbase := c.vbase.set n (v.toNat / 2 ^ 12 % 2 ^ 36) } (0x80 + 8 * n.val) = v &&& 0x0000FFFFFFFFF000 := by
  have hread : coreRegRead { c with vbase := c.vbase.set n (v.toNat / 2 ^ 12 % 2 ^ 36) } (0x80 + 8 * n.val)
      = place (v.toNat / 2 ^ 12 % 2 ^ 36) 36 12 := by fin_cases n <;> rfl
  rw [hread, place_field_self]; rfl

theorem coreRegRead_ie (c : Core) (v : Word) :
    coreRegRead { c with ie := v.truncate 16, gie := v.getLsbD 16 } 0x10 = v &&& 0x1FFFF := by
  change (v.truncate 16).zeroExtend 64 ||| flagAt (v.getLsbD 16) 16 = v &&& BitVec.ofNat 64 (2 ^ 17 - 1)
  have hflag (i : Nat) : (flagAt (v.getLsbD 16) 16).getLsbD i = (v.getLsbD i && decide (i = 16)) := by
    cases hb : v.getLsbD 16
    · by_cases h : i = 16
      · subst h; rw [hb]; rfl
      · simp [flagAt, h]
    · rw [← bit, bit_flagAt_true (by decide)]
      by_cases h : i = 16 <;> simp [h, hb]
  apply BitVec.eq_of_getLsbD_eq
  intro i hi
  have hor : decide (i < 17) = (decide (i < 16) || decide (i = 16)) := by
    rw [← Bool.decide_or, decide_eq_decide]; omega
  simp only [BitVec.getLsbD_or, hflag, BitVec.getLsbD_and, BitVec.getLsbD_setWidth, BitVec.getLsbD_ofNat, Nat.testBit_two_pow_sub_one, hi, hor]
  cases v.getLsbD i <;> simp

/-! ### Registers of the device blocks (R16, R17) -/

/-- The maltster writes every register of a device block. -/
theorem exec_maltster_devReg {s : State} {i : Instr} {b n off : Nat} {v : Word} (h : MaltsterWrites s)
    (hi : exec i s = .next (s.regWrite maltsterWriter (devRegAddr b n off) v)) (hb : b < 8) (hn : n < devInstances b) (h16 : n < 16)
    (ho : off < 0x100000) (h8 : off % 8 = 0) : exec i s = .next (devRegStore s b n off v).hostsDrain := by
  have hw : s.regWrite maltsterWriter (devRegAddr b n off) v = (devRegStore s b n off v).hostsDrain := by
    change s.coreRegWrite maltsterCore _ v = _
    rw [coreRegWrite_maltster h, storeReg_devReg (placeOf_devRegAddr hb hn h16 ho) h8]
    rfl
  rw [hi, hw]

theorem bindReserved_eq_false_iff (v : Word) : bindReserved v = false ↔ GoodBinding v := by
  simp only [bindReserved, GoodBinding, field_eq_div, bit]
  cases v.getLsbD 24 <;> simp [and_assoc]

theorem mbx_regStore_bind (m : Mbx) (n : Fin 256) (v : Word) :
    m.regStore (0x1000 + 8 * n.val) v
      = if m.locked || bindReserved v then { m with cfg := cfgErr (0x1000 + 8 * n.val) }
        else m.modChan n.val (fun c => { c with snd := field v 11 0, rcv := field v 23 12, v := bit v 24, ie := bit v 25 }) := by
  have hn := n.isLt
  have hidx : (0x1000 + 8 * n.val - 0x1000) / 8 = n.val := by omega
  rw [Mbx.regStore, if_neg (by omega), if_neg (by omega), if_pos (by omega), hidx]

theorem modChan_chan (m : Mbx) (n : Nat) (f : MbChan → MbChan) (j : Nat) :
    (m.modChan n f).chan j = if j = n then f (m.chan n) else m.chan j := by
  simp [Mbx.modChan, Mbx.chan]

/-! ### Registers of a host port (R346, R370) -/

/-- Through BAR0 a host port reaches nothing outside its own HOST_ registers. -/
theorem regWrite_host_elsewhere {h : HostPort} {a : Nat} (hp : ∀ off, placeOf a ≠ .devReg 5 h.val off) (v : Word) (s : State) :
    s.regWrite (.host h) a v = s := by
  unfold State.regWrite
  dsimp only
  split
  · rename_i i off heq
    rw [if_neg]
    simp only [Bool.and_eq_true, decide_eq_true_eq]
    rintro ⟨rfl, -⟩
    exact hp off heq
  · rfl

theorem host_coreReg_discarded {s : State} {v : Word} (h : HostPort) {k off : Nat} (hk : k < 768) (ho : off < 0x10000) :
    (.next (s.regWrite (.host h) (coreRegAddr k off) v) : Out) = .next s :=
  congrArg _ (regWrite_host_elsewhere (fun o => by simp [placeOf_coreRegAddr hk ho]) v s)

theorem host_clReg_discarded {s : State} {v : Word} (h : HostPort) {c off : Nat} (hc : c < 48) (ho : off < 0x80000) :
    (.next (s.regWrite (.host h) (clRegAddr c off) v) : Out) = .next s :=
  congrArg _ (regWrite_host_elsewhere (fun o => by simp [placeOf_clRegAddr hc ho]) v s)

theorem host_devReg_discarded {s : State} {v : Word} (h : HostPort) {b off : Nat} (hb : b < 8 ∧ b ≠ 5 ∧ 0 < devInstances b) (ho : off < 0x100000) :
    (.next (s.regWrite (.host h) (devRegAddr b 0 off) v) : Out) = .next s :=
  congrArg _ (regWrite_host_elsewhere (fun o => by simp [placeOf_devRegAddr hb.1 hb.2.2 (by decide) ho, hb.2.1]) v s)

theorem upperPort_of_portLive {s : State} {h : HostPort} (hl : PortLive s h) : s.upperPort h.val = false := by
  obtain ⟨-, -, h1, h3⟩ := hl
  simp only [State.upperPort, Bool.or_eq_false_iff, Bool.and_eq_false_iff, beq_eq_false_iff_ne]
  exact ⟨by tauto, by tauto⟩

theorem hostLive_of_portLive {s : State} {h : HostPort} (hl : PortLive s h) : s.hostLive h.val = true := by
  have hu := upperPort_of_portLive hl
  obtain ⟨hready, hup, -, -⟩ := hl
  simp [State.hostLive, hready, hup, hu]

theorem hostRegStore_evq {s : State} {h : HostPort} (hl : PortLive s h) (v : Word) :
    s.hostRegStore h 8 v = s.modHost h.val (fun x => { x with evqp := v.toNat % 2 ^ 6, winb := v.toNat / 2 ^ 8 % 2 ^ 8 }) := by
  simp [State.hostRegStore, upperPort_of_portLive hl, field_eq_div]

theorem modHost_host (s : State) (h : Nat) (f : HostS → HostS) (j : Nat) :
    (s.modHost h f).host j = if j = h then f (s.host h) else s.host j := by
  simp [State.modHost, State.host]

/-- A host port's write of one of its own HOST_ registers is stored while its function is there. -/
theorem regWrite_host_own {s : State} {h : HostPort} {a off : Nat} (hp : placeOf a = .devReg 5 h.val off) (hl : PortLive s h) (v : Word) :
    s.regWrite (.host h) a v = (s.hostRegStore h off v).hostsDrain := by
  simp [State.regWrite, hp, hostLive_of_portLive hl]

/-! ### Writes that wait, and the binding table -/

/-- A write that changes PRECISE has no effect while a unit queue holds an instruction (R181). -/
theorem precise_waits {s : State} {m : Writer} {k : Fin 768} {v : Word} (hm : MayWrite s m (coreRegAddr k.val 0x08) 1)
    (hne : v.getLsbD 1 ≠ (s.core k.val).preciseM) (hq : (s.core k.val).tile.queue ≠ [] ∨ (s.core k.val).vsu.queue ≠ []) :
    exec (.precise m k v) s = .next s := by
  obtain ⟨b, hb⟩ := regWrite_coreReg k.isLt (by decide) (by decide) hm (le_refl 1)
  rw [if_pos ⟨rfl, hne, hq⟩] at hb
  exact congrArg Host.Outcome.next hb

/-- The binding table: a locked table and a reserved binding refuse, and any other binding is stored (R238). -/
theorem mbx_regStore_bind_refused {m : Mbx} {n : Fin 256} {v : Word} (h : m.locked = true ∨ ¬GoodBinding v) :
    m.regStore (0x1000 + 8 * n.val) v = { m with cfg := { err := true, off := 0x1000 + 8 * n.val } } := by
  rw [← bindReserved_eq_false_iff, Bool.not_eq_false] at h
  rw [mbx_regStore_bind, if_pos (by simpa using h)]; rfl

theorem mbx_regStore_bind_taken {m : Mbx} {n : Fin 256} {v : Word} (hl : m.locked = false) (hv : GoodBinding v) :
    m.regStore (0x1000 + 8 * n.val) v = m.modChan n.val (fun c =>
      { c with snd := v.toNat % 2 ^ 12, rcv := v.toNat / 2 ^ 12 % 2 ^ 12, v := v.getLsbD 24, ie := v.getLsbD 25 }) := by
  rw [mbx_regStore_bind, if_neg (by simp [hl, (bindReserved_eq_false_iff v).mpr hv]), field_eq_div, field_eq_div]
  simp [bit]

theorem exec_mbxCtlLock {s : State} (hs : MaltsterWrites s) :
    exec (.mbxCtlLock maltsterWriter) s = .next ({ s with mbx := { s.mbx with locked := true } } : State).hostsDrain := by
  have hstore : s.mbx.regStore 8 1 = { s.mbx with locked := true } := by simp [Mbx.regStore, bit]
  have hexec : exec (.mbxCtlLock maltsterWriter) s = .next (s.regWrite maltsterWriter (devRegAddr 1 0 8) 1) := rfl
  rw [exec_maltster_devReg hs hexec (by decide) (by decide) (by decide) (by decide) (by decide), ← hstore]
  rfl

theorem exec_maltster_hbmStatus {s : State} (hs : MaltsterWrites s) (n : StackId) (v : Word) :
    exec (.registerWrite maltsterWriter (BitVec.ofNat 48 (devRegAddr 3 n.val 0)) v) s
      = .next (s.setHbm n.val { s.hbm n.val with
          cfg := { (s.hbm n.val).cfg with err := (s.hbm n.val).cfg.err && !v.getLsbD 0 }, ue := (s.hbm n.val).ue && !v.getLsbD 24 }).hostsDrain := by
  have hn : n.val < devInstances 3 := n.isLt
  have h16 : n.val < 16 := Nat.lt_trans n.isLt (by decide)
  have hexec := exec_registerWrite_devReg (off := 0) (by decide) hn h16 (by decide) (by decide) maltsterWriter v s
  rw [exec_maltster_devReg hs hexec (by decide) hn h16 (by decide) (by decide)]
  rfl

theorem exec_maltster_bind {s : State} (hs : MaltsterWrites s) (n : Fin 256) (v : Word) :
    exec (.registerWrite maltsterWriter (BitVec.ofNat 48 (devRegAddr 1 0 (0x1000 + 8 * n.val))) v) s
      = .next ({ s with mbx := s.mbx.regStore (0x1000 + 8 * n.val) v } : State).hostsDrain :=
  exec_maltster_devReg (b := 1) (n := 0) hs (exec_registerWrite_devReg (by decide) (by decide) (by decide) (by omega) (by omega) _ v s) (by decide) (by decide)
    (by decide) (by omega) (by omega)

/-! ### What a core may not write (R17, R447) -/

section
variable {s : State} {k : Fin 768} {w : CoreId} {pa : BitVec 48} {v : Word} {p : Nat} (hw : w.val = k.val) (hi : (s.core k.val).issues = true)
  (hp : s.partOfCore k.val = some p) (h8 : pa.toNat % 8 = 0)
include hw hi hp

/-- An access that the checks of the core's partition refuse raises their fault. -/
theorem exec_core_write_fault {f : AFault} (hreg : regAddr pa.toNat = true) (hf : placeFault s p false .write pa.toNat pa.toNat = some f) :
    exec (.registerWrite (.core w) pa v) s = .next (s.raise k.val f.ev) := by
  rw [exec_registerWrite_pa hreg, ← coreRegWrite_core_fault (Nat.ne_of_lt k.isLt) hi hp hf, ← hw]; rfl

/-- A write that the register's block refuses raises the block's fault. -/
theorem exec_core_write_refused {e : Ev} (hreg : regAddr pa.toNat = true) (hf : placeFault s p false .write pa.toNat pa.toNat = none)
    (he : s.storeReg k.val (BitVec.ofNat 64 pa.toNat) pa.toNat (leBytes 8 v.toNat) = .ev e) :
    exec (.registerWrite (.core w) pa v) s = .next (s.raise k.val e) := by
  have hstep := coreRegWrite_core (v := v) (Nat.ne_of_lt k.isLt) hi hp hf
  rw [he] at hstep
  rw [exec_registerWrite_pa hreg]
  change Host.Outcome.next (s.coreRegWrite w.val pa.toNat v) = _
  rw [hw, hstep]; rfl

include h8

theorem core_write_devReg_faults {b i off : Nat} (hpl : placeOf pa.toNat = .devReg b i off) :
    exec (.registerWrite (.core w) pa v) s = .next (s.raise k.val { code := 6, cause := 6, faddr := BitVec.ofNat 64 pa.toNat }) :=
  exec_core_write_fault (f := ⟨6, 6, pa.toNat⟩) hw hi hp (regAddr_of_aligned h8 (.inr (.inr ⟨b, i, off, hpl⟩))) (by simp only [placeFault, hpl])

variable (hf : placeFault s p false .write pa.toNat pa.toNat = none)
include hf

theorem core_write_foreign_faults {j off : Nat} (hpl : placeOf pa.toNat = .coreReg j off) (hj : j ≠ k.val) :
    exec (.registerWrite (.core w) pa v) s = .next (s.raise k.val { code := 6, cause := 7, faddr := BitVec.ofNat 64 pa.toNat }) := by
  refine exec_core_write_refused hw hi hp (regAddr_of_aligned h8 (.inl ⟨j, off, hpl⟩)) hf ?_
  rw [storeReg_coreReg hpl (coreReg_offset_aligned hpl h8), if_pos ⟨Nat.ne_of_lt k.isLt, hj⟩]

theorem core_write_aboveRing_faults {off : Nat} (hpl : placeOf pa.toNat = .coreReg k.val off)
    (hring : coreRegRing off v < (s.core k.val).ring.val) :
    exec (.registerWrite (.core w) pa v) s = .next (s.raise k.val { code := 2, faddr := BitVec.ofNat 64 pa.toNat }) := by
  refine exec_core_write_refused hw hi hp (regAddr_of_aligned h8 (.inl ⟨k.val, off, hpl⟩)) hf ?_
  rw [storeReg_coreReg hpl (coreReg_offset_aligned hpl h8), if_neg (fun h => h.2 rfl), if_pos ⟨Nat.ne_of_lt k.isLt, hring⟩]

theorem core_write_clReg_aboveRing_faults {c off : Nat} (hpl : placeOf pa.toNat = .clReg c off)
    (hring : clusterRegRings off ≤ (s.core k.val).ring.val) :
    exec (.registerWrite (.core w) pa v) s = .next (s.raise k.val { code := 2, faddr := BitVec.ofNat 64 pa.toNat }) :=
  exec_core_write_refused hw hi hp (regAddr_of_aligned h8 (.inr (.inl ⟨c, off, hpl⟩))) hf
    (storeReg_clReg_refused hpl (clReg_offset_aligned hpl h8) (Nat.ne_of_lt k.isLt) hring _)
end

/-! ### Register writes of a host port (R17) -/

theorem host_write_evq {s : State} {h : HostPort} {pa : BitVec 48} (h8 : pa.toNat % 8 = 0) (hpl : placeOf pa.toNat = .devReg 5 h.val 8)
    (hl : PortLive s h) (v : Word) :
    ∃ t : State, exec (.registerWrite (.host h) pa v) s = .next t.hostsDrain ∧ t = { s with hosts := t.hosts }
      ∧ t.host h.val = { s.host h.val with evqp := v.toNat % 2 ^ 6, winb := v.toNat / 2 ^ 8 % 2 ^ 8 } := by
  rw [exec_registerWrite_pa (regAddr_of_aligned h8 (.inr (.inr ⟨5, h.val, 8, hpl⟩))), regWrite_host_own hpl hl, hostRegStore_evq hl]
  exact ⟨_, rfl, rfl, by rw [modHost_host, if_pos rfl]⟩

/-- A register that is not one of the port's own HOST_ registers stays as it is. -/
theorem host_write_elsewhere {s : State} {h : HostPort} {pa : BitVec 48} (h8 : pa.toNat % 8 = 0) (v : Word)
    (hpl : (∃ b i off, placeOf pa.toNat = .devReg b i off ∧ ¬(b = 5 ∧ i = h.val)) ∨ ∃ k off, placeOf pa.toNat = .coreReg k off) :
    exec (.registerWrite (.host h) pa v) s = .next s := by
  rcases hpl with ⟨b, i, off, hpl, hown⟩ | ⟨k, off, hpl⟩
  · rw [exec_registerWrite_pa (regAddr_of_aligned h8 (.inr (.inr ⟨b, i, off, hpl⟩))), regWrite_host_elsewhere]
    intro o ho
    rw [hpl, Place.devReg.injEq] at ho
    exact hown ⟨ho.1, ho.2.1⟩
  · rw [exec_registerWrite_pa (regAddr_of_aligned h8 (.inl ⟨k, off, hpl⟩)), regWrite_host_elsewhere]
    simp [hpl]

/-- Settles O56: each clause is the rule of its block's registers at one address. -/
theorem registersWritten : Obligations.RegistersWritten := by
  unfold Obligations.RegistersWritten
  refine ⟨fun m k v s => ?_, fun s hs => ?_, fun k pa v s p hi hp h8 => ?_, fun h k c ch n v s => ?_, fun h pa v s h8 => ?_⟩
  case refine_1 =>
    refine ⟨fun hv => ⟨fun hm => ?_, fun hm => ?_⟩, fun hv => ⟨fun hm => ?_, fun hm => ?_⟩, fun hm => ?_, fun hm => ?_, fun hm hw => ?_,
      precise_waits, fun hm => ?_, fun hm => ?_, fun hm => ?_, fun hm => ?_, fun hm => ?_, fun n => ⟨fun hm => ?_, fun hm => ⟨fun hr => ?_, ?_⟩⟩⟩
    · exact coreReg_written rfl hm (by decide) (le_coreRegRing_drop (.inl rfl) _) (not_waitsForUnits (by decide))
        (fun _ => congrArg (fun x => { s.core k.val with tile := x }) (tile_ctlWrite_drop _ hv))
    · exact coreReg_written rfl hm (by decide) (le_coreRegRing_drop (.inr rfl) _) (not_waitsForUnits (by decide))
        (fun _ => congrArg (fun x => { s.core k.val with vsu := x }) (vsu_ctlWrite_drop _ hv))
    · exact coreReg_written rfl hm (by decide) (le_coreRegRing_drop (.inl rfl) _) (not_waitsForUnits (by decide))
        (fun _ => congrArg (fun x => { s.core k.val with tile := x }) (tile_ctlWrite_reserved _ hv))
    · exact coreReg_written rfl hm (by decide) (le_coreRegRing_drop (.inr rfl) _) (not_waitsForUnits (by decide))
        (fun _ => congrArg (fun x => { s.core k.val with vsu := x }) (vsu_ctlWrite_reserved _ hv))
    · exact coreReg_written rfl hm (by decide) (le_refl 1) (not_waitsForUnits (by decide)) (fun b => coreRegStore_clrrej b v _)
    · exact coreReg_written rfl hm (by decide) (le_refl 1) (not_waitsForUnits (by decide)) (fun _ => rfl)
    · exact coreReg_written rfl hm (by decide) (le_refl 1) (fun h => hw.elim h.2.1 (fun hq => h.2.2.elim (· hq.1) (· hq.2))) (fun _ => rfl)
    · exact coreReg_registerWritten hm (by decide) (le_refl 1) (fun _ => rfl)
    · obtain ⟨t, ht, hb⟩ := coreReg_registerWritten hm (by decide) (le_refl 1) (fun _ => rfl)
      exact ⟨t, ht, hb, by rw [hb.2.1]; exact coreRegRead_ie _ v⟩
    · exact coreReg_registerWritten hm (by decide) (le_refl 3) (fun _ => rfl)
    · exact coreReg_registerWritten hm (by decide) (le_refl 3) (fun _ => rfl)
    · exact coreReg_registerWritten hm (by decide) (le_refl 1) (fun _ => rfl)
    · obtain ⟨t, ht, hb⟩ := coreReg_registerWritten hm (by omega) (Nat.zero_le _) (fun b => coreRegStore_vbase b n v _)
      exact ⟨t, ht, hb, by rw [hb.2.1]; exact coreRegRead_vbase n _ v⟩
    · exact coreReg_registerWritten hm (by omega) (Nat.zero_le _) (fun b => coreRegStore_dsr_refused b n hr)
    · exact fun hbusy hlt htop =>
        coreReg_registerWritten hm (by omega) (Nat.zero_le _) (fun b => coreRegStore_dsr_taken b n hbusy hlt htop)
  case refine_2 =>
    refine ⟨exec_mbxCtlLock hs, exec_maltster_hbmStatus hs, fun n v => ⟨fun hbad => ?_, fun hl hv => ?_⟩⟩
    · rw [exec_maltster_bind hs, mbx_regStore_bind_refused hbad]
    · refine ⟨_, exec_maltster_bind hs n v, ?_⟩
      rw [mbx_regStore_bind_taken hl hv]
      refine ⟨rfl, ?_, ?_, ?_, ?_, fun j hj => ?_⟩ <;> simp only [modChan_chan, if_true]
      rw [if_neg hj]
  case refine_3 =>
    exact ⟨fun b n off hpl => core_write_devReg_faults rfl hi hp h8 hpl, fun hf =>
      ⟨fun j off hpl => ⟨core_write_foreign_faults rfl hi hp h8 hf hpl, fun hj => core_write_aboveRing_faults rfl hi hp h8 hf (hj ▸ hpl)⟩,
        fun c off hpl => core_write_clReg_aboveRing_faults rfl hi hp h8 hf hpl⟩⟩
  case refine_4 =>
    simp only [List.forall_mem_cons]
    have hk := k.isLt
    exact ⟨host_coreReg_discarded h hk (by decide), host_coreReg_discarded h hk (by decide), host_coreReg_discarded h hk (by decide),
      host_coreReg_discarded h hk (by decide), host_coreReg_discarded h hk (by decide),
      host_clReg_discarded h c.isLt (by decide), host_clReg_discarded h c.isLt (by decide), host_clReg_discarded h c.isLt (by decide),
      host_clReg_discarded h c.isLt (by omega), host_clReg_discarded h c.isLt (by omega), host_clReg_discarded h c.isLt (by decide),
      host_devReg_discarded (b := 1) h (by decide) (by decide), host_devReg_discarded (b := 6) h (by decide) (by decide),
      host_devReg_discarded (b := 6) h (by decide) (by decide), host_devReg_discarded (b := 0) h (by decide) (by decide),
      fun _ hnil => nomatch hnil⟩
  case refine_5 =>
    exact ⟨fun off hpl hl hoff => host_write_evq h8 (hoff ▸ hpl) hl v, host_write_elsewhere h8 v⟩

end Sys2Proof.Proofs
end

section
/-!
PROOFS. Canonical memory (R12, R13, R305, R442): the predicate on what an operation answers, the writes that change addressed
memory or the maltster's own, and every operation of the model built from them.
-/
namespace Sys2Proof.Proofs
open Sys2Proof Sys2Proof.Machine Sys2Proof.Stated Sys2Proof.Laws

/-! ### The canonical form of what an operation answers -/

/-- The next state, where a command has one, is canonical. -/
def NextCanonical : Out → Prop
  | .next t => t.Canonical
  | _ => True

/-- The state that a core's access leaves is canonical. -/
def AccCanonical {α : Type} : Acc α → Prop
  | .ok _ t | .lost t => t.Canonical
  | .ev _ | .wait => True

/-- The state that an access of the vector unit leaves is canonical. -/
def VResCanonical {α : Type} : VRes α → Prop
  | .ok _ t | .lost t => t.Canonical
  | .fault _ => True

/-- The state that a fabric access leaves is canonical. -/
def FabCanonical {α : Type} : Fab α → Prop
  | .ok _ t | .fault _ t => t.Canonical
  | .stall => True

/-- The state that the rows of a tile instruction leave is canonical. -/
def RowsCanonical : RowsRes → Prop
  | .ok _ t | .fault _ _ t | .lost t => t.Canonical

/-- The state that a tile instruction leaves is canonical. -/
def TileCanonical : TileRes → Prop
  | .done t _ | .fault t _ _ _ | .lost t => t.Canonical

/-- The state that an access leaves is canonical, whether it succeeds or fails. -/
def EitherCanonical {ε α : Type} : Except (ε × State) (α × State) → Prop
  | .error e => e.2.Canonical
  | .ok r => r.2.Canonical

/-! ### Memory -/

theorem memWf_filter (p : Host.Cell → Bool) {m : List Host.Cell} (h : Memory.wf m = true) : Memory.wf (m.filter p) = true :=
  memWfFrom_filter m p 0 h

theorem memWf_putCells (cs : List Host.Cell) {m : List Host.Cell} (h : Memory.wf m = true) : Memory.wf (memPutCells m cs) = true :=
  List.foldlRecOn (motive := fun m => Memory.wf m = true) cs _ h (fun m hm e _ => memWf_put m e.1 e.2 hm)

theorem memWf_replace (p : Nat → Bool) (cs : List Host.Cell) {m : List Host.Cell} (h : Memory.wf m = true) :
    Memory.wf (memReplace m p cs) = true := memWf_putCells cs (memWf_filter _ h)

theorem canonical_iff (s : State) : s.Canonical ↔ Memory.wf s.mem = true ∧ Memory.wf s.sram = true := Iff.rfl

/-- What every step of a fold keeps, the fold keeps. -/
theorem foldl_canonical {α : Type} {f : State → α → State} (hf : ∀ s x, s.Canonical → (f s x).Canonical) (l : List α) {s : State}
    (hs : s.Canonical) : (l.foldl f s).Canonical :=
  List.foldlRecOn l f hs (fun s hs x _ => hf s x hs)

theorem ite_canonical {c : Prop} [Decidable c] {a b : State} (ha : a.Canonical) (hb : b.Canonical) : (if c then a else b).Canonical := by
  split <;> assumption

theorem memFilter_canonical {s : State} (hs : s.Canonical) (p : Host.Cell → Bool) :
    ({ s with mem := s.mem.filter p } : State).Canonical := ⟨memWf_filter _ hs.1, hs.2⟩

theorem memReplace_canonical {s : State} (hs : s.Canonical) (p : Nat → Bool) (cs : List Host.Cell) :
    ({ s with mem := memReplace s.mem p cs } : State).Canonical := ⟨memWf_replace _ _ hs.1, hs.2⟩

/-- One step of a recursion on a list, without the equation of the function: the equation of `caskJoins` would evaluate the range of
4096 slots that `Cask.freeSlot` searches. -/
theorem brecOn_cons {α β : Type} (F : (l : List α) → List.below (motive := fun _ => β) l → β) (x : α) (xs : List α) :
    ∃ b, List.brecOn (motive := fun _ => β) (x :: xs) F = F (x :: xs) ⟨List.brecOn (motive := fun _ => β) xs F, b⟩ := ⟨_, rfl⟩

section
variable {s : State} (hs : s.Canonical)
include hs

/-! ### The state -/

theorem setCore_canonical (k : Nat) (c : Core) : (s.setCore k c).Canonical := hs
theorem modCore_canonical (k : Nat) (f : Core → Core) : (s.modCore k f).Canonical := hs
theorem modCluster_canonical (c : Nat) (f : Cluster → Cluster) : (s.modCluster c f).Canonical := hs
theorem setPart_canonical (p : Nat) (x : Part) : (s.setPart p x).Canonical := hs
theorem modPart_canonical (p : Nat) (f : Part → Part) : (s.modPart p f).Canonical := hs
theorem putByte_canonical (a : Nat) (b : Byte) : (s.putByte a b).Canonical := ⟨memWf_put _ _ _ hs.1, hs.2⟩
theorem putBytes_canonical (a : Nat) (bs : List Byte) : (s.putBytes a bs).Canonical := ⟨memWf_putN _ _ _ hs.1, hs.2⟩
theorem zeroRange_canonical (lo n : Nat) : (s.zeroRange lo n).Canonical := ⟨memWf_zero _ _ _ hs.1, hs.2⟩
theorem drawFree_canonical : s.drawFree.2.Canonical := hs

theorem markDirty_canonical (a : Nat) : (s.markDirty a).Canonical := by
  grind [State.markDirty, modPart_canonical, foldl_canonical]

theorem logByte_canonical (a : Nat) : (s.logByte a).Canonical := by grind [State.logByte, markDirty_canonical, setPart_canonical]
theorem placeByte_canonical (a : Nat) (b : Byte) : (s.placeByte a b).Canonical := putByte_canonical (logByte_canonical hs _) _ _

theorem placeBytes_canonical (a : Nat) (xs : List Byte) : (s.placeBytes a xs).Canonical := by
  fun_induction State.placeBytes s a xs <;> grind [State.placeBytes, placeByte_canonical]

theorem placeAt_canonical (xs : List (Nat × Byte)) : (s.placeAt xs).Canonical := by
  fun_induction State.placeAt s xs <;> grind [State.placeAt, placeByte_canonical]

theorem setHbm_canonical (n : Nat) (h : Hbm) : (s.setHbm n h).Canonical := hs
theorem modHbm_canonical (n : Nat) (f : Hbm → Hbm) : (s.modHbm n f).Canonical := hs
theorem detect_canonical (d : Detection) : (s.detect d).Canonical := hs

theorem pcCorrected_canonical (pc a m : Nat) : (s.pcCorrected pc a m).Canonical := by
  grind [State.pcCorrected, detect_canonical, setHbm_canonical]

theorem hbmCorrected_canonical (a m : Nat) : (s.hbmCorrected a m).Canonical := by
  grind [State.hbmCorrected, pcCorrected_canonical]

theorem hbmOnDie_canonical (a : Nat) : (s.hbmOnDie a).Canonical := by grind [State.hbmOnDie, modHbm_canonical]
theorem addPoison_canonical (blk : Nat) : (s.addPoison blk).Canonical := hs
theorem pcUncorrectable_canonical (pc off a m : Nat) (scrub : Bool) : (s.pcUncorrectable pc off a m scrub).Canonical := hs

theorem hbmUncorrectable_canonical (a m : Nat) : (s.hbmUncorrectable a m).Canonical := by
  grind [State.hbmUncorrectable, addPoison_canonical, pcUncorrectable_canonical]

theorem spCorrected_canonical (k : Nat) : (s.spCorrected k).Canonical := hs
theorem spUncorrectable_canonical (k off m : Nat) : (s.spUncorrectable k off m).Canonical := hs
theorem tunCorrected_canonical (c : Nat) : (s.tunCorrected c).Canonical := hs
theorem tunUncorrectable_canonical (c off m : Nat) : (s.tunUncorrectable c off m).Canonical := hs

theorem eccRead_canonical (a m : Nat) (e : Ecc) : (s.eccRead a m e).1.Canonical := by
  unfold State.eccRead
  split <;> grind [hbmCorrected_canonical, hbmOnDie_canonical, hbmUncorrectable_canonical, spCorrected_canonical,
    spUncorrectable_canonical, tunCorrected_canonical, tunUncorrectable_canonical]

theorem eccSpan_canonical (as : List Nat) (m : Nat) (e : Ecc) : (s.eccSpan as m e).1.Canonical := by
  unfold State.eccSpan
  split <;> grind [eccRead_canonical]

theorem eccAll_canonical (as : List Nat) (m : Nat) (h : Hit) : (s.eccAll as m h).1.Canonical := by
  fun_induction State.eccAll s as m h <;> grind [State.eccAll, eccRead_canonical]

theorem placeCells_canonical (cs : List (Nat × Byte)) (m : Nat) : (s.placeCells cs m).Canonical := by
  grind [State.placeCells, eccRead_canonical, placeAt_canonical, foldl_canonical, canonical_iff]

theorem writeCells_canonical (cs : List (Nat × Byte)) (m : Nat) (e : Ecc) : (s.writeCells cs m e).1.Canonical := by
  grind [State.writeCells, eccRead_canonical, placeCells_canonical]

theorem mapPartCores_canonical (p : Nat) (f : Nat → Core → Core) : (s.mapPartCores p f).Canonical := hs
theorem mapPartClusters_canonical (p : Nat) (f : Cluster → Cluster) : (s.mapPartClusters p f).Canonical := hs

theorem abortLaunch_canonical (p : Nat) (a : Abort) : (s.abortLaunch p a).Canonical := by
  grind [State.abortLaunch, mapPartClusters_canonical, mapPartCores_canonical, setPart_canonical]

theorem abortCore_canonical (k : Nat) (a : Abort) : (s.abortCore k a).Canonical := by
  grind [State.abortCore, abortLaunch_canonical]

/-! ### Accesses -/

theorem windowReject_canonical (k off len m : Nat) (r : Rej) : (s.windowReject k off len m r).Canonical := hs

/-! ### Caches and merging buffers -/

theorem entryInPlace_canonical (c line : Nat) : (s.entryInPlace c line).Canonical := by
  grind [State.entryInPlace, modCluster_canonical, placeCells_canonical]

theorem lineInPlace_canonical (c line : Nat) : (s.lineInPlace c line).Canonical := by
  grind [State.lineInPlace, entryInPlace_canonical, foldl_canonical]

theorem allInPlace_canonical (c : Nat) : (s.allInPlace c).Canonical := by
  grind [State.allInPlace, entryInPlace_canonical, foldl_canonical]

theorem l2Line_canonical (c line : Nat) (parity : Bool) : (s.l2Line c line parity).2.Canonical := by
  unfold State.l2Line
  dsimp only
  split <;> grind [drawFree_canonical, lineInPlace_canonical, modCluster_canonical]

theorem l1Line_canonical (k line : Nat) (instrSide l1par l2par : Bool) : (s.l1Line k line instrSide l1par l2par).2.Canonical := by
  unfold State.l1Line
  split <;> grind [drawFree_canonical, l2Line_canonical, modCore_canonical]

theorem cachedBytes_canonical (k : Nat) (l1par l2par : Bool) (xs : List Nat) : (s.cachedBytes k l1par l2par xs).2.Canonical := by
  fun_induction State.cachedBytes s k l1par l2par xs <;> grind [State.cachedBytes, l1Line_canonical]

theorem cachedStore_canonical {t : State} (k a : Nat) (bs : List Byte) (h : Finding) (stamp : Nat) :
    s.cachedStore k a bs h stamp = some t → t.Canonical := by
  grind [State.cachedStore, modCluster_canonical, modCore_canonical]

theorem l2Refresh_canonical (c : Nat) : (s.l2Refresh c).Canonical := hs

theorem linesInPlace_canonical (c : Nat) (p : Nat → Bool) : (s.linesInPlace c p).Canonical := by
  grind [State.linesInPlace, entryInPlace_canonical, foldl_canonical]

theorem l2WorkDone_canonical (c : Nat) (w : L2Work) : (s.l2WorkDone c w).Canonical := by
  unfold State.l2WorkDone
  split <;> grind [linesInPlace_canonical, modCluster_canonical]

/-! ### Events of a core -/

theorem stackPut_canonical (k a : Nat) (v : Word) : (s.stackPut k a v).Canonical := by
  unfold State.stackPut
  split
  · exact ⟨hs.1, memWf_putN _ _ _ hs.2⟩
  · exact placeBytes_canonical hs _ _

theorem outClears_canonical (k : Nat) (out : List Nat) : (s.outClears k out).Canonical := hs

theorem spill_canonical (k ptr : Nat) (xs : List Word) (n : Nat) : (s.spill k ptr xs n).2.Canonical := by
  grind [State.spill, outClears_canonical, stackPut_canonical, foldl_canonical]

theorem stackApply_canonical (k : Nat) (b : Bank) (x : Stk) (pops : Nat) (pushes : List Word) :
    (s.stackApply k b x pops pushes).1.Canonical :=
  spill_canonical hs _ _ _ _

theorem stackEffect_canonical (k : Nat) (x : Stk) (pops : Nat) (pushes : List Word) : (s.stackEffect k x pops pushes).Canonical :=
  modCore_canonical (stackApply_canonical hs _ _ _ _ _) _ _

theorem enter_canonical (k : Nat) (ev : Ev) (e : Entry) (rpc : Word) : (s.enter k ev e rpc).Canonical := by
  grind [State.enter, modCore_canonical, spill_canonical, stackApply_canonical]

theorem stopCore_canonical (k : Nat) : (s.stopCore k).Canonical := hs
theorem stopAt_canonical (k pa : Nat) : (s.stopAt k pa).Canonical := eccRead_canonical hs _ _ _
theorem haltCore_canonical (k : Nat) : (s.haltCore k).Canonical := abortCore_canonical (modCore_canonical hs _ _) _ _

theorem spillFails_canonical {t : State} (k : Nat) (m : Fin 4) (h : Ecc) : s.spillFails k m h = some t → t.Canonical := by
  grind [State.spillFails, eccRead_canonical]

theorem tryEnter_canonical (k : Nat) (ev : Ev) (e : Entry) (rpc : Word) (h : Ecc) :
    ∀ t, s.tryEnter k ev e rpc h = .ok t ∨ s.tryEnter k ev e rpc h = .error t → t.Canonical := by
  grind [State.tryEnter, enter_canonical, spillFails_canonical]

theorem entryFailed_canonical (k : Nat) (ev : Ev) (rpc : Word) : (s.entryFailed k ev rpc).Canonical := by
  grind [State.entryFailed, haltCore_canonical, tryEnter_canonical]

theorem takeEvent_canonical (k : Nat) (ev : Ev) (e : Entry) (rpc : Word) (h : Ecc) : (s.takeEvent k ev e rpc h).Canonical := by
  grind [State.takeEvent, entryFailed_canonical, tryEnter_canonical]

theorem raise_canonical (k : Nat) (ev : Ev) : (s.raise k ev).Canonical := takeEvent_canonical hs _ _ _ _ _

theorem takePending_canonical {t : State} (k : Nat) (h : Ecc) : s.takePending k h = some t → t.Canonical := by
  grind [State.takePending, entryFailed_canonical, modCore_canonical, setCore_canonical, tryEnter_canonical]

/-! ### Mailboxes, completion rings and replies -/

theorem modGroup_canonical (g : Nat) (f : NetGroup → NetGroup) : (s.modGroup g f).Canonical := hs
theorem modNetPort_canonical (n : Nat) (f : Port → Port) : (s.modNetPort n f).Canonical := hs
theorem modHost_canonical (h : Nat) (f : HostS → HostS) : (s.modHost h f).Canonical := hs
theorem modQp_canonical (h q : Nat) (f : Qp → Qp) : (s.modQp h q f).Canonical := hs
theorem send_canonical (x : Sent) : (s.send x).Canonical := hs

theorem freeBytes_canonical (n : Nat) : (s.freeBytes n).2.Canonical := by
  fun_induction State.freeBytes s n <;> grind [State.freeBytes, drawFree_canonical]

theorem modMb_canonical (n : Nat) (f : MbChan → MbChan) : (s.modMb n f).Canonical := hs

theorem mbAccept_canonical (ch notice : Nat) : (s.mbAccept ch notice).Canonical := by
  grind [State.mbAccept, modCore_canonical, modMb_canonical, send_canonical]

theorem mbPost_canonical {t : State} (ch sender notice : Nat) : s.mbPost ch sender notice = .ok t → t.Canonical := by
  grind [State.mbPost, mbAccept_canonical]

theorem mbTake_canonical (ch : Nat) : (s.mbTake ch).2.2.Canonical := hs
theorem qpError_canonical (h q : Nat) : (s.qpError h q).Canonical := hs

theorem ringWrite_canonical (h q : Nat) (ws : List Word) : (s.ringWrite h q ws).2.Canonical := by
  grind [State.ringWrite, modQp_canonical, qpError_canonical, send_canonical]

theorem retire_canonical (src : CmdSrc) (ws : List Word) : (s.retire src ws).Canonical := by grind [State.retire, canonical_iff]

theorem reply_canonical (h : HostPort) (q : Fin 64) (ws : List Word) : (s.reply h q ws).Canonical := by
  grind [State.reply, modQp_canonical, retire_canonical, ringWrite_canonical]

theorem releaseHeld_canonical (h : HostPort) (q : Fin 64) (n : Nat) : (State.releaseHeld h q n s).Canonical := by
  fun_induction State.releaseHeld h q n s <;> grind [State.releaseHeld, modQp_canonical, retire_canonical, ringWrite_canonical]

theorem replyTo_canonical (src : CmdSrc) (op tag : Nat) (r : Result) : (s.replyTo src op tag r).Canonical := by
  unfold State.replyTo
  split <;> grind [reply_canonical, retire_canonical, send_canonical]

theorem conclude_canonical (c : Cmd) (r : Result) : (s.conclude c r).Canonical := by
  grind [State.conclude, replyTo_canonical, canonical_iff]

theorem nopSteps_canonical (n : Nat) : (State.nopSteps n s).Canonical := by
  fun_induction State.nopSteps n s <;> grind [State.nopSteps, conclude_canonical]

theorem nopSweep_canonical : s.nopSweep.Canonical := nopSteps_canonical hs _
theorem finish_canonical (c : Cmd) (r : Result) : (s.finish c r).Canonical := nopSweep_canonical (conclude_canonical hs _ _)
theorem modCmd_canonical (c : Cmd) (f : Cmd → Cmd) : (s.modCmd c f).Canonical := hs

theorem hostEvent_canonical (h code d : Nat) (c2 c3 : Word) : (s.hostEvent h code d c2 c3).Canonical := by
  grind [State.hostEvent, modHost_canonical, ringWrite_canonical]

theorem partEvent_canonical (p code d : Nat) (c2 c3 : Word) : (s.partEvent p code d c2 c3).Canonical := by
  grind [State.partEvent, hostEvent_canonical]

theorem everyEvent_canonical (code d : Nat) (c2 c3 : Word) : (s.everyEvent code d c2 c3).Canonical := by
  grind [State.everyEvent, partEvent_canonical, foldl_canonical]

/-! ### Clocks -/

theorem divApply_canonical : s.divApply.Canonical := hs
theorem capApply_canonical (l : Nat) : (s.capApply l).Canonical := hs
theorem alertUpdate_canonical : s.alertUpdate.Canonical := hs
theorem setCfgDiv_canonical (c v : Nat) : (s.setCfgDiv c v).Canonical := hs
theorem pwrCapWrite_canonical (steps : Nat) : (s.pwrCapWrite steps).Canonical := by grind [State.pwrCapWrite, canonical_iff]

theorem clkRegStore_canonical (off : Nat) (v : Word) : (s.clkRegStore off v).Canonical := by
  grind [State.clkRegStore, pwrCapWrite_canonical, setCfgDiv_canonical, canonical_iff]

/-! ### Registers of a cluster -/

theorem clusterRegStore_canonical (maltster : Bool) (c off : Nat) (v : Word) : (clusterRegStore maltster c off v s).Canonical :=
  hs

/-! ### Connections -/

theorem modConn_canonical (p ci : Nat) (f : Conn → Conn) : (s.modConn p ci f).Canonical := hs

theorem keepFrame_canonical (n : Nat) (t : TxFrame) : (s.keepFrame n t).Canonical := by
  grind [State.keepFrame, modNetPort_canonical]

theorem txPut_canonical (n : Nat) (t : TxFrame) : (s.txPut n t).Canonical := by
  grind [State.txPut, modNetPort_canonical, send_canonical]

theorem tx_canonical (n : Nat) (t : TxFrame) : (s.tx n t).Canonical := txPut_canonical (keepFrame_canonical hs _ _) _ _

theorem txRelease_canonical (n : Nat) : (s.txRelease n).Canonical := by
  grind [State.txRelease, modNetPort_canonical, send_canonical, foldl_canonical]

theorem cltFrame_canonical (c : Conn) (ci path : Nat) (control : Bool) (words : List Word) (payload : List Byte) :
    (s.cltFrame c ci path control words payload).Canonical :=
  tx_canonical hs _ _

theorem cltPacket_canonical (p ci : Nat) (c : Conn) (path : Nat) (o : CltOp) (rtx : Bool) :
    (s.cltPacket p ci c path o rtx).Canonical := by
  grind [State.cltPacket, cltFrame_canonical, modGroup_canonical]

theorem cltSendOn_canonical (p ci : Nat) (c : Conn) (o : CltOp) (path n : Nat) (rtx : Bool) :
    (s.cltSendOn p ci c o path n rtx).Canonical :=
  cltPacket_canonical hs _ _ _ _ _ _

theorem cltSend_canonical (p ci psn : Nat) (rtx : Bool) : (s.cltSend p ci psn rtx).Canonical := by
  grind [State.cltSend, cltSendOn_canonical, modConn_canonical]

theorem cltPump_canonical (p ci : Nat) : (s.cltPump p ci).Canonical := by
  grind [State.cltPump, cltSend_canonical, foldl_canonical]

theorem cltIssue_canonical (p ci : Nat) (o : CltOp) : (s.cltIssue p ci o).Canonical :=
  cltPump_canonical (modConn_canonical hs _ _ _) _ _

theorem padAccum_canonical (o : CltOp) : (s.padAccum o).2.Canonical := by grind [State.padAccum, drawFree_canonical]

theorem cltFlush_canonical (p ci stream : Nat) : (s.cltFlush p ci stream).Canonical := by
  grind [State.cltFlush, cltIssue_canonical, modConn_canonical, padAccum_canonical]

theorem cltFlushStream_canonical (p stream : Nat) : (s.cltFlushStream p stream).Canonical := by
  grind [State.cltFlushStream, cltFlush_canonical, foldl_canonical]

theorem cltWriteByte_canonical (p ci rk stream pva page stamp : Nat) (b : Byte) :
    (s.cltWriteByte p ci rk stream pva page stamp b).Canonical := by
  grind [State.cltWriteByte, cltFlush_canonical, modConn_canonical]

theorem cltFull_canonical (p ci stream : Nat) : (s.cltFull p ci stream).Canonical := by grind [State.cltFull, cltFlush_canonical]

theorem cltWrite_canonical (p ci rk stream pva page stamp : Nat) (xs : List Byte) :
    (s.cltWrite p ci rk stream pva page stamp xs).Canonical := by
  fun_induction State.cltWrite s p ci rk stream pva page stamp xs <;> grind [State.cltWrite, cltFull_canonical,
    cltWriteByte_canonical]

theorem cltPost_canonical (p ci stream ch notice : Nat) (origin : Option Nat) :
    (s.cltPost p ci stream ch notice origin).Canonical :=
  cltIssue_canonical (cltFlushStream_canonical hs _ _) _ _ _

/-! ### Ports of the network -/

theorem cltMove_canonical (p ci port : Nat) : (s.cltMove p ci port).Canonical := by
  unfold State.cltMove
  split <;> grind [cltSendOn_canonical, foldl_canonical]

theorem pathsDown_canonical (p port : Nat) : (s.pathsDown p port).Canonical := by
  grind [State.pathsDown, cltMove_canonical, modPart_canonical, foldl_canonical]

theorem portOff_canonical (g i : Nat) : (s.portOff g i).Canonical := by
  grind [State.portOff, modGroup_canonical, pathsDown_canonical]

theorem portDown_canonical (g i : Nat) : (s.portDown g i).Canonical := by
  grind [State.portDown, modGroup_canonical, partEvent_canonical, portOff_canonical]

theorem portTrain_canonical (g i : Nat) : (s.portTrain g i).Canonical := by
  grind [State.portTrain, modGroup_canonical, send_canonical]

theorem laneMark_canonical (lane : Nat) (failed : Bool) : (s.laneMark lane failed).Canonical := by
  grind [State.laneMark, modGroup_canonical, portDown_canonical]

theorem laneTrain_canonical (lane : Nat) : (s.laneTrain lane).Canonical := by grind [State.laneTrain, portTrain_canonical]

theorem groupMode_canonical (g mode : Nat) : (s.groupMode g mode).Canonical := by
  grind [State.groupMode, modGroup_canonical, portDown_canonical, portTrain_canonical, foldl_canonical]

theorem netCfgWrite_canonical (g : Nat) (v : Word) : (s.netCfgWrite g v).Canonical := by
  grind [State.netCfgWrite, groupMode_canonical, modGroup_canonical]

theorem pfcCfgWrite_canonical (g : Nat) (v : Word) : (s.pfcCfgWrite g v).Canonical := by
  grind [State.pfcCfgWrite, modGroup_canonical, txRelease_canonical, foldl_canonical]

/-! ### Registers of a host port -/

theorem qpDiscard_canonical (h q : Nat) : (s.qpDiscard h q).Canonical := nopSweep_canonical hs
theorem hostCfgErr_canonical (h off : Nat) : (s.hostCfgErr h off).Canonical := hs

theorem qpSqWrite_canonical (hp : HostPort) (qn : Fin 64) (v : Word) : (s.qpSqWrite hp qn v).Canonical := by
  grind [State.qpSqWrite, hostCfgErr_canonical, modQp_canonical, nopSweep_canonical, qpDiscard_canonical, releaseHeld_canonical]

theorem qpCqWrite_canonical (h q : Nat) (v : Word) : (s.qpCqWrite h q v).Canonical := by
  grind [State.qpCqWrite, hostCfgErr_canonical, modQp_canonical]

theorem qpSqtWrite_canonical (h q idx : Nat) : (s.qpSqtWrite h q idx).Canonical := by
  grind [State.qpSqtWrite, modQp_canonical, qpError_canonical]

theorem qpCqhWrite_canonical (h : HostPort) (q : Fin 64) (idx : Nat) : (s.qpCqhWrite h q idx).Canonical := by
  grind [State.qpCqhWrite, modQp_canonical, nopSweep_canonical, qpError_canonical, releaseHeld_canonical]

theorem hostPost_canonical (h ch notice : Nat) : (s.hostPost h ch notice).Canonical := by
  grind [State.hostPost, mbPost_canonical, modHost_canonical]

theorem hostMbPost_canonical (h ch notice : Nat) : (s.hostMbPost h ch notice).Canonical := hs

theorem hostPolled_canonical (h ch : Nat) : (s.hostPolled h ch).Canonical := by
  grind [State.hostPolled, mbTake_canonical, modHost_canonical]

theorem hostRegStore_canonical (h : HostPort) (off : Nat) (v : Word) : (s.hostRegStore h off v).Canonical := by
  unfold State.hostRegStore
  split
  · exact hs
  split
  · exact hs
  split
  · exact hs
  split
  · dsimp only
    split
    exacts [qpSqWrite_canonical hs _ _ _, qpCqWrite_canonical hs _ _ _, qpSqtWrite_canonical hs _ _ _, qpCqhWrite_canonical hs _ _
      _, hs]
  split
  · exact hostMbPost_canonical hs _ _ _
  · exact hs

theorem execSqDoorbell_canonical (h : HostPort) (q : Fin 64) (idx : BitVec 12) : NextCanonical (execSqDoorbell h q idx s) := by
  grind [execSqDoorbell, qpSqtWrite_canonical, NextCanonical]

theorem execCqHeadWrite_canonical (h : HostPort) (q : Fin 64) (idx : BitVec 12) : NextCanonical (execCqHeadWrite h q idx s) := by
  grind [execCqHeadWrite, qpCqhWrite_canonical, NextCanonical]

theorem execQpEnable_canonical (h : HostPort) (q : Fin 64) (v : Word) : NextCanonical (execQpEnable h q v s) := by
  grind [execQpEnable, qpSqWrite_canonical, NextCanonical]

theorem execHostMbpoll_canonical (h : HostPort) (ch : BitVec 8) : NextCanonical (execHostMbpoll h ch s) := by
  grind [execHostMbpoll, hostPolled_canonical, send_canonical, NextCanonical]

/-! ### Resets -/

theorem bootFail_canonical (code : Nat) : (s.bootFail code).Canonical := hs
theorem bootLocked_canonical : s.bootLocked.Canonical := by grind [State.bootLocked, bootFail_canonical, canonical_iff]
theorem trainHost_canonical (h : Nat) : (s.trainHost h).Canonical := by grind [State.trainHost, modHost_canonical, send_canonical]
theorem trainHosts_canonical : s.trainHosts.Canonical := by grind [State.trainHosts, trainHost_canonical, foldl_canonical]

omit hs in
theorem coldState_canonical : s.coldState.Canonical := ⟨rfl, rfl⟩

theorem warmState_canonical (cause : Nat) : (s.warmState cause).Canonical := ⟨hs.1, rfl⟩

theorem warmReset_canonical (cause : Nat) : (s.warmReset cause).Canonical := by
  grind [State.warmReset, bootLocked_canonical, trainHosts_canonical, warmState_canonical]

theorem coldEnd_canonical (bootsel : BitVec 2) (smb : BitVec 3) : (s.coldEnd bootsel smb).Canonical := by
  grind [State.coldEnd, bootFail_canonical, trainHosts_canonical, canonical_iff]

/-! ### Registers of the device -/

theorem maltRegStore_canonical (off : Nat) (v : Word) : (s.maltRegStore off v).Canonical := by
  grind [State.maltRegStore, warmReset_canonical, canonical_iff]

theorem netRegStore_canonical (g off : Nat) (v : Word) : (s.netRegStore g off v).Canonical := by
  unfold State.netRegStore
  split <;> grind [modGroup_canonical, netCfgWrite_canonical, pfcCfgWrite_canonical]

theorem errRegStore_canonical (off : Nat) (v : Word) : (s.errRegStore off v).Canonical := by
  grind [State.errRegStore, canonical_iff]

theorem devRegStore_canonical (blk inst off : Nat) (v : Word) : (devRegStore s blk inst off v).Canonical := by
  unfold devRegStore
  split
  exacts [maltRegStore_canonical hs _ _, hs, hs, hs, netRegStore_canonical hs _ _ _, hostRegStore_canonical hs _ _ _,
    clkRegStore_canonical hs _ _, errRegStore_canonical hs _ _, hs]

/-! ### Accesses of a host -/

theorem readEffect_canonical (pa : Nat) : (s.readEffect pa).Canonical := by grind [State.readEffect, hostPolled_canonical]
theorem bar2Fail_canonical (h o reason : Nat) : (s.bar2Fail h o reason).Canonical := hs

theorem cltFeed_canonical (p ci rk stream pva page : Nat) (xs : List Byte) :
    (s.cltFeed p ci rk stream pva page xs).1.Canonical := by
  fun_induction State.cltFeed s p ci rk stream pva page xs <;> grind [State.cltFeed, cltFull_canonical, cltWriteByte_canonical]

theorem bar2Feed_canonical (h p o ci rk pva page : Nat) (bs : List Byte) : (s.bar2Feed h p o ci rk pva page bs).1.Canonical :=
  cltFeed_canonical hs _ _ _ _ _ _ _

theorem bar2Write_canonical (h p o : Nat) (bs : List Byte) (e : Ecc) : (s.bar2Write h p o bs e).1.Canonical := by
  grind [State.bar2Write, bar2Fail_canonical, bar2Feed_canonical, cltPost_canonical, eccRead_canonical, windowReject_canonical,
    writeCells_canonical, foldl_canonical]

theorem bar2Data_canonical (p h va n : Nat) (e : Hit) : (s.bar2Data p h va n e).2.Canonical := by
  grind [State.bar2Data, eccAll_canonical]

theorem hostServe_canonical (h : HostPort) (x : HostHold) (e : Hit) : (s.hostServe h x e).1.Canonical := by
  unfold State.hostServe
  split <;> grind [bar2Data_canonical, bar2Fail_canonical, bar2Feed_canonical, bar2Write_canonical, cltFlushStream_canonical,
    hostPost_canonical, send_canonical]

theorem hostRun_canonical (h : HostPort) (xs : List HostHold) : (State.hostRun h xs s).Canonical := by
  fun_induction State.hostRun h xs s <;> grind [State.hostRun, hostServe_canonical, modHost_canonical]

theorem hostDrain_canonical (h : HostPort) : (s.hostDrain h).Canonical := by grind [State.hostDrain, hostRun_canonical]
theorem hostsDrain_canonical : s.hostsDrain.Canonical := by grind [State.hostsDrain, hostDrain_canonical, foldl_canonical]

theorem hostAsk_canonical (h : HostPort) (x : HostHold) (e : Hit) : (s.hostAsk h x e).Canonical := by
  grind [State.hostAsk, hostServe_canonical, modHost_canonical]

theorem execBar2Read_canonical (h : HostPort) (o : BitVec 40) (n : Fin 4096) (e : Hit) :
    NextCanonical (execBar2Read h o n e s) := by
  grind [execBar2Read, hostAsk_canonical, NextCanonical]

theorem execBar2Write_canonical (h : HostPort) (o : BitVec 40) (bs : List Byte) (e : Hit) :
    NextCanonical (execBar2Write h o bs e s) := by
  grind [execBar2Write, hostAsk_canonical, NextCanonical]

theorem execHostMbpost_canonical (h : HostPort) (ch : BitVec 8) (notice : BitVec 32) :
    NextCanonical (execHostMbpost h ch notice s) := by
  grind [execHostMbpost, hostAsk_canonical, NextCanonical]

/-! ### Operands and completion of an instruction -/

theorem fetchLine_canonical (k va : Nat) : (s.fetchLine k va).Canonical := by
  grind [State.fetchLine, l1Line_canonical, canonical_iff]

theorem fetched_canonical (k n : Nat) : (s.fetched k n).Canonical := by
  grind [State.fetched, fetchLine_canonical, modCore_canonical]

theorem coreInstr_canonical (k : CoreId) (x : Shape) (body : State → Out) (hbody : ∀ u, u.Canonical → NextCanonical (body u)) :
    NextCanonical (coreInstr k x body s) := by
  grind [coreInstr, fetched_canonical, raise_canonical, stopAt_canonical, takePending_canonical, NextCanonical]

theorem advance_canonical (k n : Nat) : (s.advance k n).Canonical := hs
theorem jump_canonical (k : Nat) (a : Word) : (s.jump k a).Canonical := hs

theorem stackInstr_canonical (k : CoreId) (i : Instr) (n m : Nat) (f : List Word → List Word) :
    NextCanonical (stackInstr k i n m f s) := by
  grind [stackInstr, advance_canonical, coreInstr_canonical, stackEffect_canonical, NextCanonical]

theorem waitAt_canonical (k : Nat) (i : Instr) : (s.waitAt k i).Canonical := hs

/-! ### Loads and stores -/

theorem loadBytes_canonical (k : Nat) (a : Word) (n : Nat) (h : Finding) : AccCanonical (s.loadBytes k a n h) := by
  grind [State.loadBytes, cachedBytes_canonical, eccRead_canonical, readEffect_canonical, AccCanonical]

theorem regValue_canonical (pa : Nat) (bs : List Byte) : (s.regValue pa bs).2.Canonical := by
  grind [State.regValue, drawFree_canonical]

theorem storeReg_canonical (k : Nat) (a : Word) (pa : Nat) (bs : List Byte) : AccCanonical (s.storeReg k a pa bs) := by
  grind [State.storeReg, clusterRegStore_canonical, devRegStore_canonical, hostsDrain_canonical, modCore_canonical,
    regValue_canonical, AccCanonical]

theorem bump_canonical (k : Nat) : (s.bump k).Canonical := hs

theorem enqueueFlag_canonical {t : State} (k : Nat) (op : FqOp) : s.enqueueFlag k op = some t → t.Canonical := by
  grind [State.enqueueFlag, cltFlushStream_canonical, modCore_canonical]

theorem storeBytes_canonical (k : Nat) (a : Word) (bs : List Byte) (h : Finding) : AccCanonical (s.storeBytes k a bs h) := by
  unfold State.storeBytes
  dsimp only
  repeat' split
  all_goals grind [bump_canonical, cachedStore_canonical, cltWrite_canonical, eccRead_canonical, enqueueFlag_canonical,
    modCore_canonical, placeCells_canonical, storeReg_canonical, AccCanonical]

/-! ### System instructions -/

theorem parkAtYield_canonical (k n : Nat) (arg : Word) : (s.parkAtYield k n arg).Canonical := by
  grind [State.parkAtYield, modCore_canonical]

theorem unbarred_canonical (k : Nat) (b : Option StackBar) (go : Out) (hgo : NextCanonical go) :
    NextCanonical (s.unbarred k b go) := by
  unfold State.unbarred
  split <;> grind [raise_canonical, stopAt_canonical, NextCanonical]

theorem execTrap_canonical (k : CoreId) (n : BitVec 8) (h : Ecc) : NextCanonical (execTrap k n h s) := by
  grind [execTrap, coreInstr_canonical, eccRead_canonical, parkAtYield_canonical, raise_canonical, stopCore_canonical,
    takeEvent_canonical, unbarred_canonical, NextCanonical]

theorem gretSame_canonical (k n : Nat) : (s.gretSame k n).Canonical := hs

theorem gretCross_canonical (k n : Nat) (dst : Fin 4) : (s.gretCross k n dst).Canonical := by
  grind [State.gretCross, modCore_canonical, stackApply_canonical]

theorem execGret_canonical (k : CoreId) (n : Fin 8) : NextCanonical (execGret k n s) := by
  grind [execGret, coreInstr_canonical, gretCross_canonical, gretSame_canonical, modCore_canonical, raise_canonical,
    unbarred_canonical, NextCanonical]

theorem drainCore_canonical (k : Nat) : (s.drainCore k).Canonical := by grind [State.drainCore, modCluster_canonical]
theorem taskEnd_canonical (k : Nat) : (s.taskEnd k).Canonical := by grind [State.taskEnd, modCore_canonical, modPart_canonical]

theorem execTend_canonical (k : CoreId) : NextCanonical (execTend k s) := by
  grind [execTend, cltFlushStream_canonical, coreInstr_canonical, drainCore_canonical, taskEnd_canonical, waitAt_canonical,
    NextCanonical]

theorem execWaiti_canonical (k : CoreId) : NextCanonical (execWaiti k s) := by
  grind [execWaiti, advance_canonical, coreInstr_canonical, waitAt_canonical, NextCanonical]

theorem readTime_canonical : s.readTime.2.Canonical := by grind [State.readTime, drawFree_canonical]

theorem execRdtime_canonical (k : CoreId) : NextCanonical (execRdtime k s) := by
  grind [execRdtime, advance_canonical, coreInstr_canonical, readTime_canonical, stackEffect_canonical, NextCanonical]

theorem execRdcyc_canonical (k : CoreId) : NextCanonical (execRdcyc k s) := by
  grind [execRdcyc, advance_canonical, coreInstr_canonical, drawFree_canonical, stackEffect_canonical, NextCanonical]

theorem execRddsp_canonical (k : CoreId) : NextCanonical (execRddsp k s) := by
  grind [execRddsp, advance_canonical, coreInstr_canonical, stackEffect_canonical, NextCanonical]

theorem execRdrsp_canonical (k : CoreId) : NextCanonical (execRdrsp k s) := by
  grind [execRdrsp, advance_canonical, coreInstr_canonical, stackEffect_canonical, NextCanonical]

theorem execEventEntry_canonical (k : CoreId) (h : Ecc) : NextCanonical (execEventEntry k h s) := by
  grind [execEventEntry, takePending_canonical, NextCanonical]

/-! ### Flags and queues -/

theorem flagPut_canonical (t : FlagTarget) (v : Bool) : (s.flagPut t v).Canonical := by
  unfold State.flagPut
  split <;> grind [modCluster_canonical, modCore_canonical]

theorem setCounter_canonical (k c v : Nat) : (s.setCounter k c v).Canonical := hs

theorem flagLimit_canonical (k c source : Nat) (a : FlagAct) : (s.flagLimit k c source a).Canonical :=
  abortCore_canonical (modCore_canonical hs _ _) _ _

theorem presentedDone_canonical (k : Nat) : (s.presentedDone k).Canonical := hs

theorem countApply_canonical (m : FlagMsg) (k c : Nat) : (s.countApply m k c).Canonical := by
  grind [State.countApply, flagLimit_canonical, modCore_canonical, presentedDone_canonical, raise_canonical, setCounter_canonical]

theorem flagCycle_canonical (t : FlagTarget) (ms : List FlagMsg) : (s.flagCycle t ms).Canonical := by
  unfold State.flagCycle
  split <;> grind [countApply_canonical, flagPut_canonical, foldl_canonical]

theorem execFlagArrival_canonical (t : FlagTarget) (n : Nat) : NextCanonical (execFlagArrival t n s) := by
  grind [execFlagArrival, flagCycle_canonical, NextCanonical, canonical_iff]

theorem flagSend_canonical (m : FlagMsg) : (s.flagSend m).Canonical := hs

theorem flagIssue_canonical (k : CoreId) (i : Instr) (op : FqOp) : NextCanonical (flagIssue k i op s) := by
  grind [flagIssue, advance_canonical, coreInstr_canonical, enqueueFlag_canonical, waitAt_canonical, NextCanonical]

theorem flagTest_canonical (k : CoreId) (i : Instr) (t : FlagTarget) : NextCanonical (flagTest k i t s) := by
  grind [flagTest, advance_canonical, coreInstr_canonical, stackEffect_canonical, waitAt_canonical, NextCanonical]

theorem flagWait_canonical (k : CoreId) (i : Instr) (t : FlagTarget) : NextCanonical (flagWait k i t s) := by
  grind [flagWait, advance_canonical, coreInstr_canonical, waitAt_canonical, NextCanonical]

theorem execFwatch_canonical (k : CoreId) (f : Fin 64) : NextCanonical (execFwatch k f s) := by
  grind [execFwatch, advance_canonical, coreInstr_canonical, modCore_canonical, NextCanonical]

theorem countIssue_canonical (k : CoreId) (i : Instr) (c : Fin 16) (a : FlagAct) : NextCanonical (countIssue k i c a s) := by
  grind [countIssue, coreInstr_canonical, drainCore_canonical, enqueueFlag_canonical, modCore_canonical, waitAt_canonical,
    NextCanonical]

theorem execCfread_canonical (k : CoreId) (c : Fin 16) : NextCanonical (execCfread k c s) := by
  grind [execCfread, advance_canonical, coreInstr_canonical, stackEffect_canonical, waitAt_canonical, NextCanonical]

theorem execCfwait_canonical (k : CoreId) (c : Fin 16) : NextCanonical (execCfwait k c s) := by
  grind [execCfwait, advance_canonical, coreInstr_canonical, raise_canonical, stackEffect_canonical, waitAt_canonical,
    NextCanonical]

theorem execFenceF_canonical (k : CoreId) : NextCanonical (execFenceF k s) := by
  grind [execFenceF, advance_canonical, coreInstr_canonical, waitAt_canonical, NextCanonical]

theorem remoteFlag_canonical (k : CoreId) (i : Instr) (a : FlagAct) : NextCanonical (remoteFlag k i a s) := by
  grind [remoteFlag, advance_canonical, coreInstr_canonical, enqueueFlag_canonical, raise_canonical, stackEffect_canonical,
    waitAt_canonical, NextCanonical]

theorem execMbpost_canonical (k : CoreId) (ch : BitVec 8) : NextCanonical (execMbpost k ch s) := by
  grind [execMbpost, advance_canonical, cltFlushStream_canonical, coreInstr_canonical, drainCore_canonical, mbPost_canonical,
    raise_canonical, stackEffect_canonical, waitAt_canonical, NextCanonical]

theorem execMbpoll_canonical (k : CoreId) (ch : BitVec 8) : NextCanonical (execMbpoll k ch s) := by
  grind [execMbpoll, advance_canonical, coreInstr_canonical, mbTake_canonical, raise_canonical, stackEffect_canonical,
    NextCanonical]

/-! ### The fabric -/

theorem fabRead_canonical (g : Agent) (va : Nat) (h : Hit) (n : Nat) : FabCanonical (fabRead g s va h n) := by
  fun_induction fabRead g s va h n <;> grind [fabRead, eccRead_canonical, FabCanonical]

theorem fabWrite1_canonical (g : Agent) (va : Nat) (bs : List Byte) (h : Ecc) : FabCanonical (fabWrite1 g s va bs h) := by
  grind [fabWrite1, cltWrite_canonical, windowReject_canonical, writeCells_canonical, FabCanonical]

theorem fabWrite_canonical (g : Agent) (va : Nat) (bs : List Byte) (h : Hit) (n : Nat) :
    FabCanonical (fabWrite g s va bs h n) := by
  fun_induction fabWrite g s va bs h n <;> grind [fabWrite, fabWrite1_canonical, FabCanonical]

/-! ### DMA -/

theorem modDma_canonical (c : Nat) (f : Dma → Dma) : (s.modDma c f).Canonical := hs
theorem modDmaChan_canonical (c ch : Nat) (f : DmaChan → DmaChan) : (s.modDmaChan c ch f).Canonical := hs
theorem modListRun_canonical (p num : Nat) (f : ListRun → ListRun) : (s.modListRun p num f).Canonical := hs
theorem listQueue_canonical (p c ch a : Nat) : (s.listQueue p c ch a).Canonical := hs

theorem listEnter_canonical (p c ch n : Nat) : (s.listEnter p c ch n).Canonical := by
  fun_induction State.listEnter s p c ch n <;> grind [State.listEnter, listQueue_canonical, modDmaChan_canonical]

theorem execDmaq_canonical (k : CoreId) (c : Fin 16) : NextCanonical (execDmaq k c s) := by
  grind [execDmaq, advance_canonical, coreInstr_canonical, enqueueFlag_canonical, raise_canonical, stackEffect_canonical,
    waitAt_canonical, NextCanonical]

theorem execDmaw_canonical (k : CoreId) (c : Fin 16) : NextCanonical (execDmaw k c s) := by
  grind [execDmaw, advance_canonical, coreInstr_canonical, waitAt_canonical, NextCanonical]

theorem fetchDesc_canonical (g : Agent) (c a : Nat) (h : Hit) : FabCanonical (fetchDesc g s c a h) := by
  grind [fetchDesc, fabRead_canonical, FabCanonical]

theorem fetchBurst_canonical (g : Agent) (c a : Nat) (h : Hit) (n : Nat) : (fetchBurst g c s a h n).2.2.2.2.Canonical := by
  fun_induction fetchBurst g c s a h n <;> grind [fetchBurst, fetchDesc_canonical, FabCanonical]

theorem listFailed_canonical (p : Nat) (f : DmaFault) : (s.listFailed p f).Canonical := by
  grind [State.listFailed, modListRun_canonical]

theorem dmaFault_canonical (c ch i : Nat) (f : DmaFault) : (s.dmaFault c ch i f).Canonical := by
  grind [State.dmaFault, listFailed_canonical, modDmaChan_canonical, modDma_canonical]

theorem execDmaDescriptorFetch_canonical (c : ClusterId) (ch : Fin 16) (h : Hit) :
    NextCanonical (execDmaDescriptorFetch c ch h s) := by
  grind [execDmaDescriptorFetch, dmaFault_canonical, fetchBurst_canonical, modDmaChan_canonical, NextCanonical]

theorem listBegun_canonical (c ch i : Nat) : (s.listBegun c ch i).Canonical := by
  grind [State.listBegun, modDmaChan_canonical, modListRun_canonical]

theorem dmaFlush_canonical (c ch : Nat) : (s.dmaFlush c ch).Canonical := by grind [State.dmaFlush, cltFlushStream_canonical]

theorem execDmaDescriptorStart_canonical (c : ClusterId) (ch : Fin 16) : NextCanonical (execDmaDescriptorStart c ch s) := by
  grind [execDmaDescriptorStart, dmaFlush_canonical, flagPut_canonical, listBegun_canonical, modDmaChan_canonical, NextCanonical]

theorem execDmaStall_canonical (c : ClusterId) (ch : Fin 16) : NextCanonical (execDmaStall c ch s) := by
  grind [execDmaStall, dmaFault_canonical, drawFree_canonical, NextCanonical]

theorem dmaByte_canonical (g : Agent) (host : Bool) (a : Nat) (h : Hit) : EitherCanonical (dmaByte g s host a h) := by
  grind [dmaByte, drawFree_canonical, fabRead_canonical, FabCanonical, EitherCanonical]

theorem dmaReadN_canonical (g : Agent) (d : DmaDesc) (v : Nat) (h : Hit) (n : Nat) : EitherCanonical (dmaReadN g d s v h n) := by
  induction n generalizing s v h with
  | zero => exact hs
  | succ n ih =>
    have hbyte := dmaByte_canonical hs g d.srcHost (d.srcAt v) h
    unfold dmaReadN
    split <;> rename_i heq <;> rw [heq] at hbyte
    · exact hbyte
    · have hrest := ih hbyte (v + 1) h.next
      split <;> rename_i heq' <;> rw [heq'] at hrest <;> exact hrest

theorem dmaWrite1_canonical (g : Agent) (d : DmaDesc) (v avail : Nat) (bytes : Nat → List Byte) (h : Hit) :
    (∀ f t, dmaWrite1 g d s v avail bytes h = .error (f, t) → t.Canonical) ∧ ∀ m t, dmaWrite1 g d s v avail bytes h = .ok (some
      (m, t)) → t.Canonical := by
  grind [dmaWrite1, fabWrite1_canonical, send_canonical, FabCanonical]

theorem dmaWriteN_canonical (g : Agent) (d : DmaDesc) (buf : Option (List Byte)) (v : Nat) (h : Hit) (n : Nat) :
    EitherCanonical (dmaWriteN g d buf s v h n) := by
  induction n generalizing s buf v h with
  | zero => exact hs
  | succ n ih =>
    unfold dmaWriteN
    split
    · exact hs
    dsimp only
    split <;> rename_i heq
    · exact (dmaWrite1_canonical hs ..).1 _ _ heq
    · exact hs
    · exact ih ((dmaWrite1_canonical hs ..).2 _ _ heq) _ _ _

theorem dmaCopyRead_canonical (p c ch n : Nat) (h : Hit) : (s.dmaCopyRead p c ch n h).Canonical := by
  grind [State.dmaCopyRead, dmaFault_canonical, dmaReadN_canonical, listBegun_canonical, modDmaChan_canonical, EitherCanonical]

theorem dmaWriteBeats_canonical (p c ch op n : Nat) (h : Hit) : (s.dmaWriteBeats p c ch op n h).Canonical := by
  grind [State.dmaWriteBeats, dmaFault_canonical, dmaWriteN_canonical, listBegun_canonical, modDmaChan_canonical, EitherCanonical]

theorem execCopy_canonical (c : ClusterId) (ch : Fin 16) (nr nw : Nat) (h w : Hit) :
    NextCanonical (execCopy c ch nr nw h w s) := by
  grind [execCopy, dmaCopyRead_canonical, dmaWriteBeats_canonical, NextCanonical]

theorem execDmaFill_canonical (c : ClusterId) (ch : Fin 16) (n : Nat) (w : Hit) : NextCanonical (execDmaFill c ch n w s) := by
  grind [execDmaFill, dmaWriteBeats_canonical, NextCanonical]

theorem dmaCompareN_canonical (g : Agent) (d : DmaDesc) (v : Nat) (h : Hit) (acc : CmpAcc) (n : Nat) :
    EitherCanonical (dmaCompareN g d s v h acc n) := by
  induction n generalizing s v h acc with
  | zero => exact hs
  | succ n ih =>
    have hsrc := dmaByte_canonical hs g d.srcHost (d.srcAt v) h
    unfold dmaCompareN
    split <;> rename_i heq <;> rw [heq] at hsrc
    · exact hsrc
    · rename_i s1
      have hdst := dmaByte_canonical (s := s1) hsrc g d.dstHost (d.dstAt v) h.next
      split <;> rename_i heq' <;> rw [heq'] at hdst
      · exact hdst
      · exact ih hdst _ _ _

theorem execDmaCompare_canonical (c : ClusterId) (ch : Fin 16) (n : Nat) (h : Hit) :
    NextCanonical (execDmaCompare c ch n h s) := by
  grind [execDmaCompare, dmaCompareN_canonical, dmaFault_canonical, listBegun_canonical, modDmaChan_canonical, NextCanonical,
    EitherCanonical]

theorem dmaPartDone_canonical (r : DmaRun) (t : CmdSrc × Nat) : (s.dmaPartDone r t).Canonical := by
  grind [State.dmaPartDone, finish_canonical, modCmd_canonical]

theorem execDmaDescriptorComplete_canonical (c : ClusterId) (ch : Fin 16) : NextCanonical (execDmaDescriptorComplete c ch s) := by
  grind [execDmaDescriptorComplete, cltFlushStream_canonical, dmaPartDone_canonical, flagSend_canonical, listBegun_canonical,
    listEnter_canonical, modDmaChan_canonical, modDma_canonical, modListRun_canonical, NextCanonical]

theorem dmaCmdStop_canonical (p : Nat) (t : CmdSrc × Nat) : (s.dmaCmdStop p t).Canonical := hs
theorem hwFinish_canonical (c : Cmd) (result : Nat) : (s.hwFinish c result).Canonical := finish_canonical hs _ _

theorem dmaCmdFault_canonical (p : Nat) (t : CmdSrc × Nat) (f : DmaFault) : (s.dmaCmdFault p t f).Canonical := by
  grind [State.dmaCmdFault, dmaCmdStop_canonical, finish_canonical, hwFinish_canonical, modCmd_canonical]

theorem execMidStreamFault_canonical (c : ClusterId) (ch : Fin 16) : NextCanonical (execMidStreamFault c ch s) := by
  grind [execMidStreamFault, abortLaunch_canonical, dmaCmdFault_canonical, listFailed_canonical, modDmaChan_canonical,
    modDma_canonical, NextCanonical]

/-! ### Engines -/

theorem modEng_canonical (c e : Nat) (f : Eng → Eng) : (s.modEng c e f).Canonical := hs

theorem execEngq_canonical (k : CoreId) (e : EngKind) : NextCanonical (execEngq k e s) := by
  grind [execEngq, advance_canonical, coreInstr_canonical, enqueueFlag_canonical, raise_canonical, stackEffect_canonical,
    waitAt_canonical, NextCanonical]

theorem execEngw_canonical (k : CoreId) (e : EngKind) : NextCanonical (execEngw k e s) := by
  grind [execEngw, advance_canonical, coreInstr_canonical, waitAt_canonical, NextCanonical]

theorem execEngineDescriptorFetch_canonical (c : ClusterId) (e : EngKind) (h : Hit) :
    NextCanonical (execEngineDescriptorFetch c e h s) := by
  grind [execEngineDescriptorFetch, fetchDesc_canonical, modEng_canonical, NextCanonical, FabCanonical]

theorem localRead_canonical (g : Agent) (c va n : Nat) (h : Hit) : FabCanonical (localRead g c s va n h) := by
  grind [localRead, fabRead_canonical, FabCanonical]

theorem rowsFrom_canonical (g : Agent) (c : Nat) (x : EngEntry) (d : EngDesc) (n : Nat) (h : Hit) (m : Nat) :
    (rowsFrom g c x d s n h m).st.Canonical := by
  fun_induction rowsFrom g c x d s n h m <;> grind [rowsFrom, drawFree_canonical, fabRead_canonical, localRead_canonical,
    FabCanonical]

theorem physRead_canonical (g : Agent) (pa : Nat) (h : Hit) (n : Nat) : FabCanonical (physRead g s pa h n) := by
  fun_induction physRead g s pa h n <;> grind [physRead, eccRead_canonical, FabCanonical]

theorem casksFrom_canonical (g : Agent) (k : Cask) (x : EngEntry) (d : EngDesc) (idx : List Nat) (held n : Nat) (h : Hit) (m :
    Nat) :
    (casksFrom g k x d idx held s n h m).st.Canonical := by
  fun_induction casksFrom g k x d idx held s n h m <;> grind [casksFrom, drawFree_canonical, physRead_canonical, FabCanonical]

theorem casksCompute_canonical (g : Agent) (x : EngEntry) (d : EngDesc) (h : Hit) : (casksCompute g x d h s).st.Canonical := by
  grind [casksCompute, casksFrom_canonical, drawFree_canonical, physRead_canonical, FabCanonical]

theorem selectFrom_canonical (g : Agent) (c : Nat) (x : EngEntry) (d : EngDesc) (cs : List Nat) (r : Nat) (h : Hit) (n : Nat) :
    (selectFrom g c x d cs s r h n).st.Canonical := by
  fun_induction selectFrom g c x d cs s r h n <;> grind [selectFrom, localRead_canonical, FabCanonical]

theorem sampleFrom_canonical (g : Agent) (x : EngEntry) (d : EngDesc) (r : Nat) (h : Hit) (n : Nat) :
    (sampleFrom g x d s r h n).1.st.Canonical := by
  fun_induction sampleFrom g x d s r h n <;> grind [sampleFrom, fabRead_canonical, FabCanonical]

theorem fprRead_canonical (g : Agent) (x : EngEntry) (d : EngDesc) (i : Nat) (h : Hit) (n : Nat) :
    EitherCanonical (fprRead g x d s i h n) := by
  induction n generalizing s i h with
  | zero => exact hs
  | succ n ih =>
    have hbyte := fabRead_canonical hs g ((d.addr 2 + i) % 2 ^ 48) h 1
    unfold fprRead
    split <;> rename_i heq <;> rw [heq] at hbyte
    · exact hs
    · exact hbyte
    · have hrest := ih hbyte (i + 1) h.next
      split <;> rename_i heq' <;> rw [heq'] at hrest <;> exact hrest

theorem engDrain_canonical (g : Agent) (x : EngEntry) (h : Hit) (xs : List EngOut) : (engDrain g x s h xs).2.2.Canonical := by
  fun_induction engDrain g x s h xs <;> grind [engDrain, fabWrite_canonical, FabCanonical]

theorem engRun_canonical (c : ClusterId) (e op : Nat) (h : Hit) (f : Nat → EngEntry → EngDesc → State → EngRes × (Eng → Eng)) (hf
    : ∀ p y d s, s.Canonical → (f p y d s).1.st.Canonical) :
    NextCanonical (engRun c e op h s f) := by
  grind [engRun, engDrain_canonical, modEng_canonical, NextCanonical]

theorem execRows_canonical (c : ClusterId) (h : Hit) : NextCanonical (execRows c h s) := by
  grind [execRows, engRun_canonical, rowsFrom_canonical]

theorem execCasks_canonical (c : ClusterId) (h : Hit) : NextCanonical (execCasks c h s) := by
  grind [execCasks, casksCompute_canonical, engRun_canonical]

theorem execSort_canonical (c : ClusterId) (h : Hit) : NextCanonical (execSort c h s) := by
  grind [execSort, engRun_canonical, selectFrom_canonical]

theorem execTopk_canonical (c : ClusterId) (h : Hit) : NextCanonical (execTopk c h s) := by
  grind [execTopk, engRun_canonical, selectFrom_canonical]

theorem execRoute_canonical (c : ClusterId) (h : Hit) : NextCanonical (execRoute c h s) := by
  grind [execRoute, engRun_canonical, selectFrom_canonical]

theorem execSample_canonical (c : ClusterId) (h : Hit) : NextCanonical (execSample c h s) := by
  grind [execSample, engRun_canonical, sampleFrom_canonical]

theorem fprRun_canonical (c : ClusterId) (op : Nat) (h : Hit) (f : EngDesc → List Byte → Word) :
    NextCanonical (fprRun c op h f s) := by
  grind [fprRun, engRun_canonical, fprRead_canonical, EitherCanonical]

theorem execEngineDescriptorComplete_canonical (c : ClusterId) (e : EngKind) :
    NextCanonical (execEngineDescriptorComplete c e s) := by
  grind [execEngineDescriptorComplete, cltFlushStream_canonical, flagSend_canonical, modEng_canonical, NextCanonical]

theorem execMidStreamEngineFault_canonical (c : ClusterId) (e : EngKind) : NextCanonical (execMidStreamEngineFault c e s) := by
  grind [execMidStreamEngineFault, abortLaunch_canonical, modEng_canonical, NextCanonical]

/-! ### The mesh -/

theorem modRt_canonical (k : Nat) (f : Router → Router) : (s.modRt k f).Canonical := hs

theorem routeFault_canonical (k cause port : Nat) (det : Option Detection) : (s.routeFault k cause port det).Canonical := by
  unfold State.routeFault
  split <;> grind [abortCore_canonical, detect_canonical, modRt_canonical]

theorem execRouteWindowStart_canonical (k : CoreId) : NextCanonical (execRouteWindowStart k s) := by
  grind [execRouteWindowStart, flagPut_canonical, modCore_canonical, modRt_canonical, NextCanonical]

theorem sendBeat_canonical (k : Nat) (d : MeshLink) (b : Beat) (es : List Ecc) : (s.sendBeat k d b es).Canonical := by
  grind [State.sendBeat, modRt_canonical, routeFault_canonical]

theorem deliver_canonical {t : State} (k off : Nat) (link : Option MeshLink) (b : Beat) :
    s.deliver k off link b = .ok t → t.Canonical := by
  intro h
  unfold State.deliver at h
  dsimp only at h
  split at h <;> split at h <;> cases h
  all_goals exact placeCells_canonical hs _ _

theorem execRouteBeat_canonical (k : CoreId) (h : Ecc) (x : List (MeshLink × Ecc)) : NextCanonical (execRouteBeat k h x s) := by
  grind [execRouteBeat, deliver_canonical, eccSpan_canonical, modRt_canonical, routeFault_canonical, sendBeat_canonical,
    windowReject_canonical, foldl_canonical, NextCanonical]

theorem execRouteWindowEnd_canonical (k : CoreId) : NextCanonical (execRouteWindowEnd k s) := by
  grind [execRouteWindowEnd, flagSend_canonical, modCore_canonical, NextCanonical]

theorem execStall_canonical (k : CoreId) : NextCanonical (execStall k s) := by
  grind [execStall, drawFree_canonical, routeFault_canonical, NextCanonical]

/-! ### Error records -/

theorem recordDetail_canonical (d : Detection) : (s.recordDetail d).2.Canonical := by
  grind [State.recordDetail, drawFree_canonical]

theorem recordOpen_canonical (d : Detection) (ps : List Nat) : (s.recordOpen d ps).2.Canonical := by
  unfold State.recordOpen
  split <;> grind [partEvent_canonical, recordDetail_canonical, foldl_canonical, canonical_iff]

theorem recordClose_canonical (h : Handling) (cls : ErrClass) (action : Nat) (peer : Bool) (ps : List Nat) :
    (s.recordClose h cls action peer ps).Canonical := by
  grind [State.recordClose, partEvent_canonical, foldl_canonical, canonical_iff]

theorem closeActed_canonical (p : Nat) (lost : Option Nat) (peer : Bool) : (s.closeActed p lost peer).Canonical := by
  grind [State.closeActed, modPart_canonical, recordClose_canonical, foldl_canonical]

/-! ### Launches -/

theorem freeAt_canonical (xs : List Nat) : (s.freeAt xs).Canonical := by
  fun_induction State.freeAt s xs <;> grind [State.freeAt, drawFree_canonical, putByte_canonical]

theorem carriedOut_canonical (p : Nat) : (s.carriedOut p).Canonical := hs

theorem carriedIn_canonical (p id : Nat) (im : SchedImage) (v : Option Nat) : (s.carriedIn p id im v).Canonical := by
  unfold State.carriedIn
  dsimp only
  split <;> grind [freeAt_canonical, modPart_canonical, canonical_iff, memWf_replace]

theorem carriedSwap_canonical (p id : Nat) (im : SchedImage) (v : Option Nat) : (s.carriedSwap p id im v).Canonical := by
  grind [State.carriedSwap, carriedIn_canonical, carriedOut_canonical]

theorem clearScratch_canonical (k : Nat) (carried : List (Nat × Nat)) : (s.clearScratch k carried).Canonical :=
  ⟨memWf_filter _ hs.1, hs.2⟩

theorem cachesBoundary_canonical (p : Nat) : (s.cachesBoundary p).Canonical := by
  grind [State.cachesBoundary, allInPlace_canonical, l2Refresh_canonical, mapPartCores_canonical, foldl_canonical]

theorem tunsZero_canonical (p : Nat) : (s.tunsZero p).Canonical := by grind [State.tunsZero, zeroRange_canonical, foldl_canonical]

theorem launchClear_canonical (p : Nat) : (s.launchClear p).Canonical := by
  grind [State.launchClear, cachesBoundary_canonical, mapPartClusters_canonical, mapPartCores_canonical, modPart_canonical,
    tunsZero_canonical, canonical_iff]

theorem windowsFor_canonical (p id : Nat) (ws : List WinDef) : (s.windowsFor p id ws).Canonical := by
  grind [State.windowsFor, mapPartCores_canonical, modCore_canonical, foldl_canonical]

theorem dmaLoad_canonical (p : Nat) (im : SchedImage) (v : Option Nat) : (s.dmaLoad p im v).Canonical := by
  grind [State.dmaLoad, listEnter_canonical, modDmaChan_canonical, modDma_canonical, foldl_canonical]

theorem launchBegin_canonical (p : Nat) (l : Launch) (im : SchedImage) (v : Option Nat) : (s.launchBegin p l im v).Canonical := by
  grind [State.launchBegin, carriedSwap_canonical, dmaLoad_canonical, launchClear_canonical, modPart_canonical]

theorem startTask_canonical (p k t : Nat) (l : Launch) (im : SchedImage) : (s.startTask p k t l im).Canonical :=
  modPart_canonical (modCore_canonical (memReplace_canonical (clearScratch_canonical hs _ _) _ _) _ _) _ _

theorem cmdPlace_canonical (m : Nat) (as : List Nat) (bs : List Byte) : (s.cmdPlace m as bs).2.Canonical := by
  grind [State.cmdPlace, windowReject_canonical, writeCells_canonical]

theorem cmdWrite_canonical (src : CmdSrc) (part : Option Nat) (host : Bool) (a : Nat) (bs : List Byte) :
    (s.cmdWrite src part host a bs).2.Canonical := by
  unfold State.cmdWrite
  split <;> grind [cmdPlace_canonical, send_canonical]

theorem writeItems_canonical (src : CmdSrc) (p : Nat) (b : ReportBuf) (n : Nat) (xs : List Item) :
    (s.writeItems src p b n xs).2.2.Canonical := by
  fun_induction State.writeItems s src p b n xs <;> grind [State.writeItems, cmdWrite_canonical]

theorem writeReport_canonical (p : Nat) (c : Cmd) (r : Result) (is : List Item) : (s.writeReport p c r is).2.Canonical :=
  writeItems_canonical hs _ _ _ _ _

theorem launchClose_canonical (p : Nat) : (s.launchClose p).Canonical := hs

theorem cancelsDone_canonical (p tag : Nat) : (s.cancelsDone p tag).Canonical := by
  grind [State.cancelsDone, finish_canonical, modPart_canonical, foldl_canonical]

theorem endLaunch_canonical (p : Nat) (r : Result) (is : List Item) (lost : Option Nat) (peer : Bool) :
    (s.endLaunch p r is lost peer).Canonical := by
  grind [State.endLaunch, cancelsDone_canonical, closeActed_canonical, finish_canonical, launchClose_canonical,
    writeReport_canonical]

/-! ### Commands of a partition -/

theorem startCmd_canonical (c : Cmd) : (s.startCmd c).Canonical := nopSweep_canonical hs
theorem refuse_canonical (c : Cmd) (status : Nat) : (s.refuse c status).Canonical := finish_canonical hs _ _

theorem cmdRead_canonical (p : Nat) (host : Bool) (a n : Nat) (h : Hit) : (s.cmdRead p host a n h).2.Canonical := by
  grind [State.cmdRead, eccAll_canonical, freeBytes_canonical]

theorem eachCore_canonical (p : Nat) (f : Core → Core) : (s.eachCore p f).Canonical := by
  grind [State.eachCore, modCore_canonical, foldl_canonical]

theorem modAcct_canonical (p : Nat) (src : CmdSrc) (f : Acct → Acct) : (s.modAcct p src f).Canonical := by
  grind [State.modAcct, modPart_canonical]

/-! ### Schedules and the order of launches -/

theorem loadResident_canonical (id : Nat) (ws : List WinDef) : (s.loadResident id ws).Canonical := by
  grind [State.loadResident, modCore_canonical, putBytes_canonical, zeroRange_canonical, foldl_canonical]

theorem execSchedLoad_canonical (src : CmdSrc) (tag : Nat) (im : SchedImage) (h : Hit) :
    NextCanonical (execSchedLoad src tag im h s) := by
  grind [execSchedLoad, cmdRead_canonical, finish_canonical, loadResident_canonical, modPart_canonical, putBytes_canonical,
    refuse_canonical, foldl_canonical, NextCanonical]

theorem execSchedUnload_canonical (src : CmdSrc) (tag : Nat) : NextCanonical (execSchedUnload src tag s) := by
  grind [execSchedUnload, finish_canonical, modCore_canonical, modPart_canonical, refuse_canonical, zeroRange_canonical,
    foldl_canonical, NextCanonical]

theorem preemptCheck_canonical (p : Nat) : (s.preemptCheck p).Canonical := by
  grind [State.preemptCheck, eachCore_canonical, modPart_canonical]

theorem queueLaunch_canonical (c : Cmd) : (s.queueLaunch c).Canonical := by
  grind [State.queueLaunch, preemptCheck_canonical, refuse_canonical, startCmd_canonical]

theorem execLaunch_canonical (src : CmdSrc) (tag : Nat) : NextCanonical (execLaunch src tag s) := by
  grind [execLaunch, queueLaunch_canonical, NextCanonical]

theorem execCaskStep_canonical (src : CmdSrc) (tag : Nat) : NextCanonical (execCaskStep src tag s) := by
  grind [execCaskStep, queueLaunch_canonical, NextCanonical]

theorem endUnstarted_canonical (p : Nat) (c : Cmd) (r : Result) (is : List Item) : (s.endUnstarted p c r is).Canonical :=
  finish_canonical (writeReport_canonical hs _ _ _ _) _ _

theorem launchCmd_canonical (p : Nat) (c : Cmd) : (s.launchCmd p c).Canonical := by
  grind [State.launchCmd, endUnstarted_canonical, launchBegin_canonical, modAcct_canonical, modPart_canonical, refuse_canonical]

theorem execLaunchStart_canonical (p : PartId) : NextCanonical (execLaunchStart p s) := by
  grind [execLaunchStart, launchCmd_canonical, modPart_canonical, NextCanonical]

theorem execTaskStart_canonical (k : CoreId) : NextCanonical (execTaskStart k s) := by
  unfold execTaskStart
  split <;> grind [startTask_canonical, NextCanonical]

theorem spillBanks_canonical (k : Nat) : (s.spillBanks k).1.Canonical := by
  refine List.foldlRecOn (motive := fun a : State × List (Nat × Nat) => a.1.Canonical) _ _ hs (fun a ha r _ => ?_)
  have put (u : State) (x : Stk) (b : Bank) (hu : u.Canonical) :
      ((b.cache x).zipIdx.foldl (fun s e => s.stackPut k (b.ptr x + 8 * e.2) e.1) u).Canonical :=
    foldl_canonical (fun _ _ h => stackPut_canonical h _ _ _) _ hu
  dsimp only
  split
  · exact ha
  · exact modCore_canonical (put _ .ret _ (put _ .data _ ha)) _ _

theorem switchOut_canonical (p : Nat) (l : Launch) (im : SchedImage) : (s.switchOut p l im).Canonical := by
  have hdrain : ((s.part p).live.foldl (fun s c => s.allInPlace c) s).Canonical :=
    foldl_canonical (fun _ c h => allInPlace_canonical h c) _ hs
  exact mapPartCores_canonical (modPart_canonical
    (List.foldlRecOn (motive := fun a : State × List (Nat × Nat) => a.1.Canonical) _ _ hdrain
      (fun _ ha e _ => spillBanks_canonical ha e.1)) _ _) _ _

theorem execSwitchStart_canonical (p : PartId) : NextCanonical (execSwitchStart p s) := by
  grind [execSwitchStart, mapPartCores_canonical, modAcct_canonical, modPart_canonical, switchOut_canonical, NextCanonical]

theorem switchIn_canonical (p : Nat) (sv : Saved) (im : SchedImage) : (s.switchIn p sv im).Canonical := by
  unfold State.switchIn
  dsimp only
  split <;> grind [cachesBoundary_canonical, carriedOut_canonical, clearScratch_canonical, mapPartClusters_canonical,
    mapPartCores_canonical, modCluster_canonical, modCore_canonical, modPart_canonical, tunsZero_canonical, windowsFor_canonical,
    foldl_canonical, canonical_iff, memWf_filter, memWf_putCells]

theorem restoreLines_canonical (ls : List (Nat × List Byte)) : (s.restoreLines ls).Canonical := by
  grind [State.restoreLines, putBytes_canonical, zeroRange_canonical, foldl_canonical, canonical_iff]

theorem restoreSuspended_canonical (p : Nat) (sv : Saved) (im : SchedImage) : (s.restoreSuspended p sv im).Canonical := by
  grind [State.restoreSuspended, modPart_canonical, putByte_canonical, restoreLines_canonical, foldl_canonical]

theorem switchInLost_canonical (p : Nat) (sv : Saved) (im : SchedImage) : (s.switchInLost p sv im).Canonical :=
  restoreSuspended_canonical hs _ _ _

theorem cancelUnstarted_canonical (p : Nat) (t : Cmd) : (s.cancelUnstarted p t).Canonical := by
  grind [State.cancelUnstarted, endUnstarted_canonical, refuse_canonical]

theorem endSuspended_canonical (p : Nat) (sv : Saved) (r : Result) (rule : ItemRule) :
    (s.endSuspended p sv r rule).Canonical := by
  grind [State.endSuspended, finish_canonical, modPart_canonical, restoreLines_canonical, restoreSuspended_canonical,
    writeReport_canonical]

theorem dropSuspended_canonical (p : Nat) : (s.dropSuspended p).Canonical := by
  grind [State.dropSuspended, endSuspended_canonical, foldl_canonical]

theorem endAborted_canonical (p : Nat) (l : Launch) (a : Abort) : (s.endAborted p l a).Canonical := by
  grind [State.endAborted, dropSuspended_canonical, endLaunch_canonical]

theorem settle_canonical (p : Nat) : (s.settle p).Canonical := by
  grind [State.settle, dropSuspended_canonical, endLaunch_canonical]

theorem cancelNow_canonical (p : Nat) (c : Cmd) : (s.cancelNow p c).Canonical := by
  grind [State.cancelNow, abortLaunch_canonical, cancelUnstarted_canonical, dmaCmdStop_canonical, endAborted_canonical,
    endSuspended_canonical, finish_canonical, modPart_canonical, refuse_canonical]

theorem execCancel_canonical (src : CmdSrc) (tag : Nat) : NextCanonical (execCancel src tag s) := by
  grind [execCancel, cancelNow_canonical, modPart_canonical, preemptCheck_canonical, startCmd_canonical, NextCanonical]

theorem cancelsAfterSwitch_canonical (p : Nat) : (s.cancelsAfterSwitch p).Canonical := by
  grind [State.cancelsAfterSwitch, cancelNow_canonical, modPart_canonical, foldl_canonical]

theorem execSwitchComplete_canonical (p : PartId) : NextCanonical (execSwitchComplete p s) := by
  grind [execSwitchComplete, cancelsAfterSwitch_canonical, launchCmd_canonical, modAcct_canonical, modPart_canonical,
    preemptCheck_canonical, settle_canonical, switchInLost_canonical, switchIn_canonical, NextCanonical]

theorem writeLens_canonical (p : Nat) (hs : List Nat) : (s.writeLens p hs).Canonical := by
  grind [State.writeLens, putBytes_canonical, foldl_canonical]

theorem commitEnd_canonical (p : Nat) (l : Launch) (im : SchedImage) : (s.commitEnd p l im).Canonical :=
  endLaunch_canonical hs _ _ _ _ _

theorem execLaunchCommit_canonical (p : PartId) : NextCanonical (execLaunchCommit p s) := by
  grind [execLaunchCommit, commitEnd_canonical, modPart_canonical, writeLens_canonical, NextCanonical]

theorem execRepitch_canonical (p : PartId) : NextCanonical (execRepitch p s) := by
  grind [execRepitch, launchBegin_canonical, modPart_canonical, preemptCheck_canonical, settle_canonical, NextCanonical]

/-! ### Casks -/

theorem execCaskJoin_canonical (src : CmdSrc) (tag : Nat) : NextCanonical (execCaskJoin src tag s) := by
  grind [execCaskJoin, modPart_canonical, startCmd_canonical, NextCanonical]

theorem execCaskLeave_canonical (src : CmdSrc) (tag : Nat) : NextCanonical (execCaskLeave src tag s) := by
  grind [execCaskLeave, modPart_canonical, startCmd_canonical, NextCanonical]

theorem caskWrite_canonical (p a : Nat) (bs : List Byte) : (s.caskWrite p a bs).Canonical :=
  placeCells_canonical (modPart_canonical hs _ _) _ _

theorem writeSlot_canonical (p slot : Nat) (bs : List Byte) : (s.writeSlot p slot bs).Canonical := caskWrite_canonical hs _ _ _
theorem modSeq_canonical (p h : Nat) (f : Seq → Seq) : (s.modSeq p h f).Canonical := hs
theorem zeroCask_canonical (p d : Nat) : (s.zeroCask p d).Canonical := zeroRange_canonical hs _ _

theorem writeIndex_canonical (p h pos d : Nat) : (s.writeIndex p h pos d).Canonical := by
  grind [State.writeIndex, caskWrite_canonical]

theorem allocate_canonical (p h l : Nat) : (s.allocate p h l).Canonical := by
  grind [State.allocate, modSeq_canonical, writeIndex_canonical, zeroCask_canonical, foldl_canonical]

theorem caskLeaves_canonical (p : Nat) : (s.caskLeaves p).Canonical := by
  grind [State.caskLeaves, finish_canonical, modPart_canonical, refuse_canonical, writeSlot_canonical, foldl_canonical]

theorem caskJoins_canonical (p bmax : Nat) (xs : List JoinReq) : (s.caskJoins p bmax xs).Canonical := by
  delta State.caskJoins
  induction xs generalizing s with
  | nil => exact hs
  | cons j js ih =>
    obtain ⟨_, hcons⟩ := brecOn_cons (State.caskJoins._f p bmax) j js
    rw [hcons]
    generalize List.brecOn (motive := fun _ => State → State) js (State.caskJoins._f p bmax) = rest at ih ⊢
    unfold State.caskJoins._f
    have htaken (f : Part → Part) := modPart_canonical hs p f
    have hstarted (f g : Part → Part) (h l : Nat) := allocate_canonical (modPart_canonical (htaken f) p g) p h l
    dsimp only
    split
    · exact hs
    split
    · refine ih ?_
      split
      exacts [finish_canonical (htaken _) _ _, htaken _]
    split <;> refine ih ?_ <;> split
    exacts [finish_canonical (htaken _) _ _, htaken _, finish_canonical (hstarted _ _ _ _) _ _, hstarted _ _ _ _]

theorem caskTable_canonical (p a : Nat) (bs : List Byte) : (s.caskTable p a bs).Canonical := by
  grind [State.caskTable, abortLaunch_canonical, placeCells_canonical, windowReject_canonical]

theorem execStepBoundary_canonical (p : PartId) : NextCanonical (execStepBoundary p s) := by
  grind [execStepBoundary, allocate_canonical, caskJoins_canonical, caskLeaves_canonical, caskTable_canonical, modPart_canonical,
    writeSlot_canonical, foldl_canonical, NextCanonical]

/-! ### Errors handled -/

theorem modHandling_canonical (p : Option Nat) (f : List Handling → List Handling) : (s.modHandling p f).Canonical := by
  cases p <;> exact hs

theorem failPart_canonical (p : Nat) : (s.failPart p).Canonical := by
  grind [State.failPart, abortLaunch_canonical, commitEnd_canonical, dmaCmdStop_canonical, dropSuspended_canonical,
    endAborted_canonical, endUnstarted_canonical, finish_canonical, modPart_canonical, restoreLines_canonical, foldl_canonical]

theorem fatalError_canonical (d : Detection) : (s.fatalError d).Canonical := by
  grind [State.fatalError, failPart_canonical, finish_canonical, recordClose_canonical, recordOpen_canonical, foldl_canonical,
    canonical_iff]

theorem stopFor_canonical (p : Nat) (d : Detection) : (s.stopFor p d).Canonical := by
  grind [State.stopFor, abortLaunch_canonical, modPart_canonical]

theorem hwDone_canonical (p : Option Nat) (ukind unit result : Nat) : (s.hwDone p ukind unit result).Canonical := by
  unfold State.hwDone
  split <;> grind [hwFinish_canonical, foldl_canonical]

theorem handleDetection_canonical (d : Detection) : (s.handleDetection d).Canonical := by
  grind [State.handleDetection, fatalError_canonical, hwDone_canonical, modHandling_canonical, recordOpen_canonical,
    stopFor_canonical]

theorem scrubLoss_canonical (a : Nat) : (s.scrubLoss a).Canonical := by
  grind [State.scrubLoss, addPoison_canonical, partEvent_canonical]

theorem execHwErrorDetected_canonical (d : Option Detection) : NextCanonical (execHwErrorDetected d s) := by
  unfold execHwErrorDetected
  split
  · split
    · exact handleDetection_canonical (ite_canonical (scrubLoss_canonical hs _) hs) _
    · trivial
  · split
    · exact hs
    · refine handleDetection_canonical ?_ _
      exact hs

theorem execCwdog_canonical (k : CoreId) : NextCanonical (execCwdog k s) := by
  grind [execCwdog, handleDetection_canonical, NextCanonical]

theorem execRollbackComplete_canonical (p : PartId) (bad : List Nat) : NextCanonical (execRollbackComplete p bad s) := by
  grind [execRollbackComplete, endAborted_canonical, modPart_canonical, partEvent_canonical, restoreLines_canonical,
    settle_canonical, foldl_canonical, NextCanonical]

theorem rangeLost_canonical (p a n : Nat) : (s.rangeLost p a n).Canonical := partEvent_canonical hs _ _ _ _ _

theorem windowLost_canonical (p id a n : Nat) : (s.windowLost p id a n).Canonical := by
  grind [State.windowLost, modPart_canonical, rangeLost_canonical]

theorem carriedLost_canonical (p : Nat) (lost : List (Nat × Nat)) : (s.carriedLost p lost).Canonical := by
  grind [State.carriedLost, modPart_canonical, rangeLost_canonical, foldl_canonical]

theorem loseByte_canonical (p k off : Nat) : (s.loseByte p k off).Canonical := by
  grind [State.loseByte, putByte_canonical, windowLost_canonical]

theorem kilnAfter_canonical (p : Option Nat) (ukind unit : Nat) (lost : List (Nat × Nat)) :
    (s.kilnAfter p ukind unit lost).Canonical := by
  unfold State.kilnAfter
  split <;> grind [carriedLost_canonical, freeAt_canonical, loseByte_canonical, foldl_canonical]

theorem kilnSave_canonical (p : Nat) (lost : List (Nat × Nat)) (ks : List Nat) : (s.kilnSave p lost ks).Canonical := hs

theorem handled_canonical (p : Option Nat) (h : Handling) (cls : ErrClass) : (s.handled p h cls).Canonical := by
  unfold State.handled
  split <;> grind [hwDone_canonical, modHandling_canonical, modPart_canonical, recordClose_canonical, settle_canonical]

theorem blockLost_canonical (p : Nat) (h : Handling) : (s.blockLost p h).1.Canonical := by
  grind [State.blockLost, modPart_canonical, partEvent_canonical]

theorem sinceZero_canonical (pc : Nat) : (s.sinceZero pc).Canonical := hs

theorem retrain_canonical (p : Option Nat) (lane : Nat) : (s.retrain p lane).Canonical := by
  grind [State.retrain, laneTrain_canonical]

theorem lastingAction_canonical (p : Option Nat) (h : Handling) : (s.lastingAction p h).Canonical := by
  unfold State.lastingAction
  split <;> grind [abortLaunch_canonical, handled_canonical, laneMark_canonical, modHandling_canonical, modHbm_canonical,
    retrain_canonical]

theorem kilnResult_canonical (p : Option Nat) (r : KilnRes) (ktime : Nat) (lost : List (Nat × Nat)) :
    (s.kilnResult p r ktime lost).Canonical := by
  unfold State.kilnResult
  split
  · exact hs
  rename_i h _ _
  have hzero : (if h.det.ukind = 4 then s.sinceZero h.det.unit else s).Canonical := ite_canonical (sinceZero_canonical hs _) hs
  dsimp only
  generalize (if h.det.ukind = 4 then s.sinceZero h.det.unit else s) = s0 at hzero ⊢
  refine ite_canonical hs ?_
  split
  · split
    · exact finish_canonical (handled_canonical (kilnAfter_canonical hzero _ _ _ _) _ _ _) _ _
    · exact handled_canonical (kilnAfter_canonical hzero _ _ _ _) _ _ _
  refine ite_canonical ?_ ?_
  · have hafter (u : State) (hu : u.Canonical) (d : Detection) :
        (if d.ukind = 2 then (u.kilnAfter p d.ukind d.unit lost).retrain p d.unit else u.kilnAfter p d.ukind d.unit
          lost).Canonical :=
      ite_canonical (retrain_canonical (kilnAfter_canonical hu _ _ _ _) _ _) (kilnAfter_canonical hu _ _ _ _)
    cases p with
    | none =>
      refine handled_canonical (modHandling_canonical (hafter _ ?_ _) _ _) _ _ _
      exact ite_canonical hzero hzero
    | some q =>
      refine ite_canonical (handled_canonical (modHandling_canonical (hafter _ ?_ _) _ _) _ _ _)
        (ite_canonical (handled_canonical (blockLost_canonical (modHandling_canonical (hafter _ ?_ _) _ _) _ _) _ _ _)
          (handled_canonical (blockLost_canonical (modHandling_canonical (hafter _ ?_ _) _ _) _ _) _ _ _))
      all_goals exact ite_canonical hzero hzero
  · refine lastingAction_canonical ?_ _ _
    cases p with
    | none => exact ite_canonical hzero hzero
    | some q =>
      refine kilnSave_canonical ?_ _ _ _
      exact ite_canonical hzero hzero

theorem execKilnBudgetExpiry_canonical (u : Option PartId) : NextCanonical (execKilnBudgetExpiry u s) := by
  grind [execKilnBudgetExpiry, kilnResult_canonical, NextCanonical]

theorem rebuildWindow_canonical (p c id : Nat) (im : SchedImage) (w : WinDef) : (s.rebuildWindow p c id im w).Canonical := by
  unfold State.rebuildWindow
  split <;> grind [modCore_canonical, windowLost_canonical, canonical_iff, memWf_replace]

theorem prepareVariants_canonical (p c : Nat) : (s.prepareVariants p c).Canonical := by
  unfold State.prepareVariants
  dsimp only
  grind [carriedLost_canonical, modPart_canonical, rebuildWindow_canonical, foldl_canonical, canonical_iff, memWf_putCells]

theorem execClusterMapout_canonical (c : ClusterId) (lost : List (Nat × Nat)) : NextCanonical (execClusterMapout c lost s) := by
  grind [execClusterMapout, alertUpdate_canonical, capApply_canonical, finish_canonical, handled_canonical, kilnSave_canonical,
    modCluster_canonical, modPart_canonical, prepareVariants_canonical, NextCanonical]

/-! ### Boot -/

theorem execPwrgoodRise_canonical (lowLong : Bool) (bootsel : BitVec 2) (smb : BitVec 3) :
    NextCanonical (execPwrgoodRise lowLong bootsel smb s) := by
  grind [execPwrgoodRise, coldEnd_canonical, NextCanonical, canonical_iff]

theorem execColdResetHoldExpiry_canonical (bootsel : BitVec 2) (smb : BitVec 3) :
    NextCanonical (execColdResetHoldExpiry bootsel smb s) := by
  grind [execColdResetHoldExpiry, coldEnd_canonical, NextCanonical]

theorem execPllLock_canonical : NextCanonical (execPllLock s) := by
  grind [execPllLock, bootLocked_canonical, NextCanonical, canonical_iff]

theorem execPllLockTimeout_canonical : NextCanonical (execPllLockTimeout s) := by
  grind [execPllLockTimeout, bootFail_canonical, NextCanonical]

theorem execAvsTimeout_canonical : NextCanonical (execAvsTimeout s) := by
  grind [execAvsTimeout, bootFail_canonical, NextCanonical]

theorem bootSlot_canonical (slot : Nat) (fallbk : Bool) (fail : Nat) (i : SlotImage) :
    (s.bootSlot slot fallbk fail i).Canonical :=
  ⟨memWf_filter _ hs.1, rfl⟩

theorem takeBoard_canonical (b : BoardCfg) : (s.takeBoard b).Canonical := hs

theorem execImageVerify_canonical (d0 d1 : List Byte) (board : BoardCfg) (a b : SlotImage) :
    NextCanonical (execImageVerify d0 d1 board a b s) := by
  grind [execImageVerify, bootFail_canonical, bootSlot_canonical, takeBoard_canonical, NextCanonical, canonical_iff]

theorem stackOut_canonical (n : Nat) : (s.stackOut n).Canonical := hs

theorem execHbmTrainingDone_canonical (n : StackId) (ok : Bool) : NextCanonical (execHbmTrainingDone n ok s) := by
  grind [execHbmTrainingDone, modHbm_canonical, stackOut_canonical, foldl_canonical, NextCanonical, canonical_iff]

theorem execSerdesCalibrationDone_canonical (failed : BitVec 64) : NextCanonical (execSerdesCalibrationDone failed s) := by
  grind [execSerdesCalibrationDone, modGroup_canonical, foldl_canonical, NextCanonical, canonical_iff]

theorem bindAll_canonical (binds : List Word) : (s.bindAll binds).Canonical := by grind [State.bindAll, canonical_iff]

theorem execReady_canonical (binds : List (BitVec 64)) : NextCanonical (execReady binds s) := by
  grind [execReady, bindAll_canonical, NextCanonical, canonical_iff]

theorem execPerstNRise_canonical (h : HostPort) : NextCanonical (execPerstNRise h s) := by
  grind [execPerstNRise, modHost_canonical, trainHost_canonical, NextCanonical]

theorem execHostPortLinkUp_canonical (h : HostPort) : NextCanonical (execHostPortLinkUp h s) := by
  grind [execHostPortLinkUp, modHost_canonical, NextCanonical]

theorem execHostPortLinkDown_canonical (h : HostPort) : NextCanonical (execHostPortLinkDown h s) := by
  grind [execHostPortLinkDown, modHost_canonical, trainHost_canonical, NextCanonical]

theorem configBits_canonical (mask v : Nat) : (s.configBits mask v).2.Canonical := hs

theorem configData_canonical (h off : Nat) : (s.configData h off).2.Canonical := by
  have bits (mask v : Nat) : (s.configBits mask v).2.Canonical := configBits_canonical hs mask v
  have pick {c : Prop} [Decidable c] {a b : List Byte × State} (ha : a.2.Canonical) (hb : b.2.Canonical) :
      (if c then a else b).2.Canonical := by split <;> assumption
  exact pick hs (pick (bits _ _) (pick (bits _ _) (pick hs (pick (bits _ _) (pick hs (pick hs (pick (bits _ _) (pick (bits _ _)
    (pick (bits _ _) (pick (bits _ _) (pick (bits _ _) (pick (bits _ _) (pick (bits _ _) (freeBytes_canonical hs 4))))))))))))))

theorem execConfigurationRequest_canonical (h : HostPort) (off : BitVec 12) :
    NextCanonical (execConfigurationRequest h off s) := by
  grind [execConfigurationRequest, configData_canonical, send_canonical, NextCanonical]

theorem tap_canonical (code : Nat) (dr : Word) : (s.tap code dr).Canonical := hs
theorem tapScan_canonical (code : Nat) : (s.tapScan code).Canonical := hs
theorem tapTest_canonical (code : Nat) : (s.tapTest code).Canonical := by grind [State.tapTest, tapScan_canonical, tap_canonical]

/-! ### Clock steps -/

theorem execDroop_canonical (c : ClusterId) : NextCanonical (execDroop c s) := by grind [execDroop, NextCanonical, canonical_iff]

theorem execPllLossOfLock_canonical : NextCanonical (execPllLossOfLock s) := by
  grind [execPllLossOfLock, handleDetection_canonical, NextCanonical, canonical_iff]

theorem execRailOutOfRange_canonical (_rail : Fin 9) : NextCanonical (execRailOutOfRange _rail s) := by
  grind [execRailOutOfRange, handleDetection_canonical, NextCanonical]

theorem execRailSettled_canonical : NextCanonical (execRailSettled s) := by
  grind [execRailSettled, divApply_canonical, NextCanonical, canonical_iff]

theorem execRailLowerTimer_canonical : NextCanonical (execRailLowerTimer s) := by
  grind [execRailLowerTimer, NextCanonical, canonical_iff]

theorem execCapLoopSample_canonical (rails : List (BitVec 16 × BitVec 16 × BitVec 16)) :
    NextCanonical (execCapLoopSample rails s) := by
  grind [execCapLoopSample, alertUpdate_canonical, capApply_canonical, NextCanonical, canonical_iff]

theorem thermTrip_canonical : s.thermTrip.Canonical := handleDetection_canonical hs _

theorem execThermalSample_canonical (diodes hbmT : List (BitVec 16)) : NextCanonical (execThermalSample diodes hbmT s) := by
  grind [execThermalSample, alertUpdate_canonical, divApply_canonical, thermTrip_canonical, NextCanonical, canonical_iff]

/-! ### Packets of a connection -/

theorem cltControl_canonical (p ci path type psn : Nat) (e0 e1 : Word) : (s.cltControl p ci path type psn e0 e1).Canonical := by
  grind [State.cltControl, cltFrame_canonical]

theorem cltAck_canonical (p ci : Nat) : (s.cltAck p ci).Canonical := by
  grind [State.cltAck, cltControl_canonical, modConn_canonical]

theorem cltNak_canonical (p ci g path psn reason sub : Nat) : (s.cltNak p ci g path psn reason sub).Canonical :=
  cltControl_canonical hs _ _ _ _ _ _ _

theorem cltMismatch_canonical (p ci peerEpoch peerSched : Nat) : (s.cltMismatch p ci peerEpoch peerSched).Canonical := by
  grind [State.cltMismatch, modConn_canonical, partEvent_canonical]

theorem helloPacket_canonical (p ci n type : Nat) : (s.helloPacket p ci n type).Canonical := by
  grind [State.helloPacket, cltFrame_canonical]

theorem modPath_canonical (p ci n : Nat) (f : PathSt → PathSt) : (s.modPath p ci n f).Canonical := hs
theorem helloSend_canonical (p ci n : Nat) : (s.helloSend p ci n).Canonical := helloPacket_canonical hs _ _ _ _

theorem handshake_canonical (p ci : Nat) : (s.handshake p ci).Canonical := by
  grind [State.handshake, drawFree_canonical, helloSend_canonical, modConn_canonical, foldl_canonical]

theorem cltFails_canonical (p : Nat) (os : List CltOp) (a : Abort) : (s.cltFails p os a).Canonical := by
  grind [State.cltFails, abortLaunch_canonical]

theorem cltReset_canonical (p ci g cause : Nat) : (s.cltReset p ci g cause).Canonical := by
  grind [State.cltReset, cltFails_canonical, handshake_canonical, hostsDrain_canonical, modConn_canonical, modGroup_canonical,
    partEvent_canonical, foldl_canonical]

theorem incarnate_canonical (p ci inc : Nat) : (s.incarnate p ci inc).Canonical :=
  cltPump_canonical (modConn_canonical hs _ _ _) _ _

theorem helloTake_canonical (p ci n : Nat) (k : CltPkt) (isAck : Bool) : (s.helloTake p ci n k isAck).Canonical := by
  grind [State.helloTake, cltReset_canonical, incarnate_canonical, modConn_canonical, modPath_canonical, partEvent_canonical]

theorem pathUp_canonical (p ci n : Nat) : (s.pathUp p ci n).Canonical := by
  grind [State.pathUp, handshake_canonical, helloSend_canonical, modConn_canonical]

theorem pathsUp_canonical (p port : Nat) : (s.pathsUp p port).Canonical := by
  grind [State.pathsUp, pathUp_canonical, foldl_canonical]

theorem badHdr_canonical (g : Nat) : (s.badHdr g).Canonical := hs

theorem cltRow_canonical (name : String) (t : Nat) (port : Fin 64) (k : CltPkt) (f : Nat → Nat → State → State) (hf : ∀ u v w,
    w.Canonical → (f u v w).Canonical) :
    NextCanonical (cltRow name t port k f s) := by
  grind [cltRow, badHdr_canonical, NextCanonical]

theorem execHello_canonical (port : Fin 64) (k : CltPkt) : NextCanonical (execHello port k s) := by
  grind [execHello, cltRow_canonical, helloPacket_canonical, helloTake_canonical]

theorem execHelloAck_canonical (port : Fin 64) (k : CltPkt) : NextCanonical (execHelloAck port k s) := by
  grind [execHelloAck, cltRow_canonical, helloTake_canonical]

theorem execMgmt_canonical (port : Fin 64) (k : CltPkt) : NextCanonical (execMgmt port k s) := by
  grind [execMgmt, cltRow_canonical, canonical_iff]

theorem cltReceived_canonical (p ci psn : Nat) : (s.cltReceived p ci psn).Canonical := hs
theorem cltExecuted_canonical (p ci opid : Nat) : (s.cltExecuted p ci opid).Canonical := hs

theorem cltPerform_canonical (p ci : Nat) (h : HeldOp) : (s.cltPerform p ci h).2.Canonical := by
  grind [State.cltPerform, cltExecuted_canonical, flagLimit_canonical, flagPut_canonical, mbPost_canonical, modConn_canonical,
    setCounter_canonical]

theorem cltRelease_canonical (p ci n : Nat) : (s.cltRelease p ci n).Canonical := by
  induction n generalizing s with
  | zero => exact hs
  | succ n ih =>
    unfold State.cltRelease
    dsimp only
    split
    · exact hs
    split
    · exact hs
    split
    · exact ih (cltNak_canonical (cltPerform_canonical (modConn_canonical hs _ _ _) _ _ _) _ _ _ _ _ _ _)
    · exact ih (cltPerform_canonical (modConn_canonical hs _ _ _) _ _ _)

theorem cltArrive_canonical (p ci path : Nat) (ar : Bool) : (s.cltArrive p ci path ar).Canonical := by
  grind [State.cltArrive, cltAck_canonical, modConn_canonical]

theorem cltStore_canonical (p ci g : Nat) (k : CltPkt) (h : Hit) : (s.cltStore p ci g k h).Canonical := by
  grind [State.cltStore, cltExecuted_canonical, cltNak_canonical, cltReceived_canonical, eccAll_canonical, modConn_canonical,
    windowReject_canonical, writeCells_canonical]

theorem cltData_canonical (p ci g : Nat) (k : CltPkt) (h : Hit) : (s.cltData p ci g k h).Canonical := by
  unfold State.cltData
  dsimp only
  repeat' split
  all_goals grind [badHdr_canonical, cltArrive_canonical, cltMismatch_canonical, cltNak_canonical, cltReceived_canonical,
    cltRelease_canonical, cltReset_canonical, cltStore_canonical, modConn_canonical, modGroup_canonical]

theorem cltArrives_canonical (p ci g : Nat) (k : CltPkt) (h : Hit) : (s.cltArrives p ci g k h).Canonical := by
  grind [State.cltArrives, cltData_canonical, modPart_canonical]

theorem rxRelease_canonical (p : Nat) : (s.rxRelease p).Canonical := by
  grind [State.rxRelease, badHdr_canonical, cltData_canonical, modPart_canonical, foldl_canonical]

theorem execWrite_canonical (port : Fin 64) (k : CltPkt) (h : Hit) : NextCanonical (execWrite port k h s) := by
  grind [execWrite, cltArrives_canonical, cltRow_canonical]

theorem execAccum_canonical (port : Fin 64) (k : CltPkt) (h : Hit) : NextCanonical (execAccum port k h s) := by
  grind [execAccum, cltArrives_canonical, cltRow_canonical]

theorem execFlag_canonical (port : Fin 64) (k : CltPkt) : NextCanonical (execFlag port k s) := by
  grind [execFlag, cltData_canonical, cltRow_canonical]

theorem execCltMbpost_canonical (port : Fin 64) (k : CltPkt) : NextCanonical (execCltMbpost port k s) := by
  grind [execCltMbpost, cltData_canonical, cltRow_canonical]

theorem cltUnknown_canonical (port : Nat) (k : CltPkt) : (s.cltUnknown port k).Canonical := by
  unfold State.cltUnknown
  dsimp only
  repeat' split
  all_goals grind [badHdr_canonical, cltArrive_canonical, cltNak_canonical, cltReceived_canonical, cltRelease_canonical]

theorem execAck_canonical (port : Fin 64) (k : CltPkt) : NextCanonical (execAck port k s) := by
  grind [execAck, cltPump_canonical, cltRow_canonical, hostsDrain_canonical, modConn_canonical, modPart_canonical]

theorem execNak_canonical (port : Fin 64) (k : CltPkt) : NextCanonical (execNak port k s) := by
  grind [execNak, cltFails_canonical, cltMismatch_canonical, cltPump_canonical, cltRow_canonical, hostsDrain_canonical,
    modConn_canonical, modGroup_canonical]

theorem execAckTimer_canonical (p : PartId) (ci : Fin 1024) : NextCanonical (execAckTimer p ci s) := by
  grind [execAckTimer, cltAck_canonical, NextCanonical]

theorem execRetransmitTimeout_canonical (p : PartId) (ci : Fin 1024) (psn : BitVec 32) :
    NextCanonical (execRetransmitTimeout p ci psn s) := by
  grind [execRetransmitTimeout, cltReset_canonical, cltSend_canonical, modGroup_canonical, NextCanonical]

theorem execHelloRetry_canonical (p : PartId) (ci : Fin 1024) (n : Fin 16) : NextCanonical (execHelloRetry p ci n s) := by
  grind [execHelloRetry, helloSend_canonical, NextCanonical]

/-! ### Control flow -/

theorem branchInstr_canonical (k : CoreId) (i : Instr) (n : Nat) (rel : Word) (f : List Word → List Word × Bool) :
    NextCanonical (branchInstr k i n rel f s) := by
  grind [branchInstr, advance_canonical, coreInstr_canonical, jump_canonical, stackEffect_canonical, NextCanonical]

theorem execCall32_canonical (k : CoreId) (rel : BitVec 32) : NextCanonical (execCall32 k rel s) := by
  grind [execCall32, coreInstr_canonical, jump_canonical, stackEffect_canonical, NextCanonical]

theorem execCalli_canonical (k : CoreId) : NextCanonical (execCalli k s) := by
  grind [execCalli, coreInstr_canonical, jump_canonical, stackEffect_canonical, NextCanonical]

theorem execRet_canonical (k : CoreId) : NextCanonical (execRet k s) := by
  grind [execRet, coreInstr_canonical, jump_canonical, stackEffect_canonical, NextCanonical]

theorem execJmpi_canonical (k : CoreId) : NextCanonical (execJmpi k s) := by
  grind [execJmpi, coreInstr_canonical, jump_canonical, stackEffect_canonical, NextCanonical]

theorem loadInstr_canonical (k : CoreId) (i : Instr) (d : Disp) (h : Finding) (n : Nat) (ext : Word → Word) :
    NextCanonical (loadInstr k i d h n ext s) := by
  grind [loadInstr, advance_canonical, coreInstr_canonical, loadBytes_canonical, raise_canonical, stackEffect_canonical,
    stopCore_canonical, waitAt_canonical, NextCanonical, AccCanonical]

theorem storeInstr_canonical (k : CoreId) (i : Instr) (d : Disp) (h : Finding) (n : Nat) (bs : List Word → List Byte) :
    NextCanonical (storeInstr k i d h n bs s) := by
  grind [storeInstr, advance_canonical, coreInstr_canonical, raise_canonical, stackEffect_canonical, stopCore_canonical,
    storeBytes_canonical, waitAt_canonical, NextCanonical, AccCanonical]

theorem execUndefinedOpcode_canonical (k : CoreId) (bytes : List Byte) : NextCanonical (execUndefinedOpcode k bytes s) := by
  grind [execUndefinedOpcode, coreInstr_canonical, NextCanonical]

/-! ### Command fetch -/

theorem rejectPacket_canonical (src : CmdSrc) (ws : List Word) (status : Nat) : (s.rejectPacket src ws status).Canonical :=
  replyTo_canonical hs _ _ _ _

theorem acceptPacket_canonical (src : CmdSrc) (ws : List Word) : (s.acceptPacket src ws).Canonical := by
  have hrej (st : Nat) : (s.rejectPacket src ws st).Canonical := rejectPacket_canonical hs src ws st
  have hadd (c : Cmd) : ({ s with cmds := s.cmds ++ [c] } : State).nopSweep.Canonical :=
    nopSweep_canonical (s := { s with cmds := s.cmds ++ [c] }) hs
  cases src <;> grind [State.acceptPacket, modQp_canonical]

theorem execCommandFetch_canonical (h : HostPort) (q : Fin 64) (pkt : Option (List Word)) :
    NextCanonical (execCommandFetch h q pkt s) := by
  unfold execCommandFetch
  split <;> grind [acceptPacket_canonical, modQp_canonical, qpError_canonical, NextCanonical]

theorem execInProgress_canonical (src : CmdSrc) (tag : Nat) : NextCanonical (execInProgress src tag s) := by
  grind [execInProgress, modCmd_canonical, replyTo_canonical, NextCanonical]

/-! ### DMA commands -/

theorem dmaCmdStart_canonical (p : Nat) (c : Cmd) (op : Nat) : (s.dmaCmdStart p c op).Canonical := by
  grind [State.dmaCmdStart, drawFree_canonical, modCluster_canonical, modCmd_canonical, modPart_canonical, nopSweep_canonical,
    foldl_canonical]

theorem dmaCommand_canonical (src : CmdSrc) (tag opcode op : Nat) : (s.dmaCommand src tag opcode op).Canonical := by
  grind [State.dmaCommand, dmaCmdStart_canonical, finish_canonical]

/-! ### Flag queues -/

theorem entryDo_canonical (p k : Nat) (e : FqEntry) : (s.entryDo p k e).Canonical := by
  grind [State.entryDo, cltFlushStream_canonical, cltIssue_canonical, cltPost_canonical, flagSend_canonical, listQueue_canonical,
    modEng_canonical]

theorem execFlagQueuePerform_canonical (k : CoreId) : NextCanonical (execFlagQueuePerform k s) := by
  grind [execFlagQueuePerform, entryDo_canonical, modCluster_canonical, modCore_canonical, presentedDone_canonical, NextCanonical]

/-! ### Stacks of memory -/

theorem execPatrolScrub_canonical (pc : Fin 768) (e : Ecc) : NextCanonical (execPatrolScrub pc e s) := by
  grind [execPatrolScrub, modHbm_canonical, pcCorrected_canonical, pcUncorrectable_canonical, scrubLoss_canonical, NextCanonical]

theorem loseRange_canonical (p a n : Nat) : (s.loseRange p a n).Canonical := by
  grind [State.loseRange, addPoison_canonical, modPart_canonical, rangeLost_canonical, foldl_canonical]

theorem cellarLost_canonical (p : Nat) (lines : List Nat) : (s.cellarLost p lines).Canonical := by
  grind [State.cellarLost, modPart_canonical, rangeLost_canonical, foldl_canonical]

theorem migrReleased_canonical (p : Nat) : (s.migrReleased p).Canonical := hostsDrain_canonical (rxRelease_canonical hs _)

theorem execPcMapoutComplete_canonical (pc : Fin 768) (lost : PcLoss) : NextCanonical (execPcMapoutComplete pc lost s) := by
  unfold execPcMapoutComplete
  dsimp only
  split <;> grind [cellarLost_canonical, finish_canonical, handled_canonical, loseRange_canonical, migrReleased_canonical,
    modHbm_canonical, modPart_canonical, partEvent_canonical, foldl_canonical, NextCanonical]

/-! ### Maintenance -/

theorem lineInstr_canonical (k : CoreId) (i : Instr) (illegal : Option Nat) (f : State → Nat → State) (hf : ∀ u v, u.Canonical →
    (f u v).Canonical) :
    NextCanonical (lineInstr k i illegal f s) := by
  grind [lineInstr, advance_canonical, coreInstr_canonical, stackEffect_canonical, NextCanonical]

theorem plainInstr_canonical (k : CoreId) (i : Instr) (maxRing : Nat) (illegal : Option Nat) (f : State → State) (hf : ∀ u,
    u.Canonical → (f u).Canonical) :
    NextCanonical (plainInstr k i maxRing illegal f s) := by
  grind [plainInstr, advance_canonical, coreInstr_canonical, NextCanonical]

theorem execDinv_canonical (k : CoreId) : NextCanonical (execDinv k s) := by
  grind [execDinv, lineInstr_canonical, modCore_canonical]

theorem execDinva_canonical (k : CoreId) : NextCanonical (execDinva k s) := by
  grind [execDinva, modCore_canonical, plainInstr_canonical]

theorem execIinv_canonical (k : CoreId) : NextCanonical (execIinv k s) := by
  grind [execIinv, lineInstr_canonical, modCore_canonical]

theorem execIinva_canonical (k : CoreId) : NextCanonical (execIinva k s) := by
  grind [execIinva, modCore_canonical, plainInstr_canonical]

theorem execL2fl_canonical (k : CoreId) : NextCanonical (execL2fl k s) := by
  grind [execL2fl, lineInPlace_canonical, lineInstr_canonical]

theorem execL2fla_canonical (k : CoreId) : NextCanonical (execL2fla k s) := by
  grind [execL2fla, allInPlace_canonical, plainInstr_canonical]

theorem l2Invalidate_canonical (c line : Nat) : (s.l2Invalidate c line).Canonical := hs

theorem execL2inv_canonical (k : CoreId) : NextCanonical (execL2inv k s) := by
  grind [execL2inv, l2Invalidate_canonical, lineInPlace_canonical, lineInstr_canonical]

theorem execL2inva_canonical (k : CoreId) : NextCanonical (execL2inva k s) := by
  grind [execL2inva, allInPlace_canonical, l2Refresh_canonical, plainInstr_canonical]

theorem execMfence_canonical (k : CoreId) : NextCanonical (execMfence k s) := by
  grind [execMfence, advance_canonical, cltFlushStream_canonical, coreInstr_canonical, drainCore_canonical, waitAt_canonical,
    NextCanonical]

theorem execMergeEntryInPlace_canonical (c : ClusterId) (line : Nat) : NextCanonical (execMergeEntryInPlace c line s) := by
  grind [execMergeEntryInPlace, entryInPlace_canonical, NextCanonical]

theorem execL2MaintenanceDone_canonical (c : ClusterId) : NextCanonical (execL2MaintenanceDone c s) := by
  grind [execL2MaintenanceDone, l2WorkDone_canonical, modCluster_canonical, NextCanonical]

theorem execScratchpadRemoteWrite_canonical (k : CoreId) (h : Ecc) : NextCanonical (execScratchpadRemoteWrite k h s) := by
  grind [execScratchpadRemoteWrite, modCore_canonical, stopCore_canonical, windowReject_canonical, writeCells_canonical,
    NextCanonical]

theorem execScratchpadScrub_canonical (u : ScrubUnit) (off : Nat) (h : Ecc) : NextCanonical (execScratchpadScrub u off h s) := by
  unfold execScratchpadScrub
  split <;> grind [eccRead_canonical, NextCanonical]

/-! ### The network -/

theorem execLaneFault_canonical (l : Fin 64) : NextCanonical (execLaneFault l s) := by
  grind [execLaneFault, handleDetection_canonical, portDown_canonical, NextCanonical]

theorem execLinkUp_canonical (port : Fin 64) (far : FarEnd) : NextCanonical (execLinkUp port far s) := by
  grind [execLinkUp, modGroup_canonical, partEvent_canonical, pathsUp_canonical, NextCanonical]

theorem execNegotiate_canonical (port : Fin 64) : NextCanonical (execNegotiate port s) := by
  grind [execNegotiate, modGroup_canonical, partEvent_canonical, NextCanonical]

theorem sendPfc_canonical (n prio quanta : Nat) : (s.sendPfc n prio quanta).Canonical := hs

theorem xoffCheck_canonical (n prio : Nat) : (s.xoffCheck n prio).Canonical := by
  grind [State.xoffCheck, modNetPort_canonical, sendPfc_canonical]

theorem frameGood_canonical (n prio num : Nat) : (s.frameGood n prio num).Canonical := by
  grind [State.frameGood, modNetPort_canonical]

theorem frameBad_canonical (n : Nat) : (s.frameBad n).Canonical := by grind [State.frameBad, modNetPort_canonical, send_canonical]
theorem stampNow_canonical : s.stampNow.2.Canonical := hs

theorem ptpReceive_canonical (n : Nat) (m : PtpMsg) : (s.ptpReceive n m).Canonical := by
  grind [State.ptpReceive, stampNow_canonical, canonical_iff]

theorem rxBuffer_canonical (n prio len : Nat) : (s.rxBuffer n prio len).Canonical :=
  xoffCheck_canonical (modNetPort_canonical hs _ _) _ _

theorem frameDeliver_canonical (n : Nat) (f : Frame) : (s.frameDeliver n f).Canonical := by
  grind [State.frameDeliver, badHdr_canonical, cltUnknown_canonical, ptpReceive_canonical, canonical_iff]

theorem execFrameReceived_canonical (port : Fin 64) (f : Frame) (excess : Bool) :
    NextCanonical (execFrameReceived port f excess s) := by
  grind [execFrameReceived, frameBad_canonical, frameDeliver_canonical, frameGood_canonical, modNetPort_canonical,
    rxBuffer_canonical, NextCanonical]

theorem execPfcFrame_canonical (port : Fin 64) (prio : Fin 8) (quanta : BitVec 16) :
    NextCanonical (execPfcFrame port prio quanta s) := by
  grind [execPfcFrame, modNetPort_canonical, txRelease_canonical, NextCanonical]

theorem execXoffRepeat_canonical (port : Fin 64) (prio : Fin 8) : NextCanonical (execXoffRepeat port prio s) := by
  grind [execXoffRepeat, sendPfc_canonical, NextCanonical]

theorem execPauseExpiry_canonical (port : Fin 64) (prio : Fin 8) : NextCanonical (execPauseExpiry port prio s) :=
  txRelease_canonical (modNetPort_canonical hs _ _) _

theorem execXon_canonical (port : Fin 64) (prio : Fin 8) (n : Nat) : NextCanonical (execXon port prio n s) := by
  grind [execXon, modNetPort_canonical, sendPfc_canonical, NextCanonical]

theorem execReplayRequest_canonical (port : Fin 64) (start : Nat) : NextCanonical (execReplayRequest port start s) := by
  grind [execReplayRequest, txPut_canonical, foldl_canonical, NextCanonical]

theorem execLlrfail_canonical (port : Fin 64) : NextCanonical (execLlrfail port s) := by
  grind [execLlrfail, modNetPort_canonical, NextCanonical]

theorem skewSet_canonical : s.skewSet.Canonical := by grind [State.skewSet, everyEvent_canonical, canonical_iff]

theorem servo_canonical (offset : Word) (inc : Nat) : (s.servo offset inc).Canonical := by
  grind [State.servo, skewSet_canonical, canonical_iff]

theorem ptpSend_canonical (n : Nat) (m : PtpMsg) : (s.ptpSend n m).Canonical := hs

theorem ptpTake_canonical (n : Nat) (m : PtpMsg) (t : Word) (inc : Nat) : (s.ptpTake n m t inc).Canonical := by
  grind [State.ptpTake, ptpSend_canonical, servo_canonical, stampNow_canonical, canonical_iff]

theorem execPtpMessage_canonical (port : Fin 64) (n : Nat) (inc : BitVec 40) (lock : Bool) :
    NextCanonical (execPtpMessage port n inc lock s) := by
  grind [execPtpMessage, ptpTake_canonical, NextCanonical, canonical_iff]

theorem execGtimeTick_canonical : NextCanonical (execGtimeTick s) := by
  grind [execGtimeTick, modAcct_canonical, foldl_canonical, NextCanonical, canonical_iff]

theorem execTimeSkew_canonical (offset : BitVec 64) : NextCanonical (execTimeSkew offset s) := by
  grind [execTimeSkew, skewSet_canonical, NextCanonical]

theorem execTimeSkewClear_canonical (offset : BitVec 64) : NextCanonical (execTimeSkewClear offset s) := by
  grind [execTimeSkewClear, everyEvent_canonical, NextCanonical, canonical_iff]

/-! ### Queries -/

theorem query_canonical (src : CmdSrc) (tag what : Nat) (f : Cmd → Word × Word) : (s.query src tag what f).Canonical := by
  grind [State.query, finish_canonical]

theorem cmdPut_canonical (c : Cmd) (bs : List Byte) : (s.cmdPut c bs).2.Canonical := by grind [State.cmdPut, cmdWrite_canonical]
theorem putFailed_canonical (c : Cmd) (reason : Nat) : (s.putFailed c reason).Canonical := finish_canonical hs _ _

theorem telemetry_canonical (src : CmdSrc) (tag set_ : Nat) (rs : Cmd → List (List Byte)) (after : Cmd → Nat → State → State)
    (hafter : ∀ u v w, w.Canonical → (after u v w).Canonical) :
    (s.telemetry src tag set_ rs after).Canonical := by
  grind [State.telemetry, cmdPut_canonical, finish_canonical, putFailed_canonical]

theorem execTelemetryTemperatures_canonical (src : CmdSrc) (tag : Nat) : NextCanonical (execTelemetryTemperatures src tag s) := by
  grind [execTelemetryTemperatures, telemetry_canonical, NextCanonical]

theorem execTelemetryPower_canonical (src : CmdSrc) (tag : Nat) : NextCanonical (execTelemetryPower src tag s) := by
  grind [execTelemetryPower, telemetry_canonical, NextCanonical]

theorem execTelemetryClocks_canonical (src : CmdSrc) (tag : Nat) : NextCanonical (execTelemetryClocks src tag s) := by
  grind [execTelemetryClocks, telemetry_canonical, NextCanonical]

theorem execTelemetryAccounting_canonical (src : CmdSrc) (tag : Nat) : NextCanonical (execTelemetryAccounting src tag s) := by
  grind [execTelemetryAccounting, telemetry_canonical, NextCanonical]

theorem execTelemetryAccountingClear_canonical (src : CmdSrc) (tag : Nat) :
    NextCanonical (execTelemetryAccountingClear src tag s) := by
  grind [execTelemetryAccountingClear, modPart_canonical, telemetry_canonical, NextCanonical]

theorem execErrlogRead_canonical (src : CmdSrc) (tag : Nat) : NextCanonical (execErrlogRead src tag s) := by
  grind [execErrlogRead, cmdPut_canonical, finish_canonical, putFailed_canonical, NextCanonical]

/-! ### Partitions -/

theorem zeroStacks_canonical (ns : List Nat) : (s.zeroStacks ns).Canonical := ⟨memWf_filter _ hs.1, hs.2⟩
theorem wipePart_canonical (p : Nat) : (s.wipePart p).Canonical := ⟨memWf_filter _ (zeroStacks_canonical hs _).1, hs.2⟩

theorem zeroingBegins_canonical (p : Nat) : (s.zeroingBegins p).Canonical := by
  grind [State.zeroingBegins, modCluster_canonical, modHbm_canonical, foldl_canonical]

theorem execPartCreate_canonical (src : CmdSrc) (tag : Nat) : NextCanonical (execPartCreate src tag s) := by
  grind [execPartCreate, groupMode_canonical, refuse_canonical, setPart_canonical, startCmd_canonical, zeroingBegins_canonical,
    foldl_canonical, NextCanonical]

theorem createDone_canonical (p : Nat) : (s.createDone p).Canonical := by
  grind [State.createDone, finish_canonical, modHost_canonical, modPart_canonical, wipePart_canonical]

theorem destroyBegin_canonical (p : Nat) : (s.destroyBegin p).Canonical := by
  grind [State.destroyBegin, failPart_canonical, hostsDrain_canonical, modPart_canonical, zeroingBegins_canonical]

theorem execPartDestroy_canonical (src : CmdSrc) (tag : Nat) : NextCanonical (execPartDestroy src tag s) := by
  grind [execPartDestroy, destroyBegin_canonical, modPart_canonical, refuse_canonical, startCmd_canonical, NextCanonical]

theorem execPartDestroyTimeout_canonical (p : PartId) : NextCanonical (execPartDestroyTimeout p s) := by
  grind [execPartDestroyTimeout, modPart_canonical, refuse_canonical, NextCanonical]

theorem destroyDone_canonical (p : Nat) : (s.destroyDone p).Canonical := by
  grind [State.destroyDone, finish_canonical, modGroup_canonical, portOff_canonical, setPart_canonical, wipePart_canonical,
    foldl_canonical]

theorem execZeroingComplete_canonical (z : Option PartId) : NextCanonical (execZeroingComplete z s) := by
  unfold execZeroingComplete
  split
  · split
    exacts [zeroStacks_canonical hs _, hs]
  · split
    exacts [createDone_canonical hs _, destroyDone_canonical hs _, hs]

theorem flr_canonical (h : Nat) : (s.flr h).Canonical := by
  grind [State.flr, failPart_canonical, modHost_canonical, qpDiscard_canonical, foldl_canonical]

theorem execFlr_canonical (h : HostPort) : NextCanonical (execFlr h s) := by grind [execFlr, flr_canonical, NextCanonical]

theorem execPerst_canonical (h : HostPort) (hot : Bool) : NextCanonical (execPerst h hot s) := by
  grind [execPerst, flr_canonical, modHost_canonical, trainHost_canonical, NextCanonical]

theorem execSelftest_canonical (src : CmdSrc) (tag : Nat) : NextCanonical (execSelftest src tag s) := by
  grind [execSelftest, modHandling_canonical, recordOpen_canonical, refuse_canonical, startCmd_canonical, NextCanonical]

theorem execMapout_canonical (src : CmdSrc) (tag : Nat) : NextCanonical (execMapout src tag s) := by
  grind [execMapout, finish_canonical, laneMark_canonical, laneTrain_canonical, lastingAction_canonical, modHandling_canonical,
    recordClose_canonical, recordOpen_canonical, refuse_canonical, startCmd_canonical, NextCanonical]

/-! ### Management messages -/

theorem execSetEndpointId_canonical (b : Binding) (eid : BitVec 8) : NextCanonical (execSetEndpointId b eid s) := by
  grind [execSetEndpointId, send_canonical, NextCanonical, canonical_iff]

theorem execMctpVendorMessage_canonical (b : Binding) (vendor : BitVec 16) (kind : BitVec 8) (packet : List Word) :
    NextCanonical (execMctpVendorMessage b vendor kind packet s) := by
  grind [execMctpVendorMessage, acceptPacket_canonical, NextCanonical]

theorem pldmReply_canonical (b : Binding) (type cmd code : Nat) (data : List Word) :
    (s.pldmReply b type cmd code data).Canonical := by
  grind [State.pldmReply, send_canonical]

theorem execGetpdr_canonical (b : Binding) (handle : BitVec 32) : NextCanonical (execGetpdr b handle s) := by
  grind [execGetpdr, pldmReply_canonical, NextCanonical]

theorem execGetsensorreading_canonical (b : Binding) (id : BitVec 16) : NextCanonical (execGetsensorreading b id s) := by
  grind [execGetsensorreading, pldmReply_canonical, NextCanonical]

theorem execGetstatesensorreadings_canonical (b : Binding) (id : BitVec 16) :
    NextCanonical (execGetstatesensorreadings b id s) := by
  grind [execGetstatesensorreadings, pldmReply_canonical, NextCanonical]

theorem execSetnumericeffectervalue_canonical (b : Binding) (id : BitVec 16) (v : BitVec 32) :
    NextCanonical (execSetnumericeffectervalue b id v s) := by
  grind [execSetnumericeffectervalue, pldmReply_canonical, NextCanonical, canonical_iff]

theorem execGetnumericeffectervalue_canonical (b : Binding) (id : BitVec 16) :
    NextCanonical (execGetnumericeffectervalue b id s) := by
  grind [execGetnumericeffectervalue, pldmReply_canonical, NextCanonical]

theorem execPlatformeventmessage_canonical (b : Binding) : NextCanonical (execPlatformeventmessage b s) := by
  grind [execPlatformeventmessage, drawFree_canonical, pldmReply_canonical, NextCanonical]

theorem execQuerydeviceidentifiers_canonical (b : Binding) : NextCanonical (execQuerydeviceidentifiers b s) := by
  grind [execQuerydeviceidentifiers, drawFree_canonical, pldmReply_canonical, NextCanonical]

theorem execGetfirmwareparameters_canonical (b : Binding) : NextCanonical (execGetfirmwareparameters b s) := by
  grind [execGetfirmwareparameters, drawFree_canonical, pldmReply_canonical, NextCanonical]

theorem setUpd_canonical (u : UpdSt) : (s.setUpd u).Canonical := hs

theorem updIn_canonical (b : Binding) (cmd : Nat) (u : UpdSt) (f : State → State) (hf : ∀ u, u.Canonical → (f u).Canonical) :
    (s.updIn b cmd u f).Canonical := by
  grind [State.updIn, pldmReply_canonical]

theorem execRequestupdate_canonical (b : Binding) (d0 d1 : List Byte) : NextCanonical (execRequestupdate b d0 d1 s) := by
  grind [execRequestupdate, pldmReply_canonical, NextCanonical, canonical_iff]

theorem execPasscomponenttable_canonical (b : Binding) (id : BitVec 16) : NextCanonical (execPasscomponenttable b id s) := by
  grind [execPasscomponenttable, pldmReply_canonical, setUpd_canonical, updIn_canonical, NextCanonical]

theorem execUpdatecomponent_canonical (b : Binding) (id : BitVec 16) (size : BitVec 32) :
    NextCanonical (execUpdatecomponent b id size s) := by
  grind [execUpdatecomponent, pldmReply_canonical, updIn_canonical, NextCanonical, canonical_iff]

theorem execRequestfirmwaredata_canonical (b : Binding) (off : BitVec 32) (bytes : List Byte) :
    NextCanonical (execRequestfirmwaredata b off bytes s) := by
  grind [execRequestfirmwaredata, send_canonical, NextCanonical, canonical_iff]

theorem execTransfercomplete_canonical (b : Binding) : NextCanonical (execTransfercomplete b s) := by
  grind [execTransfercomplete, pldmReply_canonical, setUpd_canonical, NextCanonical]

theorem execVerifycomplete_canonical (b : Binding) (img : SlotImage) : NextCanonical (execVerifycomplete b img s) := by
  grind [execVerifycomplete, pldmReply_canonical, setUpd_canonical, NextCanonical]

theorem execApplycomplete_canonical (b : Binding) : NextCanonical (execApplycomplete b s) := by
  grind [execApplycomplete, pldmReply_canonical, send_canonical, NextCanonical, canonical_iff]

theorem execActivatefirmware_canonical (b : Binding) (self : Bool) : NextCanonical (execActivatefirmware b self s) := by
  grind [execActivatefirmware, pldmReply_canonical, setUpd_canonical, updIn_canonical, NextCanonical]

theorem execCancelupdate_canonical (b : Binding) : NextCanonical (execCancelupdate b s) := by
  grind [execCancelupdate, pldmReply_canonical, setUpd_canonical, NextCanonical]

/-! ### Register writes -/

theorem writeOutcome_canonical (k : Nat) (r : Acc Unit) (hr : AccCanonical r) : (s.writeOutcome k r).Canonical := by
  cases r with
  | ok _ t => exact hr
  | ev e => exact raise_canonical hs k e
  | wait => exact hs
  | lost t => exact hr

theorem coreRegWrite_canonical (k pa : Nat) (v : Word) : (s.coreRegWrite k pa v).Canonical := by
  grind [State.coreRegWrite, raise_canonical, storeReg_canonical, writeOutcome_canonical]

theorem regWrite_canonical (m : Writer) (pa : Nat) (v : Word) : (s.regWrite m pa v).Canonical := by
  unfold State.regWrite
  split <;> grind [coreRegWrite_canonical, hostRegStore_canonical, hostsDrain_canonical]

theorem execRegisterWrite_canonical (m : Writer) (pa : BitVec 48) (v : Word) : NextCanonical (execRegisterWrite m pa v s) := by
  grind [execRegisterWrite, regWrite_canonical, NextCanonical]

/-! ### Rows of a tile -/

theorem tileIssueFault_canonical (k : Nat) (f : TileFail) : (s.tileIssueFault k f).Canonical :=
  raise_canonical (modCore_canonical hs _ _) _ _

theorem tileIssue_canonical (k : CoreId) (i : Instr) (d : Option Disp) (shaped : Bool) (shp : List (BitVec 24)) (n : Nat) (mk :
    Core → List Word → Except TileFail TileOp) :
    NextCanonical (tileIssue k i d shaped shp n mk s) := by
  grind [tileIssue, advance_canonical, coreInstr_canonical, modCore_canonical, stackEffect_canonical, tileIssueFault_canonical,
    waitAt_canonical, NextCanonical]

theorem tileLines_canonical (k : Nat) (xs : List (List Nat)) (e : Finding) : (s.tileLines k xs e).2.Canonical := by
  fun_induction State.tileLines s k xs e <;> grind [State.tileLines, cachedBytes_canonical, eccSpan_canonical]

theorem tileRead_canonical (k : Nat) (pas : List Nat) (h : Finding) : (s.tileRead k pas h).2.Canonical :=
  tileLines_canonical hs _ _ _

theorem mbMakeRoom_canonical (c line : Nat) : (s.mbMakeRoom c line).Canonical := by
  grind [State.mbMakeRoom, entryInPlace_canonical]

theorem tileWriteLines_canonical (k stamp : Nat) (xs : List (List (Nat × Byte))) (e : Finding) :
    (s.tileWriteLines k stamp xs e).1.Canonical := by
  induction xs generalizing s e with
  | nil => exact hs
  | cons cs rest ih =>
    unfold State.tileWriteLines
    dsimp only
    split
    · have hroom := mbMakeRoom_canonical hs (clusterOf k) ((cs.headD (0, 0)).1 / 64)
      rw [if_pos rfl]
      refine ih ?_ _
      cases hstore : (s.mbMakeRoom (clusterOf k) ((cs.headD (0, 0)).1 / 64)).cachedStore k (cs.headD (0, 0)).1 (cs.map (·.2)) e
        stamp with
      | none => exact hroom
      | some t => exact cachedStore_canonical hroom _ _ _ _ _ hstore
    · split
      · exact ih (writeCells_canonical hs _ _ _) _
      · exact writeCells_canonical hs _ _ _

theorem tileWrite_canonical (k stamp : Nat) (cells : List (Nat × Byte)) (h : Finding) :
    (s.tileWrite k stamp cells h).1.Canonical :=
  tileWriteLines_canonical hs _ _ _ _

/-! ### Tile instructions -/

theorem readRows_canonical (k : Nat) (ring : Fin 4) (n : Nat) (h : Option (Nat × Finding)) (xs : List (Nat × Word)) :
    RowsCanonical (s.readRows k ring n h xs) := by
  fun_induction State.readRows s k ring n h xs <;> grind [State.readRows, tileRead_canonical, RowsCanonical]

theorem writeRows_canonical (k : Nat) (ring : Fin 4) (stamp : Nat) (h : Option (Nat × Finding)) (xs : List ((Nat × Word) × List
    Byte)) :
    RowsCanonical (s.writeRows k ring stamp h xs) := by
  fun_induction State.writeRows s k ring stamp h xs <;> grind [State.writeRows, tileWrite_canonical, RowsCanonical]

theorem modTile_canonical (k : Nat) (f : Tile → Tile) : (s.modTile k f).Canonical := hs
theorem rowFail_canonical (r : Nat) (f : RowFault) (wr : Bool) : TileCanonical (rowFail s r f wr) := hs

theorem runTld_canonical (k : Nat) (ring : Fin 4) (h : Option (Nat × Finding)) (t : Nat) (base stride : Word) (x : TShape) :
    TileCanonical (runTld s k ring h t base stride x) := by
  grind [runTld, modTile_canonical, readRows_canonical, rowFail_canonical, RowsCanonical, TileCanonical]

theorem runStore_canonical (k : Nat) (e : TileEntry) (h : Option (Nat × Finding)) (rows : List ((Nat × Word) × List Byte)) (rec_ :
    TileRec) :
    TileCanonical (runStore s k e h rows rec_) := by
  grind [runStore, rowFail_canonical, writeRows_canonical, RowsCanonical, TileCanonical]

theorem runTmma_canonical (k a ta tb : Nat) (xa xb : TShape) (pd : Word) : TileCanonical (runTmma s k a ta tb xa xb pd) := by
  grind [runTmma, modTile_canonical, TileCanonical]

theorem fillDone_canonical (k a : Nat) (rows : List (List Byte)) : TileCanonical (fillDone s k a rows) := by
  grind [fillDone, modTile_canonical, TileCanonical]

theorem tileRun_canonical (k : Nat) (e : TileEntry) (h : Option (Nat × Finding)) : TileCanonical (s.tileRun k e h) := by
  grind [State.tileRun, fillDone_canonical, modTile_canonical, readRows_canonical, rowFail_canonical, runStore_canonical,
    runTld_canonical, runTmma_canonical, RowsCanonical, TileCanonical]

theorem tilePart_canonical (k : Nat) (e : TileEntry) (n : Nat) (h : Option (Nat × Finding)) : (s.tilePart k e n h).Canonical := by
  grind [State.tilePart, modTile_canonical, stopCore_canonical, writeRows_canonical, RowsCanonical]

theorem execTileInstructionComplete_canonical (k : CoreId) (h : TileRun) : NextCanonical (execTileInstructionComplete k h s) := by
  grind [execTileInstructionComplete, modCore_canonical, modTile_canonical, stopCore_canonical, tilePart_canonical,
    tileRun_canonical, NextCanonical, TileCanonical]

theorem execTileExecutionFault_canonical (k : CoreId) : NextCanonical (execTileExecutionFault k s) := by
  grind [execTileExecutionFault, modCore_canonical, tileRun_canonical, NextCanonical, TileCanonical]

theorem execTcfg_canonical (k : CoreId) (mask : BitVec 8) : NextCanonical (execTcfg k mask s) := by
  grind [execTcfg, advance_canonical, coreInstr_canonical, modTile_canonical, stackEffect_canonical, tileIssueFault_canonical,
    waitAt_canonical, NextCanonical]

theorem execTmma_canonical (k : CoreId) (acc : Fin 2) (ta tb : Fin 8) (shp : Option (BitVec 24 × BitVec 24)) :
    NextCanonical (execTmma k acc ta tb shp s) := by
  unfold execTmma
  split <;> grind [tileIssue_canonical]

theorem execTsync_canonical (k : CoreId) : NextCanonical (execTsync k s) := by
  grind [execTsync, advance_canonical, coreInstr_canonical, waitAt_canonical, NextCanonical]

/-! ### Vector instructions -/

theorem modVsu_canonical (k : Nat) (f : Vsu → Vsu) : (s.modVsu k f).Canonical := hs
theorem cacheRead_canonical (k : Nat) (h : Ecc) : (s.cacheRead k h).1.Canonical := by grind [State.cacheRead, detect_canonical]

theorem vread_canonical (k : Nat) (ring : Fin 4) (h : Ecc) (i : Nat) (x : VStream) (r c : Nat) :
    VResCanonical (s.vread k ring h i x r c) := by
  grind [State.vread, cacheRead_canonical, eccSpan_canonical, VResCanonical]

theorem vreads_canonical (k : Nat) (ring : Fin 4) (h : Hit) (xs : List (Nat × VStream × Nat × Nat)) :
    VResCanonical (s.vreads k ring h xs) := by
  fun_induction State.vreads s k ring h xs <;> grind [State.vreads, vread_canonical, VResCanonical]

theorem vwrite_canonical (k : Nat) (ring : Fin 4) (h : Ecc) (x : VStream) (cols r c code : Nat) :
    VResCanonical (s.vwrite k ring h x cols r c code) := by
  grind [State.vwrite, cacheRead_canonical, modVsu_canonical, writeCells_canonical, VResCanonical]

theorem vecFail_canonical (k : Nat) (f : VecFault) : (s.vecFail k f).Canonical := hs
theorem vecLost_canonical (k : Nat) : (s.vecLost k).Canonical := hs

theorem vecFetch_canonical (k : Nat) (ring : Fin 4) (a : Word) (h : Ecc) {t : State} {ok : Bool} {bs : List Byte} :
    s.vecFetch k ring a h = .ok (t, ok, bs) → t.Canonical := by
  grind [State.vecFetch, eccSpan_canonical]

theorem vecReread_canonical (k : Nat) (e : VecEntry) (h : Ecc) : VResCanonical (s.vecReread k e h) := by
  grind [State.vecReread, modVsu_canonical, vecFetch_canonical, VResCanonical]

theorem vecBegin_canonical (k op : Nat) (h : Hit) (run : State → VecEntry → Hit → State) (hrun : ∀ u v w, u.Canonical → (run u v
    w).Canonical) :
    (s.vecBegin k op h run).Canonical := by
  unfold State.vecBegin
  split <;> grind [vecFail_canonical, vecLost_canonical, vecReread_canonical, VResCanonical]

theorem vecElems_canonical (k : Nat) (h : Hit) (n : Nat) : (s.vecElems k h n).Canonical := by
  fun_induction State.vecElems s k h n <;> grind [State.vecElems, modVsu_canonical, vecFail_canonical, vecLost_canonical,
    vreads_canonical, vwrite_canonical, VResCanonical]

theorem elemCommand_canonical (k op n : Nat) (h : Hit) : NextCanonical (elemCommand k op n h s) := by
  grind [elemCommand, vecBegin_canonical, vecElems_canonical, NextCanonical]

theorem vecWrites_canonical (k : Nat) (ring : Fin 4) (h : Hit) (d : VStream) (cols : Nat) (xs : List ((Nat × Nat) × VOut)) :
    VResCanonical (s.vecWrites k ring h d cols xs) := by
  fun_induction State.vecWrites s k ring h d cols xs <;> grind [State.vecWrites, vwrite_canonical, VResCanonical]

theorem vecBefore_canonical (k : Nat) (ring : Fin 4) (h : Hit) (d : VStream) (cols : Nat) (xs : List ((Nat × Nat) × VOut)) :
    (s.vecBefore k ring h d cols xs).Canonical := by
  fun_induction State.vecBefore s k ring h d cols xs <;> grind [State.vecBefore, vwrite_canonical, VResCanonical]

theorem vecFold_canonical (k : Nat) (e : VecEntry) (h : Hit) : (s.vecFold k e h).Canonical := by
  unfold State.vecFold
  dsimp only
  split <;> grind [modVsu_canonical, vecBefore_canonical, vecFail_canonical, vecLost_canonical, vecWrites_canonical,
    vreads_canonical, VResCanonical]

theorem foldCommand_canonical (k op : Nat) (h : Hit) : NextCanonical (foldCommand k op h s) := by
  grind [foldCommand, vecBegin_canonical, vecFold_canonical, NextCanonical]

theorem vecBlock_canonical (k : Nat) (ring : Fin 4) (h : Ecc) (base : Word) (off dir b : Nat) :
    VResCanonical (s.vecBlock k ring h base off dir b) := by
  unfold State.vecBlock
  split <;> grind [cacheRead_canonical, eccSpan_canonical, modVsu_canonical, placeCells_canonical, VResCanonical]

theorem vecBlocks_canonical (k : Nat) (ring : Fin 4) (h : Hit) (base : Word) (off len dir n : Nat) :
    (s.vecBlocks k ring h base off len dir n).Canonical := by
  fun_induction State.vecBlocks s k ring h base off len dir n <;> grind [State.vecBlocks, modVsu_canonical, vecBlock_canonical,
    vecFail_canonical, vecLost_canonical, VResCanonical]

theorem vecBlocksDone_canonical (k len : Nat) : (s.vecBlocksDone k len).Canonical := hs

theorem cacheCommand_canonical (k dir n : Nat) (h : Hit) : NextCanonical (cacheCommand k dir n h s) := by
  grind [cacheCommand, vecBlocksDone_canonical, vecBlocks_canonical, NextCanonical]

theorem execVectorInstructionComplete_canonical (k : CoreId) : NextCanonical (execVectorInstructionComplete k s) := by
  grind [execVectorInstructionComplete, modCore_canonical, NextCanonical]

theorem execVectorExecutionFault_canonical (k : CoreId) : NextCanonical (execVectorExecutionFault k s) := by
  grind [execVectorExecutionFault, modCore_canonical, NextCanonical]

theorem vecIssueFault_canonical (k cause stream : Nat) (ev : Ev) : (s.vecIssueFault k cause stream ev).Canonical :=
  raise_canonical (modVsu_canonical hs _ _) _ _

theorem vecEnqueue_canonical (k : Nat) (i : Instr) (pops : Nat) (op : VecOp) (desc : List Byte) :
    (s.vecEnqueue k i pops op desc).Canonical :=
  advance_canonical (modCore_canonical (stackEffect_canonical hs _ _ _ _) _ _) _ _

theorem execVexec_canonical (k : CoreId) (d : DescRead) : NextCanonical (execVexec k d s) := by
  grind [execVexec, coreInstr_canonical, stopCore_canonical, vecEnqueue_canonical, vecFetch_canonical, vecIssueFault_canonical,
    waitAt_canonical, NextCanonical]

theorem execVcache_canonical (k : CoreId) : NextCanonical (execVcache k s) := by
  grind [execVcache, coreInstr_canonical, vecEnqueue_canonical, vecIssueFault_canonical, waitAt_canonical, NextCanonical]

theorem execVsync_canonical (k : CoreId) : NextCanonical (execVsync k s) := by
  grind [execVsync, advance_canonical, coreInstr_canonical, waitAt_canonical, NextCanonical]

/-! ### Waits that end -/

theorem resumeWait_canonical (i : Instr) : NextCanonical (resumeWait i s) := by
  unfold resumeWait
  split
  exacts [loadInstr_canonical hs _ _ _ _ _ _, loadInstr_canonical hs _ _ _ _ _ _, loadInstr_canonical hs _ _ _ _ _ _,
    loadInstr_canonical hs _ _ _ _ _ _, loadInstr_canonical hs _ _ _ _ _ _, loadInstr_canonical hs _ _ _ _ _ _,
    loadInstr_canonical hs _ _ _ _ _ _, storeInstr_canonical hs _ _ _ _ _ _, storeInstr_canonical hs _ _ _ _ _ _,
    storeInstr_canonical hs _ _ _ _ _ _, storeInstr_canonical hs _ _ _ _ _ _, storeInstr_canonical hs _ _ _ _ _ _,
    execTcfg_canonical hs _ _, tileIssue_canonical hs _ _ _ _ _ _ _, tileIssue_canonical hs _ _ _ _ _ _ _, tileIssue_canonical hs
    _ _ _ _ _ _ _, execTmma_canonical hs _ _ _ _ _, tileIssue_canonical hs _ _ _ _ _ _ _, tileIssue_canonical hs _ _ _ _ _ _ _,
    tileIssue_canonical hs _ _ _ _ _ _ _, tileIssue_canonical hs _ _ _ _ _ _ _, execTsync_canonical hs _, execVexec_canonical hs _
    _, execVcache_canonical hs _, execVsync_canonical hs _, execDmaq_canonical hs _ _, execDmaw_canonical hs _ _,
    execEngq_canonical hs _ _, execEngw_canonical hs _ _, flagIssue_canonical hs _ _ _, flagIssue_canonical hs _ _ _,
    flagTest_canonical hs _ _ _, flagWait_canonical hs _ _ _, countIssue_canonical hs _ _ _ _, countIssue_canonical hs _ _ _ _,
    execCfread_canonical hs _ _, execCfwait_canonical hs _ _, remoteFlag_canonical hs _ _ _, remoteFlag_canonical hs _ _ _,
    remoteFlag_canonical hs _ _ _, flagIssue_canonical hs _ _ _, flagIssue_canonical hs _ _ _, flagTest_canonical hs _ _ _,
    flagWait_canonical hs _ _ _, execFenceF_canonical hs _, execMfence_canonical hs _, execMbpost_canonical hs _ _,
    execTend_canonical hs _, execWaiti_canonical hs _, hs]

theorem execWaitConditionMet_canonical (k : CoreId) : NextCanonical (execWaitConditionMet k s) := by
  grind [execWaitConditionMet, modCore_canonical, resumeWait_canonical, takePending_canonical, NextCanonical]

/-! ### Stack instructions -/

theorem execPick_canonical (k : CoreId) (n : BitVec 8) : NextCanonical (execPick k n s) := by
  grind [execPick, advance_canonical, coreInstr_canonical, stackEffect_canonical, NextCanonical]

theorem execToR_canonical (k : CoreId) : NextCanonical (execToR k s) := by
  grind [execToR, advance_canonical, coreInstr_canonical, stackEffect_canonical, NextCanonical]

theorem execFromR_canonical (k : CoreId) : NextCanonical (execFromR k s) := by
  grind [execFromR, advance_canonical, coreInstr_canonical, stackEffect_canonical, NextCanonical]

theorem execFetchR_canonical (k : CoreId) : NextCanonical (execFetchR k s) := by
  grind [execFetchR, advance_canonical, coreInstr_canonical, stackEffect_canonical, NextCanonical]

theorem execRdrop_canonical (k : CoreId) : NextCanonical (execRdrop k s) := by
  grind [execRdrop, advance_canonical, coreInstr_canonical, stackEffect_canonical, NextCanonical]

theorem execLeapc_canonical (k : CoreId) (rel : BitVec 32) : NextCanonical (execLeapc k rel s) := by
  grind [execLeapc, advance_canonical, coreInstr_canonical, stackEffect_canonical, NextCanonical]

/-! ### Staged configuration -/

theorem stagePart_canonical (src : CmdSrc) (tag item : Nat) (check : Nat → Staged → Option Nat) :
    (s.stagePart src tag item check).Canonical := by
  grind [State.stagePart, finish_canonical, modPart_canonical, refuse_canonical]

theorem stageDevice_canonical (src : CmdSrc) (tag item : Nat) : (s.stageDevice src tag item).Canonical := by
  grind [State.stageDevice, finish_canonical, refuse_canonical, canonical_iff]

theorem execConfigCommit_canonical (src : CmdSrc) (tag : Nat) : NextCanonical (execConfigCommit src tag s) := by
  grind [execConfigCommit, modPart_canonical, refuse_canonical, startCmd_canonical, NextCanonical, canonical_iff]

theorem startPaths_canonical (p : Nat) : (s.startPaths p).Canonical := by
  grind [State.startPaths, pathUp_canonical, foldl_canonical]

theorem applyPool_canonical (p : Nat) (x : Staged) : (s.applyPool p x).Canonical := by
  unfold State.applyPool
  split <;> grind [modPart_canonical, canonical_iff, memWf_filter]

theorem applyPart_canonical (p : Nat) (x : Staged) : (s.applyPart p x).Canonical := by
  grind [State.applyPart, applyPool_canonical, modGroup_canonical, modPart_canonical, netCfgWrite_canonical,
    pfcCfgWrite_canonical]

theorem applyDevice_canonical (x : Staged) : (s.applyDevice x).Canonical := by
  grind [State.applyDevice, alertUpdate_canonical, modGroup_canonical, pwrCapWrite_canonical, setCfgDiv_canonical,
    foldl_canonical, canonical_iff]

theorem execConfigApply_canonical (u : Option PartId) : NextCanonical (execConfigApply u s) := by
  unfold execConfigApply
  split
  · split
    · exact hs
    have hdev : ((inOrder s.staged).foldl (fun s x => s.applyDevice x) s).Canonical := foldl_canonical (fun _ x h =>
      applyDevice_canonical h x) _ hs
    dsimp only
    split
    · exact hdev
    · refine finish_canonical ?_ _ _
      exact hdev
  · dsimp only
    split
    · exact hs
    split
    · exact hs
    split
    · exact hs
    split
    · exact refuse_canonical (modPart_canonical hs _ _) _ _
    · exact preemptCheck_canonical (finish_canonical (startPaths_canonical (modPart_canonical
        (foldl_canonical (fun _ x h => applyPart_canonical h _ x) _ (modPart_canonical hs _ _)) _ _) _) _ _) _

theorem execConfigQuiesceTimeout_canonical (p : PartId) : NextCanonical (execConfigQuiesceTimeout p s) := by
  grind [execConfigQuiesceTimeout, modPart_canonical, preemptCheck_canonical, refuse_canonical, NextCanonical]

/-! ### Every command -/

theorem exec_canonical (i : Instr) : NextCanonical (exec i s) :=
  match i with
  | .nop k => show NextCanonical (execNop k s) from stackInstr_canonical hs _ _ _ _ _
  | .drop k => show NextCanonical (execDrop k s) from stackInstr_canonical hs _ _ _ _ _
  | .dup k => show NextCanonical (execDup k s) from stackInstr_canonical hs _ _ _ _ _
  | .swap k => show NextCanonical (execSwap k s) from stackInstr_canonical hs _ _ _ _ _
  | .over k => show NextCanonical (execOver k s) from stackInstr_canonical hs _ _ _ _ _
  | .rot k => show NextCanonical (execRot k s) from stackInstr_canonical hs _ _ _ _ _
  | .nip k => show NextCanonical (execNip k s) from stackInstr_canonical hs _ _ _ _ _
  | .tuck k => show NextCanonical (execTuck k s) from stackInstr_canonical hs _ _ _ _ _
  | .twoDrop k => show NextCanonical (execTwoDrop k s) from stackInstr_canonical hs _ _ _ _ _
  | .twoDup k => show NextCanonical (execTwoDup k s) from stackInstr_canonical hs _ _ _ _ _
  | .pick k n => execPick_canonical hs k n
  | .toR k => execToR_canonical hs k
  | .fromR k => execFromR_canonical hs k
  | .fetchR k => execFetchR_canonical hs k
  | .rdrop k => execRdrop_canonical hs k
  | .lit8 k v => show NextCanonical (execLit8 k v s) from stackInstr_canonical hs _ _ _ _ _
  | .lit16 k v => show NextCanonical (execLit16 k v s) from stackInstr_canonical hs _ _ _ _ _
  | .lit32 k v => show NextCanonical (execLit32 k v s) from stackInstr_canonical hs _ _ _ _ _
  | .lit64 k v => show NextCanonical (execLit64 k v s) from stackInstr_canonical hs _ _ _ _ _
  | .litu32 k v => show NextCanonical (execLitu32 k v s) from stackInstr_canonical hs _ _ _ _ _
  | .leapc k rel => execLeapc_canonical hs k rel
  | .addi8 k v => show NextCanonical (execAddi8 k v s) from stackInstr_canonical hs _ _ _ _ _
  | .addi32 k v => show NextCanonical (execAddi32 k v s) from stackInstr_canonical hs _ _ _ _ _
  | .add k => show NextCanonical (execAdd k s) from stackInstr_canonical hs _ _ _ _ _
  | .sub k => show NextCanonical (execSub k s) from stackInstr_canonical hs _ _ _ _ _
  | .mul k => show NextCanonical (execMul k s) from stackInstr_canonical hs _ _ _ _ _
  | .mulhs k => show NextCanonical (execMulhs k s) from stackInstr_canonical hs _ _ _ _ _
  | .mulhu k => show NextCanonical (execMulhu k s) from stackInstr_canonical hs _ _ _ _ _
  | .divs k => show NextCanonical (execDivs k s) from stackInstr_canonical hs _ _ _ _ _
  | .divu k => show NextCanonical (execDivu k s) from stackInstr_canonical hs _ _ _ _ _
  | .rems k => show NextCanonical (execRems k s) from stackInstr_canonical hs _ _ _ _ _
  | .remu k => show NextCanonical (execRemu k s) from stackInstr_canonical hs _ _ _ _ _
  | .neg k => show NextCanonical (execNeg k s) from stackInstr_canonical hs _ _ _ _ _
  | .abs k => show NextCanonical (execAbs k s) from stackInstr_canonical hs _ _ _ _ _
  | .mins k => show NextCanonical (execMins k s) from stackInstr_canonical hs _ _ _ _ _
  | .maxs k => show NextCanonical (execMaxs k s) from stackInstr_canonical hs _ _ _ _ _
  | .minu k => show NextCanonical (execMinu k s) from stackInstr_canonical hs _ _ _ _ _
  | .maxu k => show NextCanonical (execMaxu k s) from stackInstr_canonical hs _ _ _ _ _
  | .and k => show NextCanonical (execAnd k s) from stackInstr_canonical hs _ _ _ _ _
  | .or k => show NextCanonical (execOr k s) from stackInstr_canonical hs _ _ _ _ _
  | .xor k => show NextCanonical (execXor k s) from stackInstr_canonical hs _ _ _ _ _
  | .not k => show NextCanonical (execNot k s) from stackInstr_canonical hs _ _ _ _ _
  | .shl k => show NextCanonical (execShl k s) from stackInstr_canonical hs _ _ _ _ _
  | .shr k => show NextCanonical (execShr k s) from stackInstr_canonical hs _ _ _ _ _
  | .sar k => show NextCanonical (execSar k s) from stackInstr_canonical hs _ _ _ _ _
  | .rol k => show NextCanonical (execRol k s) from stackInstr_canonical hs _ _ _ _ _
  | .ror k => show NextCanonical (execRor k s) from stackInstr_canonical hs _ _ _ _ _
  | .popc k => show NextCanonical (execPopc k s) from stackInstr_canonical hs _ _ _ _ _
  | .clz k => show NextCanonical (execClz k s) from stackInstr_canonical hs _ _ _ _ _
  | .ctz k => show NextCanonical (execCtz k s) from stackInstr_canonical hs _ _ _ _ _
  | .sext8 k => show NextCanonical (execSext8 k s) from stackInstr_canonical hs _ _ _ _ _
  | .sext16 k => show NextCanonical (execSext16 k s) from stackInstr_canonical hs _ _ _ _ _
  | .sext32 k => show NextCanonical (execSext32 k s) from stackInstr_canonical hs _ _ _ _ _
  | .zext32 k => show NextCanonical (execZext32 k s) from stackInstr_canonical hs _ _ _ _ _
  | .eq k => show NextCanonical (execEq k s) from stackInstr_canonical hs _ _ _ _ _
  | .ne k => show NextCanonical (execNe k s) from stackInstr_canonical hs _ _ _ _ _
  | .lts k => show NextCanonical (execLts k s) from stackInstr_canonical hs _ _ _ _ _
  | .ltu k => show NextCanonical (execLtu k s) from stackInstr_canonical hs _ _ _ _ _
  | .les k => show NextCanonical (execLes k s) from stackInstr_canonical hs _ _ _ _ _
  | .leu k => show NextCanonical (execLeu k s) from stackInstr_canonical hs _ _ _ _ _
  | .gts k => show NextCanonical (execGts k s) from stackInstr_canonical hs _ _ _ _ _
  | .gtu k => show NextCanonical (execGtu k s) from stackInstr_canonical hs _ _ _ _ _
  | .ges k => show NextCanonical (execGes k s) from stackInstr_canonical hs _ _ _ _ _
  | .geu k => show NextCanonical (execGeu k s) from stackInstr_canonical hs _ _ _ _ _
  | .zeq k => show NextCanonical (execZeq k s) from stackInstr_canonical hs _ _ _ _ _
  | .sel k => show NextCanonical (execSel k s) from stackInstr_canonical hs _ _ _ _ _
  | .br8 k rel => show NextCanonical (execBr8 k rel s) from branchInstr_canonical hs _ _ _ _ _
  | .br32 k rel => show NextCanonical (execBr32 k rel s) from branchInstr_canonical hs _ _ _ _ _
  | .bz8 k rel => show NextCanonical (execBz8 k rel s) from branchInstr_canonical hs _ _ _ _ _
  | .bz32 k rel => show NextCanonical (execBz32 k rel s) from branchInstr_canonical hs _ _ _ _ _
  | .bnz8 k rel => show NextCanonical (execBnz8 k rel s) from branchInstr_canonical hs _ _ _ _ _
  | .bnz32 k rel => show NextCanonical (execBnz32 k rel s) from branchInstr_canonical hs _ _ _ _ _
  | .dbnz8 k rel => show NextCanonical (execDbnz8 k rel s) from branchInstr_canonical hs _ _ _ _ _
  | .dbnz32 k rel => show NextCanonical (execDbnz32 k rel s) from branchInstr_canonical hs _ _ _ _ _
  | .call32 k rel => execCall32_canonical hs k rel
  | .calli k => execCalli_canonical hs k
  | .ret k => execRet_canonical hs k
  | .jmpi k => execJmpi_canonical hs k
  | .ld8u k d h => show NextCanonical (execLd8u k d h s) from loadInstr_canonical hs _ _ _ _ _ _
  | .ld8s k d h => show NextCanonical (execLd8s k d h s) from loadInstr_canonical hs _ _ _ _ _ _
  | .ld16u k d h => show NextCanonical (execLd16u k d h s) from loadInstr_canonical hs _ _ _ _ _ _
  | .ld16s k d h => show NextCanonical (execLd16s k d h s) from loadInstr_canonical hs _ _ _ _ _ _
  | .ld32u k d h => show NextCanonical (execLd32u k d h s) from loadInstr_canonical hs _ _ _ _ _ _
  | .ld32s k d h => show NextCanonical (execLd32s k d h s) from loadInstr_canonical hs _ _ _ _ _ _
  | .ld64 k d h => show NextCanonical (execLd64 k d h s) from loadInstr_canonical hs _ _ _ _ _ _
  | .st8 k d h => show NextCanonical (execSt8 k d h s) from storeInstr_canonical hs _ _ _ _ _ _
  | .st16 k d h => show NextCanonical (execSt16 k d h s) from storeInstr_canonical hs _ _ _ _ _ _
  | .st32 k d h => show NextCanonical (execSt32 k d h s) from storeInstr_canonical hs _ _ _ _ _ _
  | .st64 k d h => show NextCanonical (execSt64 k d h s) from storeInstr_canonical hs _ _ _ _ _ _
  | .stiQ k d v h => show NextCanonical (execStiQ k d v h s) from storeInstr_canonical hs _ _ _ _ _ _
  | .lea k d => show NextCanonical (execLea k d s) from stackInstr_canonical hs _ _ _ _ _
  | .undefinedOpcode k bytes => execUndefinedOpcode_canonical hs k bytes
  | .tcfg k mask => execTcfg_canonical hs k mask
  | .tld k t d shp => show NextCanonical (execTld k t d shp s) from tileIssue_canonical hs _ _ _ _ _ _ _
  | .tst k t d shp => show NextCanonical (execTst k t d shp s) from tileIssue_canonical hs _ _ _ _ _ _ _
  | .tzero k t => show NextCanonical (execTzero k t s) from tileIssue_canonical hs _ _ _ _ _ _ _
  | .tmma k acc ta tb shp => execTmma_canonical hs k acc ta tb shp
  | .tsta k acc d => show NextCanonical (execTsta k acc d s) from tileIssue_canonical hs _ _ _ _ _ _ _
  | .tcva k td acc shp => show NextCanonical (execTcva k td acc shp s) from tileIssue_canonical hs _ _ _ _ _ _ _
  | .tspill k acc d => show NextCanonical (execTspill k acc d s) from tileIssue_canonical hs _ _ _ _ _ _ _
  | .tfill k acc d => show NextCanonical (execTfill k acc d s) from tileIssue_canonical hs _ _ _ _ _ _ _
  | .tsync k => execTsync_canonical hs k
  | .tileInstructionComplete k h => execTileInstructionComplete_canonical hs k h
  | .tileExecutionFault k => execTileExecutionFault_canonical hs k
  | .vexec k d => execVexec_canonical hs k d
  | .vcache k => execVcache_canonical hs k
  | .vsync k => execVsync_canonical hs k
  | .vcacheFill k n h => show NextCanonical (execVcacheFill k n h s) from cacheCommand_canonical hs _ _ _ _
  | .vcacheWback k n h => show NextCanonical (execVcacheWback k n h s) from cacheCommand_canonical hs _ _ _ _
  | .vcacheZero k n h => show NextCanonical (execVcacheZero k n h s) from cacheCommand_canonical hs _ _ _ _
  | .vCvt k n h => show NextCanonical (execVCvt k n h s) from elemCommand_canonical hs _ _ _ _
  | .vAdd k n h => show NextCanonical (execVAdd k n h s) from elemCommand_canonical hs _ _ _ _
  | .vSub k n h => show NextCanonical (execVSub k n h s) from elemCommand_canonical hs _ _ _ _
  | .vMul k n h => show NextCanonical (execVMul k n h s) from elemCommand_canonical hs _ _ _ _
  | .vFma k n h => show NextCanonical (execVFma k n h s) from elemCommand_canonical hs _ _ _ _
  | .vAxpby k n h => show NextCanonical (execVAxpby k n h s) from elemCommand_canonical hs _ _ _ _
  | .vMax k n h => show NextCanonical (execVMax k n h s) from elemCommand_canonical hs _ _ _ _
  | .vMin k n h => show NextCanonical (execVMin k n h s) from elemCommand_canonical hs _ _ _ _
  | .vAbs k n h => show NextCanonical (execVAbs k n h s) from elemCommand_canonical hs _ _ _ _
  | .vNeg k n h => show NextCanonical (execVNeg k n h s) from elemCommand_canonical hs _ _ _ _
  | .vSel k n h => show NextCanonical (execVSel k n h s) from elemCommand_canonical hs _ _ _ _
  | .vDiv k n h => show NextCanonical (execVDiv k n h s) from elemCommand_canonical hs _ _ _ _
  | .vSqrt k n h => show NextCanonical (execVSqrt k n h s) from elemCommand_canonical hs _ _ _ _
  | .vRsqrt k n h => show NextCanonical (execVRsqrt k n h s) from elemCommand_canonical hs _ _ _ _
  | .vRcp k n h => show NextCanonical (execVRcp k n h s) from elemCommand_canonical hs _ _ _ _
  | .vExp2 k n h => show NextCanonical (execVExp2 k n h s) from elemCommand_canonical hs _ _ _ _
  | .vLog2 k n h => show NextCanonical (execVLog2 k n h s) from elemCommand_canonical hs _ _ _ _
  | .vRsum k h => show NextCanonical (execVRsum k h s) from foldCommand_canonical hs _ _ _
  | .vRmax k h => show NextCanonical (execVRmax k h s) from foldCommand_canonical hs _ _ _
  | .vRmin k h => show NextCanonical (execVRmin k h s) from foldCommand_canonical hs _ _ _
  | .vRamax k h => show NextCanonical (execVRamax k h s) from foldCommand_canonical hs _ _ _
  | .vRsumsq k h => show NextCanonical (execVRsumsq k h s) from foldCommand_canonical hs _ _ _
  | .vScan k h => show NextCanonical (execVScan k h s) from foldCommand_canonical hs _ _ _
  | .vScanx k h => show NextCanonical (execVScanx k h s) from foldCommand_canonical hs _ _ _
  | .vScanmax k h => show NextCanonical (execVScanmax k h s) from foldCommand_canonical hs _ _ _
  | .vScanxmax k h => show NextCanonical (execVScanxmax k h s) from foldCommand_canonical hs _ _ _
  | .vectorInstructionComplete k => execVectorInstructionComplete_canonical hs k
  | .vectorExecutionFault k => execVectorExecutionFault_canonical hs k
  | .dmaq k c => execDmaq_canonical hs k c
  | .dmaw k c => execDmaw_canonical hs k c
  | .engq k e => execEngq_canonical hs k e
  | .engw k e => execEngw_canonical hs k e
  | .fset k f => show NextCanonical (execFset k f s) from flagIssue_canonical hs _ _ _
  | .fclr k f => show NextCanonical (execFclr k f s) from flagIssue_canonical hs _ _ _
  | .ftest k f => show NextCanonical (execFtest k f s) from flagTest_canonical hs _ _ _
  | .fwait k f => show NextCanonical (execFwait k f s) from flagWait_canonical hs _ _ _
  | .fwatch k f => execFwatch_canonical hs k f
  | .cfinc k c => show NextCanonical (execCfinc k c s) from countIssue_canonical hs _ _ _ _
  | .cfdec k c => show NextCanonical (execCfdec k c s) from countIssue_canonical hs _ _ _ _
  | .cfread k c => execCfread_canonical hs k c
  | .cfwait k c => execCfwait_canonical hs k c
  | .fenceF k => execFenceF_canonical hs k
  | .rfset k => show NextCanonical (execRfset k s) from remoteFlag_canonical hs _ _ _
  | .rcfinc k => show NextCanonical (execRcfinc k s) from remoteFlag_canonical hs _ _ _
  | .rcfdec k => show NextCanonical (execRcfdec k s) from remoteFlag_canonical hs _ _ _
  | .clfset k f => show NextCanonical (execClfset k f s) from flagIssue_canonical hs _ _ _
  | .clfclr k f => show NextCanonical (execClfclr k f s) from flagIssue_canonical hs _ _ _
  | .clftest k f => show NextCanonical (execClftest k f s) from flagTest_canonical hs _ _ _
  | .clfwait k f => show NextCanonical (execClfwait k f s) from flagWait_canonical hs _ _ _
  | .mbpost k ch => execMbpost_canonical hs k ch
  | .mbpoll k ch => execMbpoll_canonical hs k ch
  | .dinv k => execDinv_canonical hs k
  | .dinva k => execDinva_canonical hs k
  | .iinv k => execIinv_canonical hs k
  | .iinva k => execIinva_canonical hs k
  | .l2fl k => execL2fl_canonical hs k
  | .l2fla k => execL2fla_canonical hs k
  | .l2inv k => execL2inv_canonical hs k
  | .l2inva k => execL2inva_canonical hs k
  | .mfence k => execMfence_canonical hs k
  | .trap k n h => execTrap_canonical hs k n h
  | .gret k n => execGret_canonical hs k n
  | .tend k => execTend_canonical hs k
  | .waiti k => execWaiti_canonical hs k
  | .rdtime k => execRdtime_canonical hs k
  | .rdcyc k => execRdcyc_canonical hs k
  | .rddsp k => execRddsp_canonical hs k
  | .rdrsp k => execRdrsp_canonical hs k
  | .waitConditionMet k => execWaitConditionMet_canonical hs k
  | .eventEntry k h => execEventEntry_canonical hs k h
  | .flagQueuePerform k => execFlagQueuePerform_canonical hs k
  | .flagArrival t n => execFlagArrival_canonical hs t n
  | .mergeDrainStart c line => show NextCanonical (execMergeDrainStart c line s) from hs
  | .mergeEntryInPlace c line => execMergeEntryInPlace_canonical hs c line
  | .scratchpadRemoteWrite k h => execScratchpadRemoteWrite_canonical hs k h
  | .scratchpadScrub u off h => execScratchpadScrub_canonical hs u off h
  | .routeWindowStart k => execRouteWindowStart_canonical hs k
  | .routeBeat k h x => execRouteBeat_canonical hs k h x
  | .routeWindowEnd k => execRouteWindowEnd_canonical hs k
  | .stall k => execStall_canonical hs k
  | .dmaDescriptorFetch c ch h => execDmaDescriptorFetch_canonical hs c ch h
  | .dmaDescriptorStart c ch => execDmaDescriptorStart_canonical hs c ch
  | .copy c ch nr nw h w => execCopy_canonical hs c ch nr nw h w
  | .dmaFill c ch n w => execDmaFill_canonical hs c ch n w
  | .dmaCompare c ch n h => execDmaCompare_canonical hs c ch n h
  | .dmaDescriptorComplete c ch => execDmaDescriptorComplete_canonical hs c ch
  | .dmaStall c ch => execDmaStall_canonical hs c ch
  | .midStreamFault c ch => execMidStreamFault_canonical hs c ch
  | .engineDescriptorFetch c e h => execEngineDescriptorFetch_canonical hs c e h
  | .rows c h => execRows_canonical hs c h
  | .casks c h => execCasks_canonical hs c h
  | .sort c h => execSort_canonical hs c h
  | .topk c h => execTopk_canonical hs c h
  | .route c h => execRoute_canonical hs c h
  | .sample c h => execSample_canonical hs c h
  | .crc32c c h => show NextCanonical (execCrc32c c h s) from fprRun_canonical hs _ _ _ _
  | .fp64 c h => show NextCanonical (execFp64 c h s) from fprRun_canonical hs _ _ _ _
  | .fp64raw c h => show NextCanonical (execFp64raw c h s) from fprRun_canonical hs _ _ _ _
  | .engineDescriptorComplete c e => execEngineDescriptorComplete_canonical hs c e
  | .midStreamEngineFault c e => execMidStreamEngineFault_canonical hs c e
  | .stepBoundary p => execStepBoundary_canonical hs p
  | .patrolScrub pc e => execPatrolScrub_canonical hs pc e
  | .pcMapoutComplete pc lost => execPcMapoutComplete_canonical hs pc lost
  | .zeroingComplete z => execZeroingComplete_canonical hs z
  | .laneFault l => execLaneFault_canonical hs l
  | .linkUp port far => execLinkUp_canonical hs port far
  | .frameReceived port f excess => execFrameReceived_canonical hs port f excess
  | .pfcFrame port prio quanta => execPfcFrame_canonical hs port prio quanta
  | .xoffRepeat port prio => execXoffRepeat_canonical hs port prio
  | .pauseExpiry port prio => execPauseExpiry_canonical hs port prio
  | .xon port prio n => execXon_canonical hs port prio n
  | .replayRequest port start => execReplayRequest_canonical hs port start
  | .llrfail port => execLlrfail_canonical hs port
  | .ptpMessage port n inc lock => execPtpMessage_canonical hs port n inc lock
  | .gtimeTick => execGtimeTick_canonical hs
  | .timeSkew offset => execTimeSkew_canonical hs offset
  | .timeSkewClear offset => execTimeSkewClear_canonical hs offset
  | .write port k h => execWrite_canonical hs port k h
  | .accum port k h => execAccum_canonical hs port k h
  | .flag port k => execFlag_canonical hs port k
  | .cltMbpost port k => execCltMbpost_canonical hs port k
  | .ack port k => execAck_canonical hs port k
  | .nak port k => execNak_canonical hs port k
  | .hello port k => execHello_canonical hs port k
  | .helloAck port k => execHelloAck_canonical hs port k
  | .mgmt port k => execMgmt_canonical hs port k
  | .packetFlushTimeout p ci stream => show NextCanonical (execPacketFlushTimeout p ci stream s) from cltFlush_canonical hs _ _ _
  | .ackTimer p ci => execAckTimer_canonical hs p ci
  | .retransmitTimeout p ci psn => execRetransmitTimeout_canonical hs p ci psn
  | .helloRetry p ci n => execHelloRetry_canonical hs p ci n
  | .sqDoorbell h q idx => execSqDoorbell_canonical hs h q idx
  | .commandFetch h q pkt => execCommandFetch_canonical hs h q pkt
  | .cqHeadWrite h q idx => execCqHeadWrite_canonical hs h q idx
  | .qpEnable h q v => execQpEnable_canonical hs h q v
  | .inProgress src tag => execInProgress_canonical hs src tag
  | .bar2Read h o n e => execBar2Read_canonical hs h o n e
  | .bar2Write h o bs e => execBar2Write_canonical hs h o bs e
  | .hostMbpoll h ch => execHostMbpoll_canonical hs h ch
  | .hostMbpost h ch notice => execHostMbpost_canonical hs h ch notice
  | .flr h => execFlr_canonical hs h
  | .perst h hot => execPerst_canonical hs h hot
  | .queryIdentity src tag => show NextCanonical (execQueryIdentity src tag s) from query_canonical hs _ _ _ _
  | .queryPartition src tag => show NextCanonical (execQueryPartition src tag s) from query_canonical hs _ _ _ _
  | .queryTag src tag => show NextCanonical (execQueryTag src tag s) from query_canonical hs _ _ _ _
  | .queryMapouts src tag => show NextCanonical (execQueryMapouts src tag s) from query_canonical hs _ _ _ _
  | .qpset src tag => show NextCanonical (execQpset src tag s) from stagePart_canonical hs _ _ _ _
  | .caskpool src tag => show NextCanonical (execCaskpool src tag s) from stagePart_canonical hs _ _ _ _
  | .conn src tag => show NextCanonical (execConn src tag s) from stagePart_canonical hs _ _ _ _
  | .path src tag => show NextCanonical (execPath src tag s) from stagePart_canonical hs _ _ _ _
  | .pgcfg src tag => show NextCanonical (execPgcfg src tag s) from stagePart_canonical hs _ _ _ _
  | .nodeid src tag => show NextCanonical (execNodeid src tag s) from stageDevice_canonical hs _ _ _
  | .pcap src tag => show NextCanonical (execPcap src tag s) from stageDevice_canonical hs _ _ _
  | .cldiv src tag => show NextCanonical (execCldiv src tag s) from stageDevice_canonical hs _ _ _
  | .alertt src tag => show NextCanonical (execAlertt src tag s) from stageDevice_canonical hs _ _ _
  | .configCommit src tag => execConfigCommit_canonical hs src tag
  | .configApply u => execConfigApply_canonical hs u
  | .configQuiesceTimeout p => execConfigQuiesceTimeout_canonical hs p
  | .schedLoad src tag im h => execSchedLoad_canonical hs src tag im h
  | .schedUnload src tag => execSchedUnload_canonical hs src tag
  | .launch src tag => execLaunch_canonical hs src tag
  | .cancel src tag => execCancel_canonical hs src tag
  | .dmaCopy src tag => show NextCanonical (execDmaCopy src tag s) from dmaCommand_canonical hs _ _ _ _
  | .fill src tag => show NextCanonical (execFill src tag s) from dmaCommand_canonical hs _ _ _ _
  | .compare src tag => show NextCanonical (execCompare src tag s) from dmaCommand_canonical hs _ _ _ _
  | .caskJoin src tag => execCaskJoin_canonical hs src tag
  | .caskLeave src tag => execCaskLeave_canonical hs src tag
  | .caskStep src tag => execCaskStep_canonical hs src tag
  | .partCreate src tag => execPartCreate_canonical hs src tag
  | .partDestroy src tag => execPartDestroy_canonical hs src tag
  | .partDestroyTimeout p => execPartDestroyTimeout_canonical hs p
  | .telemetryTemperatures src tag => execTelemetryTemperatures_canonical hs src tag
  | .telemetryPower src tag => execTelemetryPower_canonical hs src tag
  | .telemetryClocks src tag => execTelemetryClocks_canonical hs src tag
  | .telemetryAccounting src tag => execTelemetryAccounting_canonical hs src tag
  | .telemetryAccountingClear src tag => execTelemetryAccountingClear_canonical hs src tag
  | .selftest src tag => execSelftest_canonical hs src tag
  | .mapout src tag => execMapout_canonical hs src tag
  | .errlogRead src tag => execErrlogRead_canonical hs src tag
  | .launchStart p => execLaunchStart_canonical hs p
  | .taskStart k => execTaskStart_canonical hs k
  | .switchStart p => execSwitchStart_canonical hs p
  | .switchComplete p => execSwitchComplete_canonical hs p
  | .launchCommit p => execLaunchCommit_canonical hs p
  | .hwErrorDetected d => execHwErrorDetected_canonical hs d
  | .cwdog k => execCwdog_canonical hs k
  | .kilnTestResult u r ktime lost => show NextCanonical (execKilnTestResult u r ktime lost s) from kilnResult_canonical hs _ _ _ _
  | .kilnBudgetExpiry u => execKilnBudgetExpiry_canonical hs u
  | .rollbackComplete p bad => execRollbackComplete_canonical hs p bad
  | .repitch p => execRepitch_canonical hs p
  | .clusterMapout c lost => execClusterMapout_canonical hs c lost
  | .droop c => execDroop_canonical hs c
  | .pllLossOfLock => execPllLossOfLock_canonical hs
  | .railOutOfRange r => execRailOutOfRange_canonical hs r
  | .capLoopSample rails => execCapLoopSample_canonical hs rails
  | .thermalSample diodes hbmT => execThermalSample_canonical hs diodes hbmT
  | .thermStepTimer c => show NextCanonical (execThermStepTimer c s) from hs
  | .railSettled => execRailSettled_canonical hs
  | .railLowerTimer => execRailLowerTimer_canonical hs
  | .pwrgoodFall => show NextCanonical (execPwrgoodFall s) from coldState_canonical
  | .pwrgoodRise lowLong bootsel smb => execPwrgoodRise_canonical hs lowLong bootsel smb
  | .warmRstN => show NextCanonical (execWarmRstN s) from warmReset_canonical hs _
  | .pllLock => execPllLock_canonical hs
  | .pllLockTimeout => execPllLockTimeout_canonical hs
  | .avsTimeout => execAvsTimeout_canonical hs
  | .imageVerify d0 d1 board a b => execImageVerify_canonical hs d0 d1 board a b
  | .hbmTrainingDone n ok => execHbmTrainingDone_canonical hs n ok
  | .serdesCalibrationDone failed => execSerdesCalibrationDone_canonical hs failed
  | .ready binds => execReady_canonical hs binds
  | .setEndpointId b eid => execSetEndpointId_canonical hs b eid
  | .mctpVendorMessage b vendor kind packet => execMctpVendorMessage_canonical hs b vendor kind packet
  | .gettid b => show NextCanonical (execGettid b s) from pldmReply_canonical hs _ _ _ _ _
  | .getpdrrepositoryinfo b => show NextCanonical (execGetpdrrepositoryinfo b s) from pldmReply_canonical hs _ _ _ _ _
  | .getpdr b handle => execGetpdr_canonical hs b handle
  | .getsensorreading b id => execGetsensorreading_canonical hs b id
  | .getstatesensorreadings b id => execGetstatesensorreadings_canonical hs b id
  | .setnumericeffectervalue b id v => execSetnumericeffectervalue_canonical hs b id v
  | .getnumericeffectervalue b id => execGetnumericeffectervalue_canonical hs b id
  | .platformeventmessage b => execPlatformeventmessage_canonical hs b
  | .querydeviceidentifiers b => execQuerydeviceidentifiers_canonical hs b
  | .getfirmwareparameters b => execGetfirmwareparameters_canonical hs b
  | .requestupdate b d0 d1 => execRequestupdate_canonical hs b d0 d1
  | .passcomponenttable b id => execPasscomponenttable_canonical hs b id
  | .updatecomponent b id size => execUpdatecomponent_canonical hs b id size
  | .requestfirmwaredata b off bytes => execRequestfirmwaredata_canonical hs b off bytes
  | .transfercomplete b => execTransfercomplete_canonical hs b
  | .verifycomplete b img => execVerifycomplete_canonical hs b img
  | .applycomplete b => execApplycomplete_canonical hs b
  | .activatefirmware b self => execActivatefirmware_canonical hs b self
  | .getstatus b => show NextCanonical (execGetstatus b s) from pldmReply_canonical hs _ _ _ _ _
  | .cancelupdate b => execCancelupdate_canonical hs b
  | .extest => show NextCanonical (execExtest s) from tapTest_canonical hs _
  | .idcode => show NextCanonical (execIdcode s) from hs
  | .samplePreload => show NextCanonical (execSamplePreload s) from hs
  | .extestPulse => show NextCanonical (execExtestPulse s) from tapTest_canonical hs _
  | .extestTrain => show NextCanonical (execExtestTrain s) from tapTest_canonical hs _
  | .bypass => show NextCanonical (execBypass s) from hs
  | .tuCtlDrop m k v => show NextCanonical (execTuCtlDrop m k v s) from regWrite_canonical hs _ _ _
  | .vsuCtlDrop m k v => show NextCanonical (execVsuCtlDrop m k v s) from regWrite_canonical hs _ _ _
  | .clrrej m k v => show NextCanonical (execClrrej m k v s) from regWrite_canonical hs _ _ _
  | .coreIset m k v => show NextCanonical (execCoreIset m k v s) from regWrite_canonical hs _ _ _
  | .precise m k v => show NextCanonical (execPrecise m k v s) from regWrite_canonical hs _ _ _
  | .l2Disable m c v => show NextCanonical (execL2Disable m c v s) from regWrite_canonical hs _ _ _
  | .l2Waypwr m c v => show NextCanonical (execL2Waypwr m c v s) from regWrite_canonical hs _ _ _
  | .l2Lock m c v => show NextCanonical (execL2Lock m c v s) from regWrite_canonical hs _ _ _
  | .l2MaintenanceDone c => execL2MaintenanceDone_canonical hs c
  | .dmaChnpop m c ch n => show NextCanonical (execDmaChnpop m c ch n s) from regWrite_canonical hs _ _ _
  | .dmaMismClear m c ch => show NextCanonical (execDmaMismClear m c ch s) from regWrite_canonical hs _ _ _
  | .fprMismClear m c v => show NextCanonical (execFprMismClear m c v s) from regWrite_canonical hs _ _ _
  | .mbxCtlLock m => show NextCanonical (execMbxCtlLock m s) from regWrite_canonical hs _ _ _
  | .clkGtime m v => show NextCanonical (execClkGtime m v s) from regWrite_canonical hs _ _ _
  | .pwrCap m v => show NextCanonical (execPwrCap m v s) from regWrite_canonical hs _ _ _
  | .bootCtlWarm m => show NextCanonical (execBootCtlWarm m s) from regWrite_canonical hs _ _ _
  | .registerWrite m pa v => execRegisterWrite_canonical hs m pa v
  | .hostPortLinkUp h => execHostPortLinkUp_canonical hs h
  | .hostPortLinkDown h => execHostPortLinkDown_canonical hs h
  | .perstNRise h => execPerstNRise_canonical hs h
  | .configurationRequest h off => execConfigurationRequest_canonical hs h off
  | .coldResetHoldExpiry bootsel smb => execColdResetHoldExpiry_canonical hs bootsel smb
  | .supplyRecovery c => show NextCanonical (execSupplyRecovery c s) from hs
  | .negotiate port => execNegotiate_canonical hs port
  | .tapReset => show NextCanonical (execTapReset s) from hs

end

theorem step_canonical {s t : State} (hs : s.Canonical) (h : step s = .next t) : t.Canonical := by
  have hnext : NextCanonical (step s) := by
    unfold step
    split
    · exact hs
    · next c rest _ => exact exec_canonical (s := { s with pending := rest }) hs c
  rwa [h] at hnext

/-- Settles O59: the state after a step is the one that its command leaves, and every command keeps the canonical form. -/
theorem stepKeepsInvariant : Obligations.StepKeepsInvariant := by
  unfold Obligations.StepKeepsInvariant
  intro s t hs h
  exact step_canonical hs h

end Sys2Proof.Proofs
end

section
/-!
PROOFS. A command taken into the order of R380 (R350 to R357, R360, R381), and how a command is answered (R354, R404).
-/
namespace Sys2Proof.Proofs
open Sys2Proof Sys2Proof.Machine Sys2Proof.Stated Sys2Proof.Laws

/-! ### The words of a reply (R354) -/

theorem toNat_place {w lo : Nat} (h : w + lo ≤ 64) (v : Nat) : (place v w lo).toNat = v % 2 ^ w * 2 ^ lo := by
  have hlt : v % 2 ^ w * 2 ^ lo < 2 ^ 64 :=
    calc v % 2 ^ w * 2 ^ lo < 2 ^ w * 2 ^ lo := Nat.mul_lt_mul_of_pos_right (Nat.mod_lt _ (Nat.two_pow_pos _)) (Nat.two_pow_pos _)
      _ = 2 ^ (w + lo) := (Nat.pow_add ..).symm
      _ ≤ 2 ^ 64 := Nat.pow_le_pow_right (by decide) h
  simp only [place, BitVec.toNat_ofNat, Nat.shiftLeft_eq]
  exact Nat.mod_eq_of_lt hlt

/-- A field placed above all the bits of a word adds its value. -/
theorem toNat_or_place {x : Word} {w lo : Nat} (hx : x.toNat < 2 ^ lo) (h : w + lo ≤ 64) (v : Nat) :
    (x ||| place v w lo).toNat = x.toNat + v % 2 ^ w * 2 ^ lo := by
  rw [BitVec.toNat_or, toNat_place h, Nat.or_comm, Nat.mul_comm, ← Nat.two_pow_add_eq_or_of_lt hx, Nat.add_comm]

theorem flagAt_eq_place (b : Bool) {lo : Nat} : flagAt b lo = place b.toNat 1 lo := by
  cases b <;> simp [flagAt, place]

theorem toNat_or_flagAt {x : Word} {lo : Nat} (hx : x.toNat < 2 ^ lo) (h : lo < 64) (b : Bool) :
    (x ||| flagAt b lo).toNat = x.toNat + b.toNat * 2 ^ lo := by
  rw [flagAt_eq_place, toNat_or_place hx (by omega)]
  cases b <;> rfl

/-- C1 of a final reply. -/
def resultC1 (r : Result) : Word :=
  place r.cause 8 0 ||| place r.sub 8 8 ||| flagAt r.trunc 16 ||| flagAt r.rfail 17 ||| place r.nitems 32 32

theorem toNat_resultC1 (r : Result) : (resultC1 r).toNat =
    r.cause % 2 ^ 8 + r.sub % 2 ^ 8 * 2 ^ 8 + r.trunc.toNat * 2 ^ 16 + r.rfail.toNat * 2 ^ 17 + r.nitems % 2 ^ 32 * 2 ^ 32 := by
  have hcause : (place r.cause 8 0).toNat = r.cause % 2 ^ 8 := by rw [toNat_place (by decide)]; omega
  have hsub : (place r.cause 8 0 ||| place r.sub 8 8).toNat = r.cause % 2 ^ 8 + r.sub % 2 ^ 8 * 2 ^ 8 := by
    rw [toNat_or_place (by omega) (by decide), hcause]
  have htrunc := toNat_or_flagAt (lo := 16) (x := place r.cause 8 0 ||| place r.sub 8 8) (by omega) (by decide) r.trunc
  have hrfail := toNat_or_flagAt (lo := 17) (x := place r.cause 8 0 ||| place r.sub 8 8 ||| flagAt r.trunc 16)
    (by have := r.trunc.toNat_le; omega) (by decide) r.rfail
  have := r.trunc.toNat_le
  have := r.rfail.toNat_le
  rw [resultC1, toNat_or_place (by omega) (by decide), hrfail, htrunc, hsub]

/-- C0 of a final reply, with the phase of its ring. -/
theorem toNat_replyC0 {status : Nat} (hs : status < 2 ^ 8) (op tag q : Nat) (hq : q < 64) (phase : Bool) :
    (place status 8 0 ||| place op 8 8 ||| place tag 16 16 ||| place q 6 32 ||| flagAt phase 63).toNat =
      status + op % 2 ^ 8 * 2 ^ 8 + tag % 2 ^ 16 * 2 ^ 16 + q * 2 ^ 32 + phase.toNat * 2 ^ 63 := by
  have hstatus : (place status 8 0).toNat = status := by rw [toNat_place (by decide)]; omega
  have hop := toNat_or_place (lo := 8) (w := 8) (x := place status 8 0) (by omega) (by decide) op
  have htag := toNat_or_place (lo := 16) (w := 16) (x := place status 8 0 ||| place op 8 8) (by omega) (by decide) tag
  have hqp := toNat_or_place (lo := 32) (w := 6) (x := place status 8 0 ||| place op 8 8 ||| place tag 16 16) (by omega) (by decide) q
  rw [toNat_or_flagAt (by omega) (by decide), hqp, htag, hop, hstatus, Nat.mod_eq_of_lt (show q < 2 ^ 6 from hq)]

theorem replyWords_eq (op tag q : Nat) (r : Result) : replyWords op tag q r =
    [place r.status 8 0 ||| place op 8 8 ||| place tag 16 16 ||| place q 6 32, resultC1 r, r.c2, r.c3] := rfl

/-- The bytes of a final reply. -/
theorem replyBytes_replyWords {r : Result} (hr : r.status < 2 ^ 8) (phase : Bool) (op tag q : Nat) (hq : q < 64) :
    replyBytes phase (replyWords op tag q r) =
      leBytes 8 (r.status + op % 2 ^ 8 * 2 ^ 8 + tag % 2 ^ 16 * 2 ^ 16 + q * 2 ^ 32 + phase.toNat * 2 ^ 63)
        ++ leBytes 8 (resultC1 r).toNat ++ leBytes 8 r.c2.toNat ++ leBytes 8 r.c3.toNat := by
  rw [replyWords_eq]
  simp [replyBytes, toNat_replyC0 hr op tag q hq phase]

/-- The status, opcode and tag of a final reply stand in the low half of its C0. -/
theorem replyC0_low {r : Result} (hr : r.status < 2 ^ 8) (op tag q : Nat) (hq : q < 64) :
    ((replyWords op tag q r).getD 0 0).toNat % 2 ^ 32 = r.status + op % 2 ^ 8 * 2 ^ 8 + tag % 2 ^ 16 * 2 ^ 16 := by
  have h := toNat_replyC0 hr op tag q hq false
  rw [show flagAt false 63 = 0#64 from rfl, BitVec.or_zero] at h
  rw [replyWords_eq, List.getD_cons_zero, h, Bool.toNat_false]
  omega

/-! ### Queue pairs and replies (R350, R351) -/

@[simp] theorem modQp_qp (s : State) (h q : Nat) (f : Qp → Qp) (j n : Nat) :
    ((s.modQp h q f).host j).qp n = if j = h ∧ n = q then f ((s.host h).qp q) else (s.host j).qp n := by
  by_cases hj : j = h
  · subst hj
    by_cases hn : n = q <;> simp [State.modQp, modHost_host, HostS.modQp, HostS.qp, hn]
  · simp [State.modQp, modHost_host, hj]

@[simp] theorem send_host (s : State) (x : Sent) (j : Nat) : (s.send x).host j = s.host j := rfl
@[simp] theorem modQp_sent (s : State) (h q : Nat) (f : Qp → Qp) : (s.modQp h q f).sent = s.sent := rfl
@[simp] theorem modQp_cmds (s : State) (h q : Nat) (f : Qp → Qp) : (s.modQp h q f).cmds = s.cmds := rfl
@[simp] theorem send_sent (s : State) (x : Sent) : (s.send x).sent = x :: s.sent := rfl
@[simp] theorem retire_sent (s : State) (src : CmdSrc) (ws : List Word) : (s.retire src ws).sent = s.sent := by
  unfold State.retire; split <;> rfl
@[simp] theorem retire_host (s : State) (src : CmdSrc) (ws : List Word) (j : Nat) : (s.retire src ws).host j = s.host j := by
  unfold State.retire; split <;> rfl

/-- A reply whose place in host memory can be reached is written. -/
theorem ringWrite_written {s : State} {h q : Nat}
    (hreach : Config.hostReachable h (((s.host h).qp q).cqBase * 4096 + 32 * ((s.host h).qp q).cqTail) = true) (ws : List Word) :
    (s.ringWrite h q ws).1 = true
      ∧ Sent.hostWrite h (((s.host h).qp q).cqBase * 4096 + 32 * ((s.host h).qp q).cqTail) (replyBytes ((s.host h).qp q).phase ws)
        ∈ (s.ringWrite h q ws).2.sent := by
  unfold State.ringWrite
  simp only [hreach, Bool.not_true, Bool.false_eq_true, if_false, true_and]
  split <;> simp

theorem replyTo_replied {s u : State} (hu : u.hosts = s.hosts) (src : CmdSrc) (op tag : Nat) {r : Result} (hr : r.status < 2 ^ 8) :
    Replied s (u.replyTo src op tag r) src op tag r.status (resultC1 r).toNat r.c2 r.c3 := by
  have hhost (j : Nat) : s.host j = u.host j := by rw [State.host, ← hu]; rfl
  cases src with
  | mgmt => simp [Replied, State.replyTo, replyBytes_replyWords hr]
  | qp h q =>
    simp only [Replied, hhost]
    refine ⟨fun hen herr hheld hroom hreach => ?_, fun hfull => ?_⟩
    · have hopen : ((u.host h.val).qp q.val).open = true := by simp [Qp.open, Qp.cqSize, hen, herr, hheld, hroom]
      obtain ⟨hdone, hsent⟩ := ringWrite_written hreach (replyWords op tag q.val r)
      simp only [State.replyTo, State.reply, hopen, if_true, hdone, retire_sent]
      rwa [replyBytes_replyWords hr _ _ _ _ q.isLt] at hsent
    · have hshut : ((u.host h.val).qp q.val).open = false := by
        rcases hfull with herr | hused
        · simp [Qp.open, herr]
        · simp [Qp.open, Qp.cqSize, Nat.not_lt.mpr hused]
      refine ⟨replyWords op tag q.val r, ?_, rfl, replyC0_low hr op tag q.val q.isLt⟩
      simp [State.replyTo, State.reply, hshut]

/-- From s to t replies have been sent or held, and commands decided or retired. -/
structure Answered (s t : State) : Prop where
  frame : t = { s with hosts := t.hosts, cmds := t.cmds, sent := t.sent }
  sent : s.sent ⊆ t.sent
  held : ∀ h q, ((s.host h).qp q).held ⊆ ((t.host h).qp q).held
  cmds : ∀ b ∈ t.cmds, ∃ a ∈ s.cmds, b.src = a.src ∧ b.tag = a.tag ∧ (a.decided = true → b.decided = true)

theorem Answered.refl (s : State) : Answered s s :=
  ⟨rfl, fun _ h => h, fun _ _ _ h => h, fun b hb => ⟨b, hb, rfl, rfl, id⟩⟩

theorem Answered.trans {s t u : State} (h : Answered s t) (g : Answered t u) : Answered s u where
  frame := by rw [g.frame, h.frame]
  sent := fun _ hx => g.sent (h.sent hx)
  held := fun i q _ hx => g.held i q (h.held i q hx)
  cmds := fun b hb => by
    obtain ⟨a, ha, hsrc, htag, hdec⟩ := g.cmds b hb
    obtain ⟨a', ha', hsrc', htag', hdec'⟩ := h.cmds a ha
    exact ⟨a', ha', hsrc.trans hsrc', htag.trans htag', fun hd => hdec (hdec' hd)⟩

theorem answered_send (s : State) (x : Sent) : Answered s (s.send x) :=
  ⟨rfl, fun _ h => List.mem_cons_of_mem _ h, fun _ _ _ h => h, fun b hb => ⟨b, hb, rfl, rfl, id⟩⟩

theorem answered_modQp (s : State) (h q : Nat) (f : Qp → Qp) (hf : ((s.host h).qp q).held ⊆ (f ((s.host h).qp q)).held) :
    Answered s (s.modQp h q f) where
  frame := rfl
  sent := fun _ hx => hx
  held := fun j n => by
    rw [modQp_qp]
    split
    · rename_i hjn
      rw [hjn.1, hjn.2]
      exact hf
    · exact fun _ hx => hx
  cmds := fun b hb => ⟨b, hb, rfl, rfl, id⟩

theorem answered_ringWrite (s : State) (h q : Nat) (ws : List Word) : Answered s (s.ringWrite h q ws).2 := by
  unfold State.ringWrite
  dsimp only
  split
  · exact (answered_modQp s h q _ (fun _ hx => hx)).trans (answered_send _ _)
  · have hwritten := fun x f hf => (answered_send s x).trans (answered_modQp _ h q f hf)
    split
    · exact (hwritten _ _ (fun _ hx => hx)).trans (answered_send _ _)
    · exact hwritten _ _ (fun _ hx => hx)

/-- A reply retires decided commands only. -/
theorem mem_retire {s : State} {src : CmdSrc} {ws : List Word} {b : Cmd} (hb : b ∈ (s.retire src ws).cmds) : b ∈ s.cmds := by
  unfold State.retire at hb
  split at hb
  · exact hb
  · exact (List.mem_filter.mp hb).1

theorem mem_retire_of_undecided {s : State} {b : Cmd} (hb : b ∈ s.cmds) (hd : b.decided = false) (src : CmdSrc) (ws : List Word) :
    b ∈ (s.retire src ws).cmds := by
  unfold State.retire
  split
  · exact hb
  · exact List.mem_filter.mpr ⟨hb, by simp [hd]⟩

theorem answered_retire (s : State) (src : CmdSrc) (ws : List Word) : Answered s (s.retire src ws) where
  frame := by unfold State.retire; split <;> rfl
  sent := by rw [retire_sent]; exact fun _ h => h
  held := fun h q => by rw [retire_host]; exact fun _ hx => hx
  cmds := fun b hb => ⟨b, mem_retire hb, rfl, rfl, id⟩

theorem answered_reply (s : State) (h : HostPort) (q : Fin 64) (ws : List Word) : Answered s (s.reply h q ws) := by
  have hold (u : State) : Answered u (u.modQp h.val q.val (fun x => { x with held := x.held ++ [ws] })) :=
    answered_modQp u _ _ _ (List.subset_append_left _ _)
  unfold State.reply
  dsimp only
  split
  · have hring := answered_ringWrite s h.val q.val ws
    split
    · exact hring.trans (answered_retire _ _ _)
    · exact hring.trans (hold _)
  · exact hold s

theorem answered_replyTo (s : State) (src : CmdSrc) (op tag : Nat) (r : Result) : Answered s (s.replyTo src op tag r) := by
  cases src with
  | mgmt => exact (answered_send s _).trans (answered_retire _ _ _)
  | qp h q => exact answered_reply s h q _

/-- The list of commands with one of them decided. -/
def decideCmd (c : Cmd) (cs : List Cmd) : List Cmd := cs.map (fun x => if x == c then { x with started := true, decided := true } else x)

theorem mem_decideCmd {b c : Cmd} {cs : List Cmd} (hb : b ∈ decideCmd c cs) :
    (b ∈ cs ∧ b ≠ c) ∨ c ∈ cs ∧ b = { c with started := true, decided := true } := by
  obtain ⟨x, hx, rfl⟩ := List.mem_map.mp hb
  by_cases h : x = c
  · subst h; simp [hx]
  · simp [h, hx]

theorem answered_decide (s : State) (c : Cmd) : Answered s { s with cmds := decideCmd c s.cmds } where
  frame := rfl
  sent := fun _ h => h
  held := fun _ _ _ h => h
  cmds := fun b hb => by
    rcases mem_decideCmd hb with ⟨hb, -⟩ | ⟨hc, rfl⟩
    · exact ⟨b, hb, rfl, rfl, id⟩
    · exact ⟨c, hc, rfl, rfl, fun _ => rfl⟩

theorem answered_conclude (s : State) (c : Cmd) (r : Result) : Answered s (s.conclude c r) :=
  (answered_decide s c).trans (answered_replyTo _ _ _ _ _)

theorem answered_nopSteps (n : Nat) (s : State) : Answered s (State.nopSteps n s) := by
  fun_induction State.nopSteps n s with
  | case1 => exact Answered.refl _
  | case2 => exact Answered.refl _
  | case3 _ s c _ ih => exact (answered_conclude s c _).trans ih

theorem answered_nopSweep (s : State) : Answered s s.nopSweep := answered_nopSteps _ s

theorem answered_finish (s : State) (c : Cmd) (r : Result) : Answered s (s.finish c r) :=
  (answered_conclude s c r).trans (answered_nopSweep _)

/-- A final reply stays given. -/
theorem finished_of_answered {s t u : State} {c : Cmd} {status c1 : Nat} {c2 c3 : Word} (h : Finished s t c status c1 c2 c3)
    (g : Answered t u) : Finished s u c status c1 c2 c3 := by
  obtain ⟨hreplied, hdecided⟩ := h
  refine ⟨?_, fun b hb hsrc htag => ?_⟩
  · cases hc : c.src with
    | mgmt =>
      rw [hc] at hreplied
      exact g.sent hreplied
    | qp i q =>
      rw [hc] at hreplied
      obtain ⟨hwritten, hheld⟩ := hreplied
      refine ⟨fun h1 h2 h3 h4 h5 => g.sent (hwritten h1 h2 h3 h4 h5), fun hfull => ?_⟩
      obtain ⟨ws, hws, hlow⟩ := hheld hfull
      exact ⟨ws, g.held _ _ hws, hlow⟩
  · obtain ⟨a, ha, hsrc', htag', hdec⟩ := g.cmds b hb
    exact hdec (hdecided a ha (hsrc' ▸ hsrc) (htag' ▸ htag))

/-- A command that alone has its source and tag is answered. -/
theorem finish_finished {s u : State} (hu : u.hosts = s.hosts) {c : Cmd} {r : Result} (hr : r.status < 2 ^ 8)
    (honly : ∀ b ∈ u.cmds, b.src = c.src → b.tag = c.tag → b = c) :
    Finished s (u.finish c r) c r.status (resultC1 r).toNat r.c2 r.c3 := by
  refine finished_of_answered (t := u.conclude c r) ⟨?_, fun b hb hsrc htag => ?_⟩ (answered_nopSweep _)
  · exact replyTo_replied (s := s) (u := { u with cmds := decideCmd c u.cmds }) hu _ _ _ hr
  · obtain ⟨a, ha, hsrc', htag', hdec⟩ := (answered_replyTo ({ u with cmds := decideCmd c u.cmds } : State) c.src c.op c.tag r).cmds b hb
    rcases mem_decideCmd ha with ⟨hmem, hne⟩ | ⟨-, rfl⟩
    · exact absurd (honly a hmem (hsrc' ▸ hsrc) (htag' ▸ htag)) hne
    · exact hdec rfl

/-! ### Commands that start (R352, R357) -/

theorem cmdsBefore_append {pre post : List Cmd} {c : Cmd} (h : c ∉ pre) : cmdsBefore (pre ++ c :: post) c = pre := by
  have hpre : ∀ x ∈ pre, (x != c) = true := fun x hx => by
    have : x ≠ c := fun e => h (e ▸ hx)
    simp [this]
  rw [cmdsBefore, List.takeWhile_append_of_pos hpre]
  simp

/-- A command that is free to start is the one that its row finds. -/
theorem cmdFor_of_startable {s : State} {c : Cmd} {src : CmdSrc} {tag op : Nat} (h : Startable s c src tag op) :
    s.cmdFor src tag op = some c := by
  obtain ⟨rfl, rfl, rfl, hstarted, hdecided, pre, post, hcmds, hother, hbefore⟩ := h
  have hnot : c ∉ pre := fun hc => hother c (by simp [hc]) rfl rfl
  have hfind : s.cmdOf c.src c.tag = some c := by
    have hpre : pre.find? (fun b => b.src == c.src && b.tag == c.tag && !b.decided) = none := by
      refine List.find?_eq_none.mpr (fun b hb => ?_)
      have := hother b (by simp [hb])
      simp only [Bool.and_eq_true, beq_iff_eq, not_and]
      exact fun hs => absurd hs.2 (this hs.1)
    simp [State.cmdOf, hcmds, hpre, hdecided]
  have hmay : s.mayStart c = true := by
    rw [State.mayStart, hcmds, cmdsBefore_append hnot]
    have hall : pre.all (fun b => b.src != c.src || (b.started && !c.wait)) = true := by
      refine List.all_eq_true.mpr (fun b hb => ?_)
      by_cases hs : b.src = c.src
      · obtain ⟨hst, hwait⟩ := hbefore b hb hs
        simp [hst, hwait]
      · simp [hs]
    simp [hstarted, hdecided, hall]
  simp [State.cmdFor, hfind, hmay]

theorem only_of_startable {s : State} {c : Cmd} {src : CmdSrc} {tag op : Nat} (h : Startable s c src tag op) :
    c ∈ s.cmds ∧ ∀ b ∈ s.cmds, b.src = c.src → b.tag = c.tag → b = c := by
  obtain ⟨rfl, rfl, rfl, -, -, pre, post, hcmds, hother, -⟩ := h
  rw [hcmds]
  refine ⟨by simp, fun b hb hs ht => ?_⟩
  rcases List.mem_append.mp hb with h | h
  · exact absurd ht (hother b (by simp [h]) hs)
  · rcases List.mem_cons.mp h with h | h
    · exact h
    · exact absurd ht (hother b (by simp [h]) hs)

/-- From s to t only NOP commands were decided. -/
structure Swept (s t : State) : Prop where
  kept : ∀ a ∈ s.cmds, a.op ≠ 0 → a.decided = false → a ∈ t.cmds
  cmds : ∀ b ∈ t.cmds, ∃ a ∈ s.cmds, b = a ∨ a.op = 0 ∧ b = { a with started := true, decided := true }

theorem Swept.refl (s : State) : Swept s s := ⟨fun _ h _ _ => h, fun b hb => ⟨b, hb, .inl rfl⟩⟩

theorem Swept.trans {s t u : State} (h : Swept s t) (g : Swept t u) : Swept s u where
  kept := fun a ha hop hd => g.kept a (h.kept a ha hop hd) hop hd
  cmds := fun b hb => by
    obtain ⟨a, ha, hba⟩ := g.cmds b hb
    obtain ⟨a', ha', haa⟩ := h.cmds a ha
    refine ⟨a', ha', ?_⟩
    rcases hba with rfl | ⟨hop, rfl⟩
    · exact haa
    · rcases haa with rfl | ⟨hop', rfl⟩
      · exact .inr ⟨hop, rfl⟩
      · exact .inr ⟨hop', rfl⟩

theorem cmds_replyTo {s : State} {src : CmdSrc} {op tag : Nat} {r : Result} {b : Cmd} :
    (b ∈ (s.replyTo src op tag r).cmds → b ∈ s.cmds) ∧ (b ∈ s.cmds → b.decided = false → b ∈ (s.replyTo src op tag r).cmds) := by
  have hring (h : HostPort) (q : Fin 64) (ws : List Word) : (s.ringWrite h.val q.val ws).2.cmds = s.cmds := by
    unfold State.ringWrite
    dsimp only
    split
    · rfl
    · split <;> rfl
  cases src with
  | mgmt => exact ⟨fun hb => (mem_retire hb :), fun hb hd => mem_retire_of_undecided (s := s.send _) hb hd _ _⟩
  | qp h q =>
    simp only [State.replyTo, State.reply]
    split
    · split
      · refine ⟨fun hb => hring h q _ ▸ mem_retire hb, fun hb hd => mem_retire_of_undecided ?_ hd _ _⟩
        rwa [hring]
      · simp only [modQp_cmds, hring]
        exact ⟨id, fun hb _ => hb⟩
    · exact ⟨id, fun hb _ => hb⟩

/-- A NOP decided. -/
theorem swept_conclude {s : State} {c : Cmd} (hc : c.op = 0) (r : Result) : Swept s (s.conclude c r) where
  kept := fun a ha hop hd => by
    refine cmds_replyTo.2 (List.mem_map.mpr ⟨a, ha, if_neg ?_⟩) hd
    simp only [beq_iff_eq]
    rintro rfl
    exact hop hc
  cmds := fun b hb => by
    rcases mem_decideCmd (cmds_replyTo.1 hb) with ⟨hmem, -⟩ | ⟨hmem, rfl⟩
    · exact ⟨b, hmem, .inl rfl⟩
    · exact ⟨c, hmem, .inr ⟨hc, rfl⟩⟩

theorem swept_nopSteps (n : Nat) (s : State) : Swept s (State.nopSteps n s) := by
  fun_induction State.nopSteps n s with
  | case1 => exact Swept.refl _
  | case2 => exact Swept.refl _
  | case3 _ s c hfind ih =>
    have hc := List.find?_some hfind
    simp only [Bool.and_eq_true, beq_iff_eq] at hc
    exact (swept_conclude hc.1 _).trans ih

/-- A command that starts, and the NOPs that waited for it. -/
theorem startCmd_frame (s : State) (c : Cmd) : s.startCmd c =
    { s with hosts := (s.startCmd c).hosts, cmds := (s.startCmd c).cmds, sent := (s.startCmd c).sent } :=
  (answered_nopSweep (s.modCmd c _)).frame

@[simp] theorem startCmd_parts (s : State) (c : Cmd) : (s.startCmd c).parts = s.parts := by rw [startCmd_frame]
@[simp] theorem startCmd_mem (s : State) (c : Cmd) : (s.startCmd c).mem = s.mem := by rw [startCmd_frame]
@[simp] theorem startCmd_part (s : State) (c : Cmd) (p : Nat) : (s.startCmd c).part p = s.part p :=
  part_of_parts _ _ (startCmd_parts s c) p

theorem mem_startCmd {s : State} {c : Cmd} (hc : c ∈ s.cmds) (hop : c.op ≠ 0) (hd : c.decided = false) :
    { c with started := true } ∈ (s.startCmd c).cmds :=
  (swept_nopSteps _ (s.modCmd c _)).kept _ (List.mem_map.mpr ⟨c, hc, by simp⟩) hop hd

/-- Every command but the one that started stands as it was, apart from NOPs decided. -/
theorem mem_of_mem_startCmd {s : State} {c b : Cmd} (hop : c.op ≠ 0) (hb : b ∈ (s.startCmd c).cmds) :
    b = { c with started := true } ∨ ∃ a ∈ s.cmds, a ≠ c ∧ b.src = a.src ∧ b.cls = a.cls := by
  obtain ⟨a, ha, hba⟩ := (swept_nopSteps _ (s.modCmd c _)).cmds b hb
  obtain ⟨x, hx, rfl⟩ := List.mem_map.mp ha
  by_cases h : x = c
  · subst h
    simp only [beq_self_eq_true, if_true] at hba
    rcases hba with rfl | ⟨hop', -⟩
    · exact .inl rfl
    · exact absurd hop' hop
  · refine .inr ⟨x, hx, h, ?_⟩
    simp only [beq_iff_eq, h, if_false] at hba
    rcases hba with rfl | ⟨-, rfl⟩ <;> exact ⟨rfl, rfl⟩


/-! ### A LAUNCH or CASK_STEP taken into the order (R357, R360, R381) -/

theorem field_low32 (w : Word) : field w 31 0 = w.toNat % 2 ^ 32 := by simp [field]

theorem queueLaunch_unloaded {s : State} {c : Cmd} {p : Nat} (hp : c.part = some p)
    (hx : ∀ x ∈ (s.part p).scheds, x.id ≠ (c.p 1).toNat % 2 ^ 32) : s.queueLaunch c = s.finish c { status := 0x15 } := by
  have hfind : (s.part c.partOr).sched (field (c.p 1) 31 0) = none := by
    rw [Cmd.partOr, hp, field_low32]
    exact List.find?_eq_none.mpr (fun x hx' => by simpa using hx x hx')
  simp only [State.queueLaunch, hfind]
  rfl

theorem queueLaunch_loaded {s : State} {c : Cmd} {p : Nat} (hp : c.part = some p)
    (hx : ∃ x ∈ (s.part p).scheds, x.id = (c.p 1).toNat % 2 ^ 32) : s.queueLaunch c = (s.startCmd c).preemptCheck p := by
  obtain ⟨x, hmem, hid⟩ := hx
  have hfind : ((s.part c.partOr).sched (field (c.p 1) 31 0)).isSome = true := by
    rw [Cmd.partOr, hp, field_low32]
    exact List.find?_isSome.mpr ⟨x, hmem, by simpa using hid⟩
  obtain ⟨y, hy⟩ := Option.isSome_iff_exists.mp hfind
  rw [State.queueLaunch, hy, Cmd.partOr, hp, Option.getD_some]

@[simp] theorem eachCore_cmds (s : State) (p : Nat) (f : Core → Core) : (s.eachCore p f).cmds = s.cmds :=
  List.foldlRecOn (motive := fun t : State => t.cmds = s.cmds) _ _ rfl (fun _ h _ _ => h)
@[simp] theorem eachCore_mem (s : State) (p : Nat) (f : Core → Core) : (s.eachCore p f).mem = s.mem :=
  List.foldlRecOn (motive := fun t : State => t.mem = s.mem) _ _ rfl (fun _ h _ _ => h)
@[simp] theorem eachCore_part (s : State) (p : Nat) (f : Core → Core) (j : Nat) : (s.eachCore p f).part j = s.part j :=
  List.foldlRecOn (motive := fun t : State => t.part j = s.part j) _ _ rfl (fun _ h _ _ => h)

/-- A property that an update of a core sets and keeps holds of every core updated. -/
theorem core_eachCore {P : Core → Prop} {f : Core → Core} (hset : ∀ c, P (f c)) (s : State) (p k : Nat)
    (hk : k ∈ (s.part p).live.flatMap clusterCores) : P ((s.eachCore p f).core k) := by
  have hfold : ∀ (l : List Nat) (t : State), k ∈ l ∨ P (t.core k) → P ((l.foldl (fun s k => s.modCore k f) t).core k) := by
    intro l
    induction l with
    | nil => exact fun t h => h.resolve_left (by simp)
    | cons j l ih =>
      refine fun t h => ih _ ?_
      by_cases hj : k = j
      · subst hj; simp [hset]
      · rcases h with h | h
        · exact .inl ((List.mem_cons.mp h).resolve_left hj)
        · simp [hj, h]
  exact hfold _ s (.inl hk)

theorem preemptCheck_cmds (s : State) (p : Nat) : (s.preemptCheck p).cmds = s.cmds := by
  unfold State.preemptCheck; dsimp only; split
  · rfl
  · split <;> simp

theorem preemptCheck_mem (s : State) (p : Nat) : (s.preemptCheck p).mem = s.mem := by
  unfold State.preemptCheck; dsimp only; split
  · rfl
  · split <;> simp

theorem coreAt_localIndex (k : Nat) : coreAt (clusterOf k) (localIndex k) = k := by
  unfold coreAt clusterOf localIndex coreRow coreCol
  omega

theorem mem_clusterCores (k : Nat) : k ∈ clusterCores (clusterOf k) := by
  refine List.mem_map.mpr ⟨localIndex k, List.mem_range.mpr ?_, coreAt_localIndex k⟩
  unfold localIndex
  omega

/-- The outcomes of a check for pre-emption: what it leaves, and that it requests one where it may. -/
theorem preemptCheck_parts_of_idle {s : State} {p : Nat} (h : (s.part p).launch = none) : s.preemptCheck p = s := by
  simp only [State.preemptCheck, h]

theorem preemptCheck_requests {s : State} {p : Nat} {l : Launch} {c : Cmd} (hl : (s.part p).launch = some l)
    (hst : (s.part p).st = .running) (habort : (s.part p).abort = none) (hpreq : (s.part p).preq = false) (hcom : l.committed = false)
    (hc : c ∈ s.cmds) (hready : s.launchReady p c = true) (hcls : c.cls < l.cls) :
    s.preemptCheck p = (s.modPart p (fun q => { q with preq := true })).eachCore p (fun c => { c with ipend := c.ipend ||| 1 }) := by
  have hany : s.cmds.any (fun c => s.launchReady p c && decide (c.cls < l.cls)) = true :=
    List.any_eq_true.mpr ⟨c, hc, by simp [hready, hcls]⟩
  simp [State.preemptCheck, hl, hst, habort, hpreq, hcom, hany]

/-- A LAUNCH or CASK_STEP that has taken its place waits until the scheduler starts it. -/
theorem launchWaits_of_started {s : State} {p : Nat} {c : Cmd} (hp : c.part = some p) (hop : c.op = 0x30 ∨ c.op = 0x52)
    (hstarted : c.started = true) (hd : c.decided = false)
    (hmine : ∀ l, (s.part p).launch = some l → ¬(l.src = c.src ∧ l.tag = c.tag)) (hsusp : (s.part p).suspended = []) :
    s.launchWaits p c = true := by
  cases hl : (s.part p).launch with
  | none => simp [State.launchWaits, hp, hop, hstarted, hd, hl, hsusp]
  | some l =>
    have hne := hmine l hl
    rw [not_and_or] at hne
    simpa [State.launchWaits, hp, hop, hstarted, hd, hl, hsusp] using hne

/-- The first launch of its queue pair may start, where no launch of its schedule runs and no commit waits. -/
theorem launchReady_of_first {s : State} {p : Nat} {c : Cmd} (hwaits : s.launchWaits p c = true)
    (hfirst : ∀ b ∈ cmdsBefore s.cmds c, b.src = c.src → b.cls = c.cls → b.part ≠ some p)
    (hl : ∀ l, (s.part p).launch = some l → l.sched ≠ (c.p 1).toNat % 2 ^ 32) (hsusp : (s.part p).suspended = [])
    (hcom : (s.part p).commits = []) : s.launchReady p c = true := by
  have hown : s.behindOwn p c = false := by
    refine List.any_eq_false.mpr (fun b hb => ?_)
    simp only [Bool.and_eq_true, beq_iff_eq, not_and]
    intro hown
    simp [State.launchWaits, hfirst b hb hown.1 hown.2]
  have hbehind : s.behindCommit p c = false := by simp [State.behindCommit, hcom]
  cases hlaunch : (s.part p).launch with
  | none => simp [State.launchReady, hwaits, hown, hsusp, hbehind, hlaunch]
  | some l =>
    have hsched : l.sched ≠ field (c.p 1) 31 0 := field_low32 _ ▸ hl l hlaunch
    simp [State.launchReady, hwaits, hown, hsusp, hbehind, hlaunch, hsched]

/-- LAUNCH and CASK_STEP do the same with their command. -/
theorem exec_queueLaunch {i : Instr} {src : CmdSrc} {tag op : Nat} {s : State} {c : Cmd}
    (hi : (i = .launch src tag ∧ op = 0x30) ∨ (i = .caskStep src tag ∧ op = 0x52)) (h : Startable s c src tag op) :
    exec i s = .next (s.queueLaunch c) ∧ (c.op = 0x30 ∨ c.op = 0x52) := by
  have hfor := cmdFor_of_startable h
  obtain ⟨-, -, hop, -⟩ := h
  rcases hi with ⟨rfl, rfl⟩ | ⟨rfl, rfl⟩
  · exact ⟨by show execLaunch src tag s = _; simp [execLaunch, hfor], .inl hop⟩
  · exact ⟨by show execCaskStep src tag s = _; simp [execCaskStep, hfor], .inr hop⟩

/-- A refusal with a status and nothing else. -/
theorem refuse_finished {s : State} {c : Cmd} {status : Nat} (hst : status < 2 ^ 8)
    (honly : ∀ b ∈ s.cmds, b.src = c.src → b.tag = c.tag → b = c) :
    Finished s (s.refuse c status) c status 0 0 0 ∧ (s.refuse c status).parts = s.parts :=
  ⟨by
    have h := finish_finished (s := s) (r := { status := status }) rfl hst honly
    rwa [show (resultC1 { status := status }).toNat = 0 from by simp [toNat_resultC1]] at h, by rw [State.refuse, (answered_finish s c _).frame]⟩

/-- The command that has just started is ready, unless one of its queue pair and class stands before it. -/
theorem launchReady_startCmd {s : State} {c : Cmd} {p : Nat} (hp : c.part = some p) (hop : c.op = 0x30 ∨ c.op = 0x52)
    (hd : c.decided = false) (hlaunch : ∀ l, (s.part p).launch = some l → l.sched ≠ (c.p 1).toNat % 2 ^ 32 ∧ ¬(l.src = c.src ∧ l.tag = c.tag))
    (hsusp : (s.part p).suspended = []) (hcom : (s.part p).commits = [])
    (hfirst : ∀ b ∈ s.cmds, b ≠ c → b.src ≠ c.src ∨ b.cls ≠ c.cls) :
    (s.startCmd c).launchReady p { c with started := true } = true := by
  have hop0 : c.op ≠ 0 := by rcases hop with h | h <;> simp [h]
  refine launchReady_of_first ?_ (fun b hb hs hcls => ?_) (fun l hl => ?_) (by simp [hsusp]) (by simp [hcom])
  · exact launchWaits_of_started hp hop rfl hd (fun l hl => (hlaunch l (by simpa using hl)).2) (by simpa using hsusp)
  · rcases mem_of_mem_startCmd hop0 (List.takeWhile_subset _ hb) with rfl | ⟨a, ha, hac, hsrc, hcls'⟩
    · have := List.mem_takeWhile_imp hb
      simp at this
    · rcases hfirst a ha hac with h | h
      · exact absurd (hsrc ▸ hs) h
      · exact absurd (hcls' ▸ hcls) h
  · exact (hlaunch l (by simpa using hl)).1

/-- A ready launch of a lower-numbered class requests the pre-emption of the one that runs (R381). -/
theorem queueLaunch_preempts {s : State} {c : Cmd} {p : Nat} {l : Launch} (hp : c.part = some p) (hop : c.op = 0x30 ∨ c.op = 0x52)
    (hc : c ∈ s.cmds) (hd : c.decided = false) (hl : (s.part p).launch = some l) (hst : (s.part p).st = .running)
    (habort : (s.part p).abort = none) (hsusp : (s.part p).suspended = []) (hcom : (s.part p).commits = [])
    (hcommitted : l.committed = false) (hsched : l.sched ≠ (c.p 1).toNat % 2 ^ 32) (hmine : ¬(l.src = c.src ∧ l.tag = c.tag))
    (hcls : c.cls < l.cls) (hpreq : (s.part p).preq = false) (hfirst : ∀ b ∈ s.cmds, b ≠ c → b.src ≠ c.src ∨ b.cls ≠ c.cls) :
    let t := (s.startCmd c).preemptCheck p
    (t.part p).preq = true ∧ ∀ k, clusterOf k ∈ (s.part p).live → (t.core k).ipend.getLsbD 0 = true := by
  have hop0 : c.op ≠ 0 := by rcases hop with h | h <;> simp [h]
  have hready := launchReady_startCmd hp hop hd (fun l' hl' => by cases hl.symm.trans hl'; exact ⟨hsched, hmine⟩) hsusp hcom hfirst
  have hreq := preemptCheck_requests (s := s.startCmd c) (c := { c with started := true }) (by simpa using hl) (by simpa using hst)
    (by simpa using habort) (by simpa using hpreq) hcommitted (mem_startCmd hc hop0 hd) hready hcls
  refine ⟨by simp [hreq], fun k hk => ?_⟩
  rw [hreq]
  refine core_eachCore (P := fun c => c.ipend.getLsbD 0 = true) (fun c => by simp) _ p k
    (List.mem_flatMap.mpr ⟨clusterOf k, ?_, mem_clusterCores k⟩)
  simpa [Part.live, Part.clusters, Part.hasGroup] using hk

end Sys2Proof.Proofs
end

section
/-!
PROOFS. The launch next in order (R21, R360, R378, R380), and what the report of a command leaves (R363).
-/
namespace Sys2Proof.Proofs
open Sys2Proof Sys2Proof.Machine Sys2Proof.Stated Sys2Proof.Laws

/-! ### Reports (R363): what the writes of a command leave -/

/-- From s to t a command has written to memory or sent writes: ports and commands stand as they were, and the partitions but for
cellars and schedules; a cellar grows only where ranges are logged. -/
structure Reported (s t : State) : Prop where
  hosts : t.hosts = s.hosts
  cmds : t.cmds = s.cmds
  sent : s.sent ⊆ t.sent
  part : ∀ j, t.part j = { s.part j with cellar := (t.part j).cellar, scheds := (t.part j).scheds }
  cellar : ∀ j, (s.part j).logged = [] → (t.part j).cellar = (s.part j).cellar

theorem Reported.refl (s : State) : Reported s s := ⟨rfl, rfl, fun _ h => h, fun _ => rfl, fun _ _ => rfl⟩

theorem Reported.trans {s t u : State} (h : Reported s t) (g : Reported t u) : Reported s u where
  hosts := g.hosts.trans h.hosts
  cmds := g.cmds.trans h.cmds
  sent := fun _ hx => g.sent (h.sent hx)
  part := fun j => by rw [g.part j, h.part j]
  cellar := fun j hj => (g.cellar j (by rw [h.part j]; exact hj)).trans (h.cellar j hj)

/-- What keeps ports, partitions and commands, and sends nothing, is such a write. -/
theorem reported_of_parts {s t : State} (hhosts : t.hosts = s.hosts) (hcmds : t.cmds = s.cmds) (hsent : t.sent = s.sent)
    (hparts : t.parts = s.parts) : Reported s t := by
  have hpart (j : Nat) : t.part j = s.part j := part_of_parts s t hparts j
  exact ⟨hhosts, hcmds, by rw [hsent]; exact fun _ h => h, fun j => by rw [hpart], fun j _ => by rw [hpart]⟩

theorem reported_foldl {α : Type} {f : State → α → State} (hf : ∀ s x, Reported s (f s x)) (l : List α) (s : State) :
    Reported s (l.foldl f s) := by
  induction l generalizing s with
  | nil => exact Reported.refl s
  | cons x l ih => exact (hf s x).trans (ih _)

theorem markDirty_cellar (s : State) (a j : Nat) : ((s.markDirty a).part j).cellar = (s.part j).cellar := by
  unfold State.markDirty
  split
  · split
    · rfl
    · refine List.foldlRecOn (motive := fun t : State => (t.part j).cellar = (s.part j).cellar) _ _ rfl (fun t ht n _ => ?_)
      dsimp only
      split
      · rw [modPart_part]
        split
        · rename_i hj
          exact hj ▸ ht
        · exact ht
      · exact ht
  · rfl

/-- Outside the logged ranges a write leaves the cellar. -/
theorem logByte_cellar (s : State) (a : Nat) {j : Nat} (hj : (s.part j).logged = []) :
    ((s.logByte a).part j).cellar = (s.part j).cellar := by
  unfold State.logByte
  split
  · rfl
  · rename_i p _
    have hdirty : Logged s (if (s.part p).launch.isSome then s.markDirty a else s)
        ∧ ((if (s.part p).launch.isSome then s.markDirty a else s).part j).cellar = (s.part j).cellar := by
      split
      · exact ⟨logged_markDirty s a, markDirty_cellar s a j⟩
      · exact ⟨Logged.refl s, rfl⟩
    obtain ⟨hlogged, hcellar⟩ := hdirty
    dsimp only
    generalize (if (s.part p).launch.isSome then s.markDirty a else s) = u at hlogged hcellar ⊢
    have hnone : (u.part j).logged = [] := by rw [hlogged.2 j]; exact hj
    split
    · rename_i hany
      by_cases hp : j = p
      · subst hp; simp [hnone] at hany
      · simpa [hp] using hcellar
    · exact hcellar

theorem reported_placeByte (s : State) (a : Nat) (b : Byte) : Reported s (s.placeByte a b) := by
  obtain ⟨hframe, hpart⟩ := logged_logByte s a
  exact ⟨by rw [State.placeByte, putByte_hosts, hframe], by rw [State.placeByte, putByte_cmds, hframe],
    by rw [State.placeByte, putByte_sent, hframe]; exact fun _ h => h, hpart, fun _ hj => logByte_cellar s a hj⟩

theorem reported_placeAt (cs : List (Nat × Byte)) (s : State) : Reported s (s.placeAt cs) := by
  induction cs generalizing s with
  | nil => exact Reported.refl s
  | cons c cs ih => exact (reported_placeByte s c.1 c.2).trans (ih _)

/-- A protected read changes no partition. -/
theorem eccRead_parts (s : State) (a m : Nat) (e : Ecc) : (s.eccRead a m e).1.parts = s.parts := by
  have hcorrected : (s.hbmCorrected a m).parts = s.parts := by
    unfold State.hbmCorrected State.pcCorrected
    split
    · rfl
    · dsimp only
      split <;> rfl
  have hondie : (s.hbmOnDie a).parts = s.parts := by unfold State.hbmOnDie; split <;> rfl
  have huncorrectable : (s.hbmUncorrectable a m).parts = s.parts := by unfold State.hbmUncorrectable; split <;> rfl
  unfold State.eccRead
  dsimp only
  split
  · split
    · exact huncorrectable
    · split
      exacts [hcorrected, hondie, rfl]
  · split
    · rfl
    · split <;> rfl
  · split
    · rfl
    · split <;> rfl
  · rfl

theorem reported_eccRead (s : State) (a m : Nat) (e : Ecc) : Reported s (s.eccRead a m e).1 := by
  have hframe := (fetched_eccRead s a m e).1
  exact reported_of_parts (by rw [hframe]) (by rw [hframe]) (by rw [hframe]) (eccRead_parts s a m e)

theorem reported_placeCells (s : State) (cs : List (Nat × Byte)) (m : Nat) : Reported s (s.placeCells cs m) := by
  unfold State.placeCells
  dsimp only
  refine Reported.trans ?_ (reported_foldl (fun s a => reported_eccRead s a m .clean) _ _)
  exact (reported_placeAt _ s).trans (reported_of_parts rfl rfl rfl rfl)

theorem reported_writeCells (s : State) (cs : List (Nat × Byte)) (m : Nat) (e : Ecc) : Reported s (s.writeCells cs m e).1 := by
  unfold State.writeCells
  cases partAddr cs with
  | none => exact reported_placeCells s cs m
  | some a =>
    have hread := reported_eccRead s a m e
    dsimp only
    split
    · exact hread.trans (reported_placeCells _ _ _)
    · exact hread

theorem reported_cmdPlace (s : State) (m : Nat) (as : List Nat) (bs : List Byte) : Reported s (s.cmdPlace m as bs).2 := by
  unfold State.cmdPlace
  split
  · exact Reported.refl s
  split
  · exact reported_of_parts rfl rfl rfl rfl
  · exact reported_writeCells s _ _ _

theorem reported_cmdWrite (s : State) (src : CmdSrc) (part : Option Nat) (host : Bool) (a : Nat) (bs : List Byte) :
    Reported s (s.cmdWrite src part host a bs).2 := by
  unfold State.cmdWrite
  split
  · split
    · exact Reported.refl s
    · exact reported_cmdPlace s _ _ _
  split
  · dsimp only
    split
    · exact ⟨rfl, rfl, fun _ h => List.mem_cons_of_mem _ h, fun _ => rfl, fun _ _ => rfl⟩
    · exact Reported.refl s
  split
  · exact Reported.refl s
  · exact reported_cmdPlace s _ _ _

theorem reported_writeItems (src : CmdSrc) (p : Nat) (b : ReportBuf) (is : List Item) (s : State) (n : Nat) :
    Reported s (s.writeItems src p b n is).2.2 := by
  induction is generalizing s n with
  | nil => exact Reported.refl s
  | cons i is ih =>
    have hwrite := reported_cmdWrite s src (some p) b.host (b.addr + 16 * n) (i.words.flatMap (fun w => leBytes 8 w.toNat))
    unfold State.writeItems
    split
    · exact Reported.refl s
    dsimp only
    split
    · exact hwrite
    · exact hwrite.trans (ih _ _)

theorem reported_writeReport (s : State) (p : Nat) (c : Cmd) (r : Result) (is : List Item) : Reported s (s.writeReport p c r is).2 :=
  reported_writeItems _ _ _ _ _ _

/-- A command that ends with a report: its final reply has the status and cause given. -/
theorem report_finished {s u : State} (hu : u.hosts = s.hosts) {p : Nat} {c : Cmd} {r : Result} (hr : r.status < 2 ^ 8)
    (honly : ∀ b ∈ u.cmds, b.src = c.src → b.tag = c.tag → b = c) (is : List Item) :
    let w := u.writeReport p c r is
    ∃ c1, Finished s (w.2.finish c w.1) c r.status c1 r.c2 r.c3 ∧ c1 % 2 ^ 16 = r.cause % 2 ^ 8 + r.sub % 2 ^ 8 * 2 ^ 8 := by
  have hrep := reported_writeReport u p c r is
  refine ⟨_, finish_finished (r := (u.writeReport p c r is).1) (hrep.hosts.trans hu) hr (fun b hb => honly b (hrep.cmds ▸ hb)), ?_⟩
  rw [toNat_resultC1]
  have hcause : (u.writeReport p c r is).1.cause = r.cause := rfl
  have hsub : (u.writeReport p c r is).1.sub = r.sub := rfl
  rw [hcause, hsub]
  omega

/-! ### The next launch in order (R380) -/

/-- Of candidates the one of the lowest class is chosen. -/
theorem bestOf_lowest {P : Cand → Prop} {m : Nat} (cs : List Cand) (hcs : ∀ x ∈ cs, (P x ∧ x.cls = m) ∨ m < x.cls)
    (hex : ∃ x ∈ cs, P x ∧ x.cls = m) : ∃ b, bestOf cs = some b ∧ P b ∧ b.cls = m := by
  have hmem : ∀ cs d, bestOf cs = some d → d ∈ cs := by
    intro cs
    induction cs with
    | nil => intro d h; cases h
    | cons c cs ih =>
      intro d h
      unfold bestOf at h
      split at h
      · cases h; simp
      · rename_i e he
        split at h <;> cases h
        · exact List.mem_cons_of_mem _ (ih _ he)
        · exact List.mem_cons_self
  induction cs with
  | nil => obtain ⟨x, hx, -⟩ := hex; cases hx
  | cons c cs ih =>
    have hrest := fun x hx => hcs x (List.mem_cons_of_mem c hx)
    by_cases htail : ∃ x ∈ cs, P x ∧ x.cls = m
    · obtain ⟨d, hd, hP, hm⟩ := ih hrest htail
      unfold bestOf
      rw [hd]
      by_cases hbefore : d.before c = true
      · exact ⟨d, by simp [hbefore], hP, hm⟩
      · rcases hcs c (by simp) with hc | hc
        · exact ⟨c, by simp [hbefore], hc⟩
        · have hne : d.cls ≠ c.cls := by omega
          exact absurd (by rw [Cand.before, if_pos hne]; simp only [decide_eq_true_eq]; omega) hbefore
    · have hc : P c ∧ c.cls = m := by
        obtain ⟨x, hx, hxm⟩ := hex
        rcases List.mem_cons.mp hx with rfl | h
        · exact hxm
        · exact absurd ⟨x, h, hxm⟩ htail
      unfold bestOf
      cases hd : bestOf cs with
      | none => exact ⟨c, rfl, hc⟩
      | some d =>
        have hlate : m < d.cls := (hrest d (hmem cs d hd)).resolve_left (fun h => htail ⟨d, hmem cs d hd, h⟩)
        have hne : d.cls ≠ c.cls := by omega
        have hnot : d.before c = false := by simp [Cand.before, hne]; omega
        exact ⟨c, by simp [hnot], hc⟩

section
variable {s : State} {p : Nat} {c : Cmd} (hnext : NextUp s p c) (hop : c.op = 0x30 ∨ c.op = 0x52) (hstarted : c.started = true)
include hnext hop

theorem partFree_of_nextUp : s.partFree p = true := by
  obtain ⟨hvalid, hst, hlaunch, hhandling, hdestroy, -, -, -, -, -, -, hothers⟩ := hnext
  have hdma : s.dmaRunning p = false := by
    refine List.any_eq_false.mpr (fun b hb => ?_)
    by_cases hbc : b = c
    · subst hbc
      rcases hop with h | h <;> simp [isDmaOp, h]
    · by_cases hp : b.part = some p
      · simp [(hothers b hb hbc hp).2]
      · simp [hp]
  simp [State.partFree, hvalid, hst, hlaunch, hhandling, hdestroy, hdma]

include hstarted

theorem launchReady_of_nextUp : s.launchReady p c = true := by
  obtain ⟨-, -, hlaunch, -, -, hsusp, hcom, -, hp, hd, -, hothers⟩ := hnext
  refine launchReady_of_first (launchWaits_of_started hp hop hstarted hd (by simp [hlaunch]) hsusp) (fun b hb _ hcls hbp => ?_)
    (by simp [hlaunch]) hsusp hcom
  have hne : b ≠ c := by have := List.mem_takeWhile_imp hb; simpa using this
  have := (hothers b (List.takeWhile_subset _ hb) hne hbp).1
  omega

/-- The candidates of the partition: the launch, and commands of later classes. -/
theorem cands_of_nextUp : ∀ x ∈ s.cands p, ((x.fresh = true ∧ x.launch = true ∧ x.src = c.src ∧ x.tag = c.tag) ∧ x.cls = c.cls) ∨ c.cls < x.cls := by
  have hready := launchReady_of_nextUp hnext hop hstarted
  obtain ⟨-, -, -, -, -, hsusp, -, -, -, -, -, hothers⟩ := hnext
  intro x hx
  simp only [State.cands, hsusp, List.zipIdx_nil, List.map_nil, List.nil_append, List.mem_filterMap] at hx
  obtain ⟨⟨b, n⟩, hb, hx⟩ := hx
  have hmem : b ∈ s.cmds := (List.mem_zipIdx' hb).2 ▸ List.getElem_mem _
  by_cases hbc : b = c
  · subst hbc
    simp only [hready, if_true, Option.some.injEq] at hx
    subst hx
    exact .inl ⟨⟨rfl, rfl, rfl, rfl⟩, rfl⟩
  · have hlate (hp : b.part = some p) := (hothers b hmem hbc hp)
    have hnot : s.launchReady p b = false := by
      by_cases hp : b.part = some p
      · simp [State.launchReady, State.launchWaits, (hlate hp).2]
      · simp [State.launchReady, State.launchWaits, hp]
    simp only [hnot, Bool.false_eq_true, if_false] at hx
    split at hx
    · rename_i hdma
      simp only [Bool.and_eq_true, beq_iff_eq] at hdma
      cases hx
      exact .inr (hlate hdma.1.1.1).1
    · cases hx

/-- The launch next in order is the one that the scheduler starts. -/
theorem exec_launchStart_of_nextUp (i : PartId) (hi : i.val = p) : exec (.launchStart i) s = .next (s.launchCmd p c) := by
  subst hi
  have hready := launchReady_of_nextUp hnext hop hstarted
  have hmem : ∃ x ∈ s.cands i.val, (x.fresh = true ∧ x.launch = true ∧ x.src = c.src ∧ x.tag = c.tag) ∧ x.cls = c.cls := by
    obtain ⟨-, -, -, -, -, -, -, hc, -⟩ := hnext
    obtain ⟨n, hn, hget⟩ := List.getElem_of_mem hc
    refine ⟨_, List.mem_append_right _ (List.mem_filterMap.mpr ⟨(c, n), ?_, by rw [if_pos hready]⟩), ⟨rfl, rfl, rfl, rfl⟩, rfl⟩
    exact List.mem_zipIdx_iff_getElem?.mpr (by simp [hn, hget])
  obtain ⟨b, hbest, ⟨hfresh, hlaunch, hsrc, htag⟩, -⟩ := bestOf_lowest _ (cands_of_nextUp hnext hop hstarted) hmem
  have hcmd : s.cmdOf c.src c.tag = some c := by
    obtain ⟨-, -, -, -, -, -, -, hc, -, hd, honly, -⟩ := hnext
    have hsome : (s.cmdOf c.src c.tag).isSome = true := List.find?_isSome.mpr ⟨c, hc, by simp [hd]⟩
    obtain ⟨d, hd'⟩ := Option.isSome_iff_exists.mp hsome
    have hp := List.find?_some hd'
    simp only [Bool.and_eq_true, beq_iff_eq] at hp
    rw [hd', honly d (List.mem_of_find?_eq_some hd') hp.1.1 hp.1.2]
  show execLaunchStart i s = _
  simp [execLaunchStart, partFree_of_nextUp hnext hop, hbest, hfresh, hlaunch, hsrc, htag, hcmd]

end

/-! ### The launch that is chosen (R360, R378) -/

/-- The epoch check of a LAUNCH fails. -/
def EpochWrong (q : Part) (c : Cmd) : Prop := (c.p 1).toNat.testBit 48 = true ∧ (c.p 1).toNat / 2 ^ 32 % 2 ^ 16 ≠ q.epoch

theorem epochCheck_iff (q : Part) (c : Cmd) :
    (bit (c.p 1) 48 && decide (field (c.p 1) 47 32 ≠ q.epoch)) = true ↔ EpochWrong q c := by
  rw [Bool.and_eq_true, decide_eq_true_eq, field_eq_div, bit, ← BitVec.testBit_toNat]
  rfl

theorem chooseVariant_of_fits {q : Part} {im : SchedImage} (h : Fits q im) : q.chooseVariant im = .ok (outClusters q).head? := by
  rcases h with h | ⟨d, v, h, hv, rfl⟩
  · unfold outClusters at h
    simp [Part.chooseVariant, outClusters, h]
  · unfold outClusters at h
    have hsome : (imVariant im v.absent).isSome = true := List.find?_isSome.mpr ⟨v, hv, by simp⟩
    simp [Part.chooseVariant, outClusters, h, hsome]

theorem chooseVariant_of_unfit {q : Part} {im : SchedImage} (h : ¬Fits q im) : ∃ sub, q.chooseVariant im = .error sub := by
  unfold Part.chooseVariant
  split
  · rename_i hout
    exact absurd (.inl hout) h
  · rename_i d hout
    split
    · rename_i hsome
      obtain ⟨v, hv⟩ := Option.isSome_iff_exists.mp hsome
      have hd := List.find?_some hv
      exact absurd (.inr ⟨d, v, hout, List.mem_of_find?_eq_some hv, by simpa using hd⟩) h
    · exact ⟨_, rfl⟩
  · exact ⟨_, rfl⟩

/-- The state of a launch as it starts. -/
def newLaunch (q : Part) (c : Cmd) (x : Sched) : Launch :=
  { sched := x.id, src := c.src, tag := c.tag, step := c.op == 0x52, cls := c.cls, seed := c.p 2, epoch := q.epoch, ready := c.op != 0x52 }

section
variable {s : State} {p : Nat} {c : Cmd} {x : Sched} (hx : (s.part p).sched ((c.p 1).toNat % 2 ^ 32) = some x)
include hx

theorem launchCmd_wrong (hw : EpochWrong (s.part p) c) : s.launchCmd p c = s.refuse c 0x12 := by
  rw [← field_low32] at hx
  unfold State.launchCmd
  simp only [hx, (epochCheck_iff _ _).mpr hw, if_true]
  rfl

theorem launchCmd_stale (hw : ¬EpochWrong (s.part p) c) (hst : x.stale = true) : s.launchCmd p c =
    s.endUnstarted p c { status := 0x41, cause := 0x0C } (imItemsNever x.image (s.part p).variantNow 0x21 0x0C 0) := by
  rw [← field_low32] at hx
  unfold State.launchCmd
  simp only [hx, hst, if_true, if_neg (mt (epochCheck_iff _ _).mp hw)]
  rfl

theorem launchCmd_unfit (hw : ¬EpochWrong (s.part p) c) (hst : x.stale = false) (hfit : ¬Fits (s.part p) x.image) :
    ∃ sub, s.launchCmd p c =
      s.endUnstarted p c { status := 0x40, cause := 0x0D, sub := sub } (imItemsNever x.image none 0x22 0x0D sub) := by
  rw [← field_low32] at hx
  obtain ⟨sub, hsub⟩ := chooseVariant_of_unfit hfit
  refine ⟨sub, ?_⟩
  unfold State.launchCmd
  simp only [hx, hst, Bool.false_eq_true, if_false, if_neg (mt (epochCheck_iff _ _).mp hw), hsub]
  rfl

theorem launchCmd_starts (hw : ¬EpochWrong (s.part p) c) (hst : x.stale = false) (hfit : Fits (s.part p) x.image) :
    s.launchCmd p c = ((s.launchBegin p (newLaunch (s.part p) c x) x.image (outClusters (s.part p)).head?).modAcct p c.src
      (fun a => a.started (s.ao - c.at_))).modPart p (fun q => { q with lastQp := mput q.lastQp c.cls (srcOrder c.src) }) := by
  rw [← field_low32] at hx
  unfold State.launchCmd
  simp only [hx, hst, Bool.false_eq_true, if_false, if_neg (mt (epochCheck_iff _ _).mp hw), chooseVariant_of_fits hfit]
  rfl

end

/-- A launch that ends before it starts is answered with its report. -/
theorem endUnstarted_finished {s : State} {p : Nat} {c : Cmd} {r : Result} (hr : r.status < 2 ^ 8) (h3 : r.c3 = 0)
    (honly : ∀ b ∈ s.cmds, b.src = c.src → b.tag = c.tag → b = c) (is : List Item) :
    (∃ c1, Finished s (s.endUnstarted p c r is) c r.status c1 0xFF00 0 ∧ c1 % 2 ^ 8 = r.cause % 2 ^ 8)
      ∧ ∀ j, ((s.endUnstarted p c r is).part j).launch = (s.part j).launch := by
  obtain ⟨c1, hfin, hc1⟩ := report_finished (r := { r with c2 := place 0xFF00 16 0 }) rfl hr honly (p := p) is
  have hc2 : place 0xFF00 16 0 = 0xFF00 := by decide
  refine ⟨⟨c1, ?_, by simp only at hc1; omega⟩, fun j => ?_⟩
  · rw [← hc2, ← h3]
    exact hfin
  · have hrep := (reported_writeReport s p c { r with c2 := place 0xFF00 16 0 } is).part j
    have hans := (answered_finish (s.writeReport p c { r with c2 := place 0xFF00 16 0 } is).2 c
      (s.writeReport p c { r with c2 := place 0xFF00 16 0 } is).1).frame
    have hparts : (s.endUnstarted p c r is).parts = (s.writeReport p c { r with c2 := place 0xFF00 16 0 } is).2.parts := by
      rw [State.endUnstarted, hans]
    rw [part_of_parts _ _ hparts, hrep]

end Sys2Proof.Proofs
end

section
/-!
PROOFS. What a launch start clears and sets (R140, R214, R228, R269, R378).
-/
namespace Sys2Proof.Proofs
open Sys2Proof Sys2Proof.Machine Sys2Proof.Stated Sys2Proof.Laws

/-! ### What stands through a launch start -/

/-- From s to t the commands, the counters of the partitions and their resources stand. -/
structure Steady (s t : State) : Prop where
  cmds : t.cmds = s.cmds
  part : ∀ j, (t.part j).acct = (s.part j).acct ∧ (t.part j).valid = (s.part j).valid ∧ (t.part j).defn = (s.part j).defn

theorem Steady.refl (s : State) : Steady s s := ⟨rfl, fun _ => ⟨rfl, rfl, rfl⟩⟩

theorem Steady.trans {s t u : State} (h : Steady s t) (g : Steady t u) : Steady s u where
  cmds := g.cmds.trans h.cmds
  part := fun j => by
    obtain ⟨ha, hv, hd⟩ := h.part j
    obtain ⟨ha', hv', hd'⟩ := g.part j
    exact ⟨ha'.trans ha, hv'.trans hv, hd'.trans hd⟩

theorem Reported.steady {s t : State} (h : Reported s t) : Steady s t :=
  ⟨h.cmds, fun j => by rw [h.part j]; exact ⟨rfl, rfl, rfl⟩⟩

theorem steady_of_parts {s t : State} (hcmds : t.cmds = s.cmds) (hparts : t.parts = s.parts) : Steady s t :=
  ⟨hcmds, fun j => by rw [part_of_parts s t hparts j]; exact ⟨rfl, rfl, rfl⟩⟩

theorem steady_modPart (s : State) (p : Nat) {f : Part → Part}
    (hf : (f (s.part p)).acct = (s.part p).acct ∧ (f (s.part p)).valid = (s.part p).valid ∧ (f (s.part p)).defn = (s.part p).defn) :
    Steady s (s.modPart p f) :=
  ⟨rfl, fun j => by
    rw [modPart_part]
    split
    · rename_i hj
      exact hj ▸ hf
    · exact ⟨rfl, rfl, rfl⟩⟩

theorem steady_foldl {α : Type} {f : State → α → State} (hf : ∀ s x, Steady s (f s x)) (l : List α) (s : State) :
    Steady s (l.foldl f s) := by
  induction l generalizing s with
  | nil => exact Steady.refl s
  | cons x l ih => exact (hf s x).trans (ih _)

theorem Steady.hasGroup {s t : State} (h : Steady s t) (j g : Nat) : (t.part j).hasGroup g = (s.part j).hasGroup g := by
  obtain ⟨-, hv, hd⟩ := h.part j
  rw [Part.hasGroup, hv, hd]
  rfl

theorem Steady.partOfCluster {s t : State} (h : Steady s t) (c : Nat) : t.partOfCluster c = s.partOfCluster c := by
  simp only [State.partOfCluster, h.hasGroup]

theorem Steady.partOfCore {s t : State} (h : Steady s t) (k : Nat) : t.partOfCore k = s.partOfCore k := by
  simp only [State.partOfCore, h.partOfCluster]

theorem steady_freeAt (as : List Nat) (s : State) : Steady s (s.freeAt as) := by
  induction as generalizing s with
  | nil => exact Steady.refl s
  | cons a as ih =>
    exact Steady.trans (t := s.drawFree.2.putByte a (BitVec.ofNat 8 s.drawFree.1.toNat)) (steady_of_parts rfl rfl) (ih _)

theorem steady_carriedOut (s : State) (p : Nat) : Steady s (s.carriedOut p) := by
  refine steady_modPart s p ?_
  split <;> exact ⟨rfl, rfl, rfl⟩

theorem steady_carriedIn (s : State) (p id : Nat) (im : SchedImage) (v : Option Nat) : Steady s (s.carriedIn p id im v) := by
  have hin := steady_modPart s p (f := fun q => { q with lastSched := some id, boundary := mdrop q.boundary id }) ⟨rfl, rfl, rfl⟩
  unfold State.carriedIn
  dsimp only
  split
  · exact hin.trans (steady_of_parts rfl rfl)
  · split
    · exact hin
    · exact hin.trans (steady_freeAt _ _)

theorem steady_carriedSwap (s : State) (p id : Nat) (im : SchedImage) (v : Option Nat) : Steady s (s.carriedSwap p id im v) := by
  unfold State.carriedSwap
  split
  · exact Steady.refl s
  · exact (steady_carriedOut s p).trans (steady_carriedIn _ _ _ _ _)

theorem steady_entryInPlace (s : State) (c line : Nat) : Steady s (s.entryInPlace c line) := by
  unfold State.entryInPlace
  split
  · exact Steady.refl s
  · exact (reported_placeCells s _ _).steady.trans (steady_of_parts rfl rfl)

theorem steady_allInPlace (s : State) (c : Nat) : Steady s (s.allInPlace c) :=
  steady_foldl (fun _ _ => steady_entryInPlace _ _ _) _ s

theorem steady_cachesBoundary (s : State) (p : Nat) : Steady s (s.cachesBoundary p) := by
  have hdrain := steady_foldl (f := fun s c => s.allInPlace c) steady_allInPlace (s.part p).live s
  have hcores (t : State) : Steady t (t.mapPartCores p (fun _ c => { c with l1d := [], l1i := [] })) := steady_of_parts rfl rfl
  have hrefresh (t : State) (l : List Nat) : Steady t (l.foldl (fun s c => s.l2Refresh c) t) :=
    steady_foldl (f := fun s c => s.l2Refresh c) (fun _ _ => steady_of_parts rfl rfl) l t
  exact (hdrain.trans (hcores _)).trans (hrefresh _ _)

theorem steady_tunsZero (s : State) (p : Nat) : Steady s (s.tunsZero p) :=
  steady_foldl (f := fun s c => s.zeroRange (tunAddr c 0) 0x800000) (fun _ _ => steady_of_parts rfl rfl) _ s

/-! ### Units changed all over a partition -/

/-- What holds of a map's default and of every value it lists holds of what it gives for a key. -/
theorem mget_of_forall {α : Type} {P : α → Prop} {d : α} (hd : P d) (m : List (Nat × α)) (hm : ∀ e ∈ m, P e.2) (k : Nat) : P (mget d m k) := by
  induction m with
  | nil => exact hd
  | cons e m ih =>
    unfold mget
    split
    · exact hm e (by simp)
    · exact ih (fun e he => hm e (by simp [he]))

/-- What an update of the values under some keys sets holds for each of these keys, where the default has it. -/
theorem mget_map_if {α : Type} {P : α → Prop} {c : Nat → Prop} [DecidablePred c] {f : Nat → α → α} {d : α} {k : Nat} (hd : P d)
    (hf : ∀ x, P (f k x)) (hk : c k) (m : List (Nat × α)) : P (mget d (m.map (fun e => if c e.1 then (e.1, f e.1 e.2) else e)) k) := by
  induction m with
  | nil => exact hd
  | cons e m ih =>
    by_cases he : e.1 = k
    · subst he
      simpa [mget, hk] using hf e.2
    · have hne : ((if c e.1 then (e.1, f e.1 e.2) else e) : Nat × α).1 ≠ k := by split <;> exact he
      rw [List.map_cons, mget, if_neg hne]
      exact ih

theorem mapPartClusters_set {P : Cluster → Prop} {f : Cluster → Cluster} (hd : P {}) (hf : ∀ x, P (f x)) {s : State} {p c : Nat}
    (hc : s.partOfCluster c = some p) : P ((s.mapPartClusters p f).cluster c) :=
  mget_map_if (c := fun k => s.partOfCluster k = some p) (f := fun _ => f) hd hf hc _

theorem mapPartCores_set {P : Core → Prop} {f : Nat → Core → Core} {s : State} {p k : Nat} (hd : P (Core.atReset k))
    (hf : ∀ x, P (f k x)) (hk : s.partOfCore k = some p) : P ((s.mapPartCores p f).core k) :=
  mget_map_if (c := fun k => s.partOfCore k = some p) hd hf hk _

/-! ### What a launch start clears (R140, R214, R228, R245, R269) -/

theorem partOfCluster_eq_some {s : State} {c p : Nat} (h : s.partOfCluster c = some p) : c < 48 ∧ (s.part p).hasGroup (groupOf c) = true := by
  unfold State.partOfCluster at h
  split at h
  · rename_i hc
    exact ⟨hc, by simpa using List.find?_some h⟩
  · cases h

theorem mem_clusters_of_partOfCluster {s : State} {c p : Nat} (h : s.partOfCluster c = some p) : c ∈ (s.part p).clusters := by
  obtain ⟨hc, hg⟩ := partOfCluster_eq_some h
  exact List.mem_filter.mpr ⟨List.mem_range.mpr hc, hg⟩

theorem lt_of_partOfCore {s : State} {k p : Nat} (h : s.partOfCore k = some p) : k < 768 := by
  unfold State.partOfCore at h
  split at h
  · assumption
  · cases h

theorem getByte_tunsZero {s : State} {c p off : Nat} (hc : s.partOfCluster c = some p) (hoff : off < 0x800000) :
    (s.tunsZero p).getByte (tunAddr c off) = 0 := by
  have hfold : ∀ (l : List Nat) (t : State), c ∈ l ∨ t.getByte (tunAddr c off) = 0 →
      (l.foldl (fun s c => s.zeroRange (tunAddr c 0) 0x800000) t).getByte (tunAddr c off) = 0 := by
    intro l
    induction l with
    | nil => exact fun t h => h.resolve_left (by simp)
    | cons d l ih =>
      refine fun t h => ih _ ?_
      rcases h with h | h
      · rcases List.mem_cons.mp h with rfl | h
        · refine .inr ?_
          simp only [State.zeroRange, State.getByte, memGet_zero, tunAddr]
          exact if_pos (by omega)
        · exact .inl h
      · refine .inr ?_
        simp only [State.zeroRange, State.getByte, memGet_zero] at h ⊢
        split
        · rfl
        · exact h
  exact hfold _ s (.inl (mem_clusters_of_partOfCluster hc))

/-- A core at a launch boundary (R126, R214, R228). -/
def AtBoundary (c : Core) : Prop := c.run = .idle ∧ c.flg.f = 0 ∧ c.l1d = [] ∧ c.l1i = []

/-- A cluster's flags and gather engine at a launch start (R228, R269). -/
def ClusterClear (x : Cluster) : Prop := x.flags = 0 ∧ x.gather = {}

@[simp] theorem mapPartCores_mem (s : State) (p : Nat) (f : Nat → Core → Core) : (s.mapPartCores p f).mem = s.mem := rfl
@[simp] theorem mapPartClusters_mem (s : State) (p : Nat) (f : Cluster → Cluster) : (s.mapPartClusters p f).mem = s.mem := rfl

/-- A launch start's state once caches, tuns and the packets awaited are cleared. -/
def memoryCleared (s : State) (p : Nat) : State :=
  ((s.cachesBoundary p).tunsZero p).modPart p (fun q => { q with conns := q.conns.map (fun e => (e.1, { e.2 with prior := [], priorCount := 0 })) })

/-- The units of a partition as a launch start leaves them, with what is then in flight. -/
def unitsCleared (s : State) (p : Nat) (ms : List FlagMsg) : State :=
  { (s.mapPartCores p (fun _ c => c.boundary)).mapPartClusters p Cluster.boundary with flight := ms }

theorem launchClear_eq (s : State) (p : Nat) : ∃ ms, s.launchClear p = unitsCleared (memoryCleared s p) p ms := by
  refine ⟨(s.launchClear p).flight, ?_⟩
  unfold State.launchClear unitsCleared
  rfl

theorem steady_memoryCleared (s : State) (p : Nat) : Steady s (memoryCleared s p) :=
  ((steady_cachesBoundary s p).trans (steady_tunsZero _ p)).trans (steady_modPart _ p ⟨rfl, rfl, rfl⟩)

theorem getByte_memoryCleared {s : State} {p c off : Nat} (hc : s.partOfCluster c = some p) (ho : off < 0x800000) :
    (memoryCleared s p).getByte (tunAddr c off) = 0 := by
  rw [memoryCleared, State.getByte, modPart_mem]
  exact getByte_tunsZero ((steady_cachesBoundary s p).partOfCluster c ▸ hc) ho

theorem unitsCleared_getByte (s : State) (p : Nat) (ms : List FlagMsg) (a : Nat) : (unitsCleared s p ms).getByte a = s.getByte a := rfl

theorem steady_unitsCleared (s : State) (p : Nat) (ms : List FlagMsg) : Steady s (unitsCleared s p ms) := steady_of_parts rfl rfl

theorem unitsCleared_cluster {s : State} {p c : Nat} (hc : s.partOfCluster c = some p) (ms : List FlagMsg) :
    ClusterClear ((unitsCleared s p ms).cluster c) :=
  mapPartClusters_set (s := s.mapPartCores p (fun _ c => c.boundary)) (P := ClusterClear) ⟨rfl, rfl⟩ (fun _ => ⟨rfl, rfl⟩) hc

theorem unitsCleared_core {s : State} {p k : Nat} (hk : s.partOfCore k = some p) (ms : List FlagMsg) :
    AtBoundary ((unitsCleared s p ms).core k) := by
  have hne : k ≠ maltsterCore := by have := lt_of_partOfCore hk; unfold maltsterCore; omega
  have hreset : Core.atReset k = Core.reset := if_neg hne
  exact mapPartCores_set (P := AtBoundary) (f := fun _ c => c.boundary) (by rw [hreset]; exact ⟨rfl, rfl, rfl, rfl⟩) (fun _ => ⟨rfl, rfl, rfl, rfl⟩) hk

theorem steady_launchClear (s : State) (p : Nat) : Steady s (s.launchClear p) := by
  obtain ⟨ms, h⟩ := launchClear_eq s p
  rw [h]
  exact (steady_memoryCleared s p).trans (steady_unitsCleared _ p ms)

theorem launchClear_cluster {s : State} {p c : Nat} (hc : s.partOfCluster c = some p) :
    ClusterClear ((s.launchClear p).cluster c) ∧ ∀ off < 0x800000, (s.launchClear p).getByte (tunAddr c off) = 0 := by
  obtain ⟨ms, h⟩ := launchClear_eq s p
  rw [h]
  refine ⟨unitsCleared_cluster (((steady_memoryCleared s p).partOfCluster c).trans hc) ms, fun off ho => ?_⟩
  rw [unitsCleared_getByte]
  exact getByte_memoryCleared hc ho

theorem launchClear_core {s : State} {p k : Nat} (hk : s.partOfCore k = some p) : AtBoundary ((s.launchClear p).core k) := by
  obtain ⟨ms, h⟩ := launchClear_eq s p
  rw [h]
  exact unitsCleared_core (((steady_memoryCleared s p).partOfCore k).trans hk) ms

/-! ### The lists of a launch loaded (R245) -/

/-- From s to t only DMA engines changed, and the record of lists in launches. -/
structure ListsLoaded (s t : State) : Prop where
  cmds : t.cmds = s.cmds
  cores : t.cores = s.cores
  mem : t.mem = s.mem
  cluster : ∀ c, (t.cluster c).flags = (s.cluster c).flags ∧ (t.cluster c).gather = (s.cluster c).gather
  part : ∀ j, t.part j = { s.part j with launch := (t.part j).launch }
  launch : ∀ j l, (s.part j).launch = some l → ∃ xs, (t.part j).launch = some { l with lists := xs }

theorem ListsLoaded.refl (s : State) : ListsLoaded s s :=
  ⟨rfl, rfl, rfl, fun _ => ⟨rfl, rfl⟩, fun _ => rfl, fun _ l h => ⟨l.lists, h⟩⟩

theorem ListsLoaded.trans {s t u : State} (h : ListsLoaded s t) (g : ListsLoaded t u) : ListsLoaded s u where
  cmds := g.cmds.trans h.cmds
  cores := g.cores.trans h.cores
  mem := g.mem.trans h.mem
  cluster := fun c => ⟨(g.cluster c).1.trans (h.cluster c).1, (g.cluster c).2.trans (h.cluster c).2⟩
  part := fun j => by rw [g.part j, h.part j]
  launch := fun j l hl => by
    obtain ⟨xs, hxs⟩ := h.launch j l hl
    obtain ⟨ys, hys⟩ := g.launch j _ hxs
    exact ⟨ys, hys⟩

theorem listsLoaded_foldl {α : Type} {f : State → α → State} (hf : ∀ s x, ListsLoaded s (f s x)) (l : List α) (s : State) :
    ListsLoaded s (l.foldl f s) := by
  induction l generalizing s with
  | nil => exact ListsLoaded.refl s
  | cons x l ih => exact (hf s x).trans (ih _)

theorem listsLoaded_modDma (s : State) (c : Nat) (f : Dma → Dma) : ListsLoaded s (s.modDma c f) :=
  ⟨rfl, rfl, rfl, fun d => by rw [State.modDma, modCluster_cluster]; split <;> simp_all, fun _ => rfl, fun _ l h => ⟨l.lists, h⟩⟩

theorem listsLoaded_listQueue (s : State) (p c ch a : Nat) : ListsLoaded s (s.listQueue p c ch a) := by
  have hlists (r : ListRun) : ListsLoaded s (s.modPart p (fun q => { q with launch := q.launch.map (fun l => { l with lists := l.lists ++ [r] }) })) := by
    refine ⟨rfl, rfl, rfl, fun _ => ⟨rfl, rfl⟩, fun j => ?_, fun j l hl => ?_⟩
    · by_cases hj : j = p
      · subst hj; simp
      · simp [hj]
    · by_cases hj : j = p
      · subst hj; simp [hl]
      · exact ⟨l.lists, by simp [hj, hl]⟩
  unfold State.listQueue State.modDmaChan
  exact (hlists _).trans (listsLoaded_modDma _ _ _)

theorem listsLoaded_listEnter (n : Nat) (s : State) (p c ch : Nat) : ListsLoaded s (s.listEnter p c ch n) := by
  induction n generalizing s with
  | zero => exact ListsLoaded.refl s
  | succ n ih =>
    unfold State.listEnter
    dsimp only
    split
    · exact ListsLoaded.refl s
    split
    · exact ((listsLoaded_modDma s c _).trans (listsLoaded_listQueue _ _ _ _ _)).trans (ih _)
    · exact ListsLoaded.refl s

theorem listsLoaded_dmaLoad (s : State) (p : Nat) (im : SchedImage) (v : Option Nat) : ListsLoaded s (s.dmaLoad p im v) := by
  have hpaces (l : List (Nat × Word)) (u : State) := listsLoaded_foldl
    (f := fun s (e : Nat × Word) => s.modDma (e.1 / 16) (fun d => d.regStore (0x30108 + 0x40 * (e.1 % 16)) e.2))
    (fun s _ => listsLoaded_modDma s _ _) l u
  have hlists (l : List (Nat × List Nat)) (u : State) := listsLoaded_foldl
    (f := fun s (e : Nat × List Nat) =>
      (s.modDmaChan (e.1 / 16) (e.1 % 16) (fun x => { x with later := e.2 })).listEnter p (e.1 / 16) (e.1 % 16) 4)
    (fun s _ => (listsLoaded_modDma s _ _).trans (listsLoaded_listEnter 4 _ _ _ _)) l u
  exact (hpaces _ s).trans (hlists _ _)

/-! ### A launch starts -/

theorem steady_carriedSwap_launchClear (s : State) (p id : Nat) (im : SchedImage) (v : Option Nat) :
    Steady s ((s.carriedSwap p id im v).launchClear p) :=
  (steady_carriedSwap s p id im v).trans (steady_launchClear _ p)

/-- A partition in which a launch begins. -/
def beginPart (l : Launch) (im : SchedImage) (v : Option Nat) (q : Part) : Part :=
  { q with launch := some { l with variant := v, tasks := imRuns im v, lists := [] }, abort := none, rolledBack := false,
           lossy := false, st := .running, logged := imLogged im v, cellar := [] }

theorem launchBegin_eq (s : State) (p : Nat) (l : Launch) (im : SchedImage) (v : Option Nat) : s.launchBegin p l im v =
    (((s.carriedSwap p l.sched im v).launchClear p).modPart p (beginPart l im v)).dmaLoad p im v := rfl

/-- A launch that has begun: what stands from before, the partition and the units it clears, and the launch in progress. -/
theorem launchBegin_spec (s : State) (p : Nat) (l : Launch) (im : SchedImage) (v : Option Nat) :
    let t := s.launchBegin p l im v
    Steady s t ∧ Cleared s t p ∧ (t.part p).st = .running ∧ (t.part p).abort = none ∧ (t.part p).cellar = []
      ∧ ∃ xs, (t.part p).launch = some { l with variant := v, tasks := imRuns im v, lists := xs } := by
  have hswap := steady_carriedSwap s p l.sched im v
  have hclear := steady_carriedSwap_launchClear s p l.sched im v
  have hcluster (c : Nat) (hc : s.partOfCluster c = some p) := launchClear_cluster ((hswap.partOfCluster c).trans hc)
  have hcore (k : Nat) (hk : s.partOfCore k = some p) := launchClear_core ((hswap.partOfCore k).trans hk)
  rw [launchBegin_eq]
  generalize (s.carriedSwap p l.sched im v).launchClear p = w at hclear hcluster hcore
  have hpart : (w.modPart p (beginPart l im v)).part p = beginPart l im v (w.part p) := by rw [modPart_part, if_pos rfl]
  have hload := listsLoaded_dmaLoad (w.modPart p (beginPart l im v)) p im v
  have hsteady : Steady (w.modPart p (beginPart l im v)) ((w.modPart p (beginPart l im v)).dmaLoad p im v) :=
    ⟨hload.cmds, fun j => by rw [hload.part j]; exact ⟨rfl, rfl, rfl⟩⟩
  refine ⟨(hclear.trans (steady_modPart _ p ⟨rfl, rfl, rfl⟩)).trans hsteady, ⟨fun c _ hc => ?_, fun k _ hk => ?_⟩, ?_, ?_, ?_,
    hload.launch p _ (by rw [hpart]; rfl)⟩
  · obtain ⟨⟨hflags, hgather⟩, htun⟩ := hcluster c hc
    obtain ⟨hflags', hgather'⟩ := hload.cluster c
    rw [hflags', hgather']
    refine ⟨hflags, hgather, fun off ho => ?_⟩
    rw [State.getByte, hload.mem]
    exact htun off ho
  · rw [core_of_cores _ _ hload.cores]
    exact hcore k hk
  all_goals rw [hload.part p, hpart]; rfl

theorem cleared_of_units {s t u : State} {p : Nat} (hclusters : u.clusters = t.clusters) (hcores : u.cores = t.cores) (hmem : u.mem = t.mem)
    (h : Cleared s t p) : Cleared s u p := by
  have hcluster := cluster_of_clusters t u hclusters
  have hcore := core_of_cores t u hcores
  simpa only [Cleared, hcluster, hcore, State.getByte, hmem] using h

/-- The partition as a launch leaves it that a queue pair submitted: its counters, and the rotation (R380, R387). -/
def chosenPart (c : Cmd) (f : Acct → Acct) (q : Part) : Part :=
  let q1 : Part := match srcQp c.src with
    | none => q
    | some n => { q with acct := mput q.acct n (f (mget {} q.acct n)) }
  { q1 with lastQp := mput q1.lastQp c.cls (srcOrder c.src) }

theorem chosenPart_fields (c : Cmd) (f : Acct → Acct) (q : Part) : (chosenPart c f q).launch = q.launch ∧ (chosenPart c f q).st = q.st
    ∧ (chosenPart c f q).abort = q.abort ∧ (chosenPart c f q).cellar = q.cellar := by
  unfold chosenPart
  cases srcQp c.src <;> exact ⟨rfl, rfl, rfl, rfl⟩

theorem chosenPart_acct {c : Cmd} {h : HostPort} {n : Fin 64} (hc : c.src = .qp h n) (f : Acct → Acct) (q : Part) :
    mget {} (chosenPart c f q).acct n.val = f (mget {} q.acct n.val) := by
  simp [chosenPart, srcQp, hc]

theorem modAcct_lastQp (s : State) (p : Nat) (c : Cmd) (f : Acct → Acct) :
    let t := (s.modAcct p c.src f).modPart p (fun q => { q with lastQp := mput q.lastQp c.cls (srcOrder c.src) })
    t.cmds = s.cmds ∧ t.clusters = s.clusters ∧ t.cores = s.cores ∧ t.mem = s.mem ∧ t.part p = chosenPart c f (s.part p) := by
  unfold State.modAcct chosenPart
  cases srcQp c.src <;> simp

theorem imRuns_idle (im : SchedImage) (v : Option Nat) (n : Nat) : (mget {} (imRuns im v) n).st = .idle := by
  refine mget_of_forall (P := fun r : TaskRun => r.st = .idle) rfl _ (fun e he => ?_) n
  obtain ⟨t, -, rfl⟩ := List.mem_map.mp he
  rfl

/-- The launch next in order starts under the epoch and the variant in force. -/
theorem launchCmd_started {s : State} {p : Nat} {c : Cmd} {x : Sched} (hx : (s.part p).sched ((c.p 1).toNat % 2 ^ 32) = some x)
    (hw : ¬EpochWrong (s.part p) c) (hst : x.stale = false) (hfit : Fits (s.part p) x.image) (hc : c ∈ s.cmds) :
    let q := s.part p
    let t := s.launchCmd p c
    ∃ l, (t.part p).launch = some l ∧ (t.part p).st = .running ∧ (t.part p).abort = none ∧ (t.part p).cellar = [] ∧ l.sched = x.id
      ∧ l.src = c.src ∧ l.tag = c.tag ∧ l.seed = c.p 2 ∧ l.epoch = q.epoch ∧ l.cls = c.cls ∧ l.rollbacks = 0
      ∧ l.variant = (outClusters q).head? ∧ l.step = decide (c.op = 0x52)
      ∧ (∀ n < x.image.tasks.length, (mget {} l.tasks n).st = .idle) ∧ c ∈ t.cmds ∧ Cleared s t p
      ∧ ∀ h n, c.src = .qp h n → (mget {} (t.part p).acct n.val).launches = min 0xFFFFFFFF ((mget {} q.acct n.val).launches + 1)
          ∧ (mget {} (t.part p).acct n.val).waitMax = max (mget {} q.acct n.val).waitMax (s.ao - c.at_) := by
  obtain ⟨hsteady, hcleared, hrun, habort, hcellar, xs, hlaunch⟩ :=
    launchBegin_spec s p (newLaunch (s.part p) c x) x.image (outClusters (s.part p)).head?
  obtain ⟨hcmds, hclusters, hcores, hmem, hpart⟩ :=
    modAcct_lastQp (s.launchBegin p (newLaunch (s.part p) c x) x.image (outClusters (s.part p)).head?) p c (fun a => a.started (s.ao - c.at_))
  obtain ⟨hlaunch', hst', habort', hcellar'⟩ := chosenPart_fields c (fun a => a.started (s.ao - c.at_))
    ((s.launchBegin p (newLaunch (s.part p) c x) x.image (outClusters (s.part p)).head?).part p)
  obtain ⟨hacct, -⟩ := hsteady.part p
  dsimp only
  rw [launchCmd_starts hx hw hst hfit, hpart, hcmds, hsteady.cmds]
  refine ⟨_, hlaunch'.trans hlaunch, hst'.trans hrun, habort'.trans habort, hcellar'.trans hcellar, rfl, rfl, rfl, rfl, rfl, rfl, rfl, rfl,
    rfl, fun n _ => imRuns_idle _ _ n, hc, cleared_of_units hclusters hcores hmem hcleared, fun h n hsrc => ?_⟩
  rw [chosenPart_acct hsrc, hacct]
  exact ⟨rfl, rfl⟩

end Sys2Proof.Proofs
end

section
/-!
PROOFS. What a task start sets and clears (R66, R125, R134, R135, R183, R361).
-/
namespace Sys2Proof.Proofs
open Sys2Proof Sys2Proof.Machine Sys2Proof.Stated Sys2Proof.Laws

/-! ### Windows at a task start (R129, R134, R135) -/

theorem setWindow_window (c : Core) (n : Nat) (w : Window) (m : Nat) : (c.setWindow n w).window m = if m = n then w else c.window m := by
  simp [Core.setWindow, Core.window]

theorem windowWrite_other (c : Core) (b : Bool) (off : Nat) (v : Word) {m : Nat} (hm : m ≠ (off - 0x3100) / 0x20) :
    (c.windowWrite b off v).window m = c.window m := by
  obtain ⟨n, hn⟩ : ∃ n, (off - 0x3100) / 0x20 = n := ⟨_, rfl⟩
  obtain ⟨r, hr⟩ : ∃ r, (off - 0x3100) % 0x20 = r := ⟨_, rfl⟩
  rw [hn] at hm
  delta Core.windowWrite
  rw [hn, hr]
  dsimp only
  split
  · split
    · rfl
    · rw [setWindow_window, if_neg hm]
  · split
    · rfl
    · rw [setWindow_window, if_neg hm]
  · rfl

theorem placeWindow_other (c : Core) (id : Nat) (w : WinDef) {m : Nat} (hm : m ≠ w.slot) : (c.placeWindow id w).window m = c.window m := by
  unfold Core.placeWindow
  dsimp only
  rw [setWindow_window, if_neg hm, windowWrite_other _ _ _ _ (by omega), windowWrite_other _ _ _ _ (by omega)]

/-- The windows of a schedule leave the resident ones. -/
theorem loadWindows_resident (c : Core) (k id : Nat) (ws : List WinDef) {m : Nat} (hm : (c.window m).res = true) :
    (c.loadWindows k id ws).window m = c.window m := by
  unfold Core.loadWindows
  refine List.foldlRecOn (motive := fun d : Core => d.window m = c.window m) _ _ rfl (fun d hd n _ => ?_)
  split
  · exact hd
  · rename_i hres
    have hne : m ≠ n := by
      rintro rfl
      rw [hd] at hres
      exact hres hm
    split
    · rw [setWindow_window, if_neg hne, hd]
    · rename_i w hfind
      have hslot : w.slot = n := by
        have := List.find?_some hfind
        simp only [Bool.and_eq_true, beq_iff_eq] at this
        exact this.1.2
      rw [placeWindow_other _ _ _ (hslot ▸ hne), hd]

/-! ### A core's scratchpad at a task start (R125, R170) -/

theorem memGet_filter_not (m : List Host.Cell) (p : Nat → Bool) (a : Nat) :
    memGet (m.filter (fun e => !p e.1)) a = if p a = true then 0 else memGet m a := by
  split
  · rename_i hp
    induction m with
    | nil => rfl
    | cons e m ih =>
      by_cases he : p e.1 = true
      · simpa [he] using ih
      · have hne : e.1 ≠ a := fun h => he (h ▸ hp)
        simp [he, memGet, hne, ih]
  · rename_i hp
    exact memGet_filter_other m (fun a => !p a) a (by simpa using hp)

theorem memGet_putCells_outside (cs : List Host.Cell) (m : List Host.Cell) {a : Nat} (h : ∀ e ∈ cs, e.1 ≠ a) :
    memGet (memPutCells m cs) a = memGet m a :=
  List.foldlRecOn (motive := fun m' => memGet m' a = memGet m a) cs _ rfl
    (fun _ hm e he => (memGet_put_ne _ _ _ _ (h e he).symm).trans hm)

theorem memGet_replace_outside {m : List Host.Cell} {p : Nat → Bool} {cs : List Host.Cell} {a : Nat} (hp : p a = false)
    (hcs : ∀ e ∈ cs, e.1 ≠ a) : memGet (memReplace m p cs) a = memGet m a := by
  rw [memReplace, memGet_putCells_outside cs _ hcs, memGet_filter_not, hp]
  rfl

/-- A gate table lies in 4,096 bytes. -/
theorem gateBytes_lt {g : List (Nat × BitVec 128)} {e : Nat × Byte} (he : e ∈ gateBytes g) : e.1 < 4096 := by
  obtain ⟨x, -, hx⟩ := List.mem_flatMap.mp he
  obtain ⟨b, hb, rfl⟩ := List.mem_map.mp hx
  have hlt := (List.mem_zipIdx' hb).1
  rw [leBytes_length] at hlt
  dsimp only
  omega

theorem placeOf_spad {k a : Nat} (hk : k < 768) (hlo : spadAddr k 0 ≤ a) (hhi : a < spadAddr k 0x100000) : ∃ off, placeOf a = .spad k off := by
  obtain ⟨hmem, htun, hspad, -⟩ := addressMap
  unfold spadAddr at hlo hhi
  have hcore : (a - spadBase) / 0x100000 = k := by omega
  refine ⟨(a - spadBase) % 0x100000, ?_⟩
  unfold placeOf
  rw [if_neg (by omega), if_neg (by omega), if_pos (by omega), hcore]

/-- The bytes that the clearing of a scratchpad sets to zero. -/
def clearedByte (s : State) (k : Nat) (carried : List (Nat × Nat)) (a : Nat) : Bool :=
  decide (spadAddr k 0 ≤ a) && decide (a < spadAddr k 0x100000)
    && !(inRanges carried (a - spadAddr k 0) || s.residentByte k (a - spadAddr k 0))

theorem clearScratch_getByte (s : State) (k : Nat) (carried : List (Nat × Nat)) (a : Nat) :
    (s.clearScratch k carried).getByte a = if clearedByte s k carried a = true then 0 else s.getByte a :=
  memGet_filter_not s.mem (clearedByte s k carried) a

/-- A task's gate table in the memory of its core. -/
theorem startTask_mem (s : State) (p k t : Nat) (l : Launch) (im : SchedImage) : (s.startTask p k t l im).mem =
    memReplace (s.clearScratch k (imCarried im l.variant k)).mem
      (fun a => decide (spadAddr k ((imTask im t).gtb * 4096) ≤ a) && decide (a < spadAddr k ((imTask im t).gtb * 4096) + 4096))
      ((gateBytes (imTask im t).gates).map (fun e => (spadAddr k ((imTask im t).gtb * 4096) + e.1, e.2))) := rfl

/-- Outside its gate table a task finds its scratchpad as the clearing leaves it. -/
theorem startTask_getByte (s : State) (p k t : Nat) (l : Launch) (im : SchedImage) {a : Nat}
    (ha : a < spadAddr k ((imTask im t).gtb * 4096) ∨ spadAddr k ((imTask im t).gtb * 4096) + 4096 ≤ a) :
    (s.startTask p k t l im).getByte a = (s.clearScratch k (imCarried im l.variant k)).getByte a := by
  rw [State.getByte, startTask_mem]
  refine memGet_replace_outside ?_ (fun e he => ?_)
  · simp only [Bool.and_eq_false_iff, decide_eq_false_iff_not]
    omega
  · obtain ⟨g, hg, rfl⟩ := List.mem_map.mp he
    have := gateBytes_lt hg
    dsimp only
    omega

/-! ### What a task finds (R66, R125, R183, R361) -/

/-- The core of a task as its start leaves it. -/
def startedCore (s : State) (p k t : Nat) (l : Launch) (im : SchedImage) : Core :=
  ((s.core k).windowsStart k l.sched (imWindows im l.variant)).taskStart p l.sched t (generator l.seed 0xFFFF t 0) (imTask im t)
    (imRoute im l.variant t)

theorem startTask_core (s : State) (p k t : Nat) (l : Launch) (im : SchedImage) :
    (s.startTask p k t l im).core k = startedCore s p k t l im := by
  simp only [State.startTask, modPart_core, modCore_core, if_true]
  rfl

theorem startTask_launch {s : State} {p : Nat} {l : Launch} (hl : (s.part p).launch = some l) (k t : Nat) (im : SchedImage) :
    ((s.startTask p k t l im).part p).launch = some { l with tasks := mput l.tasks t { st := .running, core := k } } := by
  simp only [State.startTask, modPart_part, if_true, modCore_part]
  have hpart : (s.clearScratch k (imCarried im l.variant k)).part p = s.part p := rfl
  exact congrArg (Option.map _) ((congrArg Part.launch hpart).trans hl)

theorem taskStart_window (c : Core) (p id t : Nat) (seed : Word) (d : TaskDef) (r : RouteProg) (w : Nat) :
    (c.taskStart p id t seed d r).window w = c.window w := by
  simp only [Core.taskStart, Core.window]

theorem windowsStart_window (c : Core) (k id : Nat) (ws : List WinDef) (w : Nat) :
    (c.windowsStart k id ws).window w = (c.loadWindows k id ws).window w := by
  simp only [Core.windowsStart, Core.window]

theorem startedCore_resident {s : State} {k w : Nat} (hw : ((s.core k).window w).res = true) (p t : Nat) (l : Launch) (im : SchedImage) :
    (startedCore s p k t l im).window w = (s.core k).window w := by
  rw [startedCore, taskStart_window, windowsStart_window, loadWindows_resident _ _ _ _ hw]

theorem residentByte_of_none {s : State} {k : Nat} (hres : ∀ w < 16, ((s.core k).window w).res = false) (off : Nat) :
    s.residentByte k off = false := by
  refine List.any_eq_false.mpr (fun w hw => ?_)
  simp [hres w (List.mem_range.mp hw)]

theorem imCarried_of_none {im : SchedImage} (hnone : ∀ e ∈ im.live, e.carried = []) (v : Option Nat) (k : Nat) : imCarried im v k = [] :=
  List.flatMap_eq_nil_iff.mpr (fun e he => hnone e (List.mem_filter.mp he).1)

/-- Without carried bytes and resident windows the whole scratchpad is zero outside the gate table (R125). -/
theorem startTask_spad_zero {s : State} {k : Nat} {im : SchedImage} (hnone : ∀ e ∈ im.live, e.carried = [])
    (hres : ∀ w < 16, ((s.core k).window w).res = false) (p t : Nat) (l : Launch) {off : Nat} (hoff : off < 0x100000)
    (hgate : off < (imTask im t).gtb * 4096 ∨ (imTask im t).gtb * 4096 + 4096 ≤ off) :
    (s.startTask p k t l im).getByte (spadAddr k off) = 0 := by
  have hbase (n : Nat) : spadAddr k n = spadAddr k 0 + n := by simp only [spadAddr]; omega
  have hcleared : clearedByte s k [] (spadAddr k off) = true := by
    simp only [clearedByte, residentByte_of_none hres, inRanges, List.any_nil, Bool.or_false, Bool.not_false, Bool.and_true, Bool.and_eq_true,
      decide_eq_true_eq]
    rw [hbase off, hbase 0x100000]
    omega
  rw [startTask_getByte, clearScratch_getByte, imCarried_of_none hnone, if_pos hcleared]
  rw [hbase off, hbase ((imTask im t).gtb * 4096)]
  omega

/-- Outside the scratchpad of its core the start of a task leaves memory. -/
theorem startTask_other {s : State} {k : Nat} (hk : k < 768) {im : SchedImage} {t : Nat} (hgtb : (imTask im t).gtb < 256) (p : Nat) (l : Launch)
    {a : Nat} (ha : ∀ off, placeOf a ≠ .spad k off) : (s.startTask p k t l im).getByte a = s.getByte a := by
  have hout : a < spadAddr k 0 ∨ spadAddr k 0x100000 ≤ a := by
    by_contra hin
    obtain ⟨off, hoff⟩ := placeOf_spad hk (by omega : spadAddr k 0 ≤ a) (by omega)
    exact ha off hoff
  have hkept : clearedByte s k (imCarried im l.variant k) a = false := by
    simp only [clearedByte, Bool.and_eq_false_iff, decide_eq_false_iff_not]
    omega
  rw [startTask_getByte, clearScratch_getByte, hkept]
  · rfl
  · simp only [spadAddr] at hout ⊢
    omega

/-- A core starts the first of its tasks that has not run. -/
theorem nextTask_of_first {l : Launch} {im : SchedImage} {k n : Nat} {pre post : List Nat} (hlist : imTasksOf im l.variant k = pre ++ n :: post)
    (hpre : ∀ m ∈ pre, (mget {} l.tasks m).st ≠ .idle) (hn : (mget {} l.tasks n).st = .idle) : l.nextTask im k = some n := by
  have hnone : pre.find? (fun t => (mget {} l.tasks t).st == .idle) = none := List.find?_eq_none.mpr (fun m hm => by simpa using hpre m hm)
  rw [Launch.nextTask, hlist, List.find?_append, hnone]
  simp [hn]

theorem exec_taskStart {k : CoreId} {p : Nat} {s : State} {l : Launch} {x : Sched} {n : Nat} (hp : s.partOfCore k.val = some p)
    (hl : (s.part p).launch = some l) (hx : (s.part p).sched l.sched = some x) (hst : (s.part p).st = .running) (habort : (s.part p).abort = none)
    (hready : l.ready = true) (hrun : (s.core k.val).run = .idle ∨ (s.core k.val).run = .ended) (hpend : (s.core k.val).ipend.getLsbD 0 = false)
    (hnext : l.nextTask x.image k.val = some n) : exec (.taskStart k) s = .next (s.startTask p k.val n l x.image) := by
  have hfree : ((s.core k.val).run != .idle && (s.core k.val).run != .ended) = false := by
    rcases hrun with h | h <;> simp [h]
  show execTaskStart k s = _
  simp only [execTaskStart, hp, hl, hx, hst, habort, hready, hfree, hpend, hnext, bne_self_eq_false, Option.isSome_none, Bool.not_true, Bool.or_self,
    Bool.false_eq_true, if_false]

/-- The incoming launch of a switch. -/
theorem exec_launchStart_suspended {p : PartId} {s : State} {b : Cand} (hfree : s.partFree p.val = true) (hbest : bestOf (s.cands p.val) = some b)
    (hfresh : b.fresh = false) :
    exec (.launchStart p) s = .next (s.modPart p.val (fun q => { q with st := .switching, incoming := some (b.src, b.tag) })) := by
  show execLaunchStart p s = _
  simp only [execLaunchStart, hfree, hbest, hfresh, Bool.not_true, Bool.false_eq_true, if_false, Bool.not_false, if_true]

end Sys2Proof.Proofs
end

section
/-!
PROOFS. The two events of a commit (R296, R363, R404, R413).
-/
namespace Sys2Proof.Proofs
open Sys2Proof Sys2Proof.Machine Sys2Proof.Stated Sys2Proof.Laws

/-! ### The commit record and the LEN words (R296, R404) -/

/-- The byte at i of a block of bytes that was put in place. -/
theorem putBytes_getByte_inside (s : State) (a : Nat) {bs : List Byte} {i : Nat} (hi : i < bs.length) :
    (s.putBytes a bs).getByte (a + i) = bs.getD i 0 := by
  rw [State.getByte, State.putBytes, memGet_putN_inside bs s.mem a i hi, List.getD_eq_getElem _ _ hi]

theorem putBytes_getByte_outside (s : State) (a : Nat) (bs : List Byte) {b : Nat} (hb : b < a ∨ a + bs.length ≤ b) :
    (s.putBytes a bs).getByte b = s.getByte b :=
  memGet_putN_outside bs s.mem a b hb

/-- The LEN words of some sequences put in the sequence table. -/
def putLens (tab : Nat) (xs : List Seq) (s : State) : State :=
  xs.foldl (fun s x => s.putBytes (tab + 64 * x.slot + 8) (leBytes 4 x.len)) s

theorem putLens_frame (tab : Nat) (xs : List Seq) (s : State) : putLens tab xs s = { s with mem := (putLens tab xs s).mem } :=
  List.foldlRecOn (motive := fun t : State => t = { s with mem := t.mem }) xs _ rfl (fun t ht x _ => by
    rw [State.putBytes, ht])

/-- The LEN word of a sequence whose slot no other of them has. -/
theorem putLens_getByte {tab : Nat} {y : Seq} {i : Nat} (hi : i < 4) (xs : List Seq) (hxs : ∀ z ∈ xs, z = y ∨ z.slot ≠ y.slot) (s : State)
    (hy : y ∈ xs ∨ s.getByte (tab + 64 * y.slot + 8 + i) = (leBytes 4 y.len).getD i 0) :
    (putLens tab xs s).getByte (tab + 64 * y.slot + 8 + i) = (leBytes 4 y.len).getD i 0 := by
  induction xs generalizing s with
  | nil => exact hy.resolve_left (List.not_mem_nil)
  | cons z zs ih =>
    refine ih (fun w hw => hxs w (List.mem_cons_of_mem z hw)) _ ?_
    by_cases hzy : z = y
    · subst hzy
      exact .inr (putBytes_getByte_inside s _ (by simpa using hi))
    · have hslot := (hxs z List.mem_cons_self).resolve_left hzy
      refine hy.imp (fun h => (List.mem_cons.mp h).resolve_left (Ne.symm hzy)) (fun h => ?_)
      rw [putBytes_getByte_outside, h]
      rw [leBytes_length]
      omega

/-- A partition as the commit record of a launch leaves it. -/
def recordedPart (l : Launch) (q : Part) : Part :=
  { q with commit := some (l.sched, l.tag, l.epoch), cask := q.cask.committed l.seqs, cellar := [],
           launch := some { l with committed := true } }

/-- The state as the commit record of a launch leaves it. -/
def recorded (s : State) (p : Nat) (l : Launch) : State := (s.modPart p (recordedPart l)).writeLens p l.seqs

theorem exec_launchCommit_records {p : PartId} {s : State} {l : Launch} {x : Sched} (hl : (s.part p.val).launch = some l)
    (hx : (s.part p.val).sched l.sched = some x) (hc : l.committed = false) (hst : (s.part p.val).st = .running)
    (habort : (s.part p.val).abort = none) (hmay : s.mayCommit p.val l x.image = true) :
    exec (.launchCommit p) s = .next (recorded s p.val l) := by
  show execLaunchCommit p s = _
  simp only [execLaunchCommit, hl, hx, hc, hst, habort, hmay, bne_self_eq_false, Option.isSome_none, Bool.not_true, Bool.or_self,
    Bool.false_eq_true, if_false]
  rfl

theorem committed_seqs (c : Cask) (hs : List Nat) :
    (c.committed hs).seqs = c.seqs.map (fun y => if y.handle ∈ hs then { y with len := y.len + 1 } else y) := by
  simp [Cask.committed]

section
variable (s : State) (p : Nat) (l : Launch)

theorem recorded_eq : recorded s p l = putLens (s.part p).cask.seqtab
    (((s.part p).cask.committed l.seqs).seqs.filter (fun x => l.seqs.contains x.handle)) (s.modPart p (recordedPart l)) := by
  simp only [recorded, State.writeLens, modPart_part, if_true]
  rfl

theorem recorded_frame : recorded s p l = { s.modPart p (recordedPart l) with mem := (recorded s p l).mem } := by
  rw [recorded_eq]
  exact putLens_frame _ _ _

theorem recorded_part : (recorded s p l).part p = recordedPart l (s.part p) := by
  have hparts : (recorded s p l).parts = (s.modPart p (recordedPart l)).parts := by rw [recorded_frame]
  rw [part_of_parts _ _ hparts, modPart_part, if_pos rfl]

/-- A launch that ran no sequence writes no LEN word. -/
theorem recorded_mem (hseqs : l.seqs = []) : (recorded s p l).mem = s.mem := by
  rw [recorded_eq, hseqs]
  simp [putLens]

/-- The LEN word of a sequence that the step ran grows by 1. -/
theorem recorded_len {y : Seq} (hy : y ∈ (s.part p).cask.seqs) (hrun : y.handle ∈ l.seqs)
    (honly : ∀ z ∈ (s.part p).cask.seqs, z ≠ y → z.slot ≠ y.slot) {i : Nat} (hi : i < 4) :
    (recorded s p l).getByte ((s.part p).cask.seqtab + 64 * y.slot + 8 + i) = (leBytes 4 (y.len + 1)).getD i 0 := by
  have hgrown : ∀ z ∈ ((s.part p).cask.committed l.seqs).seqs.filter (fun x => l.seqs.contains x.handle),
      z = { y with len := y.len + 1 } ∨ z.slot ≠ y.slot := by
    intro z hz
    obtain ⟨hz, hin⟩ := List.mem_filter.mp hz
    rw [committed_seqs] at hz
    obtain ⟨z0, hz0, rfl⟩ := List.mem_map.mp hz
    by_cases hzy : z0 = y
    · left
      rw [hzy, if_pos hrun]
    · right
      have hslot := honly z0 hz0 hzy
      split <;> exact hslot
  have hmem : { y with len := y.len + 1 } ∈ ((s.part p).cask.committed l.seqs).seqs.filter (fun x => l.seqs.contains x.handle) := by
    refine List.mem_filter.mpr ⟨?_, by simpa using hrun⟩
    rw [committed_seqs]
    exact List.mem_map.mpr ⟨y, hy, if_pos hrun⟩
  rw [recorded_eq]
  exact putLens_getByte hi _ hgrown _ (.inl hmem)

end

/-! ### A launch is closed (R390, R399, R404) -/

/-- From s to t hosts have been told of something, and the error log has been written. -/
def Told (s t : State) : Prop := t = { s with log := t.log, hosts := t.hosts, sent := t.sent }

theorem Told.trans {s t u : State} (h : Told s t) (g : Told t u) : Told s u := by
  unfold Told at *
  rw [g, h]

theorem told_foldl {α : Type} {f : State → α → State} (hf : ∀ s x, Told s (f s x)) (l : List α) (s : State) : Told s (l.foldl f s) :=
  List.foldlRecOn (motive := Told s) l f rfl (fun t ht x _ => ht.trans (hf t x))

theorem told_ringWrite (s : State) (h q : Nat) (ws : List Word) : Told s (s.ringWrite h q ws).2 := by
  unfold State.ringWrite
  dsimp only
  split
  · rfl
  · split <;> rfl

theorem told_hostEvent (s : State) (h code d : Nat) (c2 c3 : Word) : Told s (s.hostEvent h code d c2 c3) := by
  have hlose (u : State) (f : HostS → HostS) : Told u (u.modHost h f) := rfl
  unfold State.hostEvent
  dsimp only
  split
  · have hring := (hlose s _).trans (told_ringWrite (s.modHost h (fun x => { x with evseq := (x.evseq + 1) % 2 ^ 32 })) h (s.host h).evqp
      [place code 8 0 ||| place (s.host h).evqp 6 32 ||| flagAt true 38, place (s.host h).evseq 32 0 ||| place d 32 32, c2, c3])
    split
    · exact hring
    · exact hring.trans (hlose _ _)
  · exact (hlose s _).trans (hlose _ _)

theorem told_partEvent (s : State) (p code d : Nat) (c2 c3 : Word) : Told s (s.partEvent p code d c2 c3) := by
  unfold State.partEvent
  split
  · exact told_hostEvent _ _ _ _ _ _
  · rfl

theorem told_recordClose (s : State) (h : Handling) (cls : ErrClass) (action : Nat) (peer : Bool) (ps : List Nat) :
    Told s (s.recordClose h cls action peer ps) := by
  unfold State.recordClose
  exact Told.trans (t := { s with log := _ }) rfl (told_foldl (fun _ _ => told_partEvent _ _ _ _ _ _) _ _)

/-- The records of a partition's errors are closed; hosts and the log apart, nothing but the list of these errors changes. -/
theorem closeActed_told (s : State) (p : Nat) : Told (s.modPart p (fun q => { q with acted := [] })) (s.closeActed p none false) :=
  told_foldl (fun _ _ => told_recordClose _ _ _ _ _ _) _ _

theorem closeActed_of_none {s : State} {p : Nat} (h : (s.part p).acted = []) :
    s.closeActed p none false = s.modPart p (fun q => { q with acted := [] }) := by
  unfold State.closeActed
  rw [h]
  rfl

/-- A launch of a partition closed. -/
def closed (s : State) (p : Nat) : State := (s.closeActed p none false).launchClose p

/-- The partition of a launch that is closed. -/
def closedPart (q : Part) : Part :=
  { q with acted := [], launch := none, abort := none, rolledBack := false, lossy := false, logged := [], cellar := [],
           st := if q.st = .running then .idle else q.st, preq := false }

theorem closed_part (s : State) (p j : Nat) : (closed s p).part j = if j = p then closedPart (s.part p) else s.part j := by
  have hacted : ∀ i, (s.closeActed p none false).part i = (s.modPart p (fun q => { q with acted := [] })).part i :=
    fun i => part_of_parts _ _ (by rw [closeActed_told s p]) i
  have hclose : ∀ u : State, (u.launchClose p).part j = (u.modPart p (fun q =>
      { q with launch := none, abort := none, rolledBack := false, lossy := false, logged := [], cellar := [],
               st := if q.st = .running then .idle else q.st, preq := false })).part j := fun _ => rfl
  rw [closed, hclose, modPart_part, hacted, hacted, modPart_part, modPart_part, if_pos rfl]
  split <;> rfl

theorem closed_mem (s : State) (p : Nat) :
    (closed s p).cmds = s.cmds ∧ (closed s p).mem = s.mem ∧ (closed s p).poison = s.poison ∧ (closed s p).bad = s.bad := by
  have h : ∀ u : State, (u.launchClose p).cmds = u.cmds ∧ (u.launchClose p).mem = u.mem ∧ (u.launchClose p).poison = u.poison
      ∧ (u.launchClose p).bad = u.bad := fun _ => ⟨rfl, rfl, rfl, rfl⟩
  obtain ⟨hcmds, hmem, hpoison, hbad⟩ := h (s.closeActed p none false)
  rw [closed, hcmds, hmem, hpoison, hbad, closeActed_told s p]
  exact ⟨rfl, rfl, rfl, rfl⟩

theorem closed_hosts {s : State} {p : Nat} (h : (s.part p).acted = []) : (closed s p).hosts = s.hosts := by
  rw [closed, closeActed_of_none h]
  rfl

/-! ### The end of a launch that is committed (R363, R404, R413) -/

/-- What a partition keeps as its committed launch ends. -/
structure Ended (q q' : Part) : Prop where
  launch : q'.launch = none
  commit : q'.commit = q.commit
  st : q.st = .running → q'.st = .idle
  cellar : q'.cellar = []
  cask : q'.cask = q.cask

theorem ended_closedPart (q : Part) : Ended q (closedPart q) :=
  ⟨rfl, rfl, fun h => if_pos h, rfl, rfl⟩

/-- The CANCELs that waited for a launch are answered. -/
theorem cancelsDone_answered (s : State) (p tag : Nat) :
    ∃ f : Part → Part, Answered (s.modPart p f) (s.cancelsDone p tag) ∧ ∀ q, f q = { q with cancels := (f q).cancels } := by
  unfold State.cancelsDone
  dsimp only
  refine ⟨_, List.foldlRecOn (motive := Answered (s.modPart p _)) _ _ (Answered.refl _) (fun t ht e _ => ?_), fun _ => rfl⟩
  split
  · exact ht.trans (answered_finish _ _ _)
  · exact ht

theorem answered_parts {s t : State} (h : Answered s t) : t.parts = s.parts := by rw [h.frame]
theorem answered_mem {s t : State} (h : Answered s t) : t.mem = s.mem := by rw [h.frame]

theorem cancelsDone_mem (s : State) (p tag : Nat) : (s.cancelsDone p tag).mem = s.mem := by
  obtain ⟨f, h, -⟩ := cancelsDone_answered s p tag
  rw [answered_mem h]
  rfl

theorem cancelsDone_part (s : State) (p tag j : Nat) :
    (s.cancelsDone p tag).part j = { s.part j with cancels := ((s.cancelsDone p tag).part j).cancels } := by
  obtain ⟨f, h, hf⟩ := cancelsDone_answered s p tag
  rw [part_of_parts _ _ (answered_parts h), modPart_part]
  split
  · rename_i hj
    rw [hj, hf (s.part p)]
  · rfl

theorem cancelsDone_finished {s u : State} {c : Cmd} {status c1 : Nat} {c2 c3 : Word} (h : Finished s u c status c1 c2 c3) (p tag : Nat) :
    Finished s (u.cancelsDone p tag) c status c1 c2 c3 := by
  obtain ⟨f, hans, -⟩ := cancelsDone_answered u p tag
  have hmod : Finished s (u.modPart p f) c status c1 c2 c3 := h
  exact finished_of_answered hmod hans

/-- A reply on the management path does not depend on the ports. -/
theorem finished_of_mgmt {s s' t : State} {c : Cmd} (hm : c.src = .mgmt) {status c1 : Nat} {c2 c3 : Word} (h : Finished s' t c status c1 c2 c3) :
    Finished s t c status c1 c2 c3 := by
  obtain ⟨hreplied, hdecided⟩ := h
  refine ⟨?_, hdecided⟩
  rw [hm] at hreplied ⊢
  exact hreplied

/-- The launch with its command answered, and the CANCELs after it. -/
def launchAnswered (s : State) (p : Nat) (c : Cmd) (r : Result) (is : List Item) (tag : Nat) : State :=
  ((s.writeReport p c r is).2.finish c (s.writeReport p c r is).1).cancelsDone p tag

theorem launchAnswered_ended {s : State} {p : Nat} {q : Part} (h : Ended q (s.part p)) (hlogged : (s.part p).logged = []) (c : Cmd) (r : Result)
    (is : List Item) (tag : Nat) : Ended q ((launchAnswered s p c r is tag).part p) := by
  have hrep := reported_writeReport s p c r is
  have hpart : (launchAnswered s p c r is tag).part p =
      { (s.writeReport p c r is).2.part p with cancels := ((launchAnswered s p c r is tag).part p).cancels } := by
    rw [← part_of_parts _ _ (answered_parts (answered_finish (s.writeReport p c r is).2 c (s.writeReport p c r is).1)) p]
    exact cancelsDone_part _ _ _ _
  have hcellar := hrep.cellar p hlogged
  have hfields := hrep.part p
  rw [hpart, hfields]
  exact ⟨h.launch, h.commit, h.st, hcellar.trans h.cellar, h.cask⟩

theorem launchAnswered_mem (s : State) (p : Nat) (c : Cmd) (r : Result) (is : List Item) (tag : Nat) :
    (launchAnswered s p c r is tag).mem = (s.writeReport p c r is).2.mem := by
  rw [launchAnswered, cancelsDone_mem, answered_mem (answered_finish _ _ _)]

theorem launchAnswered_finished {s u : State} {p : Nat} {c : Cmd} (hu : c.src = .mgmt ∨ u.hosts = s.hosts) {r : Result} (hr : r.status < 2 ^ 8)
    (honly : ∀ b ∈ u.cmds, b.src = c.src → b.tag = c.tag → b = c) (is : List Item) (tag : Nat) :
    ∃ c1, Finished s (launchAnswered u p c r is tag) c r.status c1 r.c2 r.c3 ∧ c1 % 2 ^ 16 = r.cause % 2 ^ 8 + r.sub % 2 ^ 8 * 2 ^ 8 := by
  rcases hu with hm | hu
  · obtain ⟨c1, hfin, hc1⟩ := report_finished (s := u) (p := p) rfl hr honly is
    exact ⟨c1, finished_of_mgmt hm (cancelsDone_finished hfin p tag), hc1⟩
  · obtain ⟨c1, hfin, hc1⟩ := report_finished (p := p) hu hr honly is
    exact ⟨c1, cancelsDone_finished hfin p tag, hc1⟩

/-! ### Report records in memory (R130, R136, R303, R363) -/

/-- From s to t the writes of a partition's commands reach the same places, and nothing more holds an error. -/
structure SameReach (s t : State) : Prop where
  part : ∀ j, (t.part j).pages = (s.part j).pages ∧ (t.part j).valid = (s.part j).valid ∧ (t.part j).defn = (s.part j).defn
    ∧ (t.part j).conns = (s.part j).conns
  poison : t.poison ⊆ s.poison
  bad : t.bad ⊆ s.bad

theorem SameReach.trans {s t u : State} (h : SameReach s t) (g : SameReach t u) : SameReach s u where
  part := fun j => by
    obtain ⟨h1, h2, h3, h4⟩ := h.part j
    obtain ⟨g1, g2, g3, g4⟩ := g.part j
    exact ⟨g1.trans h1, g2.trans h2, g3.trans h3, g4.trans h4⟩
  poison := List.Subset.trans g.poison h.poison
  bad := List.Subset.trans g.bad h.bad

theorem sameReach_closed (s : State) (p : Nat) : SameReach s (closed s p) := by
  obtain ⟨-, -, hpoison, hbad⟩ := closed_mem s p
  refine ⟨fun j => ?_, hpoison ▸ fun _ h => h, hbad ▸ fun _ h => h⟩
  rw [closed_part]
  split
  · rename_i hj
    exact hj ▸ ⟨rfl, rfl, rfl, rfl⟩
  · exact ⟨rfl, rfl, rfl, rfl⟩

theorem sameReach_of_placed {s t : State} (h : Placed s t) : SameReach s t :=
  ⟨fun j => by rw [h.2 j]; exact ⟨rfl, rfl, rfl, rfl⟩, by rw [h.1]; exact fun _ h => h, by rw [h.1]; exact fun _ h => h⟩

section
variable {s t : State} (h : SameReach s t)
include h

theorem SameReach.ownerOf (x : Place) : t.ownerOf x = s.ownerOf x := by
  have hgroup (j g : Nat) : (t.part j).hasGroup g = (s.part j).hasGroup g := by
    obtain ⟨-, hv, hd, -⟩ := h.part j
    rw [Part.hasGroup, hv, hd]
    rfl
  have hstack (j n : Nat) : (t.part j).hasStack n = (s.part j).hasStack n := by
    obtain ⟨-, hv, hd, -⟩ := h.part j
    rw [Part.hasStack, hv, hd]
    rfl
  have hcluster (c : Nat) : t.partOfCluster c = s.partOfCluster c := by simp only [State.partOfCluster, hgroup]
  have hcore (k : Nat) : t.partOfCore k = s.partOfCore k := by simp only [State.partOfCore, hcluster]
  cases x with
  | mem a => simp only [State.ownerOf, State.partOfStack, hstack]
  | tun c off => exact hcluster c
  | spad k off => exact hcore k
  | coreReg k off => exact hcore k
  | clReg c off => exact hcluster c
  | devReg b i off => rfl
  | hole => rfl

theorem SameReach.placeFault (p : Nat) (image : Bool) (kind : AccKind) (pa va : Nat) :
    placeFault t p image kind pa va = placeFault s p image kind pa va := by
  obtain ⟨-, -, hd, -⟩ := h.part p
  have husable : (t.part p).usable = (s.part p).usable := by simp only [Part.usable, Part.mspare, hd]
  have hsystem (off : Nat) : (t.part p).inSystemArea off = (s.part p).inSystemArea off := by simp only [Part.inSystemArea, husable]
  simp only [Machine.placeFault, h.ownerOf, husable, hsystem]

theorem SameReach.xlate (p : Nat) (ring : Fin 4) (kind : AccKind) (va : Nat) : xlate t p ring kind va = xlate s p ring kind va := by
  obtain ⟨hp, -⟩ := h.part p
  rw [Machine.xlate, Machine.xlate, hp]

theorem SameReach.masterXlate (p va : Nat) : masterXlate t p .write va = masterXlate s p .write va := by
  obtain ⟨-, -, -, hc⟩ := h.part p
  simp only [Machine.masterXlate, h.xlate, h.placeFault, remoteTarget, hc, bne_self_eq_false, Bool.false_and]

theorem SameReach.masterXlateN (p va n : Nat) : masterXlateN t p .write va n = masterXlateN s p .write va n := by
  induction n generalizing va with
  | zero => rfl
  | succ n ih => simp only [Machine.masterXlateN, h.masterXlate, ih]

theorem SameReach.holdsError {a : Nat} (ha : s.holdsError a = false) : t.holdsError a = false := by
  unfold State.holdsError at *
  split <;> rename_i hlt
  · rw [if_pos hlt] at ha
    simp only [List.contains_eq_mem, decide_eq_false_iff_not] at ha ⊢
    exact fun hm => ha (h.poison hm)
  · rw [if_neg hlt] at ha
    simp only [List.contains_eq_mem, decide_eq_false_iff_not] at ha ⊢
    exact fun hm => ha (h.bad hm)

theorem SameReach.localBytes {p va : Nat} {pas : List Nat} (hl : LocalBytes s p .write va pas) : LocalBytes t p .write va pas := by
  obtain ⟨ts, hts, hpas, hall⟩ := hl
  refine ⟨ts, (h.masterXlateN p va _).trans hts, hpas, fun a ha => ?_⟩
  obtain ⟨hmem, herr⟩ := hall a ha
  exact ⟨hmem, h.holdsError herr⟩

end

/-! A write to bytes where no error is held (R136, R303). -/

theorem eccRead_of_clean {s : State} {a : Nat} (h : s.holdsError a = false) (m : Nat) : s.eccRead a m .clean = (s, true) := by
  have hbad : ((Ecc.clean == Ecc.uncorrectable) || s.holdsError a) = false := by rw [h]; rfl
  unfold State.eccRead
  simp only [hbad, Bool.false_eq_true, if_false]
  cases placeOf a <;> rfl

theorem writeLosses_of_clean {s : State} {cs : List (Nat × Byte)} (h : ∀ e ∈ cs, s.holdsError e.1 = false) : s.writeLosses cs = [] := by
  unfold State.writeLosses
  rw [List.append_eq_nil_iff, List.map_eq_nil_iff, List.map_eq_nil_iff, List.filter_eq_nil_iff, List.filter_eq_nil_iff]
  constructor
  · intro b hb hlost
    simp only [Bool.and_eq_true, List.any_eq_true, beq_iff_eq, decide_eq_true_eq] at hlost
    obtain ⟨⟨e, he, rfl, hlt⟩, -⟩ := hlost
    have herr := h e he
    rw [State.holdsError, if_pos hlt] at herr
    simp [hb] at herr
  · intro b hb hlost
    simp only [Bool.and_eq_true, List.any_eq_true, beq_iff_eq, decide_eq_true_eq] at hlost
    obtain ⟨⟨e, he, rfl, hle⟩, -⟩ := hlost
    have herr := h e he
    rw [State.holdsError, if_neg (Nat.not_lt.mpr hle)] at herr
    simp [hb] at herr

theorem writeCells_of_clean {s : State} {cs : List (Nat × Byte)} (h : ∀ e ∈ cs, s.holdsError e.1 = false) (m : Nat) :
    s.writeCells cs m .clean = (s.placeCells cs m, true) := by
  have hread : ∀ a, partAddr cs = some a → s.eccRead a m .clean = (s, true) := by
    intro a ha
    obtain ⟨e, he, rfl⟩ := Option.map_eq_some_iff.mp ha
    exact eccRead_of_clean (h e (List.mem_of_find?_eq_some he)) m
  unfold State.writeCells
  cases ha : partAddr cs with
  | none => simp [writeLosses_of_clean h]
  | some a => simp [hread a ha, writeLosses_of_clean h]

theorem placeCells_of_clean {s : State} {cs : List (Nat × Byte)} (h : ∀ e ∈ cs, s.holdsError e.1 = false) (m : Nat) :
    SameReach s (s.placeCells cs m) ∧ (s.placeCells cs m).mem = (s.placeAt cs).mem := by
  have hall : cs.filter (fun e => !inLoss [] e.1) = cs := List.filter_eq_self.mpr (fun _ _ => rfl)
  have hplaced := sameReach_of_placed (placed_placeAt cs s)
  unfold State.placeCells
  rw [writeLosses_of_clean h]
  dsimp only [List.foldl_nil]
  rw [hall]
  exact ⟨hplaced.trans ⟨fun _ => ⟨rfl, rfl, rfl, rfl⟩, List.filter_subset_self _, List.filter_subset_self _⟩, rfl⟩

/-- A cell put in place at an address of its own is read back. -/
theorem placeAt_zip_getByte {as : List Nat} (hnd : as.Nodup) {bs : List Byte} (hlen : as.length = bs.length) (s : State) {j : Nat}
    (hj : j < as.length) : (s.placeAt (as.zip bs)).getByte (as.getD j 0) = bs.getD j 0 := by
  induction as generalizing bs s j with
  | nil => exact absurd hj (Nat.not_lt_zero j)
  | cons a as ih =>
    obtain ⟨hout, hnd⟩ := List.nodup_cons.mp hnd
    cases bs with
    | nil => cases hlen
    | cons b bs =>
      rw [List.zip_cons_cons, State.placeAt]
      cases j with
      | zero =>
        rw [List.getD_cons_zero, List.getD_cons_zero, placeAt_outside _ _ _ (fun c hc hca => hout (by rw [← hca]; exact (List.of_mem_zip hc).1)),
          placeByte_getByte, if_pos rfl]
      | succ j =>
        rw [List.getD_cons_succ, List.getD_cons_succ]
        exact ih hnd (by simpa using hlen) _ (by simpa using hj)

theorem windowCheck_maltster (s : State) (k off len : Nat) : s.windowCheck k off len maltsterId = none := if_pos rfl

theorem windowsRefuse_maltster (s : State) (as : List Nat) : s.windowsRefuse as maltsterId = none := by
  unfold State.windowsRefuse
  simp [windowCheck_maltster]

/-- What a write that reaches local bytes leaves. -/
structure Wrote (s t : State) (as : List Nat) (bs : List Byte) : Prop where
  reach : SameReach s t
  inside : as.Nodup → ∀ j < as.length, t.getByte (as.getD j 0) = bs.getD j 0
  outside : ∀ a, a ∉ as → t.getByte a = s.getByte a

/-- A command of the management path writes local bytes of its partition. -/
theorem cmdWrite_local {s : State} {p va : Nat} {as : List Nat} {bs : List Byte} (hlen : as.length = bs.length)
    (hlocal : LocalBytes s p .write va as) :
    ∃ t, s.cmdWrite .mgmt (some p) false va bs = (none, t) ∧ Wrote s t as bs := by
  obtain ⟨ts, hts, hpas, hall⟩ := hlocal
  have hclean : ∀ e ∈ as.zip bs, s.holdsError e.1 = false := fun e he => (hall _ (List.of_mem_zip he).1).2
  obtain ⟨hreach, hmem⟩ := placeCells_of_clean hclean (srcMaster .mgmt)
  have hplace : s.cmdPlace (srcMaster .mgmt) as bs = (none, s.placeCells (as.zip bs) (srcMaster .mgmt)) := by
    have hmemory : as.all (fun x => (placeOf x).isMemory) = true := List.all_eq_true.mpr (fun a ha => (hall a ha).1)
    have hrefuse : s.windowsRefuse as (srcMaster .mgmt) = none := windowsRefuse_maltster s as
    unfold State.cmdPlace
    simp [hlen, hmemory, hrefuse, writeCells_of_clean hclean]
  have hbyte (a : Nat) : (s.placeCells (as.zip bs) (srcMaster .mgmt)).getByte a = (s.placeAt (as.zip bs)).getByte a := by
    rw [State.getByte, hmem]
    rfl
  refine ⟨s.placeCells (as.zip bs) (srcMaster .mgmt), ?_, hreach, fun hnd j hj => ?_, fun a ha => ?_⟩
  · rw [hlen] at hts
    simp [State.cmdWrite, hts, hpas, hplace]
  · rw [hbyte, placeAt_zip_getByte hnd hlen s hj]
  · rw [hbyte, placeAt_outside _ _ _ (fun c hc hca => ha (by rw [← hca]; exact (List.of_mem_zip hc).1))]

/-! ### The report of a committed launch (R363, R413) -/

/-- The bytes of a report record. -/
def itemBytes (i : Item) : List Byte := i.words.flatMap (fun w => leBytes 8 w.toNat)

theorem itemBytes_length (i : Item) : (itemBytes i).length = 16 := by simp [itemBytes, Item.words]

/-- The record of a task that ran. -/
def taskItem (status n core : Nat) : Item := { status := status, kind := 0, id := n, detail := core }

theorem itemBytes_taskItem {status n core : Nat} (hs : status < 2 ^ 8) (hn : n < 2 ^ 32) (hcore : core < 2 ^ 64) :
    itemBytes (taskItem status n core) = leBytes 8 (status + n * 2 ^ 32) ++ leBytes 8 core := by
  have hstatus : (place status 8 0).toNat = status := by rw [toNat_place (by decide)]; omega
  have hw : (place status 8 0 ||| place 0 8 8 ||| place 0 8 16 ||| place 0 2 24 ||| flagAt false 26 ||| place n 32 32).toNat
      = status + n * 2 ^ 32 := by
    have hlow : place status 8 0 ||| place 0 8 8 ||| place 0 8 16 ||| place 0 2 24 ||| flagAt false 26 = place status 8 0 := by
      simp [place, flagAt]
    rw [hlow, toNat_or_place (by omega) (by decide), hstatus, Nat.mod_eq_of_lt hn]
  simp only [itemBytes, taskItem, Item.words, List.flatMap_cons, List.flatMap_nil, List.append_nil, hw, BitVec.toNat_ofNat,
    Nat.mod_eq_of_lt hcore]

/-- Records that reach local bytes of their own are all written, and stand. -/
theorem writeItems_local {p : Nat} {b : ReportBuf} (hhost : b.host = false) (is : List Item) (s : State) (n : Nat) (pas : List Nat)
    (hroom : n + is.length ≤ b.room) (hlen : pas.length = 16 * is.length) (hnd : pas.Nodup)
    (hlocal : ∀ k < is.length, LocalBytes s p .write (b.addr + 16 * (n + k)) ((pas.drop (16 * k)).take 16)) :
    let t := (s.writeItems .mgmt p b n is).2.2
    (∀ a, a ∉ pas → t.getByte a = s.getByte a)
      ∧ ∀ k (hk : k < is.length), ∀ j < 16, t.getByte (pas.getD (16 * k + j) 0) = (itemBytes is[k]).getD j 0 := by
  induction is generalizing s n pas with
  | nil => exact ⟨fun _ _ => rfl, fun k hk => absurd hk (Nat.not_lt_zero k)⟩
  | cons i is ih =>
    rw [List.length_cons] at hroom hlen hlocal
    have hhead : (pas.take 16).length = 16 := by rw [List.length_take]; omega
    have hfirst : LocalBytes s p .write (b.addr + 16 * n) (pas.take 16) := by simpa using hlocal 0 (by omega)
    obtain ⟨u, hu, hreach, hinside, houtside⟩ := cmdWrite_local (hhead.trans (itemBytes_length i).symm) hfirst
    have hstep : (s.writeItems .mgmt p b n (i :: is)).2.2 = (u.writeItems .mgmt p b (n + 1) is).2.2 := by
      rw [itemBytes] at hu
      simp only [State.writeItems, if_neg (by omega : ¬b.room ≤ n), hhost, hu, Option.isSome_none, Bool.false_eq_true, if_false]
    have hsplit : (pas.take 16).Disjoint (pas.drop 16) := List.disjoint_take_drop hnd (le_refl 16)
    obtain ⟨hout, hin⟩ := ih u (n + 1) (pas.drop 16) (by omega) (by rw [List.length_drop]; omega) (hnd.sublist (List.drop_sublist 16 pas))
      (fun k hk => hreach.localBytes (by
        have := hlocal (k + 1) (by omega)
        rwa [List.drop_drop, show 16 + 16 * k = 16 * (k + 1) by omega, show n + 1 + k = n + (k + 1) by omega]))
    have hget (m : Nat) : (pas.drop 16).getD m 0 = pas.getD (16 + m) 0 := by simp [List.getD_eq_getElem?_getD]
    rw [hstep]
    refine ⟨fun a ha => ?_, fun k hk j hj => ?_⟩
    · rw [hout a (fun h => ha (List.mem_of_mem_drop h)), houtside a (fun h => ha (List.mem_of_mem_take h))]
    · cases k with
      | zero =>
        have hj' : j < (pas.take 16).length := by omega
        have hpa : pas.getD (16 * 0 + j) 0 = (pas.take 16).getD j 0 := by
          rw [show 16 * 0 + j = j by omega]
          simp [List.getD_eq_getElem?_getD, hj]
        have hmem : (pas.take 16).getD j 0 ∈ pas.take 16 := by
          rw [List.getD_eq_getElem _ _ hj']
          exact List.getElem_mem hj'
        rw [hpa, hout _ (hsplit hmem), hinside (hnd.sublist (List.take_sublist 16 pas)) j hj']
        rfl
      | succ k =>
        have := hin k (by simpa using hk) j hj
        rwa [hget, show 16 + (16 * k + j) = 16 * (k + 1) + j by omega] at this

/-- The records of a committed launch without lists, sequences and refusals: one for each task. -/
theorem items_of_tasks {s : State} {p : Nat} {l : Launch} {im : SchedImage} (hseqs : l.seqs = []) (hstalled : l.stalled = [])
    (hlists : l.lists = []) (hdma : im.dma = []) (hended : ∀ n < im.tasks.length, (mget {} l.tasks n).st = .ended) (repitched : Bool) :
    s.items p l im (commitRule repitched) =
      (List.range im.tasks.length).map (fun n => taskItem (if repitched then 2 else 0) n (mget {} l.tasks n).core) := by
  have htask : ∀ n ∈ List.range im.tasks.length,
      ({ status := if repitched then 2 else 0, cause := 0, sub := 0, kind := 0, never := s.taskNever n (mget {} l.tasks n), id := n,
         detail := if (mget {} l.tasks n).st = .idle then (imCore im l.variant n).getD 0 else (mget {} l.tasks n).core } : Item)
        = taskItem (if repitched then 2 else 0) n (mget {} l.tasks n).core := by
    intro n hn
    have hst := hended n (List.mem_range.mp hn)
    simp [hst, State.taskNever, taskItem]
  have hleft : imDma im l.variant = [] := by simp [imDma, hdma]
  simp only [State.items, hseqs, hstalled, hlists, hleft, List.map_nil, List.flatMap_nil, List.append_nil]
  exact List.map_congr_left htask

/-- The report buffer of a command in device memory. -/
theorem report_buffer {c : Cmd} (hdev : (c.p 4).getLsbD 0 = false) :
    c.report.host = false ∧ c.report.addr = (c.p 3).toNat % 2 ^ 48 ∧ c.report.room = (c.p 4).toNat / 2 ^ 16 % 2 ^ 16 + 1 := by
  refine ⟨hdev, ?_, ?_⟩
  · simp [Cmd.report, field_eq_div]
  · simp [Cmd.report, field_eq_div]

/-! ### The second event of a commit (R363, R404, R413) -/

/-- The result of a launch that committed. -/
def commitResult (l : Launch) : Result := { status := if l.rollbacks = 0 then 0 else 2, c2 := launchC2 l }

theorem commitResult_status (l : Launch) : (commitResult l).status < 2 ^ 8 := by
  unfold commitResult
  dsimp only
  split <;> decide

theorem launchC2_eq (l : Launch) : launchC2 l = BitVec.ofNat 64 (l.rollbacks % 2 ^ 8 + l.variant.getD 0xFF % 2 ^ 8 * 2 ^ 8) := by
  have hlow : (place l.rollbacks 8 0).toNat = l.rollbacks % 2 ^ 8 := by rw [toNat_place (by decide)]; omega
  have h := toNat_or_place (x := place l.rollbacks 8 0) (lo := 8) (w := 8) (by omega) (by decide) (l.variant.getD 0xFF)
  rw [hlow] at h
  rw [← h, BitVec.ofNat_toNat, BitVec.setWidth_eq]
  rfl

section
variable {s : State} {p : Nat} {l : Launch} (hl : (s.part p).launch = some l)
include hl

/-- A committed launch ends with its partition closed, and its command answered if it still stands. -/
theorem commitEnd_eq (im : SchedImage) : s.commitEnd p l im =
    match (closed s p).cmdOf l.src l.tag with
    | none => closed s p
    | some c => launchAnswered (closed s p) p c (commitResult l) (s.items p l im (commitRule (decide (0 < l.rollbacks)))) l.tag := by
  have hstatus : (if decide (0 < l.rollbacks) = true then 2 else 0) = if l.rollbacks = 0 then 0 else 2 := by
    by_cases h : l.rollbacks = 0 <;> simp [h, Nat.pos_iff_ne_zero]
  simp only [State.commitEnd, State.endLaunch, hl, hstatus]
  rfl

theorem commitEnd_ended (im : SchedImage) : Ended (s.part p) ((s.commitEnd p l im).part p) := by
  have hpart : (closed s p).part p = closedPart (s.part p) := by rw [closed_part, if_pos rfl]
  have hended : Ended (s.part p) ((closed s p).part p) := hpart ▸ ended_closedPart _
  rw [commitEnd_eq hl]
  split
  · exact hended
  · exact launchAnswered_ended hended (by rw [hpart]; rfl) _ _ _ _

variable {c : Cmd} (hc : s.cmdOf l.src l.tag = some c)
include hc

theorem commitEnd_of_cmd (im : SchedImage) : s.commitEnd p l im =
    launchAnswered (closed s p) p c (commitResult l) (s.items p l im (commitRule (decide (0 < l.rollbacks)))) l.tag := by
  have hcmd : (closed s p).cmdOf l.src l.tag = some c := by
    rw [State.cmdOf, (closed_mem s p).1]
    exact hc
  rw [commitEnd_eq hl, hcmd]

theorem commitEnd_finished (honly : ∀ b ∈ s.cmds, b ≠ c → b.src = c.src → b.tag ≠ c.tag) (hport : l.src = .mgmt ∨ (s.part p).acted = [])
    (im : SchedImage) : ∃ c1, Finished s (s.commitEnd p l im) c (if l.rollbacks = 0 then 0 else 2) c1
      (BitVec.ofNat 64 (l.rollbacks % 2 ^ 8 + l.variant.getD 0xFF % 2 ^ 8 * 2 ^ 8)) 0 ∧ c1 % 2 ^ 16 = 0 := by
  have hsrc : c.src = l.src := by
    have hp := List.find?_some hc
    simp only [Bool.and_eq_true, beq_iff_eq] at hp
    exact hp.1.1
  have hport' : c.src = .mgmt ∨ (closed s p).hosts = s.hosts := hport.imp (fun h => hsrc.trans h) closed_hosts
  have honly' : ∀ b ∈ (closed s p).cmds, b.src = c.src → b.tag = c.tag → b = c := by
    rw [(closed_mem s p).1]
    intro b hb hbs hbt
    by_contra hne
    exact honly b hb hne hbs hbt
  obtain ⟨c1, hfin, hc1⟩ := launchAnswered_finished (s := s) (p := p) hport' (commitResult_status l) honly'
    (s.items p l im (commitRule (decide (0 < l.rollbacks)))) l.tag
  rw [commitEnd_of_cmd hl hc, ← launchC2_eq]
  exact ⟨c1, hfin, by simpa only [commitResult, Nat.zero_mod, Nat.zero_mul] using hc1⟩

/-- The report of a committed launch of the management path, record by record. -/
theorem commitEnd_report (hm : l.src = .mgmt) {im : SchedImage} {pas : List Nat} (hseqs : l.seqs = []) (hstalled : l.stalled = [])
    (hlists : l.lists = []) (hdma : im.dma = []) (hdev : (c.p 4).getLsbD 0 = false)
    (hroom : im.tasks.length ≤ (c.p 4).toNat / 2 ^ 16 % 2 ^ 16 + 1) (hlen : pas.length = 16 * im.tasks.length) (hnd : pas.Nodup)
    (hended : ∀ n < im.tasks.length, (mget {} l.tasks n).st = .ended)
    (hlocal : ∀ n < im.tasks.length, LocalBytes s p .write ((c.p 3).toNat % 2 ^ 48 + 16 * n) ((pas.drop (16 * n)).take 16))
    {n : Nat} (hn : n < im.tasks.length) (hcore : (mget {} l.tasks n).core < 768) {j : Nat} (hj : j < 16) :
    (s.commitEnd p l im).getByte (pas.getD (16 * n + j) 0) =
      (leBytes 8 ((if l.rollbacks = 0 then 0 else 2) + n * 2 ^ 32) ++ leBytes 8 (mget {} l.tasks n).core).getD j 0 := by
  have hsrc : c.src = .mgmt := by
    have hp := List.find?_some hc
    simp only [Bool.and_eq_true, beq_iff_eq] at hp
    exact hp.1.1.trans hm
  have hstatus : (if decide (0 < l.rollbacks) = true then 2 else 0) = (commitResult l).status := by
    by_cases h : l.rollbacks = 0 <;> simp [commitResult, h, Nat.pos_iff_ne_zero]
  have hitems := items_of_tasks (s := s) (p := p) hseqs hstalled hlists hdma hended (decide (0 < l.rollbacks))
  rw [hstatus] at hitems
  obtain ⟨hhost, haddr, hbuf⟩ := report_buffer hdev
  obtain ⟨-, hbytes⟩ := writeItems_local hhost
    ((List.range im.tasks.length).map (fun n => taskItem (commitResult l).status n (mget {} l.tasks n).core)) (closed s p) 0 pas
    (by simpa [hbuf] using hroom) (by simpa using hlen) hnd (fun k hk => by
      rw [haddr, Nat.zero_add]
      exact (sameReach_closed s p).localBytes (hlocal k (by simpa using hk)))
  have hrecord := hbytes n (by simpa using hn) j hj
  have hsmall : n < 2 ^ 32 := by omega
  rw [List.getElem_map, List.getElem_range, itemBytes_taskItem (commitResult_status l) hsmall (by omega)] at hrecord
  rw [commitEnd_of_cmd hl hc, hitems, State.getByte, launchAnswered_mem, State.writeReport, hsrc]
  exact hrecord

end

theorem exec_launchCommit_ends {p : PartId} {s : State} {l : Launch} {x : Sched} (hl : (s.part p.val).launch = some l)
    (hx : (s.part p.val).sched l.sched = some x) (hc : l.committed = true) :
    exec (.launchCommit p) s = .next (s.commitEnd p.val l x.image) := by
  show execLaunchCommit p s = _
  simp only [execLaunchCommit, hl, hx, hc, if_true]

end Sys2Proof.Proofs
end

section
/-!
PROOFS. Launches are ordered, started and committed, and tasks start in their state (O47).
-/
namespace Sys2Proof.Proofs
open Sys2Proof Sys2Proof.Machine Sys2Proof.Stated Sys2Proof.Laws

/-- Settles O47, clause by clause: the command taken into the order, the launch next in order, the switch to a suspended launch, the
task start, and the two events of the commit. -/
theorem launchesRun : Obligations.LaunchesRun := by
  unfold Obligations.LaunchesRun
  refine ⟨?_, ?_, ?_, ?_, ?_⟩
  · intro i src tag op p s c hi hstart hp
    obtain ⟨hexec, hop⟩ := exec_queueLaunch hi hstart
    obtain ⟨hmem, honly⟩ := only_of_startable hstart
    obtain ⟨hsrc, htag, -, -, hdec, -⟩ := hstart
    have hop0 : c.op ≠ 0 := by rcases hop with h | h <;> simp [h]
    refine ⟨fun hnone => ?_, fun hsome => ?_⟩
    · rw [hexec, queueLaunch_unloaded hp hnone]
      obtain ⟨hfin, hparts⟩ := refuse_finished (s := s) (c := c) (status := 0x15) (by decide) honly
      exact ⟨_, rfl, hfin, hparts⟩
    · rw [hexec, queueLaunch_loaded hp hsome]
      refine ⟨_, rfl, ?_, ?_, fun hidle => ?_, ?_⟩
      · rw [preemptCheck_cmds]
        exact mem_startCmd hmem hop0 hdec
      · rw [preemptCheck_mem, startCmd_mem]
      · rw [preemptCheck_parts_of_idle (by rw [startCmd_part]; exact hidle), startCmd_parts]
      · intro l hl hst habort hsusp hcom hcommitted hsched hmine hcls hpreq hfirst
        subst hsrc htag
        obtain ⟨hreq, hpend⟩ := queueLaunch_preempts hp hop hmem hdec hl hst habort hsusp hcom hcommitted hsched hmine hcls hpreq hfirst
        exact ⟨hreq, fun k _ hk => hpend k hk⟩
  · intro p s c x hnext hop hstarted q w hx hid wrong fits
    have hexec := exec_launchStart_of_nextUp hnext hop hstarted p rfl
    obtain ⟨-, -, hidle, -, -, -, -, hmem, -, -, honly, -⟩ := hnext
    refine ⟨fun hw => ?_, fun hw hst => ?_, fun hw hst hfit => ?_, fun hw hst hfit => ?_⟩
    · rw [hexec, launchCmd_wrong hx hw]
      obtain ⟨hfin, hparts⟩ := refuse_finished (s := s) (c := c) (status := 0x12) (by decide) honly
      exact ⟨_, rfl, hfin, hparts⟩
    · rw [hexec, launchCmd_stale hx hw hst]
      obtain ⟨⟨c1, hfin, hc1⟩, hlaunch⟩ := endUnstarted_finished (p := p.val) (r := { status := 0x41, cause := 0x0C }) (by simp) rfl honly
        (imItemsNever x.image (s.part p.val).variantNow 0x21 0x0C 0)
      exact ⟨_, c1, rfl, hfin, hc1, (hlaunch _).trans hidle⟩
    · obtain ⟨sub, hend⟩ := launchCmd_unfit hx hw hst hfit
      rw [hexec, hend]
      obtain ⟨⟨c1, hfin, hc1⟩, hlaunch⟩ := endUnstarted_finished (p := p.val) (r := { status := 0x40, cause := 0x0D, sub := sub }) (by simp)
        rfl honly (imItemsNever x.image none 0x22 0x0D sub)
      exact ⟨_, c1, rfl, hfin, hc1, (hlaunch _).trans hidle⟩
    · obtain ⟨l, hstarts⟩ := launchCmd_started hx hw hst hfit hmem
      exact ⟨_, l, hexec, hstarts⟩
  · intro p s b hfree hbest hfresh
    refine ⟨_, exec_launchStart_suspended hfree hbest hfresh, ?_, rfl, rfl⟩
    rw [modPart_part, if_pos rfl]
  · intro k p s l x n d pre post q o hp hl hx hst habort hready hrun hpend hlist hpre hn hd
    have htask : imTask x.image n = d := by rw [imTask, List.getD_eq_getElem?_getD, hd, Option.getD_some]
    refine ⟨_, exec_taskStart hp hl hx hst habort hready hrun hpend (nextTask_of_first hlist hpre hn), ?_⟩
    dsimp only
    rw [startTask_core]
    refine ⟨rfl, rfl, ?_, rfl, rfl, rfl, rfl, rfl, rfl, rfl, rfl, rfl, rfl, rfl, ?_, ?_, rfl, ⟨_, startTask_launch hl k.val n x.image, ?_⟩,
      fun w _ hw => startedCore_resident hw p n l x.image, fun hnone hres off hoff hgate => ?_, fun hgtb a ha => ?_⟩
    · exact congrArg TaskDef.entry htask
    · exact congrArg TaskDef.gtb htask
    · exact congrArg TaskDef.preciseM htask
    · simp
    · exact startTask_spad_zero hnone hres p n l hoff (by rw [htask]; exact hgate)
    · exact startTask_other (lt_of_partOfCore hp) (by rw [htask]; exact hgtb) p l ha
  · intro p s l x c q hl hx
    refine ⟨fun hcommitted hst habort hmay => ?_, fun hcommitted => ?_⟩
    · have hframe := recorded_frame s p.val l
      refine ⟨_, exec_launchCommit_records hl hx hcommitted hst habort hmay, by rw [hframe]; rfl, by rw [hframe]; rfl, ?_, ?_, ?_⟩
      · rw [recorded_part, ← committed_seqs]
        rfl
      · exact fun y hy hrun honly i hi => recorded_len s p.val l hy hrun honly hi
      · exact recorded_mem s p.val l
    · obtain ⟨hlaunch, hcommit, hidle, hcellar, hcask⟩ := commitEnd_ended hl x.image
      refine ⟨_, exec_launchCommit_ends hl hx hcommitted, hlaunch, hcommit, hidle, hcellar, hcask, fun hc honly hport => ?_⟩
      refine ⟨commitEnd_finished hl hc honly hport x.image, ?_⟩
      intro pas hm hseqs hstalled hlists hdma hdev hroom hlen hnd hended hlocal n hn hcore j hj
      exact commitEnd_report hl hc hm hseqs hstalled hlists hdma hdev hroom hlen hnd hended hlocal hn hcore hj

end Sys2Proof.Proofs
end

section
/-!
PROOFS. Exact integer results of the vector unit and its special inputs (O27): which whole number a value is, what the operations do to
whole numbers, and how a whole number is written into an integer format (R44, R101 to R105).
-/
namespace Sys2Proof.Proofs
open Sys2Proof Sys2Proof.Machine Sys2Proof.Stated

/-! ### Whole numbers in two's complement and in an integer format -/

theorem toTwos_of_nonneg {w : Nat} {i : Int} (h0 : 0 ≤ i) (h : i < 2 ^ w) : toTwos w i = i.toNat := by
  rw [toTwos, Int.emod_eq_of_lt h0 h]

theorem toTwos_of_neg {w : Nat} {i : Int} (h0 : i < 0) (h : -2 ^ w ≤ i) : toTwos w i = (i + 2 ^ w).toNat := by
  rw [toTwos, ← Int.add_emod_right, Int.emod_eq_of_lt (by omega) (by omega)]

/-- The signed value of a code of `k + 1` bits, by its top bit. -/
theorem signedOf_succ {k c : Nat} (hc : c < 2 ^ (k + 1)) :
    signedOf (k + 1) c = if 2 ^ k ≤ c then (c : Int) - 2 ^ (k + 1) else c := by
  simp [signedOf, Nat.mod_eq_of_lt hc]

theorem clampTo_eq_self {w : Nat} {x : Int} (hlo : -2 ^ (w - 1) ≤ x) (hhi : x < 2 ^ (w - 1)) : clampTo w x = x := by
  rw [clampTo, min_eq_right (by omega), max_eq_right hlo]

theorem clampTo_of_lt {w : Nat} {x : Int} (h : x < -2 ^ (w - 1)) : clampTo w x = -2 ^ (w - 1) := by
  have hpow : (0 : Int) < 2 ^ (w - 1) := by positivity
  rw [clampTo, min_eq_right (by omega), max_eq_left (by omega)]

theorem clampTo_of_ge {w : Nat} {x : Int} (h : 2 ^ (w - 1) ≤ x) : clampTo w x = 2 ^ (w - 1) - 1 := by
  have hpow : (0 : Int) < 2 ^ (w - 1) := by positivity
  rw [clampTo, min_eq_left (by omega), max_eq_right (by omega)]

theorem intFmt_cases {f : Fmt} (hf : intFmt f = true) : f = .int8 ∨ f = .int4 ∨ f = .int32 := by
  simpa [intFmt, or_assoc] using hf

theorem width_pos_of_intFmt {f : Fmt} (hf : intFmt f = true) : 0 < f.width := by
  rcases intFmt_cases hf with rfl | rfl | rfl <;> decide

theorem ne_afx128_of_intFmt {f : Fmt} (hf : intFmt f = true) : (f == .afx128) = false := by
  rcases intFmt_cases hf with rfl | rfl | rfl <;> rfl

/-- A code's own value fits its width: it is not cut, and it is written back as the same code. -/
theorem toTwos_clampTo_signedOf {w c : Nat} (hw : 0 < w) (hc : c < 2 ^ w) :
    clampTo w (signedOf w c) = signedOf w c ∧ toTwos w (signedOf w c) = c := by
  obtain ⟨k, rfl⟩ : ∃ k, w = k + 1 := ⟨w - 1, by omega⟩
  have hpow : (2 : Int) ^ (k + 1) = 2 * 2 ^ k := pow_succ' 2 k
  have hcast : ((2 ^ k : Nat) : Int) = 2 ^ k := by push_cast; rfl
  have hc' : (c : Int) < 2 ^ (k + 1) := by exact_mod_cast hc
  rw [signedOf_succ hc]
  split
  · have hge : (2 : Int) ^ k ≤ c := by omega
    refine ⟨clampTo_eq_self (by rw [Nat.add_sub_cancel]; omega) (by rw [Nat.add_sub_cancel]; omega), ?_⟩
    rw [toTwos_of_neg (by omega) (by omega)]
    omega
  · have hlt : (c : Int) < 2 ^ k := by omega
    refine ⟨clampTo_eq_self (by rw [Nat.add_sub_cancel]; omega) (by rw [Nat.add_sub_cancel]; omega), ?_⟩
    rw [toTwos_of_nonneg (by omega) hc']
    exact Int.toNat_natCast c

/-! ### Values that are whole numbers -/

/-- A value is the whole number `x`, with unit 1; a zero of either sign is 0. -/
inductive Denotes : Val → Int → Prop
  | zero (neg : Bool) : Denotes (.zero neg) 0
  | fin {x : Int} (h : x ≠ 0) : Denotes (.fin ⟨x, 0⟩) x

theorem denotes_ofDy (x : Int) : Denotes (Val.ofDy ⟨x, 0⟩) x := by
  unfold Val.ofDy
  split
  case isTrue h => obtain rfl : x = 0 := h; exact .zero false
  case isFalse h => exact .fin h

/-- An integer format decodes to the signed value of its code (R31). -/
theorem denotes_decodeCode {f : Fmt} (hf : intFmt f = true) (anchor : Int) (c : Nat) :
    Denotes (decodeCode f anchor c) (signedOf f.width c) := by
  rcases intFmt_cases hf with rfl | rfl | rfl <;> exact denotes_ofDy _

namespace Denotes

variable {a b : Val} {x y : Int}

theorem isNan_eq_false (ha : Denotes a x) : a.isNan = false := by cases ha <;> rfl

theorem ne_inf (ha : Denotes a x) (neg : Bool) : Val.inf neg ≠ a := by cases ha <;> simp

theorem dy_eq (ha : Denotes a x) : a.dy = ⟨x, 0⟩ := by cases ha <;> rfl

theorem flip (ha : Denotes a x) : Denotes a.flip (-x) := by
  cases ha with
  | zero n => exact .zero _
  | fin h => exact .fin (neg_ne_zero.mpr h)

theorem abs (ha : Denotes a x) : Denotes a.abs x.natAbs := by
  cases ha with
  | zero n => cases n <;> exact .zero _
  | fin h =>
    by_cases hneg : x < 0
    · rw [show Val.abs (.fin ⟨x, 0⟩) = Val.flip (.fin ⟨x, 0⟩) by simp [Val.abs, Val.neg, hneg], Int.ofNat_natAbs_of_nonpos hneg.le]
      exact (Denotes.fin h).flip
    · rw [show Val.abs (.fin ⟨x, 0⟩) = .fin ⟨x, 0⟩ by simp [Val.abs, Val.neg, hneg], Int.natAbs_of_nonneg (not_lt.mp hneg)]
      exact .fin h

theorem mul (ha : Denotes a x) (hb : Denotes b y) : (a.mul b).2 = false ∧ Denotes (a.mul b).1 (x * y) := by
  cases ha with
  | zero n =>
    rw [zero_mul]
    cases hb <;> exact ⟨rfl, .zero _⟩
  | fin hx =>
    cases hb with
    | zero m => rw [mul_zero]; exact ⟨rfl, .zero _⟩
    | fin hy => exact ⟨rfl, .fin (mul_ne_zero hx hy)⟩

theorem lt_eq (ha : Denotes a x) (hb : Denotes b y) : a.lt b = decide (x < y) := by
  cases ha <;> cases hb <;> simp [Val.lt, Val.dy, Dy.lt, Dy.at]

/-- Two values of one whole number are the same value, or zeros. -/
theorem eq_or_zeros (ha : Denotes a x) (hb : Denotes b x) : a = b ∨ ∃ n m, a = .zero n ∧ b = .zero m ∧ x = 0 := by
  cases ha with
  | zero n =>
    cases hb with
    | zero m => exact .inr ⟨n, m, rfl, rfl, rfl⟩
    | fin h => exact absurd rfl h
  | fin h =>
    cases hb with
    | zero m => exact absurd rfl h
    | fin _ => exact .inl rfl

theorem vmax (ha : Denotes a x) (hb : Denotes b y) : Denotes (vmax a b) (max x y) := by
  unfold Machine.vmax
  rw [ha.isNan_eq_false, hb.isNan_eq_false, ha.lt_eq hb, hb.lt_eq ha]
  rcases lt_trichotomy x y with h | rfl | h
  · simpa [h, h.le] using hb
  · rw [max_self]
    rcases ha.eq_or_zeros hb with rfl | ⟨n, m, rfl, rfl, rfl⟩
    · cases ha with
      | zero n => simpa using Denotes.zero n
      | fin h => simpa using Denotes.fin h
    · exact .zero _
  · simpa [h, h.le, h.not_gt] using ha

theorem vmin (ha : Denotes a x) (hb : Denotes b y) : Denotes (vmin a b) (min x y) := by
  unfold Machine.vmin
  rw [ha.isNan_eq_false, hb.isNan_eq_false, ha.lt_eq hb, hb.lt_eq ha]
  rcases lt_trichotomy x y with h | rfl | h
  · simpa [h, h.le] using ha
  · rw [min_self]
    rcases ha.eq_or_zeros hb with rfl | ⟨n, m, rfl, rfl, rfl⟩
    · cases ha with
      | zero n => simpa using Denotes.zero n
      | fin h => simpa using Denotes.fin h
    · exact .zero _
  · simpa [h, h.le, h.not_gt] using hb

theorem zeroSign (ha : Denotes a x) (rm : RMode) : Denotes (a.zeroSign rm) x := by
  cases ha with
  | zero n => cases n <;> exact .zero _
  | fin h => exact .fin h

/-- SEL takes its first input exactly when the selector is not 0 (R102). -/
theorem selTakes_eq (ha : Denotes a x) : selTakes a = decide (x ≠ 0) := by
  cases ha with
  | zero n => rfl
  | fin h => simp [selTakes, h]

end Denotes

/-! ### Lists of whole numbers -/

theorem getD_denotes {vs : List Val} {xs : List Int} (h : List.Forall₂ Denotes vs xs) (i : Nat) :
    Denotes (vs.getD i (.zero false)) (xs.getD i 0) := by
  induction h generalizing i with
  | nil => exact .zero false
  | cons hv _ ih =>
    cases i with
    | zero => exact hv
    | succ i => exact ih i

theorem any_isNan_eq_false {vs : List Val} {xs : List Int} (h : List.Forall₂ Denotes vs xs) : vs.any Val.isNan = false := by
  induction h with
  | nil => rfl
  | cons hv _ ih => rw [List.any_cons, hv.isNan_eq_false, ih]; rfl

theorem inf_notMem {vs : List Val} {xs : List Int} (h : List.Forall₂ Denotes vs xs) (neg : Bool) : Val.inf neg ∉ vs := by
  induction h with
  | nil => exact List.not_mem_nil
  | cons hv _ ih => simpa using ⟨hv.ne_inf neg, ih⟩

theorem foldl_dy_add {vs : List Val} {xs : List Int} (h : List.Forall₂ Denotes vs xs) (z : Int) :
    vs.foldl (fun (acc : Dy) (t : Val) => acc.add t.dy) ⟨z, 0⟩ = ⟨z + xs.sum, 0⟩ := by
  induction h generalizing z with
  | nil => simp
  | @cons v x _ _ hv _ ih =>
    have hadd : Dy.add ⟨z, 0⟩ v.dy = ⟨z + x, 0⟩ := by rw [hv.dy_eq]; simp [Dy.add, Dy.at]
    rw [List.foldl_cons, hadd, ih, List.sum_cons, add_assoc]

/-- The exact sum of whole numbers is their sum and valid (R101, R104). -/
theorem sum_denotes {vs : List Val} {xs : List Int} (h : List.Forall₂ Denotes vs xs) :
    (Val.sum vs).2 = false ∧ Denotes (Val.sum vs).1 xs.sum := by
  simp only [Val.sum, any_isNan_eq_false h, List.contains_iff_mem, inf_notMem h, foldl_dy_add h, zero_add, Bool.false_eq_true,
    if_false, Bool.and_eq_true, false_and]
  split
  case isTrue h0 => rw [h0]; exact ⟨rfl, .zero _⟩
  case isFalse h0 => exact ⟨rfl, .fin h0⟩

theorem vfold_denotes {f : Val → Val → Val} {g : Int → Int → Int}
    (hfg : ∀ {a x b y}, Denotes a x → Denotes b y → Denotes (f a b) (g x y)) {vs : List Val} {xs : List Int}
    (h : List.Forall₂ Denotes vs xs) (hne : xs ≠ []) : Denotes (vfold f vs) (xs.tail.foldl g (xs.headD 0)) := by
  cases h with
  | nil => exact absurd rfl hne
  | cons hv hvs =>
    simp only [vfold, hv.isNan_eq_false, Bool.false_eq_true, if_false]
    exact List.rel_foldl (P := Denotes) (R := Denotes) (fun _ _ ha _ _ hb => hfg ha hb) hv hvs

/-! ### The exact results -/

/-- An exact result that is the whole number `x`, with no condition. -/
def IsWhole (e : ExactOut) (x : Int) : Prop := ∃ v, e = { x := .val v } ∧ Denotes v x

theorem vsum_isWhole (rm : RMode) {vs : List Val} {xs : List Int} (h : List.Forall₂ Denotes vs xs) : IsWhole (vsum rm vs false) xs.sum := by
  obtain ⟨hinv, hsum⟩ := sum_denotes h
  refine ⟨_, ?_, hsum.zeroSign rm⟩
  rw [vsum, hinv]
  rfl

theorem vsum_pair_isWhole (rm : RMode) {a b : Val} {x y : Int} (ha : Denotes a x) (hb : Denotes b y) : IsWhole (vsum rm [a, b] false) (x + y) := by
  simpa using vsum_isWhole rm (.cons ha (.cons hb .nil))

/-- The element-wise operations on whole numbers; the cases are the rows of R102's table, from CVT to SEL. -/
theorem exactOp_isWhole {op : Nat} {vs : List Val} {xs : List Int} {x : Int} (rm : RMode) (h : List.Forall₂ Denotes vs xs)
    (hx : intResult op xs = some x) : IsWhole (exactOp op rm vs) x := by
  have hv := getD_denotes h
  have hnan := any_isNan_eq_false h
  have hab := (hv 0).mul (hv 1)
  have hce := (hv 2).mul (hv 3)
  unfold intResult at hx
  split at hx <;> simp only [Option.some.injEq, reduceCtorEq] at hx <;> subst hx <;>
    simp only [exactOp, hnan, Bool.false_eq_true, if_false]
  case h_1 => exact ⟨_, rfl, hv 0⟩
  case h_2 => exact vsum_pair_isWhole rm (hv 0) (hv 1)
  case h_3 => exact vsum_pair_isWhole rm (hv 0) (hv 1).flip
  case h_4 => exact ⟨_, by rw [hab.1], hab.2⟩
  case h_5 => rw [hab.1]; exact vsum_pair_isWhole rm hab.2 (hv 2)
  case h_6 => rw [hab.1, hce.1]; exact vsum_pair_isWhole rm hab.2 hce.2
  case h_7 => exact ⟨_, rfl, (hv 0).vmax (hv 1)⟩
  case h_8 => exact ⟨_, rfl, (hv 0).vmin (hv 1)⟩
  case h_9 => exact ⟨_, rfl, (hv 0).abs⟩
  case h_10 => exact ⟨_, rfl, (hv 0).flip⟩
  case h_11 =>
    refine ⟨_, rfl, ?_⟩
    rw [(hv 2).selTakes_eq]
    simp only [decide_eq_true_eq]
    split
    · exact hv 0
    · exact hv 1

/-- The reductions and scans of a run of whole numbers; the cases are the three sums, the three maxima, RMIN, RAMAX and RSUMSQ
(R104, R105). -/
theorem exactFold_isWhole {op : Nat} {vs : List Val} {xs : List Int} {x : Int} (h : List.Forall₂ Denotes vs xs) (hne : xs ≠ [])
    (hx : intFold op xs = some x) : IsWhole (exactFold op vs) x := by
  have hsum := sum_denotes h
  have hmax := vfold_denotes Denotes.vmax h hne
  have habs : List.Forall₂ Denotes (vs.map Val.abs) (xs.map (fun x => (x.natAbs : Int))) :=
    List.rel_map (R := Denotes) (P := Denotes) (fun _ _ hv => hv.abs) h
  have hsq : List.Forall₂ Denotes (vs.map (fun v => (v.mul v).1)) (xs.map (fun x => x * x)) :=
    List.rel_map (R := Denotes) (P := Denotes) (fun _ _ hv => (hv.mul hv).2) h
  unfold intFold at hx
  split at hx <;> simp only [Option.some.injEq, reduceCtorEq] at hx <;> subst hx
  case h_1 | h_2 | h_3 => exact ⟨_, by simp [exactFold, hsum.1], hsum.2⟩
  case h_4 | h_5 | h_6 => exact ⟨_, rfl, hmax⟩
  case h_7 => exact ⟨_, rfl, vfold_denotes Denotes.vmin h hne⟩
  case h_8 =>
    refine ⟨_, rfl, ?_⟩
    have hfold := vfold_denotes Denotes.vmax habs (by simpa using hne)
    cases h with
    | nil => exact absurd rfl hne
    | cons _ _ => exact hfold
  case h_9 =>
    obtain ⟨hinv, hden⟩ := sum_denotes hsq
    exact ⟨_, by simp [exactFold, hinv], hden⟩

/-! ### The conversion into an integer format -/

/-- A whole magnitude has no fraction. -/
theorem floorAt_quot_whole (n : Nat) : (Mag.quot n 1 0).floorAt (34 - 0) = (n * 2 ^ 34, false) := by
  simp [Mag.floorAt, floorQuot, Nat.mod_one]

theorem ilog_quot_whole {n : Nat} (hn : n ≠ 0) : (Mag.quot n 1 0).ilog = Nat.log2 n := by
  have hle := Nat.log2_self_le hn
  simp [Mag.ilog, log2, show Nat.log2 1 = 0 from rfl, hle]

/-- A magnitude without a fraction is not rounded, in any mode (R39, R40). -/
theorem roundMag_whole (r : Rnd) (neg : Bool) (n : Nat) : roundMag r neg (n * 2 ^ 34) false = (n, false) := by
  obtain ⟨rm, nosat, draw⟩ := r
  cases rm <;> simp [roundMag]

/-- A whole magnitude into an integer of `w` bits: a magnitude too long to be rounded lies beyond the bound as well. -/
theorem encodeInt_quot_whole {w : Nat} (hw : 0 < w) (r : Rnd) (neg : Bool) {n : Nat} (hn : n ≠ 0) :
    encodeInt w 0 r neg (.quot n 1 0) =
      if neg then (if 2 ^ (w - 1) < n then (2 ^ (w - 1), { nv := true }) else (toTwos w (-(n : Int)), {}))
      else if 2 ^ (w - 1) ≤ n then (2 ^ (w - 1) - 1, { nv := true }) else (n, {}) := by
  simp only [encodeInt, ilog_quot_whole hn, floorAt_quot_whole, roundMag_whole]
  split
  case isFalse => cases neg <;> rfl
  case isTrue hlong =>
    have hbits : w - 1 < Nat.log2 n := by omega
    have hbeyond : 2 ^ (w - 1) < n := (Nat.pow_lt_pow_right one_lt_two hbits).trans_le (Nat.log2_self_le hn)
    cases neg
    · simp [hbeyond.le]
    · simp [hbeyond]

/-- A whole number into an integer of `w` bits: cut to the range, with NV exactly where it is cut (R44). -/
theorem encodeInt_whole {w : Nat} (hw : 0 < w) (r : Rnd) {x : Int} (hx : x ≠ 0) :
    encodeInt w 0 r (decide (x < 0)) (.quot x.natAbs 1 0) = (toTwos w (clampTo w x), { nv := decide (clampTo w x ≠ x) }) := by
  have hn : x.natAbs ≠ 0 := Int.natAbs_ne_zero.mpr hx
  have hpow : (2 : Int) ^ w = 2 * 2 ^ (w - 1) := by rw [← pow_succ', Nat.sub_add_cancel hw]
  have hcast : ((2 ^ (w - 1) : Nat) : Int) = 2 ^ (w - 1) := by push_cast; rfl
  have hpos : (0 : Int) < 2 ^ (w - 1) := by positivity
  rw [encodeInt_quot_whole hw r _ hn]
  by_cases hneg : x < 0
  · rw [if_pos (decide_eq_true hneg)]
    by_cases hcut : 2 ^ (w - 1) < x.natAbs
    · have hlt : x < -2 ^ (w - 1) := by omega
      rw [if_pos hcut, clampTo_of_lt hlt, toTwos_of_neg (by omega) (by omega), decide_eq_true (by omega)]
      congr 1
      omega
    · rw [if_neg hcut, clampTo_eq_self (by omega) (by omega), Int.ofNat_natAbs_of_nonpos hneg.le, neg_neg, decide_eq_false (by simp)]
  · rw [if_neg (by simpa using hneg)]
    by_cases hcut : 2 ^ (w - 1) ≤ x.natAbs
    · have hge : 2 ^ (w - 1) ≤ x := by omega
      rw [if_pos hcut, clampTo_of_ge hge, toTwos_of_nonneg (by omega) (by omega), decide_eq_true (by omega)]
      congr 1
      omega
    · rw [if_neg hcut, clampTo_eq_self (by omega) (by omega), toTwos_of_nonneg (by omega) (by omega), decide_eq_false (by simp)]
      congr 1
      omega

/-! ### What is written -/

/-- The output is `x` cut to the range of D's integer format, with NV exactly where it is cut and no other condition (R44). -/
def WritesWhole (w : Nat) (x : Int) (o : VOut) : Prop :=
  o.code = toTwos w (clampTo w x) ∧ o.conds = { nv := decide (clampTo w x ≠ x) } ∧ o.nan = none

theorem isNanCode_eq_false {f : Fmt} (hf : intFmt f = true) (c : Nat) : isNanCode f c = false :=
  (denotes_decodeCode hf 0 c).isNan_eq_false

/-- A whole number into an integer format, through any value that is it. -/
theorem encodeVal_whole {f : Fmt} (hf : intFmt f = true) (anchor : Int) (r : Rnd) {v : Val} {x : Int} (hv : Denotes v x) :
    encodeVal f anchor r v = (toTwos f.width (clampTo f.width x), { nv := decide (clampTo f.width x ≠ x) }) := by
  cases hv with
  | zero n =>
    have hclamp : clampTo f.width 0 = 0 := clampTo_eq_self (by simp) (by positivity)
    rw [hclamp]
    rcases intFmt_cases hf with rfl | rfl | rfl <;> rfl
  | fin h =>
    rw [← encodeInt_whole (width_pos_of_intFmt hf) r h]
    rcases intFmt_cases hf with rfl | rfl | rfl <;> rfl

theorem roundOut_writesWhole {f : Fmt} (hf : intFmt f = true) (anchor : Int) (r : Rnd) {e : ExactOut} {x : Int} (he : IsWhole e x) :
    WritesWhole f.width x (roundOut f anchor r e) := by
  obtain ⟨v, rfl, hv⟩ := he
  simp [WritesWhole, roundOut, encodeVal_whole hf anchor r hv, isNanCode_eq_false hf, Conds.or]

/-- A code passed on unchanged is its own value, which fits (R37). -/
theorem writesWhole_same {f : Fmt} (hf : intFmt f = true) {c : Nat} (hc : c < 2 ^ f.width) :
    WritesWhole f.width (signedOf f.width c) { code := c, conds := {}, nan := none } := by
  obtain ⟨hclamp, hcode⟩ := toTwos_clampTo_signedOf (width_pos_of_intFmt hf) hc
  rw [WritesWhole, hclamp, hcode]
  simp

theorem not_wraps_of_intFmt {d : VStream} (hd : intFmt d.fmt = true) (op : Nat) (ins : List VStream) : wraps op d ins = false := by
  simp [wraps, ne_afx128_of_intFmt hd]

theorem getD_pair_mem_zip {α β : Type} {as : List α} {bs : List β} {i : Nat} (ha : i < as.length) (hb : i < bs.length) (a : α) (b : β) :
    (as.getD i a, bs.getD i b) ∈ as.zip bs := by
  have hz : i < (as.zip bs).length := by rw [List.length_zip]; omega
  rw [List.getD_eq_getElem _ _ ha, List.getD_eq_getElem _ _ hb, ← List.getElem_zip (h := hz)]
  exact List.getElem_mem hz

/-- The whole numbers that the codes of integer streams are. -/
def wholes (ins : List VStream) (cs : List Nat) : List Int := (ins.zip cs).map (fun e => signedOf e.1.fmt.width e.2)

theorem getD_wholes {ins : List VStream} {cs : List Nat} {i : Nat} (hi : i < ins.length) (hc : i < cs.length) (d : VStream) :
    (wholes ins cs).getD i 0 = signedOf (ins.getD i d).fmt.width (cs.getD i 0) := by
  have hz : i < (wholes ins cs).length := by rw [wholes, List.length_map, List.length_zip]; omega
  rw [List.getD_eq_getElem _ _ hz, List.getD_eq_getElem _ _ hi, List.getD_eq_getElem _ _ hc]
  simp only [wholes, List.getElem_map, List.getElem_zip]

theorem decoded_denote {ins : List VStream} (hins : ∀ y ∈ ins, intFmt y.fmt = true) (cs : List Nat) :
    List.Forall₂ Denotes ((ins.zip cs).map (fun e => decodeCode e.1.fmt e.1.anchor e.2)) (wholes ins cs) := by
  rw [wholes, List.forall₂_map_left_iff, List.forall₂_map_right_iff, List.forall₂_same]
  exact fun e he => denotes_decodeCode (hins _ (List.of_mem_zip he).1) _ _

/-- The input that CVT and SEL pass on: the second for a SEL whose selector is 0. -/
def pickOf (op : Nat) (ins : List VStream) (cs : List Nat) : Nat :=
  if op = 0x0B ∧ (wholes ins cs).getD 2 0 = 0 then 1 else 0

theorem pickOf_lt_arity {op : Nat} (hop : op = 0x01 ∨ op = 0x0B) (ins : List VStream) (cs : List Nat) : pickOf op ins cs < arity op := by
  rcases hop with rfl | rfl
  · exact Nat.one_pos
  · have hle : pickOf 0x0B ins cs ≤ 1 := by unfold pickOf; split <;> omega
    exact hle.trans_lt (by decide)

/-- The result of CVT and SEL is the input passed on (R102). -/
theorem intResult_passes {op : Nat} (hop : op = 0x01 ∨ op = 0x0B) (ins : List VStream) (cs : List Nat) :
    intResult op (wholes ins cs) = some ((wholes ins cs).getD (pickOf op ins cs) 0) := by
  rcases hop with rfl | rfl
  · rfl
  · by_cases hsel : (wholes ins cs).getD 2 0 = 0
    · rw [pickOf, if_pos ⟨rfl, hsel⟩]
      exact congrArg some (if_neg (not_not.mpr hsel))
    · rw [pickOf, if_neg (fun h => hsel h.2)]
      exact congrArg some (if_pos hsel)

theorem getD_intFmt {d : VStream} {ins : List VStream} (hd : intFmt d.fmt = true) (hins : ∀ y ∈ ins, intFmt y.fmt = true) (i : Nat) :
    intFmt (ins.getD i d).fmt = true := by
  rcases lt_or_ge i ins.length with h | h
  · rw [List.getD_eq_getElem _ _ h]
    exact hins _ (List.getElem_mem h)
  · rwa [List.getD_eq_default _ _ h]

/-- On integer streams an output is an input passed on unchanged, for a CVT or SEL into that input's own format (R37), or the exact
result converted (R101). -/
theorem elemOut_eq {op : Nat} {d : VStream} {ins : List VStream} (hd : intFmt d.fmt = true) (hins : ∀ y ∈ ins, intFmt y.fmt = true)
    (r : Rnd) (cs : List Nat) :
    elemOut op d ins r cs =
      if (ins.getD (pickOf op ins cs) d).fmt = d.fmt ∧ (op = 0x01 ∨ op = 0x0B) then
        { code := cs.getD (pickOf op ins cs) 0, conds := {}, nan := none }
      else roundOut d.fmt d.anchor r (exactOp op r.rm ((ins.zip cs).map (fun e => decodeCode e.1.fmt e.1.anchor e.2))) := by
  have hpick : (if op = 0x0B && !selTakes (((ins.zip cs).map (fun e => decodeCode e.1.fmt e.1.anchor e.2)).getD 2 (.zero false)) then 1 else 0)
      = pickOf op ins cs := by
    rw [(getD_denotes (decoded_denote hins cs) 2).selTakes_eq, pickOf]
    simp
  have hsrc := getD_intFmt hd hins (pickOf op ins cs)
  have hsame : ((ins.getD (pickOf op ins cs) d).fmt != .afx128 || (ins.getD (pickOf op ins cs) d).anchor == d.anchor) = true := by
    rw [bne, ne_afx128_of_intFmt hsrc]
    rfl
  unfold elemOut
  simp only [hpick]
  simp only [hsame, isNanCode_eq_false hsrc, not_wraps_of_intFmt hd, Bool.and_true, Bool.and_false, Bool.false_and, Bool.false_eq_true,
    if_false, Bool.and_eq_true, Bool.or_eq_true, beq_iff_eq]

theorem elemOut_writesWhole {op : Nat} {d : VStream} {ins : List VStream} (hd : intFmt d.fmt = true)
    (hins : ∀ y ∈ ins, intFmt y.fmt = true) (r : Rnd) {cs : List Nat} {x : Int} (hil : ins.length = arity op) (hcl : cs.length = arity op)
    (hx : intResult op (wholes ins cs) = some x) (hfit : ∀ e ∈ ins.zip cs, e.2 < 2 ^ e.1.fmt.width) :
    WritesWhole d.fmt.width x (elemOut op d ins r cs) := by
  rw [elemOut_eq hd hins]
  split
  case isTrue h =>
    obtain ⟨hfmt, hop⟩ := h
    have hpick := pickOf_lt_arity hop ins cs
    have hmem := getD_pair_mem_zip (hil ▸ hpick) (hcl ▸ hpick) d 0
    rw [intResult_passes hop, Option.some.injEq, getD_wholes (hil ▸ hpick) (hcl ▸ hpick) d, hfmt] at hx
    rw [← hx]
    exact writesWhole_same hd (hfmt ▸ hfit _ hmem)
  case isFalse => exact roundOut_writesWhole hd _ _ (exactOp_isWhole r.rm (decoded_denote hins cs) hx)

theorem foldOut_writesWhole {op : Nat} {d s0 : VStream} (hd : intFmt d.fmt = true) (hs : intFmt s0.fmt = true) (r : Rnd) {cs : List Nat}
    {x : Int} (hne : cs ≠ []) (hx : intFold op (cs.map (signedOf s0.fmt.width)) = some x) :
    WritesWhole d.fmt.width x (foldOut op d s0 r (some cs)) := by
  have hterms : List.Forall₂ Denotes (cs.map (decodeCode s0.fmt s0.anchor)) (cs.map (signedOf s0.fmt.width)) := by
    rw [List.forall₂_map_left_iff, List.forall₂_map_right_iff, List.forall₂_same]
    exact fun c _ => denotes_decodeCode hs _ c
  rw [foldOut, not_wraps_of_intFmt hd]
  exact roundOut_writesWhole hd _ _ (exactFold_isWhole hterms (by simpa using hne) hx)

/-! ### The special inputs -/

theorem exactOp_div (rm : RMode) {a b : Val} (ha : a.isNan = false) (hb : b.isNan = false) : exactOp 0x0C rm [a, b] = vdiv a b := by
  simp [exactOp, ha, hb]

theorem exactOp_sqrt (rm : RMode) {a : Val} (ha : a.isNan = false) : exactOp 0x0D rm [a] = vsqrt a := by
  simp [exactOp, ha]

theorem exactOp_rsqrt (rm : RMode) {a : Val} (ha : a.isNan = false) : exactOp 0x0E rm [a] = vrsqrt a := by
  simp [exactOp, ha]

theorem exactOp_rcp (rm : RMode) {a : Val} (ha : a.isNan = false) : exactOp 0x0F rm [a] = vdiv (.fin ⟨1, 0⟩) a := by
  simp [exactOp, ha]

theorem exactOp_exp2 (rm : RMode) {a : Val} (ha : a.isNan = false) : exactOp 0x10 rm [a] = vexp2 a := by
  simp [exactOp, ha]

theorem exactOp_log2 (rm : RMode) {a : Val} (ha : a.isNan = false) : exactOp 0x11 rm [a] = vlog2 a := by
  simp [exactOp, ha]

theorem vmax_of_isNan {a b : Val} (h : (a.isNan || b.isNan) = true) : vmax a b = .nan false := if_pos h

theorem vmin_of_isNan {a b : Val} (h : (a.isNan || b.isNan) = true) : vmin a b = .nan false := if_pos h

/-- A NaN selector counts as nonzero (R102). -/
theorem selTakes_of_isNan {c : Val} (h : c.isNan = true) : selTakes c = true := by
  cases c with
  | nan neg => rfl
  | inf neg => rfl
  | zero neg => exact absurd h Bool.false_ne_true
  | fin d => rfl

theorem exactOp_max (rm : RMode) (a b : Val) : exactOp 0x07 rm [a, b] = { x := .val (vmax a b) } := by
  by_cases h : a.isNan || b.isNan
  · simp [exactOp, nanOut, vmax_of_isNan h, h]
  · simp [exactOp, h]

theorem exactOp_min (rm : RMode) (a b : Val) : exactOp 0x08 rm [a, b] = { x := .val (vmin a b) } := by
  by_cases h : a.isNan || b.isNan
  · simp [exactOp, nanOut, vmin_of_isNan h, h]
  · simp [exactOp, h]

theorem exactOp_sel (rm : RMode) (a b c : Val) : exactOp 0x0B rm [a, b, c] = { x := .val (if selTakes c then a else b) } := rfl

/-- Settles O27: the exact results of whole numbers are whole numbers, which the one conversion cuts to the range; the special inputs are
the cases of the operations' own definitions. -/
theorem exactResults : Obligations.ExactResults := by
  unfold Obligations.ExactResults
  refine ⟨fun op d ins r cs x hd hins hil hcl hx hfit => elemOut_writesWhole hd hins r hil hcl hx hfit,
    fun op d s0 r cs x hd hs hne _ hx => foldOut_writesWhole hd hs r hne hx, fun rm d n m v _ => ?_⟩
  refine ⟨?_, ?_, exactOp_rsqrt rm rfl, exactOp_log2 rm rfl, exactOp_div rm rfl rfl, exactOp_div rm rfl rfl, fun hneg op hop => ?_,
    exactOp_sqrt rm rfl, exactOp_log2 rm rfl, exactOp_exp2 rm rfl, exactOp_exp2 rm rfl, exactOp_log2 rm rfl, exactOp_max rm _ _,
    exactOp_min rm _ _, fun hnan => ⟨?_, ?_, ?_⟩, ?_⟩
  · rw [exactOp_div rm rfl rfl, bne_comm]
    rfl
  · rw [exactOp_rcp rm rfl]
    cases n <;> rfl
  · simp only [List.mem_cons, List.not_mem_nil, or_false] at hop
    rcases hop with rfl | rfl | rfl
    · exact ⟨(exactOp_sqrt rm rfl).trans (if_pos hneg), exactOp_sqrt rm rfl⟩
    · exact ⟨(exactOp_rsqrt rm rfl).trans (if_pos hneg), exactOp_rsqrt rm rfl⟩
    · exact ⟨(exactOp_log2 rm rfl).trans (if_pos hneg), exactOp_log2 rm rfl⟩
  · rw [exactOp_max, vmax_of_isNan (by rw [hnan, Bool.true_or])]
  · rw [exactOp_min, vmin_of_isNan (by rw [hnan, Bool.or_true])]
  · rw [exactOp_sel, selTakes_of_isNan hnan, if_pos rfl]
  · exact exactOp_sel rm _ _ _

end Sys2Proof.Proofs
end

section
/-!
PROOFS. What the tile unit records and raises (O24): rows that lie in the core's own scratchpad or its cluster's tun are read and written
as their bytes, row by row up to the first that cannot be reached, and an instruction that stops there leaves its unit as it was (R78, R88, R90).
-/
namespace Sys2Proof.Proofs
open Sys2Proof Sys2Proof.Machine Sys2Proof.Stated Sys2Proof.Laws

/-! ### Bytes and rows of bytes -/

theorem getBytes_eq_map (s : State) (a n : Nat) : s.getBytes a n = (rangeFrom a n).map s.getByte := by
  rw [rangeFrom, List.map_map]
  rfl

@[simp] theorem getBytes_length (s : State) (a n : Nat) : (s.getBytes a n).length = n := by simp [getBytes_eq_map, rangeFrom]

@[simp] theorem mem_rangeFrom {a n b : Nat} : b ∈ rangeFrom a n ↔ a ≤ b ∧ b < a + n := by
  simp only [rangeFrom, List.mem_map, List.mem_range]
  exact ⟨fun ⟨i, hi, h⟩ => by omega, fun h => ⟨b - a, by omega, by omega⟩⟩

theorem getBytes_slice (s : State) (a : Nat) {n i m : Nat} (h : i + m ≤ n) : ((s.getBytes a n).drop i).take m = s.getBytes (a + i) m := by
  refine List.ext_getElem (by simp; omega) fun j _ _ => ?_
  simp [getBytes_eq_map, rangeFrom, Nat.add_assoc]

theorem bytesOf_eq_leBytes (n v : Nat) : bytesOf n v = leBytes n v := by
  induction n generalizing v with
  | zero => rfl
  | succ n ih =>
    rw [leBytes, ← ih, bytesOf, List.range_succ_eq_map, List.map_cons, List.map_map, bytesOf]
    refine congrArg₂ _ (by simp) (List.map_congr_left fun i _ => ?_)
    rw [Function.comp_apply, Nat.mul_succ, Nat.add_comm, pow_add, ← Nat.div_div_eq_div_mul]
    rfl

theorem rowBits_eq_cleanRow (x : TShape) (bs : List Byte) : rowBits x bs = x.fmt.cleanRow x.cols bs := bytesOf_eq_leBytes _ _

/-- The positions of a region are its numbers in row-major order. -/
theorem grid_eq_map (m : Nat) {n : Nat} (hn : 0 < n) : grid m n = (List.range (m * n)).map (fun i => (i / n, i % n)) := by
  induction m with
  | zero => simp [grid]
  | succ m ih =>
    have hlast : (List.range n).map (fun j => (m, j)) = ((List.range n).map (m * n + ·)).map (fun i => (i / n, i % n)) := by
      rw [List.map_map]
      refine List.map_congr_left fun j hj => ?_
      have hj := List.mem_range.mp hj
      simp [Nat.mul_comm m n, Nat.mul_add_div hn, Nat.div_eq_of_lt hj, Nat.mod_eq_of_lt hj]
    rw [Nat.succ_mul, List.range_add, List.map_append, ← ih, ← hlast]
    simp [grid, List.range_succ]

theorem mem_grid {m n r j : Nat} : (r, j) ∈ grid m n ↔ r < m ∧ j < n := by simp [grid]

/-- The first position of a region with a property, in row-major order. -/
theorem grid_find? {p : Nat × Nat → Bool} {m n r j : Nat} (hr : r < m) (hj : j < n) (hp : p (r, j) = true)
    (hfirst : ∀ r' j', r' < m → j' < n → n * r' + j' < n * r + j → p (r', j') = false) : (grid m n).find? p = some (r, j) := by
  have hn : 0 < n := by omega
  have hpos : ((n * r + j) / n, (n * r + j) % n) = (r, j) := by
    rw [Nat.mul_add_div hn, Nat.mul_add_mod, Nat.div_eq_of_lt hj, Nat.mod_eq_of_lt hj, Nat.add_zero]
  have hlt : n * r + j < m * n := by nlinarith
  have hfind : (List.range (m * n)).find? (p ∘ fun i => (i / n, i % n)) = some (n * r + j) := by
    rw [List.find?_range_eq_some]
    refine ⟨by rw [Function.comp_apply, hpos, hp], List.mem_range.mpr hlt, fun i hi => ?_⟩
    rw [Function.comp_apply, hfirst _ _ (Nat.div_lt_of_lt_mul (by rw [Nat.mul_comm]; omega)) (Nat.mod_lt i hn) (by rwa [Nat.div_add_mod])]
    rfl
  rw [grid_eq_map m hn, List.find?_map, hfind, Option.map_some, hpos]

/-! ### Shapes (R68, R69) -/

/-- Every tile format's largest row fits a register's 64 bytes. -/
theorem rowBytes_of_largestCols {code c : Nat} (hc : 0 < c) (h : c ≤ largestCols code) :
    ∃ f, Fmt.ofCode code = some f ∧ f ≠ .afx128 ∧ f.rowBytes c ≤ 64 := by
  have hcode : code < 12 := by
    by_contra hge
    rw [largestCols, List.getD_eq_default _ _ (by simpa using hge)] at h
    omega
  interval_cases code <;> refine ⟨_, rfl, by decide, ?_⟩ <;> simp [largestCols] at h <;> simp [Fmt.rowBytes, Fmt.width, ceilDiv] <;> omega

theorem tswShape_of_legal {w : Nat} (h : LegalShape w) : tswShape w = some (shapeOf w) := by
  obtain ⟨hv, h13, h20, hcols⟩ := h
  obtain ⟨f, hf, hne, hle⟩ := rowBytes_of_largestCols (Nat.succ_pos _) hcols
  have hv : w / 2 ^ 23 % 2 = 1 := by simpa [Nat.testBit_eq_decide_div_mod_eq] using hv
  have hwell : ¬(w / 2 ^ 23 % 2 = 0 ∨ w / 2 ^ 13 % 8 ≠ 0 ∨ w / 2 ^ 20 % 8 ≠ 0) := by omega
  rw [tswShape, if_neg hwell, shapeOf, hf]
  cases f with
  | afx128 => exact absurd rfl hne
  | _ => exact if_pos hle

theorem rowBytes_le_of_legal {w : Nat} (h : LegalShape w) : (shapeOf w).fmt.rowBytes (shapeOf w).cols ≤ 64 := by
  obtain ⟨-, -, -, hcols⟩ := h
  obtain ⟨f, hf, -, hle⟩ := rowBytes_of_largestCols (Nat.succ_pos _) hcols
  rwa [shapeOf, hf]

/-! ### Bytes of a scratchpad or a tun -/

/-- A byte of a scratchpad or a tun, in an entry without an uncorrectable error (R136). -/
def ArrayByte (s : State) (a : Nat) : Prop := memEnd ≤ a ∧ s.holdsError a = false

theorem memEnd_le_of_placeOf {a : Nat} (h : ∀ b, placeOf a ≠ .mem b) : memEnd ≤ a :=
  Nat.le_of_not_lt fun hlt => h a (if_pos hlt)

theorem eccSpan_of_clean {s : State} {as : List Nat} (h : ∀ a ∈ as, s.holdsError a = false) (m : Nat) :
    s.eccSpan as m .clean = (s, true) := by
  cases as with
  | nil => rfl
  | cons a as =>
    have hnone : (a :: as).find? s.holdsError = none := List.find?_eq_none.mpr fun x hx => by simp [h x hx]
    simp [State.eccSpan, hnone, eccRead_of_clean (h a List.mem_cons_self)]

/-! Reads, line by line. -/

theorem lineGroups_flatten (as : List Nat) : (lineGroups as).flatten = as := by
  fun_induction lineGroups as with grind

theorem nil_notMem_lineGroups (as : List Nat) : [] ∉ lineGroups as := by
  fun_induction lineGroups as with grind

theorem headD_mem {α : Type} {l : List α} (h : l ≠ []) (d : α) : l.headD d ∈ l := by
  cases l with
  | nil => exact absurd rfl h
  | cons a l => exact List.mem_cons_self

theorem tileLines_of_array {s : State} {gs : List (List Nat)} (hne : [] ∉ gs) (h : ∀ g ∈ gs, ∀ a ∈ g, ArrayByte s a) (k : Nat) :
    s.tileLines k gs {} = (some (gs.flatten.map s.getByte), s) := by
  induction gs with
  | nil => rfl
  | cons g gs ih =>
    obtain ⟨hg, hgs⟩ := List.forall_mem_cons.mp h
    have hg0 : g ≠ [] := fun hnil => hne (hnil ▸ List.mem_cons_self)
    have hhead : ¬g.headD 0 < memEnd := Nat.not_lt.mpr (hg _ (headD_mem hg0 0)).1
    have hread := eccSpan_of_clean (fun a ha => (hg a ha).2) k
    have hrest := ih (fun hmem => hne (List.mem_cons_of_mem _ hmem)) hgs
    unfold State.tileLines
    simp only [hhead, hread, hrest, decide_false, Bool.false_and, Bool.false_eq_true, if_false, Bool.not_true, List.flatten_cons, List.map_append]

theorem tileRead_of_array {s : State} {as : List Nat} (h : ∀ a ∈ as, ArrayByte s a) (k : Nat) :
    s.tileRead k as {} = (some (as.map s.getByte), s) := by
  have hlines := tileLines_of_array (nil_notMem_lineGroups as)
    (fun g hg a ha => h a (by rw [← lineGroups_flatten as]; exact List.mem_flatten_of_mem hg ha)) k
  rwa [lineGroups_flatten] at hlines

/-! Writes, line by line. -/

theorem byLine_flatten (cs : List (Nat × Byte)) : (byLine cs).flatten = cs := by
  fun_induction byLine cs with grind

theorem nil_notMem_byLine (cs : List (Nat × Byte)) : [] ∉ byLine cs := by
  fun_induction byLine cs with grind

/-- From s to t cells are put in place: the bytes of memory are theirs, no core changes, the same places are reached as before, and no
more of them hold an error. -/
structure CellsPlaced (s t : State) (cs : List (Nat × Byte)) : Prop where
  reach : SameReach s t
  cores : t.cores = s.cores
  mem : t.mem = cs.foldl (fun m c => memPut m c.1 c.2) s.mem

theorem placeAt_mem (cs : List (Nat × Byte)) (s : State) : (s.placeAt cs).mem = cs.foldl (fun m c => memPut m c.1 c.2) s.mem := by
  induction cs generalizing s with
  | nil => rfl
  | cons c cs ih => rw [State.placeAt, ih, List.foldl_cons, State.placeByte, State.putByte, logByte_mem]

theorem CellsPlaced.refl (s : State) : CellsPlaced s s [] :=
  ⟨⟨fun _ => ⟨rfl, rfl, rfl, rfl⟩, List.Subset.refl _, List.Subset.refl _⟩, rfl, rfl⟩

theorem CellsPlaced.trans {s t u : State} {cs ds : List (Nat × Byte)} (h : CellsPlaced s t cs) (g : CellsPlaced t u ds) :
    CellsPlaced s u (cs ++ ds) :=
  ⟨h.reach.trans g.reach, g.cores.trans h.cores, by rw [g.mem, h.mem, List.foldl_append]⟩

theorem CellsPlaced.core {s t : State} {cs : List (Nat × Byte)} (h : CellsPlaced s t cs) (k : Nat) : t.core k = s.core k :=
  core_of_cores s t h.cores k

/-- An address that none of the cells names keeps its byte. -/
theorem CellsPlaced.outside {s t : State} {cs : List (Nat × Byte)} (h : CellsPlaced s t cs) {b : Nat} (hb : ∀ c ∈ cs, c.1 ≠ b) :
    t.getByte b = s.getByte b := by
  rw [State.getByte, h.mem, ← placeAt_mem]
  exact placeAt_outside cs s b hb

theorem CellsPlaced.array {s t : State} {cs : List (Nat × Byte)} (h : CellsPlaced s t cs) {a : Nat} (ha : ArrayByte s a) : ArrayByte t a :=
  ⟨ha.1, h.reach.holdsError ha.2⟩

theorem cellsPlaced_placeCells {s : State} {cs : List (Nat × Byte)} (h : ∀ c ∈ cs, s.holdsError c.1 = false) (m : Nat) :
    CellsPlaced s (s.placeCells cs m) cs := by
  obtain ⟨hreach, hmem⟩ := placeCells_of_clean h m
  refine ⟨hreach, ?_, hmem.trans (placeAt_mem cs s)⟩
  unfold State.placeCells
  rw [writeLosses_of_clean h]
  have hplaced : (s.placeAt (cs.filter (fun e => !inLoss [] e.1))).cores = s.cores := by rw [(placed_placeAt _ s).1]
  exact hplaced

theorem tileWriteLines_of_array {s : State} {gs : List (List (Nat × Byte))} (hne : [] ∉ gs) (h : ∀ g ∈ gs, ∀ c ∈ g, ArrayByte s c.1)
    (k stamp : Nat) : ∃ t, s.tileWriteLines k stamp gs {} = (t, true) ∧ CellsPlaced s t gs.flatten := by
  induction gs generalizing s with
  | nil => exact ⟨s, rfl, .refl s⟩
  | cons g gs ih =>
    obtain ⟨hg, hgs⟩ := List.forall_mem_cons.mp h
    have hg0 : g ≠ [] := fun hnil => hne (hnil ▸ List.mem_cons_self)
    have hhead : ¬(g.headD (0, 0)).1 < memEnd := Nat.not_lt.mpr (hg _ (headD_mem hg0 _)).1
    have hclean : ∀ c ∈ g, s.holdsError c.1 = false := fun c hc => (hg c hc).2
    have hplaced := cellsPlaced_placeCells hclean k
    obtain ⟨t, ht, hrest⟩ := ih (fun hmem => hne (List.mem_cons_of_mem _ hmem)) (fun x hx c hc => hplaced.array (hgs x hx c hc))
    refine ⟨t, ?_, hplaced.trans hrest⟩
    unfold State.tileWriteLines
    simp only [hhead, if_false, writeCells_of_clean hclean, if_true]
    exact ht

theorem tileWrite_of_array {s : State} {cs : List (Nat × Byte)} (h : ∀ c ∈ cs, ArrayByte s c.1) (k stamp : Nat) :
    ∃ t, s.tileWrite k stamp cs {} = (t, true) ∧ CellsPlaced s t cs := by
  have hlines := tileWriteLines_of_array (nil_notMem_byLine cs)
    (fun g hg c hc => h c (by rw [← byLine_flatten cs]; exact List.mem_flatten_of_mem hg hc)) k stamp
  rwa [byLine_flatten] at hlines

/-! ### Where a row lies (R78, R182) -/

theorem SameReach.partOfCore {s t : State} (h : SameReach s t) (k : Nat) : t.partOfCore k = s.partOfCore k := h.ownerOf (.spad k 0)

section
variable {s t : State} {cs : List (Nat × Byte)} (h : CellsPlaced s t cs)
include h

theorem CellsPlaced.coreXlate (k : Nat) (ring : Fin 4) (kind : AccKind) (va : Nat) :
    coreXlate t k ring kind va = coreXlate s k ring kind va := by
  have hremote (p rk c pva pg : Nat) : remoteTarget t p kind va rk c pva pg = remoteTarget s p kind va rk c pva pg := by
    obtain ⟨-, -, -, hconns⟩ := h.reach.part p
    rw [remoteTarget, remoteTarget, hconns]
  simp only [Machine.coreXlate, h.reach.partOfCore, h.reach.xlate, h.reach.placeFault, h.core, hremote]

theorem CellsPlaced.coreXlateN (k : Nat) (ring : Fin 4) (kind : AccKind) (va n : Nat) :
    coreXlateN t k ring kind va n = coreXlateN s k ring kind va n := by
  induction n generalizing va with
  | zero => rfl
  | succ n ih => simp only [Machine.coreXlateN, h.coreXlate, ih]

theorem CellsPlaced.tileRow (k : Nat) (ring : Fin 4) (kind : AccKind) (a : Word) (n : Nat) :
    tileRow t k ring kind a n = tileRow s k ring kind a n := by
  simp only [Machine.tileRow, h.coreXlateN]

end

/-- A row of n bytes is reached at a physical address, in a scratchpad or a tun without an error (R78, R136). -/
def RowReached (s : State) (k : Nat) (ring : Fin 4) (kind : AccKind) (n : Nat) (a : Word) (pa : Nat) : Prop :=
  tileRow s k ring kind a n = .ok (rangeFrom pa n) ∧ ∀ b ∈ rangeFrom pa n, ArrayByte s b

theorem CellsPlaced.rowReached {s t : State} {cs : List (Nat × Byte)} (h : CellsPlaced s t cs) {k n pa : Nat} {ring : Fin 4} {kind : AccKind}
    {a : Word} (hr : RowReached s k ring kind n a pa) : RowReached t k ring kind n a pa :=
  ⟨(h.tileRow k ring kind a n).trans hr.1, fun b hb => h.array (hr.2 b hb)⟩

theorem rowReached_of_rowsAt {s : State} {k : Nat} {ring : Fin 4} {kind : AccKind} {base stride : Word} {rows n : Nat} {at_ : Nat → Nat}
    (h : RowsAt s k ring kind base stride rows n at_) : ∀ x ∈ rowAddrs base stride rows, RowReached s k ring kind n x.2 (at_ x.1) := by
  intro x hx
  obtain ⟨r, hr, rfl⟩ := List.mem_map.mp hx
  obtain ⟨hrow, hbytes⟩ := h r (List.mem_range.mp hr)
  refine ⟨hrow, fun b hb => ?_⟩
  obtain ⟨j, hj, rfl⟩ := List.mem_map.mp hb
  obtain ⟨hclean, hplace⟩ := hbytes j (List.mem_range.mp hj)
  refine ⟨memEnd_le_of_placeOf fun m hm => ?_, hclean⟩
  rcases hplace with ⟨off, hp⟩ | ⟨off, hp⟩ <;> simp [hm] at hp

/-- The rows of an instruction, cut at one of them. -/
theorem rowAddrs_split (base stride : Word) {r n : Nat} (h : r < n) :
    ∃ rest, rowAddrs base stride n = rowAddrs base stride r ++ (r, base + BitVec.ofNat 64 r * stride) :: rest := by
  obtain ⟨d, rfl⟩ : ∃ d, n = r + (d + 1) := ⟨n - r - 1, by omega⟩
  rw [rowAddrs, List.range_add, List.map_append, List.range_succ_eq_map]
  exact ⟨_, rfl⟩

/-! ### Rows read and written in order (R78, R88, R90) -/

section
variable {s : State} {k n : Nat} {ring : Fin 4} {at_ : Nat → Nat}

theorem readRows_reached {xs : List (Nat × Word)} (h : ∀ x ∈ xs, RowReached s k ring .read n x.2 (at_ x.1)) :
    s.readRows k ring n none xs = .ok (xs.map (fun x => s.getBytes (at_ x.1) n)) s := by
  induction xs with
  | nil => rfl
  | cons x xs ih =>
    obtain ⟨⟨hrow, hbytes⟩, hxs⟩ := List.forall_mem_cons.mp h
    rw [State.readRows, hrow]
    simp only [findingAt, tileRead_of_array hbytes, ih hxs, List.map_cons, getBytes_eq_map]

theorem readRows_fault {xs : List (Nat × Word)} (h : ∀ x ∈ xs, RowReached s k ring .read n x.2 (at_ x.1)) {r : Nat} {a : Word} {f : RowFault}
    (hf : tileRow s k ring .read a n = .error f) (ys : List (Nat × Word)) :
    s.readRows k ring n none (xs ++ (r, a) :: ys) = .fault r f s := by
  induction xs with
  | nil => rw [List.nil_append, State.readRows, hf]
  | cons x xs ih =>
    obtain ⟨⟨hrow, hbytes⟩, hxs⟩ := List.forall_mem_cons.mp h
    rw [List.cons_append, State.readRows, hrow]
    simp only [findingAt, tileRead_of_array hbytes, ih hxs]

/-- The cells of rows stored at the physical addresses given. -/
def rowCells (at_ : Nat → Nat) (n : Nat) (xs : List ((Nat × Word) × List Byte)) : List (Nat × Byte) :=
  xs.flatMap (fun x => (rangeFrom (at_ x.1.1) n).zip x.2)

/-- Rows before one that cannot be reached are stored. -/
theorem writeRows_fault {xs : List ((Nat × Word) × List Byte)}
    (h : ∀ x ∈ xs, RowReached s k ring .write n x.1.2 (at_ x.1.1) ∧ x.2.length = n) {r : Nat} {a : Word} {bs : List Byte} {f : RowFault}
    (hlen : bs.length = n) (hf : tileRow s k ring .write a n = .error f) (stamp : Nat) (ys : List ((Nat × Word) × List Byte)) :
    ∃ t, s.writeRows k ring stamp none (xs ++ ((r, a), bs) :: ys) = .fault r f t ∧ CellsPlaced s t (rowCells at_ n xs) := by
  induction xs generalizing s with
  | nil =>
    refine ⟨s, ?_, .refl s⟩
    rw [List.nil_append, State.writeRows, hlen, hf]
  | cons x xs ih =>
    obtain ⟨⟨⟨hrow, hbytes⟩, hxlen⟩, hxs⟩ := List.forall_mem_cons.mp h
    obtain ⟨u, hu, hplaced⟩ := tileWrite_of_array (cs := (rangeFrom (at_ x.1.1) n).zip x.2)
      (fun c hc => hbytes c.1 (List.of_mem_zip hc).1) k stamp
    obtain ⟨t, ht, hrest⟩ := ih (fun y hy => ⟨hplaced.rowReached (hxs y hy).1, (hxs y hy).2⟩) ((hplaced.tileRow ..).trans hf)
    refine ⟨t, ?_, hplaced.trans hrest⟩
    obtain ⟨⟨i, b⟩, cs⟩ := x
    dsimp only at hxlen hrow hu
    rw [List.cons_append, State.writeRows, hxlen, hrow]
    simp only [findingAt, hu]
    exact ht

end

/-! ### Execution -/

/-- A store runs as the write of its rows, each of n bytes (R78, R84, R86). -/
theorem tileRun_of_storedRows {s : State} {k : Nat} {e : TileEntry} {base stride : Word} {rows n : Nat} {bs : Nat → List Byte}
    (h : storedRows (s.core k) e.op = some (base, stride, rows, n, bs)) (hlegal : ∀ a b st w, e.op = .tst a b st w → LegalShape w)
    (found : Option (Nat × Finding)) :
    (∃ rec_, s.tileRun k e found = runStore s k e found ((rowAddrs base stride rows).map (fun x => (x, bs x.1))) rec_)
      ∧ ∀ r < rows, (bs r).length = n := by
  cases hop : e.op with
  | tst t b st w =>
    have hlegal := hlegal _ _ _ _ hop
    have hle := rowBytes_le_of_legal hlegal
    rw [hop, storedRows, Option.some.injEq, Prod.mk.injEq, Prod.mk.injEq, Prod.mk.injEq, Prod.mk.injEq] at h
    obtain ⟨rfl, rfl, rfl, rfl, rfl⟩ := h
    refine ⟨⟨{}, ?_⟩, fun r _ => by simpa [rowBits, bytesOf, Tile.row] using hle⟩
    simp only [State.tileRun, State.storedRows, hop, tswShape_of_legal hlegal, Option.map_some, rowBits_eq_cleanRow]
  | tsta a b st sig key rd =>
    rw [hop, storedRows] at h
    cases hrd : rdCheck rd true with
    | error f => simp [hrd] at h
    | ok ox =>
      obtain ⟨o, x⟩ := ox
      rw [hrd] at h
      simp only [Option.some.injEq, Prod.mk.injEq] at h
      obtain ⟨rfl, rfl, rfl, rfl, rfl⟩ := h
      refine ⟨⟨(outRows (s.core k) a o x sig key).2, ?_⟩, fun r _ => by simp [packRow, readRow]⟩
      simp only [State.tileRun, State.storedRows, hop, hrd, Option.getD_some]
      refine congrArg (runStore s k e found · _) (List.map_congr_left fun ra hra => ?_)
      obtain ⟨r, hr, rfl⟩ := List.mem_map.mp hra
      simp [outRows, List.mem_range.mp hr]
  | tspill a b disp =>
    rw [hop, storedRows] at h
    split at h
    case isFalse => cases h
    case isTrue halign =>
      simp only [Option.some.injEq, Prod.mk.injEq] at h
      obtain ⟨rfl, rfl, rfl, rfl, rfl⟩ := h
      have hbase : spillBase b disp = .ok (b + disp) := if_neg (not_not.mpr halign)
      refine ⟨⟨{}, ?_⟩, fun r _ => by simp [bytesOf, List.length_flatMap]⟩
      simp only [State.tileRun, State.storedRows, hop, hbase, Option.getD_some, Tile.spillRow, bytesOf_eq_leBytes]
  | _ => simp [hop, storedRows] at h

section
variable {s s' : State} {k : CoreId} {e : TileEntry} (hh : TileHead s k e)
include hh

/-- TILE_EXECUTION_FAULT at the head of a queue takes the fault that its execution finds. -/
theorem exec_tileExecutionFault {f : TileFail} {wr : Bool} {a : Nat} (h : s.tileRun k.val e none = .fault s' f wr a) :
    exec (.tileExecutionFault k) s = .next (s'.modCore k.val (fun c => c.tileFault e f wr a)) := by
  obtain ⟨hq, hrun, hstop, hwait⟩ := hh
  obtain ⟨rest, hq⟩ := List.head?_eq_some_iff.mp hq
  change execTileExecutionFault k s = _
  simp [execTileExecutionFault, hq, hrun, hstop, hwait, h]

/-- Nothing happens where its execution would complete. -/
theorem exec_tileExecutionFault_of_done {r : TileRec} (h : s.tileRun k.val e none = .done s' r) : exec (.tileExecutionFault k) s = .next s := by
  obtain ⟨hq, hrun, hstop, hwait⟩ := hh
  obtain ⟨rest, hq⟩ := List.head?_eq_some_iff.mp hq
  change execTileExecutionFault k s = _
  simp [execTileExecutionFault, hq, hrun, hstop, hwait, h]

/-- An instruction that a row stops (R88): its unit keeps everything but the fault's record and stops; the fault is deferred. -/
theorem exec_tileExecutionFault_row {r : Nat} {f : RowFault} {wr : Bool} (h : s.tileRun k.val e none = rowFail s' r f wr) :
    ∃ t, exec (.tileExecutionFault k) s = .next t ∧ t.mem = s'.mem
      ∧ (t.core k.val).tile = { (s'.core k.val).tile with
          finfo := { cause := f.cause, idx := r, wr := wr, iaddr := e.iaddr.toNat, addr := f.addr }, stopped := true }
      ∧ ∃ p, (t.core k.val).pendDef = (s'.core k.val).pendDef ++ [p] ∧ p.stamp = e.stamp ∧ p.ev.code = 0x0A ∧ p.ev.cause = f.cause
        ∧ p.ev.kind = .deferred ∧ p.ev.iaddr = e.iaddr ∧ p.ev.faddr = BitVec.ofNat 64 f.addr := by
  refine ⟨_, exec_tileExecutionFault hh h, rfl, ?_, ?_⟩
  · rw [modCore_core, if_pos rfl]
    rfl
  · rw [modCore_core, if_pos rfl]
    exact ⟨_, rfl, rfl, rfl, rfl, rfl, rfl, rfl⟩

/-- An instruction that an element stops (R88): no address is recorded. -/
theorem exec_tileExecutionFault_config {cause idx a : Nat} (h : s.tileRun k.val e none = .fault s (tileConfig cause idx) false a) :
    ∃ t, exec (.tileExecutionFault k) s = .next t
      ∧ (t.core k.val).tile = { (s.core k.val).tile with
          finfo := { cause := cause, idx := idx, wr := false, iaddr := e.iaddr.toNat, addr := (s.core k.val).tile.finfo.addr }, stopped := true }
      ∧ (t.core k.val).pendDef = (s.core k.val).pendDef ++
          [{ ev := { code := 0x09, cause := cause, kind := .deferred, iaddr := e.iaddr }, stamp := e.stamp }] := by
  refine ⟨_, exec_tileExecutionFault hh h, ?_, ?_⟩ <;>
  · rw [modCore_core, if_pos rfl]
    rfl

end

/-! The loads. -/

theorem tileRun_tld {s : State} {k : Nat} {e : TileEntry} {a w : Nat} {base stride : Word} (hop : e.op = .tld a base stride w)
    (hlegal : LegalShape w) : s.tileRun k e none = runTld s k e.ring none a base stride (shapeOf w) := by
  simp only [State.tileRun, hop, tswShape_of_legal hlegal]

theorem runTld_fault {s : State} {k : Nat} {ring : Fin 4} {base stride : Word} {x : TShape} {r : Nat} {at_ : Nat → Nat} (hr : r < x.rows)
    (hrows : RowsAt s k ring .read base stride r (x.fmt.rowBytes x.cols) at_) {f : RowFault}
    (hf : tileRow s k ring .read (base + BitVec.ofNat 64 r * stride) (x.fmt.rowBytes x.cols) = .error f) (t : Nat) :
    runTld s k ring none t base stride x = rowFail s r f false := by
  obtain ⟨rest, hsplit⟩ := rowAddrs_split base stride hr
  rw [runTld, hsplit, readRows_fault (rowReached_of_rowsAt hrows) hf]

theorem runTld_done {s : State} {k : Nat} {ring : Fin 4} {base stride : Word} {x : TShape} {at_ : Nat → Nat}
    (hrows : RowsAt s k ring .read base stride x.rows (x.fmt.rowBytes x.cols) at_) (t : Nat) :
    ∃ s', runTld s k ring none t base stride x = .done s' {} := by
  rw [runTld, readRows_reached (rowReached_of_rowsAt hrows)]
  exact ⟨_, rfl⟩

/-! The elements of accumulators (R53, R86). -/

theorem runTmma_layout {s : State} {k a ta tb r j : Nat} {xa xb : TShape} {pd : Word} {ma mb : ScaleMode} {cl : PClass}
    (hma : scaleMode (field pd 7 0) = some ma) (hmb : scaleMode (field pd 15 8) = some mb) (hcl : xa.fmt.pclass = some cl)
    (hr : r < xa.rows) (hj : j < xb.rows)
    (hfault : ((s.core k).tile.elem a r j).layoutFault (cl != .n || ma.kind == 2 || mb.kind == 2) = true) :
    runTmma s k a ta tb xa xb pd = .fault s (tileConfig 0x14 0) false 0 := by
  have hany : (grid xa.rows xb.rows).any (fun p => ((s.core k).tile.elem a p.1 p.2).layoutFault (cl != .n || ma.kind == 2 || mb.kind == 2))
      = true := List.any_eq_true.mpr ⟨(r, j), mem_grid.mpr ⟨hr, hj⟩, hfault⟩
  simp only [runTmma, hma, hmb, hcl, hany, if_true]

/-- The element that TFILL finds at a place of memory (R86). -/
def filled (s : State) (at_ : Nat → Nat) (r j : Nat) : X96 := BitVec.ofNat 96 (leNat (s.getBytes (at_ r + 12 * j) 12))

/-- The rows that TFILL reads hold its elements. -/
theorem leNat_filledRow (s : State) (at_ : Nat → Nat) (b st : Word) {r j : Nat} (hr : r < 64) (hj : j < 64) :
    BitVec.ofNat 96 (leNat (((((rowAddrs b st 64).map (fun x => s.getBytes (at_ x.1) 768)).getD r []).drop (12 * j)).take 12))
      = filled s at_ r j := by
  have hrow : ((rowAddrs b st 64).map (fun x => s.getBytes (at_ x.1) 768)).getD r [] = s.getBytes (at_ r) 768 := by
    simp [rowAddrs, List.getD_eq_getElem?_getD, List.getElem?_range hr]
  rw [hrow, getBytes_slice s _ (by omega), filled]

theorem fillDone_malformed {s : State} {at_ : Nat → Nat} {r j : Nat} (hr : r < 64) (hj : j < 64) (hbad : (filled s at_ r j).malformed = true)
    (hfirst : ∀ r' j', r' < 64 → j' < 64 → 64 * r' + j' < 64 * r + j → (filled s at_ r' j').malformed = false) (k a : Nat) (b st : Word) :
    fillDone s k a ((rowAddrs b st 64).map (fun x => s.getBytes (at_ x.1) 768)) = .fault s (tileConfig 0x17 r) false 0 := by
  have hfind := grid_find? (p := fun p => X96.malformed (BitVec.ofNat 96 (leNat
      (((((rowAddrs b st 64).map (fun x => s.getBytes (at_ x.1) 768)).getD p.1 []).drop (12 * p.2)).take 12)))) hr hj
    (by rw [leNat_filledRow s at_ b st hr hj, hbad])
    (fun r' j' hr' hj' hlt => by rw [leNat_filledRow s at_ b st hr' hj', hfirst r' j' hr' hj' hlt])
  simp only [fillDone, hfind]

theorem tileRun_tfill_malformed {s : State} {k : Nat} {e : TileEntry} {a : Nat} {base disp : Word} {at_ : Nat → Nat} {r j : Nat}
    (hop : e.op = .tfill a base disp) (halign : base.toNat % 16 = 0) (hrows : RowsAt s k e.ring .read (base + disp) 768 64 768 at_)
    (hr : r < 64) (hj : j < 64) (hbad : (filled s at_ r j).malformed = true)
    (hfirst : ∀ r' j', r' < 64 → j' < 64 → 64 * r' + j' < 64 * r + j → (filled s at_ r' j').malformed = false) :
    s.tileRun k e none = .fault s (tileConfig 0x17 r) false 0 := by
  have hbase : spillBase base disp = .ok (base + disp) := if_neg (not_not.mpr halign)
  simp only [State.tileRun, hop, hbase, readRows_reached (rowReached_of_rowsAt hrows), fillDone_malformed hr hj hbad hfirst]

/-! The stores. -/

theorem runStore_fault {s : State} {k : Nat} {e : TileEntry} {base stride : Word} {rows n r : Nat} {bs : Nat → List Byte} {at_ : Nat → Nat}
    (hlen : ∀ i < rows, (bs i).length = n) (hr : r < rows) (hrows : RowsAt s k e.ring .write base stride r n at_) {f : RowFault}
    (hf : tileRow s k e.ring .write (base + BitVec.ofNat 64 r * stride) n = .error f) (rec_ : TileRec) :
    ∃ t, runStore s k e none ((rowAddrs base stride rows).map (fun x => (x, bs x.1))) rec_ = rowFail t r f true
      ∧ CellsPlaced s t (rowCells at_ n ((rowAddrs base stride r).map (fun x => (x, bs x.1)))) := by
  obtain ⟨rest, hsplit⟩ := rowAddrs_split base stride hr
  have hreached : ∀ y ∈ (rowAddrs base stride r).map (fun x => (x, bs x.1)),
      RowReached s k e.ring .write n y.1.2 (at_ y.1.1) ∧ y.2.length = n := by
    intro y hy
    obtain ⟨x, hx, rfl⟩ := List.mem_map.mp hy
    obtain ⟨i, hi, rfl⟩ := List.mem_map.mp hx
    exact ⟨rowReached_of_rowsAt hrows _ hx, hlen i ((List.mem_range.mp hi).trans hr)⟩
  obtain ⟨t, ht, hplaced⟩ := writeRows_fault hreached (hlen r hr) hf e.stamp (rest.map (fun x => (x, bs x.1)))
  refine ⟨t, ?_, hplaced⟩
  rw [runStore, hsplit, List.map_append, List.map_cons, ht]

/-- An address outside the rows is none of their cells'. -/
theorem rowCells_ne {at_ : Nat → Nat} {n r b : Nat} {base stride : Word} {bs : Nat → List Byte} (hb : ∀ i < r, b < at_ i ∨ at_ i + n ≤ b) :
    ∀ c ∈ rowCells at_ n ((rowAddrs base stride r).map (fun x => (x, bs x.1))), c.1 ≠ b := by
  rintro c hc rfl
  obtain ⟨y, hy, hc⟩ := List.mem_flatMap.mp hc
  obtain ⟨x, hx, rfl⟩ := List.mem_map.mp hy
  obtain ⟨i, hi, rfl⟩ := List.mem_map.mp hx
  have hrange := mem_rangeFrom.mp (List.of_mem_zip hc).1
  have hout := hb i (List.mem_range.mp hi)
  dsimp only at hrange
  omega

/-! ### What a completion records (R91, R92) -/

theorem tileRecord_tile (c : Core) (e : TileEntry) (r : TileRec) :
    (c.tileRecord e r).tile = { c.tile with
      conds := c.tile.conds.or r.conds, aovf0 := c.tile.aovf0 || r.sat == some 0, aovf1 := c.tile.aovf1 || r.sat == some 1,
      nanf := c.tile.nanf || r.nan.isSome, nanpos := (c.tileRecord e r).tile.nanpos, queue := c.tile.queue.tail } := by
  unfold Core.tileRecord
  dsimp only
  split_ifs <;> rfl

/-- A NaN written with its enable on raises NAN_TRAP alone. -/
theorem tileRecord_nanTrap {c : Core} {r : TileRec} (hnan : r.nan.isSome = true) (hen : c.tile.nanen = true) (e : TileEntry) :
    (c.tileRecord e r).pendArith = c.pendArith ∧ ∃ p, (c.tileRecord e r).pendNan = c.pendNan ++ [p] ∧ p.ev.code = 0x0C ∧ p.ev.cause = 1
      ∧ p.ev.kind = (if c.preciseM then .precise else .imprecise) ∧ p.ev.iaddr = e.iaddr := by
  have htrap : (r.nan.isSome && c.tile.nanen) = true := by rw [hnan, hen]; rfl
  unfold Core.tileRecord
  dsimp only
  rw [if_pos htrap]
  exact ⟨rfl, _, rfl, rfl, rfl, rfl, rfl⟩

/-- Without it an enabled condition raises ARITH. -/
theorem tileRecord_arith {c : Core} {r : TileRec} (h : r.nan = none ∨ c.tile.nanen = false) (e : TileEntry) :
    (c.tileRecord e r).pendNan = c.pendNan ∧ (c.tileRecord e r).pendArith = c.pendArith ++
      (if r.conds.meets c.tile.te || (r.sat.isSome && c.tile.teAovf) then
        [{ ev := { code := 0x0B, cause := 1, kind := if c.preciseM then .precise else .imprecise, iaddr := e.iaddr }, stamp := e.stamp }]
      else []) := by
  have htrap : ¬(r.nan.isSome && c.tile.nanen) = true := by rcases h with h | h <;> simp [h]
  unfold Core.tileRecord
  dsimp only
  rw [if_neg htrap]
  by_cases hmeets : (r.conds.meets c.tile.te || (r.sat.isSome && c.tile.teAovf)) = true
  · rw [if_pos hmeets, if_pos hmeets]
    exact ⟨rfl, rfl⟩
  · rw [if_neg hmeets, if_neg hmeets]
    exact ⟨rfl, (List.append_nil _).symm⟩

/-- Settles O24: what a completion records, and for each way that an execution stops the outcome of its run, which the fault takes up. -/
theorem tileUnitReports : Obligations.TileUnitReports := by
  unfold Obligations.TileUnitReports
  refine ⟨fun c e r => ?_, fun k e s hh => ⟨?_, ?_, ?_, ?_, ?_, ?_, ?_⟩⟩
  · dsimp only
    refine ⟨by rw [tileRecord_tile], by rw [tileRecord_tile]; simp, by rw [tileRecord_tile]; simp, by rw [tileRecord_tile],
      fun hnan hen => tileRecord_nanTrap hnan hen e, fun h => tileRecord_arith h e⟩
  · intro s' f wr a hrun
    refine ⟨_, exec_tileExecutionFault hh hrun, ?_, ?_⟩
    · rw [modCore_core, if_pos rfl]
      rfl
    · rw [modCore_core, if_pos rfl]
      simp only [beq_iff_eq]
      exact ⟨_, rfl, rfl, rfl, rfl, rfl, rfl, rfl⟩
  · intro s' r hrun
    exact exec_tileExecutionFault_of_done hh hrun
  · rintro a base stride w r f hop hlegal hr ⟨at_, hrows⟩ hf
    obtain ⟨t, ht, hmem, htile, hpend⟩ := exec_tileExecutionFault_row hh ((tileRun_tld hop hlegal).trans (runTld_fault hr hrows hf a))
    exact ⟨t, ht, htile, hmem, hpend⟩
  · intro a base stride w at_ hop hlegal hrows
    obtain ⟨s', hdone⟩ := runTld_done hrows a
    exact exec_tileExecutionFault_of_done hh ((tileRun_tld hop hlegal).trans hdone)
  · intro a ta tb wa wb pd ma mb cl r j hop hwa hwb hma hmb hcl hr hj hfault
    have hrun : s.tileRun k.val e none = .fault s (tileConfig 0x14 0) false 0 := by
      simp only [State.tileRun, hop, tswShape_of_legal hwa, tswShape_of_legal hwb, runTmma_layout hma hmb hcl hr hj hfault]
    exact exec_tileExecutionFault_config hh hrun
  · intro a base disp at_ r j hop halign hrows hr hj new hbad hfirst
    exact exec_tileExecutionFault_config hh (tileRun_tfill_malformed hop halign hrows hr hj hbad hfirst)
  · intro base stride rows n bs at_ r f hstored hlegal hr hrows hf
    obtain ⟨⟨rec_, hrun⟩, hlen⟩ := tileRun_of_storedRows hstored hlegal none
    obtain ⟨s', hstop, hplaced⟩ := runStore_fault hlen hr hrows hf rec_
    obtain ⟨t, ht, hmem, htile, -⟩ := exec_tileExecutionFault_row hh (hrun.trans hstop)
    refine ⟨t, ht, by rw [htile, hplaced.core], fun b hb => ?_⟩
    rw [State.getByte, hmem]
    exact hplaced.outside (rowCells_ne hb)

end Sys2Proof.Proofs
end

section
/-!
PROOFS. GRET (O12): the trap record as the entries of the return stack, the checks of R174 in their order, and what a return to the
same bank and one to another bank leave (R165, R173, R174).
-/
namespace Sys2Proof.Proofs
open Sys2Proof Sys2Proof.Machine Sys2Proof.Stated Sys2Proof.Laws

/-! ### The checks of R174 -/

/-- The trap record's quadwords are the top entries of the return stack (R173). -/
theorem nth_record (s : State) (k : Nat) {i : Nat} (hi : i < 8) : nth (s.record k) i = s.entry k .ret i := by
  simp [nth, State.record, State.rtops, State.stackTop, State.entry, List.getD_eq_getElem?_getD, List.getElem?_range hi]

/-- The ring that the record on the return stack returns to: its FROM field (R173). -/
def fromRing (s : State) (k : Nat) : Fin 4 := toRing ((s.entry k .ret 0).toNat / 2 ^ 24 % 4)

theorem fromRing_val (s : State) (k : Nat) : (fromRing s k).val = (s.entry k .ret 0).toNat / 2 ^ 24 % 4 := Nat.mod_mod _ 4

theorem toRing_field_record (s : State) (k : Nat) : toRing (field (nth (s.record k) 0) 25 24) = fromRing s k := by
  rw [nth_record s k (by decide), field_eq_div]
  rfl

/-- The checks of R174 on the record's fields. -/
theorem gretFault_eq (s : State) (k n : Nat) : s.gretFault k n =
    if (s.core k).bank.rsp ≠ (s.core k).bank.rsFloor then some { code := 3, cause := 5 }
    else if (fromRing s k).val < (s.core k).ring.val then some { code := 3, cause := 6 }
    else if n ≠ 0 ∧ (s.entry k .ret 0).toNat % 256 ≠ 0x40 then some { code := 3, cause := 5 }
    else if (s.core k).bank.depth .data < n then some { code := 8, cause := 1 }
    else if fromRing s k ≠ (s.core k).ring
        ∧ ((s.core k).banks.get (fromRing s k)).dsp < ((s.core k).dsr.get (fromRing s k)).lim + 8 * n then
      some { code := 7, cause := 1 }
    else none := by
  have hfrom : field (nth (s.record k) 0) 25 24 = (fromRing s k).val := by
    rw [nth_record s k (by decide), field_eq_div, fromRing_val, show 2 ^ (25 + 1 - 24) = 4 from rfl]
  have hcode : field (nth (s.record k) 0) 7 0 = (s.entry k .ret 0).toNat % 256 := by
    rw [nth_record s k (by decide), field_eq_div]; simp
  have hring : toRing (fromRing s k).val = fromRing s k := Fin.ext (Nat.mod_eq_of_lt (fromRing s k).isLt)
  simp [State.gretFault, hfrom, hcode, hring, Fin.ext_iff]

/-! ### What GRET does after its fetch -/

theorem unbarred_none (s : State) (k : Nat) (go : Out) : s.unbarred k none go = go := rfl

/-- GRET with its checks passed: the return, and the frozen work of its ring thawed. -/
def returned (s : State) (k n : Nat) : State :=
  (if fromRing s k = (s.core k).ring then s.gretSame k n else s.gretCross k n (fromRing s k)).modCore k
    (fun c => { c with tile := c.tile.thaw (fromRing s k), vsu := c.vsu.thaw (fromRing s k) })

section
variable {k : CoreId} {n : Fin 8} {s f : State} (hf : s.fetched k.val 2 = f) (hr : s.Runs k.val 2)
  (hbar : (f.core k.val).bank.rsp = (f.core k.val).bank.rsFloor → f.stackBar k.val (f.core k.val).bank.recordIns [] = none)
include hf hr hbar

theorem exec_gret : exec (.gret k n) s =
    match f.gretFault k.val n.val with
    | some e => .next (f.raise k.val e)
    | none => f.unbarred k.val (f.gretBar k.val n.val (fromRing f k.val)) (.next (returned f k.val n.val)) := by
  have h3 : (s.core k.val).ring.val ≤ 3 := Nat.le_of_lt_succ (s.core k.val).ring.isLt
  have hbar' : (if (f.core k.val).bank.rsp = (f.core k.val).bank.rsFloor then f.stackBar k.val (f.core k.val).bank.recordIns [] else none)
      = none := by
    split
    · exact hbar ‹_›
    · rfl
  change execGret k n s = _
  unfold execGret
  rw [coreInstr_runs k { bytes := instrBytes (.gret k n) } _ s hr rfl h3 (fits_zero s k.val .data) (fits_zero s k.val .ret),
    show s.fetched k.val (instrBytes (.gret k n)).length = f from hf]
  dsimp only
  rw [hbar', unbarred_none, toRing_field_record]
  rfl

theorem exec_gret_fault {e : Ev} (he : f.gretFault k.val n.val = some e) : exec (.gret k n) s = .next (f.raise k.val e) := by
  rw [exec_gret hf hr hbar, he]

theorem exec_gret_returns (he : f.gretFault k.val n.val = none) (hgb : f.gretBar k.val n.val (fromRing f k.val) = none) :
    exec (.gret k n) s = .next (returned f k.val n.val) := by
  rw [exec_gret hf hr hbar, he, hgb]
  rfl

end

/-! ### What a return leaves -/

/-- Where the cache of a data stack starts with the entries that another state's top holds, they are its top entries. -/
theorem entry_of_cache_tops {s t : State} {k n : Nat} {keep : List Word} (h : (t.core k).bank.ds = s.tops k n ++ keep) {j : Nat} (hj : j < n) :
    t.entry k .data j = s.entry k .data j := by
  have hlen : (s.tops k n).length = n := by simp [State.tops, State.stackTop]
  have hcache : (t.core k).bank.cache .data = s.tops k n ++ keep := h
  have hget : ((t.core k).bank.cache .data)[j]? = some (s.entry k .data j) := by
    rw [hcache, List.getElem?_append_left (hlen.symm ▸ hj)]
    simp [State.tops, State.stackTop, State.entry, hj]
  rw [State.entry, State.stackEntry, hget]

section
variable {s : State} {k n : Nat}

/-- The bank that a return to the same ring continues in. -/
def returnedSameBank (s : State) (k n : Nat) : Bank :=
  let b := (s.core k).bank
  { b with rsp := b.rsp + 64, rs := b.rs.drop 8, dsp := b.dsFloor - 8 * n, ds := s.tops k n ++ b.ds.drop (b.depth .data),
           dsFloor := (s.entry k .ret 6).toNat % 2 ^ 21, rsFloor := (s.entry k .ret 6).toNat / 2 ^ 21 % 2 ^ 21, pc := s.entry k .ret 1 }

theorem returned_same (h : fromRing s k = (s.core k).ring) :
    (returned s k n).core k =
      { (s.core k).setBank (returnedSameBank s k n) with
        gie := (s.entry k .ret 0).toNat.testBit 29, tile := (s.core k).tile.thaw (fromRing s k), vsu := (s.core k).vsu.thaw (fromRing s k) } := by
  rw [returned, if_pos h, modCore_core, if_pos rfl, State.gretSame, modCore_core, if_pos rfl, nth_record s k (by decide : 6 < 8),
    nth_record s k (by decide : 0 < 8), nth_record s k (by decide : 1 < 8), field_eq_div, field_eq_div, Nat.pow_zero, Nat.div_one]
  rfl

theorem returned_same_bank (h : fromRing s k = (s.core k).ring) : ((returned s k n).core k).bank = returnedSameBank s k n := by
  rw [returned_same h]
  exact setBank_bank _ _

/-- The bank that a return to another ring continues in. -/
def returnedBank (s : State) (k n : Nat) : Bank :=
  let nb := (s.core k).banks.get (fromRing s k)
  { nb with dsp := nb.dsp - 8 * n, ds := (s.stackApply k nb .data 0 (s.tops k n)).2.2, pc := s.entry k .ret 1, busy := true }

theorem returned_cross (h : fromRing s k ≠ (s.core k).ring) :
    (returned s k n).core k =
      { s.core k with
        banks := ((s.core k).banks.set (s.core k).ring { (s.core k).bank with ds := [], rs := [], busy := false }).set (fromRing s k)
          (returnedBank s k n),
        ring := fromRing s k, gie := (s.entry k .ret 0).toNat.testBit 29, tile := (s.core k).tile.thaw (fromRing s k),
        vsu := (s.core k).vsu.thaw (fromRing s k) } := by
  have hlen : (s.tops k n).length = n := by simp [State.tops, State.stackTop]
  have hkept : Kept s (s.stackApply k ((s.core k).banks.get (fromRing s k)) .data 0 (s.tops k n)).1 := kept_spill ..
  rw [returned, if_neg h, modCore_core, if_pos rfl, State.gretCross, modCore_core, if_pos rfl, hkept.core,
    nth_record s k (by decide : 0 < 8), nth_record s k (by decide : 1 < 8)]
  simp [returnedBank, Core.setBank, h, stackApply_eq, hlen, Bank.ptr]
  rfl

theorem returned_cross_bank (h : fromRing s k ≠ (s.core k).ring) : ((returned s k n).core k).bank = returnedBank s k n := by
  rw [returned_cross h]
  simp [Core.bank]

end

/-- Settles O12: the checks of R174 in their order, and the return to the same bank or to another one that follows them. -/
theorem gretReturns : Obligations.GretReturns := by
  unfold Obligations.GretReturns
  intro k n s f c e0 src e6 hr
  have hfc := (fetched_fetched s k.val 2).2 k.val
  have hbank : (f.core k.val).bank = c.bank := (fetched_fetched s k.val 2).bank k.val
  have hring : (f.core k.val).ring = c.ring := (fetched_fetched s k.val 2).ring k.val
  have hbanks : (f.core k.val).banks = c.banks := by rw [hfc]
  have hdsr : (f.core k.val).dsr = c.dsr := by rw [hfc]
  have htile : (f.core k.val).tile = c.tile := by rw [hfc]
  have hvsu : (f.core k.val).vsu = c.vsu := by rw [hfc]
  have hgf := gretFault_eq f k.val n.val
  have hsrc : fromRing f k.val = src := rfl
  rw [hbank, hring, hbanks, hdsr, hsrc] at hgf
  refine ⟨fun hne => ?_, fun hfloor hbar => ?_, fun hfloor hbar hgb hle hk hdepth hroom => ?_⟩
  · refine exec_gret_fault rfl hr (fun h => absurd (hbank ▸ h) hne) ?_
    rw [hgf, if_pos hne]
  · have hgf1 := hgf.trans (if_neg (not_not.mpr hfloor))
    refine ⟨fun hlt => ?_, fun hle hn hcode => ?_, fun hle hk hdepth => ?_, fun hle hk hdepth hne hroom => ?_⟩
    all_goals refine exec_gret_fault rfl hr (fun _ => hbar) (hgf1.trans ?_)
    · exact if_pos hlt
    · rw [if_neg (Nat.not_lt.mpr hle), if_pos ⟨hn, hcode⟩]
    · rw [if_neg (Nat.not_lt.mpr hle), if_neg (not_and_not_right.mpr hk.resolve_left), if_pos hdepth]
    · rw [if_neg (Nat.not_lt.mpr hle), if_neg (not_and_not_right.mpr hk.resolve_left), if_neg (Nat.not_lt.mpr hdepth), if_pos ⟨hne, hroom⟩]
  · have hnone : f.gretFault k.val n.val = none := by
      rw [hgf, if_neg (not_not.mpr hfloor), if_neg (Nat.not_lt.mpr hle), if_neg (not_and_not_right.mpr hk.resolve_left),
        if_neg (Nat.not_lt.mpr hdepth), if_neg]
      rintro ⟨hne, hlt⟩
      exact Nat.not_le.mpr hlt (hroom.resolve_left hne)
    refine ⟨_, exec_gret_returns rfl hr (fun _ => hbar) hnone hgb, ?_⟩
    by_cases hsame : src = c.ring
    · have hsame' : fromRing f k.val = (f.core k.val).ring := hsame.trans hring.symm
      have hb := returned_same_bank (n := n.val) hsame'
      rw [Core.pc, hb, returned_same hsame', htile, hvsu]
      refine ⟨hring.trans hsame.symm, rfl, rfl, fun _ => ⟨?_, ?_, rfl, rfl, fun j hj => ?_⟩, fun hne => absurd hsame hne, rfl, rfl⟩
      · rw [returnedSameBank, hbank]
      · rw [returnedSameBank, hbank]
      · exact entry_of_cache_tops (congrArg Bank.ds hb) hj
    · have hcross : fromRing f k.val ≠ (f.core k.val).ring := fun h => hsame (h.trans hring)
      have hb := returned_cross_bank (n := n.val) hcross
      rw [Core.pc, hb, returned_cross hcross, htile, hvsu]
      refine ⟨rfl, rfl, rfl, fun h => absurd h hsame, fun _ => ⟨?_, ?_, fun j hj => ?_⟩, rfl, rfl⟩
      · rw [returnedBank, hbanks, hsrc]
      · have hne : c.ring ≠ src := fun h => hsame h.symm
        rw [Four_get_set, hsrc, if_neg hne, Four_get_set, hring, if_pos rfl]
      · exact entry_of_cache_tops (congrArg Bank.ds hb) hj

end Sys2Proof.Proofs
end

section
/-!
PROOFS. Tile instructions at issue (O22): the shapes that R69 and R71 accept, the one way that the rows of R77 issue (R74, R85, R89),
TSYNC, and the shape words of TCFG (R73, R76).
-/
namespace Sys2Proof.Proofs
open Sys2Proof Sys2Proof.Machine Sys2Proof.Stated Sys2Proof.Laws

/-! ### Writes to a sparse map -/

/-- Values written at keys of their own: every key named holds its value, and every other keeps its own. -/
theorem mget_foldl_mput {α β : Type} (d : α) (key : β → Nat) (val : β → α) {l : List β} (hnd : (l.map key).Nodup) (m : List (Nat × α)) :
    (∀ x ∈ l, mget d (l.foldl (fun m x => mput m (key x) (val x)) m) (key x) = val x)
      ∧ ∀ n, n ∉ l.map key → mget d (l.foldl (fun m x => mput m (key x) (val x)) m) n = mget d m n := by
  induction l generalizing m with
  | nil => exact ⟨fun _ h => absurd h List.not_mem_nil, fun _ _ => rfl⟩
  | cons y l ih =>
    rw [List.map_cons, List.nodup_cons] at hnd
    obtain ⟨hset, hkeep⟩ := ih hnd.2 (mput m (key y) (val y))
    refine ⟨List.forall_mem_cons.mpr ⟨?_, hset⟩, fun n hn => ?_⟩
    · rw [List.foldl_cons, hkeep _ hnd.1, mget_mput, if_pos rfl]
    · rw [List.map_cons, List.mem_cons, not_or] at hn
      rw [List.foldl_cons, hkeep _ hn.2, mget_mput, if_neg hn.1]

/-! ### What a core's instruction leaves that moves no stack -/

/-- A stack effect stands in every state with the same bank and the same memory behind the stacks. -/
theorem stacked_of_bank {s t u : State} {k : Nat} {x : Stk} {n : Nat} {r : List Word} (h : Stacked s t k x n r)
    (hbank : (u.core k).bank = (t.core k).bank) (hget : ∀ a, u.stackGet k a = t.stackGet k a) : Stacked s u k x n r := by
  have hentry (i : Nat) : u.entry k x i = t.entry k x i := by simp only [State.entry, State.stackEntry, hbank, hget]
  simpa only [Stacked, hbank, hentry] using h

theorem entry_of_tops (s : State) (k n : Nat) {i : Nat} (hi : i < n) : (s.tops k n)[i]? = some (s.entry k .data i) := by
  simp [State.tops, State.stackTop, State.entry, hi]

theorem fetched_pc {s t : State} (h : Fetched s t) (k : Nat) : (t.core k).pc = (s.core k).pc := congrArg Bank.pc (h.bank k)

theorem fetched_tile {s t : State} (h : Fetched s t) (k : Nat) : (t.core k).tile = (s.core k).tile := by rw [h.2 k]

theorem waitsAt_waitAt {s f : State} {k : CoreId} (hf : Fetched s f) (i : Instr) : WaitsAt s (f.waitAt k.val i) k i := by
  rw [WaitsAt, State.waitAt, modCore_core, if_pos rfl]
  exact ⟨rfl, fetched_pc hf k.val, hf.bank k.val⟩

/-! ### An instruction that pops its operands, changes its core and goes on -/

theorem stackEffect_pc (s : State) (k : Nat) (x : Stk) (n : Nat) (r : List Word) : ((s.stackEffect k x n r).core k).pc = (s.core k).pc := by
  rw [Core.pc, stackEffect_bank, withStack_pc]
  rfl

theorem modCore_stackGet (s : State) (k : Nat) (g : Core → Core) (j a : Nat) : (s.modCore k g).stackGet j a = s.stackGet j a := rfl

/-- The operands leave the data stack, the core changes as g says, and execution goes on behind the instruction. -/
def popAdvance (s : State) (k n len : Nat) (g : Core → Core) : State := ((s.stackEffect k .data n []).modCore k g).advance k len

section
variable (s : State) (k n len : Nat) {g : Core → Core}

theorem popAdvance_tile : ((popAdvance s k n len g).core k).tile = (g ((s.stackEffect k .data n []).core k)).tile := by
  rw [popAdvance, State.advance, modCore_core, if_pos rfl, modCore_core, if_pos rfl]
  rfl

variable (hg : ∀ c, (g c).bank = c.bank)
include hg

theorem popAdvance_stacked : Stacked s (popAdvance s k n len g) k .data n [] := by
  have hpopped : Stacked s (s.stackEffect k .data n []) k .data n [] := stackEffect_stacked s k .data n [] (Nat.zero_le _) (Nat.zero_le _)
  rw [popAdvance, advance_jump]
  refine stacked_jump (stacked_of_bank hpopped ?_ (modCore_stackGet _ k g k)) _
  rw [modCore_core, if_pos rfl, hg]

theorem popAdvance_pc : ((popAdvance s k n len g).core k).pc = (s.core k).pc + BitVec.ofNat 64 len := by
  rw [popAdvance, advance_jump, jump_pc, modCore_core, if_pos rfl, Core.pc, hg, ← Core.pc, stackEffect_pc]

end

/-! ### Shapes -/

theorem tswIllegal_of_legal {w : Nat} (h : LegalShape w) : tswIllegal w = none := by
  obtain ⟨hv, h13, h20, hcols⟩ := h
  have hv : w / 2 ^ 23 % 2 = 1 := by simpa [Nat.testBit_eq_decide_div_mod_eq] using hv
  have hcode : w / 2 ^ 16 % 16 < 12 := by
    by_contra hge
    rw [largestCols, List.getD_eq_default _ _ (by simpa using hge)] at hcols
    omega
  rw [tswIllegal, if_neg (by omega), if_neg (by omega)]

/-- A row that fits a register's 64 bytes has no more elements than its format's largest shape (R69, R71). -/
theorem largestCols_of_rowBytes {code c : Nat} {f : Fmt} (hf : Fmt.ofCode code = some f) (hne : f ≠ .afx128) (h : f.rowBytes c ≤ 64) :
    c ≤ largestCols code := by
  have hcode : code < 12 := by
    by_contra hge
    rcases Nat.eq_or_lt_of_le (Nat.le_of_not_lt hge) with rfl | hlt
    · exact hne (by simpa [Fmt.ofCode] using hf.symm)
    · obtain ⟨d, rfl⟩ : ∃ d, code = d + 13 := ⟨code - 13, by omega⟩
      cases hf
  interval_cases code <;> cases hf <;> simp [Fmt.rowBytes, Fmt.width, ceilDiv] at h <;> simp [largestCols] <;> omega

/-- The words that spell a shape are the legal ones (R69). -/
theorem tswShape_isSome_iff {w : Nat} : (tswShape w).isSome = true ↔ LegalShape w := by
  refine ⟨fun h => ?_, fun h => by rw [tswShape_of_legal h]; rfl⟩
  unfold tswShape at h
  split at h
  case isTrue => cases h
  case isFalse hwell =>
    have hv : w.testBit 23 = true := by
      rw [Nat.testBit_eq_decide_div_mod_eq, decide_eq_true_eq]
      omega
    split at h
    case h_1 => cases h
    case h_2 => cases h
    case h_3 f hne hf =>
      dsimp only at h
      split at h
      case isTrue hle => exact ⟨hv, by omega, by omega, largestCols_of_rowBytes hf hne hle⟩
      case isFalse => cases h

/-- TCFG accepts 0 and the words that spell a shape (R73). -/
theorem tcfgOk_iff {w : Word} : tcfgOk w = true ↔ w = 0 ∨ (LegalShape w.toNat ∧ w.toNat < 2 ^ 24) := by
  simp [tcfgOk, tswShape_isSome_iff, and_comm]

/-- A legal shape word passes an operand's shape checks (R85). -/
theorem shapeCheck_of_legal {c : Core} {t : Nat} {shp : Option Nat} (h : LegalShape (c.shapeWord t shp)) :
    c.shapeCheck t shp = .ok (shapeOf (c.shapeWord t shp)) := by
  have hv : c.shapeWord t shp / 2 ^ 23 % 2 = 1 := by simpa [Nat.testBit_eq_decide_div_mod_eq] using h.1
  have hset : (shp.isNone && c.shapeWord t shp / 2 ^ 23 % 2 = 0) = false := by rw [hv]; simp
  simp only [Core.shapeCheck, hset, Bool.false_eq_true, if_false, tswShape_of_legal h]

/-! ### Issue (R74, R85, R89) -/

/-- A tile instruction's encoding is legal off the maltster where its prefix is what the mode asks for and spells legal shapes (R71). -/
theorem tileIllegal_of_moded {tmode shaped : Bool} {d : Option Disp} {shp : List (BitVec 24)} (hmode : shaped = true → shp.isEmpty = tmode)
    (hlegal : ∀ w ∈ shp, LegalShape w.toNat) : tileIllegal false tmode d shaped shp = none := by
  have hshaped : (shaped && (tmode == !shp.isEmpty)) = false := by
    cases shaped with
    | false => rfl
    | true => rw [hmode rfl]; cases tmode <;> rfl
  unfold tileIllegal
  simp only [hshaped, Bool.or_false, Bool.false_eq_true, if_false]
  match shp with
  | [] => rfl
  | [a] => simp [tswIllegal_of_legal (hlegal a (by simp))]
  | a :: b :: _ => simp [tswIllegal_of_legal (hlegal a (by simp)), tswIllegal_of_legal (hlegal b (by simp))]

/-- TMMA's own checks, and the operation that it queues (R80, R81). -/
def tmmaQueued (a : Fin 2) (ta tb : Fin 8) (sa sb : Option Nat) (c : Core) (ops : List Word) : Except TileFail TileOp :=
  match c.shapeCheck ta.val sa, c.shapeCheck tb.val sb with
  | .error f, _ => .error f
  | _, .error f => .error f
  | .ok x, .ok y =>
    match mmaCheck x y (nth ops 0) with
    | some f => .error f
    | none => .ok (.tmma a.val ta.val tb.val (c.shapeWord ta.val sa) (c.shapeWord tb.val sb) (nth ops 0))

theorem tmmaQueued_of_legal {a : Fin 2} {ta tb : Fin 8} {sa sb : Option Nat} {c : Core} {ops : List Word}
    (ha : LegalShape (c.shapeWord ta.val sa)) (hb : LegalShape (c.shapeWord tb.val sb))
    (hcheck : mmaCheck (shapeOf (c.shapeWord ta.val sa)) (shapeOf (c.shapeWord tb.val sb)) (nth ops 0) = none) :
    tmmaQueued a ta tb sa sb c ops
      = .ok (.tmma a.val ta.val tb.val (c.shapeWord ta.val sa) (c.shapeWord tb.val sb) (nth ops 0)) := by
  simp only [tmmaQueued, shapeCheck_of_legal ha, shapeCheck_of_legal hb, hcheck]

/-- The words of TMMA's shape prefix. -/
def tmmaPrefix (shp : Option (BitVec 24 × BitVec 24)) : List (BitVec 24) :=
  match shp with
  | some x => [x.1, x.2]
  | none => []

theorem execTmma_eq (k : CoreId) (a : Fin 2) (ta tb : Fin 8) (shp : Option (BitVec 24 × BitVec 24)) (s : State) :
    execTmma k a ta tb shp s = tileIssue k (.tmma k a ta tb shp) none true (tmmaPrefix shp) 1
      (tmmaQueued a ta tb (shpNat (shp.map (·.1))) (shpNat (shp.map (·.2)))) s := by
  cases shp <;> rfl

/-- How a row of R77 issues: as a tile instruction with its operands' prefix, whose own checks, once they pass, give the row's operation. -/
structure IssuesAs (i : Instr) (r : TileRow) (s : State) (d : Option Disp) (shaped : Bool) (shp : List (BitVec 24))
    (mk : Core → List Word → Except TileFail TileOp) : Prop where
  exec : exec i s = tileIssue r.k i d shaped shp r.pops mk s
  mode : r.moded s → shaped = true → shp.isEmpty = (s.core r.k.val).tmode
  legal : (∀ x ∈ r.shaped, ∀ w, x.2 = some w → LegalShape w.toNat) → ∀ w ∈ shp, LegalShape w.toNat
  op : ∀ (c : Core) (ops : List Word), c.tile = (s.core r.k.val).tile → ops.length = r.pops → (∀ w ∈ r.words s, LegalShape w) →
    r.ok (r.words s) ops.reverse = true → mk c ops = .ok (r.op (r.words s) ops.reverse)

/-- The word an operand issues under, as a row's words give it. -/
theorem shapeWord_of_tile {c c' : Core} (h : c'.tile = c.tile) (t : Nat) (shp : Option (BitVec 24)) :
    (shp.map (·.toNat)).getD (mget 0 c.tile.shapes t) = c'.shapeWord t (shpNat shp) := by
  rw [Core.shapeWord, h]
  rfl

/-- The words of a row with one shaped operand. -/
theorem oneShaped_words {r : TileRow} {s : State} {c : Core} (htile : c.tile = (s.core r.k.val).tile) {t : Fin 8} {shp : Option (BitVec 24)}
    (hshaped : r.shaped = [(t, shp)] := by rfl) : r.words s = [c.shapeWord t.val (shpNat shp)] := by
  simp only [TileRow.words, hshaped, List.map_cons, List.map_nil, shapeWord_of_tile htile]

/-- One shaped operand: its prefix is the one word, or none. -/
theorem shp_mode {t : Fin 8} {shp : Option (BitVec 24)} {tmode : Bool}
    (h : ∀ x ∈ [(t, shp)], x.2.isSome = !tmode) : shp.toList.isEmpty = tmode := by
  have h := h _ (List.mem_singleton_self _)
  cases shp <;> cases tmode <;> simp_all

theorem shp_legal {t : Fin 8} {shp : Option (BitVec 24)} (h : ∀ x ∈ [(t, shp)], ∀ w, x.2 = some w → LegalShape w.toNat) :
    ∀ w ∈ shp.toList, LegalShape w.toNat :=
  fun w hw => h _ (List.mem_singleton_self _) w (Option.mem_toList.mp hw)

theorem exists_ok_of_isOk {ε α : Type} {x : Except ε α} (h : x.isOk = true) : ∃ a, x = .ok a := by
  cases x with
  | ok a => exact ⟨a, rfl⟩
  | error e => cases h

theorem tileRow77_issuesAs {i : Instr} {r : TileRow} (h : tileRow77 i = some r) (s : State) :
    ∃ d shaped shp mk, IssuesAs i r s d shaped shp mk := by
  unfold tileRow77 at h
  split at h
  case h_10 => cases h
  all_goals cases h
  case h_1 k t d shp =>
    refine ⟨some d, true, shp.toList, _, by change execTld k t d shp s = _; rfl, fun h _ => shp_mode h, shp_legal,
      fun c ops htile hlen hw _ => ?_⟩
    obtain ⟨a, b, rfl⟩ := List.length_eq_two.mp hlen
    rw [oneShaped_words htile] at hw ⊢
    rw [shapeCheck_of_legal (hw _ (List.mem_singleton_self _))]
    rfl
  case h_2 k t d shp =>
    refine ⟨some d, true, shp.toList, _, by change execTst k t d shp s = _; rfl, fun h _ => shp_mode h, shp_legal,
      fun c ops htile hlen hw _ => ?_⟩
    obtain ⟨a, b, rfl⟩ := List.length_eq_two.mp hlen
    rw [oneShaped_words htile] at hw ⊢
    rw [shapeCheck_of_legal (hw _ (List.mem_singleton_self _))]
    rfl
  case h_3 k t =>
    exact ⟨none, false, [], _, by change execTzero k (.tile t) s = _; rfl, fun _ h => absurd h (by decide), fun _ _ h => absurd h (by simp),
      fun _ _ _ _ _ _ => rfl⟩
  case h_4 k a =>
    exact ⟨none, false, [], _, by change execTzero k (.acc a) s = _; rfl, fun _ h => absurd h (by decide), fun _ _ h => absurd h (by simp),
      fun _ _ _ _ _ _ => rfl⟩
  case h_5 k a ta tb shp =>
    refine ⟨none, true, tmmaPrefix shp, _, execTmma_eq k a ta tb shp s, fun h _ => ?_, fun h => ?_, fun c ops htile hlen hw hok => ?_⟩
    · have h := h _ List.mem_cons_self
      cases shp <;> simp_all [tmmaPrefix]
    · rcases shp with _ | ⟨x, y⟩
      · exact fun _ hmem => absurd hmem List.not_mem_nil
      · exact List.forall_mem_cons.mpr ⟨h _ List.mem_cons_self x rfl, List.forall_mem_singleton.mpr (h _ (.tail _ (.head _)) y rfl)⟩
    · obtain ⟨x, rfl⟩ := List.length_eq_one_iff.mp hlen
      simp only [TileRow.words, List.map_cons, List.map_nil, List.forall_mem_cons, List.not_mem_nil, shapeWord_of_tile htile] at hw hok ⊢
      obtain ⟨hwa, hwb, -⟩ := hw
      exact tmmaQueued_of_legal hwa hwb (Option.isNone_iff_eq_none.mp hok)
  case h_6 k a d =>
    refine ⟨some d, false, [], _, by change execTsta k a d s = _; rfl, fun _ h => absurd h (by decide), fun _ _ h => absurd h (by simp),
      fun c ops _ hlen _ hok => ?_⟩
    match ops, hlen with
    | [sig, key, x, y, z], _ =>
      have hok : (rdCheck sig true).isOk = true := hok
      obtain ⟨p, hp⟩ := exists_ok_of_isOk hok
      simp only [nth, List.getD_cons_zero, hp]
      rfl
  case h_7 k t a shp =>
    refine ⟨none, true, shp.toList, _, by change execTcva k t a shp s = _; rfl, fun h _ => shp_mode h, shp_legal,
      fun c ops htile hlen hw hok => ?_⟩
    obtain ⟨x, y, z, rfl⟩ := List.length_eq_three.mp hlen
    rw [oneShaped_words htile] at hw hok ⊢
    rw [shapeCheck_of_legal (hw _ (List.mem_singleton_self _))]
    have hok : (decide ((shapeOf (c.shapeWord t.val (shpNat shp))).cols ≤ 64) && (shapeOf (c.shapeWord t.val (shpNat shp))).fmt != .e8m0
      && (rdCheck x false).isOk) = true := hok
    rw [Bool.and_eq_true, Bool.and_eq_true, decide_eq_true_eq, bne_iff_ne] at hok
    obtain ⟨⟨hcols, hfmt⟩, hrd⟩ := hok
    obtain ⟨p, hp⟩ := exists_ok_of_isOk hrd
    have hwell : (decide (64 < (shapeOf (c.shapeWord t.val (shpNat shp))).cols) || (shapeOf (c.shapeWord t.val (shpNat shp))).fmt == .e8m0)
        = false := by simpa using ⟨hcols, hfmt⟩
    simp only [nth, List.getD_cons_zero, hp, hwell]
    rfl
  case h_8 k a d =>
    refine ⟨some d, false, [], _, by change execTspill k a d s = _; rfl, fun _ h => absurd h (by decide), fun _ _ h => absurd h (by simp),
      fun c ops _ hlen _ _ => ?_⟩
    obtain ⟨x, rfl⟩ := List.length_eq_one_iff.mp hlen
    rfl
  case h_9 k a d =>
    refine ⟨some d, false, [], _, by change execTfill k a d s = _; rfl, fun _ h => absurd h (by decide), fun _ _ h => absurd h (by simp),
      fun c ops _ hlen _ _ => ?_⟩
    obtain ⟨x, rfl⟩ := List.length_eq_one_iff.mp hlen
    rfl

section
variable {k : CoreId} {i : Instr} {d : Option Disp} {shaped : Bool} {shp : List (BitVec 24)} {n : Nat}
  {mk : Core → List Word → Except TileFail TileOp} {s f : State}

/-- The core with an instruction at the end of its tile queue and its issue count advanced (R74). -/
def enqueued (op : TileOp) (c : Core) : Core :=
  { c with stamp := c.stamp + 1,
           tile := { c.tile with queue := c.tile.queue ++ [{ op := op, iaddr := c.pc, ring := c.ring, stamp := c.stamp }] } }

theorem enqueued_bank (op : TileOp) (c : Core) : (enqueued op c).bank = c.bank := rfl

theorem popAdvance_enqueued_tile (s : State) (k n len : Nat) (op : TileOp) :
    ((popAdvance s k n len (enqueued op)).core k).tile = { (s.core k).tile with
      queue := (s.core k).tile.queue ++ [{ op := op, iaddr := (s.core k).pc, ring := (s.core k).ring, stamp := (s.core k).stamp }] } := by
  rw [popAdvance_tile, enqueued, stackEffect_pc, (stackFrame_effect s k .data n []).2.2.1]
  rfl

/-- A tile instruction that runs on a legal encoding meets the frozen entries, then the queue's room, then its own checks. -/
theorem tileIssue_runs (hf : s.fetched k.val (instrBytes i).length = f) (hr : s.Runs k.val (instrBytes i).length)
    (hfits : s.Fits k.val .data n 0) (hlegal : tileIllegal (k.val == maltsterCore) (s.core k.val).tmode d shaped shp = none) :
    tileIssue k i d shaped shp n mk s =
      if !(f.core k.val).tile.frozen.isEmpty then .next (f.tileIssueFault k.val (tileConfig 0x16 0))
      else if (f.core k.val).tile.depth ≤ (f.core k.val).tile.queue.length then .next (f.waitAt k.val i)
      else match mk (f.core k.val) (f.tops k.val n) with
        | .error e => .next (f.tileIssueFault k.val e)
        | .ok op => .next (popAdvance f k.val n (instrBytes i).length (enqueued op)) := by
  have h3 : (s.core k.val).ring.val ≤ 3 := Nat.le_of_lt_succ (s.core k.val).ring.isLt
  subst hf
  unfold tileIssue
  rw [coreInstr_runs k _ _ s hr hlegal h3 hfits (fits_zero s k.val .ret)]
  rfl

end

theorem depth_eq_queueRoom (u : Tile) : u.depth = queueRoom u.iqd := by
  rw [Tile.depth, queueRoom]
  rcases u.iqd with _ | _ | n
  · rfl
  · rfl
  · cases n <;> rfl

/-- A fault found at issue writes TU_FINFO and is raised with the stacks as they were (R87). -/
theorem tileIssueFault_eq {s f : State} {k : Nat} (hf : Fetched s f) (cause idx : Nat) :
    ∃ g : State, f.tileIssueFault k (tileConfig cause idx) = g.raise k { code := 0x09, cause := cause } ∧ (g.core k).bank = (s.core k).bank
      ∧ (g.core k).tile = { (s.core k).tile with
          finfo := { (s.core k).tile.finfo with cause := cause, idx := idx, wr := false, iaddr := (s.core k).pc.toNat } } := by
  refine ⟨_, rfl, ?_, ?_⟩
  · rw [modCore_core, if_pos rfl]
    exact hf.bank k
  · rw [modCore_core, if_pos rfl, fetched_pc hf]
    dsimp only
    rw [fetched_tile hf]
    rfl

/-- TSYNC completes on an empty queue and waits otherwise (R76). -/
theorem exec_tsync {k : CoreId} {s : State} (hready : Ready s k (.tsync k) 0 0) (hk : k.val ≠ maltsterCore) :
    exec (.tsync k) s =
      if ((fetchOf s k (.tsync k)).core k.val).tile.queue.isEmpty then .next ((fetchOf s k (.tsync k)).advance k.val (instrBytes (.tsync k)).length)
      else .next ((fetchOf s k (.tsync k)).waitAt k.val (.tsync k)) := by
  have h3 : (s.core k.val).ring.val ≤ 3 := Nat.le_of_lt_succ (s.core k.val).ring.isLt
  change execTsync k s = _
  unfold execTsync
  rw [coreInstr_runs k _ _ s hready.1 (if_neg hk) h3 (fits_zero s k.val .data) (fits_zero s k.val .ret)]
  rfl

/-! The shape registers that TCFG names and the words it pops. -/

theorem maskRegs_nodup (mask : BitVec 8) : (maskRegs mask).Nodup := List.nodup_range.filter _

section
variable (f : State) (k : Nat) (rs : List Nat)

theorem map_fst_zip_tops : (rs.zip (f.tops k rs.length)).map Prod.fst = rs :=
  List.map_fst_zip (by simp [State.tops, State.stackTop])

theorem zip_tops_getElem? {n : Nat} (hn : n < rs.length) :
    (rs.zip (f.tops k rs.length))[n]? = some (rs.getD n 0, f.entry k .data n) := by
  rw [List.getElem?_zip_eq_some]
  exact ⟨by rw [List.getD_eq_getElem _ _ hn, List.getElem?_eq_getElem hn], entry_of_tops f k rs.length hn⟩

/-- The first of the popped words that TCFG does not accept, with its register. -/
theorem zip_tops_find? {n : Nat} (hn : n < rs.length) (hbad : tcfgOk (f.entry k .data n) = false)
    (hfirst : ∀ m < n, tcfgOk (f.entry k .data m) = true) :
    (rs.zip (f.tops k rs.length)).find? (fun x => !tcfgOk x.2) = some (rs.getD n 0, f.entry k .data n) := by
  obtain ⟨hlt, hget⟩ := List.getElem?_eq_some_iff.mp (zip_tops_getElem? f k rs hn)
  refine List.find?_eq_some_iff_getElem.mpr ⟨by simp [hbad], n, hlt, hget, fun m hm => ?_⟩
  obtain ⟨hlt', hget'⟩ := List.getElem?_eq_some_iff.mp (zip_tops_getElem? f k rs (hm.trans hn))
  simp [hget', hfirst m hm]

theorem zip_tops_find?_none (hok : ∀ n < rs.length, tcfgOk (f.entry k .data n) = true) :
    (rs.zip (f.tops k rs.length)).find? (fun x => !tcfgOk x.2) = none := by
  refine List.find?_eq_none.mpr fun x hx => ?_
  obtain ⟨n, hn, rfl⟩ := List.getElem_of_mem hx
  have hlt : n < rs.length := Nat.lt_of_lt_of_le hn (by rw [List.length_zip]; exact min_le_left _ _)
  obtain ⟨_, hget⟩ := List.getElem?_eq_some_iff.mp (zip_tops_getElem? f k rs hlt)
  rw [hget, hok n hlt]
  decide

end

/-- The shape words written to the registers that TCFG names. -/
def withShapes (ws : List (Nat × Word)) (c : Core) : Core :=
  { c with tile := { c.tile with shapes := ws.foldl (fun m x => mput m x.1 x.2.toNat) c.tile.shapes } }

theorem withShapes_bank (ws : List (Nat × Word)) (c : Core) : (withShapes ws c).bank = c.bank := rfl

theorem popAdvance_withShapes_tile (s : State) (k n len : Nat) (ws : List (Nat × Word)) :
    ((popAdvance s k n len (withShapes ws)).core k).tile = { (s.core k).tile with
      shapes := ws.foldl (fun m x => mput m x.1 x.2.toNat) (s.core k).tile.shapes } := by
  rw [popAdvance_tile, withShapes, (stackFrame_effect s k .data n []).2.2.1]
  rfl

section
variable {k : CoreId} {mask : BitVec 8} {s f : State} (hf : fetchOf s k (.tcfg k mask) = f)
  (hready : Ready s k (.tcfg k mask) (maskRegs mask).length 0) (hk : k.val ≠ maltsterCore) (hfrozen : (f.core k.val).tile.frozen = [])
include hf hready hk hfrozen

/-- TCFG waits for the queue, then writes what its words say where it accepts each of them (R73). -/
theorem exec_tcfg :
    exec (.tcfg k mask) s =
      if !(f.core k.val).tile.queue.isEmpty then .next (f.waitAt k.val (.tcfg k mask))
      else
        match ((maskRegs mask).zip (f.tops k.val (maskRegs mask).length)).find? (fun x => !tcfgOk x.2) with
        | some x => .next (f.tileIssueFault k.val (tileConfig 0x12 x.1))
        | none => .next (popAdvance f k.val (maskRegs mask).length (instrBytes (.tcfg k mask)).length
            (withShapes ((maskRegs mask).zip (f.tops k.val (maskRegs mask).length)))) := by
  have h3 : (s.core k.val).ring.val ≤ 3 := Nat.le_of_lt_succ (s.core k.val).ring.isLt
  have hempty : ¬(!(f.core k.val).tile.frozen.isEmpty) = true := by rw [hfrozen]; decide
  subst hf
  change execTcfg k mask s = _
  unfold execTcfg
  rw [coreInstr_runs k _ _ s hready.1 (if_neg hk) h3 hready.2 (fits_zero s k.val .ret)]
  exact (if_neg hempty).trans rfl

theorem exec_tcfg_waits (hqueue : (f.core k.val).tile.queue ≠ []) : exec (.tcfg k mask) s = .next (f.waitAt k.val (.tcfg k mask)) := by
  rw [exec_tcfg hf hready hk hfrozen, if_pos (by simpa using hqueue)]

variable (hqueue : (f.core k.val).tile.queue = [])
include hqueue

theorem exec_tcfg_writes (hok : ∀ n < (maskRegs mask).length, tcfgOk (f.entry k.val .data n) = true) :
    exec (.tcfg k mask) s = .next (popAdvance f k.val (maskRegs mask).length (instrBytes (.tcfg k mask)).length
      (withShapes ((maskRegs mask).zip (f.tops k.val (maskRegs mask).length)))) := by
  rw [exec_tcfg hf hready hk hfrozen, hqueue, if_neg (by decide), zip_tops_find?_none f k.val _ hok]

theorem exec_tcfg_refused {n : Nat} (hn : n < (maskRegs mask).length) (hbad : tcfgOk (f.entry k.val .data n) = false)
    (hfirst : ∀ m < n, tcfgOk (f.entry k.val .data m) = true) :
    exec (.tcfg k mask) s = .next (f.tileIssueFault k.val (tileConfig 0x12 ((maskRegs mask).getD n 0))) := by
  rw [exec_tcfg hf hready hk hfrozen, hqueue, if_neg (by decide), zip_tops_find? f k.val _ hn hbad hfirst]

end

/-- Settles O22: the rows of R77 issue in one way, TSYNC looks at its queue alone, and TCFG writes each word that it accepts. -/
theorem tileInstructionsIssue : Obligations.TileInstructionsIssue := by
  unfold Obligations.TileInstructionsIssue
  refine ⟨?_, ?_, ?_⟩
  · intro i r s hrow k u f hr hfits hk hmoded hprefix
    obtain ⟨d, shaped, shp, mk, hissue⟩ := tileRow77_issuesAs hrow s
    have hfetched : Fetched s f := fetched_fetched s k _
    have hcore := hfetched.2 k
    have htile : (f.core k).tile = u := fetched_tile hfetched k
    have hrun := tileIssue_runs (d := d) (mk := mk) (f := f) rfl hr hfits
      (by rw [beq_false_of_ne hk]; exact tileIllegal_of_moded (hissue.mode hmoded) (hissue.legal hprefix))
    rw [← hissue.exec, htile, depth_eq_queueRoom] at hrun
    refine ⟨fun hfrozen hroom hwords hok => ?_, fun hfrozen hfull => ?_, fun hfrozen => ?_⟩
    · have hmk := hissue.op (f.core k) (f.tops k r.pops) htile (by simp [State.tops, State.stackTop]) hwords hok
      rw [hfrozen, if_neg (by decide), if_neg (Nat.not_le.mpr hroom), hmk] at hrun
      refine ⟨_, hrun, popAdvance_stacked f k r.pops _ (enqueued_bank _), ?_, ?_⟩
      · rw [popAdvance_pc _ _ _ _ (enqueued_bank _), fetched_pc hfetched]
        rfl
      · rw [popAdvance_enqueued_tile, htile, fetched_pc hfetched, hcore]
        rfl
    · rw [hfrozen, if_neg (by decide), if_pos hfull] at hrun
      exact ⟨_, hrun, waitsAt_waitAt hfetched i⟩
    · rw [if_pos (by simpa using hfrozen)] at hrun
      obtain ⟨g, hg, hbank, hgtile⟩ := tileIssueFault_eq hfetched 0x16 0
      exact ⟨g, hrun.trans (congrArg _ hg), hbank, hgtile⟩
  · intro k s hready hk
    have hfetched : Fetched s (fetchOf s k (.tsync k)) := fetched_fetched s k.val _
    have htile : ((fetchOf s k (.tsync k)).core k.val).tile = (s.core k.val).tile := fetched_tile hfetched k.val
    have hrun := exec_tsync hready hk
    rw [htile] at hrun
    refine ⟨fun hempty => ?_, fun hne => ?_⟩
    · rw [hempty, if_pos (by rfl), advance_jump] at hrun
      refine ⟨_, hrun, ?_, ?_⟩
      · rw [jump_pc, fetched_pc hfetched]
        rfl
      · rw [State.jump, modCore_core, if_pos rfl]
        exact htile
    · rw [if_neg (by simpa using hne)] at hrun
      exact ⟨_, hrun, waitsAt_waitAt hfetched _⟩
  · intro k mask s i rs u f ok hready hk hfrozen
    have hfetched : Fetched s f := fetched_fetched s k.val _
    have htile : (f.core k.val).tile = u := fetched_tile hfetched k.val
    have hok (n : Nat) : ok n ↔ tcfgOk (f.entry k.val .data n) = true := tcfgOk_iff.symm
    have hfrozen' : (f.core k.val).tile.frozen = [] := htile.symm ▸ hfrozen
    refine ⟨fun hempty hall => ?_, fun n hempty hn hbad hfirst => ?_, fun hne => ?_⟩
    · obtain ⟨hset, hkeep⟩ := mget_foldl_mput 0 Prod.fst (fun x => x.2.toNat) (l := rs.zip (f.tops k.val rs.length))
        (by rw [map_fst_zip_tops]; exact maskRegs_nodup mask) u.shapes
      have hwritten : exec i s = .next (popAdvance f k.val rs.length (instrBytes i).length (withShapes (rs.zip (f.tops k.val rs.length)))) :=
        exec_tcfg_writes rfl hready hk hfrozen' (htile.symm ▸ hempty) (fun n hn => (hok n).mp (hall n hn))
      have hshaped := popAdvance_withShapes_tile f k.val rs.length (instrBytes i).length (rs.zip (f.tops k.val rs.length))
      rw [htile] at hshaped
      refine ⟨_, hwritten, popAdvance_stacked f k.val rs.length _ (withShapes_bank _), ?_, fun n hn => ?_, fun n hn => ?_, ?_⟩
      · rw [popAdvance_pc _ _ _ _ (withShapes_bank _)]
        exact congrArg (· + _) (fetched_pc hfetched k.val)
      · rw [hshaped]
        exact hset _ (List.mem_of_getElem? (zip_tops_getElem? f k.val rs hn))
      · rw [hshaped]
        exact hkeep n (by rwa [map_fst_zip_tops])
      · rw [hshaped]
    · have hrefused := exec_tcfg_refused rfl hready hk hfrozen' (htile.symm ▸ hempty) hn (by rwa [hok, Bool.not_eq_true] at hbad)
        (fun m hm => (hok m).mp (hfirst m hm))
      obtain ⟨g, hg, hbank, hgtile⟩ := tileIssueFault_eq hfetched 0x12 (rs.getD n 0)
      exact ⟨g, hrefused.trans (congrArg _ hg), hbank, hgtile⟩
    · exact ⟨_, exec_tcfg_waits rfl hready hk hfrozen' (htile.symm ▸ hne), waitsAt_waitAt hfetched _⟩

end Sys2Proof.Proofs
end

section
/-!
PROOFS. Completed tile instructions (O23): what registers and accumulators hold after rows and regions are written, what memory holds
after rows are stored, and the sum that TMMA accumulates into an element of class N (R54, R75, R78 to R86, R90).
-/
namespace Sys2Proof.Proofs
open Sys2Proof Sys2Proof.Machine Sys2Proof.Stated Sys2Proof.Laws

/-! ### Tile registers and accumulators -/

/-- Keys that do not pass are dropped from a sparse map, and the others keep their values. -/
theorem mget_filter {α : Type} (d : α) (p : Nat → Bool) (m : List (Nat × α)) (n : Nat) :
    mget d (m.filter (fun e => p e.1)) n = if p n then mget d m n else d := by
  induction m with
  | nil => simp [mget]
  | cons e m ih =>
    obtain ⟨key, v⟩ := e
    by_cases hkey : key = n
    · subst hkey
      cases hp : p key <;> simp [hp, mget, ih]
    · cases hp : p key <;> simp [hp, mget, ih, hkey]

/-- A byte of a tile register. -/
def regByte (u : Tile) (a r b : Nat) : Byte := mget 0 u.regs (a * 4096 + r * 64 + b)

theorem putRow_regs (u : Tile) (t q : Nat) (bs : List Byte) :
    (u.putRow t q bs).regs = (List.range 64).foldl (fun m b => mput m (t * 4096 + q * 64 + b) (bs.getD b 0)) u.regs := by
  rw [Tile.putRow]

theorem putRow_frame (u : Tile) (t q : Nat) (bs : List Byte) : (u.putRow t q bs).acc = u.acc ∧ (u.putRow t q bs).queue = u.queue := by
  rw [Tile.putRow]
  exact ⟨rfl, rfl⟩

theorem regByte_putRow (u : Tile) (t : Nat) (bs : List Byte) {a q r b : Nat} (hq : q < 64) (hr : r < 64) (hb : b < 64) :
    regByte (u.putRow t q bs) a r b = if a = t ∧ r = q then bs.getD b 0 else regByte u a r b := by
  obtain ⟨hset, hkeep⟩ := mget_foldl_mput 0 (fun b => t * 4096 + q * 64 + b) (fun b => bs.getD b 0) (l := List.range 64)
    (List.nodup_range.map fun _ _ h => Nat.add_left_cancel h) u.regs
  rw [regByte, putRow_regs]
  split
  case isTrue h =>
    obtain ⟨rfl, rfl⟩ := h
    exact hset b (List.mem_range.mpr hb)
  case isFalse h =>
    refine hkeep _ fun hmem => h ?_
    obtain ⟨c, hc, hkey⟩ := List.mem_map.mp hmem
    have hc := List.mem_range.mp hc
    omega

/-- Rows written from row q on. -/
theorem regByte_putRows (u : Tile) (t : Nat) (rows : List (List Byte)) {a q r b : Nat} (hq : q + rows.length ≤ 64) (hr : r < 64) (hb : b < 64) :
    regByte (u.putRows t q rows) a r b
      = if a = t ∧ q ≤ r ∧ r < q + rows.length then (rows.getD (r - q) []).getD b 0 else regByte u a r b := by
  induction rows generalizing u q with
  | nil => rw [if_neg (by simp)]; rfl
  | cons bs rows ih =>
    rw [List.length_cons] at hq ⊢
    rw [Tile.putRows, ih (u.putRow t q bs) (by omega), regByte_putRow u t bs (by omega) hr hb]
    by_cases ha : a = t
    · rcases Nat.lt_trichotomy r q with hlt | rfl | hgt
      · rw [if_neg (by omega), if_neg (by omega), if_neg (by omega)]
      · rw [if_neg (by omega), if_pos ⟨ha, rfl⟩, if_pos (by omega), Nat.sub_self, List.getD_cons_zero]
      · by_cases hend : r < q + 1 + rows.length
        · rw [if_pos (by omega), if_pos (by omega), show r - q = r - (q + 1) + 1 by omega, List.getD_cons_succ]
        · rw [if_neg (by omega), if_neg (by omega), if_neg (by omega)]
    · rw [if_neg (by simp [ha]), if_neg (by simp [ha]), if_neg (by simp [ha])]

/-- Rows leave all of the unit but its registers. -/
theorem putRows_frame (u : Tile) (t q : Nat) (rows : List (List Byte)) :
    (u.putRows t q rows).acc = u.acc ∧ (u.putRows t q rows).queue = u.queue := by
  induction rows generalizing u q with
  | nil => exact ⟨rfl, rfl⟩
  | cons bs rows ih =>
    obtain ⟨hacc, hqueue⟩ := putRow_frame u t q bs
    rw [Tile.putRows, (ih _ _).1, (ih _ _).2]
    exact ⟨hacc, hqueue⟩

/-- The elements of a region of an accumulator written in row-major order. -/
def putGrid (a m n : Nat) (v : Nat × Nat → X96) (u : Tile) : Tile := (grid m n).foldl (fun u p => u.putElem a p.1 p.2 (v p)) u

theorem foldl_putElem_eq (a : Nat) (v : Nat × Nat → X96) (ps : List (Nat × Nat)) (u : Tile) :
    ps.foldl (fun u p => u.putElem a p.1 p.2 (v p)) u
      = { u with acc := ps.foldl (fun m p => mput m (a * 4096 + p.1 * 64 + p.2) (v p)) u.acc } := by
  induction ps generalizing u with
  | nil => rfl
  | cons p ps ih => rw [List.foldl_cons, List.foldl_cons, ih]; rfl

theorem putGrid_eq (a m n : Nat) (v : Nat × Nat → X96) (u : Tile) :
    putGrid a m n v u = { u with acc := (grid m n).foldl (fun m p => mput m (a * 4096 + p.1 * 64 + p.2) (v p)) u.acc } :=
  foldl_putElem_eq a v (grid m n) u

theorem putGrid_frame (a m n : Nat) (v : Nat × Nat → X96) (u : Tile) :
    (putGrid a m n v u).queue = u.queue ∧ (putGrid a m n v u).regs = u.regs := by
  rw [putGrid_eq]
  exact ⟨rfl, rfl⟩

theorem grid_nodup (m n : Nat) : (grid m n).Nodup :=
  List.Nodup.product (List.nodup_range (n := m)) (List.nodup_range (n := n))

theorem elem_putGrid {a m n : Nat} (v : Nat × Nat → X96) (u : Tile) (hm : m ≤ 64) (hn : n ≤ 64) {c r j : Nat} (hr : r < 64) (hj : j < 64) :
    (putGrid a m n v u).elem c r j = if c = a ∧ r < m ∧ j < n then v (r, j) else u.elem c r j := by
  have hkeys : ((grid m n).map (fun p => a * 4096 + p.1 * 64 + p.2)).Nodup := by
    refine List.Nodup.map_on (fun x hx y hy h => ?_) (grid_nodup m n)
    obtain ⟨x1, x2⟩ := x
    obtain ⟨y1, y2⟩ := y
    have hx := mem_grid.mp hx
    have hy := mem_grid.mp hy
    dsimp only at h
    exact Prod.ext (by dsimp only; omega) (by dsimp only; omega)
  obtain ⟨hset, hkeep⟩ := mget_foldl_mput 0 (fun p : Nat × Nat => a * 4096 + p.1 * 64 + p.2) v hkeys u.acc
  rw [putGrid_eq]
  split
  case isTrue h =>
    obtain ⟨rfl, hrm, hjn⟩ := h
    exact hset (r, j) (mem_grid.mpr ⟨hrm, hjn⟩)
  case isFalse h =>
    refine hkeep _ fun hmem => h ?_
    obtain ⟨⟨x, y⟩, hxy, hkey⟩ := List.mem_map.mp hmem
    have hxy := mem_grid.mp hxy
    dsimp only at hkey
    omega

/-! ### Rows stored (R78, R90) -/

theorem writeRows_reached {s : State} {k n : Nat} {ring : Fin 4} {at_ : Nat → Nat} {xs : List ((Nat × Word) × List Byte)}
    (h : ∀ x ∈ xs, RowReached s k ring .write n x.1.2 (at_ x.1.1) ∧ x.2.length = n) (stamp : Nat) :
    ∃ t, s.writeRows k ring stamp none xs = .ok [] t ∧ CellsPlaced s t (rowCells at_ n xs) := by
  induction xs generalizing s with
  | nil => exact ⟨s, rfl, .refl s⟩
  | cons x xs ih =>
    obtain ⟨⟨⟨hrow, hbytes⟩, hlen⟩, hxs⟩ := List.forall_mem_cons.mp h
    obtain ⟨u, hu, hplaced⟩ := tileWrite_of_array (cs := (rangeFrom (at_ x.1.1) n).zip x.2)
      (fun c hc => hbytes c.1 (List.of_mem_zip hc).1) k stamp
    obtain ⟨t, ht, hrest⟩ := ih (fun y hy => ⟨hplaced.rowReached (hxs y hy).1, (hxs y hy).2⟩)
    refine ⟨t, ?_, hplaced.trans hrest⟩
    obtain ⟨⟨i, b⟩, cs⟩ := x
    dsimp only at hlen hrow hu
    rw [State.writeRows, hlen, hrow]
    simp only [findingAt, hu]
    exact ht

theorem placeAt_append (cs ds : List (Nat × Byte)) (s : State) : s.placeAt (cs ++ ds) = (s.placeAt cs).placeAt ds := by
  induction cs generalizing s with
  | nil => rfl
  | cons c cs ih => exact ih _

theorem CellsPlaced.getByte {s t : State} {cs : List (Nat × Byte)} (h : CellsPlaced s t cs) (b : Nat) :
    t.getByte b = (s.placeAt cs).getByte b := by
  rw [State.getByte, h.mem, ← placeAt_mem]
  rfl

/-- The cells of the first m rows that a store writes. -/
def storedCells (at_ : Nat → Nat) (n : Nat) (bs : Nat → List Byte) (m : Nat) : List (Nat × Byte) :=
  (List.range m).flatMap (fun r => (rangeFrom (at_ r) n).zip (bs r))

theorem rowCells_rowAddrs (at_ : Nat → Nat) (n : Nat) (base stride : Word) (bs : Nat → List Byte) (m : Nat) :
    rowCells at_ n ((rowAddrs base stride m).map (fun x => (x, bs x.1))) = storedCells at_ n bs m := by
  simp [rowCells, rowAddrs, storedCells, List.flatMap_map]

theorem storedCells_succ (at_ : Nat → Nat) (n : Nat) (bs : Nat → List Byte) (m : Nat) :
    storedCells at_ n bs (m + 1) = storedCells at_ n bs m ++ (rangeFrom (at_ m) n).zip (bs m) := by
  simp [storedCells, List.range_succ]

theorem rangeFrom_nodup (a n : Nat) : (rangeFrom a n).Nodup := List.nodup_range.map fun _ _ h => Nat.add_left_cancel h

/-- A byte of a row that no later row covers holds what its row stored (R78). -/
theorem placeAt_storedCells {at_ : Nat → Nat} {n m r j : Nat} {bs : Nat → List Byte} (s : State) (hlen : ∀ i < m, (bs i).length = n)
    (hr : r < m) (hj : j < n) (hlast : ∀ i, r < i → i < m → at_ r + j < at_ i ∨ at_ i + n ≤ at_ r + j) :
    (s.placeAt (storedCells at_ n bs m)).getByte (at_ r + j) = (bs r).getD j 0 := by
  induction m with
  | zero => exact absurd hr (Nat.not_lt_zero r)
  | succ m ih =>
    rw [storedCells_succ, placeAt_append]
    rcases Nat.lt_succ_iff_lt_or_eq.mp hr with hlt | rfl
    · rw [placeAt_outside]
      · exact ih (fun i hi => hlen i (Nat.lt_succ_of_lt hi)) hlt (fun i hri hi => hlast i hri (Nat.lt_succ_of_lt hi))
      · intro c hc hcj
        have hrange := mem_rangeFrom.mp (List.of_mem_zip (show (c.1, c.2) ∈ _ from hc)).1
        have hout := hlast m hlt (Nat.lt_succ_self m)
        omega
    · have hcell := placeAt_zip_getByte (rangeFrom_nodup (at_ r) n) (by simp [rangeFrom, hlen r hr]) (s.placeAt (storedCells at_ n bs r))
        (j := j) (by simpa [rangeFrom] using hj) (bs := bs r)
      have haddr : (rangeFrom (at_ r) n).getD j 0 = at_ r + j := by simp [rangeFrom, List.getD_eq_getElem?_getD, List.getElem?_range hj]
      rwa [haddr] at hcell

/-- What a store's first m rows leave in memory: each row's bytes where no later row covers them, and every byte outside the rows. -/
theorem CellsPlaced.stored {s t : State} {at_ : Nat → Nat} {n m : Nat} {bs : Nat → List Byte} (h : CellsPlaced s t (storedCells at_ n bs m))
    (hlen : ∀ i < m, (bs i).length = n) :
    (∀ r j, r < m → j < n → (∀ i, r < i → i < m → at_ r + j < at_ i ∨ at_ i + n ≤ at_ r + j) → t.getByte (at_ r + j) = (bs r).getD j 0)
      ∧ ∀ b, (∀ r < m, b < at_ r ∨ at_ r + n ≤ b) → t.getByte b = s.getByte b := by
  refine ⟨fun r j hr hj hlast => by rw [h.getByte, placeAt_storedCells s hlen hr hj hlast], fun b hb => ?_⟩
  have hcells := rowCells_ne (base := 0) (stride := 0) (bs := bs) hb
  rw [rowCells_rowAddrs] at hcells
  exact h.outside hcells

theorem rowAddrs_take (base stride : Word) {m n : Nat} (h : m ≤ n) : (rowAddrs base stride n).take m = rowAddrs base stride m := by
  rw [rowAddrs, ← List.map_take, List.take_range, Nat.min_eq_left h, rowAddrs]

/-- The first m rows of a store, put in place. -/
theorem writeRows_stored {s : State} {k n rows m : Nat} {ring : Fin 4} {base stride : Word} {at_ : Nat → Nat} {bs : Nat → List Byte}
    (hm : m ≤ rows) (hlen : ∀ i < rows, (bs i).length = n) (hrows : RowsAt s k ring .write base stride rows n at_) (stamp : Nat) :
    ∃ t, s.writeRows k ring stamp none ((rowAddrs base stride m).map (fun x => (x, bs x.1))) = .ok [] t
      ∧ CellsPlaced s t (storedCells at_ n bs m) := by
  rw [← rowCells_rowAddrs at_ n base stride bs m]
  refine writeRows_reached (fun y hy => ?_) stamp
  obtain ⟨x, hx, rfl⟩ := List.mem_map.mp hy
  obtain ⟨i, hi, rfl⟩ := List.mem_map.mp hx
  have hi := (List.mem_range.mp hi).trans_le hm
  exact ⟨rowReached_of_rowsAt hrows _ (List.mem_map.mpr ⟨i, List.mem_range.mpr hi, rfl⟩), hlen i hi⟩

/-- The rows of a store, with their addresses (R78, R84, R86). -/
theorem storedRows_eq {s : State} {k : Nat} {e : TileEntry} {base stride : Word} {rows n : Nat} {bs : Nat → List Byte}
    (h : storedRows (s.core k) e.op = some (base, stride, rows, n, bs)) (hlegal : ∀ a b st w, e.op = .tst a b st w → LegalShape w) :
    s.storedRows k e = some ((rowAddrs base stride rows).map (fun x => (x, bs x.1))) := by
  cases hop : e.op with
  | tst t b st w =>
    have hlegal := tswShape_of_legal (hlegal _ _ _ _ hop)
    rw [hop, storedRows] at h
    simp only [Option.some.injEq, Prod.mk.injEq] at h
    obtain ⟨rfl, rfl, rfl, rfl, rfl⟩ := h
    simp only [State.storedRows, hop, hlegal, Option.map_some, rowBits_eq_cleanRow]
  | tsta a b st sig key rd =>
    rw [hop, storedRows] at h
    cases hrd : rdCheck rd true with
    | error f => simp [hrd] at h
    | ok ox =>
      rw [hrd] at h
      simp only [Option.some.injEq, Prod.mk.injEq] at h
      obtain ⟨rfl, rfl, rfl, rfl, rfl⟩ := h
      simp only [State.storedRows, hop, hrd]
      refine congrArg some (List.map_congr_left fun x hx => ?_)
      obtain ⟨r, hr, rfl⟩ := List.mem_map.mp hx
      simp [outRows, List.mem_range.mp hr]
  | tspill a b disp =>
    rw [hop, storedRows] at h
    split at h
    case isFalse => cases h
    case isTrue halign =>
      simp only [Option.some.injEq, Prod.mk.injEq] at h
      obtain ⟨rfl, rfl, rfl, rfl, rfl⟩ := h
      have hbase : spillBase b disp = .ok (b + disp) := if_neg (not_not.mpr halign)
      simp only [State.storedRows, hop, hbase, Tile.spillRow, bytesOf_eq_leBytes]
  | _ => simp [hop, storedRows] at h

/-! ### Completion (R75, R90) -/

section
variable {s s' : State} {k : CoreId} {e : TileEntry} (hh : TileHead s k e)
include hh

/-- The head of a queue completes with what its execution leaves and its record (R91). -/
theorem exec_tileComplete {found : Option (Nat × Finding)} {r : TileRec} (h : s.tileRun k.val e found = .done s' r) :
    exec (.tileInstructionComplete k { found := found }) s = .next (s'.setCore k.val ((s'.core k.val).tileRecord e r)) := by
  obtain ⟨hq, hrun, hstop, hwait⟩ := hh
  obtain ⟨rest, hq⟩ := List.head?_eq_some_iff.mp hq
  change execTileInstructionComplete k { found := found } s = _
  simp [execTileInstructionComplete, hq, hrun, hstop, hwait, h, State.modCore]

/-- The head of a queue that has come as far as its first rows. -/
theorem exec_tilePart (m : Nat) : exec (.tileInstructionComplete k { rows := some m }) s = .next (s.tilePart k.val e m none) := by
  obtain ⟨hq, hrun, hstop, hwait⟩ := hh
  obtain ⟨rest, hq⟩ := List.head?_eq_some_iff.mp hq
  change execTileInstructionComplete k { rows := some m } s = _
  simp [execTileInstructionComplete, hq, hrun, hstop, hwait]

/-- A completion leaves the registers, the accumulators and the memory of its execution, and its instruction leaves the queue. -/
theorem exec_tileComplete_keeps {r : TileRec} (h : s.tileRun k.val e none = .done s' r) :
    ∃ t, exec (.tileInstructionComplete k {}) s = .next t ∧ (t.core k.val).tile.queue = (s'.core k.val).tile.queue.tail
      ∧ (t.core k.val).tile.regs = (s'.core k.val).tile.regs ∧ (t.core k.val).tile.acc = (s'.core k.val).tile.acc ∧ t.mem = s'.mem := by
  refine ⟨_, exec_tileComplete hh h, ?_⟩
  rw [setCore_core, if_pos rfl, tileRecord_tile]
  exact ⟨rfl, rfl, rfl, rfl⟩

/-- A completion of an instruction whose execution changes its unit alone. -/
theorem exec_tileComplete_modTile {g : Tile → Tile} {r : TileRec} (hg : ∀ u, (g u).queue = u.queue)
    (h : s.tileRun k.val e none = .done (s.modTile k.val g) r) :
    ∃ t, exec (.tileInstructionComplete k {}) s = .next t ∧ (t.core k.val).tile.queue = (s.core k.val).tile.queue.tail
      ∧ (t.core k.val).tile.regs = (g (s.core k.val).tile).regs ∧ (t.core k.val).tile.acc = (g (s.core k.val).tile).acc ∧ t.mem = s.mem := by
  obtain ⟨t, ht, hqueue, hregs, hacc, hmem⟩ := exec_tileComplete_keeps hh h
  rw [State.modTile, modCore_core, if_pos rfl] at hqueue hregs hacc
  exact ⟨t, ht, hqueue.trans (congrArg List.tail (hg _)), hregs, hacc, hmem⟩

end

/-! Executions that change the unit alone. -/

theorem getD_map_rowAddrs {α : Type} (f : Nat → α) (base stride : Word) {r n : Nat} (hr : r < n) (d : α) :
    ((rowAddrs base stride n).map (fun x => f x.1)).getD r d = f r := by
  simp [rowAddrs, List.getD_eq_getElem?_getD, List.getElem?_range hr]

theorem shapeOf_rows_le (w : Nat) : (shapeOf w).rows ≤ 64 := Nat.mod_lt w (by decide)

theorem tileByte_of_putRows {s t : State} {k a : Nat} {rows : List (List Byte)} (hlen : rows.length ≤ 64)
    (h : (t.core k).tile.regs = ((s.core k).tile.putRows a 0 rows).regs) {c r b : Nat} (hr : r < 64) (hb : b < 64) :
    tileByte t k c r b = if c = a ∧ r < rows.length then (rows.getD r []).getD b 0 else tileByte s k c r b := by
  have hrows := regByte_putRows (s.core k).tile a rows (a := c) (q := 0) (by omega) hr hb
  simp only [Nat.zero_le, true_and, Nat.zero_add, Nat.sub_zero] at hrows
  rw [tileByte, h]
  exact hrows

theorem elem_of_acc {t : Tile} {u : Tile} (h : t.acc = u.acc) (a r j : Nat) : t.elem a r j = u.elem a r j := by rw [Tile.elem, h, Tile.elem]

/-- The rows that TLD reads, with the bits beyond their elements zero (R30). -/
def loadedRows (s : State) (base stride : Word) (x : TShape) (at_ : Nat → Nat) : List (List Byte) :=
  (rowAddrs base stride x.rows).map (fun y => rowBits x (s.getBytes (at_ y.1) (x.fmt.rowBytes x.cols)))

theorem runTld_eq {s : State} {k : Nat} {ring : Fin 4} {base stride : Word} {x : TShape} {at_ : Nat → Nat}
    (hrows : RowsAt s k ring .read base stride x.rows (x.fmt.rowBytes x.cols) at_) (t : Nat) :
    runTld s k ring none t base stride x = .done (s.modTile k (fun u => u.putRows t 0 (loadedRows s base stride x at_))) {} := by
  rw [runTld, readRows_reached (rowReached_of_rowsAt hrows)]
  simp only [loadedRows, List.map_map, rowBits_eq_cleanRow]
  rfl

theorem putGrid_congr {a m n : Nat} {v w : Nat × Nat → X96} (h : ∀ r j, r < m → j < n → v (r, j) = w (r, j)) :
    putGrid a m n v = putGrid a m n w := by
  funext u
  refine List.foldl_ext _ _ u fun u p hp => ?_
  obtain ⟨hr, hj⟩ := mem_grid.mp hp
  rw [h p.1 p.2 hr hj]

/-- The element that rows of memory give at a position (R86). -/
def readElement (rows : List (List Byte)) (p : Nat × Nat) : X96 := BitVec.ofNat 96 (leNat (((rows.getD p.1 []).drop (12 * p.2)).take 12))

theorem fillDone_done {rows : List (List Byte)} {v : Nat × Nat → X96} (hread : ∀ r j, r < 64 → j < 64 → readElement rows (r, j) = v (r, j))
    (hwell : ∀ r j, r < 64 → j < 64 → (v (r, j)).malformed = false) (s : State) (k a : Nat) :
    ∃ rec_, fillDone s k a rows = .done (s.modTile k (putGrid a 64 64 v)) rec_ := by
  have hnone : (grid 64 64).find? (fun p => (readElement rows p).malformed) = none := by
    refine List.find?_eq_none.mpr fun p hp => ?_
    obtain ⟨hr, hj⟩ := mem_grid.mp hp
    rw [hread p.1 p.2 hr hj, hwell p.1 p.2 hr hj]
    decide
  rw [← putGrid_congr hread]
  unfold fillDone
  change ∃ rec_, (match (grid 64 64).find? (fun p => (readElement rows p).malformed) with
    | some p => TileRes.fault s (tileConfig 0x17 p.1) false 0
    | none => TileRes.done _ _) = TileRes.done _ rec_
  rw [hnone]
  exact ⟨_, rfl⟩

theorem tileRun_tfill {s : State} {k : Nat} {e : TileEntry} {a : Nat} {base disp : Word} {at_ : Nat → Nat}
    (hop : e.op = .tfill a base disp) (halign : base.toNat % 16 = 0) (hrows : RowsAt s k e.ring .read (base + disp) 768 64 768 at_)
    (hwell : ∀ r j, r < 64 → j < 64 → (filled s at_ r j).malformed = false) :
    ∃ rec_, s.tileRun k e none = .done (s.modTile k (putGrid a 64 64 (fun p => filled s at_ p.1 p.2))) rec_ := by
  have hbase : spillBase base disp = .ok (base + disp) := if_neg (not_not.mpr halign)
  simp only [State.tileRun, hop, hbase, readRows_reached (rowReached_of_rowsAt hrows)]
  refine fillDone_done (v := fun p => filled s at_ p.1 p.2) (fun r j hr hj => ?_) hwell s k a
  rw [readElement, leNat_filledRow s at_ _ _ hr hj]

/-- The rows that TCVA writes (R84). -/
def convertedRows (c : Core) (a : Nat) (o : ReadOut) (x : TShape) (sig key : Word) : List (List Byte) :=
  (List.range x.rows).map (fun r => packRow x.fmt (readRow c a o x sig key r).1)

theorem tileRun_tcva {s : State} {k : Nat} {e : TileEntry} {d a w : Nat} {sig key rd : Word} {o : ReadOut} {y : TShape}
    (hop : e.op = .tcva d a w sig key rd) (hlegal : LegalShape w) (hrd : rdCheck rd false = .ok (o, y)) :
    ∃ rec_, s.tileRun k e none
      = .done (s.modTile k (fun u => u.putRows d 0 (convertedRows (s.core k) a o (shapeOf w) sig key))) rec_ := by
  simp only [State.tileRun, hop, hrd, tswShape_of_legal hlegal, outRows, List.map_map]
  exact ⟨_, rfl⟩

/-- The new elements of TMMA's region (R80 to R82). -/
def accumulated (u : Tile) (a ta tb : Nat) (xa xb : TShape) (ma mb : ScaleMode) (tsc : Nat) (cl : PClass) (p : Nat × Nat) : X96 :=
  (mmaElem (u.elem a p.1 p.2) cl ma mb (u.vals ta xa p.1) (u.vals tb xb p.2) (scaleVals ma (u.row tsc p.1) 0) (scaleVals mb (u.row tsc p.2) 32)).e

theorem tileRun_tmma {s : State} {k : Nat} {e : TileEntry} {a ta tb wa wb : Nat} {pd : Word} {ma mb : ScaleMode} {cl : PClass}
    (hop : e.op = .tmma a ta tb wa wb pd) (hwa : LegalShape wa) (hwb : LegalShape wb)
    (hma : scaleMode (field pd 7 0) = some ma) (hmb : scaleMode (field pd 15 8) = some mb) (hcl : (shapeOf wa).fmt.pclass = some cl)
    (hlayout : ∀ r j, r < (shapeOf wa).rows → j < (shapeOf wb).rows →
      ((s.core k).tile.elem a r j).layoutFault (cl != .n || ma.kind == 2 || mb.kind == 2) = false) :
    ∃ rec_, s.tileRun k e none = .done (s.modTile k (putGrid a (shapeOf wa).rows (shapeOf wb).rows
      (accumulated (s.core k).tile a ta tb (shapeOf wa) (shapeOf wb) ma mb (field pd 18 16) cl))) rec_ := by
  have hany : (grid (shapeOf wa).rows (shapeOf wb).rows).any
      (fun p => ((s.core k).tile.elem a p.1 p.2).layoutFault (cl != .n || ma.kind == 2 || mb.kind == 2)) = false := by
    rw [List.any_eq_false]
    rintro ⟨r, j⟩ hp
    obtain ⟨hr, hj⟩ := mem_grid.mp hp
    simp [hlayout r j hr hj]
  simp only [State.tileRun, hop, tswShape_of_legal hwa, tswShape_of_legal hwb, runTmma, hma, hmb, hcl, hany, Bool.false_eq_true, if_false, mmaRegion,
    List.foldl_map]
  exact ⟨_, rfl⟩

/-! ### The exact sum of class N (R49, R54) -/

/-- A finite value that is z units of 2^-q, on a grid no finer than that. -/
structure Units (q : Nat) (v : Val) (z : Int) : Prop where
  nan : v.isNan = false
  inf : v.isInf = false
  grid : -(q : Int) ≤ v.dy.e
  value : v.dy.m * 2 ^ (v.dy.e + q).toNat = z

theorem units_zero (q : Nat) (neg : Bool) : Units q (.zero neg) 0 := ⟨rfl, rfl, by simp [Val.dy], by simp [Val.dy]⟩

theorem Units.eq_zero {q : Nat} {neg : Bool} {z : Int} (h : Units q (.zero neg) z) : z = 0 := by simpa [Val.dy] using h.value.symm

/-- The products of values on grids are on the product grid, and their numbers of units multiply. -/
theorem Units.mul {q p : Nat} {v w : Val} {x y : Int} (hv : Units q v x) (hw : Units p w y) : Units (q + p) (v.mul w).1 (x * y) := by
  cases v with
  | nan => cases hv.nan
  | inf => cases hv.inf
  | zero n =>
    rw [hv.eq_zero, zero_mul]
    cases w with
    | nan => cases hw.nan
    | inf => cases hw.inf
    | zero m => exact units_zero _ _
    | fin d => exact units_zero _ _
  | fin c =>
    cases w with
    | nan => cases hw.nan
    | inf => cases hw.inf
    | zero m =>
      rw [hw.eq_zero, mul_zero]
      exact units_zero _ _
    | fin d =>
      have hc : -(q : Int) ≤ c.e := hv.grid
      have hd : -(p : Int) ≤ d.e := hw.grid
      refine ⟨rfl, rfl, ?_, ?_⟩
      · change -((q + p : Nat) : Int) ≤ c.e + d.e
        omega
      · rw [← hv.value, ← hw.value]
        change c.m * d.m * 2 ^ (c.e + d.e + ((q + p : Nat) : Int)).toNat = c.m * 2 ^ (c.e + q).toNat * (d.m * 2 ^ (d.e + p).toNat)
        rw [show (c.e + d.e + ((q + p : Nat) : Int)).toNat = (c.e + q).toNat + (d.e + p).toNat by omega, pow_add]
        ring

/-- A sum of dyadic numbers on a grid is on it, and their numbers of units add. -/
theorem units_foldl_add {q : Nat} {vs : List Val} {zs : List Int} (h : List.Forall₂ (Units q) vs zs) (a : Dy) (ha : -(q : Int) ≤ a.e) :
    let t := vs.foldl (fun (a : Dy) (v : Val) => a.add v.dy) a;
    -(q : Int) ≤ t.e ∧ t.m * 2 ^ (t.e + q).toNat = a.m * 2 ^ (a.e + q).toNat + zs.sum := by
  induction h generalizing a with
  | nil => exact ⟨ha, by simp⟩
  | @cons v z vs zs hv _ ih =>
    obtain ⟨-, -, hvg, rfl⟩ := hv
    have hmin : -(q : Int) ≤ min a.e v.dy.e := le_min ha hvg
    obtain ⟨hgrid, hvalue⟩ := ih (a.add v.dy) hmin
    refine ⟨hgrid, hvalue.trans ?_⟩
    have hscale (d : Dy) (hd : min a.e v.dy.e ≤ d.e) :
        Dy.at d (min a.e v.dy.e) * 2 ^ (min a.e v.dy.e + q).toNat = d.m * 2 ^ (d.e + q).toNat := by
      rw [Dy.at, mul_assoc, ← pow_add, show (d.e - min a.e v.dy.e).toNat + (min a.e v.dy.e + q).toNat = (d.e + q).toNat by omega]
    rw [Dy.add]
    dsimp only
    rw [add_mul, hscale a (min_le_left _ _), hscale v.dy (min_le_right _ _), List.sum_cons, add_assoc]

/-- A floating-point code of small bias and few fraction bits decodes to a multiple of 2^-16. -/
theorem le_decodeFp_exp {p : FpParams} (hp : p.bias + p.mbits ≤ 17) (c : Nat) : -16 ≤ (decodeFp p c).dy.e := by
  unfold decodeFp
  dsimp only
  split_ifs <;> simp only [Val.dy] <;> omega

theorem classN_fp {f : Fmt} {p : FpParams} (hf : f.pclass = some .n) (hp : f.fp = some p) : p.bias + p.mbits ≤ 17 := by
  cases f <;> cases hf <;> cases hp <;> decide

/-- An element of class N is a multiple of 2^-16 (R49). -/
theorem le_exp_of_classN {f : Fmt} (hf : f.pclass = some .n) (c : Nat) : -16 ≤ (decodeCode f 0 c).dy.e := by
  have hint (x : Int) : -16 ≤ (Val.ofDy ⟨x, 0⟩).dy.e := by
    unfold Val.ofDy
    split <;> simp [Val.dy]
  cases f with
  | int8 => exact hint _
  | int4 => exact hint _
  | e4m3 => exact le_decodeFp_exp (classN_fp (f := .e4m3) rfl rfl) c
  | e5m2 => exact le_decodeFp_exp (classN_fp (f := .e5m2) rfl rfl) c
  | e3m2 => exact le_decodeFp_exp (classN_fp (f := .e3m2) rfl rfl) c
  | e2m3 => exact le_decodeFp_exp (classN_fp (f := .e2m3) rfl rfl) c
  | e2m1 => exact le_decodeFp_exp (classN_fp (f := .e2m1) rfl rfl) c
  | _ => cases hf

theorem units_of_vals {u : Tile} {t r : Nat} {x : TShape} (hx : x.fmt.pclass = some .n) {v : Val} (hv : v ∈ u.vals t x r)
    (hfin : v.isNan = false ∧ v.isInf = false) : Units 16 v (scaled16 v) := by
  obtain ⟨c, -, rfl⟩ := List.mem_map.mp hv
  exact ⟨hfin.1, hfin.2, le_exp_of_classN hx _, rfl⟩

/-- The products of two rows of class N, in units of 2^-32. -/
theorem units_products {ts : List (Val × Val)} (h : ∀ p ∈ ts, Units 16 p.1 (scaled16 p.1) ∧ Units 16 p.2 (scaled16 p.2)) :
    List.Forall₂ (Units 32) (products ts).1 (ts.map (fun p => scaled16 p.1 * scaled16 p.2)) :=
  List.forall₂_map_left_iff.mpr (List.forall₂_map_right_iff.mpr (List.forall₂_same.mpr fun p hp => (h p hp).1.mul (h p hp).2))

/-- Finite products leave an element's SPC as it is (R54). -/
theorem foldl_addSpecial_of_units {q : Nat} {vs : List Val} {zs : List Int} (h : List.Forall₂ (Units q) vs zs) (spc : Nat) :
    vs.foldl addSpecial spc = spc := by
  induction h with
  | nil => rfl
  | @cons v _ vs _ hv _ ih =>
    have hkeep : addSpecial spc v = spc := by
      cases v with
      | nan => cases hv.nan
      | inf => cases hv.inf
      | zero => rfl
      | fin => rfl
    rw [List.foldl_cons, hkeep, ih]

theorem foldl_dy_of_units {vs : List Val} {zs : List Int} (h : List.Forall₂ (Units 32) vs zs) :
    let t := vs.foldl (fun (a : Dy) (v : Val) => a.add v.dy) ⟨0, 0⟩;
    t.m * 2 ^ (t.e + 32).toNat / 2 ^ (-(t.e + 32)).toNat = zs.sum := by
  obtain ⟨hgrid, hvalue⟩ := units_foldl_add h ⟨0, 0⟩ (by decide)
  intro t
  have hneg : (-(t.e + 32)).toNat = 0 := Int.toNat_of_nonpos (by have : -(32 : Int) ≤ t.e := hgrid; omega)
  rw [hneg, pow_zero, Int.ediv_one]
  exact hvalue.trans (by simp)

/-- The finite element of class N for a sum, saturated at the ends of N (R55). -/
def saturated (n : Int) : Elem :=
  { xe := false, spc := 0, n := max (-2 ^ 84) (min (2 ^ 84 - 1) n), v := 0, ovf := decide (n < -2 ^ 84 ∨ 2 ^ 84 - 1 < n) }

/-- Class N adds the sum of finite products to an element that is finite and not saturated, and saturates at the ends of N (R54, R55). -/
theorem accumN_of_units {e : X96} {ts : List (Val × Val)} {zs : List Int} (h : List.Forall₂ (Units 32) (products ts).1 zs)
    (hspc : e.fields.spc = 0) (hovf : e.fields.ovf = false) :
    (accumN e ts).e = (saturated (e.fields.n + zs.sum)).pack := by
  unfold accumN
  dsimp only
  rw [foldl_addSpecial_of_units h, foldl_dy_of_units h, hspc, hovf]
  generalize e.fields.n + zs.sum = n
  have hclamp : max (-2 ^ 84) (min (2 ^ 84 - 1) n) = if 2 ^ 84 - 1 < n then 2 ^ 84 - 1 else if n < -2 ^ 84 then -2 ^ 84 else n := by
    split_ifs <;> omega
  rw [saturated, hclamp]
  simp [Bool.or_comm]

theorem signedOf_toTwos {n : Int} (hlo : -2 ^ 84 ≤ n) (hhi : n ≤ 2 ^ 84 - 1) : toTwos 85 n < 2 ^ 85 ∧ signedOf 85 (toTwos 85 n) = n := by
  by_cases hn : 0 ≤ n
  · rw [toTwos_of_nonneg hn (by omega), signedOf_succ (by omega), if_neg (by omega)]
    omega
  · rw [toTwos_of_neg (by omega) (by omega), signedOf_succ (by omega), if_pos (by omega)]
    omega

/-- The fields of a packed element of layout XF are those it was packed from; V overlaps N (R52). -/
theorem fields_pack {f : Elem} (hxe : f.xe = false) (hspc : f.spc < 4) (hlo : -2 ^ 84 ≤ f.n) (hhi : f.n ≤ 2 ^ 84 - 1) :
    f.pack.fields = { f with v := f.pack.fields.v } := by
  obtain ⟨xe, spc, n, v, ovf⟩ := f
  obtain rfl : xe = false := hxe
  dsimp only at hspc hlo hhi
  obtain ⟨hlt, hn⟩ := signedOf_toTwos hlo hhi
  have hovf : ovf.toNat ≤ 1 := Bool.toNat_le ovf
  have hpack : (Elem.pack ⟨false, spc, n, v, ovf⟩).toNat = toTwos 85 n + spc * 2 ^ 85 + ovf.toNat * 2 ^ 87 := by
    rw [show Elem.pack ⟨false, spc, n, v, ovf⟩ = BitVec.ofNat 96 (toTwos 85 n + spc * 2 ^ 85 + ovf.toNat * 2 ^ 87) by cases ovf <;> simp [Elem.pack],
      BitVec.toNat_ofNat, Nat.mod_eq_of_lt (by omega)]
  generalize Elem.pack ⟨false, spc, n, v, ovf⟩ = e at hpack ⊢
  have h95 : e.toNat / 2 ^ 95 % 2 = 0 := by omega
  have h87 : e.toNat / 2 ^ 87 % 2 = ovf.toNat := by omega
  have h85 : e.toNat / 2 ^ 85 % 4 = spc := by omega
  have hlow : signedOf 85 e.toNat = n := by
    rw [← hn, signedOf, signedOf, show e.toNat % 2 ^ 85 = toTwos 85 n % 2 ^ 85 by omega]
  rw [X96.fields, BitVec.getLsbD, BitVec.getLsbD, Nat.testBit_eq_decide_div_mod_eq, Nat.testBit_eq_decide_div_mod_eq, h95, h87, h85, hlow]
  cases ovf <;> rfl

theorem fields_saturated (n : Int) : (saturated n).pack.fields = { saturated n with v := (saturated n).pack.fields.v } :=
  fields_pack rfl (Nat.zero_lt_succ 3) (le_max_left _ _) (max_le (by decide) (min_le_left _ _))

/-- TMMA's exact accumulation of class N (R54). -/
theorem accumulated_fields {u : Tile} {a ta tb tsc : Nat} {xa xb : TShape} {ma mb : ScaleMode} {r j : Nat} (hxa : xa.fmt.pclass = some .n)
    (hxb : xb.fmt.pclass = some .n) (hma : ma.kind ≠ 2) (hmb : mb.kind ≠ 2)
    (hfin : ∀ v ∈ u.vals ta xa r ++ u.vals tb xb j, v.isNan = false ∧ v.isInf = false)
    (hxe : (u.elem a r j).fields.xe = false) (hspc : (u.elem a r j).fields.spc = 0) (hovf : (u.elem a r j).fields.ovf = false) :
    let f := (u.elem a r j).fields
    let n := f.n + (((u.vals ta xa r).zip (u.vals tb xb j)).map (fun p => scaled16 p.1 * scaled16 p.2)).sum
    let e := accumulated u a ta tb xa xb ma mb tsc .n (r, j)
    e.fields = { f with n := max (-2 ^ 84) (min (2 ^ 84 - 1) n), v := e.fields.v, ovf := decide (n < -2 ^ 84 ∨ 2 ^ 84 - 1 < n) } := by
  intro f n e
  have hunits : List.Forall₂ (Units 32) (products ((u.vals ta xa r).zip (u.vals tb xb j))).1
      (((u.vals ta xa r).zip (u.vals tb xb j)).map (fun p => scaled16 p.1 * scaled16 p.2)) := by
    refine units_products fun p hp => ?_
    obtain ⟨hpa, hpb⟩ := List.of_mem_zip (show (p.1, p.2) ∈ _ from hp)
    exact ⟨units_of_vals hxa hpa (hfin _ (List.mem_append_left _ hpa)), units_of_vals hxb hpb (hfin _ (List.mem_append_right _ hpb))⟩
  have he : e = (saturated n).pack := by
    rw [← accumN_of_units hunits hspc hovf]
    simp only [e, accumulated, mmaElem, hma, hmb, or_self, if_false, if_true]
  rw [he, fields_saturated]
  simp only [f, saturated, hxe, hspc]

/-- Settles O23: each execution is a change of its unit alone or of memory alone, which its completion keeps; class N's sum is exact. -/
theorem tileInstructionsComplete : Obligations.TileInstructionsComplete := by
  unfold Obligations.TileInstructionsComplete
  intro k e s hh u i
  refine ⟨?_, ?_, ?_, ?_, ?_, ?_, ?_, ?_, ?_⟩
  · intro h t r hrun
    exact exec_tileComplete hh hrun
  · intro base stride rows n bs at_ m hstored hm hlegal hrows
    have hlen := (tileRun_of_storedRows hstored hlegal none).2
    obtain ⟨t, ht, hplaced⟩ := writeRows_stored hm hlen hrows e.stamp
    have hpart : s.tilePart k.val e m none = t := by
      rw [State.tilePart, storedRows_eq hstored hlegal]
      dsimp only
      rw [← List.map_take, rowAddrs_take base stride hm, ht]
    obtain ⟨hin, hout⟩ := hplaced.stored fun r hr => hlen r (hr.trans_le hm)
    exact ⟨t, hpart ▸ exec_tilePart hh m, congrArg Core.tile (hplaced.core k.val), hin, hout⟩
  · intro a hop
    obtain ⟨t, ht, hqueue, hregs, hacc, -⟩ := exec_tileComplete_modTile (g := fun u => { u with regs := u.regs.filter (fun r => r.1 / 4096 != a) })
      (r := {}) hh (fun _ => rfl) (by simp only [State.tileRun, hop])
    have hbyte (a' r b : Nat) : tileByte t k.val a' r b = if (a' * 4096 + r * 64 + b) / 4096 != a then tileByte s k.val a' r b else 0 := by
      rw [tileByte, hregs]
      exact mget_filter 0 (fun n => n / 4096 != a) _ _
    refine ⟨t, ht, hqueue, fun r b hr hb => ?_, fun a' r b ha hr hb => ?_, hacc⟩
    · rw [hbyte, if_neg (by simp; omega)]
    · rw [hbyte, if_pos (by simp; omega)]
  · intro a hop
    obtain ⟨t, ht, hqueue, hregs, hacc, -⟩ := exec_tileComplete_modTile (g := fun u => { u with acc := u.acc.filter (fun r => r.1 / 4096 != a) })
      (r := {}) hh (fun _ => rfl) (by simp only [State.tileRun, hop])
    have helem (a' r j : Nat) : (t.core k.val).tile.elem a' r j = if (a' * 4096 + r * 64 + j) / 4096 != a then u.elem a' r j else 0 := by
      rw [Tile.elem, hacc]
      exact mget_filter 0 (fun n => n / 4096 != a) _ _
    refine ⟨t, ht, hqueue, fun r j hr hj => ?_, fun a' r j ha hr hj => ?_, hregs⟩
    · rw [helem, if_neg (by simp; omega)]
    · rw [helem, if_pos (by simp; omega)]
  · intro a base stride w at_ hop hlegal x n hrows
    obtain ⟨t, ht, hqueue, hregs, hacc, hmem⟩ := exec_tileComplete_modTile hh (fun u => (putRows_frame u a 0 _).2)
      ((tileRun_tld hop hlegal).trans (runTld_eq hrows a))
    have hlen : (loadedRows s base stride x at_).length = x.rows := by simp [loadedRows, rowAddrs]
    have hrows64 : x.rows ≤ 64 := shapeOf_rows_le w
    have hbyte {c r b : Nat} (hr : r < 64) (hb : b < 64) := tileByte_of_putRows (c := c) (hlen.trans_le hrows64) hregs hr hb
    refine ⟨t, ht, hqueue, fun r b hr hb => ?_, fun c r b hc hr hb => ?_, hacc.trans (putRows_frame u a 0 _).1, hmem⟩
    · rw [hbyte (hr.trans_le hrows64) hb, if_pos ⟨rfl, hlen.symm ▸ hr⟩]
      exact congrArg (List.getD · b 0) (getD_map_rowAddrs (fun i => rowBits x (s.getBytes (at_ i) n)) base stride hr [])
    · rw [hbyte hr hb, if_neg (by rw [hlen]; omega)]
  · intro base stride rows n bs at_ hstored hlegal hrows
    obtain ⟨⟨rec_, hrun⟩, hlen⟩ := tileRun_of_storedRows hstored hlegal none
    obtain ⟨t', ht', hplaced⟩ := writeRows_stored le_rfl hlen hrows e.stamp
    rw [runStore, ht'] at hrun
    obtain ⟨t, ht, hqueue, hregs, hacc, hmem⟩ := exec_tileComplete_keeps hh hrun
    obtain ⟨hin, hout⟩ := hplaced.stored hlen
    have hbyte (b : Nat) : t.getByte b = t'.getByte b := by rw [State.getByte, hmem, State.getByte]
    rw [hplaced.core] at hqueue hregs hacc
    exact ⟨t, ht, hqueue, hregs, hacc, fun r j hr hj hlast => (hbyte _).trans (hin r j hr hj hlast), fun b hb => (hbyte b).trans (hout b hb)⟩
  · intro a base disp at_ hop halign hrows new hwell
    obtain ⟨rec_, hrun⟩ := tileRun_tfill hop halign hrows hwell
    obtain ⟨t, ht, hqueue, hregs, hacc, -⟩ := exec_tileComplete_modTile hh (fun u => (putGrid_frame a 64 64 _ u).1) hrun
    have helem {c r j : Nat} (hr : r < 64) (hj : j < 64) := (elem_of_acc hacc c r j).trans (elem_putGrid _ u le_rfl le_rfl hr hj)
    refine ⟨t, ht, hqueue, hregs.trans (putGrid_frame a 64 64 _ u).2, fun r j hr hj => ?_, fun c r j hc hr hj => ?_⟩
    · rw [helem hr hj, if_pos ⟨rfl, hr, hj⟩]
      rfl
    · rw [helem hr hj, if_neg fun h => hc h.1]
  · intro d a w sig key rd o y hop hlegal hrd x n
    obtain ⟨rec_, hrun⟩ := tileRun_tcva hop hlegal hrd
    obtain ⟨t, ht, hqueue, hregs, hacc, -⟩ := exec_tileComplete_modTile hh (fun u => (putRows_frame u d 0 _).2) hrun
    have hlen : (convertedRows (s.core k.val) a o x sig key).length = x.rows := by simp [convertedRows]
    have hrows64 : x.rows ≤ 64 := shapeOf_rows_le w
    have hbyte {c r b : Nat} (hr : r < 64) (hb : b < 64) := tileByte_of_putRows (c := c) (hlen.trans_le hrows64) hregs hr hb
    refine ⟨t, ht, hqueue, hacc.trans (putRows_frame u d 0 _).1, fun r b hr hb => ?_, fun c r b hc hr hb => ?_, ?_⟩
    · rw [hbyte (hr.trans_le hrows64) hb, if_pos ⟨rfl, hlen.symm ▸ hr⟩]
      simp [convertedRows, List.getD_eq_getElem?_getD, List.getElem?_range hr]
    · rw [hbyte hr hb, if_neg (by rw [hlen]; omega)]
    · simp [packRow, readRow, n]
  · intro a ta tb wa wb pd ma mb cl hop hwa hwb xa xb hma hmb hcla hclb _ hlayout
    obtain ⟨rec_, hrun⟩ := tileRun_tmma hop hwa hwb hma hmb hcla hlayout
    obtain ⟨t, ht, hqueue, hregs, hacc, -⟩ := exec_tileComplete_modTile hh (fun u => (putGrid_frame a xa.rows xb.rows _ u).1) hrun
    have hxa : xa.rows ≤ 64 := shapeOf_rows_le wa
    have hxb : xb.rows ≤ 64 := shapeOf_rows_le wb
    have helem {c r j : Nat} (hr : r < 64) (hj : j < 64) := (elem_of_acc hacc c r j).trans (elem_putGrid _ u hxa hxb hr hj)
    have hnew {r j : Nat} (hr : r < xa.rows) (hj : j < xb.rows) :
        (t.core k.val).tile.elem a r j = accumulated u a ta tb xa xb ma mb (field pd 18 16) cl (r, j) := by
      rw [helem (hr.trans_le hxa) (hj.trans_le hxb), if_pos ⟨rfl, hr, hj⟩]
    refine ⟨t, ht, hqueue, hregs.trans (putGrid_frame a xa.rows xb.rows _ u).2, fun c r j hc hr hj => ?_, fun r j hr hj => hnew hr hj, ?_⟩
    · rw [helem hr hj, if_neg (by omega)]
    · intro r j hn hma hmb hr hj hfin f n hxe hspc hovf
      subst hn
      rw [hnew hr hj]
      exact accumulated_fields hcla hclb hma hmb hfin hxe hspc hovf

end Sys2Proof.Proofs
end

section
/-!
PROOFS. What the vector stream unit works on: the core that holds it, the entry at the head of its queue, and the elements that it reads
and writes in memory and in its operand cache (R76, R96, R99, R110, R136).
-/
namespace Sys2Proof.Proofs
open Sys2Proof Sys2Proof.Machine Sys2Proof.Stated Sys2Proof.Laws

/-! ### A unit's state written -/

theorem mput_mput {α : Type} (m : List (Nat × α)) (k : Nat) (v w : α) : mput (mput m k v) k w = mput m k w := by
  induction m with
  | nil => simp [mput]
  | cons e m ih =>
    obtain ⟨key, x⟩ := e
    rw [mput, mput]
    split
    case isTrue => rw [mput, if_pos rfl]
    case isFalse hne =>
      split
      case isTrue => rw [mput, if_pos rfl]
      case isFalse hge => rw [mput, if_neg hne, if_neg hge, ih]

theorem setCore_setCore (s : State) (k : Nat) (c d : Core) : (s.setCore k c).setCore k d = s.setCore k d := by
  rw [State.setCore, State.setCore, State.setCore, mput_mput]

theorem modVsu_core (s : State) (k : Nat) (f : Vsu → Vsu) : (s.modVsu k f).core k = { s.core k with vsu := f (s.core k).vsu } := by
  rw [State.modVsu, modCore_core, if_pos rfl]

theorem modVsu_modVsu (s : State) (k : Nat) (f g : Vsu → Vsu) : (s.modVsu k f).modVsu k g = s.modVsu k (fun u => g (f u)) := by
  rw [State.modVsu, State.modCore, modVsu_core, State.modVsu, State.modCore, setCore_setCore]
  rfl

theorem modVsu_congr {s : State} {k : Nat} {f g : Vsu → Vsu} (h : f (s.core k).vsu = g (s.core k).vsu) : s.modVsu k f = s.modVsu k g := by
  rw [State.modVsu, State.modCore, h]
  rfl

theorem modHead_of_queue {u : Vsu} {e : VecEntry} {rest : List VecEntry} (h : u.queue = e :: rest) (f : VecEntry → VecEntry) :
    u.modHead f = { u with queue := f e :: rest } := by
  rw [Vsu.modHead, h]

theorem modHead_of_fixed {u : Vsu} {e : VecEntry} {rest : List VecEntry} (h : u.queue = e :: rest) {f : VecEntry → VecEntry} (hf : f e = e) :
    u.modHead f = u := by
  rw [modHead_of_queue h, hf, ← h]

/-- Core k stands in the state's map: what it holds, written again, changes nothing. -/
def Listed (s : State) (k : Nat) : Prop := s.setCore k (s.core k) = s

theorem listed_modVsu (s : State) (k : Nat) (f : Vsu → Vsu) : Listed (s.modVsu k f) k := by
  rw [Listed, modVsu_core]
  exact setCore_setCore s k _ _

theorem Listed.modVsu_eq {s : State} {k : Nat} (h : Listed s k) {f : Vsu → Vsu} (hf : f (s.core k).vsu = (s.core k).vsu) : s.modVsu k f = s := by
  rw [State.modVsu, State.modCore, hf]
  exact h

/-! ### The head of the queue (R76, R96) -/

/-- Whether an entry may execute at the head of core c's queue. -/
def headRuns (c : Core) (e : VecEntry) : Bool :=
  c.run == .running && !c.vsu.stopped && !e.done && e.fault.isNone
    && !(!e.reread && !e.tiles.isEmpty && (c.tile.queue ++ c.tile.frozen).any (fun t => decide (t.stamp < e.stamp)))

theorem vecHead_of_queue {s : State} {k : Nat} {e : VecEntry} {rest : List VecEntry} (h : (s.core k).vsu.queue = e :: rest) :
    s.vecHead k = if headRuns (s.core k) e then some e else none := by
  rw [State.vecHead, h]
  rfl

theorem queue_of_vecHead {s : State} {k : Nat} {e : VecEntry} (h : s.vecHead k = some e) :
    ∃ rest, (s.core k).vsu.queue = e :: rest ∧ headRuns (s.core k) e = true := by
  cases hq : (s.core k).vsu.queue with
  | nil => simp [State.vecHead, hq] at h
  | cons x rest =>
    rw [vecHead_of_queue hq] at h
    split at h
    case isTrue hruns =>
      cases h
      exact ⟨rest, rfl, hruns⟩
    case isFalse => cases h

theorem vecHead_of_VecHead {s : State} {k : Nat} {e : VecEntry} (h : VecHead s k e) : s.vecHead k = some e := by
  obtain ⟨hq, hrun, hstop, hdone, hfault, hreread, htiles⟩ := h
  obtain ⟨rest, hq⟩ := List.head?_eq_some_iff.mp hq
  have hwait : e.tiles = [] ∨ ∀ t ∈ (s.core k).tile.queue ++ (s.core k).tile.frozen, e.stamp ≤ t.stamp := by
    rw [or_iff_not_imp_left]
    exact fun hne t ht => Nat.le_of_not_lt fun hlt => hne (htiles t ht hlt)
  rw [List.forall_mem_append] at hwait
  rw [vecHead_of_queue hq, if_pos]
  simpa [headRuns, hrun, hstop, hdone, hfault, hreread] using hwait

theorem vecHead_none_of_stopped {s : State} {k : Nat} (h : (s.core k).run ≠ .running) : s.vecHead k = none := by
  cases hq : (s.core k).vsu.queue with
  | nil => rw [State.vecHead, hq]
  | cons e rest => rw [vecHead_of_queue hq, if_neg]; simp [headRuns, h]

theorem vecHead_none_of_head {s : State} {k : Nat} {e : VecEntry} {rest : List VecEntry} (hq : (s.core k).vsu.queue = e :: rest)
    (h : e.done = true ∨ e.fault.isSome = true) : s.vecHead k = none := by
  rw [vecHead_of_queue hq, if_neg]
  rcases h with h | h
  · simp [headRuns, h]
  · simp [headRuns, Option.isSome_iff_ne_none.mp h]

theorem vecFail_vecHead {s : State} {k : Nat} {e : VecEntry} {rest : List VecEntry} (hq : (s.core k).vsu.queue = e :: rest) (f : VecFault) :
    (s.vecFail k f).vecHead k = none := by
  refine vecHead_none_of_head (e := { e with fault := some f }) (rest := rest) ?_ (.inr rfl)
  rw [State.vecFail, modVsu_core, modHead_of_queue hq]

theorem vecLost_vecHead (s : State) (k : Nat) : (s.vecLost k).vecHead k = none := by
  refine vecHead_none_of_stopped ?_
  rw [State.vecLost, State.stopCore, modCore_core, if_pos rfl]
  simp

/-- From s to t the core and what decides its vector head stand, but for the bytes of the operand cache. -/
structure SameUnit (k : Nat) (s t : State) : Prop where
  run : (t.core k).run = (s.core k).run
  tile : (t.core k).tile = (s.core k).tile
  vsu : (t.core k).vsu = { (s.core k).vsu with cache := (t.core k).vsu.cache }

theorem SameUnit.trans {k : Nat} {s t u : State} (h : SameUnit k s t) (g : SameUnit k t u) : SameUnit k s u :=
  ⟨g.run.trans h.run, g.tile.trans h.tile, by rw [g.vsu, h.vsu]⟩

theorem fetched_vsu {s t : State} (h : Fetched s t) (k : Nat) : (t.core k).vsu = (s.core k).vsu := by rw [h.2 k]

theorem fetched_sameUnit {s t : State} (h : Fetched s t) (k : Nat) : SameUnit k s t :=
  ⟨by rw [h.2 k], fetched_tile h k, by rw [fetched_vsu h]⟩

theorem SameUnit.queue {k : Nat} {s t : State} (h : SameUnit k s t) : (t.core k).vsu.queue = (s.core k).vsu.queue := by rw [h.vsu]

theorem SameUnit.headRuns {k : Nat} {s t : State} (h : SameUnit k s t) (e : VecEntry) : headRuns (t.core k) e = headRuns (s.core k) e := by
  rw [Proofs.headRuns, h.run, h.tile, h.vsu]
  rfl

/-- A head that may execute is not done. -/
theorem done_of_headRuns {c : Core} {e : VecEntry} (h : headRuns c e = true) : e.done = false := by
  simp only [Proofs.headRuns, Bool.and_eq_true, Bool.not_eq_true'] at h
  exact h.1.1.2

/-- A head that has only gone further in its operation stays the head. -/
theorem SameUnit.vecHead_modHead {k : Nat} {s t : State} (h : SameUnit k s t) {e : VecEntry} (hh : s.vecHead k = some e)
    {g : VecEntry → VecEntry} {p : Nat} {a : VecAcc} (hg : g e = { e with progress := p, acc := a }) :
    (t.modVsu k (fun u => u.modHead g)).vecHead k = some (g e) := by
  obtain ⟨rest, hq, hruns⟩ := queue_of_vecHead hh
  have hqt := h.queue.trans hq
  have hruns' : Proofs.headRuns ((t.modVsu k (fun u => u.modHead g)).core k) (g e) = true := by
    rw [modVsu_core, modHead_of_queue hqt, hg]
    exact (h.headRuns e).trans hruns
  rw [vecHead_of_queue (by rw [modVsu_core, modHead_of_queue hqt]), if_pos hruns']

/-! ### Reads that find no uncorrectable error (R136) -/

/-- From s to t only counts and records of corrected errors change. -/
structure Counted (s t : State) : Prop where
  frame : t = { s with cores := t.cores, clusters := t.clusters, hbms := t.hbms, detections := t.detections }
  core : ∀ j, t.core j = { s.core j with sp := { (s.core j).sp with cecnt := (t.core j).sp.cecnt } }

theorem Counted.refl (s : State) : Counted s s := ⟨rfl, fun _ => rfl⟩

theorem Counted.trans {s t u : State} (h : Counted s t) (g : Counted t u) : Counted s u :=
  ⟨by rw [g.frame, h.frame], fun j => by rw [g.core j, h.core j]⟩

theorem counted_eccRead {s : State} {a : Nat} (ha : s.holdsError a = false) {e : Ecc} (he : e ≠ .uncorrectable) (m : Nat) :
    (s.eccRead a m e).2 = true ∧ Counted s (s.eccRead a m e).1 := by
  have hmem : Counted s (s.hbmCorrected a m) ∧ Counted s (s.hbmOnDie a) := by
    constructor
    · unfold State.hbmCorrected State.pcCorrected
      split
      · exact .refl s
      · dsimp only
        split <;> exact ⟨rfl, fun _ => rfl⟩
    · unfold State.hbmOnDie
      split
      · exact .refl s
      · exact ⟨rfl, fun _ => rfl⟩
  have hspad (k : Nat) : Counted s (s.spCorrected k) := by
    refine ⟨rfl, fun j => ?_⟩
    rw [State.spCorrected, modCore_core]
    split
    case isTrue h => rw [h]
    case isFalse => rfl
  have htun (c : Nat) : Counted s (s.tunCorrected c) := ⟨rfl, fun _ => rfl⟩
  have hbad : (e == .uncorrectable || s.holdsError a) = false := by simp [ha, he]
  unfold State.eccRead
  simp only [hbad, Bool.false_eq_true, if_false]
  cases placeOf a with
  | mem b =>
    cases e with
    | corrected => exact ⟨rfl, hmem.1⟩
    | onDie => exact ⟨rfl, hmem.2⟩
    | clean => exact ⟨rfl, .refl s⟩
    | uncorrectable => exact absurd rfl he
  | spad k off =>
    dsimp only
    split
    · exact ⟨rfl, hspad k⟩
    · exact ⟨rfl, .refl s⟩
  | tun c off =>
    dsimp only
    split
    · exact ⟨rfl, htun c⟩
    · exact ⟨rfl, .refl s⟩
  | _ => exact ⟨rfl, .refl s⟩

theorem counted_eccSpan {s : State} {as : List Nat} (h : ∀ a ∈ as, s.holdsError a = false) {e : Ecc} (he : e ≠ .uncorrectable) (m : Nat) :
    (s.eccSpan as m e).2 = true ∧ Counted s (s.eccSpan as m e).1 := by
  cases as with
  | nil => exact ⟨rfl, .refl s⟩
  | cons a as =>
    have hnone : (a :: as).find? s.holdsError = none := List.find?_eq_none.mpr fun x hx => by simp [h x hx]
    rw [State.eccSpan, if_neg he, hnone]
    exact counted_eccRead (h a List.mem_cons_self) he m

theorem cacheRead_of_ne {e : Ecc} (he : e ≠ .uncorrectable) (s : State) (k : Nat) : s.cacheRead k e = (s, true) := if_neg he

theorem fetched_cacheRead (s : State) (k : Nat) (e : Ecc) : Fetched s (s.cacheRead k e).1 := by
  unfold State.cacheRead
  split
  · exact fetched_detect s _
  · exact .refl s

theorem fetched_eccSpan (s : State) (as : List Nat) (m : Nat) (e : Ecc) : Fetched s (s.eccSpan as m e).1 := by
  unfold State.eccSpan
  split
  · exact .refl s
  · split
    · exact fetched_eccRead ..
    · split <;> exact fetched_eccRead ..

theorem fetched_writeCells (s : State) (cs : List (Nat × Byte)) (m : Nat) (e : Ecc) : Fetched s (s.writeCells cs m e).1 := by
  have hplace {r : State × Bool} (hr : Fetched s r.1) :
      Fetched s (if r.2 then (r.1.placeCells cs m, (r.1.writeLosses cs).isEmpty) else r).1 := by
    split
    · exact hr.trans (fetched_placeCells ..)
    · exact hr
  unfold State.writeCells
  cases partAddr cs with
  | none => exact hplace (.refl s)
  | some a => exact hplace (fetched_eccRead s a m e)

section
variable {s t : State} (h : Counted s t)
include h

theorem Counted.fetched : Fetched s t := by
  refine ⟨by rw [h.frame], fun j => ?_⟩
  have hj := h.core j
  rw [hj]

theorem Counted.mem : t.mem = s.mem := by rw [h.frame]

theorem Counted.getByte (a : Nat) : t.getByte a = s.getByte a := by rw [State.getByte, h.mem, State.getByte]

theorem Counted.holdsError (a : Nat) : t.holdsError a = s.holdsError a := by rw [h.frame]; rfl

theorem Counted.sameReach : SameReach s t :=
  ⟨fun j => by rw [h.frame]; exact ⟨rfl, rfl, rfl, rfl⟩, by rw [h.frame]; exact fun _ h => h, by rw [h.frame]; exact fun _ h => h⟩

theorem Counted.coreXlate (k : Nat) (ring : Fin 4) (kind : AccKind) (va : Nat) : coreXlate t k ring kind va = coreXlate s k ring kind va := by
  have hremote (p rk c pva pg : Nat) : remoteTarget t p kind va rk c pva pg = remoteTarget s p kind va rk c pva pg := by
    obtain ⟨-, -, -, hconns⟩ := h.sameReach.part p
    rw [remoteTarget, remoteTarget, hconns]
  have hprot (j off : Nat) : (t.core j).ringProt ring off = (s.core j).ringProt ring off := by rw [h.core j]; rfl
  have hresident (j off : Nat) : (t.core j).residentOther off = (s.core j).residentOther off := by rw [h.core j]; rfl
  simp only [Machine.coreXlate, h.sameReach.partOfCore, h.sameReach.xlate, h.sameReach.placeFault, hremote, hprot, hresident]

theorem Counted.coreXlateN (k : Nat) (ring : Fin 4) (kind : AccKind) (va n : Nat) :
    coreXlateN t k ring kind va n = coreXlateN s k ring kind va n := by
  induction n generalizing va with
  | zero => rfl
  | succ n ih => simp only [Machine.coreXlateN, h.coreXlate, ih]

theorem Counted.vecXlate (k : Nat) (ring : Fin 4) (kind : AccKind) (va n : Nat) : vecXlate t k ring kind va n = vecXlate s k ring kind va n := by
  rw [Machine.vecXlate, Machine.vecXlate, h.coreXlateN]

theorem Counted.supplies {k : Nat} {ring : Fin 4} {x : VStream} {r c code : Nat} (hs : Supplies s k ring x r c code) :
    Supplies t k ring x r c code := by
  have hbytes (pas : List Nat) : pas.map t.getByte = pas.map s.getByte := List.map_congr_left fun a _ => h.getByte a
  rcases hs with hs | hs | hs | hs
  · exact .inl hs
  · exact .inr (.inl (by rw [fetched_tile h.fetched]; exact hs))
  · exact .inr (.inr (.inl (by rw [fetched_vsu h.fetched]; exact hs)))
  · obtain ⟨hsrc, pas, hx, hclean, hcode⟩ := hs
    exact .inr (.inr (.inr ⟨hsrc, pas, (h.vecXlate ..).trans hx, fun p hp => (h.holdsError p).trans (hclean p hp), by rw [hbytes]; exact hcode⟩))

end

theorem counted_modVsu {s : State} {k : Nat} {f : Vsu → Vsu} (hf : f (s.core k).vsu = (s.core k).vsu) : Counted s (s.modVsu k f) := by
  refine ⟨rfl, fun j => ?_⟩
  rw [State.modVsu, modCore_core]
  split
  case isTrue hj => rw [hj, hf]
  case isFalse => rfl

/-! What the arrays report on accesses in turn. -/

theorem mildHit_now {h : Hit} (hm : MildHit h) : h.now ≠ .uncorrectable := by
  unfold Hit.now
  split
  · exact hm _ _ rfl
  · simp

theorem mildHit_skip {h : Hit} (hm : MildHit h) (n : Nat) : MildHit (h.skip n) := by
  intro m x hx
  unfold Hit.skip at hx
  split at hx
  · split at hx
    · cases hx
      exact hm _ _ rfl
    · cases hx
  · cases hx

/-! ### Where the unit reaches (R96, R99) -/

theorem coreXlateN_length {s : State} {k : Nat} {ring : Fin 4} {kind : AccKind} {va n : Nat} {ts : List Target}
    (h : coreXlateN s k ring kind va n = .ok ts) : ts.length = n := by
  induction n generalizing va ts with
  | zero => cases h; rfl
  | succ n ih =>
    rw [Machine.coreXlateN] at h
    split at h
    case h_1 => cases h
    case h_2 =>
      split at h
      case h_1 => cases h
      case h_2 hrest => cases h; rw [List.length_cons, ih hrest]

/-- A target that the unit may use: a local byte of the core's own scratchpad or its cluster's tun. -/
def ownTarget (k : Nat) : Target → Bool
  | .phys pa _ => ownPlace k pa
  | .remote _ _ _ _ => false

theorem vecXlate_eq (s : State) (k : Nat) (ring : Fin 4) (kind : AccKind) (va n : Nat) : vecXlate s k ring kind va n =
    match coreXlateN s k ring kind va n with
    | .error f => .error f
    | .ok ts =>
      match (List.range n).find? (fun i => !(ts[i]?.map (ownTarget k)).getD false) with
      | some i => .error ⟨6, 8, va + i⟩
      | none => .ok (physAddrs ts) := rfl

theorem physAddrs_of_own {k : Nat} {ts : List Target} (h : ∀ t ∈ ts, ownTarget k t = true) :
    (physAddrs ts).length = ts.length ∧ ∀ pa ∈ physAddrs ts, ownPlace k pa = true := by
  induction ts with
  | nil => exact ⟨rfl, fun _ hpa => absurd hpa List.not_mem_nil⟩
  | cons t ts ih =>
    obtain ⟨ht, hts⟩ := List.forall_mem_cons.mp h
    obtain ⟨hlen, hown⟩ := ih hts
    cases t with
    | remote => cases ht
    | phys pa img => exact ⟨congrArg Nat.succ hlen, List.forall_mem_cons.mpr ⟨ht, hown⟩⟩

/-- The bytes that the unit reaches: one for each of the access, all in its own scratchpad or tun. -/
theorem vecXlate_ok {s : State} {k : Nat} {ring : Fin 4} {kind : AccKind} {va n : Nat} {pas : List Nat}
    (h : vecXlate s k ring kind va n = .ok pas) : pas.length = n ∧ ∀ pa ∈ pas, ownPlace k pa = true := by
  rw [vecXlate_eq] at h
  split at h
  case h_1 => cases h
  case h_2 ts hts =>
    split at h
    case h_1 => cases h
    case h_2 hfind =>
      cases h
      have hlen := coreXlateN_length hts
      have hown : ∀ t ∈ ts, ownTarget k t = true := by
        intro t ht
        obtain ⟨i, hi, rfl⟩ := List.getElem_of_mem ht
        simpa [hi] using List.find?_eq_none.mp hfind i (List.mem_range.mpr (hlen ▸ hi))
      rw [← hlen]
      exact physAddrs_of_own hown

theorem memEnd_le_of_ownPlace {k pa : Nat} (h : ownPlace k pa = true) : memEnd ≤ pa :=
  memEnd_le_of_placeOf fun b hb => by simp [ownPlace, hb] at h

theorem ownPlace_iff {k pa : Nat} : ownPlace k pa = true ↔ (∃ o, placeOf pa = .spad k o) ∨ ∃ o, placeOf pa = .tun (clusterOf k) o := by
  unfold ownPlace
  cases placeOf pa <;> simp

theorem vecXlate_of_phys {s : State} {k : Nat} {ring : Fin 4} {kind : AccKind} {va n : Nat} {pas : List (Nat × Bool)}
    (h : coreXlateN s k ring kind va n = .ok (pas.map (fun p => Target.phys p.1 p.2))) (hown : ∀ p ∈ pas, ownPlace k p.1 = true) :
    vecXlate s k ring kind va n = .ok (pas.map (·.1)) := by
  have hlen : pas.length = n := by simpa using coreXlateN_length h
  have hfind : (List.range n).find? (fun i => !((pas.map (fun p => Target.phys p.1 p.2))[i]?.map (ownTarget k)).getD false) = none := by
    refine List.find?_eq_none.mpr fun i hi => ?_
    have hi : i < pas.length := hlen ▸ List.mem_range.mp hi
    simp [hi, ownTarget, hown _ (List.getElem_mem hi)]
  rw [vecXlate_eq, h]
  dsimp only
  rw [hfind]
  simp [physAddrs, List.filterMap_map]

/-- The descriptor of a VEXEC, fetched (R96, R136). -/
theorem vecFetch_of_descriptorAt {s : State} {k : Nat} {ring : Fin 4} {a : Word} {bs : List Byte} (h : DescriptorAt s k ring a bs) {e : Ecc}
    (he : e ≠ .uncorrectable) : ∃ t, s.vecFetch k ring a e = .ok (t, true, bs) ∧ Counted s t ∧ (e = .clean → t = s) := by
  obtain ⟨halign, pas, hx, hall, rfl⟩ := h
  have hclean : ∀ p ∈ pas.map (·.1), s.holdsError p = false := List.forall_mem_map.mpr fun p hp => (hall p hp).1
  obtain ⟨hread, hcounted⟩ := counted_eccSpan hclean he k
  refine ⟨_, ?_, hcounted, fun hc => by rw [hc, eccSpan_of_clean hclean]⟩
  rw [State.vecFetch, if_neg (not_not.mpr halign), vecXlate_of_phys hx fun p hp => ownPlace_iff.mpr (hall p hp).2]
  dsimp only
  rw [hread, List.map_map]
  rfl

/-! ### Elements read (R98, R99) -/

theorem vread_of_supplies {s : State} {k : Nat} {ring : Fin 4} {x : VStream} {r c code : Nat} (h : Supplies s k ring x r c code) {e : Ecc}
    (he : e ≠ .uncorrectable) (i : Nat) : ∃ t, s.vread k ring e i x r c = .ok code t ∧ Counted s t := by
  rcases h with ⟨hsrc, rfl⟩ | ⟨hsrc, rfl⟩ | ⟨hsrc, rfl⟩ | ⟨hsrc, pas, hx, hclean, rfl⟩
  · exact ⟨s, by simp only [State.vread, hsrc], .refl s⟩
  · refine ⟨s, ?_, .refl s⟩
    simp only [State.vread, hsrc]
    split <;> rfl
  · exact ⟨s, by simp only [State.vread, hsrc, cacheRead_of_ne he]; rfl, .refl s⟩
  · obtain ⟨hread, hcounted⟩ := counted_eccSpan hclean he k
    have hx : vecXlate s k ring .read (x.place r c).1 (elemBytes x.fmt.width (x.place r c).2) = .ok pas := hx
    have hbytes : pas.map (s.eccSpan pas k e).1.getByte = pas.map s.getByte := List.map_congr_left fun a _ => hcounted.getByte a
    refine ⟨(s.eccSpan pas k e).1, ?_, hcounted⟩
    simp only [State.vread, hsrc, hx, hread, if_true, hbytes]
    rfl

/-- The same position of several streams, each with its number. -/
def readsAt (r c : Nat) (xs : List (Nat × VStream)) : List (Nat × VStream × Nat × Nat) := xs.map (fun x => (x.1, x.2, r, c))

theorem arrayEcc_ne {h : Hit} (hm : MildHit h) (x : VStream) : (if x.arrayReads = 0 then Ecc.clean else h.now) ≠ .uncorrectable := by
  split
  · simp
  · exact mildHit_now hm

section
variable {k : Nat} {ring : Fin 4} {r c : Nat} {xs : List (Nat × VStream)}

theorem vreads_supplied {cs : List Nat} {s : State} (hs : List.Forall₂ (fun x code => Supplies s k ring x.2 r c code) xs cs) {h : Hit}
    (hm : MildHit h) : ∃ t, s.vreads k ring h (readsAt r c xs) = .ok cs t ∧ Counted s t := by
  induction xs generalizing cs s h with
  | nil => cases hs; exact ⟨s, rfl, .refl s⟩
  | cons x xs ih =>
    obtain _ | ⟨hx, hxs⟩ := hs
    obtain ⟨u, hu, hsu⟩ := vread_of_supplies hx (arrayEcc_ne hm x.2) x.1
    obtain ⟨t, ht, hut⟩ := ih (hxs.imp fun _ _ => hsu.supplies) (mildHit_skip hm x.2.arrayReads)
    refine ⟨t, ?_, hsu.trans hut⟩
    rw [readsAt, List.map_cons, State.vreads, hu]
    dsimp only
    rw [← readsAt, ht]

theorem vreads_fault {s : State} (hs : ∀ x ∈ xs, ∃ code, Supplies s k ring x.2 r c code) {h : Hit} (hm : MildHit h) {i : Nat} {x : VStream}
    (hsrc : x.src = 1) {f : AFault} (hf : vecXlate s k ring .read (x.place r c).1 (elemBytes x.fmt.width (x.place r c).2) = .error f)
    (ys : List (Nat × VStream)) : s.vreads k ring h (readsAt r c (xs ++ (i, x) :: ys)) = .fault (f.vec i false r c) := by
  induction xs generalizing s h with
  | nil =>
    rw [List.nil_append, readsAt, List.map_cons, State.vreads]
    simp only [State.vread, hsrc, hf]
  | cons y xs ih =>
    obtain ⟨⟨code, hy⟩, hxs⟩ := List.forall_mem_cons.mp hs
    obtain ⟨u, hu, hsu⟩ := vread_of_supplies hy (arrayEcc_ne hm y.2) y.1
    have hrest := ih (fun z hz => (hxs z hz).imp fun _ => hsu.supplies) (mildHit_skip hm y.2.arrayReads) ((hsu.vecXlate ..).trans hf)
    rw [List.cons_append, readsAt, List.map_cons, State.vreads, hu]
    dsimp only
    rw [← readsAt, hrest]

end

/-- Reads that deliver their elements leave what a protected read leaves. -/
theorem fetched_of_vread {s t : State} {k : Nat} {ring : Fin 4} {e : Ecc} {i r c code : Nat} {x : VStream}
    (h : s.vread k ring e i x r c = .ok code t) : Fetched s t := by
  unfold State.vread at h
  dsimp only at h
  split at h
  · cases h; exact .refl s
  · cases h; exact .refl s
  · split at h
    · cases h; exact fetched_cacheRead ..
    · cases h
  · split at h
    · cases h
    · split at h
      · cases h; exact fetched_eccSpan ..
      · cases h

theorem fetched_of_vreads {k : Nat} {ring : Fin 4} {rs : List (Nat × VStream × Nat × Nat)} {s t : State} {h : Hit} {cs : List Nat}
    (hok : s.vreads k ring h rs = .ok cs t) : Fetched s t := by
  induction rs generalizing s h cs with
  | nil => cases hok; exact .refl _
  | cons x rs ih =>
    obtain ⟨i, y, r, c⟩ := x
    rw [State.vreads] at hok
    split at hok
    case h_1 => cases hok
    case h_2 => cases hok
    case h_3 hread =>
      split at hok
      case h_1 hrest => cases hok; exact (fetched_of_vread hread).trans (ih hrest)
      case h_2 hne => exact absurd hok (hne _ _)

/-! ### An element written (R30, R99) -/

/-- Whether an element is the last of a row of narrow elements, whose unused bits its write clears (R30). -/
def endsRow (x : VStream) (cols c : Nat) : Bool := decide (x.fmt.width < 8) && decide (c + 1 = cols) && !x.xpose

/-- The bytes that the write of an element of D covers. -/
def writtenBytes (x : VStream) (cols r c : Nat) : Nat :=
  min (if endsRow x cols c then x.fmt.packedBytes cols - c * x.fmt.width / 8 else elemBytes x.fmt.width (x.place r c).2)
    ((if x.src = 2 then 65536 else 2 ^ 48) - (x.place r c).1)

/-- What it leaves in them. -/
def newBytes (x : VStream) (cols r c code : Nat) (old : List Byte) : List Byte :=
  patchBits old (x.place r c).2 x.fmt.width code (endsRow x cols c)

/-- The check of a write of n bytes into the operand cache at an offset: a part of an entry is read first (R136). -/
def entryRead (s : State) (k : Nat) (e : Ecc) (o n : Nat) : State × Bool := if o % 16 = 0 ∧ n = 16 then (s, true) else s.cacheRead k e

theorem entryRead_of_ne {e : Ecc} (he : e ≠ .uncorrectable) (s : State) (k o n : Nat) : entryRead s k e o n = (s, true) := by
  rw [entryRead, cacheRead_of_ne he, ite_self]

theorem fetched_entryRead (s : State) (k : Nat) (e : Ecc) (o n : Nat) : Fetched s (entryRead s k e o n).1 := by
  unfold entryRead
  split
  · exact .refl s
  · exact fetched_cacheRead ..

/-- The n bytes of the operand cache at an offset. -/
def cacheBytes (u : Vsu) (o n : Nat) : List Byte := (List.range n).map (fun j => mget 0 u.cache (o + j))

/-- n bytes of the operand cache written at an offset. -/
def cachePut (o n : Nat) (bs : List Byte) (u : Vsu) : Vsu :=
  { u with cache := (List.range n).foldl (fun m j => mput m (o + j) (bs.getD j 0)) u.cache }

theorem mget_cachePut (o n : Nat) (bs : List Byte) (u : Vsu) :
    (∀ j < n, mget 0 (cachePut o n bs u).cache (o + j) = bs.getD j 0)
      ∧ ∀ b, (b < o ∨ o + n ≤ b) → mget 0 (cachePut o n bs u).cache b = mget 0 u.cache b := by
  obtain ⟨hset, hkeep⟩ := mget_foldl_mput 0 (o + ·) (fun j => bs.getD j 0) (l := List.range n)
    (List.nodup_range.map fun _ _ h => Nat.add_left_cancel h) u.cache
  refine ⟨fun j hj => hset j (List.mem_range.mpr hj), fun b hb => hkeep b fun hmem => ?_⟩
  obtain ⟨j, hj, rfl⟩ := List.mem_map.mp hmem
  have hj := List.mem_range.mp hj
  omega

theorem sameUnit_cachePut (s : State) (k o n : Nat) (bs : List Byte) : SameUnit k s (s.modVsu k (cachePut o n bs)) := by
  refine ⟨?_, ?_, ?_⟩ <;> rw [modVsu_core]
  rfl

@[simp] theorem patchBits_length (old : List Byte) (b w code : Nat) (clear : Bool) : (patchBits old b w code clear).length = old.length := by
  rw [patchBits, leBytes_length]

theorem writeCells_of_mild {s : State} {cs : List (Nat × Byte)} (h : ∀ c ∈ cs, s.holdsError c.1 = false) {e : Ecc} (he : e ≠ .uncorrectable)
    (m : Nat) : ∃ u, Counted s u ∧ s.writeCells cs m e = (u.placeCells cs m, true) := by
  cases ha : partAddr cs with
  | none => exact ⟨s, .refl s, by simp [State.writeCells, ha, writeLosses_of_clean h]⟩
  | some a =>
    obtain ⟨c, hc, rfl⟩ := Option.map_eq_some_iff.mp ha
    obtain ⟨hread, hcounted⟩ := counted_eccRead (h c (List.mem_of_find?_eq_some hc)) he m
    have hclean : ∀ c ∈ cs, (s.eccRead _ m e).1.holdsError c.1 = false := fun x hx => (hcounted.holdsError x.1).trans (h x hx)
    exact ⟨_, hcounted, by simp [State.writeCells, ha, hread, writeLosses_of_clean hclean]⟩

section
variable {s : State} {k : Nat} {ring : Fin 4} {e : Ecc} {x : VStream} {cols r c : Nat}

theorem vwrite_eq (code : Nat) : s.vwrite k ring e x cols r c code =
    if x.src = 2 then
      let q := entryRead s k e (x.place r c).1 (writtenBytes x cols r c)
      if !q.2 then .lost q.1
      else .ok () (q.1.modVsu k (cachePut (x.place r c).1 (writtenBytes x cols r c)
        (newBytes x cols r c code (cacheBytes (s.core k).vsu (x.place r c).1 (writtenBytes x cols r c)))))
    else
      match vecXlate s k ring .write (x.place r c).1 (writtenBytes x cols r c) with
      | .error f => .fault (f.vec 0 true r c)
      | .ok pas =>
        let q := s.writeCells (pas.zip (newBytes x cols r c code (pas.map s.getByte))) k e
        if q.2 then .ok () q.1 else .lost q.1 := rfl

theorem vwrite_cache (hsrc : x.src = 2) (he : e ≠ .uncorrectable) (code : Nat) : s.vwrite k ring e x cols r c code =
    .ok () (s.modVsu k (cachePut (x.place r c).1 (writtenBytes x cols r c)
      (newBytes x cols r c code (cacheBytes (s.core k).vsu (x.place r c).1 (writtenBytes x cols r c))))) := by
  rw [vwrite_eq, if_pos hsrc, entryRead_of_ne he]
  rfl

theorem vwrite_memory (hsrc : x.src = 1) (he : e ≠ .uncorrectable) {pas : List Nat}
    (hx : vecXlate s k ring .write (x.place r c).1 (writtenBytes x cols r c) = .ok pas) (hclean : ∀ a ∈ pas, s.holdsError a = false) (code : Nat) :
    ∃ t, s.vwrite k ring e x cols r c code = .ok () t ∧ Fetched s t
      ∧ ∀ b, t.getByte b = (s.placeAt (pas.zip (newBytes x cols r c code (pas.map s.getByte)))).getByte b := by
  have hcells : ∀ y ∈ pas.zip (newBytes x cols r c code (pas.map s.getByte)), s.holdsError y.1 = false :=
    fun y hy => hclean _ (List.of_mem_zip hy).1
  obtain ⟨u, hsu, hwrite⟩ := writeCells_of_mild hcells he k
  have hplaced := cellsPlaced_placeCells (fun y hy => (hsu.holdsError y.1).trans (hcells y hy)) k
  refine ⟨u.placeCells (pas.zip (newBytes x cols r c code (pas.map s.getByte))) k, ?_, hsu.fetched.trans (fetched_placeCells ..), fun b => ?_⟩
  · rw [vwrite_eq, if_neg (by rw [hsrc]; decide), hx]
    dsimp only
    rw [hwrite]
    rfl
  · rw [State.getByte, hplaced.mem, hsu.mem, ← placeAt_mem]
    rfl

/-- A write that succeeds leaves the unit as it was but for the bytes of its operand cache. -/
theorem sameUnit_of_vwrite {t : State} {code : Nat} (h : s.vwrite k ring e x cols r c code = .ok () t) : SameUnit k s t := by
  rw [vwrite_eq] at h
  split at h
  · dsimp only at h
    split at h
    · cases h
    · obtain rfl := (VRes.ok.inj h).2
      exact (fetched_sameUnit (fetched_entryRead ..) k).trans (sameUnit_cachePut ..)
  · split at h
    · cases h
    · dsimp only at h
      split at h
      · obtain rfl := (VRes.ok.inj h).2
        exact fetched_sameUnit (fetched_writeCells ..) k
      · cases h

end

theorem leBytes_take {m n : Nat} (h : m ≤ n) (v : Nat) : (leBytes n v).take m = leBytes m v := by
  induction m generalizing n v with
  | zero => rfl
  | succ m ih =>
    obtain ⟨n, rfl⟩ : ∃ d, n = d + 1 := ⟨n - 1, by omega⟩
    rw [leBytes, leBytes, List.take_succ_cons, ih (by omega)]

/-- The bits that a patch puts in place read back as the code (R99). -/
theorem leNat_patchBits {old : List Byte} {b w m : Nat} (hm : m ≤ old.length) (hw : b + w ≤ 8 * m) (code : Nat) (clear : Bool) :
    leNat ((patchBits old b w code clear).take m) / 2 ^ b % 2 ^ w = code % 2 ^ w := by
  obtain ⟨high, hhigh⟩ : ∃ high, (if clear then 0 else leNat old / 2 ^ (b + w) * 2 ^ (b + w)) = 2 ^ b * (2 ^ w * high) := by
    split
    · exact ⟨0, by simp⟩
    · exact ⟨leNat old / 2 ^ (b + w), by rw [pow_add]; ring⟩
  have hlow : leNat old % 2 ^ b < 2 ^ b := Nat.mod_lt _ (Nat.two_pow_pos b)
  have hmod : (256 : Nat) ^ m = 2 ^ b * (2 ^ w * 2 ^ (8 * m - (b + w))) := by
    rw [← pow_add, ← pow_add, show (256 : Nat) = 2 ^ 8 from rfl, ← pow_mul]
    congr 1
    omega
  have hvalue : 2 ^ b * (2 ^ w * high) + code % 2 ^ w * 2 ^ b + leNat old % 2 ^ b
      = leNat old % 2 ^ b + 2 ^ b * (code % 2 ^ w + 2 ^ w * high) := by ring
  rw [patchBits]
  rw [leBytes_take hm, leNat_leBytes, hhigh, hvalue, hmod, Nat.mod_mul_right_div_self, Nat.add_mul_div_left _ _ (Nat.two_pow_pos b),
    Nat.div_eq_of_lt hlow, Nat.zero_add, Nat.mod_mul_right_mod, Nat.add_mul_mod_self_left, Nat.mod_mod]

theorem elemBytes_le_packed {f : Fmt} (hf : f.width < 8) (c : Nat) :
    elemBytes f.width (c * f.width % 8) ≤ f.packedBytes (c + 1) - c * f.width / 8 := by
  cases f <;> simp [Fmt.width] at hf <;> simp [Fmt.width, Fmt.packedBytes, elemBytes, ceilDiv] <;> omega

/-- A write covers its whole element where there is room for it. -/
theorem elemBytes_le_written {x : VStream} {r c : Nat}
    (hroom : elemBytes x.fmt.width (x.place r c).2 ≤ (if x.src = 2 then 65536 else 2 ^ 48) - (x.place r c).1) (cols : Nat) :
    elemBytes x.fmt.width (x.place r c).2 ≤ writtenBytes x cols r c := by
  refine le_min ?_ hroom
  split
  case isFalse => exact le_rfl
  case isTrue hlast =>
    simp only [endsRow, Bool.and_eq_true, decide_eq_true_eq, Bool.not_eq_true'] at hlast
    obtain ⟨⟨hnarrow, rfl⟩, hrow⟩ := hlast
    have hbit : (x.place r c).2 = c * x.fmt.width % 8 := by simp [VStream.place, hrow]
    rw [hbit]
    exact elemBytes_le_packed hnarrow c

end Sys2Proof.Proofs
end

section
/-!
PROOFS. Vector instructions at issue (O25): VEXEC copies the descriptor that it checks, VCACHE checks its operands, both meet the frozen
entries and the queue's room first, and VSYNC waits for the queue and for what is frozen (R95, R96, R100, R109, R111).
-/
namespace Sys2Proof.Proofs
open Sys2Proof Sys2Proof.Machine Sys2Proof.Stated Sys2Proof.Laws

theorem vsuDepth_eq_queueRoom (u : Vsu) : u.depth = queueRoom u.iqd := by
  rw [Vsu.depth, queueRoom]
  rcases u.iqd with _ | _ | n
  · rfl
  · rfl
  · cases n <;> rfl

/-! ### What an instruction of the unit leaves -/

/-- The core with an instruction at the end of its vector queue and its issue count advanced (R95). -/
def vecQueued (op : VecOp) (desc : List Byte) (c : Core) : Core :=
  { c with stamp := c.stamp + 1,
           vsu := { c.vsu with queue := c.vsu.queue ++ [{ op := op, desc := desc, iaddr := c.pc, ring := c.ring, stamp := c.stamp }] } }

theorem vecEnqueue_eq (s : State) (k : Nat) (i : Instr) (pops : Nat) (op : VecOp) (desc : List Byte) :
    s.vecEnqueue k i pops op desc = popAdvance s k pops (instrBytes i).length (vecQueued op desc) := rfl

theorem popAdvance_vecQueued_vsu (s : State) (k n len : Nat) (op : VecOp) (desc : List Byte) :
    ((popAdvance s k n len (vecQueued op desc)).core k).vsu = { (s.core k).vsu with
      queue := (s.core k).vsu.queue
        ++ [{ op := op, desc := desc, iaddr := (s.core k).pc, ring := (s.core k).ring, stamp := (s.core k).stamp }] } := by
  have hvsu (u : State) (g : Core → Core) : ((popAdvance u k n len g).core k).vsu = (g ((u.stackEffect k .data n []).core k)).vsu := by
    rw [popAdvance, State.advance, modCore_core, if_pos rfl, modCore_core, if_pos rfl]
    rfl
  rw [hvsu, vecQueued, stackEffect_pc, (stackFrame_effect s k .data n []).2.2.1]
  rfl

/-- A stack effect after a read that changes no entry. -/
theorem Counted.stacked {s u t : State} (h : Counted s u) {k n : Nat} {x : Stk} {r : List Word} (hs : Stacked u t k x n r) :
    Stacked s t k x n r := by
  have hbank : (u.core k).bank = (s.core k).bank := h.fetched.bank k
  have hget (a : Nat) : u.stackGet k a = s.stackGet k a := by
    rw [h.frame]
    rfl
  have hentry (i : Nat) : u.entry k x i = s.entry k x i := by simp only [State.entry, State.stackEntry, hbank, hget]
  simpa only [Stacked, hbank, hentry] using hs

/-- An instruction that enters the vector queue of a core whose fetch has been made. -/
theorem vecEnqueue_enters {s f u : State} (hf : Fetched s f) (hu : Counted f u) (k : CoreId) (i : Instr) (n : Nat) (op : VecOp)
    (desc : List Byte) :
    let t := u.vecEnqueue k.val i n op desc
    Stacked f t k.val .data n [] ∧ (t.core k.val).pc = pcAfter s k i
      ∧ (t.core k.val).vsu = { (s.core k.val).vsu with queue := (s.core k.val).vsu.queue
          ++ [{ op := op, desc := desc, iaddr := (s.core k.val).pc, ring := (s.core k.val).ring, stamp := (s.core k.val).stamp }] } := by
  have hsu : Fetched s u := hf.trans hu.fetched
  have hbank (c : Core) : (vecQueued op desc c).bank = c.bank := rfl
  intro t
  refine ⟨hu.stacked (popAdvance_stacked u k.val n _ hbank), ?_, ?_⟩
  · rw [show t = _ from vecEnqueue_eq .., popAdvance_pc _ _ _ _ hbank, fetched_pc hsu, pcAfter]
  · rw [show t = _ from vecEnqueue_eq .., popAdvance_vecQueued_vsu, fetched_pc hsu, fetched_vsu hsu, hsu.2 k.val]

/-- A fault found at issue writes VSU_FINFO and is raised with the stacks as they were (R100). -/
theorem vecIssueFault_eq {s f : State} {k : Nat} (hf : Fetched s f) (cause stream : Nat) :
    ∃ g : State, f.vecIssueFault k cause stream (vecDescEv cause) = g.raise k { code := 0x0F, cause := cause }
      ∧ (g.core k).bank = (s.core k).bank
      ∧ (g.core k).vsu = { (s.core k).vsu with fcause := cause, fstream := stream, fwr := false, fiaddr := (s.core k).pc.toNat } := by
  refine ⟨_, rfl, ?_, ?_⟩
  · rw [modVsu_core]
    exact hf.bank k
  · rw [modVsu_core, fetched_pc hf, fetched_vsu hf]
    rfl

/-! ### Issue -/

theorem notOnMaltster_of_ne {k : CoreId} (hk : k.val ≠ maltsterCore) : notOnMaltster k = none := if_neg hk

theorem notOnMaltsterM_of_ne {k : CoreId} (hk : k.val ≠ maltsterCore) (d : Disp) : notOnMaltsterM k d = none := if_neg hk

/-- What VEXEC does that meets no frozen entry and a queue with room (R96, R100). -/
def vexecGo (k : CoreId) (d : DescRead) (s : State) : Out :=
  let a := s.entry k.val .data 0 + dispVal d.disp
  match s.vecFetch k.val (s.core k.val).ring a d.hit.now with
  | .error f => .next (s.vecIssueFault k.val (finfoCause f) vFetchStream f.ev)
  | .ok (t, false, _) => .next (t.stopCore k.val)
  | .ok (t, true, bs) =>
    match vecCheck bs with
    | some (cause, stream) => .next (t.vecIssueFault k.val cause stream (vecDescEv cause))
    | none => .next (t.vecEnqueue k.val (.vexec k d) 1 (.vexec a) bs)

/-- The same for VCACHE (R109). -/
def vcacheGo (k : CoreId) (s : State) : Out :=
  let o := operands s k.val 4
  match s.vcacheCheck k.val (o.getD 0 0) (o.getD 1 0) (o.getD 2 0) (o.getD 3 0) with
  | some cause => .next (s.vecIssueFault k.val cause vCacheStream (vecDescEv cause))
  | none => .next (s.vecEnqueue k.val (.vcache k) 4 (.vcache (o.getD 0 0) (o.getD 1 0).toNat (o.getD 2 0).toNat (o.getD 3 0).toNat) [])

/-- A vector instruction on fetched state s meets the frozen entries, then the queue's room, then its own checks. -/
def vecIssue (k : CoreId) (i : Instr) (stream : Nat) (go : State → Out) (s : State) : Out :=
  if !(s.core k.val).vsu.frozen.isEmpty then .next (s.vecIssueFault k.val vPending stream (vecDescEv vPending))
  else if (s.core k.val).vsu.depth ≤ (s.core k.val).vsu.queue.length then .next (s.waitAt k.val i)
  else go s

theorem execVexec_eq (k : CoreId) (d : DescRead) (s : State) : exec (.vexec k d) s =
    coreInstr k { bytes := instrBytes (.vexec k d), pops := 1, illegal := notOnMaltsterM k d.disp }
      (vecIssue k (.vexec k d) vHeaderStream (vexecGo k d)) s := rfl

theorem execVcache_eq (k : CoreId) (s : State) : exec (.vcache k) s =
    coreInstr k { bytes := instrBytes (.vcache k), pops := 4, illegal := notOnMaltster k } (vecIssue k (.vcache k) vCacheStream (vcacheGo k)) s := rfl

section
variable {k : CoreId} {s : State} {i : Instr} {n : Nat}

theorem vecIssue_runs {illegal : Option Nat} (hillegal : illegal = none) (hready : Ready s k i n 0) (stream : Nat) (go : State → Out) :
    coreInstr k { bytes := instrBytes i, pops := n, illegal := illegal } (vecIssue k i stream go) s =
      if (s.core k.val).vsu.frozen ≠ [] then .next ((fetchOf s k i).vecIssueFault k.val vPending stream (vecDescEv vPending))
      else if queueRoom (s.core k.val).vsu.iqd ≤ (s.core k.val).vsu.queue.length then .next ((fetchOf s k i).waitAt k.val i)
      else go (fetchOf s k i) := by
  have h3 : (s.core k.val).ring.val ≤ 3 := Nat.le_of_lt_succ (s.core k.val).ring.isLt
  have hvsu : ((fetchOf s k i).core k.val).vsu = (s.core k.val).vsu := fetched_vsu (fetched_fetched s k.val _) k.val
  rw [coreInstr_runs k _ _ s hready.1 hillegal h3 hready.2 (fits_zero s k.val .ret), ← fetchOf, vecIssue, hvsu, vsuDepth_eq_queueRoom]
  refine if_congr ?_ rfl rfl
  rw [Bool.not_eq_true', List.isEmpty_eq_false_iff]

variable (hk : k.val ≠ maltsterCore)
include hk

/-- With an entry frozen an instruction is refused, with a full queue it waits, whatever its operands (R95, R111). -/
theorem exec_vecIssue (hi : (∃ d, i = .vexec k d ∧ n = 1) ∨ (i = .vcache k ∧ n = 4)) (hready : Ready s k i n 0) : ∃ go : State → Out,
    exec i s =
      if (s.core k.val).vsu.frozen ≠ [] then
        .next ((fetchOf s k i).vecIssueFault k.val vPending (if n = 1 then 5 else 6) (vecDescEv vPending))
      else if queueRoom (s.core k.val).vsu.iqd ≤ (s.core k.val).vsu.queue.length then .next ((fetchOf s k i).waitAt k.val i)
      else go (fetchOf s k i) := by
  rcases hi with ⟨d, rfl, rfl⟩ | ⟨rfl, rfl⟩
  · exact ⟨vexecGo k d, (execVexec_eq k d s).trans (vecIssue_runs (notOnMaltsterM_of_ne hk _) hready _ _)⟩
  · exact ⟨vcacheGo k, (execVcache_eq k s).trans (vecIssue_runs (notOnMaltster_of_ne hk) hready _ _)⟩

variable (hfrozen : (s.core k.val).vsu.frozen = []) (hroom : (s.core k.val).vsu.queue.length < queueRoom (s.core k.val).vsu.iqd)
include hfrozen hroom

theorem exec_vexec {d : DescRead} (hready : Ready s k (.vexec k d) 1 0) : exec (.vexec k d) s = vexecGo k d (fetchOf s k (.vexec k d)) := by
  rw [execVexec_eq, vecIssue_runs (notOnMaltsterM_of_ne hk _) hready, if_neg (not_not.mpr hfrozen), if_neg (Nat.not_le.mpr hroom)]

theorem exec_vcache (hready : Ready s k (.vcache k) 4 0) : exec (.vcache k) s = vcacheGo k (fetchOf s k (.vcache k)) := by
  rw [execVcache_eq, vecIssue_runs (notOnMaltster_of_ne hk) hready, if_neg (not_not.mpr hfrozen), if_neg (Nat.not_le.mpr hroom)]

end

section
variable {k : CoreId} {s f : State}

/-- VEXEC with a descriptor that it can copy. -/
theorem vexecGo_copies {d : DescRead} {bs : List Byte}
    (hdesc : DescriptorAt s k.val (s.core k.val).ring (s.entry k.val .data 0 + dispVal d.disp) bs) (hmild : MildHit d.hit) :
    ∃ t, Counted s t ∧ vexecGo k d s =
      match vecCheck bs with
      | some (cause, stream) => .next (t.vecIssueFault k.val cause stream (vecDescEv cause))
      | none => .next (t.vecEnqueue k.val (.vexec k d) 1 (.vexec (s.entry k.val .data 0 + dispVal d.disp)) bs) := by
  obtain ⟨t, hfetch, hcounted, -⟩ := vecFetch_of_descriptorAt hdesc (mildHit_now hmild)
  refine ⟨t, hcounted, ?_⟩
  unfold vexecGo
  dsimp only
  rw [hfetch]

theorem exec_vsync (hk : k.val ≠ maltsterCore) (hready : Ready s k (.vsync k) 0 0) (hf : fetchOf s k (.vsync k) = f) :
    exec (.vsync k) s =
      if (s.core k.val).vsu.queue = [] ∧ (s.core k.val).vsu.frozen = [] then .next (f.advance k.val (instrBytes (.vsync k)).length)
      else .next (f.waitAt k.val (.vsync k)) := by
  have h3 : (s.core k.val).ring.val ≤ 3 := Nat.le_of_lt_succ (s.core k.val).ring.isLt
  have hvsu : (f.core k.val).vsu = (s.core k.val).vsu := hf ▸ fetched_vsu (fetched_fetched s k.val _) k.val
  change execVsync k s = _
  unfold execVsync
  rw [coreInstr_runs k _ _ s hready.1 (notOnMaltster_of_ne hk) h3 (fits_zero s k.val .data) (fits_zero s k.val .ret),
    show s.fetched k.val (instrBytes (.vsync k)).length = f from hf, hvsu]
  exact if_congr (by simp) rfl rfl

end

theorem vcacheCheck_of_ok {s : State} {k : Nat} {base off len dir : Word} (h : VcacheOk s k base off len dir) :
    s.vcacheCheck k base off len dir = none := by
  obtain ⟨hdir, hbase, hoff, hlen, hroom, hreach⟩ := h
  have hzero : ¬(decide (dir = 2) && base != 0) = true := by simpa using hbase
  have hshape : ¬(decide (off.toNat % 64 ≠ 0) || decide (len.toNat % 64 ≠ 0) || decide (65536 < off.toNat + len.toNat)) = true := by
    simp [hoff, hlen, hroom]
  rw [State.vcacheCheck, if_neg (Nat.not_le.mpr hdir), if_neg hzero, if_neg (by omega)]
  split
  case isTrue => rfl
  case isFalse hmove =>
    obtain ⟨halign, pa, img, hx, hown⟩ := hreach hmove
    rw [if_neg (not_not.mpr halign), hx]
    exact if_pos (ownPlace_iff.mpr hown)

/-- Settles O25: what each of the three instructions finds after its fetch decides what it leaves. -/
theorem vectorInstructionsIssue : Obligations.VectorInstructionsIssue := by
  unfold Obligations.VectorInstructionsIssue
  refine ⟨?_, ?_, ?_, ?_⟩
  · intro k d h s bs hmild i f u a hready hk hfrozen hroom hdesc
    have hfetched : Fetched s f := fetched_fetched s k.val _
    have hrun : exec i s = vexecGo k ⟨d, h⟩ f := exec_vexec hk hfrozen hroom hready
    obtain ⟨t, hcounted, hgo⟩ := vexecGo_copies (d := ⟨d, h⟩) (s := f) (by rw [hfetched.ring]; exact hdesc) hmild
    rw [hgo] at hrun
    refine ⟨fun hok => ?_, fun cause stream hbad => ?_⟩
    · rw [hok] at hrun
      exact ⟨_, hrun, vecEnqueue_enters hfetched hcounted k i 1 (.vexec a) bs⟩
    · rw [hbad] at hrun
      obtain ⟨g, hg, hbank, hvsu⟩ := vecIssueFault_eq (hfetched.trans hcounted.fetched) cause stream
      exact ⟨g, hrun.trans (congrArg _ hg), hbank, hvsu⟩
  · intro k s i u f o hready hk hfrozen hroom hok
    have hrun : exec i s = vcacheGo k f := exec_vcache hk hfrozen hroom hready
    unfold vcacheGo at hrun
    dsimp only at hrun
    rw [vcacheCheck_of_ok hok] at hrun
    exact ⟨_, hrun, vecEnqueue_enters (fetched_fetched s k.val _) (.refl f) k i 4 _ []⟩
  · intro k i n s hi u hready hk
    have hfetched : Fetched s (fetchOf s k i) := fetched_fetched s k.val _
    obtain ⟨go, hrun⟩ := exec_vecIssue hk hi hready
    refine ⟨fun hfrozen hfull => ?_, fun hfrozen => ?_⟩
    · rw [if_neg (not_not.mpr hfrozen), if_pos hfull] at hrun
      exact ⟨_, hrun, waitsAt_waitAt hfetched i⟩
    · rw [if_pos hfrozen] at hrun
      obtain ⟨g, hg, hbank, hvsu⟩ := vecIssueFault_eq hfetched vPending (if n = 1 then 5 else 6)
      exact ⟨g, hrun.trans (congrArg _ hg), hbank, by rw [hvsu]; rfl, by rw [hvsu]⟩
  · intro k s hready hk
    have hfetched : Fetched s (fetchOf s k (.vsync k)) := fetched_fetched s k.val _
    have hrun := exec_vsync hk hready rfl
    refine ⟨fun hqueue hfrozen => ?_, fun hbusy => ?_⟩
    · rw [if_pos ⟨hqueue, hfrozen⟩, advance_jump] at hrun
      exact ⟨_, hrun, by rw [jump_pc, fetched_pc hfetched, pcAfter]⟩
    · rw [if_neg (by rwa [not_and_or])] at hrun
      exact ⟨_, hrun, waitsAt_waitAt hfetched _⟩

end Sys2Proof.Proofs
end

section
/-!
PROOFS. Element-wise operations (O26): how a row of the vector unit begins on the head of the queue, restarted or not (R76, R111), the one
way that the rows of R102 produce an output (R99, R101, R112), and outputs in turn.
-/
namespace Sys2Proof.Proofs
open Sys2Proof Sys2Proof.Machine Sys2Proof.Stated Sys2Proof.Laws

/-! ### How an operation begins (R111) -/

theorem vecHead_of_core {s t : State} {k : Nat} (h : t.core k = s.core k) : t.vecHead k = s.vecHead k := by
  rw [State.vecHead, State.vecHead, h]

/-- The head of the queue with its restart behind it. -/
def settled (s : State) (k : Nat) : State := s.modVsu k (fun u => u.modHead (fun e => { e with reread := false }))

theorem settle_of_head {u : Vsu} {e : VecEntry} {rest : List VecEntry} (hq : u.queue = e :: rest) (hread : e.reread = false) :
    u.modHead (fun e => { e with reread := false }) = u := modHead_of_fixed hq (by rw [← hread])

theorem vecReread_settled {e : VecEntry} (hread : e.reread = false) (s : State) (k : Nat) (h : Ecc) :
    s.vecReread k e h = .ok () (settled s k) := by
  rw [State.vecReread, hread]
  cases e.op <;> rfl

/-- What a restart leaves that reads its descriptor: the head with another descriptor, or the one it had. -/
theorem vecReread_ok {s t : State} {k : Nat} {e : VecEntry} {h : Ecc} (hok : s.vecReread k e h = .ok () t) :
    ∃ u g, Fetched s u ∧ t = u.modVsu k (fun v => v.modHead g) ∧ ∀ x : VecEntry, (g x).reread = false ∧ (g x).op = x.op := by
  unfold State.vecReread at hok
  split at hok
  case h_1 a _ _ =>
    split at hok
    case h_1 => cases hok
    case h_2 => cases hok
    case h_3 u bs hfetch =>
      have hu : Fetched s u := by
        unfold State.vecFetch at hfetch
        split at hfetch
        · cases hfetch
        · split at hfetch
          · cases hfetch
          · obtain ⟨rfl, -⟩ := Prod.mk.inj (Except.ok.inj hfetch)
            exact fetched_eccSpan ..
      split at hok
      case h_1 => cases hok
      case h_2 => exact ⟨u, _, hu, (VRes.ok.inj hok).2.symm, fun x => ⟨rfl, rfl⟩⟩
  case h_2 => exact ⟨s, _, .refl s, (VRes.ok.inj hok).2.symm, fun x => ⟨rfl, rfl⟩⟩

section
variable {s : State} {k op : Nat} {e : VecEntry}

theorem vecBegin_none (hh : s.vecHead k = none) (h : Hit) (run : State → VecEntry → Hit → State) : s.vecBegin k op h run = s := by
  rw [State.vecBegin, hh]

/-- An operation at a head whose descriptor stands begins at once. -/
theorem vecBegin_ready (hh : s.vecHead k = some e) (hread : e.reread = false) {a : Word} (hop : e.op = .vexec a) (hcode : (vhead e.desc).op = op)
    (h : Hit) (run : State → VecEntry → Hit → State) :
    s.vecBegin k op h run = run (settled s k) e h ∧ (settled s k).core k = s.core k ∧ Counted s (settled s k) := by
  obtain ⟨rest, hq, -⟩ := queue_of_vecHead hh
  have hcore : (settled s k).core k = s.core k := by rw [settled, modVsu_core, settle_of_head hq hread]
  refine ⟨?_, hcore, counted_modVsu (settle_of_head hq hread)⟩
  rw [State.vecBegin, hh]
  dsimp only
  rw [hop]
  dsimp only
  rw [vecReread_settled hread]
  dsimp only
  rw [vecHead_of_core hcore, hh]
  dsimp only
  rw [if_pos hcode, hread]
  rfl

/-- Nothing is written where the core stands in the state's map. -/
theorem vecBegin_listed (hl : Listed s k) (hh : s.vecHead k = some e) (hread : e.reread = false) {a : Word} (hop : e.op = .vexec a)
    (hcode : (vhead e.desc).op = op) (h : Hit) (run : State → VecEntry → Hit → State) : s.vecBegin k op h run = run s e h := by
  obtain ⟨rest, hq, -⟩ := queue_of_vecHead hh
  rw [(vecBegin_ready hh hread hop hcode h run).1, settled, hl.modVsu_eq (settle_of_head hq hread)]

/-- An operation begins nothing, and would again begin nothing; or it runs on a head whose descriptor stands. -/
theorem vecBegin_cases (s : State) (k op : Nat) (h : Hit) :
    (∃ t, ∀ run, s.vecBegin k op h run = t ∧ t.vecBegin k op h run = t)
      ∨ ∃ s1 e1 h1 a, s1.vecHead k = some e1 ∧ e1.reread = false ∧ e1.op = .vexec a ∧ (vhead e1.desc).op = op ∧ Listed s1 k
          ∧ ∀ run, s.vecBegin k op h run = run s1 e1 h1 := by
  have hstill {t : State} (ht : ∀ run, s.vecBegin k op h run = t) (hh : t.vecHead k = none) :
      ∃ t, ∀ run, s.vecBegin k op h run = t ∧ t.vecBegin k op h run = t := ⟨t, fun run => ⟨ht run, vecBegin_none hh h run⟩⟩
  cases hh : s.vecHead k with
  | none => exact .inl (hstill (fun run => vecBegin_none hh h run) hh)
  | some e =>
    obtain ⟨rest, hq, -⟩ := queue_of_vecHead hh
    cases hop : e.op with
    | vcache base off len dir =>
      have hs (run : State → VecEntry → Hit → State) : s.vecBegin k op h run = s := by simp only [State.vecBegin, hh, hop]
      exact .inl ⟨s, fun run => ⟨hs run, hs run⟩⟩
    | vexec a =>
      cases hr : s.vecReread k e h.now with
      | fault f => exact .inl (hstill (fun run => by simp only [State.vecBegin, hh, hop, hr]) (vecFail_vecHead hq f))
      | lost u => exact .inl (hstill (fun run => by simp only [State.vecBegin, hh, hop, hr]) (vecLost_vecHead u k))
      | ok x s1 =>
        obtain ⟨u, g, hu, rfl, hg⟩ := vecReread_ok hr
        have hq1 : ((u.modVsu k (fun v => v.modHead g)).core k).vsu.queue = g e :: rest := by
          rw [modVsu_core, modHead_of_queue (by rw [fetched_vsu hu, hq])]
        cases hh1 : (u.modVsu k (fun v => v.modHead g)).vecHead k with
        | none => exact .inl (hstill (fun run => by simp only [State.vecBegin, hh, hop, hr, hh1]) hh1)
        | some e1 =>
          by_cases hcode : (vhead e1.desc).op = op
          · obtain ⟨rest1, hq1', -⟩ := queue_of_vecHead hh1
            obtain ⟨rfl, -⟩ := List.cons.inj (hq1.symm.trans hq1')
            refine .inr ⟨_, _, if e.reread then h.next else h, a, hh1, (hg e).1, (hg e).2.trans hop, hcode, listed_modVsu .., fun run => ?_⟩
            simp only [State.vecBegin, hh, hop, hr, hh1, if_pos hcode]
          · have hs (run : State → VecEntry → Hit → State) : s.vecBegin k op h run = s := by
              simp only [State.vecBegin, hh, hop, hr, hh1, if_neg hcode]
            exact .inl ⟨s, fun run => ⟨hs run, hs run⟩⟩

end

/-! ### The rows of R102 -/

/-- The element-wise row of an OP. -/
def elemInstr (k : CoreId) (op n : Nat) (h : Hit) : Instr :=
  match op with
  | 0x01 => .vCvt k n h
  | 0x02 => .vAdd k n h
  | 0x03 => .vSub k n h
  | 0x04 => .vMul k n h
  | 0x05 => .vFma k n h
  | 0x06 => .vAxpby k n h
  | 0x07 => .vMax k n h
  | 0x08 => .vMin k n h
  | 0x09 => .vAbs k n h
  | 0x0A => .vNeg k n h
  | 0x0B => .vSel k n h
  | 0x0C => .vDiv k n h
  | 0x0D => .vSqrt k n h
  | 0x0E => .vRsqrt k n h
  | 0x0F => .vRcp k n h
  | 0x10 => .vExp2 k n h
  | _ => .vLog2 k n h

/-- A row runs as up to n outputs of its OP, which has the inputs that R102 gives it; the same OP has a row for every n. -/
theorem elemRow_runs {i : Instr} {k : CoreId} {op n : Nat} {h : Hit} (hrow : elemRow i = some (k, op, n, h)) :
    (∀ s, exec i s = .next (s.vecBegin k.val op h (fun s _ h => s.vecElems k.val h n)))
      ∧ (vop op = some (.elem, arity op) ∧ arity op ≤ 4) ∧ ∀ m x, elemRow (elemInstr k op m x) = some (k, op, m, x) := by
  unfold elemRow at hrow
  split at hrow
  case h_18 => cases hrow
  all_goals
    cases hrow
    exact ⟨fun _ => rfl, by decide, fun _ _ => rfl⟩

/-! ### One output -/

/-- The input streams of an operation, with their numbers. -/
def inputs (desc : List Byte) : List (Nat × VStream) :=
  ((List.range 5).filter (fun i => i != 0 && (vhead desc).uses i)).map (fun i => (i, vstream desc i))

theorem inputs_of_elem {desc : List Byte} {m : Nat} (hop : vop (vhead desc).op = some (.elem, m)) (hm : m ≤ 4) (hseg : (vhead desc).seg = false) :
    inputs desc = (List.range m).map (fun j => (j + 1, vstream desc (j + 1))) := by
  have huses (i : Nat) : (i != 0 && (vhead desc).uses i) = decide (1 ≤ i ∧ i ≤ m) := by
    simp only [VHead.uses, hop, hseg, Bool.and_false, Bool.or_false]
    rcases Nat.eq_zero_or_pos i with rfl | hi
    · rfl
    · rw [bne, beq_false_of_ne (Nat.pos_iff_ne_zero.mp hi)]
      rfl
  have hrange : (List.range 5).filter (fun i => decide (1 ≤ i ∧ i ≤ m)) = (List.range m).map (· + 1) := by
    interval_cases m <;> rfl
  simp only [inputs, huses, hrange, List.map_map]
  rfl

/-- The elements that the next output of an entry takes, at its row and column. -/
def elemReads (e : VecEntry) : List (Nat × VStream × Nat × Nat) :=
  readsAt (e.progress / (vhead e.desc).cols) (e.progress % (vhead e.desc).cols) (inputs e.desc)

/-- The next output of an entry, from the codes of its inputs (R101). -/
def elemOutput (seed : Word) (e : VecEntry) (cs : List Nat) : VOut :=
  elemOut (vhead e.desc).op (vstream e.desc 0) ((inputs e.desc).map (·.2))
    (outRnd (vhead e.desc) seed (e.progress / (vhead e.desc).cols) (e.progress % (vhead e.desc).cols)) cs

/-- The entry with one output more, at (r, c), of all its outputs. -/
def produced (r c all : Nat) (o : VOut) (e : VecEntry) : VecEntry :=
  { e with progress := e.progress + 1, acc := e.acc.add o r c, done := decide (all ≤ e.progress + 1) }

section
variable {s : State} {k : Nat} {e : VecEntry} {rest : List VecEntry} (hq : (s.core k).vsu.queue = e :: rest)
include hq

theorem vecElems_succ (h : Hit) (n : Nat) :
    let r := e.progress / (vhead e.desc).cols
    let c := e.progress % (vhead e.desc).cols
    let all := (vhead e.desc).rows * (vhead e.desc).cols
    s.vecElems k h (n + 1) =
      if all ≤ e.progress then s.modVsu k (fun u => u.modHead (fun e => { e with done := true }))
      else
        match s.vreads k e.ring h (elemReads e) with
        | .fault f => s.vecFail k f
        | .lost u => u.vecLost k
        | .ok cs u =>
          match u.vwrite k e.ring (h.skip (vAccesses (elemReads e))).now (vstream e.desc 0) (vhead e.desc).cols r c
              (elemOutput (u.core k).seed e cs).code with
          | .fault f => u.vecFail k f
          | .lost v => v.vecLost k
          | .ok _ v => (v.modVsu k (fun x => x.modHead (produced r c all (elemOutput (u.core k).seed e cs)))).vecElems k
              (h.skip (vAccesses (elemReads e) + 1)) n := by
  rw [State.vecElems, hq]
  rfl

variable (hlt : e.progress < (vhead e.desc).rows * (vhead e.desc).cols)
include hlt

theorem vecElems_one {h : Hit} {cs : List Nat} {u v : State} (hreads : s.vreads k e.ring h (elemReads e) = .ok cs u)
    (hwrite : u.vwrite k e.ring (h.skip (vAccesses (elemReads e))).now (vstream e.desc 0) (vhead e.desc).cols
      (e.progress / (vhead e.desc).cols) (e.progress % (vhead e.desc).cols) (elemOutput (u.core k).seed e cs).code = .ok () v) :
    s.vecElems k h 1 = v.modVsu k (fun x => x.modHead (produced (e.progress / (vhead e.desc).cols) (e.progress % (vhead e.desc).cols)
      ((vhead e.desc).rows * (vhead e.desc).cols) (elemOutput (u.core k).seed e cs))) := by
  rw [vecElems_succ hq, if_neg (Nat.not_le.mpr hlt), hreads]
  dsimp only
  rw [hwrite]
  rfl

theorem vecElems_fault {h : Hit} {f : VecFault} (hreads : s.vreads k e.ring h (elemReads e) = .fault f) :
    s.vecElems k h 1 = s.vecFail k f := by
  rw [vecElems_succ hq, if_neg (Nat.not_le.mpr hlt), hreads]

end

/-- A further output stops the operation, whatever comes after it; or it is produced, and others may follow. -/
theorem vecElems_cases {s : State} {k : Nat} {e : VecEntry} {rest : List VecEntry} (hq : (s.core k).vsu.queue = e :: rest) (h : Hit) :
    (∃ t, t.vecHead k = none ∧ ∀ n, s.vecElems k h (n + 1) = t)
      ∨ ∃ v r c o h', SameUnit k s v ∧ ∀ n, s.vecElems k h (n + 1) =
          (v.modVsu k (fun x => x.modHead (produced r c ((vhead e.desc).rows * (vhead e.desc).cols) o))).vecElems k h' n := by
  by_cases hall : (vhead e.desc).rows * (vhead e.desc).cols ≤ e.progress
  · refine .inl ⟨s.modVsu k (fun u => u.modHead (fun e => { e with done := true })), ?_, fun n => by rw [vecElems_succ hq, if_pos hall]⟩
    exact vecHead_none_of_head (e := { e with done := true }) (by rw [modVsu_core, modHead_of_queue hq]) (.inl rfl)
  · cases hreads : s.vreads k e.ring h (elemReads e) with
    | fault f => exact .inl ⟨_, vecFail_vecHead hq f, fun n => by rw [vecElems_succ hq, if_neg hall, hreads]⟩
    | lost u => exact .inl ⟨_, vecLost_vecHead u k, fun n => by rw [vecElems_succ hq, if_neg hall, hreads]⟩
    | ok cs u =>
      have hsu : SameUnit k s u := fetched_sameUnit (fetched_of_vreads hreads) k
      cases hwrite : u.vwrite k e.ring (h.skip (vAccesses (elemReads e))).now (vstream e.desc 0) (vhead e.desc).cols
          (e.progress / (vhead e.desc).cols) (e.progress % (vhead e.desc).cols) (elemOutput (u.core k).seed e cs).code with
      | fault f =>
        refine .inl ⟨_, vecFail_vecHead (hsu.queue.trans hq) f, fun n => ?_⟩
        rw [vecElems_succ hq, if_neg hall, hreads]
        dsimp only
        rw [hwrite]
      | lost v =>
        refine .inl ⟨_, vecLost_vecHead v k, fun n => ?_⟩
        rw [vecElems_succ hq, if_neg hall, hreads]
        dsimp only
        rw [hwrite]
      | ok x v =>
        refine .inr ⟨v, e.progress / (vhead e.desc).cols, e.progress % (vhead e.desc).cols, elemOutput (u.core k).seed e cs,
          h.skip (vAccesses (elemReads e) + 1), hsu.trans (sameUnit_of_vwrite hwrite), fun n => ?_⟩
        rw [vecElems_succ hq, if_neg hall, hreads]
        dsimp only
        rw [hwrite]

/-- After one output an operation has stopped, and further outputs would change nothing; or it goes on as a head in its own right. -/
theorem vecElems_goesOn {s : State} {k : Nat} {e : VecEntry} (hh : s.vecHead k = some e) (h : Hit) :
    ((s.vecElems k h 1).vecHead k = none ∧ ∀ n, s.vecElems k h (n + 1) = s.vecElems k h 1)
      ∨ ∃ e' h', (s.vecElems k h 1).vecHead k = some e' ∧ e'.reread = e.reread ∧ e'.op = e.op ∧ e'.desc = e.desc
          ∧ Listed (s.vecElems k h 1) k ∧ ∀ n, s.vecElems k h (n + 1) = (s.vecElems k h 1).vecElems k h' n := by
  obtain ⟨rest, hq, hruns⟩ := queue_of_vecHead hh
  rcases vecElems_cases hq h with ⟨t, ht, hstop⟩ | ⟨v, r, c, o, h', hsv, hstep⟩
  · rw [hstop 0]
    exact .inl ⟨ht, hstop⟩
  · rw [show s.vecElems k h 1 = _ from hstep 0, State.vecElems]
    have hqt : ∀ g, ((v.modVsu k (fun x => x.modHead g)).core k).vsu.queue = g e :: rest :=
      fun g => by rw [modVsu_core, modHead_of_queue (hsv.queue.trans hq)]
    by_cases hlast : (vhead e.desc).rows * (vhead e.desc).cols ≤ e.progress + 1
    · have hdone : (produced r c ((vhead e.desc).rows * (vhead e.desc).cols) o e).done = true := decide_eq_true hlast
      refine .inl ⟨vecHead_none_of_head (hqt _) (.inl hdone), fun n => (hstep n).trans ?_⟩
      cases n with
      | zero => rfl
      | succ n =>
        rw [vecElems_succ (hqt _)]
        exact (if_pos hlast).trans ((listed_modVsu ..).modVsu_eq (modHead_of_fixed (hqt _) (by rw [← hdone])))
    · have hopen : produced r c ((vhead e.desc).rows * (vhead e.desc).cols) o e
          = { e with progress := e.progress + 1, acc := e.acc.add o r c } := by
        rw [produced, decide_eq_false hlast, done_of_headRuns hruns]
      exact .inr ⟨_, h', hsv.vecHead_modHead hh hopen, rfl, rfl, rfl, listed_modVsu .., hstep⟩

/-- n + 1 outputs are one and then n (R111). -/
theorem vecElems_inTurn {s : State} {k op : Nat} (n : Nat) (h : Hit) :
    ∃ h', s.vecBegin k op h (fun s _ h => s.vecElems k h (n + 1))
      = (s.vecBegin k op h (fun s _ h => s.vecElems k h 1)).vecBegin k op h' (fun s _ h => s.vecElems k h n) := by
  rcases vecBegin_cases s k op h with ⟨t, ht⟩ | ⟨s1, e1, h1, a, hh, hread, hop, hcode, -, hbegin⟩
  · exact ⟨h, by rw [(ht _).1, (ht _).1, (ht _).2]⟩
  · simp only [hbegin]
    rcases vecElems_goesOn hh h1 with ⟨hnone, hstop⟩ | ⟨e', h', hh', hread', hop', hdesc', hlisted, hstep⟩
    · exact ⟨h, by rw [vecBegin_none hnone, hstop]⟩
    · exact ⟨h', by rw [vecBegin_listed hlisted hh' (hread'.trans hread) (hop'.trans hop) (by rw [hdesc', hcode]), hstep]⟩

/-! ### What an output leaves -/

/-- The streams of an element-wise operation supply its codes. -/
theorem supplies_inputs {s : State} {k : Nat} {ring : Fin 4} {r c m : Nat} {xs : Nat → VStream} {cs : List Nat} (hlen : cs.length = m)
    (h : ∀ j < m, Supplies s k ring (xs j) r c (cs.getD j 0)) :
    List.Forall₂ (fun x code => Supplies s k ring x.2 r c code) ((List.range m).map (fun j => (j + 1, xs j))) cs := by
  refine List.forall₂_iff_get.mpr ⟨by simp [hlen], fun j hj hc => ?_⟩
  have hs := h j (by simpa using hj)
  rw [List.getD_eq_getElem _ _ hc] at hs
  simpa using hs

theorem map_getByte_placeAt {as : List Nat} (hnd : as.Nodup) {bs : List Byte} (hlen : as.length = bs.length) (s : State) :
    as.map (s.placeAt (as.zip bs)).getByte = bs := by
  refine List.ext_getElem (by simpa using hlen) fun j hj hb => ?_
  have hj : j < as.length := by simpa using hj
  have hcell := placeAt_zip_getByte hnd hlen s hj
  rwa [List.getD_eq_getElem _ _ hj, List.getD_eq_getElem _ _ hb, ← List.getElem_map (f := (s.placeAt (as.zip bs)).getByte)] at hcell

theorem cacheBytes_cachePut {o m n : Nat} (hm : m ≤ n) {bs : List Byte} (hlen : bs.length = n) (u : Vsu) :
    cacheBytes (cachePut o n bs u) o m = bs.take m := by
  refine List.ext_getElem (by simp [cacheBytes, hlen, hm]) fun j hj hb => ?_
  have hj : j < m := by simpa [cacheBytes] using hj
  have hput := (mget_cachePut o n bs u).1 j (hj.trans_le hm)
  rw [List.getD_eq_getElem _ _ (by omega)] at hput
  simpa [cacheBytes] using hput

theorem writtenBytes_eq (x : VStream) (cols r c : Nat) : writtenBytes x cols r c =
    min (if x.fmt.width < 8 ∧ c + 1 = cols ∧ x.xpose = false then x.fmt.packedBytes cols - c * x.fmt.width / 8
      else ((x.place r c).2 + x.fmt.width + 7) / 8) ((if x.src = 2 then 65536 else 2 ^ 48) - (x.place r c).1) := by
  rw [writtenBytes]
  congr 1
  exact if_congr (by simp [endsRow, and_assoc]) rfl rfl

/-- From s to v one element was written into the operand cache: its bits there, no byte outside those written, and nothing in memory. -/
structure CacheWritten (s v : State) (k : Nat) (x : VStream) (cols r c code : Nat) : Prop where
  mem : v.mem = s.mem
  code : leNat (cacheBytes (v.core k).vsu (x.place r c).1 (elemBytes x.fmt.width (x.place r c).2)) / 2 ^ (x.place r c).2 % 2 ^ x.fmt.width
    = code % 2 ^ x.fmt.width
  outside : ∀ b, (b < (x.place r c).1 ∨ (x.place r c).1 + writtenBytes x cols r c ≤ b) →
    mget 0 (v.core k).vsu.cache b = mget 0 (s.core k).vsu.cache b

/-- The same in memory at the physical bytes given, the operand cache left alone. -/
structure MemoryWritten (s v : State) (k : Nat) (x : VStream) (r c code : Nat) (pas : List Nat) : Prop where
  cache : (v.core k).vsu.cache = (s.core k).vsu.cache
  code : leNat ((pas.take (elemBytes x.fmt.width (x.place r c).2)).map v.getByte) / 2 ^ (x.place r c).2 % 2 ^ x.fmt.width
    = code % 2 ^ x.fmt.width
  outside : ∀ b, b ∉ pas → v.getByte b = s.getByte b

theorem bits_le_elemBytes (w b : Nat) : b + w ≤ 8 * elemBytes w b := by
  unfold elemBytes
  omega

section
variable {s u : State} (hsu : Counted s u) {k : Nat} {ring : Fin 4} {e : Ecc} (he : e ≠ .uncorrectable) {x : VStream} {cols r c : Nat}
  (hcover : elemBytes x.fmt.width (x.place r c).2 ≤ writtenBytes x cols r c) (code : Nat)
include hsu he hcover

theorem vwrite_cacheWritten (hsrc : x.src = 2) :
    ∃ v, CacheWritten s v k x cols r c code ∧ u.vwrite k ring e x cols r c code = .ok () v := by
  refine ⟨_, ?_, vwrite_cache hsrc he code⟩
  refine ⟨hsu.mem, ?_, fun b hb => ?_⟩
  · rw [modVsu_core, cacheBytes_cachePut hcover (by simp [newBytes, cacheBytes])]
    exact leNat_patchBits (by simpa [cacheBytes] using hcover) (bits_le_elemBytes ..) code _
  · rw [modVsu_core, (mget_cachePut ..).2 b hb, fetched_vsu hsu.fetched]

theorem vwrite_memoryWritten (hsrc : x.src = 1) {pas : List Nat} (hnd : pas.Nodup) (hclean : ∀ a ∈ pas, s.holdsError a = false)
    (hx : vecXlate s k ring .write (x.place r c).1 (writtenBytes x cols r c) = .ok pas) :
    ∃ v, MemoryWritten s v k x r c code pas ∧ u.vwrite k ring e x cols r c code = .ok () v := by
  obtain ⟨v, hwrite, hfetched, hbyte⟩ := vwrite_memory hsrc he ((hsu.vecXlate ..).trans hx)
    (fun a ha => (hsu.holdsError a).trans (hclean a ha)) code
  obtain ⟨hlen, -⟩ := vecXlate_ok hx
  have hmap : pas.map v.getByte = newBytes x cols r c code (pas.map u.getByte) :=
    (List.map_congr_left fun a _ => hbyte a).trans (map_getByte_placeAt hnd (by simp [newBytes]) u)
  refine ⟨v, ⟨?_, ?_, fun b hb => ?_⟩, hwrite⟩
  · rw [fetched_vsu hfetched, fetched_vsu hsu.fetched]
  · rw [List.map_take, hmap]
    exact leNat_patchBits (by simpa [hlen] using hcover) (bits_le_elemBytes ..) code _
  · rw [hbyte, placeAt_outside _ _ _ (fun y hy hyb => hb (by rw [← hyb]; exact (List.of_mem_zip hy).1)), hsu.getByte]

end

section
variable {s : State} {k : Nat} {e : VecEntry} {a : Word} {op : Nat} {h : Hit} (hh : s.vecHead k = some e) (hread : e.reread = false)
  (hop : e.op = .vexec a) (hcode : (vhead e.desc).op = op) (hlt : e.progress < (vhead e.desc).rows * (vhead e.desc).cols) (hm : MildHit h)
  (hinputs : inputs e.desc = (List.range (arity op)).map (fun j => (j + 1, vstream e.desc (j + 1))))
include hh hread hop hcode hlt hm hinputs

/-- An output whose inputs are supplied and whose write succeeds, and what the entry then holds (R101). -/
theorem elem_produced {cs : List Nat} (hlen : cs.length = arity op)
    (hs : ∀ j < arity op, Supplies s k e.ring (vstream e.desc (j + 1)) (e.progress / (vhead e.desc).cols) (e.progress % (vhead e.desc).cols)
      (cs.getD j 0))
    {P : State → Prop} (hwrite : ∀ u x, Counted s u → x ≠ Ecc.uncorrectable → ∃ v, P v ∧ u.vwrite k e.ring x (vstream e.desc 0)
      (vhead e.desc).cols (e.progress / (vhead e.desc).cols) (e.progress % (vhead e.desc).cols) (elemOutput (s.core k).seed e cs).code
        = .ok () v) :
    ∃ v, P v ∧ SameUnit k s v ∧ s.vecBegin k op h (fun s _ h => s.vecElems k h 1)
      = v.modVsu k (fun x => x.modHead (produced (e.progress / (vhead e.desc).cols) (e.progress % (vhead e.desc).cols)
          ((vhead e.desc).rows * (vhead e.desc).cols) (elemOutput (s.core k).seed e cs))) := by
  obtain ⟨rest, hq, -⟩ := queue_of_vecHead hh
  obtain ⟨hbegin, hcore, hsettled⟩ := vecBegin_ready hh hread hop hcode h (fun s _ h => s.vecElems k h 1)
  obtain ⟨u, hreads, hu⟩ := vreads_supplied (supplies_inputs (k := k) (ring := e.ring) hlen fun j hj => hsettled.supplies (hs j hj)) hm
  rw [← hinputs] at hreads
  have hsu : Counted s u := hsettled.trans hu
  have hseed : (u.core k).seed = (s.core k).seed := by rw [hsu.core k]
  obtain ⟨v, hv, hok⟩ := hwrite u _ hsu (mildHit_now (mildHit_skip hm (vAccesses (elemReads e))))
  refine ⟨v, hv, (fetched_sameUnit hsu.fetched k).trans (sameUnit_of_vwrite hok), ?_⟩
  rw [hbegin, vecElems_one (by rw [hcore, hq]) hlt hreads (by rw [hseed]; exact hok), hseed]

/-- An input that cannot be reached is a fault at its position (R112). -/
theorem elem_fault {j : Nat} (hj : j < arity op) (hsrc : (vstream e.desc (j + 1)).src = 1)
    (hs : ∀ m < j, ∃ code, Supplies s k e.ring (vstream e.desc (m + 1)) (e.progress / (vhead e.desc).cols)
      (e.progress % (vhead e.desc).cols) code)
    {f : AFault} (hf : vecXlate s k e.ring .read
      ((vstream e.desc (j + 1)).place (e.progress / (vhead e.desc).cols) (e.progress % (vhead e.desc).cols)).1
      (elemBytes (vstream e.desc (j + 1)).fmt.width
        ((vstream e.desc (j + 1)).place (e.progress / (vhead e.desc).cols) (e.progress % (vhead e.desc).cols)).2) = .error f) :
    s.vecBegin k op h (fun s _ h => s.vecElems k h 1) = (settled s k).vecFail k
      (f.vec (j + 1) false (e.progress / (vhead e.desc).cols) (e.progress % (vhead e.desc).cols)) := by
  obtain ⟨rest, hq, -⟩ := queue_of_vecHead hh
  obtain ⟨hbegin, hcore, hsettled⟩ := vecBegin_ready hh hread hop hcode h (fun s _ h => s.vecElems k h 1)
  obtain ⟨d, hd⟩ : ∃ d, arity op = j + (d + 1) := ⟨arity op - j - 1, by omega⟩
  rw [hd, List.range_add, List.range_succ_eq_map, List.map_append, List.map_cons, List.map_cons] at hinputs
  rw [hbegin, vecElems_fault (by rw [hcore, hq]) hlt]
  rw [elemReads, hinputs]
  refine vreads_fault (List.forall_mem_map.mpr fun m hmem => ?_) hm hsrc ((hsettled.vecXlate ..).trans hf) _
  exact (hs m (List.mem_range.mp hmem)).imp fun _ => hsettled.supplies

end

/-- Settles O26: a row of R102 begins at the head, takes what its streams supply, writes once, or meets its fault; outputs come in turn. -/
theorem elementsProduced : Obligations.ElementsProduced := by
  unfold Obligations.ElementsProduced
  refine ⟨?_, ?_⟩
  · intro i k op h s e a hrow hm hhead hop hd d ins r c hcode hseg hlt
    obtain ⟨hexec, ⟨hvop, harity⟩, -⟩ := elemRow_runs hrow
    have hread : e.reread = false := by
      obtain ⟨-, -, -, -, -, hread, -⟩ := hhead
      exact hread
    have hh : s.vecHead k.val = some e := vecHead_of_VecHead hhead
    obtain ⟨rest, hq, -⟩ := queue_of_vecHead hh
    have hinputs := inputs_of_elem (desc := e.desc) (by rw [show (vhead e.desc).op = op from hcode]; exact hvop) harity hseg
    have hins {j : Nat} (hj : j < arity op) : ins.getD j d = vstream e.desc (j + 1) := by
      simp [ins, List.getD_eq_getElem?_getD, List.getElem?_range hj]
    refine ⟨?_, fun j f hj hsrc hs hf => ?_⟩
    · intro cs pas hlen hs o w p last room n hroom hdest
      have hcover : elemBytes w p.2 ≤ writtenBytes d hd.cols r c := elemBytes_le_written hroom hd.cols
      have hout : elemOutput (s.core k.val).seed e cs = o := by
        rw [elemOutput, hinputs, List.map_map, show (vhead e.desc).op = op from hcode]
        rfl
      have hlast : decide (hd.rows * hd.cols ≤ e.progress + 1) = decide (e.progress + 1 = hd.rows * hd.cols) :=
        decide_eq_decide.mpr ⟨fun h => Nat.le_antisymm hlt h, fun h => h.ge⟩
      have hproduced {P : State → Prop} (hwrite : ∀ u x, Counted s u → x ≠ Ecc.uncorrectable → ∃ v, P v ∧
          u.vwrite k.val e.ring x d hd.cols r c (elemOutput (s.core k.val).seed e cs).code = .ok () v) :
          ∃ v, P v ∧ exec i s = .next (v.modVsu k.val (fun x => x.modHead (produced r c (hd.rows * hd.cols) o)))
            ∧ ((v.modVsu k.val (fun x => x.modHead (produced r c (hd.rows * hd.cols) o))).core k.val).vsu
              = { (v.core k.val).vsu with queue :=
                  { e with progress := e.progress + 1, acc := e.acc.add o r c, done := decide (e.progress + 1 = hd.rows * hd.cols) }
                    :: (s.core k.val).vsu.queue.tail } := by
        obtain ⟨v, hv, hsv, hrun⟩ := elem_produced hh hread hop hcode hlt hm hinputs hlen (fun j hj => by rw [← hins hj]; exact hs j hj) hwrite
        refine ⟨v, hv, (hexec s).trans (congrArg _ (by rw [hrun, hout])), ?_⟩
        rw [modVsu_core, modHead_of_queue (hsv.queue.trans hq), produced, hlast, hq]
        rfl
      rcases hdest with hsrc | ⟨hsrc, hnd, hclean, hx⟩
      · obtain ⟨v, hv, hrun, hvsu⟩ := hproduced fun u x hsu hx => vwrite_cacheWritten hsu hx hcover _ hsrc
        refine ⟨_, hrun, by rw [hvsu], fun h1 => absurd (h1.symm.trans hsrc) (by decide), fun _ => ⟨hv.mem, ?_, fun b hb => ?_⟩⟩
        · rw [hvsu, ← hout]
          exact hv.code
        · rw [hvsu]
          exact hv.outside b (by rw [writtenBytes_eq]; exact hb)
      · obtain ⟨v, hv, hrun, hvsu⟩ := hproduced fun u x hsu hmild => vwrite_memoryWritten hsu hmild hcover _ hsrc hnd hclean
          (by rw [writtenBytes_eq]; exact hx)
        refine ⟨_, hrun, by rw [hvsu], fun _ => ⟨by rw [hvsu]; exact hv.cache, ?_, hv.outside⟩, fun h2 => absurd (hsrc.symm.trans h2) (by decide)⟩
        rw [← hout]
        exact hv.code
    · rw [hins hj] at hsrc hf
      have hfault := elem_fault hh hread hop hcode hlt hm hinputs hj hsrc (fun m hmj => by rw [← hins (hmj.trans hj)]; exact hs m hmj) hf
      refine ⟨_, (hexec s).trans (congrArg _ hfault), rfl, f.vec (j + 1) false r c, ?_, rfl, rfl, rfl, rfl, rfl, rfl⟩
      have hsettled : ((settled s k.val).core k.val).vsu.queue = e :: rest := by rw [settled, modVsu_core, settle_of_head hq hread, hq]
      rw [State.vecFail, modVsu_core, modHead_of_queue hsettled, hq]
      rfl
  · intro i i₁ k op n h s hrow hrow₁
    obtain ⟨hexec, -, hfamily⟩ := elemRow_runs hrow
    obtain ⟨hexec₁, -, -⟩ := elemRow_runs hrow₁
    obtain ⟨h', hturn⟩ := vecElems_inTurn (s := s) (k := k.val) (op := op) n h
    obtain ⟨hexec₂, -, -⟩ := elemRow_runs (hfamily n h')
    exact ⟨elemInstr k op n h', h', _, hfamily n h', hexec₁ s, by rw [hexec, hexec₂, hturn]⟩

end Sys2Proof.Proofs
end

section
/-!
PROOFS. The vector unit goes on (O29): the blocks that a directive moves between memory and the operand cache (R109), what a completion
records and raises (R113, R114), a fault's record (R112), and the restart of a VEXEC (R111).
-/
namespace Sys2Proof.Proofs
open Sys2Proof Sys2Proof.Machine Sys2Proof.Stated Sys2Proof.Laws

/-! ### Writes of whole entries (R136) -/

/-- A write that covers every entry it touches, outside device memory, loses nothing. -/
theorem writeLosses_of_covered {s : State} {cs : List (Nat × Byte)} (hmem : ∀ c ∈ cs, memEnd ≤ c.1)
    (hcover : ∀ c ∈ cs, coversGroup cs 16 (c.1 / 16) = true) : s.writeLosses cs = [] := by
  unfold State.writeLosses
  rw [List.append_eq_nil_iff, List.map_eq_nil_iff, List.map_eq_nil_iff, List.filter_eq_nil_iff, List.filter_eq_nil_iff]
  constructor
  · intro b _ hlost
    simp only [Bool.and_eq_true, List.any_eq_true, decide_eq_true_eq] at hlost
    obtain ⟨⟨c, hc, -, hlt⟩, -⟩ := hlost
    exact absurd hlt (Nat.not_lt.mpr (hmem c hc))
  · intro b _ hlost
    simp only [Bool.and_eq_true, List.any_eq_true, beq_iff_eq, Bool.not_eq_true'] at hlost
    obtain ⟨⟨c, hc, rfl, -⟩, hpart⟩ := hlost
    rw [hcover c hc] at hpart
    cases hpart

theorem placeCells_getByte_of_noLosses {s : State} {cs : List (Nat × Byte)} (h : s.writeLosses cs = []) (m b : Nat) :
    (s.placeCells cs m).getByte b = (s.placeAt cs).getByte b := by
  have hall : cs.filter (fun e => !inLoss [] e.1) = cs := List.filter_eq_self.mpr (fun _ _ => rfl)
  unfold State.placeCells
  rw [h]
  dsimp only [List.foldl_nil]
  rw [hall]
  rfl

/-- The cells of 64 aligned bytes cover their entries. -/
theorem coversGroup_of_aligned {a : Nat} (ha : a % 16 = 0) {bs : List Byte} (hlen : bs.length = 64) :
    ∀ c ∈ (rangeFrom a 64).zip bs, coversGroup ((rangeFrom a 64).zip bs) 16 (c.1 / 16) = true := by
  intro c hc
  have hrange := mem_rangeFrom.mp (List.of_mem_zip (show (c.1, c.2) ∈ _ from hc)).1
  have hfst : ((rangeFrom a 64).zip bs).map Prod.fst = rangeFrom a 64 := List.map_fst_zip (by simp [rangeFrom, hlen])
  refine List.all_eq_true.mpr fun i hi => ?_
  have hi := List.mem_range.mp hi
  have hmem : c.1 / 16 * 16 + i ∈ ((rangeFrom a 64).zip bs).map Prod.fst := by
    rw [hfst, mem_rangeFrom]
    omega
  obtain ⟨d, hd, heq⟩ := List.mem_map.mp hmem
  exact List.any_eq_true.mpr ⟨d, hd, beq_iff_eq.mpr heq⟩

/-! ### One block (R109) -/

section
variable {s : State} {k : Nat} {ring : Fin 4} {e : Ecc} {base : Word} {off b at_ : Nat}

theorem vecBlock_zero : s.vecBlock k ring e base off 2 b = .ok () (s.modVsu k (cachePut (off + 64 * b) 64 [])) := rfl

theorem vecBlock_fill (he : e ≠ .uncorrectable) (hx : vecXlate s k ring .read (base.toNat + 64 * b) 64 = .ok (rangeFrom at_ 64))
    (hclean : ∀ a ∈ rangeFrom at_ 64, s.holdsError a = false) :
    ∃ u, Counted s u ∧ s.vecBlock k ring e base off 0 b = .ok () (u.modVsu k (cachePut (off + 64 * b) 64 (s.getBytes at_ 64))) := by
  obtain ⟨hread, hcounted⟩ := counted_eccSpan hclean he k
  have hbytes : (rangeFrom at_ 64).map (s.eccSpan (rangeFrom at_ 64) k e).1.getByte = s.getBytes at_ 64 := by
    rw [getBytes_eq_map]
    exact List.map_congr_left fun a _ => hcounted.getByte a
  refine ⟨_, hcounted, ?_⟩
  unfold State.vecBlock
  dsimp only
  rw [hx]
  dsimp only
  rw [hread, hbytes]
  rfl

theorem vecBlock_wback (he : e ≠ .uncorrectable) (hx : vecXlate s k ring .write (base.toNat + 64 * b) 64 = .ok (rangeFrom at_ 64))
    (halign : at_ % 16 = 0) :
    ∃ t, s.vecBlock k ring e base off 1 b = .ok () t ∧ Fetched s t
      ∧ (∀ j < 64, t.getByte (at_ + j) = mget 0 (s.core k).vsu.cache (off + 64 * b + j))
      ∧ ∀ a, (a < at_ ∨ at_ + 64 ≤ a) → t.getByte a = s.getByte a := by
  have hlen : (cacheBytes (s.core k).vsu (off + 64 * b) 64).length = 64 := by simp [cacheBytes]
  have hlosses : s.writeLosses ((rangeFrom at_ 64).zip (cacheBytes (s.core k).vsu (off + 64 * b) 64)) = [] :=
    writeLosses_of_covered (fun c hc => memEnd_le_of_ownPlace ((vecXlate_ok hx).2 _ (List.of_mem_zip hc).1)) (coversGroup_of_aligned halign hlen)
  refine ⟨s.placeCells ((rangeFrom at_ 64).zip (cacheBytes (s.core k).vsu (off + 64 * b) 64)) k, ?_, fetched_placeCells ..,
    fun j hj => ?_, fun a ha => ?_⟩
  · unfold State.vecBlock
    dsimp only
    rw [hx]
    dsimp only
    rw [cacheRead_of_ne he]
    rfl
  · have hcell := placeAt_zip_getByte (rangeFrom_nodup at_ 64) (bs := cacheBytes (s.core k).vsu (off + 64 * b) 64) (by simp [rangeFrom, hlen]) s
      (j := j) (by simpa [rangeFrom] using hj)
    rw [placeCells_getByte_of_noLosses hlosses]
    simpa [rangeFrom, cacheBytes, List.getD_eq_getElem?_getD, List.getElem?_range hj] using hcell
  · rw [placeCells_getByte_of_noLosses hlosses]
    refine placeAt_outside _ _ _ fun c hc hca => ?_
    have hrange := mem_rangeFrom.mp (List.of_mem_zip (show (c.1, c.2) ∈ _ from hc)).1
    omega

/-- A block that is moved leaves the unit as it was but for the bytes of its operand cache. -/
theorem sameUnit_of_vecBlock {t : State} {dir : Nat} (h : s.vecBlock k ring e base off dir b = .ok () t) : SameUnit k s t := by
  unfold State.vecBlock at h
  dsimp only at h
  split at h
  · obtain rfl := (VRes.ok.inj h).2
    exact sameUnit_cachePut s k (off + 64 * b) 64 []
  · split at h
    · cases h
    · split at h
      · obtain rfl := (VRes.ok.inj h).2
        exact (fetched_sameUnit (fetched_eccSpan ..) k).trans (sameUnit_cachePut _ k (off + 64 * b) 64 _)
      · cases h
  · split at h
    · cases h
    · split at h
      · obtain rfl := (VRes.ok.inj h).2
        exact fetched_sameUnit ((fetched_cacheRead ..).trans (fetched_placeCells ..)) k
      · cases h

end

/-! ### The rows of R109 -/

/-- The row of a directive. -/
def cacheInstr (k : CoreId) (dir n : Nat) (h : Hit) : Instr :=
  match dir with
  | 0 => .vcacheFill k n h
  | 1 => .vcacheWback k n h
  | _ => .vcacheZero k n h

theorem cacheRow_runs {i : Instr} {k : CoreId} {dir n : Nat} {h : Hit} (hrow : cacheRow i = some (k, dir, n, h)) :
    (∀ s, exec i s = cacheCommand k.val dir n h s) ∧ ∀ m x, cacheRow (cacheInstr k dir m x) = some (k, dir, m, x) := by
  unfold cacheRow at hrow
  split at hrow
  case h_4 => cases hrow
  all_goals
    cases hrow
    exact ⟨fun _ => rfl, fun _ _ => rfl⟩

/-- The entry with one block more. -/
def blockMoved (e : VecEntry) : VecEntry := { e with progress := e.progress + 1 }

/-- A directive of len bytes marked done at its last block. -/
def markDone (len : Nat) (e : VecEntry) : VecEntry := if len ≤ 64 * e.progress then { e with done := true } else e

theorem vecBlocksDone_eq (s : State) (k len : Nat) : s.vecBlocksDone k len = s.modVsu k (fun u => u.modHead (markDone len)) := rfl

section
variable {s : State} {k : Nat} {e : VecEntry} {rest : List VecEntry} (hq : (s.core k).vsu.queue = e :: rest)
include hq

theorem vecBlocks_succ (ring : Fin 4) (h : Hit) (base : Word) (off len dir n : Nat) :
    s.vecBlocks k ring h base off len dir (n + 1) =
      if len ≤ 64 * e.progress then s
      else
        match s.vecBlock k ring h.now base off dir e.progress with
        | .fault f => s.vecFail k f
        | .lost u => u.vecLost k
        | .ok _ u => (u.modVsu k (fun x => x.modHead blockMoved)).vecBlocks k ring h.next base off len dir n := by
  rw [State.vecBlocks, hq]
  rfl

theorem vecBlocks_all {len : Nat} (hall : len ≤ 64 * e.progress) (ring : Fin 4) (h : Hit) (base : Word) (off dir n : Nat) :
    s.vecBlocks k ring h base off len dir n = s := by
  cases n with
  | zero => rfl
  | succ n => rw [vecBlocks_succ hq, if_pos hall]

end

theorem vecBlocksDone_vecHead {s : State} {k : Nat} (hh : s.vecHead k = none) (len : Nat) : (s.vecBlocksDone k len).vecHead k = none := by
  cases hq : (s.core k).vsu.queue with
  | nil =>
    rw [State.vecHead, vecBlocksDone_eq, modVsu_core, Vsu.modHead, hq]
    dsimp only
    rw [hq]
  | cons e rest =>
    have hqt : ((s.vecBlocksDone k len).core k).vsu.queue = markDone len e :: rest := by
      rw [vecBlocksDone_eq, modVsu_core, modHead_of_queue hq]
    rw [vecHead_of_queue hq] at hh
    by_cases hall : len ≤ 64 * e.progress
    · exact vecHead_none_of_head hqt (.inl (by rw [markDone, if_pos hall]))
    · have hidle : headRuns ((s.vecBlocksDone k len).core k) (markDone len e) = headRuns (s.core k) e := by
        rw [vecBlocksDone_eq, modVsu_core, modHead_of_queue hq, markDone, if_neg hall]
        rfl
      rw [vecHead_of_queue hqt, hidle]
      split at hh
      case isTrue => cases hh
      case isFalse hruns => rw [if_neg hruns]

/-- A further block stops the directive, whatever comes after it; or it is moved, and others may follow. -/
theorem vecBlocks_cases {s : State} {k : Nat} {e : VecEntry} {rest : List VecEntry} (hq : (s.core k).vsu.queue = e :: rest) (ring : Fin 4)
    (h : Hit) (base : Word) (off len dir : Nat) :
    (∃ t, (t.vecBlocksDone k len).vecHead k = none ∧ ∀ n, s.vecBlocks k ring h base off len dir (n + 1) = t)
      ∨ ∃ v, SameUnit k s v ∧ ∀ n, s.vecBlocks k ring h base off len dir (n + 1)
          = (v.modVsu k (fun x => x.modHead blockMoved)).vecBlocks k ring h.next base off len dir n := by
  by_cases hall : len ≤ 64 * e.progress
  · refine .inl ⟨s, ?_, fun n => by rw [vecBlocks_succ hq, if_pos hall]⟩
    exact vecHead_none_of_head (e := markDone len e) (by rw [vecBlocksDone_eq, modVsu_core, modHead_of_queue hq])
      (.inl (by rw [markDone, if_pos hall]))
  · cases hblock : s.vecBlock k ring h.now base off dir e.progress with
    | fault f =>
      exact .inl ⟨_, vecBlocksDone_vecHead (vecFail_vecHead hq f) len, fun n => by rw [vecBlocks_succ hq, if_neg hall, hblock]⟩
    | lost u =>
      exact .inl ⟨_, vecBlocksDone_vecHead (vecLost_vecHead u k) len, fun n => by rw [vecBlocks_succ hq, if_neg hall, hblock]⟩
    | ok x v => exact .inr ⟨v, sameUnit_of_vecBlock hblock, fun n => by rw [vecBlocks_succ hq, if_neg hall, hblock]⟩

section
variable {s : State} {k : Nat}

theorem cacheCommand_none (hh : s.vecHead k = none) (dir n : Nat) (h : Hit) : cacheCommand k dir n h s = .next s := by
  rw [cacheCommand, hh]

theorem cacheCommand_runs {e : VecEntry} (hh : s.vecHead k = some e) {base : Word} {off len dir : Nat} (hop : e.op = .vcache base off len dir)
    (n : Nat) (h : Hit) : cacheCommand k dir n h s = .next ((s.vecBlocks k e.ring h base off len dir n).vecBlocksDone k len) := by
  rw [cacheCommand, hh]
  dsimp only
  rw [hop]
  exact if_pos rfl

/-- n + 1 blocks are one and then n (R109). -/
theorem cacheCommand_inTurn (s : State) (k dir n : Nat) (h : Hit) :
    ∃ h' t, cacheCommand k dir 1 h s = .next t ∧ cacheCommand k dir (n + 1) h s = cacheCommand k dir n h' t := by
  have hidle (hs : ∀ n h, cacheCommand k dir n h s = .next s) :
      ∃ h' t, cacheCommand k dir 1 h s = .next t ∧ cacheCommand k dir (n + 1) h s = cacheCommand k dir n h' t :=
    ⟨h, s, hs 1 h, by rw [hs, hs]⟩
  cases hh : s.vecHead k with
  | none => exact hidle (cacheCommand_none hh dir)
  | some e =>
    obtain ⟨rest, hq, -⟩ := queue_of_vecHead hh
    cases hop : e.op with
    | vexec a => exact hidle fun n h => by simp only [cacheCommand, hh, hop]
    | vcache base off len d =>
      by_cases hdir : d = dir
      · subst hdir
        rw [cacheCommand_runs hh hop, cacheCommand_runs hh hop]
        rcases vecBlocks_cases hq e.ring h base off len d with ⟨t, ht, hstop⟩ | ⟨v, hsv, hstep⟩
        · exact ⟨h, _, rfl, by rw [hstop, hstop, cacheCommand_none ht]⟩
        · have hqt : ((v.modVsu k (fun x => x.modHead blockMoved)).core k).vsu.queue = blockMoved e :: rest := by
            rw [modVsu_core, modHead_of_queue (hsv.queue.trans hq)]
          refine ⟨h.next, _, rfl, ?_⟩
          rw [hstep, hstep, State.vecBlocks]
          by_cases hlast : len ≤ 64 * (blockMoved e).progress
          · have hdone : (markDone len (blockMoved e)).done = true := by rw [markDone, if_pos hlast]
            rw [vecBlocks_all hqt hlast, cacheCommand_none (vecHead_none_of_head (e := markDone len (blockMoved e)) (rest := rest) ?_ (.inl hdone))]
            rw [vecBlocksDone_eq, modVsu_core, modHead_of_queue hqt]
          · have hopen : (v.modVsu k (fun x => x.modHead blockMoved)).vecBlocksDone k len = v.modVsu k (fun x => x.modHead blockMoved) :=
              (listed_modVsu ..).modVsu_eq (modHead_of_fixed hqt (if_neg hlast))
            rw [hopen, cacheCommand_runs (hsv.vecHead_modHead hh (g := blockMoved) (p := e.progress + 1) (a := e.acc) rfl) hop]
            rfl
      · exact hidle fun n h => by simp only [cacheCommand, hh, hop, if_neg hdir]

/-- A block that is moved: the entry counts it, and is done after the last. -/
theorem cacheCommand_one {e : VecEntry} (hh : s.vecHead k = some e) {base : Word} {off len dir : Nat} (hop : e.op = .vcache base off len dir)
    (hlt : 64 * e.progress < len) {h : Hit} {t : State} (hblock : s.vecBlock k e.ring h.now base off dir e.progress = .ok () t) :
    ∃ u, cacheCommand k dir 1 h s = .next u ∧ u.mem = t.mem ∧ (u.core k).vsu = { (t.core k).vsu with
      queue := { e with progress := e.progress + 1, done := decide (len ≤ 64 * (e.progress + 1)) } :: (s.core k).vsu.queue.tail } := by
  obtain ⟨rest, hq, hruns⟩ := queue_of_vecHead hh
  have hqt : (t.core k).vsu.queue = e :: rest := (sameUnit_of_vecBlock hblock).queue.trans hq
  have hmark : markDone len (blockMoved e) = { e with progress := e.progress + 1, done := decide (len ≤ 64 * (e.progress + 1)) } := by
    have hopen := done_of_headRuns hruns
    by_cases hlast : len ≤ 64 * (e.progress + 1)
    · rw [markDone, blockMoved, if_pos hlast, decide_eq_true hlast]
    · rw [markDone, blockMoved, if_neg hlast, decide_eq_false hlast, ← hopen]
  refine ⟨_, cacheCommand_runs hh hop 1 h, ?_, ?_⟩
  · rw [vecBlocks_succ hq, if_neg (Nat.not_le.mpr hlt), hblock]
    rfl
  · rw [vecBlocks_succ hq, if_neg (Nat.not_le.mpr hlt), hblock]
    dsimp only
    rw [State.vecBlocks, vecBlocksDone_eq, modVsu_modVsu, modVsu_core, modHead_of_queue hqt, modHead_of_queue (u := { (t.core k).vsu with queue := _ }) rfl,
      hmark, hq]
    rfl

/-- A block that goes into the operand cache. -/
theorem cacheCommand_put {e : VecEntry} (hh : s.vecHead k = some e) {base : Word} {off len dir : Nat} (hop : e.op = .vcache base off len dir)
    (hlt : 64 * e.progress < len) {h : Hit} {v : State} (hv : Counted s v) {bs : List Byte}
    (hblock : s.vecBlock k e.ring h.now base off dir e.progress = .ok () (v.modVsu k (cachePut (off + 64 * e.progress) 64 bs))) :
    ∃ t, cacheCommand k dir 1 h s = .next t ∧ t.mem = s.mem
      ∧ (t.core k).vsu.queue = { e with progress := e.progress + 1, done := decide (len ≤ 64 * (e.progress + 1)) } :: (s.core k).vsu.queue.tail
      ∧ (∀ j < 64, mget 0 (t.core k).vsu.cache (off + 64 * e.progress + j) = bs.getD j 0)
      ∧ ∀ b, (b < off + 64 * e.progress ∨ off + 64 * e.progress + 64 ≤ b) →
        mget 0 (t.core k).vsu.cache b = mget 0 (s.core k).vsu.cache b := by
  obtain ⟨t, ht, hmem, hvsu⟩ := cacheCommand_one hh hop hlt hblock
  have hcache : (t.core k).vsu.cache = (cachePut (off + 64 * e.progress) 64 bs (s.core k).vsu).cache := by
    rw [hvsu, modVsu_core, fetched_vsu hv.fetched]
  refine ⟨t, ht, hmem.trans hv.mem, by rw [hvsu], ?_⟩
  rw [hcache]
  exact mget_cachePut _ _ bs _

/-- A directive every block of which is moved. -/
theorem cacheCommand_ends {e : VecEntry} (hh : s.vecHead k = some e) {base : Word} {off len dir : Nat} (hop : e.op = .vcache base off len dir)
    (hall : len ≤ 64 * e.progress) (n : Nat) (h : Hit) :
    ∃ t, cacheCommand k dir n h s = .next t ∧ t.mem = s.mem
      ∧ (t.core k).vsu = { (s.core k).vsu with queue := { e with done := true } :: (s.core k).vsu.queue.tail } := by
  obtain ⟨rest, hq, -⟩ := queue_of_vecHead hh
  refine ⟨_, cacheCommand_runs hh hop n h, ?_, ?_⟩
  · rw [vecBlocks_all hq hall]
    rfl
  · rw [vecBlocks_all hq hall, vecBlocksDone_eq, modVsu_core, modHead_of_queue hq, markDone, if_pos hall, hq]
    rfl

end

/-! ### The block that each directive moves -/

section
variable {s : State} {k : CoreId} {e : VecEntry} (hh : s.vecHead k.val = some e) {base : Word} {off len dir at_ : Nat}
  (hop : e.op = .vcache base off len dir) (hlt : 64 * e.progress < len) {h : Hit}
include hh hop hlt

theorem vcacheFill_moves (hdir : dir = 0) (hmild : MildHit h)
    (hx : vecXlate s k.val e.ring .read (base.toNat + 64 * e.progress) 64 = .ok (rangeFrom at_ 64))
    (hclean : ∀ j < 64, s.holdsError (at_ + j) = false) :
    ∃ t, exec (.vcacheFill k 1 h) s = .next t ∧ t.mem = s.mem
      ∧ (t.core k.val).vsu.queue
        = { e with progress := e.progress + 1, done := decide (len ≤ 64 * (e.progress + 1)) } :: (s.core k.val).vsu.queue.tail
      ∧ (∀ j < 64, mget 0 (t.core k.val).vsu.cache (off + 64 * e.progress + j) = s.getByte (at_ + j))
      ∧ ∀ b, (b < off + 64 * e.progress ∨ off + 64 * e.progress + 64 ≤ b) →
        mget 0 (t.core k.val).vsu.cache b = mget 0 (s.core k.val).vsu.cache b := by
  subst hdir
  obtain ⟨v, hsv, hblock⟩ := vecBlock_fill (off := off) (mildHit_now hmild) hx
    (fun a ha => by obtain ⟨j, hj, rfl⟩ := List.mem_map.mp ha; exact hclean j (List.mem_range.mp hj))
  obtain ⟨t, ht, hmem, hqueue, hin, hout⟩ := cacheCommand_put hh hop hlt hsv hblock
  refine ⟨t, ht, hmem, hqueue, fun j hj => ?_, hout⟩
  rw [hin j hj, List.getD_eq_getElem _ _ (by simpa using hj)]
  simp [getBytes_eq_map, rangeFrom]

theorem vcacheWback_moves (hdir : dir = 1) (hmild : MildHit h)
    (hx : vecXlate s k.val e.ring .write (base.toNat + 64 * e.progress) 64 = .ok (rangeFrom at_ 64)) (halign : at_ % 16 = 0) :
    ∃ t, exec (.vcacheWback k 1 h) s = .next t
      ∧ (t.core k.val).vsu = { (s.core k.val).vsu with
          queue := { e with progress := e.progress + 1, done := decide (len ≤ 64 * (e.progress + 1)) } :: (s.core k.val).vsu.queue.tail }
      ∧ (∀ j < 64, t.getByte (at_ + j) = mget 0 (s.core k.val).vsu.cache (off + 64 * e.progress + j))
      ∧ ∀ b, (b < at_ ∨ at_ + 64 ≤ b) → t.getByte b = s.getByte b := by
  subst hdir
  obtain ⟨v, hblock, hsv, hin, hout⟩ := vecBlock_wback (off := off) (mildHit_now hmild) hx halign
  obtain ⟨t, ht, hmem, hvsu⟩ := cacheCommand_one hh hop hlt hblock
  have hbyte (b : Nat) : t.getByte b = v.getByte b := by rw [State.getByte, hmem]; rfl
  rw [fetched_vsu hsv] at hvsu
  exact ⟨t, ht, hvsu, fun j hj => (hbyte _).trans (hin j hj), fun b hb => (hbyte b).trans (hout b hb)⟩

theorem vcacheZero_moves (hdir : dir = 2) :
    ∃ t, exec (.vcacheZero k 1 h) s = .next t ∧ t.mem = s.mem
      ∧ (t.core k.val).vsu.queue
        = { e with progress := e.progress + 1, done := decide (len ≤ 64 * (e.progress + 1)) } :: (s.core k.val).vsu.queue.tail
      ∧ (∀ j < 64, mget 0 (t.core k.val).vsu.cache (off + 64 * e.progress + j) = 0)
      ∧ ∀ b, (b < off + 64 * e.progress ∨ off + 64 * e.progress + 64 ≤ b) →
        mget 0 (t.core k.val).vsu.cache b = mget 0 (s.core k.val).vsu.cache b := by
  subst hdir
  exact cacheCommand_put hh hop hlt (Counted.refl s) vecBlock_zero

end

/-! ### What a completion records (R113, R114) -/

theorem vecRecord_vsu (c : Core) (e : VecEntry) :
    (c.vecRecord e).vsu = { c.vsu with
      conds := c.vsu.conds.or e.acc.conds, nanf := c.vsu.nanf || e.acc.nan.isSome, segcnt := e.acc.segcnt.getD c.vsu.segcnt,
      queue := c.vsu.queue.tail, nanOp := (c.vecRecord e).vsu.nanOp, nanOrigin := (c.vecRecord e).vsu.nanOrigin,
      nanIaddr := (c.vecRecord e).vsu.nanIaddr, nanRow := (c.vecRecord e).vsu.nanRow, nanCol := (c.vecRecord e).vsu.nanCol } := by
  rcases hnan : e.acc.nan with - | ⟨r, col, g⟩ <;> simp only [Core.vecRecord, hnan] <;> split_ifs <;> rfl

theorem vecRecord_nan {c : Core} {e : VecEntry} {r col g : Nat} (h : e.acc.nan = some (r, col, g)) :
    (c.vecRecord e).vsu.nanRow = r ∧ (c.vecRecord e).vsu.nanCol = col ∧ (c.vecRecord e).vsu.nanOrigin = g
      ∧ (c.vecRecord e).vsu.nanOp = (vhead e.desc).op := by
  unfold Core.vecRecord
  dsimp only
  rw [h]
  dsimp only
  split_ifs <;> exact ⟨rfl, rfl, rfl, rfl⟩

/-- A NaN written with its enable on raises NAN_TRAP alone. -/
theorem vecRecord_nanTrap {c : Core} {e : VecEntry} (hnan : e.acc.nan.isSome = true) (hen : c.vsu.nanen = true) :
    (c.vecRecord e).pendArith = c.pendArith ∧ ∃ p, (c.vecRecord e).pendNan = c.pendNan ++ [p] ∧ p.ev.code = 0x0C ∧ p.ev.cause = 2
      ∧ p.ev.kind = (if c.preciseM then .precise else .imprecise) ∧ p.ev.iaddr = e.iaddr := by
  have htrap : (e.acc.nan.isSome && c.vsu.nanen) = true := by rw [hnan, hen]; rfl
  unfold Core.vecRecord
  dsimp only
  rw [if_pos htrap]
  exact ⟨rfl, _, rfl, rfl, rfl, rfl, rfl⟩

/-- Without it an enabled condition raises ARITH. -/
theorem vecRecord_arith {c : Core} {e : VecEntry} (h : e.acc.nan = none ∨ c.vsu.nanen = false) :
    (c.vecRecord e).pendNan = c.pendNan ∧ (c.vecRecord e).pendArith = c.pendArith ++
      (if e.acc.conds.meets c.vsu.te then
        [{ ev := { code := 0x0B, cause := 2, kind := if c.preciseM then .precise else .imprecise, iaddr := e.iaddr }, stamp := e.stamp }]
      else []) := by
  have htrap : ¬(e.acc.nan.isSome && c.vsu.nanen) = true := by rcases h with h | h <;> simp [h]
  unfold Core.vecRecord
  dsimp only
  rw [if_neg htrap]
  by_cases hmeets : e.acc.conds.meets c.vsu.te = true
  · rw [if_pos hmeets, if_pos hmeets]
    exact ⟨rfl, rfl⟩
  · rw [if_neg hmeets, if_neg hmeets]
    exact ⟨rfl, (List.append_nil _).symm⟩

theorem vecFault_vsu (c : Core) (e : VecEntry) (f : VecFault) :
    (c.vecFault e f).vsu = { c.vsu with
      stopped := true, fcause := f.cause, fstream := f.stream, fwr := f.wr, fiaddr := e.iaddr.toNat,
      frow := f.row, fcol := f.col, faddr := if f.code = 0x0F then c.vsu.faddr else f.addr } := by
  by_cases hdesc : f.code = 0x0F <;> simp [Core.vecFault, hdesc]

theorem vecFault_event (c : Core) (e : VecEntry) (f : VecFault) :
    ∃ p, (c.vecFault e f).pendDef = c.pendDef ++ [p] ∧ p.stamp = e.stamp ∧ p.ev =
      { code := f.code, cause := f.evCause, kind := .deferred, iaddr := e.iaddr,
        faddr := if f.code = 0x0F then 0 else BitVec.ofNat 64 f.addr } := by
  refine ⟨_, rfl, rfl, ?_⟩
  by_cases hdesc : f.code = 0x0F <;> simp [hdesc]

section
variable {k : CoreId} {s : State} {e : VecEntry} (hrun : (s.core k.val).run = .running) (hstop : (s.core k.val).vsu.stopped = false)
  (hhead : (s.core k.val).vsu.queue.head? = some e)
include hrun hstop hhead

theorem exec_vectorInstructionComplete :
    exec (.vectorInstructionComplete k) s = .next (if e.done then s.modCore k.val (fun c => c.vecRecord e) else s) := by
  obtain ⟨rest, hq⟩ := List.head?_eq_some_iff.mp hhead
  change execVectorInstructionComplete k s = _
  simp only [execVectorInstructionComplete, hq, hrun, hstop]
  cases e.done <;> rfl

theorem exec_vectorExecutionFault {f : VecFault} (hf : e.fault = some f) :
    exec (.vectorExecutionFault k) s = .next (s.modCore k.val (fun c => c.vecFault e f)) := by
  obtain ⟨rest, hq⟩ := List.head?_eq_some_iff.mp hhead
  change execVectorExecutionFault k s = _
  simp only [execVectorExecutionFault, hq, hf, hrun, hstop]
  rfl

end

/-! ### A restart (R111) -/

theorem foldRow_runs {i : Instr} {k : CoreId} {op : Nat} {h : Hit} (hrow : foldRow i = some (k, op, h)) :
    ∃ run, ∀ s, exec i s = .next (s.vecBegin k.val op h run) := by
  unfold foldRow at hrow
  split at hrow
  case h_10 => cases hrow
  all_goals
    cases hrow
    exact ⟨_, fun _ => rfl⟩

/-- The head goes on with the descriptor given. -/
def restarted (s : State) (k : Nat) (e : VecEntry) (rest : List VecEntry) (bs : List Byte) : State :=
  s.modVsu k (fun u => { u with queue := { e with desc := bs, reread := false } :: rest })

theorem vecBegin_restarted {s : State} {k op : Nat} {e : VecEntry} {rest : List VecEntry} {a : Word} {bs : List Byte}
    (hrun : (s.core k).run = .running) (hstop : (s.core k).vsu.stopped = false) (hq : (s.core k).vsu.queue = e :: rest)
    (hdone : e.done = false) (hfault : e.fault = none) (hreread : e.reread = true) (hop : e.op = .vexec a)
    (hdesc : DescriptorAt s k e.ring a bs) (hcheck : vecCheck bs = none) (hcode : (vhead bs).op = op)
    (run : State → VecEntry → Hit → State) : s.vecBegin k op none run = (restarted s k e rest bs).vecBegin k op none run := by
  have hh : s.vecHead k = some e := by
    rw [vecHead_of_queue hq, if_pos]
    simp [headRuns, hrun, hstop, hdone, hfault, hreread]
  have hread : s.vecReread k e .clean = .ok () (restarted s k e rest bs) := by
    obtain ⟨t, hfetch, -, ht⟩ := vecFetch_of_descriptorAt hdesc (e := .clean) (by decide)
    rw [State.vecReread, hop, hreread]
    dsimp only
    rw [hfetch, ht rfl]
    dsimp only
    rw [hcheck]
    exact congrArg (VRes.ok ()) (modVsu_congr (modHead_of_queue hq _))
  have hleft : s.vecBegin k op none run = match (restarted s k e rest bs).vecHead k with
      | none => restarted s k e rest bs
      | some e1 => if (vhead e1.desc).op = op then run (restarted s k e rest bs) e1 none else s := by
    rw [State.vecBegin, hh]
    dsimp only
    rw [hop]
    dsimp only
    rw [show Hit.now none = .clean from rfl, hread, hreread]
    rfl
  rw [hleft]
  cases hh1 : (restarted s k e rest bs).vecHead k with
  | none => rw [vecBegin_none hh1]
  | some e1 =>
    obtain ⟨rest1, hq1, -⟩ := queue_of_vecHead hh1
    rw [restarted, modVsu_core] at hq1
    obtain ⟨rfl, -⟩ := List.cons.inj hq1
    have hlisted : Listed (restarted s k e rest bs) k := listed_modVsu ..
    rw [vecBegin_listed hlisted hh1 rfl hop hcode]
    exact if_pos hcode

/-- Settles O29: a directive's blocks one by one, what a completion and a fault record, and the restart of a VEXEC. -/
theorem vectorUnitAdvances : Obligations.VectorUnitAdvances := by
  unfold Obligations.VectorUnitAdvances
  refine ⟨?_, ?_, ?_, ?_, ?_⟩
  · intro k s e base off len dir at_ h hmild hhead hop hlt
    have hh := vecHead_of_VecHead hhead
    refine ⟨?_, ?_, ?_⟩
    · exact fun hdir hx hclean => vcacheFill_moves hh hop hlt hdir hmild hx hclean
    · exact fun hdir hx halign => vcacheWback_moves hh hop hlt hdir hmild hx halign
    · exact vcacheZero_moves hh hop hlt
  · intro k s e i base off len dir n h hhead hop hall hrow
    obtain ⟨hexec, -⟩ := cacheRow_runs hrow
    obtain ⟨t, ht, hend⟩ := cacheCommand_ends (vecHead_of_VecHead hhead) hop hall n h
    exact ⟨t, (hexec s).trans ht, hend⟩
  · intro i i₁ k dir n h s hrow hrow₁
    obtain ⟨hexec, hfamily⟩ := cacheRow_runs hrow
    obtain ⟨hexec₁, -⟩ := cacheRow_runs hrow₁
    obtain ⟨h', t, hone, hturn⟩ := cacheCommand_inTurn s k.val dir n h
    obtain ⟨hexec₂, -⟩ := cacheRow_runs (hfamily n h')
    exact ⟨cacheInstr k dir n h', h', t, hfamily n h', by rw [hexec₁, hone], by rw [hexec, hexec₂, hturn]⟩
  · intro k s e hrun hstop hhead
    have hcomplete := exec_vectorInstructionComplete hrun hstop hhead
    refine ⟨fun hdone => ?_, fun hopen => ?_, fun f hf => ?_⟩
    · rw [hdone, if_pos rfl] at hcomplete
      refine ⟨_, hcomplete, ?_⟩
      rw [modCore_core, if_pos rfl]
      refine ⟨by rw [vecRecord_vsu], by rw [vecRecord_vsu], by rw [vecRecord_vsu], by rw [vecRecord_vsu], by rw [vecRecord_vsu], rfl,
        vecRecord_nanTrap, vecRecord_arith, fun _ _ _ => vecRecord_nan⟩
    · rw [hopen] at hcomplete
      exact hcomplete
    · refine ⟨_, exec_vectorExecutionFault hrun hstop hhead hf, ?_⟩
      rw [modCore_core, if_pos rfl]
      exact ⟨vecFault_vsu (s.core k.val) e f, vecFault_event (s.core k.val) e f⟩
  · intro i k op n s e rest a bs hrow hrun hstop hq hdone hfault hreread hop hdesc hcheck hcode
    obtain ⟨run, hexec⟩ : ∃ run, ∀ s, exec i s = .next (s.vecBegin k.val op none run) := by
      rcases hrow with hrow | hrow
      · exact ⟨_, (elemRow_runs hrow).1⟩
      · exact foldRow_runs hrow
    rw [hexec, hexec]
    exact congrArg _ (vecBegin_restarted hrun hstop hq hdone hfault hreread hop hdesc hcheck hcode run)

end Sys2Proof.Proofs
end

section
/-!
PROOFS. Stores (O7): the rows of R199 as one instruction, the physical bytes that a store reaches (R182), and what it leaves where it is in place at once
and where it is posted to another core's scratchpad (R130, R136, R199).
-/
namespace Sys2Proof.Proofs
open Sys2Proof Sys2Proof.Machine Sys2Proof.Stated Sys2Proof.Laws

/-! ### The rows of R199 -/

theorem operands_getD_zero (s : State) (k : Nat) : (operands s k 2).getD 0 0 = s.entry k .data 1 := rfl

theorem nth_tops (s : State) (k : Nat) {n i : Nat} (hi : i < n) : nth (s.tops k n) i = s.entry k .data i := by
  rw [nth, List.getD_eq_getElem?_getD, entry_of_tops s k n hi, Option.getD_some]

theorem lowBytes_tops (n : Nat) (s : State) (k : Nat) : lowBytes n (s.tops k 2) = bytesOf n ((operands s k 2).getD 0 0).toNat := by
  rw [lowBytes, bytesOf_eq_leBytes, nth_tops s k (by decide), operands_getD_zero]

theorem exec_st8 (k : CoreId) (d : Disp) (h : Finding) (s : State) :
    exec (.st8 k d h) s = storeInstr k (.st8 k d h) d h 2 (lowBytes 1) s := rfl

theorem exec_st16 (k : CoreId) (d : Disp) (h : Finding) (s : State) :
    exec (.st16 k d h) s = storeInstr k (.st16 k d h) d h 2 (lowBytes 2) s := rfl

theorem exec_st32 (k : CoreId) (d : Disp) (h : Finding) (s : State) :
    exec (.st32 k d h) s = storeInstr k (.st32 k d h) d h 2 (lowBytes 4) s := rfl

theorem exec_st64 (k : CoreId) (d : Disp) (h : Finding) (s : State) :
    exec (.st64 k d h) s = storeInstr k (.st64 k d h) d h 2 (lowBytes 8) s := rfl

theorem exec_stiQ (k : CoreId) (d : Disp) (v : BitVec 64) (h : Finding) (s : State) :
    exec (.stiQ k d v h) s = storeInstr k (.stiQ k d v h) d h 1 (fun _ => leBytes 8 v.toNat) s := rfl

/-- A row of R199 is a store of its operands' bytes, 1, 2, 4 or 8 of them. -/
theorem storeRow_runs {i : Instr} {r : StoreRow} (h : storeRow i = some r) :
    (∃ bs, (∀ f : State, bs (f.tops r.k.val r.pops) = r.bytes f) ∧ ∀ s, exec i s = storeInstr r.k i r.d r.h r.pops bs s)
      ∧ 0 < r.pops ∧ 0 < r.n ∧ r.n ∣ 16 := by
  cases i <;> cases h
  case st8 k d h => exact ⟨⟨lowBytes 1, fun f => lowBytes_tops 1 f k, exec_st8 k d h⟩, Nat.zero_lt_succ _, Nat.zero_lt_succ _, ⟨16, rfl⟩⟩
  case st16 k d h => exact ⟨⟨lowBytes 2, fun f => lowBytes_tops 2 f k, exec_st16 k d h⟩, Nat.zero_lt_succ _, Nat.zero_lt_succ _, ⟨8, rfl⟩⟩
  case st32 k d h => exact ⟨⟨lowBytes 4, fun f => lowBytes_tops 4 f k, exec_st32 k d h⟩, Nat.zero_lt_succ _, Nat.zero_lt_succ _, ⟨4, rfl⟩⟩
  case st64 k d h => exact ⟨⟨lowBytes 8, fun f => lowBytes_tops 8 f k, exec_st64 k d h⟩, Nat.zero_lt_succ _, Nat.zero_lt_succ _, ⟨2, rfl⟩⟩
  case stiQ k d v h =>
    exact ⟨⟨fun _ => leBytes 8 v.toNat, fun _ => (bytesOf_eq_leBytes ..).symm, exec_stiQ k d v h⟩, Nat.zero_lt_succ _, Nat.zero_lt_succ _, ⟨2, rfl⟩⟩

theorem storeRow_bytes_length (r : StoreRow) (s : State) : (r.bytes s).length = r.n := by simp [StoreRow.bytes, bytesOf]

/-! ### What a store does after its access -/

section
variable {i : Instr} {r : StoreRow} {s : State} {pas : List Nat} (hrow : storeRow i = some r) (hok : r.ok s (instrBytes i).length pas)
include hrow hok

/-- A store whose access succeeds pops its operands and goes on. -/
theorem exec_store_of_ok {u : State}
    (hu : (s.fetched r.k.val (instrBytes i).length).storeBytes r.k.val (r.addr (s.fetched r.k.val (instrBytes i).length))
      (r.bytes (s.fetched r.k.val (instrBytes i).length)) r.h = .ok () u) :
    exec i s = .next ((u.stackEffect r.k.val .data r.pops []).advance r.k.val (instrBytes i).length) := by
  obtain ⟨⟨bs, hbs, hexec⟩, hpops, -⟩ := storeRow_runs hrow
  obtain ⟨hruns, hfits, -, -⟩ := hok
  have h3 : (s.core r.k.val).ring.val ≤ 3 := Nat.le_of_lt_succ (s.core r.k.val).ring.isLt
  rw [hexec, storeInstr, coreInstr_runs r.k _ _ s hruns rfl h3 hfits (fits_zero s _ .ret)]
  dsimp only
  rw [hbs, nth_tops _ _ hpops]
  unfold effAddr
  unfold StoreRow.addr at hu
  rw [hu]

end

/-- The operands leave a state whose bank and PC are those after the fetch. -/
theorem popped_stored {f u : State} {k n : Nat} (hbank : (u.core k).bank = (f.core k).bank) (hn : n ≤ (f.core k).bank.depth .data) (len : Nat) :
    let t := (u.stackEffect k .data n []).advance k len
    (t.core k).bank.dsp = (f.core k).bank.dsp + 8 * n ∧ (t.core k).pc = (f.core k).pc + BitVec.ofNat 64 len
      ∧ ∀ b, (k = maltsterCore ∨ ¬Spilled f k .data (16 + n) b) → t.getByte b = u.getByte b := by
  dsimp only
  rw [advance_jump]
  refine ⟨?_, ?_, fun b hb => ?_⟩
  · rw [jump_bank, stackEffect_bank, hbank, stackApply_eq]
    rfl
  · rw [jump_pc, stackEffect_pc, Core.pc, hbank]
    rfl
  · rw [jump_getByte, stackEffect_getByte u k .data n [] (Nat.zero_le _) (by rw [hbank]; exact hn)]
    unfold Spilled
    rw [hbank]
    exact hb

/-! ### The bytes that a store reaches (R182) -/

/-- An access whose physical bytes are as many as its bytes begins at a local target. -/
theorem reaches_phys {s : State} {k va n : Nat} {kind : AccKind} {pas : List Nat} (h : Reaches s k kind va n pas) (hn : 0 < n) :
    ∃ img ts, coreXlateN s k (s.core k).ring kind va n = .ok (.phys (pas.headD 0) img :: ts) := by
  obtain ⟨ts, hts, hpas, hrange, -⟩ := h
  have hlen : pas.length = n := by rw [hrange]; simp [rangeFrom]
  have htslen := coreXlateN_length hts
  match ts, hpas with
  | [], _ => exact absurd htslen (by simpa using hn.ne)
  | .phys pa img :: ts, hpas => exact ⟨img, ts, by rw [hts, ← hpas]; rfl⟩
  | .remote rk c pva pg :: ts, hpas =>
    have hle : (physAddrs ts).length ≤ ts.length := List.length_filterMap_le _ _
    have hskip : pas = physAddrs ts := hpas.symm
    rw [hskip] at hlen
    simp only [List.length_cons] at htslen
    omega

theorem getD_rangeFrom {a n j : Nat} (hj : j < n) : (rangeFrom a n).getD j 0 = a + j := by
  simp [rangeFrom, List.getD_eq_getElem?_getD, hj]

/-- An aligned span lies in one aligned block of every multiple of its length. -/
theorem div_of_aligned {a b n m : Nat} (halign : a % n = 0) (hn : n ∣ m) (hb : b ∈ rangeFrom a n) : b / m = a / m := by
  obtain ⟨hlo, hhi⟩ := mem_rangeFrom.mp hb
  have hdiv : b / n = a / n := by
    have ha : a / n * n = a := Nat.div_mul_cancel (Nat.dvd_of_mod_eq_zero halign)
    exact Nat.div_eq_of_lt_le (by omega) (by rw [Nat.succ_mul]; omega)
  obtain ⟨d, rfl⟩ := hn
  rw [← Nat.div_div_eq_div_mul, ← Nat.div_div_eq_div_mul, hdiv]

/-- The bytes of an aligned access lie in one entry of their array. -/
theorem holdsError_of_aligned (s : State) {a b n : Nat} (halign : a % n = 0) (hn : n ∣ 16) (hb : b ∈ rangeFrom a n) :
    s.holdsError b = s.holdsError a := by
  have h16 : b / 16 = a / 16 := div_of_aligned halign hn hb
  have h64 : b / 64 = a / 64 := div_of_aligned halign (hn.trans (by decide)) hb
  have hend : memEnd = 0x9000000000 := rfl
  have hside : b < memEnd ↔ a < memEnd := by omega
  simp only [State.holdsError, hside, h16, h64]

/-- A core that has posted a store to another core's scratchpad. -/
def postStore (pa : Nat) (bs : List Byte) (c : Core) : Core :=
  { c with stamp := c.stamp + 1, posted := c.posted ++ [{ addr := pa, bytes := bs, iaddr := c.pc, stamp := c.stamp }] }

theorem postStore_bank (pa : Nat) (bs : List Byte) (c : Core) : (postStore pa bs c).bank = c.bank := rfl

/-- What a store of n bytes does at a physical place. -/
theorem storeBytes_phys {s : State} {k pa : Nat} {a : Word} {bs : List Byte} {img : Bool} {ts : List Target} (halign : a.toNat % bs.length = 0)
    (hx : coreXlateN s k (s.core k).ring .write a.toNat bs.length = .ok (.phys pa img :: ts)) (h : Finding) :
    s.storeBytes k a bs h =
      match placeOf pa with
      | .mem _ =>
        if k = maltsterCore then .ok () (s.placeCells ((rangeFrom pa bs.length).zip bs) maltsterId)
        else match s.cachedStore k pa bs h (s.stampOf k) with
          | some t => .ok () (t.bump k)
          | none => .wait
      | .spad k' _ =>
        if k' = k ∨ k = maltsterCore then
          if (s.eccRead pa (coreMaster k).id h.ecc).2
          then .ok () ((s.eccRead pa (coreMaster k).id h.ecc).1.placeCells ((rangeFrom pa bs.length).zip bs) (coreMaster k).id)
          else .lost (s.eccRead pa (coreMaster k).id h.ecc).1
        else .ok () (s.modCore k (postStore pa bs))
      | .tun _ _ =>
        if (s.eccRead pa (coreMaster k).id h.ecc).2
        then .ok () ((s.eccRead pa (coreMaster k).id h.ecc).1.placeCells ((rangeFrom pa bs.length).zip bs) (coreMaster k).id)
        else .lost (s.eccRead pa (coreMaster k).id h.ecc).1
      | _ => s.storeReg k a pa bs := by
  unfold State.storeBytes
  dsimp only
  rw [if_neg (not_not.mpr halign), hx]
  dsimp only
  cases placeOf pa <;> simp only [rangeFrom, Bool.or_eq_true, decide_eq_true_eq] <;> rfl

/-- A store that is in place at once puts its bytes in place after a read of their entry that counts at most an error corrected. -/
theorem storeBytes_inPlace {s : State} {k pa : Nat} {a : Word} {bs : List Byte} {img : Bool} {ts : List Target} {h : Finding}
    (halign : a.toNat % bs.length = 0) (hx : coreXlateN s k (s.core k).ring .write a.toNat bs.length = .ok (.phys pa img :: ts))
    (hplace : InPlaceAtOnce k pa) (he : h.ecc ≠ .uncorrectable ∨ pa < memEnd) (herr : s.holdsError pa = false) :
    ∃ u m, Counted s u ∧ s.storeBytes k a bs h = .ok () (u.placeCells ((rangeFrom pa bs.length).zip bs) m) := by
  rw [storeBytes_phys halign hx]
  have hread (hsram : ¬pa < memEnd) := counted_eccRead herr (he.resolve_right hsram) (coreMaster k).id
  unfold InPlaceAtOnce at hplace
  cases hp : placeOf pa <;> simp only [hp] at hplace ⊢
  case mem => exact ⟨s, maltsterId, .refl s, by rw [if_pos hplace]⟩
  case spad k' off =>
    obtain ⟨hok, hcounted⟩ := hread (Nat.not_lt.mpr (memEnd_le_of_placeOf (by simp [hp])))
    exact ⟨_, _, hcounted, by rw [if_pos hplace, if_pos hok]⟩
  case tun c off =>
    obtain ⟨hok, hcounted⟩ := hread (Nat.not_lt.mpr (memEnd_le_of_placeOf (by simp [hp])))
    exact ⟨_, _, hcounted, by rw [if_pos hok]⟩

/-! ### The obligation -/

theorem storesPlace : StoresPlace := by
  intro i r s pas hrow k f hok hplace he herr hspill
  obtain ⟨-, hpops, hn, hdvd⟩ := storeRow_runs hrow
  obtain ⟨hruns, hfits, halign, hreach⟩ := id hok
  obtain ⟨img, ts, hx⟩ := reaches_phys hreach hn
  obtain ⟨-, -, -, hrange, hpa⟩ := hreach
  have hlen : (r.bytes f).length = r.n := storeRow_bytes_length r f
  have hf : Fetched s f := fetched_fetched s k _
  have hpaslen : pas.length = r.n := by rw [hrange]; simp [rangeFrom]
  have hhead : pas.headD 0 ∈ pas := by
    have hmem : pas.headD 0 ∈ rangeFrom (pas.headD 0) r.n := mem_rangeFrom.mpr ⟨Nat.le_refl _, Nat.lt_add_of_pos_right hn⟩
    rwa [← hrange] at hmem
  obtain ⟨u, m, hcounted, hstore⟩ := storeBytes_inPlace (bs := r.bytes f) (h := r.h) (by rw [hlen]; exact halign)
    (by rw [hlen]; exact hx) (hplace _ hhead) he herr
  rw [hlen, ← hrange] at hstore
  have hclean : ∀ c ∈ pas.zip (r.bytes f), u.holdsError c.1 = false := by
    intro c hc
    have hmem : c.1 ∈ rangeFrom (pas.headD 0) r.n := by rw [← hrange]; exact (List.of_mem_zip hc).1
    rw [hcounted.holdsError, holdsError_of_aligned f hpa hdvd hmem, herr]
  have hplaced := cellsPlaced_placeCells hclean m
  have hbank : ((u.placeCells (pas.zip (r.bytes f)) m).core k).bank = (f.core k).bank := by
    rw [hplaced.core, hcounted.fetched.bank]
  obtain ⟨hdsp, hpc, hbytes⟩ := popped_stored (n := r.pops) hbank (by rw [hf.bank]; exact hfits.1) (instrBytes i).length
  refine ⟨_, exec_store_of_ok hrow hok hstore, ?_, ?_, fun j hj => ?_, fun b hb hns => ?_⟩
  · rw [hdsp, hf.bank]
  · rw [hpc, fetched_pc hf]
  · have hjmem : pas.getD j 0 ∈ pas := by
      rw [List.getD_eq_getElem _ _ (by omega)]
      exact List.getElem_mem _
    rw [hbytes _ (hspill _ hjmem), State.getByte, hplaced.mem, ← placeAt_mem]
    exact placeAt_zip_getByte (hrange ▸ rangeFrom_nodup _ _) (by rw [hlen, hpaslen]) u (by omega)
  · rw [hbytes b hns, hplaced.outside (fun c hc hcb => hb (by rw [← hcb]; exact (List.of_mem_zip hc).1)), hcounted.getByte]

theorem storesPost : StoresPost := by
  intro i r s pas k' off hrow k f hok hk hk' hp
  obtain ⟨-, -, hn, -⟩ := storeRow_runs hrow
  obtain ⟨-, hfits, halign, hreach⟩ := id hok
  obtain ⟨img, ts, hx⟩ := reaches_phys hreach hn
  have hlen : (r.bytes f).length = r.n := storeRow_bytes_length r f
  have hf : Fetched s f := fetched_fetched s k _
  have hstore := storeBytes_phys (s := f) (bs := r.bytes f) (by rw [hlen]; exact halign) (by rw [hlen]; exact hx) r.h
  rw [hp] at hstore
  dsimp only at hstore
  rw [if_neg (not_or.mpr ⟨hk', hk⟩)] at hstore
  obtain ⟨hdsp, hpc, hbytes⟩ := popped_stored (u := f.modCore k (postStore (pas.headD 0) (r.bytes f))) (f := f) (n := r.pops)
    (by rw [modCore_core, if_pos rfl, postStore_bank])
    (by rw [hf.bank]; exact hfits.1) (instrBytes i).length
  refine ⟨_, exec_store_of_ok hrow hok hstore, ?_, ?_, ?_, fun b hns => ?_⟩
  · rw [hdsp, hf.bank]
  · rw [hpc, fetched_pc hf]
  · rw [advance_jump, State.jump, modCore_core, if_pos rfl, Core.setPc, Core.setBank, (stackFrame_effect ..).2.2.1, modCore_core, if_pos rfl, hf.2 k]
    rfl
  · rw [hbytes b (Or.inr hns)]
    rfl

/-- Settles O7: an aligned access lies in one entry, so the read of that entry alone decides whether its bytes are put in place. -/
theorem storesPlaced : Obligations.StoresPlaced := ⟨storesPlace, storesPost⟩

end Sys2Proof.Proofs
end

section
/-!
PROOFS. TRAP (O11): the gate entry's fields and the checks of R170, the entry that follows them, and where the arguments of a gate
stand after it (R165, R169 to R171, R381).
-/
namespace Sys2Proof.Proofs
open Sys2Proof Sys2Proof.Machine Sys2Proof.Stated Sys2Proof.Laws

/-! ### The gate (R169, R170) -/

/-- The fields of a gate-table entry. -/
theorem gateOf_eq (lo hi : Word) : gateOf lo hi =
    { target := BitVec.ofNat 64 (lo.toNat % 2 ^ 48), ring := lo.toNat / 2 ^ 48 % 4, callmax := lo.toNat / 2 ^ 50 % 4,
      args := lo.toNat / 2 ^ 52 % 8, ien := lo.getLsbD 55, clean := decide (lo.toNat / 2 ^ 56 % 128 = 0) && decide (hi = 0),
      v := lo.getLsbD 63 } := by
  have htarget : place (field lo 47 0) 48 0 = BitVec.ofNat 64 (lo.toNat % 2 ^ 48) := by
    rw [field_eq_div, place, Nat.shiftLeft_zero]
    simp
  rw [gateOf, htarget]
  simp only [field_eq_div, bit]
  rfl

/-- The checks of R170 and of the arguments, on the fields of the entry. -/
theorem gateFault_eq (s : State) (k n : Nat) (lo : Word) (hi : Word) : s.gateFault k n (gateOf lo hi) =
    let ring := toRing (lo.toNat / 2 ^ 48 % 4)
    let args := lo.toNat / 2 ^ 52 % 8
    if lo.getLsbD 63 = false then some { code := 3, cause := 1, gate := n }
    else if lo.toNat / 2 ^ 56 % 128 ≠ 0 ∨ hi ≠ 0 then some { code := 3, cause := 2, gate := n }
    else if lo.toNat / 2 ^ 50 % 4 < (s.core k).ring.val then some { code := 3, cause := 3, gate := n }
    else if (s.core k).ring.val < lo.toNat / 2 ^ 48 % 4 then some { code := 3, cause := 4, gate := n }
    else if (s.core k).bank.depth .data < args then some { code := 8, cause := 1 }
    else if ((s.core k).banks.get ring).busy = false ∧ ((s.core k).dsr.get ring).top < ((s.core k).dsr.get ring).lim + 8 * args then
      some { code := 7, cause := 1 }
    else none := by
  simp only [State.gateFault, gateOf_eq]
  simp

/-! ### What TRAP does after its fetch -/

/-- An entry read from memory by a stack move that nothing bars holds no error. -/
theorem holdsError_of_stackBar {s : State} {k o : Nat} (hk : k ≠ maltsterCore) (h : s.stackBar k [o] [] = none) :
    s.holdsError (spadAddr k o) = false := by
  unfold State.stackBar at h
  rw [if_neg hk] at h
  split at h
  · cases h
  · simpa using h

theorem Counted.stackGet {s u : State} (h : Counted s u) (k a : Nat) : u.stackGet k a = s.stackGet k a := by
  rw [h.frame]
  rfl

theorem Counted.entry {s u : State} (h : Counted s u) (k : Nat) (x : Stk) (i : Nat) : u.entry k x i = s.entry k x i := by
  simp only [State.entry, State.stackEntry, h.fetched.bank k, h.stackGet]

theorem eq_fst_true {α : Type} {x : α × Bool} (h : x.2 = true) : x = (x.1, true) := by rw [← h]

/-- The state in which TRAP n has read its gate's entry. -/
def gateRead (s : State) (k n : Nat) (h : Ecc) : State :=
  if k = maltsterCore then s else (s.eccRead (spadAddr k ((s.core k).gtb * 4096 + 16 * n)) k h).1

/-- The state that TRAP enters from r, whose gate's entry is lo. -/
def trapped (r : State) (k n : Nat) (lo : Word) : State :=
  let pc := (r.core k).pc
  r.takeEvent k { code := 0x40, gate := n, kind := .boundary, iaddr := pc }
    { ring := toRing (lo.toNat / 2 ^ 48 % 4), args := lo.toNat / 2 ^ 52 % 8, ien := lo.getLsbD 55, target := BitVec.ofNat 64 (lo.toNat % 2 ^ 48) }
    (pc + 2) .clean

section
variable {k : CoreId} {n : BitVec 8} {h : Ecc} {s f : State} (hf : s.fetched k.val 2 = f) (hr : s.Runs k.val 2)
  (he : k.val = maltsterCore ∨ h ≠ .uncorrectable) (hbar : f.stackBar k.val [(f.core k.val).gtb * 4096 + 16 * n.toNat] [] = none)
include he hbar

/-- The read of the gate's entry counts at most a corrected error. -/
theorem counted_gateRead : Counted f (gateRead f k.val n.toNat h)
    ∧ (if k.val = maltsterCore then (f, true) else f.eccRead (spadAddr k.val ((f.core k.val).gtb * 4096 + 16 * n.toNat)) k.val h)
      = (gateRead f k.val n.toNat h, true) := by
  unfold gateRead
  generalize (f.core k.val).gtb * 4096 + 16 * n.toNat = o at hbar ⊢
  by_cases hk : k.val = maltsterCore
  · rw [if_pos hk, if_pos hk]
    exact ⟨.refl f, rfl⟩
  · obtain ⟨hok, hcounted⟩ := counted_eccRead (holdsError_of_stackBar hk hbar) (he.resolve_left hk) k.val
    rw [if_neg hk, if_neg hk]
    exact ⟨hcounted, eq_fst_true hok⟩

include hf hr

/-- What TRAP does once its gate's entry is read. -/
theorem exec_trap : exec (.trap k n h) s =
    let r := gateRead f k.val n.toNat h
    let lo := gateLo f k.val n.toNat
    match r.gateFault k.val n.toNat (gateOf lo (gateHi f k.val n.toNat)) with
    | some e => .next (r.raise k.val e)
    | none =>
      r.unbarred k.val (r.barOf k.val (r.core k.val).bank .data
          (if (!((r.core k.val).banks.get (toRing (lo.toNat / 2 ^ 48 % 4))).busy) = true then lo.toNat / 2 ^ 52 % 8 else 0) 0 0)
        (.next ((trapped r k.val n.toNat lo).parkAtYield k.val n.toNat (f.entry k.val .data 0))) := by
  obtain ⟨hcounted, hread⟩ := counted_gateRead he hbar
  have h3 : (s.core k.val).ring.val ≤ 3 := Nat.le_of_lt_succ (s.core k.val).ring.isLt
  have hlen : (instrBytes (.trap k n h)).length = 2 := rfl
  have hgate : (gateRead f k.val n.toNat h).gate k.val n.toNat = gateOf (gateLo f k.val n.toNat) (gateHi f k.val n.toNat) := by
    have hgtb : ((gateRead f k.val n.toNat h).core k.val).gtb = (f.core k.val).gtb := by rw [hcounted.core]
    simp only [State.gate, hgtb, hcounted.stackGet, gateLo, gateHi, Nat.add_assoc]
  have harg : nth ((gateRead f k.val n.toNat h).tops k.val 1) 0 = f.entry k.val .data 0 := by
    rw [nth_tops _ _ Nat.zero_lt_one, hcounted.entry]
  change execTrap k n h s = _
  unfold execTrap
  rw [coreInstr_runs k { bytes := instrBytes (.trap k n h) } _ s hr rfl h3 (fits_zero s k.val .data) (fits_zero s k.val .ret),
    hlen, hf]
  dsimp only
  rw [hbar, unbarred_none, hread]
  simp only [Bool.not_true, Bool.false_eq_true, if_false, hgate, harg]
  cases hg : State.gateFault _ _ _ _ with
  | some e => rfl
  | none =>
    rw [gateOf_eq]
    rfl

end

/-! ### The entry (R171) -/

/-- A spill keeps the entries that lie apart from those it spills. -/
theorem spill_stackGet_apart (s : State) (k ptr : Nat) (c : List Word) (keep : Nat) {a : Nat} (h : a + 8 ≤ ptr ∨ ptr + 8 * c.length ≤ a) :
    (s.spill k ptr c keep).2.stackGet k a = s.stackGet k a := by
  unfold State.spill
  dsimp only
  rw [outClears_stackGet]
  have hl : ∀ i ∈ (List.range c.length).filter (fun i => decide (keep ≤ i)), i < c.length :=
    fun i hi => List.mem_range.mp (List.mem_of_mem_filter hi)
  generalize (List.range c.length).filter (fun i => decide (keep ≤ i)) = l at hl
  induction l generalizing s with
  | nil => rfl
  | cons i l ih =>
    obtain ⟨hi, hl⟩ := List.forall_mem_cons.mp hl
    rw [List.foldl_cons, ih _ hl, stackGet_put_other _ _ _ _ _ (by omega)]

section
variable {s : State} {k : Nat} {ev : Ev} {e : Entry} {rpc : Word}

/-- An event whose record fits, whose spill completes and whose handler can be fetched is entered (R171). -/
theorem takeEvent_enters (hfit : RecordFits s k e.ring) (hspill : s.spillFails k e.ring .clean = none)
    (hfetch : (s.enter k ev e rpc).instrFetch k e.target.toNat = none) : s.takeEvent k ev e rpc .clean = s.enter k ev e rpc := by
  have hrecord : (s.core k).recordFits e.ring = true := decide_eq_true hfit
  simp only [State.takeEvent, State.tryEnter, hrecord, hspill, hfetch]
  rfl

/-- The state in which an event has frozen the units of its core. -/
def unitsFrozen (s : State) (k : Nat) : State :=
  s.modCore k (fun c => { c with tile := c.tile.freeze, vsu := c.vsu.freeze, waiting := none })

/-- The bank that an event enters where it is in use already, the cache of its return stack being rs. -/
def nestedBank (b : Bank) (e : Entry) (rs : List Word) : Bank :=
  { b with rs := rs, rsp := b.rsp - 64, rsFloor := b.rsp - 64, dsFloor := b.dsp + 8 * e.args, pc := e.target }

theorem enter_busy (hbusy : ((s.core k).banks.get e.ring).busy = true) :
    (∃ rs, (s.enter k ev e rpc).core k =
        { (s.core k).setBank (nestedBank (s.core k).bank e rs) with
          gie := e.ien, tile := (s.core k).tile.freeze, vsu := (s.core k).vsu.freeze, waiting := none })
      ∧ ∀ a, a + 8 ≤ (s.core k).bank.rsp ∨ (s.core k).bank.rsp + 8 * (s.core k).bank.rs.length ≤ a →
          (s.enter k ev e rpc).stackGet k a = s.stackGet k a := by
  have hkept := kept_spill (unitsFrozen s k) k (s.core k).bank.rsp (s.core k).bank.rs 8
  unfold unitsFrozen at hkept
  unfold State.enter
  simp only [hbusy, if_true, modCore_core, hkept.core]
  exact ⟨⟨_, rfl⟩, fun a ha => (spill_stackGet_apart _ _ _ _ _ ha).trans (modCore_stackGet ..)⟩

/-- The bank that an event enters where it is free, with its arguments and its trap record. -/
def enteredBank (c : Core) (e : Entry) (args rec_ : List Word) : Bank :=
  { pc := e.target, dsp := (c.dsr.get e.ring).top - 8 * e.args, dsFloor := (c.dsr.get e.ring).top, ds := args,
    rsp := (c.rsr.get e.ring).top - 64, rsFloor := (c.rsr.get e.ring).top - 64, rs := rec_, busy := true }

/-- The state in which an event has entered a free bank. -/
def enteredFree (s : State) (ev : Ev) (e : Entry) (rpc : Word) (k : Nat) : State :=
  let r := (unitsFrozen s k).stackApply k (s.core k).bank .data e.args []
  r.1.modCore k (fun c =>
    { c with
      banks := (c.setBank { c.bank with dsp := r.2.1, ds := r.2.2 }).banks.set e.ring
        (enteredBank c e ((unitsFrozen s k).stackTop k (s.core k).bank .data e.args) (trapRecord (s.core k) ev rpc false)),
      ring := e.ring, gie := e.ien })

theorem enter_free (hfree : ((s.core k).banks.get e.ring).busy = false) :
    ∃ ds rec_, (s.enter k ev e rpc).core k =
      { s.core k with
        banks := ((s.core k).setBank { (s.core k).bank with dsp := (s.core k).bank.dsp + 8 * e.args, ds := ds }).banks.set e.ring
          (enteredBank (s.core k) e (s.tops k e.args) rec_),
        ring := e.ring, gie := e.ien, tile := (s.core k).tile.freeze, vsu := (s.core k).vsu.freeze, waiting := none } := by
  have hkept : Kept (unitsFrozen s k) ((unitsFrozen s k).stackApply k (s.core k).bank .data e.args []).1 := kept_spill ..
  have htops : (unitsFrozen s k).stackTop k (s.core k).bank .data e.args = s.tops k e.args := rfl
  have henter : s.enter k ev e rpc = enteredFree s ev e rpc k := by
    unfold State.enter
    simp only [hfree, Bool.false_eq_true, if_false]
    rfl
  rw [henter, enteredFree, modCore_core, if_pos rfl, hkept.core, htops, stackApply_eq, unitsFrozen, modCore_core, if_pos rfl]
  exact ⟨_, _, rfl⟩

end

/-- An entry of the data stack lies apart from the cached entries of the return stack. -/
theorem entry_apart {s : State} {k j : Nat} (h : StacksApart s k) (hj : j < (s.core k).bank.depth .data) :
    (s.core k).bank.dsp + 8 * j + 8 ≤ (s.core k).bank.rsp
      ∨ (s.core k).bank.rsp + 8 * (s.core k).bank.rs.length ≤ (s.core k).bank.dsp + 8 * j := by
  unfold StacksApart at h
  dsimp only at h
  omega

theorem trapMovesArguments : TrapMovesArguments := by
  intro k s ev e rpc c t hfit hspill hfetch hargs hiff _ hapart
  have ht : t = s.enter k.val ev e rpc := takeEvent_enters hfit hspill hfetch
  by_cases hring : e.ring = c.ring
  · obtain ⟨⟨rs, hcore⟩, hget⟩ := enter_busy (ev := ev) (rpc := rpc) (hiff.mp hring)
    have hbank : (t.core k.val).bank = nestedBank c.bank e rs := by
      rw [ht, hcore]
      exact setBank_bank _ _
    refine ⟨?_, ?_, ?_, fun j hj => ?_, fun _ => ?_, fun h => absurd hring h⟩
    · rw [ht, hcore, hring]
      rfl
    · rw [Core.pc, hbank]
      rfl
    · rw [ht, hcore]
    · have hentry := entry_apart hapart (Nat.lt_of_lt_of_le hj hargs)
      rw [State.entry, hbank, State.entry, State.stackEntry, State.stackEntry, ht]
      exact congrArg _ (funext fun _ => hget _ hentry)
    · rw [hbank]
      exact ⟨rfl, rfl⟩
  · have hfree : (c.banks.get e.ring).busy = false := by simpa using fun h => hring (hiff.mpr h)
    obtain ⟨ds, rec_, hcore⟩ := enter_free (ev := ev) (rpc := rpc) hfree
    have hbank : (t.core k.val).bank = enteredBank c e (s.tops k.val e.args) rec_ := by
      rw [ht, hcore, Core.bank, Four_get_set, if_pos rfl]
    refine ⟨?_, ?_, ?_, fun j hj => ?_, fun h => absurd h hring, fun _ => ⟨?_, ?_, ?_⟩⟩
    · rw [ht, hcore]
    · rw [Core.pc, hbank]
      rfl
    · rw [ht, hcore]
    · exact entry_of_cache_tops (keep := []) (by rw [hbank, List.append_nil]; rfl) hj
    · rw [hbank]
      rfl
    · rw [hbank]
      rfl
    · rw [ht, hcore, Four_get_set, if_neg (fun h => hring h.symm), Core.setBank, Four_get_set, if_pos rfl]

/-- The core parks at its yield gate where PREEMPT is pending (R381). -/
theorem parkAtYield_eq (u : State) (k n : Nat) (arg : Word) : u.parkAtYield k n arg =
    if u.yieldGate k = some n ∧ (u.core k).ipend.getLsbD 0 = true ∧ (u.core k).halt = false then parkedAt u k arg else u := by
  simp [State.parkAtYield, parkedAt, and_assoc]

theorem trapEntersGate : TrapEntersGate := by
  intro k n h s f o r c lo ring args hr he hbar
  have hr' : r = gateRead f k.val n.toNat h := rfl
  have hexec := exec_trap rfl hr he hbar
  have hcounted := (counted_gateRead he hbar).1
  have hf : Fetched s f := fetched_fetched s k.val 2
  have hring : (r.core k.val).ring = c.ring := (hcounted.fetched.ring _).trans (hf.ring _)
  have hbank : (r.core k.val).bank = c.bank := (hcounted.fetched.bank _).trans (hf.bank _)
  have hbanks : (r.core k.val).banks = c.banks := by rw [hr', hcounted.core, hf.2 k.val]
  have hdsr : (r.core k.val).dsr = c.dsr := by rw [hr', hcounted.core, hf.2 k.val]
  have hgf := gateFault_eq r k.val n.toNat lo (gateHi f k.val n.toNat)
  dsimp only at hgf hexec
  rw [hring, hbank, hbanks, hdsr] at hgf
  have hfault {e : Ev} (hg : r.gateFault k.val n.toNat (gateOf lo (gateHi f k.val n.toNat)) = some e) :
      exec (.trap k n h) s = .next (r.raise k.val e) := by
    rw [hexec, ← hr', hg]
  refine ⟨fun hv => hfault ?_, fun hv hclean => hfault ?_, fun hv hclean hhi => ⟨fun hmax => hfault ?_, fun hmax hlt => hfault ?_,
    fun hmax hle hargs hroom hbars => ?_⟩⟩
  · rw [hgf, if_pos hv]
  · rw [hgf, if_neg (by rw [hv]; decide), if_pos hclean]
  · rw [hgf, if_neg (by rw [hv]; decide), if_neg (not_or.mpr ⟨not_not.mpr hclean, not_not.mpr hhi⟩), if_pos hmax]
  · rw [hgf, if_neg (by rw [hv]; decide), if_neg (not_or.mpr ⟨not_not.mpr hclean, not_not.mpr hhi⟩), if_neg (Nat.not_lt.mpr hmax), if_pos hlt]
  · have hnone : r.gateFault k.val n.toNat (gateOf lo (gateHi f k.val n.toNat)) = none := by
      rw [hgf, if_neg (by rw [hv]; decide), if_neg (not_or.mpr ⟨not_not.mpr hclean, not_not.mpr hhi⟩), if_neg (Nat.not_lt.mpr hmax), if_neg (Nat.not_lt.mpr hle),
        if_neg (Nat.not_lt.mpr hargs), if_neg]
      rintro ⟨hfree, hlt⟩
      exact hroom.elim (fun hbusy => absurd (hfree.symm.trans hbusy) Bool.false_ne_true) (Nat.not_le.mpr hlt)
    have hpc : (r.core k.val).pc = c.pc := congrArg Bank.pc hbank
    intro u yields
    have hu : trapped r k.val n.toNat lo = u := by
      rw [trapped, hpc]
    have hbars' : r.barOf k.val (r.core k.val).bank .data
        (if (!((r.core k.val).banks.get (toRing (lo.toNat / 2 ^ 48 % 4))).busy) = true then args else 0) 0 0 = none := by
      rw [hbanks, ← hbars]
      cases (c.banks.get (toRing ring)).busy <;> rfl
    rw [hexec, ← hr', hnone]
    dsimp only
    rw [hbars', unbarred_none, hu, parkAtYield_eq]
    exact ⟨fun hy => by rw [if_neg hy], fun hy => by rw [if_pos hy]⟩

/-- Settles O11: the checks of R170 on the fields of the gate's entry, and the entry of R171 into a bank in use or a free one. -/
theorem trapsEnter : Obligations.TrapsEnter := ⟨trapEntersGate, trapMovesArguments⟩

end Sys2Proof.Proofs
end

section
/-!
PROOFS. Posted stores at another scratchpad (O30): the addresses of a span in one scratchpad, what the window check of R130 answers, and
what SCRATCHPAD_REMOTE_WRITE does with a store that it accepts, cannot read or rejects (R130 to R136).
-/
namespace Sys2Proof.Proofs
open Sys2Proof Sys2Proof.Machine Sys2Proof.Stated Sys2Proof.Laws

/-! ### Spans of a scratchpad -/

theorem placeOf_spad_iff {a k off : Nat} : placeOf a = .spad k off ↔ a = spadAddr k off ∧ k < 768 ∧ off < 0x100000 := by
  obtain ⟨hmem, htun, hspad, -⟩ := addressMap
  unfold spadAddr
  constructor
  · intro h
    unfold placeOf at h
    split at h
    · cases h
    split at h
    · dsimp only at h
      split at h <;> cases h
    split at h
    · cases h
      omega
    split at h
    · cases h
    split at h
    · dsimp only at h
      split at h <;> cases h
    split at h
    · dsimp only at h
      split at h <;> cases h
    · cases h
  · rintro ⟨rfl, hk, hoff⟩
    unfold placeOf
    have hcore : (spadBase + k * 0x100000 + off - spadBase) / 0x100000 = k := by omega
    have hrest : (spadBase + k * 0x100000 + off - spadBase) % 0x100000 = off := by omega
    rw [if_neg (by omega), if_neg (by omega), if_pos (by omega), hcore, hrest]

/-- The bytes behind an offset follow in the same scratchpad. -/
theorem placeOf_spad_add {a k off j : Nat} (h : placeOf a = .spad k off) (hj : off + j < 0x100000) : placeOf (a + j) = .spad k (off + j) := by
  obtain ⟨rfl, hk, -⟩ := placeOf_spad_iff.mp h
  exact placeOf_spad_iff.mpr ⟨Nat.add_assoc .., hk, hj⟩

/-! ### The window check (R130, R131) -/

section
variable {s : State} {k off len m : Nat}

/-- An enabled window holds an offset. -/
def HoldsFirst (s : State) (k off n : Nat) : Prop :=
  ((s.core k).window n).en = true ∧ ((s.core k).window n).base * 16 ≤ off ∧ off < ((s.core k).window n).last * 16 + 16

/-- An enabled window holds a write whole. -/
def HoldsWhole (s : State) (k off len n : Nat) : Prop :=
  HoldsFirst s k off n ∧ off + len ≤ ((s.core k).window n).last * 16 + 16

/-- A byte of the write lies in a resident window of a schedule that the core does not run. -/
def Closed (s : State) (k off len : Nat) : Prop := ∃ i < len, (s.core k).residentOther (off + i) = true

theorem residentOther_iff {c : Core} {o : Nat} : c.residentOther o = true ↔
    ∃ n < 16, (c.window n).res = true ∧ ((c.window n).base * 16 ≤ o ∧ o < (c.window n).last * 16 + 16) ∧ c.runningSched ≠ some (c.window n).owner := by
  simp [Core.residentOther, and_assoc]

theorem isEmpty_filter {α : Type} {l : List α} {q : α → Bool} : (l.filter q).isEmpty = true ↔ ¬∃ x ∈ l, q x = true := by
  simp [List.isEmpty_iff, List.filter_eq_nil_iff]

/-- The reasons of R131, in their order. -/
theorem windowCheck_cases (hm : m ≠ maltsterId) (hlen : 0 < len) :
    Closed s k off len ∧ s.windowCheck k off len m = some .resident
    ∨ ¬Closed s k off len ∧ (¬∃ n < 16, HoldsFirst s k off n) ∧ s.windowCheck k off len m = some .nowin
    ∨ ¬Closed s k off len ∧ (∃ n < 16, HoldsFirst s k off n) ∧ (¬∃ n < 16, HoldsWhole s k off len n) ∧ s.windowCheck k off len m = some .span
    ∨ ¬Closed s k off len ∧ (∃ n < 16, HoldsWhole s k off len n)
        ∧ (¬∃ n < 16, HoldsWhole s k off len n ∧ s.winAdmits k ((s.core k).window n) m = true) ∧ s.windowCheck k off len m = some .source
    ∨ ¬Closed s k off len ∧ (∃ n < 16, HoldsWhole s k off len n ∧ s.winAdmits k ((s.core k).window n) m = true)
        ∧ s.windowCheck k off len m = none := by
  have hwhole (n : Nat) : HoldsWhole s k off len n ↔ HoldsFirst s k off n ∧ ((s.core k).window n).base * 16 ≤ off + len - 1
      ∧ off + len - 1 < ((s.core k).window n).last * 16 + 16 := by
    refine and_congr_right fun hfirst => ?_
    have := hfirst.2.1
    omega
  unfold State.windowCheck
  rw [if_neg hm]
  dsimp only
  split
  case isTrue h => exact Or.inl ⟨by simpa [Closed] using h, rfl⟩
  case isFalse h =>
  have hopen : ¬Closed s k off len := by simpa [Closed] using h
  refine Or.inr ?_
  split
  case isTrue h =>
    refine Or.inl ⟨hopen, ?_, rfl⟩
    simp only [isEmpty_filter, HoldsFirst, List.mem_filter, List.mem_map, List.mem_range] at h ⊢
    grind
  case isFalse h =>
  have hfirst : ∃ n < 16, HoldsFirst s k off n := by
    simp only [isEmpty_filter, HoldsFirst, List.mem_filter, List.mem_map, List.mem_range] at h ⊢
    grind
  refine Or.inr ?_
  simp only [hwhole]
  split
  case isTrue h =>
    refine Or.inl ⟨hopen, hfirst, ?_, rfl⟩
    simp only [isEmpty_filter, HoldsFirst, List.mem_filter, List.mem_map, List.mem_range] at h ⊢
    grind
  case isFalse h =>
  have hw : ∃ n < 16, HoldsFirst s k off n ∧ ((s.core k).window n).base * 16 ≤ off + len - 1
      ∧ off + len - 1 < ((s.core k).window n).last * 16 + 16 := by
    simp only [isEmpty_filter, HoldsFirst, List.mem_filter, List.mem_map, List.mem_range] at h ⊢
    grind
  refine Or.inr ?_
  split
  case isTrue h =>
    refine Or.inl ⟨hopen, hw, ?_, rfl⟩
    simp only [isEmpty_filter, HoldsFirst, List.mem_filter, List.mem_map, List.mem_range] at h ⊢
    grind
  case isFalse h =>
    refine Or.inr ⟨hopen, ?_, rfl⟩
    simp only [isEmpty_filter, HoldsFirst, List.mem_filter, List.mem_map, List.mem_range] at h ⊢
    grind

/-- A write is accepted where none of the reasons applies. -/
theorem accepts_iff (hlen : 0 < len) : Accepts s k off len m ↔
    ¬Closed s k off len ∧ ∃ n < 16, HoldsWhole s k off len n ∧ s.winAdmits k ((s.core k).window n) m = true := by
  have hclosed : ¬Closed s k off len ↔ ∀ i < len, ∀ n < 16, ((s.core k).window n).res = true → ((s.core k).window n).base * 16 ≤ off + i →
      off + i < ((s.core k).window n).last * 16 + 16 → (s.core k).runningSched = some ((s.core k).window n).owner := by
    constructor
    · intro h i hi n hn hres hlo hhi
      by_contra hne
      exact h ⟨i, hi, residentOther_iff.mpr ⟨n, hn, hres, ⟨hlo, hhi⟩, hne⟩⟩
    · rintro h ⟨i, hi, ho⟩
      obtain ⟨n, hn, hres, ⟨hlo, hhi⟩, hne⟩ := residentOther_iff.mp ho
      exact hne (h i hi n hn hres hlo hhi)
  rw [hclosed, and_comm (b := ∃ n < 16, _), Accepts]
  refine and_congr_left fun _ => exists_congr fun n => and_congr_right fun _ => ⟨?_, ?_⟩
  · rintro ⟨hen, hlo, hhi, hadmit⟩
    exact ⟨⟨⟨hen, hlo, by omega⟩, hhi⟩, hadmit⟩
  · rintro ⟨⟨⟨hen, hlo, -⟩, hhi⟩, hadmit⟩
    exact ⟨hen, hlo, hhi, hadmit⟩

theorem windowCheck_none_iff (hm : m ≠ maltsterId) (hlen : 0 < len) : s.windowCheck k off len m = none ↔ Accepts s k off len m := by
  rw [accepts_iff hlen]
  rcases windowCheck_cases (s := s) (k := k) (off := off) hm hlen with ⟨hc, h⟩ | ⟨hc, hf, h⟩ | ⟨hc, -, hw, h⟩ | ⟨hc, -, ha, h⟩ | ⟨hc, ha, h⟩
  · simp [h, hc]
  · exact iff_of_false (by simp [h]) fun ⟨_, n, hn, hwhole, _⟩ => hf ⟨n, hn, hwhole.1⟩
  · exact iff_of_false (by simp [h]) fun ⟨_, n, hn, hwhole, _⟩ => hw ⟨n, hn, hwhole⟩
  · exact iff_of_false (by simp [h]) fun hall => ha hall.2
  · exact iff_of_true h ⟨hc, ha⟩

theorem windowCheck_resident_iff (hm : m ≠ maltsterId) (hlen : 0 < len) : s.windowCheck k off len m = some .resident ↔ Closed s k off len := by
  rcases windowCheck_cases (s := s) (k := k) (off := off) hm hlen with ⟨hc, h⟩ | ⟨hc, hf, h⟩ | ⟨hc, -, hw, h⟩ | ⟨hc, -, ha, h⟩ | ⟨hc, ha, h⟩
  all_goals simp [h, hc]

theorem windowCheck_nowin_iff (hm : m ≠ maltsterId) (hlen : 0 < len) : s.windowCheck k off len m = some .nowin ↔
    ¬Closed s k off len ∧ ∀ n < 16, ¬HoldsFirst s k off n := by
  have hnone : (∀ n < 16, ¬HoldsFirst s k off n) ↔ ¬∃ n < 16, HoldsFirst s k off n := by simp
  rw [hnone]
  rcases windowCheck_cases (s := s) (k := k) (off := off) hm hlen with
    ⟨hc, h⟩ | ⟨hc, hf, h⟩ | ⟨hc, hf, hw, h⟩ | ⟨hc, ⟨n, hn, hw⟩, -, h⟩ | ⟨hc, ⟨n, hn, hw, -⟩, h⟩
  · simp [h, hc]
  · exact iff_of_true h ⟨hc, hf⟩
  · exact iff_of_false (by simp [h]) fun hall => hall.2 hf
  · exact iff_of_false (by simp [h]) fun hall => hall.2 ⟨n, hn, hw.1⟩
  · exact iff_of_false (by simp [h]) fun hall => hall.2 ⟨n, hn, hw.1⟩

theorem windowCheck_span_iff (hm : m ≠ maltsterId) (hlen : 0 < len) : s.windowCheck k off len m = some .span ↔
    ¬Closed s k off len ∧ (∃ n < 16, HoldsFirst s k off n) ∧ ∀ n < 16, ¬HoldsWhole s k off len n := by
  have hnone : (∀ n < 16, ¬HoldsWhole s k off len n) ↔ ¬∃ n < 16, HoldsWhole s k off len n := by simp
  rw [hnone]
  rcases windowCheck_cases (s := s) (k := k) (off := off) hm hlen with
    ⟨hc, h⟩ | ⟨hc, hf, h⟩ | ⟨hc, hf, hw, h⟩ | ⟨hc, ⟨n, hn, hw⟩, -, h⟩ | ⟨hc, ⟨n, hn, hw, -⟩, h⟩
  · simp [h, hc]
  · exact iff_of_false (by simp [h]) fun hall => hf hall.2.1
  · exact iff_of_true h ⟨hc, hf, hw⟩
  · exact iff_of_false (by simp [h]) fun hall => hall.2.2 ⟨n, hn, hw⟩
  · exact iff_of_false (by simp [h]) fun hall => hall.2.2 ⟨n, hn, hw⟩

end

/-! ### The write of an accepted store (R136) -/

theorem mem_of_coversGroup {cs : List (Nat × Byte)} {w g i : Nat} (h : coversGroup cs w g = true) (hi : i < w) : ∃ e ∈ cs, e.1 = g * w + i := by
  simpa using List.all_eq_true.mp h i (List.mem_range.mpr hi)

/-- A span of a scratchpad that does not begin and end with an entry writes an entry in part. -/
theorem partAddr_of_misaligned {a : Nat} {bs : List Byte} (hsram : memEnd ≤ a) (hbs : bs ≠ []) (h : a % 16 ≠ 0 ∨ (a + bs.length) % 16 ≠ 0) :
    ∃ x ∈ rangeFrom a bs.length, partAddr ((rangeFrom a bs.length).zip bs) = some x := by
  have hpos : 0 < bs.length := List.length_pos_iff.mpr hbs
  have hmap : ((rangeFrom a bs.length).zip bs).map (·.1) = rangeFrom a bs.length := List.map_fst_zip (by simp [rangeFrom])
  have hcell {x : Nat} (hx : x ∈ rangeFrom a bs.length) : ∃ e ∈ (rangeFrom a bs.length).zip bs, e.1 = x := by
    rw [← hmap] at hx
    exact List.mem_map.mp hx
  have hpart {x i : Nat} (hx : x ∈ rangeFrom a bs.length) (hi : i < 16) (hout : x / 16 * 16 + i ∉ rangeFrom a bs.length) :
      ((rangeFrom a bs.length).zip bs).find?
        (fun e => if e.1 < memEnd then !coversGroup ((rangeFrom a bs.length).zip bs) 64 (e.1 / 64)
          else !coversGroup ((rangeFrom a bs.length).zip bs) 16 (e.1 / 16)) ≠ none := by
    obtain ⟨e, he, rfl⟩ := hcell hx
    have hnot : ¬e.1 < memEnd := Nat.not_lt.mpr (hsram.trans (mem_rangeFrom.mp hx).1)
    intro hnone
    have hcovers := List.find?_eq_none.mp hnone e he
    rw [if_neg hnot] at hcovers
    obtain ⟨y, hy, hyi⟩ := mem_of_coversGroup (by simpa using hcovers) hi
    exact hout (hyi ▸ (List.of_mem_zip hy).1)
  have hne : partAddr ((rangeFrom a bs.length).zip bs) ≠ none := by
    rw [partAddr, Ne, Option.map_eq_none_iff]
    rcases h with hhead | htail
    · exact hpart (x := a) (i := 0) (mem_rangeFrom.mpr ⟨Nat.le_refl _, by omega⟩) (by decide) (fun hmem => by have := mem_rangeFrom.mp hmem; omega)
    · exact hpart (x := a + bs.length - 1) (i := 15) (mem_rangeFrom.mpr ⟨by omega, by omega⟩) (by decide)
        (fun hmem => by have := mem_rangeFrom.mp hmem; omega)
  obtain ⟨x, hx⟩ := Option.ne_none_iff_exists'.mp hne
  obtain ⟨e, he, rfl⟩ := Option.map_eq_some_iff.mp hx
  exact ⟨e.1, (List.of_mem_zip (List.mem_of_find?_eq_some he)).1, hx⟩

theorem eccRead_spad_uncorrectable {a k off : Nat} (h : placeOf a = .spad k off) (s : State) (m : Nat) :
    s.eccRead a m .uncorrectable = (s.spUncorrectable k off m, false) := by
  simp [State.eccRead, h]

/-- A write whose read of an entry written in part fails writes nothing. -/
theorem writeCells_of_unread {s u : State} {cs : List (Nat × Byte)} {a m : Nat} {e : Ecc} (ha : partAddr cs = some a)
    (hread : s.eccRead a m e = (u, false)) : s.writeCells cs m e = (u, false) := by
  simp [State.writeCells, ha, hread]

/-! ### SCRATCHPAD_REMOTE_WRITE -/

/-- A core whose oldest posted store is taken. -/
def postTaken (s : State) (k : Nat) (rest : List Posted) : State := s.modCore k (fun c => { c with posted := rest })

section
variable {k : CoreId} {h : Ecc} {s : State} {p : Posted} {rest : List Posted} {k' off : Nat}
  (hposted : (s.core k.val).posted = p :: rest) (hplace : placeOf p.addr = .spad k' off)
include hposted hplace

theorem exec_remoteWrite_accepted (hc : s.windowCheck k' off p.bytes.length k.val = none) : exec (.scratchpadRemoteWrite k h) s =
    let e := (postTaken s k.val rest).writeCells ((rangeFrom p.addr p.bytes.length).zip p.bytes) k.val h
    if e.2 then .next e.1 else .next (e.1.stopCore k.val) := by
  change execScratchpadRemoteWrite k h s = _
  simp only [execScratchpadRemoteWrite, hposted, hplace, hc]
  rfl

theorem exec_remoteWrite_rejected {r : Rej} (hc : s.windowCheck k' off p.bytes.length k.val = some r) : exec (.scratchpadRemoteWrite k h) s =
    .next (((postTaken s k.val rest).windowReject k' off p.bytes.length k.val r).modCore k.val (fun c =>
      { c with rejAt := (match c.rejAt with | none => some p.stamp | r => r),
               pendDef := c.pendDef ++ [{ ev := rejectEv p k' off k.val r, stamp := p.stamp }] })) := by
  change execScratchpadRemoteWrite k h s = _
  simp only [execScratchpadRemoteWrite, hposted, hplace, hc]
  rfl

/-- A store that the window check accepts and whose entries can be read is in place, whole. -/
theorem remoteWrite_placed (hc : s.windowCheck k' off p.bytes.length k.val = none) (he : h ≠ .uncorrectable)
    (hclean : ∀ j < p.bytes.length, s.holdsError (p.addr + j) = false) :
    ∃ t, exec (.scratchpadRemoteWrite k h) s = .next t
      ∧ (t.core k.val).posted = rest ∧ (∀ j < p.bytes.length, t.getByte (p.addr + j) = p.bytes.getD j 0)
      ∧ ∀ b, (b < p.addr ∨ p.addr + p.bytes.length ≤ b) → t.getByte b = s.getByte b := by
  have hcells : ∀ c ∈ (rangeFrom p.addr p.bytes.length).zip p.bytes, (postTaken s k.val rest).holdsError c.1 = false := by
    intro c hc
    obtain ⟨hlo, hhi⟩ := mem_rangeFrom.mp (List.of_mem_zip hc).1
    obtain ⟨j, hj⟩ := Nat.exists_eq_add_of_le hlo
    rw [hj]
    exact hclean j (by omega)
  obtain ⟨u, hcounted, hwrite⟩ := writeCells_of_mild hcells he k.val
  have hplaced := cellsPlaced_placeCells (fun c hc => (hcounted.holdsError c.1).trans (hcells c hc)) k.val
  refine ⟨u.placeCells ((rangeFrom p.addr p.bytes.length).zip p.bytes) k.val, ?_, ?_, fun j hj => ?_, fun b hb => ?_⟩
  · rw [exec_remoteWrite_accepted hposted hplace hc, hwrite]
    exact if_pos rfl
  · rw [hplaced.core, hcounted.core, postTaken, modCore_core, if_pos rfl]
  · rw [State.getByte, hplaced.mem, ← placeAt_mem, ← getD_rangeFrom (a := p.addr) hj]
    exact placeAt_zip_getByte (rangeFrom_nodup _ _) (by simp [rangeFrom]) u (by simpa [rangeFrom] using hj)
  · rw [hplaced.outside, hcounted.getByte]
    · rfl
    · intro c hc hcb
      have := mem_rangeFrom.mp (List.of_mem_zip hc).1
      omega

/-- The read of an entry that the store writes in part stops the core where it meets an uncorrectable error. -/
theorem remoteWrite_unread (hne : p.bytes ≠ []) (hlen : off + p.bytes.length ≤ 0x100000) (hc : s.windowCheck k' off p.bytes.length k.val = none)
    (hmis : p.addr % 16 ≠ 0 ∨ (p.addr + p.bytes.length) % 16 ≠ 0) :
    ∃ t, exec (.scratchpadRemoteWrite k .uncorrectable) s = .next t ∧ t.mem = s.mem ∧ (t.core k.val).run = .stopped
      ∧ ∃ d, t.detections = s.detections ++ [d] ∧ d.source = 0x01 ∧ d.unit = k' ∧ d.master = k.val := by
  obtain ⟨x, hx, hpart⟩ := partAddr_of_misaligned (memEnd_le_of_placeOf (by simp [hplace])) hne hmis
  obtain ⟨hlo, hhi⟩ := mem_rangeFrom.mp hx
  obtain ⟨j, rfl⟩ := Nat.exists_eq_add_of_le hlo
  have hread := eccRead_spad_uncorrectable (placeOf_spad_add hplace (j := j) (by omega)) (postTaken s k.val rest) k.val
  refine ⟨((postTaken s k.val rest).spUncorrectable k' (off + j) k.val).stopCore k.val, ?_, rfl, ?_, _, rfl, rfl, rfl, rfl⟩
  · rw [exec_remoteWrite_accepted hposted hplace hc, writeCells_of_unread hpart hread]
    rfl
  · rw [State.stopCore, modCore_core, if_pos rfl]

/-- A store that the window check rejects is reported to its core and recorded at the scratchpad's owner. -/
theorem remoteWrite_rejected (hk : k' ≠ k.val) {r : Rej} (hc : s.windowCheck k' off p.bytes.length k.val = some r) :
    ∃ t, exec (.scratchpadRemoteWrite k h) s = .next t ∧ t.mem = s.mem
      ∧ (t.core k.val).posted = rest ∧ (∃ e, (t.core k.val).pendDef = (s.core k.val).pendDef ++ [e] ∧ e.ev.code = 0x06
          ∧ e.ev.cause = (if r = .resident then 4 else 3) ∧ e.ev.kind = .imprecise ∧ e.ev.iaddr = p.iaddr
          ∧ e.ev.faddr = BitVec.ofNat 64 p.addr)
      ∧ let c := s.core k'
        let c' := t.core k'
        c'.sp = { c.sp with rej := true, rejOff := off, rejReason := r.code, rejSrc := k.val, rejLenM1 := p.bytes.length - 1,
                            rejCount := min 0xFFFFFFFF (c.sp.rejCount + 1) }
        ∧ c'.ipend = (if c.sp.rejie then c.ipend ||| 0x10 else c.ipend) := by
  have hown : ((postTaken s k.val rest).windowReject k' off p.bytes.length k.val r).core k.val = { s.core k.val with posted := rest } := by
    rw [State.windowReject, modCore_core, if_neg (Ne.symm hk), postTaken, modCore_core, if_pos rfl]
  refine ⟨_, exec_remoteWrite_rejected hposted hplace hc, rfl, ?_, ⟨{ ev := rejectEv p k' off k.val r, stamp := p.stamp }, ?_, rfl, rfl, rfl, rfl, rfl⟩, ?_⟩
  · rw [modCore_core, if_pos rfl, hown]
  · rw [modCore_core, if_pos rfl, hown]
  · dsimp only
    rw [modCore_core, if_neg hk, State.windowReject, modCore_core, if_pos rfl, postTaken, modCore_core, if_neg hk]
    exact ⟨rfl, rfl⟩

end

/-- Settles O30: the window check picks the first reason of R131 that applies, and the store takes the way that it answers. -/
theorem remoteWritesChecked : Obligations.RemoteWritesChecked := by
  unfold Obligations.RemoteWritesChecked
  constructor
  · intro k s p rest k' off hk hposted hplace hne hlen
    have hpos : 0 < p.bytes.length := List.length_pos_iff.mpr hne
    have hm : k.val ≠ maltsterId := fun h => by have := k.isLt; have hid : maltsterId = 0x410 := rfl; omega
    refine ⟨fun h he hacc hclean => ?_, fun hacc hmis => ?_, fun h hacc hk' => ?_⟩
    · exact remoteWrite_placed hposted hplace ((windowCheck_none_iff hm hpos).mpr hacc) he hclean
    · exact remoteWrite_unread hposted hplace hne hlen ((windowCheck_none_iff hm hpos).mpr hacc) hmis
    · obtain ⟨r, hr⟩ := Option.ne_none_iff_exists'.mp (mt (windowCheck_none_iff hm hpos).mp hacc)
      obtain ⟨t, ht, hrest⟩ := remoteWrite_rejected hposted hplace hk' hr
      obtain ⟨hmem, hpostedt, hpend, howner⟩ := hrest
      exact ⟨t, r, ht, hr, hmem, hpostedt, hpend, howner⟩
  · intro s k off len m hm hlen first whole closed
    exact ⟨windowCheck_none_iff hm hlen, windowCheck_resident_iff hm hlen, windowCheck_nowin_iff hm hlen, windowCheck_span_iff hm hlen⟩

end Sys2Proof.Proofs
end

section
/-!
PROOFS. The memories' own maintenance (O31): what a protected read leaves, merging-buffer entries put in place (R210, R211), the
scrubbers (R136, R302 to R304), the registers of L2 and the completion of its maintenance (R217 to R220).
-/
namespace Sys2Proof.Proofs
open Sys2Proof Sys2Proof.Machine Sys2Proof.Stated Sys2Proof.Laws

/-! ### What a protected read, and a write, leave of memory and L2 -/

/-- Memory and every cluster's L2 stand. -/
structure ArraysRead (s t : State) : Prop where
  mem : t.mem = s.mem
  l2 : ∀ c, (t.cluster c).l2 = (s.cluster c).l2

theorem ArraysRead.refl (s : State) : ArraysRead s s := ⟨rfl, fun _ => rfl⟩

theorem ArraysRead.trans {s t u : State} (h : ArraysRead s t) (g : ArraysRead t u) : ArraysRead s u :=
  ⟨g.mem.trans h.mem, fun c => (g.l2 c).trans (h.l2 c)⟩

theorem arraysRead_of_clusters {s t : State} (hmem : t.mem = s.mem) (h : t.clusters = s.clusters) : ArraysRead s t :=
  ⟨hmem, fun c => by rw [State.cluster, h]; rfl⟩

theorem arraysRead_modCluster (s : State) (c : Nat) {f : Cluster → Cluster} (hf : ∀ x, (f x).l2 = x.l2) : ArraysRead s (s.modCluster c f) :=
  ⟨rfl, fun j => by
    rw [modCluster_cluster]
    split
    · rw [hf]; congr 2; exact Eq.symm ‹_›
    · rfl⟩

theorem arraysRead_detect (s : State) (d : Detection) : ArraysRead s (s.detect d) := arraysRead_of_clusters rfl rfl

theorem arraysRead_pcCorrected (s : State) (pc a m : Nat) : ArraysRead s (s.pcCorrected pc a m) := by
  unfold State.pcCorrected
  dsimp only
  split <;> exact arraysRead_of_clusters rfl rfl

theorem arraysRead_eccRead (s : State) (a m : Nat) (e : Ecc) : ArraysRead s (s.eccRead a m e).1 := by
  have hcorrected : ArraysRead s (s.hbmCorrected a m) := by
    unfold State.hbmCorrected
    split
    · exact .refl s
    · exact arraysRead_pcCorrected ..
  have hondie : ArraysRead s (s.hbmOnDie a) := by
    unfold State.hbmOnDie
    split <;> exact arraysRead_of_clusters rfl rfl
  have hlost : ArraysRead s (s.hbmUncorrectable a m) := by
    unfold State.hbmUncorrectable
    split <;> exact arraysRead_of_clusters rfl rfl
  have htunLost (c off : Nat) : ArraysRead s (s.tunUncorrectable c off m) := by
    have hbad : ArraysRead s (s.addBad (tunAddr c off)) := arraysRead_of_clusters rfl rfl
    exact (hbad.trans (arraysRead_modCluster _ c (fun _ => by rfl))).trans (arraysRead_detect _ _)
  have htun (c : Nat) : ArraysRead s (s.tunCorrected c) := arraysRead_modCluster s c (fun _ => rfl)
  have hspadLost (k off : Nat) : ArraysRead s (s.spUncorrectable k off m) := arraysRead_of_clusters rfl rfl
  have hspad (k : Nat) : ArraysRead s (s.spCorrected k) := arraysRead_of_clusters rfl rfl
  unfold State.eccRead
  cases placeOf a with
  | mem b =>
    dsimp only
    split
    · exact hlost
    · cases e with
      | corrected => exact hcorrected
      | onDie => exact hondie
      | _ => exact .refl s
  | spad k off =>
    dsimp only
    split
    · exact hspadLost k off
    · split
      · exact hspad k
      · exact .refl s
  | tun c off =>
    dsimp only
    split
    · exact htunLost c off
    · split
      · exact htun c
      · exact .refl s
  | _ => exact .refl s

theorem arraysRead_foldl {α : Type} {f : State → α → State} (hf : ∀ s x, ArraysRead s (f s x)) (l : List α) (s : State) :
    ArraysRead s (l.foldl f s) :=
  List.foldlRecOn (motive := ArraysRead s) l f (.refl s) (fun t ht x _ => ht.trans (hf t x))

/-- A write of bytes leaves L2 and every byte that it does not name. -/
theorem placeCells_l2 (s : State) (cs : List (Nat × Byte)) (m c : Nat) : ((s.placeCells cs m).cluster c).l2 = (s.cluster c).l2 := by
  have hplaced := (placed_placeAt (cs.filter (fun e => !inLoss (s.writeLosses cs) e.1)) s).1
  unfold State.placeCells
  dsimp only
  rw [(arraysRead_foldl (fun s a => arraysRead_eccRead s a m .clean) _ _).l2, hplaced]
  rfl

theorem placeCells_outside (s : State) (cs : List (Nat × Byte)) (m : Nat) {b : Nat} (h : ∀ c ∈ cs, c.1 ≠ b) :
    (s.placeCells cs m).getByte b = s.getByte b := by
  unfold State.placeCells
  dsimp only
  rw [State.getByte, (arraysRead_foldl (fun s a => arraysRead_eccRead s a m .clean) _ _).mem]
  exact placeAt_outside _ s b fun c hc => h c (List.mem_of_mem_filter hc)

/-- A cell put in place at an address that no other cell names is read back. -/
theorem placeAt_getByte_of_mem {cs : List (Nat × Byte)} (hnd : (cs.map (·.1)).Nodup) (s : State) {c : Nat × Byte} (hc : c ∈ cs) :
    (s.placeAt cs).getByte c.1 = c.2 := by
  induction cs generalizing s with
  | nil => cases hc
  | cons d cs ih =>
    rw [List.map_cons, List.nodup_cons] at hnd
    rw [State.placeAt]
    rcases List.mem_cons.mp hc with rfl | hc
    · rw [placeAt_outside _ _ _ (fun e he hec => hnd.1 (List.mem_map.mpr ⟨e, he, hec⟩)), placeByte_getByte, if_pos rfl]
    · exact ih hnd.2 _ hc

theorem mbPressure_short {mb : List MbEntry} (h : mb.length < 48) : mbPressure mb = mb := by
  cases mb with
  | nil => rfl
  | cons e mb => exact if_neg (Nat.not_le.mpr h)

theorem mbPressure_full {e : MbEntry} {mb : List MbEntry} (h : 48 ≤ (e :: mb).length) : mbPressure (e :: mb) = { e with draining := true } :: mb :=
  if_pos h

/-! ### Merging-buffer entries put in place (R210, R211) -/

/-- The buffer that is left where an entry goes: under pressure its oldest entry drains. -/
theorem entryInPlace_of_found {s : State} {c line : Nat} {e : MbEntry} (h : findEntry (s.cluster c).l2.mb line = some e) :
    ((s.entryInPlace c line).cluster c).l2 = { (s.cluster c).l2 with mb := mbPressure ((s.cluster c).l2.mb.erase e) } := by
  simp only [State.entryInPlace, h, modCluster_cluster, if_true, placeCells_l2]

theorem entryInPlace_outside {s : State} {c line : Nat} {e : MbEntry} (h : findEntry (s.cluster c).l2.mb line = some e) {a : Nat}
    (ha : ∀ b ∈ e.bytes, a ≠ e.line * 64 + b.1) : (s.entryInPlace c line).getByte a = s.getByte a := by
  simp only [State.entryInPlace, h]
  refine placeCells_outside s e.cells _ fun x hx => ?_
  obtain ⟨b, hb, rfl⟩ := List.mem_map.mp hx
  exact (ha b hb).symm

theorem entryInPlace_inside {s : State} {c line : Nat} {e : MbEntry} (h : findEntry (s.cluster c).l2.mb line = some e) (hline : e.line = line)
    (hnd : (e.bytes.map (·.1)).Nodup) (hoff : ∀ b ∈ e.bytes, b.1 < 64) (hmem : line < memEnd / 64) (hpoison : line ∉ s.poison)
    {b : Nat × Byte} (hb : b ∈ e.bytes) : (s.entryInPlace c line).getByte (line * 64 + b.1) = b.2 := by
  subst hline
  have hclean : ∀ x ∈ e.cells, s.holdsError x.1 = false := by
    intro x hx
    obtain ⟨y, hy, rfl⟩ := List.mem_map.mp hx
    have := hoff y hy
    have hblock : (e.line * 64 + y.1) / 64 = e.line := by omega
    have hin : e.line * 64 + y.1 < memEnd := by
      have hend : memEnd = 0x9000000000 := rfl
      omega
    simp [State.holdsError, hin, hblock, hpoison]
  have hcells : (e.cells.map (·.1)).Nodup := by
    have : e.cells.map (·.1) = (e.bytes.map (·.1)).map (e.line * 64 + ·) := by simp [MbEntry.cells]
    rw [this]
    exact hnd.map (fun _ _ => Nat.add_left_cancel)
  simp only [State.entryInPlace, h]
  change (s.placeCells e.cells _).getByte _ = _
  rw [State.getByte, (cellsPlaced_placeCells hclean _).mem, ← placeAt_mem]
  exact placeAt_getByte_of_mem (c := (e.line * 64 + b.1, b.2)) hcells s (List.mem_map.mpr ⟨b, hb, rfl⟩)

/-! ### Scrubs of a scratchpad and a tun (R136) -/

theorem placeOf_tunAddr {c off : Nat} (hc : c < 48) (ho : off < 0x800000) : placeOf (tunAddr c off) = .tun c off := by
  obtain ⟨hmem, htun, -⟩ := addressMap
  have ha : tunAddr c off = tunBase + c * 0x1000000 + off := rfl
  have hrest : (tunAddr c off - tunBase) % 0x1000000 = off := by omega
  have hno : (tunAddr c off - tunBase) / 0x1000000 = c := by omega
  unfold placeOf
  rw [if_neg (by omega), if_pos (by omega)]
  dsimp only
  rw [hrest, hno, if_pos ho]

theorem holdsError_addBad {s t : State} {a : Nat} (ha : memEnd ≤ a) (h : t.bad = (s.addBad a).bad) : t.holdsError a = true := by
  rw [State.holdsError, if_neg (Nat.not_lt.mpr ha), h, State.addBad]
  dsimp only
  split
  · assumption
  · simp

theorem readFails_iff {s : State} {a : Nat} {h : Ecc} :
    (h == .uncorrectable || s.holdsError a) = true ↔ h = .uncorrectable ∨ s.holdsError a = true := by simp

section
variable {a off : Nat} {s : State}

theorem eccRead_spad {k : Nat} (hp : placeOf a = .spad k off) (h : Ecc) (m : Nat) : (s.eccRead a m h).1 =
    if h = .uncorrectable ∨ s.holdsError a = true then s.spUncorrectable k off m
    else if h = .corrected then s.spCorrected k else s := by
  unfold State.eccRead
  rw [hp]
  simp only [← readFails_iff]
  split
  · rfl
  · split <;> rfl

theorem eccRead_tun {c : Nat} (hp : placeOf a = .tun c off) (h : Ecc) (m : Nat) : (s.eccRead a m h).1 =
    if h = .uncorrectable ∨ s.holdsError a = true then s.tunUncorrectable c off m
    else if h = .corrected then s.tunCorrected c else s := by
  unfold State.eccRead
  rw [hp]
  simp only [← readFails_iff]
  split
  · rfl
  · split <;> rfl

end

theorem exec_scrub_spad {k : CoreId} {off : Nat} (hk : k.val < 768) (ho : off < 0x100000) (h : Ecc) (s : State) :
    exec (.scratchpadScrub (.spad k) off h) s = .next
      (if h = .uncorrectable ∨ s.holdsError (spadAddr k.val off) = true then s.spUncorrectable k.val off k.val
       else if h = .corrected then s.spCorrected k.val else s) := by
  rw [← eccRead_spad (placeOf_spad_iff.mpr ⟨rfl, hk, ho⟩)]
  exact if_pos ⟨hk, ho⟩

theorem exec_scrub_tun {c : ClusterId} {off : Nat} (ho : off < 0x800000) (h : Ecc) (s : State) :
    exec (.scratchpadScrub (.tun c) off h) s = .next
      (if h = .uncorrectable ∨ s.holdsError (tunAddr c.val off) = true then s.tunUncorrectable c.val off maltsterId
       else if h = .corrected then s.tunCorrected c.val else s) := by
  rw [← eccRead_tun (placeOf_tunAddr c.isLt ho)]
  exact if_pos ho

/-! ### The patrol scrub (R302 to R304) -/

theorem scrubLoss_told (s : State) (a : Nat) : Told (s.addPoison (a / 64)) (s.scrubLoss a) := by
  unfold State.scrubLoss
  dsimp only
  split
  · exact told_partEvent ..
  · rfl

/-- The scrubber of a pseudo-channel has read its block. -/
def patrolled (s : State) (pc : Nat) : State := s.modHbm (pc / 64) (fun h => h.scrubNext (pc % 64))

section
variable {pc : Fin 768} {e : Ecc} {s : State}

theorem exec_patrolScrub_idle (h : s.boot.st ≠ .ready ∨ (s.hbm (pc.val / 64)).mapout.getLsbD (pc.val % 64) = true) :
    exec (.patrolScrub pc e) s = .next s := by
  change execPatrolScrub pc e s = _
  unfold execPatrolScrub
  rw [if_pos]
  simpa [State.pcOut] using h

variable (hready : s.boot.st = .ready) (hin : (s.hbm (pc.val / 64)).mapout.getLsbD (pc.val % 64) = false)
include hready hin

/-- What the patrol scrub of a live pseudo-channel does: an uncorrectable block is lost, and a correction counted. -/
theorem exec_patrolScrub_lost {at_ : Option Nat} (hat : s.addrOf pc.val (mget 0 (s.hbm (pc.val / 64)).scrub (pc.val % 64) * 64) = at_)
    (h : e = .uncorrectable ∨ ∃ a, at_ = some a ∧ s.poison.contains (a / 64) = true) :
    exec (.patrolScrub pc e) s = .next
      ((match at_ with | some a => (patrolled s pc.val).scrubLoss a | none => patrolled s pc.val).pcUncorrectable pc.val
        (mget 0 (s.hbm (pc.val / 64)).scrub (pc.val % 64) * 64) (at_.getD 0) maltsterId true) := by
  change execPatrolScrub pc e s = _
  unfold execPatrolScrub
  rw [if_neg (by simp [State.pcOut, hready, hin])]
  dsimp only
  rw [hat, if_pos]
  · rfl
  · rcases h with rfl | ⟨a, rfl, ha⟩
    · rfl
    · simp only [ha, Bool.or_true]

theorem exec_patrolScrub_sound
    (h : ∀ a, s.addrOf pc.val (mget 0 (s.hbm (pc.val / 64)).scrub (pc.val % 64) * 64) = some a → s.poison.contains (a / 64) = false)
    (he : e ≠ .uncorrectable) :
    exec (.patrolScrub pc e) s = .next
      (match e with
      | .corrected => (patrolled s pc.val).pcCorrected pc.val
          ((s.addrOf pc.val (mget 0 (s.hbm (pc.val / 64)).scrub (pc.val % 64) * 64)).getD 0) maltsterId
      | .onDie => (patrolled s pc.val).modHbm (pc.val / 64) (fun h => { h with odcnt := satAdd 0xFFFFFFFF h.odcnt 1 })
      | _ => patrolled s pc.val) := by
  change execPatrolScrub pc e s = _
  unfold execPatrolScrub
  rw [if_neg (by simp [State.pcOut, hready, hin])]
  dsimp only
  rw [if_neg]
  · cases e <;> rfl
  · cases ha : s.addrOf pc.val (mget 0 (s.hbm (pc.val / 64)).scrub (pc.val % 64) * 64) with
    | none => simp [he]
    | some a =>
      have hpoison := h a ha
      simp only [hpoison, Bool.or_false]
      simpa using he

end

theorem tunUncorrectable_holdsError {c off : Nat} (hp : placeOf (tunAddr c off) = .tun c off) (s : State) (m : Nat) :
    (s.tunUncorrectable c off m).holdsError (tunAddr c off) = true :=
  holdsError_addBad (memEnd_le_of_placeOf (by simp [hp])) rfl

theorem spUncorrectable_holdsError {k off : Nat} (hp : placeOf (spadAddr k off) = .spad k off) (s : State) (m : Nat) :
    (s.spUncorrectable k off m).holdsError (spadAddr k off) = true :=
  holdsError_addBad (memEnd_le_of_placeOf (by simp [hp])) rfl

theorem spUncorrectable_sp (s : State) (k off m : Nat) : ((s.spUncorrectable k off m).core k).sp =
    { (s.core k).sp with ue := true, uerow := off / 1024, uebank := (off / 16 % 64 + off / 1024) % 64 } := by
  unfold State.spUncorrectable
  dsimp only
  rw [detect_core, modCore_core, if_pos rfl]
  rfl

theorem tunUncorrectable_tun (s : State) (c off m : Nat) : ((s.tunUncorrectable c off m).cluster c).tun =
    { (s.cluster c).tun with ue := true, uerow := off / 2048, uebank := (off / 64 % 32 + off / 2048) % 32 } := by
  unfold State.tunUncorrectable
  dsimp only
  rw [detect_cluster, modCluster_cluster, if_pos rfl]
  rfl

/-- The scrubber's progress in a pseudo-channel (R304). -/
theorem patrolled_hbm (s : State) (pc : Nat) : (patrolled s pc).hbm (pc / 64) = (s.hbm (pc / 64)).scrubNext (pc % 64) := by
  rw [patrolled, modHbm_hbm, if_pos rfl]

theorem scrubNext_scrub (h : Hbm) (i : Nat) : mget 0 (h.scrubNext i).scrub i = if mget 0 h.scrub i + 1 = 12582912 then 0 else mget 0 h.scrub i + 1 := by
  simp [Hbm.scrubNext, mget_mput, pcBlocks]

theorem scrubNext_sweeps (h : Hbm) (i : Nat) : (h.scrubNext i).sweeps =
    if mget 0 h.scrub i + 1 = 12582912 ∧ i = 0 then min 0xFFFFFFFF (h.sweeps + 1) else h.sweeps := by
  simp [Hbm.scrubNext, satAdd, pcBlocks]

theorem mem_addPoison (s : State) (blk : Nat) : blk ∈ (s.addPoison blk).poison := by
  unfold State.addPoison
  dsimp only
  split
  case isTrue h => exact List.contains_iff_mem.mp h
  case isFalse => exact List.mem_cons_self

theorem pcCorrected_hbm (s : State) (pc a m : Nat) : (s.pcCorrected pc a m).hbm (pc / 64) =
    let h := s.hbm (pc / 64)
    let e := mget (0, 0) h.pcce (pc % 64)
    { h with cecnt := satAdd 0xFFFFFFFF h.cecnt 1,
             pcce := mput h.pcce (pc % 64) (satAdd 0xFFFFFFFF e.1 1, if e.2 + 1 = 4096 then 0 else e.2 + 1) } := by
  unfold State.pcCorrected
  dsimp only
  split
  · change (State.setHbm _ _ _).hbm _ = _
    rw [setHbm_hbm, if_pos rfl]
  · rw [setHbm_hbm, if_pos rfl]

theorem pcCorrected_poison (s : State) (pc a m : Nat) : (s.pcCorrected pc a m).poison = s.poison := by
  unfold State.pcCorrected
  dsimp only
  split <;> rfl

theorem pcCorrected_detections {s : State} {pc : Nat} (h : (mget (0, 0) (s.hbm (pc / 64)).pcce (pc % 64)).2 + 1 = 4096) (a m : Nat) :
    (s.pcCorrected pc a m).detections = s.detections ++ [{ source := 0x0B, ukind := 4, unit := pc, master := m, addr := a }] := by
  unfold State.pcCorrected
  dsimp only
  rw [if_pos (by simpa using h)]
  rfl

theorem pcUncorrectable_hbm (s : State) (pc off a m : Nat) (scrub : Bool) : (s.pcUncorrectable pc off a m scrub).hbm (pc / 64) =
    { s.hbm (pc / 64) with ue := true, ueOff := off / 64, uePc := pc % 64, ueScrub := scrub } := by
  have hmod := modHbm_hbm s (pc / 64) (fun h => { h with ue := true, ueOff := off / 64, uePc := pc % 64, ueScrub := scrub }) (pc / 64)
  rwa [if_pos rfl] at hmod

/-- What the patrol scrub leaves of a block that it cannot correct. -/
theorem patrolLost (s : State) (pc : Nat) (at_ : Option Nat) :
    let u := (match at_ with | some a => (patrolled s pc).scrubLoss a | none => patrolled s pc)
    u.mem = s.mem ∧ u.detections = s.detections ∧ (∀ a, at_ = some a → a / 64 ∈ u.poison) ∧ (at_ = none → u.poison = s.poison) := by
  cases at_ with
  | none => exact ⟨rfl, rfl, fun _ h => absurd h (by simp), fun _ => rfl⟩
  | some a =>
    have hold := scrubLoss_told (patrolled s pc) a
    unfold Told at hold
    dsimp only
    rw [hold]
    refine ⟨rfl, rfl, fun b hb => ?_, fun h => absurd h (by simp)⟩
    cases hb
    exact mem_addPoison _ _

theorem memoriesMaintained : MemoriesMaintained := by
  refine ⟨fun c line s => ?_, fun c line s => ?_, fun k off h s hk ho => ?_, fun c off h s ho => ?_, fun pc e s h => exec_patrolScrub_idle h,
    fun pc s hready hin => ?_⟩
  · refine ⟨_, rfl, rfl, ?_⟩
    rw [modCluster_cluster, if_pos rfl]
    exact List.map_congr_left fun e _ => by simp
  · intro mb oldest
    have hexec : exec (.mergeEntryInPlace c line) s
        = match oldest with | none => .next s | some e => if e.line = line then .next (s.entryInPlace c.val line) else .next s := rfl
    constructor
    · intro hne
      rw [hexec]
      cases ho : oldest with
      | none => rfl
      | some e => exact if_neg (hne e ho)
    · intro e ho hline hfound
      refine ⟨_, ?_, ?_, fun a ha => entryInPlace_outside hfound (by rwa [hline]), fun hnd hoff hmem hpoison b hb =>
        entryInPlace_inside hfound hline hnd hoff hmem hpoison hb⟩
      · rw [hexec, ho]
        exact if_pos hline
      · rw [entryInPlace_of_found hfound]
        refine ⟨fun hlt => mbPressure_short hlt, fun x more hleft hge => ?_⟩
        change mbPressure (mb.erase e) = _
        rw [hleft] at hge ⊢
        exact mbPressure_full hge
  · have hp : placeOf (spadAddr k.val off) = .spad k.val off := placeOf_spad_iff.mpr ⟨rfl, hk, ho⟩
    rw [exec_scrub_spad hk ho]
    refine ⟨fun hbad hne => ?_, fun hbad hcor => ⟨s.spCorrected k.val, ?_, rfl, rfl, ?_⟩, fun hbad =>
      ⟨s.spUncorrectable k.val off k.val, ?_, rfl, spUncorrectable_holdsError hp s _, spUncorrectable_sp .., rfl⟩⟩
    · rw [if_neg hbad, if_neg hne]
    · rw [if_neg hbad, if_pos hcor]
    · rw [State.spCorrected, modCore_core, if_pos rfl]
      rfl
    · rw [if_pos hbad]
  · have hp := placeOf_tunAddr c.isLt ho
    rw [exec_scrub_tun ho]
    refine ⟨fun hbad hne => ?_, fun hbad hcor => ⟨s.tunCorrected c.val, ?_, rfl, ?_⟩, fun hbad =>
      ⟨s.tunUncorrectable c.val off maltsterId, ?_, rfl, tunUncorrectable_holdsError hp s _, tunUncorrectable_tun .., rfl⟩⟩
    · rw [if_neg hbad, if_neg hne]
    · rw [if_neg hbad, if_pos hcor]
    · rw [State.tunCorrected, modCluster_cluster, if_pos rfl]
      rfl
    · rw [if_pos hbad]
  · intro h i blk wrap sound
    have hnext := patrolled_hbm s pc.val
    refine ⟨fun hs => ⟨_, exec_patrolScrub_sound hready hin hs (by decide), rfl, rfl, rfl, ?_, ?_⟩,
      fun hs => ⟨_, exec_patrolScrub_sound hready hin hs (by decide), rfl, rfl, rfl, ?_, ?_⟩,
      fun hs => ⟨_, exec_patrolScrub_sound hready hin hs (by decide), ?_, pcCorrected_poison .., ?_, ?_, fun hfull => ?_⟩, fun e hbad => ?_⟩
    · dsimp only
      rw [hnext, scrubNext_scrub]
    · dsimp only
      rw [hnext, scrubNext_sweeps]
    · dsimp only
      rw [modHbm_hbm, if_pos rfl, hnext]
      rfl
    · dsimp only
      rw [modHbm_hbm, if_pos rfl, hnext]
      rfl
    · exact (arraysRead_pcCorrected ..).mem
    · dsimp only
      rw [pcCorrected_hbm, hnext]
      rfl
    · dsimp only
      rw [pcCorrected_hbm, hnext, mget_mput, if_pos rfl]
      rfl
    · exact pcCorrected_detections (by rw [hnext]; exact hfull) _ _
    · obtain ⟨hmem, hdet, hpoison, hnone⟩ := patrolLost s pc.val (s.addrOf pc.val (blk * 64))
      refine ⟨_, exec_patrolScrub_lost hready hin rfl ?_, hmem, hpoison, hnone, ?_, ?_, ?_, congrArg (· ++ _) hdet⟩
      · refine hbad.imp id fun hs => ?_
        simp only [sound, not_forall, Bool.not_eq_false] at hs
        obtain ⟨a, ha, hlost⟩ := hs
        exact ⟨a, ha, hlost⟩
      all_goals
        rw [pcUncorrectable_hbm]

end Sys2Proof.Proofs
end

section
/-!
PROOFS. L2's maintenance (O31): the rule of a write of a cluster's register (R17), what L2_CTL, L2_WAYPWR and L2_LOCK make of L2, and
what each piece of maintenance leaves when it completes (R217 to R220).
-/
namespace Sys2Proof.Proofs
open Sys2Proof Sys2Proof.Machine Sys2Proof.Stated Sys2Proof.Laws

/-! ### A write of a cluster's register (R17) -/

theorem storeReg_clReg {pa c off : Nat} (hp : placeOf pa = .clReg c off) (h8 : off % 8 = 0) (s : State) (k : Nat) (a v : Word) :
    s.storeReg k a pa (leBytes 8 v.toNat) =
      if k ≠ maltsterCore ∧ clusterRegRings off ≤ (s.core k).ring.val then .ev { code := 2, faddr := BitVec.ofNat 64 pa }
      else .ok () (clusterRegStore (k == maltsterCore) c off v s) := by
  simp [State.storeReg, regValue_word, hp, aligned_div_mul h8]

/-- A master that may write a cluster's register, within the register's ring limit, stores it. -/
theorem regWrite_clReg {s : State} {m : Writer} {c off : Nat} {v : Word} (hc : c < 48) (ho : off < 0x80000) (h8 : off % 8 = 0)
    (hm : MayWrite s m (clRegAddr c off) 1) (hr : clusterRegRings off = 2) :
    ∃ b, s.regWrite m (clRegAddr c off) v = clusterRegStore b c off v s := by
  have hpl := placeOf_clRegAddr hc ho
  cases m with
  | host h => exact hm.elim
  | core w =>
    refine ⟨w.val == maltsterCore, ?_⟩
    have hstore : s.regWrite (.core w) (clRegAddr c off) v
          = s.writeOutcome w.val (s.storeReg w.val (BitVec.ofNat 64 (clRegAddr c off)) (clRegAddr c off) (leBytes 8 v.toNat))
        ∧ ¬(w.val ≠ maltsterCore ∧ clusterRegRings off ≤ (s.core w.val).ring.val) := by
      rcases hm with ⟨hw, hmalt⟩ | ⟨hw, hissues, hring, ⟨p, hpart, hfault⟩, -⟩
      · refine ⟨?_, fun h => h.1 hw⟩
        simp only [State.regWrite, hw]
        exact coreRegWrite_maltster hmalt _ _
      · exact ⟨coreRegWrite_core (Nat.ne_of_lt hw) hissues hpart hfault, fun h => by omega⟩
    obtain ⟨heq, hlow⟩ := hstore
    rw [heq, storeReg_clReg hpl h8, if_neg hlow]
    rfl

/-- What a write of one of L2's registers makes of L2. -/
theorem l2Reg_written {s : State} {m : Writer} {c : ClusterId} {off : Nat} {v : Word} {f : L2 → L2} {i : Instr}
    (hi : exec i s = .next (s.regWrite m (clRegAddr c.val off) v)) (hm : MayWrite s m (clRegAddr c.val off) 1)
    (hoff : off ≤ 0x28 ∧ off % 8 = 0)
    (hf : ∀ b, clusterRegStore b c.val off v s = s.modCluster c.val (fun x => { x with l2 := f x.l2 })) :
    ∃ t, exec i s = .next t ∧ t.mem = s.mem ∧ (t.cluster c.val).l2 = f (s.cluster c.val).l2 := by
  obtain ⟨b, hb⟩ := regWrite_clReg (v := v) c.isLt (by omega) hoff.2 hm (by simp [clusterRegRings, hoff.1])
  refine ⟨_, hi, ?_, ?_⟩
  · rw [hb, hf]
    rfl
  · rw [hb, hf, modCluster_cluster, if_pos rfl]

section
variable {s : State} {m : Writer} {c : ClusterId} {v : Word}

theorem l2Disable_written (hm : MayWrite s m (clRegAddr c.val 0x00008) 1) :
    ∃ t, exec (.l2Disable m c v) s = .next t ∧ t.mem = s.mem
      ∧ (t.cluster c.val).l2 = (s.cluster c.val).l2.ctlWrite (v &&& ~~~(flagAt true 0)) :=
  l2Reg_written (f := fun l => l.ctlWrite (v &&& ~~~(flagAt true 0))) rfl hm (by decide) fun b => by simp [clusterRegStore]

theorem l2Waypwr_written (hm : MayWrite s m (clRegAddr c.val 0x00010) 1) :
    ∃ t, exec (.l2Waypwr m c v) s = .next t ∧ t.mem = s.mem ∧ (t.cluster c.val).l2 = (s.cluster c.val).l2.wayWrite v :=
  l2Reg_written (f := fun l => l.wayWrite v) rfl hm (by decide) fun b => by simp [clusterRegStore]

theorem l2Lock_written (hm : MayWrite s m (clRegAddr c.val 0x00018) 1) :
    ∃ t, exec (.l2Lock m c v) s = .next t ∧ t.mem = s.mem
      ∧ (t.cluster c.val).l2 = (s.cluster c.val).l2.lockWrite (s.ownsRange c.val) v :=
  l2Reg_written (f := fun l => l.lockWrite (s.ownsRange c.val) v) rfl hm (by decide) fun b => by simp [clusterRegStore]

end

/-! ### L2_CTL with EN = 0 (R217) -/

theorem getLsbD_clearBit0 (v : Word) (i : Nat) : (v &&& ~~~(flagAt true 0)).getLsbD i = (v.getLsbD i && decide (i ≠ 0)) := by
  have hone : flagAt true 0 = BitVec.twoPow 64 0 := rfl
  rw [hone, BitVec.getLsbD_and, BitVec.getLsbD_not, BitVec.getLsbD_twoPow]
  by_cases hi : i < 64
  · by_cases h0 : i = 0 <;> simp [hi, h0, eq_comm]
  · simp [BitVec.getLsbD_of_ge v i (by omega)]

theorem field_clearBit0 (v : Word) : field (v &&& ~~~(flagAt true 0)) 5 4 = v.toNat / 16 % 4 := by
  rw [field_eq_div]
  refine Nat.eq_of_testBit_eq fun i => ?_
  have hbit := getLsbD_clearBit0 v (4 + i)
  have h4 : decide (4 + i ≠ 0) = true := by simp
  rw [h4, Bool.and_true, BitVec.getLsbD, BitVec.getLsbD] at hbit
  change Nat.testBit (_ / 2 ^ 4 % 2 ^ 2) i = Nat.testBit (_ / 2 ^ 4 % 2 ^ 2) i
  rw [Nat.testBit_mod_two_pow, Nat.testBit_mod_two_pow, Nat.testBit_div_two_pow, Nat.testBit_div_two_pow, Nat.add_comm i 4, hbit]

theorem ctlDisable_eq (l : L2) (v : Word) : l.ctlWrite (v &&& ~~~(flagAt true 0)) =
    if v.toNat / 16 % 4 = 3 then { l with cfg := { err := true, off := 8 } } else ({ l with idle := v.toNat / 16 % 4 } : L2).startDisable := by
  have hbit : bit (v &&& ~~~(flagAt true 0)) 0 = false := by rw [bit, getLsbD_clearBit0]; simp
  rw [L2.ctlWrite, field_clearBit0, hbit]
  rfl

/-- Whether a disable of L2 pends. -/
def L2Disables (l : L2) : Prop := ∃ w ∈ l.work, ∃ b, w.1 = .disable b

theorem isDisable_iff {w : L2Work} : w.isDisable = true ↔ ∃ b, w = .disable b := by cases w <;> simp [L2Work.isDisable]

theorem any_isDisable_iff {l : L2} : l.work.any (fun w => w.1.isDisable) = true ↔ L2Disables l := by
  simp [L2Disables, isDisable_iff]

theorem startDrain_all (mb : List MbEntry) : startDrain mb (fun _ => true) = mb.map (fun e => { e with draining := true }) := by
  simp [startDrain]

theorem startDisable_pending {l : L2} (h : L2Disables l) :
    l.startDisable = { l with work := l.work.map (fun w => if w.1.isDisable then (.disable false, w.2) else w) } :=
  if_pos (any_isDisable_iff.mpr h)

theorem startDisable_starts {l : L2} (hen : l.en = true) (h : ¬L2Disables l) :
    l.startDisable = { l with mb := l.mb.map (fun e => { e with draining := true }), work := l.work ++ [(.disable false, l.mb.map (·.line))] } := by
  rw [L2.startDisable, if_neg (mt any_isDisable_iff.mp h), hen, startDrain_all]
  rfl

theorem startDisable_off {l : L2} (hen : l.en = false) (h : ¬L2Disables l) : l.startDisable = l := by
  rw [L2.startDisable, if_neg (mt any_isDisable_iff.mp h), hen]
  rfl

/-! ### L2_WAYPWR (R218, R220) -/

theorem wayWrite_refused {l : L2} {v : Word} (h : ∃ w, w < 16 ∧ 16 - l.nways ≤ w ∧ v.getLsbD w = true ∧ l.nways ≠ 0) :
    l.wayWrite v = { l with cfg := { err := true, off := 0x10 } } := by
  obtain ⟨w, hw, hheld, hv, hn⟩ := h
  refine if_pos (List.any_eq_true.mpr ⟨w, List.mem_range.mpr hw, ?_⟩)
  simp [L2.wayHeld, hw, hheld, hv, hn]

/-- L2 with the ways that L2_WAYPWR leaves on, before the ways newly off drain. -/
def waysOn (l : L2) (v : Word) : L2 :=
  let pd : BitVec 16 := v.truncate 16
  let back := l.pd &&& ~~~pd
  { l with pd := pd, gated := l.gated &&& pd, lines := l.lines.filter (fun x => !back.getLsbD x.way) }

theorem wayWrite_accepted {l : L2} {v : Word} (h : ∀ w < 16, 16 - l.nways ≤ w → l.nways ≠ 0 → v.getLsbD w = false) :
    l.wayWrite v = if (v.truncate 16 : BitVec 16) &&& ~~~l.pd = 0 then waysOn l v
      else { waysOn l v with mb := startDrain l.mb (fun _ => true),
                             work := l.work ++ [(.gate ((v.truncate 16 : BitVec 16) &&& ~~~l.pd), l.mb.map (·.line))] } := by
  refine if_neg fun hany => ?_
  obtain ⟨w, hw, hheld⟩ := List.any_eq_true.mp hany
  have hw := List.mem_range.mp hw
  simp only [L2.wayHeld, Bool.and_eq_true, decide_eq_true_eq] at hheld
  obtain ⟨hv, hn, hge⟩ := hheld
  have hclear := h w hw hge hn
  simp [BitVec.getLsbD_setWidth, hclear] at hv

theorem mem_waysOn {l : L2} {v : Word} {x : CLine} (h : x ∈ (waysOn l v).lines) :
    x ∈ l.lines ∧ ¬(l.pd.getLsbD x.way = true ∧ (v.truncate 16 : BitVec 16).getLsbD x.way = false) := by
  obtain ⟨hx, hback⟩ := List.mem_filter.mp h
  refine ⟨hx, fun ⟨hpd, hnot⟩ => ?_⟩
  have hlt : x.way < 16 := BitVec.lt_of_getLsbD hpd
  simp only [BitVec.getLsbD_and, BitVec.getLsbD_not, hpd, hnot, hlt] at hback
  exact absurd hback (by decide)

/-! ### L2_LOCK (R219, R220) -/

theorem lockWrite_unlocks {l : L2} {owned : Nat → Nat → Bool} {v : Word} (h : v.toNat / 2 ^ 48 % 16 = 0) :
    (l.lockWrite owned v).nways = 0 ∧ (l.lockWrite owned v).locked = false
      ∧ ∀ x ∈ (l.lockWrite owned v).lines, l.nways = 0 ∨ x.way < 16 - l.nways := by
  have hfield : field v 51 48 = 0 := by rw [field_eq_div]; exact h
  simp only [L2.lockWrite, hfield, if_true]
  refine ⟨trivial, trivial, fun x hx => ?_⟩
  have hheld := (List.mem_filter.mp hx).2
  simp only [L2.wayHeld, Bool.not_eq_true', Bool.and_eq_false_iff, decide_eq_false_iff_not] at hheld
  omega

/-- What R219 and R220 ask of a range that L2_LOCK names. -/
def LockLegal (l : L2) (owned : Nat → Nat → Bool) (base n : Nat) : Prop :=
  n ≤ 12 ∧ l.locked = false ∧ (∀ w ∈ l.work, w.1 ≠ .fill) ∧ owned base (n * 0x20000) = true
    ∧ ∀ w, 16 - n ≤ w → w < 16 → l.pd.getLsbD w = false ∧ l.gated.getLsbD w = false

section
variable {l : L2} {owned : Nat → Nat → Bool} {v : Word} {base n : Nat} (hbase : v.toNat / 2 ^ 17 % 2 ^ 31 * 2 ^ 17 = base)
  (hn : v.toNat / 2 ^ 48 % 16 = n) (h0 : n ≠ 0)
include hbase hn h0

theorem lockWrite_eq [Decidable (LockLegal l owned base n)] : l.lockWrite owned v =
    if LockLegal l owned base n then
      { l with lockAddr := base, nways := n, mb := l.mb.map (fun e => { e with draining := true }),
               work := l.work ++ [(.fill, l.mb.map (·.line))], lines := l.lines.filter (fun x => decide (x.way < 16 - n)) }
    else { l with cfg := { err := true, off := 0x18 } } := by
  have hb : field v 47 17 * 2 ^ 17 = base := by rw [field_eq_div]; exact hbase
  have hf : field v 51 48 = n := by rw [field_eq_div]; exact hn
  have hiff : (decide (12 < n) || (l.locked || l.work.any (fun w => w.1 == .fill)) || !owned base (n * 0x20000)
      || (List.range 16).any (fun w => decide (16 - n ≤ w) && (l.pd.getLsbD w || l.gated.getLsbD w))) = true ↔ ¬LockLegal l owned base n := by
    simp only [LockLegal, Bool.or_eq_true, decide_eq_true_eq, List.any_eq_true, beq_iff_eq, Bool.not_eq_true', List.mem_range, Bool.and_eq_true]
    grind
  simp only [L2.lockWrite, hb, hf, h0, if_false, startDrain_all]
  by_cases hl : LockLegal l owned base n
  · rw [if_pos hl, if_neg (fun h => hiff.mp h hl)]
  · rw [if_neg hl, if_pos (hiff.mpr hl)]
    rfl

end

/-! ### Entries of several lines put in place (R211, R212) -/

theorem mbPressure_lines (mb : List MbEntry) : (mbPressure mb).map (·.line) = mb.map (·.line) := by
  cases mb with
  | nil => rfl
  | cons e mb =>
    unfold mbPressure
    dsimp only
    split <;> rfl

theorem mem_mbPressure {mb : List MbEntry} {e : MbEntry} (h : e ∈ mbPressure mb) : ∃ x ∈ mb, x.line = e.line ∧ x.bytes = e.bytes := by
  cases mb with
  | nil => cases h
  | cons x mb =>
    unfold mbPressure at h
    dsimp only at h
    split at h
    · rcases List.mem_cons.mp h with rfl | he
      · exact ⟨x, List.mem_cons_self, rfl, rfl⟩
      · exact ⟨e, List.mem_cons_of_mem _ he, rfl, rfl⟩
    · exact ⟨e, h, rfl, rfl⟩

/-- The oldest entry of a line goes: the line goes once from the buffer's lines. -/
theorem erase_found_lines {mb : List MbEntry} {line : Nat} {e : MbEntry} (h : findEntry mb line = some e) :
    (mb.erase e).map (·.line) = (mb.map (·.line)).erase line := by
  induction mb with
  | nil => cases h
  | cons x mb ih =>
    rw [findEntry, List.find?_cons] at h
    split at h
    case h_1 hx =>
      cases h
      have hline : e.line = line := beq_iff_eq.mp hx
      rw [List.erase_cons_head, List.map_cons, hline, List.erase_cons_head]
    case h_2 hx =>
      have hline : x.line ≠ line := fun hl => by simp [hl] at hx
      have he : e.line = line := by simpa using List.find?_some h
      have hne : x ≠ e := fun hxe => hline (hxe ▸ he)
      rw [List.erase_cons_tail (by simpa using hne), List.map_cons, ih h, List.map_cons, List.erase_cons_tail (by simpa using hline)]

/-- From s to u entries of a cluster's merging buffer are put in place, one for each of the lines given. -/
structure EntriesPlaced (c : Nat) (ls : List Nat) (s u : State) : Prop where
  l2 : (u.cluster c).l2 = { (s.cluster c).l2 with mb := (u.cluster c).l2.mb }
  lines : (u.cluster c).l2.mb.map (·.line) = ((s.cluster c).l2.mb.map (·.line)).diff ls
  left : ∀ e ∈ (u.cluster c).l2.mb, ∃ x ∈ (s.cluster c).l2.mb, x.line = e.line ∧ x.bytes = e.bytes
  mem : ∀ a, (∀ e ∈ (s.cluster c).l2.mb, e.line ∈ ls → ∀ b ∈ e.bytes, a ≠ e.line * 64 + b.1) → u.getByte a = s.getByte a

theorem EntriesPlaced.refl (c : Nat) (s : State) : EntriesPlaced c [] s s :=
  ⟨rfl, rfl, fun e he => ⟨e, he, rfl, rfl⟩, fun _ _ => rfl⟩

theorem EntriesPlaced.trans {c : Nat} {ls ms : List Nat} {s t u : State} (h : EntriesPlaced c ls s t) (g : EntriesPlaced c ms t u) :
    EntriesPlaced c (ls ++ ms) s u where
  l2 := by rw [g.l2, h.l2]
  lines := by rw [g.lines, h.lines, List.diff_append]
  left e he := by
    obtain ⟨x, hx, hline, hbytes⟩ := g.left e he
    obtain ⟨y, hy, hyline, hybytes⟩ := h.left x hx
    exact ⟨y, hy, hyline.trans hline, hybytes.trans hbytes⟩
  mem a ha := by
    rw [g.mem, h.mem]
    · exact fun e he hl => ha e he (List.mem_append_left _ hl)
    · intro e he hl b hb
      obtain ⟨x, hx, hline, hbytes⟩ := h.left e he
      rw [← hline]
      exact ha x hx (List.mem_append_right _ (hline ▸ hl)) b (hbytes ▸ hb)

theorem entriesPlaced_entryInPlace (s : State) (c line : Nat) : EntriesPlaced c [line] s (s.entryInPlace c line) := by
  cases hfound : findEntry (s.cluster c).l2.mb line with
  | none =>
    have hsame : s.entryInPlace c line = s := by simp only [State.entryInPlace, hfound]
    have hnot : line ∉ (s.cluster c).l2.mb.map (·.line) := by
      intro hmem
      obtain ⟨e, he, hline⟩ := List.mem_map.mp hmem
      exact List.find?_eq_none.mp hfound e he (by simpa using hline)
    rw [hsame]
    refine ⟨rfl, ?_, fun e he => ⟨e, he, rfl, rfl⟩, fun _ _ => rfl⟩
    rw [List.diff_cons, List.diff_nil, List.erase_of_not_mem hnot]
  | some e =>
    have hl2 := entryInPlace_of_found hfound
    have hmem : e ∈ (s.cluster c).l2.mb := List.mem_of_find?_eq_some hfound
    have hline : e.line = line := by simpa using List.find?_some hfound
    refine ⟨by rw [hl2], ?_, fun x hx => ?_, fun a ha => ?_⟩
    · rw [hl2, mbPressure_lines, erase_found_lines hfound, List.diff_cons, List.diff_nil]
    · rw [hl2] at hx
      obtain ⟨y, hy, hyx⟩ := mem_mbPressure hx
      exact ⟨y, List.mem_of_mem_erase hy, hyx⟩
    · exact entryInPlace_outside hfound (ha e hmem (by rw [hline]; exact List.mem_singleton_self _))

theorem entriesPlaced_foldl (c : Nat) (ls : List Nat) (s : State) : EntriesPlaced c ls s (ls.foldl (fun s l => s.entryInPlace c l) s) := by
  induction ls generalizing s with
  | nil => exact .refl c s
  | cons l ls ih => exact (entriesPlaced_entryInPlace s c l).trans (ih _)

/-- The lines of the entries that linesInPlace puts in place. -/
def linesOf (s : State) (c : Nat) (p : Nat → Bool) : List Nat := ((s.cluster c).l2.mb.map (·.line)).filter p

theorem entriesPlaced_linesInPlace (s : State) (c : Nat) (p : Nat → Bool) : EntriesPlaced c (linesOf s c p) s (s.linesInPlace c p) := by
  have hlines : linesOf s c p = ((s.cluster c).l2.mb.filter (fun e => p e.line)).map (·.line) := by
    rw [linesOf, List.filter_map]
    rfl
  have hfold := entriesPlaced_foldl c (linesOf s c p) s
  rw [hlines] at hfold ⊢
  rwa [List.foldl_map] at hfold

/-- No entry of those lines is left. -/
theorem linesInPlace_left {s : State} {c : Nat} {p : Nat → Bool} {e : MbEntry} (he : e ∈ ((s.linesInPlace c p).cluster c).l2.mb) : p e.line = false := by
  have hmem : e.line ∈ ((s.linesInPlace c p).cluster c).l2.mb.map (·.line) := List.mem_map.mpr ⟨e, he, rfl⟩
  rw [(entriesPlaced_linesInPlace s c p).lines] at hmem
  by_contra hp
  have hcount := List.count_pos_iff.mpr hmem
  rw [List.count_diff, linesOf, List.count_filter (by simpa using hp)] at hcount
  omega

/-! ### Maintenance that completes (R217 to R219) -/

section
variable {c : ClusterId} {s : State} {w : L2Work} {ls : List Nat} {rest : List (L2Work × List Nat)}
  (hwork : (s.cluster c.val).l2.work = (w, ls) :: rest)
include hwork

/-- A piece of maintenance waits for the entries that were present at its start, and a lock's fill for EN. -/
theorem exec_maintenance_waits
    (h : (∃ e ∈ (s.cluster c.val).l2.mb, e.draining = true ∧ e.line ∈ ls) ∨ (w = .fill ∧ (s.cluster c.val).l2.en = false)) :
    exec (.l2MaintenanceDone c) s = .next s := by
  change execL2MaintenanceDone c s = _
  simp only [execL2MaintenanceDone, hwork]
  refine if_pos ?_
  rcases h with ⟨e, he, hdrain, hline⟩ | ⟨rfl, hen⟩
  · rw [List.any_eq_true.mpr ⟨e, he, by simp [hdrain, hline]⟩, Bool.true_or]
  · rw [L2Work.ready, hen]
    simp

/-- L2 with its oldest maintenance taken. -/
def workTaken (s : State) (c : Nat) (rest : List (L2Work × List Nat)) : State :=
  s.modCluster c (fun x => { x with l2 := { x.l2 with work := rest } })

theorem exec_maintenance_done (h : ∀ e ∈ (s.cluster c.val).l2.mb, e.draining = true → e.line ∉ ls)
    (hfill : w = .fill → (s.cluster c.val).l2.en = true) :
    exec (.l2MaintenanceDone c) s = .next ((workTaken s c.val rest).l2WorkDone c.val w) := by
  change execL2MaintenanceDone c s = _
  simp only [execL2MaintenanceDone, hwork]
  refine if_neg fun hor => ?_
  rcases Bool.or_eq_true_iff.mp hor with hany | hready
  · obtain ⟨e, he, hboth⟩ := List.any_eq_true.mp hany
    simp only [Bool.and_eq_true, List.contains_iff_mem] at hboth
    exact h e he hboth.1 hboth.2
  · by_cases hw : w = .fill
    · rw [L2Work.ready, hfill hw] at hready
      simp at hready
    · simp [L2Work.ready, hw] at hready

end

section
variable (s : State) (c : Nat) (rest : List (L2Work × List Nat))

theorem workTaken_l2 : ((workTaken s c rest).cluster c).l2 = { (s.cluster c).l2 with work := rest } := by
  rw [workTaken, modCluster_cluster, if_pos rfl]

theorem disableDone_l2 (b : Bool) : (((workTaken s c rest).l2WorkDone c (.disable b)).cluster c).l2 =
    { (s.cluster c).l2 with work := rest, en := b, lines := [], locked := false,
                            nways := if rest.any (fun w => w.1 == .fill) then (s.cluster c).l2.nways else 0 } := by
  simp only [State.l2WorkDone, modCluster_cluster, if_true, workTaken_l2]

theorem gateDone_l2 (ways : BitVec 16) : (((workTaken s c rest).l2WorkDone c (.gate ways)).cluster c).l2 =
    { (s.cluster c).l2 with work := rest, gated := (s.cluster c).l2.gated ||| (ways &&& (s.cluster c).l2.pd),
                            lines := (s.cluster c).l2.lines.filter (fun y => !ways.getLsbD y.way) } := by
  simp only [State.l2WorkDone, modCluster_cluster, if_true, workTaken_l2]

/-- Whether a line lies in the range that a lock holds. -/
def lockRange (l : L2) (line : Nat) : Bool := decide (l.lockAddr / 64 ≤ line) && decide (line < l.lockAddr / 64 + 2048 * l.nways)

/-- The state in which a lock's fill has put the entries of its range in place. -/
def fillReady (s : State) (c : Nat) (rest : List (L2Work × List Nat)) : State :=
  (workTaken s c rest).linesInPlace c (lockRange (s.cluster c).l2)

theorem fillDone_eq : (workTaken s c rest).l2WorkDone c .fill = (fillReady s c rest).modCluster c (fun x =>
    { x with l2 := { x.l2 with
        locked := true,
        lines := lockFill (fillReady s c rest) (s.cluster c).l2.lockAddr (s.cluster c).l2.nways
          ++ x.l2.lines.filter (fun y => !lockRange (s.cluster c).l2 y.line) } }) := by
  unfold State.l2WorkDone
  simp only [workTaken_l2]
  rfl

theorem fillDone_l2 : (((workTaken s c rest).l2WorkDone c .fill).cluster c).l2 =
    { (s.cluster c).l2 with
      work := rest, mb := ((fillReady s c rest).cluster c).l2.mb, locked := true,
      lines := lockFill (fillReady s c rest) (s.cluster c).l2.lockAddr (s.cluster c).l2.nways
        ++ (s.cluster c).l2.lines.filter (fun y => !lockRange (s.cluster c).l2 y.line) } := by
  have hready : ((fillReady s c rest).cluster c).l2 = { (s.cluster c).l2 with work := rest, mb := ((fillReady s c rest).cluster c).l2.mb } := by
    have := (entriesPlaced_linesInPlace (workTaken s c rest) c (lockRange (s.cluster c).l2)).l2
    rwa [workTaken_l2] at this
  rw [fillDone_eq, modCluster_cluster, if_pos rfl, hready]

theorem mem_lockFill {u : State} {base n o : Nat} (h : o < 2048 * n) :
    ({ line := base / 64 + o, way := 15 - o / 2048, data := u.getBytes (base + 64 * o) 64 } : CLine) ∈ lockFill u base n :=
  List.mem_map.mpr ⟨o, List.mem_range.mpr h, rfl⟩

theorem lockRange_iff {l : L2} {line : Nat} : lockRange l line = true ↔ l.lockAddr / 64 ≤ line ∧ line < l.lockAddr / 64 + 2048 * l.nways := by
  simp [lockRange]

end

theorem l2Maintained : L2Maintained := by
  intro c s l lines drained
  refine ⟨fun m v hm hidle => ?_, fun m v hm hidle => ?_, fun m v hm hheld => ?_, fun m v hm hheld => ?_, fun m v hm => ?_,
    fun w ls rest hwork => ⟨exec_maintenance_waits hwork, fun hdrained hfill => ?_⟩⟩
  · intro pends off
    obtain ⟨t, ht, hmem, hl2⟩ := l2Disable_written (v := v) hm
    rw [ctlDisable_eq, if_neg hidle] at hl2
    refine ⟨t, ht, hmem, fun hen hp => ?_, fun hp => ?_, fun hen hp => ?_⟩
    · exact hl2.trans (startDisable_starts (l := { l with idle := v.toNat / 16 % 4 }) hen hp)
    · rw [hl2.trans (startDisable_pending (l := { l with idle := v.toNat / 16 % 4 }) hp)]
      have hoff (w : L2Work × List Nat) : (if w.1.isDisable then (.disable false, w.2) else w) = (off w.1, w.2) := by
        obtain ⟨w, ls⟩ := w
        cases w <;> rfl
      simp only [hoff]
    · exact hl2.trans (startDisable_off (l := { l with idle := v.toNat / 16 % 4 }) hen hp)
  · obtain ⟨t, ht, -, hl2⟩ := l2Disable_written (v := v) hm
    exact ⟨t, ht, by rw [hl2, ctlDisable_eq, if_pos hidle]⟩
  · intro pd fresh
    obtain ⟨t, ht, hmem, hl2⟩ := l2Waypwr_written (v := v) hm
    rw [wayWrite_accepted hheld] at hl2
    refine ⟨t, ht, hmem, ?_⟩
    by_cases hfresh : fresh = 0
    · rw [hl2, if_pos hfresh]
      exact ⟨rfl, rfl, fun h => absurd hfresh h, fun _ => ⟨rfl, rfl⟩, fun x hx => mem_waysOn hx⟩
    · rw [hl2, if_neg hfresh]
      exact ⟨rfl, rfl, fun _ => ⟨startDrain_all _, rfl⟩, fun h => absurd h hfresh, fun x hx => mem_waysOn hx⟩
  · obtain ⟨t, ht, -, hl2⟩ := l2Waypwr_written (v := v) hm
    exact ⟨t, ht, by rw [hl2, wayWrite_refused hheld]⟩
  · intro base n legal
    classical
    obtain ⟨t, ht, hmem, hl2⟩ := l2Lock_written (v := v) hm
    refine ⟨fun h0 hlegal => ⟨t, ht, hmem, ?_⟩, fun h0 hlegal => ⟨t, ht, ?_⟩, fun h0 => ⟨t, ht, ?_⟩⟩
    · rw [hl2, lockWrite_eq rfl rfl h0]
      exact if_pos hlegal
    · rw [hl2, lockWrite_eq rfl rfl h0]
      exact if_neg hlegal
    · rw [hl2]
      exact lockWrite_unlocks h0
  · intro within
    refine ⟨_, exec_maintenance_done hwork hdrained hfill, ?_⟩
    cases w with
    | disable b =>
      rw [disableDone_l2]
      refine ⟨rfl, fun _ => ⟨rfl, rfl⟩, fun b' hb => ?_, (fun _ h => nomatch h), (fun h => nomatch h)⟩
      cases hb
      refine ⟨rfl, rfl, rfl, fun hnone => ?_, fun ⟨x, hx, hxf⟩ => ?_⟩
      · exact if_neg fun hany => by
          obtain ⟨x, hx, hxf⟩ := List.any_eq_true.mp hany
          exact hnone x hx (beq_iff_eq.mp hxf)
      · exact if_pos (List.any_eq_true.mpr ⟨x, hx, by simp [hxf]⟩)
    | gate ways =>
      rw [gateDone_l2]
      refine ⟨rfl, fun _ => ⟨rfl, rfl⟩, (fun _ h => nomatch h), fun ways' h => ?_, (fun h => nomatch h)⟩
      cases h
      refine ⟨rfl, fun x hx => ?_⟩
      obtain ⟨hmem, hway⟩ := List.mem_filter.mp hx
      exact ⟨hmem, by simpa using hway⟩
    | fill =>
      have hplaced := entriesPlaced_linesInPlace (workTaken s c.val rest) c.val (lockRange l)
      rw [fillDone_l2]
      refine ⟨rfl, fun h => absurd rfl h, (fun _ h => nomatch h), (fun _ h => nomatch h), fun _ => ⟨rfl, fun o ho => ?_, fun e he => ?_, fun a ha => ?_⟩⟩
      · rw [fillDone_eq]
        exact List.mem_append_left _ (mem_lockFill ho)
      · have hleft := linesInPlace_left he
        exact fun hin => by rw [lockRange_iff.mpr hin] at hleft; cases hleft
      · rw [fillDone_eq]
        refine hplaced.mem a fun e he hl => ?_
        rw [workTaken_l2] at he
        exact ha e he (lockRange_iff.mp (List.mem_filter.mp hl).2)

/-- Settles O31: each protected read and each drained entry touches only its own bytes, and a fill first puts in place one entry for each
that its range holds, so that none is left. -/
theorem memoriesAndL2Maintained : Obligations.MemoriesAndL2Maintained := ⟨memoriesMaintained, l2Maintained⟩

end Sys2Proof.Proofs
end

section
/-!
PROOFS. In-mesh sums (O32): the elements of a beat that is put together from sums, the integer formats, and the FP32 chain with the bound
that one rounding leaves (R38 to R42, R153 to R155).
-/
namespace Sys2Proof.Proofs
open Sys2Proof Sys2Proof.Machine Sys2Proof.Stated Sys2Proof.Laws

/-! ### FP32 codes have 32 bits (R28, R38 to R42) -/

/-- The row of R28 for FP32. -/
def fp32Params : FpParams := ⟨8, 23, 127, -126, 127, 2 ^ 24 - 1, true, some 0x7FC00000⟩

theorem fp32_sign_le (neg : Bool) : fp32Params.sign neg ≤ 2 ^ 31 := by cases neg <;> decide

theorem ilog_quot {n : Nat} (hn : n ≠ 0) (e : Int) : (Mag.quot n 1 e).ilog = (Nat.log2 n : Int) + e := by
  have hone : Nat.log2 1 = 0 := by decide
  have hself : ¬n < 2 ^ Nat.log2 n := Nat.not_lt.mpr (Nat.log2_self_le hn)
  have hneg : (-(Nat.log2 n : Int)).toNat = 0 := by omega
  simp only [Mag.ilog, log2, hone, Nat.cast_zero, sub_zero, Int.toNat_natCast, hneg, pow_zero, mul_one, one_mul, hself, decide_false,
    Bool.false_eq_true, if_false]

/-- The mantissa of a dyadic number at its own exponent, or at a higher one, has at most 24 bits before rounding. -/
theorem floorQuot_lt {n : Nat} {e p : Int} (hp : p ≤ 57 - (Mag.quot n 1 e).ilog) : (floorQuot n 1 (e + p)).1 < 2 ^ 58 := by
  by_cases hn : n = 0
  · simp [floorQuot, hn]
  · rw [ilog_quot hn] at hp
    have hlt : n < 2 ^ (Nat.log2 n + 1) := Nat.lt_log2_self
    rw [floorQuot]
    dsimp only
    rw [Nat.one_mul, Nat.div_lt_iff_lt_mul (Nat.two_pow_pos _), ← pow_add]
    calc n * 2 ^ (e + p).toNat < 2 ^ (Nat.log2 n + 1) * 2 ^ (e + p).toNat := Nat.mul_lt_mul_of_pos_right hlt (Nat.two_pow_pos _)
      _ = 2 ^ (Nat.log2 n + 1 + (e + p).toNat) := (pow_add ..).symm
      _ ≤ 2 ^ (58 + (-(e + p)).toNat) := Nat.pow_le_pow_right (by decide) (by omega)

theorem ite_succ_le (c : Prop) [Decidable c] (n : Nat) : (if c then n + 1 else n) ≤ n + 1 := by split <;> omega

theorem roundMag_le (r : Rnd) (neg : Bool) (t : Nat) (sticky : Bool) : (roundMag r neg t sticky).1 ≤ t / 2 ^ 34 + 1 := ite_succ_le _ _

/-- The code of a rounded mantissa stays below the code of an infinity. -/
theorem fp32_code_lt {ee : Int} {m : Nat} (hee : ee ≤ 127) (hm : m ≤ 2 ^ 24) (hfull : ee = 127 → m ≤ 2 ^ 24 - 1) :
    (if m < 2 ^ 23 then m else if m = 2 ^ (23 + 1) then (ee + 1 + (127 : Nat)).toNat * 2 ^ 23
      else (ee + (127 : Nat)).toNat * 2 ^ 23 + (m - 2 ^ 23)) < 2 ^ 31 := by
  have hne : m = 2 ^ 24 → ee ≤ 126 := fun h => by
    by_contra hgt
    have := hfull (by omega)
    omega
  split
  · omega
  · split
    · have := hne (by assumption)
      omega
    · omega

theorem encodeFp_fp32_lt (neg : Bool) (d : Dy) : (encodeFp fp32Params .rne neg (.ofDy d)).1 < 2 ^ 32 := by
  have hsign := fp32_sign_le neg
  have hlargest : fp32Params.largest < 2 ^ 31 := by decide
  have hovf : fp32Params.sign neg + (if false then fp32Params.largest else fp32Params.overflowCode Rnd.rne.nosat) < 2 ^ 32 := by
    change fp32Params.sign neg + fp32Params.largest < 2 ^ 32
    omega
  have hmant {ee : Int} (hee : (Mag.ofDy d).ilog ≤ ee) : ((Mag.ofDy d).floorAt (34 - (ee - (23 : Nat)))).1 < 2 ^ 58 :=
    floorQuot_lt (by change _ ≤ 57 - (Mag.ofDy d).ilog; omega)
  unfold encodeFp
  dsimp only
  split
  case isTrue => exact hovf
  case isFalse hemax =>
    split
    case isTrue => exact hovf
    case isFalse hfits =>
      have hee : (Mag.ofDy d).ilog ≤ max (Mag.ofDy d).ilog (-126) := le_max_left ..
      have hle : (Mag.ofDy d).ilog ≤ 127 := not_lt.mp hemax
      have hcut := hmant hee
      have hround : (roundMag .rne neg ((Mag.ofDy d).floorAt (34 - (max (Mag.ofDy d).ilog (-126) - (23 : Nat)))).1
          (((Mag.ofDy d).floorAt (34 - (max (Mag.ofDy d).ilog (-126) - (23 : Nat)))).2 || false)).1 ≤ 2 ^ 24 :=
        (roundMag_le ..).trans (by omega)
      refine Nat.lt_of_lt_of_le (Nat.add_lt_add_of_le_of_lt hsign (fp32_code_lt (max_le hle (by decide)) hround fun hmax => ?_)) (by decide)
      have hmax : max (Mag.ofDy d).ilog (-126) = 127 := hmax
      have he : (Mag.ofDy d).ilog = 127 := by omega
      by_contra hgt
      refine hfits (Bool.or_eq_true_iff.mpr (Or.inr (Bool.and_eq_true_iff.mpr ⟨beq_iff_eq.mpr he, decide_eq_true ?_⟩)))
      exact not_le.mp hgt

theorem encodeVal_fp32_lt (v : Val) : (encodeVal .fp32 0 .rne v).1 < 2 ^ 32 := by
  have hsign (neg : Bool) := fp32_sign_le neg
  cases v with
  | fin d => exact encodeFp_fp32_lt _ _
  | zero neg => exact Nat.lt_of_le_of_lt (hsign neg) (by decide)
  | inf neg =>
    change fp32Params.sign neg + fp32Params.infCode < _
    have : fp32Params.infCode < 2 ^ 31 := by decide
    have := hsign neg
    omega
  | nan neg =>
    change fp32Params.sign neg + 0x7FC00000 < _
    have := hsign neg
    omega

/-! ### A beat put together from its elements (R153) -/

theorem leNat_lt (bs : List Byte) : leNat bs < 256 ^ bs.length := by
  induction bs with
  | nil => exact Nat.one_pos
  | cons b bs ih =>
    have hb := b.isLt
    rw [leNat, List.length_cons, pow_succ]
    omega

theorem beatElem_lt (n : Nat) (b : Beat) (i : Nat) : beatElem n b i < 256 ^ n :=
  Nat.lt_of_lt_of_le (leNat_lt _) (Nat.pow_le_pow_right (by decide) (List.length_take_le _ _))

/-- Element i of concatenated elements. -/
theorem beatElem_flatMap {α : Type} (n : Nat) (f : α → Nat) (os : List α) {i : Nat} (hi : i < os.length) :
    beatElem n (os.flatMap (fun o => leBytes n (f o))) i = f os[i] % 256 ^ n := by
  induction os generalizing i with
  | nil => exact absurd hi (Nat.not_lt_zero i)
  | cons o os ih =>
    rw [beatElem, List.flatMap_cons]
    cases i with
    | zero => rw [Nat.mul_zero, List.drop_zero, List.take_left' (leBytes_length ..), leNat_leBytes]; rfl
    | succ i =>
      have hdrop : (leBytes n (f o) ++ os.flatMap (fun o => leBytes n (f o))).drop (n * (i + 1)) = (os.flatMap (fun o => leBytes n (f o))).drop (n * i) := by
        rw [Nat.mul_succ, Nat.add_comm, ← List.drop_drop, List.drop_left' (leBytes_length ..)]
      rw [hdrop]
      exact ih (by simpa using hi)

/-- What beatSum makes of element i. -/
def sumElem (fmt : Nat) (es : List Nat) : Nat × SumSt :=
  match fmt with
  | 2 => match es with
    | [] => (0, ({} : SumSt))
    | e :: es => fpChain e es
  | 1 =>
    let t := es.foldl (fun (a : Int) e => a + signedOf 32 e) 0
    (toTwos 32 t, { iovf := decide (t < -2147483648) || decide (2147483647 < t) })
  | _ => (toTwos 128 (es.foldl (fun (a : Int) e => a + signedOf 128 e) 0), ({} : SumSt))

/-- The bytes of an element of a sum. -/
def sumWidth (fmt : Nat) : Nat := if fmt = 3 then 16 else 4

theorem beatSum_eq (fmt : Nat) (bs : List Beat) : beatSum fmt bs =
    let outs := (List.range (256 / sumWidth fmt)).map (fun i => sumElem fmt (bs.map (fun b => beatElem (sumWidth fmt) b i)))
    (outs.flatMap (fun o => leBytes (sumWidth fmt) o.1), outs.foldl (fun a o => a.or o.2) {}) := rfl

theorem beatElem_beatSum (fmt : Nat) (bs : List Beat) {i : Nat} (hi : i < 256 / sumWidth fmt) :
    beatElem (sumWidth fmt) (beatSum fmt bs).1 i
      = (sumElem fmt (bs.map (fun b => beatElem (sumWidth fmt) b i))).1 % 256 ^ sumWidth fmt := by
  rw [beatSum_eq]
  dsimp only
  rw [beatElem_flatMap (f := Prod.fst) _ _ (by simpa using hi)]
  simp

theorem toTwos_mod (w : Nat) (x : Int) : toTwos w x % 2 ^ w = toTwos w x := by
  refine Nat.mod_eq_of_lt ?_
  have hpos : (0 : Int) < 2 ^ w := by positivity
  have hlt := Int.emod_lt_of_pos x hpos
  have hnonneg := Int.emod_nonneg x hpos.ne'
  rw [toTwos]
  zify
  rw [Int.toNat_of_nonneg hnonneg]
  exact hlt

theorem foldl_signed (w : Nat) (es : List Nat) (a : Int) : es.foldl (fun (a : Int) e => a + signedOf w e) a = a + (es.map (signedOf w)).sum := by
  induction es generalizing a with
  | nil => simp
  | cons e es ih => rw [List.foldl_cons, ih, List.map_cons, List.sum_cons, Int.add_assoc]

theorem foldl_or_iovf (os : List (Nat × SumSt)) (a : SumSt) :
    (os.foldl (fun a o => a.or o.2) a).iovf = true ↔ a.iovf = true ∨ ∃ o ∈ os, o.2.iovf = true := by
  induction os generalizing a with
  | nil => simp
  | cons o os ih =>
    rw [List.foldl_cons, ih]
    simp [SumSt.or, or_assoc]

theorem foldl_or_empty {os : List (Nat × SumSt)} (h : ∀ o ∈ os, o.2 = {}) : os.foldl (fun a o => a.or o.2) ({} : SumSt) = {} := by
  induction os with
  | nil => rfl
  | cons o os ih =>
    obtain ⟨ho, hos⟩ := List.forall_mem_cons.mp h
    rw [List.foldl_cons, ho]
    exact ih hos

/-! ### The formats (R153 to R155) -/

theorem sum_int32 (bs : List Beat) {i : Nat} (hi : i < 64) :
    beatElem 4 (beatSum 1 bs).1 i = toTwos 32 ((bs.map (fun b => signedOf 32 (beatElem 4 b i))).sum) := by
  have h := beatElem_beatSum 1 bs (i := i) hi
  have hsum : (sumElem 1 (bs.map (fun b => beatElem 4 b i))).1 = toTwos 32 ((bs.map (fun b => signedOf 32 (beatElem 4 b i))).sum) := by
    simp only [sumElem, foldl_signed, Int.zero_add, List.map_map]
    rfl
  refine h.trans ?_
  change (sumElem 1 (bs.map (fun b => beatElem 4 b i))).1 % 2 ^ 32 = _
  rw [hsum, toTwos_mod]

theorem sum_afx128 (bs : List Beat) {i : Nat} (hi : i < 16) :
    beatElem 16 (beatSum 3 bs).1 i = toTwos 128 ((bs.map (fun b => signedOf 128 (beatElem 16 b i))).sum) := by
  have h := beatElem_beatSum 3 bs (i := i) hi
  have hsum : (sumElem 3 (bs.map (fun b => beatElem 16 b i))).1 = toTwos 128 ((bs.map (fun b => signedOf 128 (beatElem 16 b i))).sum) := by
    simp only [sumElem, foldl_signed, Int.zero_add, List.map_map]
    rfl
  refine h.trans ?_
  change (sumElem 3 (bs.map (fun b => beatElem 16 b i))).1 % 2 ^ 128 = _
  rw [hsum, toTwos_mod]

theorem sum_int32_iovf (bs : List Beat) : (beatSum 1 bs).2.iovf = true ↔ ∃ i < 64,
    (bs.map (fun b => signedOf 32 (beatElem 4 b i))).sum < -2 ^ 31 ∨ 2 ^ 31 ≤ (bs.map (fun b => signedOf 32 (beatElem 4 b i))).sum := by
  have hone (i : Nat) : (sumElem 1 (bs.map (fun b => beatElem 4 b i))).2.iovf = true ↔
      (bs.map (fun b => signedOf 32 (beatElem 4 b i))).sum < -2 ^ 31 ∨ 2 ^ 31 ≤ (bs.map (fun b => signedOf 32 (beatElem 4 b i))).sum := by
    simp only [sumElem, foldl_signed, Int.zero_add, List.map_map, Bool.or_eq_true, decide_eq_true_eq]
    rfl
  rw [beatSum_eq]
  dsimp only
  rw [foldl_or_iovf]
  simp only [← hone]
  simp [sumWidth]

theorem sum_afx128_silent (bs : List Beat) : (beatSum 3 bs).2 = {} := by
  rw [beatSum_eq]
  refine foldl_or_empty fun o ho => ?_
  obtain ⟨i, -, rfl⟩ := List.mem_map.mp ho
  rfl

/-- A chain of FP32 additions keeps 32 bits, and takes the operands in their order. -/
theorem fpChain_eq (es : List Nat) {acc : Nat} (h : acc < 2 ^ 32) : (fpChain acc es).1 =
    es.foldl (fun acc x => (encodeVal .fp32 0 .rne (Val.sum [valFp32 acc, valFp32 x]).1).1) acc ∧ (fpChain acc es).1 < 2 ^ 32 := by
  induction es generalizing acc with
  | nil => exact ⟨rfl, h⟩
  | cons e es ih => exact ih (encodeVal_fp32_lt _)

theorem sum_fp32 (b : Beat) (rest : List Beat) {i : Nat} (hi : i < 64) : beatElem 4 (beatSum 2 (b :: rest)).1 i =
    rest.foldl (fun acc x => (encodeVal .fp32 0 .rne (Val.sum [valFp32 acc, valFp32 (beatElem 4 x i)]).1).1) (beatElem 4 b i) := by
  obtain ⟨hchain, hlt⟩ := fpChain_eq (rest.map (fun x => beatElem 4 x i)) (beatElem_lt 4 b i)
  refine (beatElem_beatSum 2 (b :: rest) (i := i) hi).trans ?_
  change (fpChain (beatElem 4 b i) (rest.map (fun x => beatElem 4 x i))).1 % 2 ^ 32 = _
  rw [Nat.mod_eq_of_lt hlt, hchain, List.foldl_map]

end Sys2Proof.Proofs
end

section
/-!
PROOFS. Launch aborts and route faults (O32): what an abort leaves of every core and cluster of its partition (R390), and what a route
fault leaves (R157).
-/
namespace Sys2Proof.Proofs
open Sys2Proof Sys2Proof.Machine Sys2Proof.Stated Sys2Proof.Laws

/-! ### Units changed where they lie in a partition -/

/-- A map whose values are changed under some keys, where the change leaves the default as it is. -/
theorem mget_map_if_eq {α : Type} {c : Nat → Prop} [DecidablePred c] {f : Nat → α → α} {d : α} {k : Nat} (hd : f k d = d) (m : List (Nat × α)) :
    mget d (m.map (fun e => if c e.1 then (e.1, f e.1 e.2) else e)) k = if c k then f k (mget d m k) else mget d m k := by
  induction m with
  | nil => simp [mget, hd]
  | cons e m ih =>
    rw [List.map_cons]
    by_cases he : e.1 = k
    · subst he
      by_cases hc : c e.1 <;> simp [mget, hc]
    · have hne : ((if c e.1 then (e.1, f e.1 e.2) else e) : Nat × α).1 ≠ k := by split <;> exact he
      rw [mget, if_neg hne, ih, mget, if_neg he]

theorem mapPartCores_core {f : Nat → Core → Core} {s : State} {p k : Nat} (hd : f k (Core.atReset k) = Core.atReset k) :
    (s.mapPartCores p f).core k = if s.partOfCore k = some p then f k (s.core k) else s.core k :=
  mget_map_if_eq (c := fun k => s.partOfCore k = some p) hd _

theorem mapPartClusters_cluster {f : Cluster → Cluster} {s : State} {p c : Nat} (hd : f {} = {}) :
    (s.mapPartClusters p f).cluster c = if s.partOfCluster c = some p then f (s.cluster c) else s.cluster c :=
  mget_map_if_eq (c := fun k => s.partOfCluster k = some p) (f := fun _ => f) hd _

theorem partOfCore_of_parts {s t : State} (h : t.parts = s.parts) (k : Nat) : t.partOfCore k = s.partOfCore k := by
  simp only [State.partOfCore, State.partOfCluster, State.part, h]

theorem partOfCluster_of_parts {s t : State} (h : t.parts = s.parts) (c : Nat) : t.partOfCluster c = s.partOfCluster c := by
  simp only [State.partOfCluster, State.part, h]

/-! ### A launch abort (R390) -/

theorem stop_reset (k : Nat) : (Core.atReset k).stop = Core.atReset k := by
  unfold Core.atReset
  split <;> rfl

theorem stop_issues (c : Core) : c.stop.issues = false := by
  have hrun : c.stop.run ≠ .running := by
    change (match c.run with | .running | .parked => RunSt.stopped | r => r) ≠ .running
    cases c.run <;> decide
  simp [Core.issues, hrun]

theorem stop_buf (c : Core) (d : MeshLink) : c.stop.rt.buf d = [] := by cases d <;> rfl

theorem halt_chan (x : Cluster) (n : Nat) : (x.halt.dma.chan n).lists = [] ∧ (x.halt.dma.chan n).descs = [] := by
  have hset : mget ({} : DmaChan) (x.dma.chans.map (fun e => if True then (e.1, e.2.halt) else e)) n
      = if True then (mget ({} : DmaChan) x.dma.chans n).halt else mget ({} : DmaChan) x.dma.chans n :=
    mget_map_if_eq (c := fun _ => True) (f := fun _ => DmaChan.halt) rfl _
  simp only [if_true] at hset
  change (mget ({} : DmaChan) (x.dma.chans.map (fun e => (e.1, e.2.halt))) n).lists = [] ∧ (mget ({} : DmaChan) (x.dma.chans.map (fun e => (e.1, e.2.halt))) n).descs = []
  rw [hset]
  exact ⟨rfl, rfl⟩

theorem halt_eng (x : Cluster) (e : Nat) : (x.halt.eng e).queue = [] := by
  unfold Cluster.eng
  split <;> rfl

/-- The partition's launch is aborted from s to t. -/
structure Aborted (s t : State) (p : Nat) (a : Abort) : Prop where
  frame : t = { s with cores := t.cores, clusters := t.clusters, parts := t.parts }
  abort : (t.part p).abort = some a
  core : ∀ k, t.core k = if s.partOfCore k = some p then (s.core k).stop else s.core k
  cluster : ∀ c, t.cluster c = if s.partOfCluster c = some p then (s.cluster c).halt else s.cluster c

theorem aborted_abortLaunch {s : State} {p : Nat} (h : Launched s p) (a : Abort) : Aborted s (s.abortLaunch p a) p a := by
  obtain ⟨⟨l, hl, hcom⟩, hab⟩ := h
  have heq : s.abortLaunch p a
      = ((s.setPart p { s.part p with abort := some a }).mapPartCores p (fun _ c => c.stop)).mapPartClusters p Cluster.halt := by
    unfold State.abortLaunch
    simp only [hl, hcom, hab]
    rfl
  have hreach : SameReach s (s.setPart p { s.part p with abort := some a }) :=
    ⟨fun j => by
      rw [setPart_part]
      split
      · next hj => subst hj; exact ⟨rfl, rfl, rfl, rfl⟩
      · exact ⟨rfl, rfl, rfl, rfl⟩, List.Subset.refl _, List.Subset.refl _⟩
  rw [heq]
  refine ⟨rfl, ?_, fun k => ?_, fun c => ?_⟩
  · change ((s.setPart p { s.part p with abort := some a }).part p).abort = some a
    rw [setPart_part, if_pos rfl]
  · change ((s.setPart p { s.part p with abort := some a }).mapPartCores p (fun _ c => c.stop)).core k = _
    rw [mapPartCores_core (stop_reset k), hreach.partOfCore]
    rfl
  · rw [mapPartClusters_cluster rfl]
    change (if (s.setPart p { s.part p with abort := some a }).partOfCluster c = some p then _ else _) = _
    have hpart : (s.setPart p { s.part p with abort := some a }).partOfCluster c = s.partOfCluster c := hreach.ownerOf (.clReg c 0)
    rw [hpart]
    rfl

/-- A partition's units after an abort, as seen from a state with the same partitions. -/
theorem Aborted.aborts {s u t : State} {p : Nat} {a : Abort} (h : Aborted u t p a) (hparts : u.parts = s.parts) : Aborts s t p a := by
  refine ⟨h.abort, fun k hk => ?_, fun c hc => ?_⟩
  · have hcore : t.core k = (u.core k).stop := by rw [h.core, if_pos ((partOfCore_of_parts hparts k).trans hk)]
    rw [hcore]
    exact ⟨stop_issues _, rfl, rfl, rfl, rfl, rfl, stop_buf _⟩
  · have hcluster : t.cluster c = (u.cluster c).halt := by rw [h.cluster, if_pos ((partOfCluster_of_parts hparts c).trans hc)]
    rw [hcluster]
    exact ⟨rfl, halt_chan _, fun e _ _ => halt_eng _ e⟩

theorem launched_of_parts {s u : State} {p : Nat} (hparts : u.parts = s.parts) (h : Launched s p) : Launched u p := by
  have hpart : u.part p = s.part p := by rw [State.part, hparts]; rfl
  unfold Launched at h ⊢
  rwa [hpart]

/-! ### A route fault (R157) -/

/-- The router that a route fault stops. -/
def faulted (r : Router) (cause port : Nat) : Router :=
  { r with run := false, wait := false, flt := true, fault := { cause := cause, port := port, widx := r.widx, beat := r.beat } }

/-- A route fault of a core in a launched partition, from u, whose partitions are those of s. -/
theorem routeFault_aborts {s u : State} {k p : Nat} (hparts : u.parts = s.parts) (hp : s.partOfCore k = some p) (hl : Launched s p)
    (cause port : Nat) (det : Option Detection) :
    let t := u.routeFault k cause port det
    Aborts s t p { cause := 1, sub := cause, hw := det.isSome }
      ∧ t.core k = ({ u.core k with rt := faulted (u.core k).rt cause port } : Core).stop
      ∧ t.mem = u.mem ∧ t.detections = u.detections ++ det.toList := by
  have hstate (v : State) (hv : v.parts = u.parts) (hcore : v.core k = { u.core k with rt := faulted (u.core k).rt cause port }) (a : Abort) :
      Aborts s (v.abortCore k a) p a ∧ (v.abortCore k a).core k = ({ u.core k with rt := faulted (u.core k).rt cause port } : Core).stop
        ∧ (v.abortCore k a).mem = v.mem ∧ (v.abortCore k a).detections = v.detections := by
    have hparts' : v.parts = s.parts := hv.trans hparts
    have hpv : v.partOfCore k = some p := (partOfCore_of_parts hparts' k).trans hp
    have habort := aborted_abortLaunch (launched_of_parts hparts' hl) a
    have heq : v.abortCore k a = v.abortLaunch p a := by rw [State.abortCore, hpv]
    rw [heq]
    refine ⟨habort.aborts hparts', ?_, ?_, ?_⟩
    · rw [habort.core, if_pos hpv, hcore]
    · rw [habort.frame]
    · rw [habort.frame]
  have hrt : (u.modRt k (fun r => faulted r cause port)).core k = { u.core k with rt := faulted (u.core k).rt cause port } := by
    rw [State.modRt, modCore_core, if_pos rfl]
  cases det with
  | none =>
    obtain ⟨haborts, hcore, hmem, hdet⟩ := hstate (u.modRt k (fun r => faulted r cause port)) rfl hrt { cause := 1, sub := cause, hw := false }
    exact ⟨haborts, hcore, hmem, by rw [Option.toList_none, List.append_nil]; exact hdet⟩
  | some d =>
    exact hstate ((u.modRt k (fun r => faulted r cause port)).detect d) rfl hrt { cause := 1, sub := cause, hw := true }

end Sys2Proof.Proofs
end

section
/-!
PROOFS. Router windows (O32): when a router works and a window starts and ends, and how the router goes on from word to word (R145,
R148, R149, R152).
-/
namespace Sys2Proof.Proofs
open Sys2Proof Sys2Proof.Machine Sys2Proof.Stated Sys2Proof.Laws

/-! ### A router that works (R148, R157) -/

theorem routes_iff {s : State} {k : Nat} : s.routes k = true ↔ RouterWorks s k := by
  unfold State.routes RouterWorks
  cases s.partOfCore k <;> simp [Core.routes, and_assoc]

theorem routes_of_works {s : State} {k : Nat} (h : RouterWorks s k) : s.routes k = true := routes_iff.mpr h

/-- A router that does not work moves nothing. -/
theorem idle_router {k : CoreId} {s : State} (h : ¬RouterWorks s k.val) (e : Ecc) (x : List (MeshLink × Ecc)) :
    exec (.routeWindowStart k) s = .next s ∧ exec (.routeBeat k e x) s = .next s ∧ exec (.routeWindowEnd k) s = .next s
      ∧ exec (.stall k) s = .next s := by
  have hidle : s.routes k.val = false := by rw [← Bool.not_eq_true, routes_iff]; exact h
  refine ⟨?_, ?_, ?_, ?_⟩
  · change execRouteWindowStart k s = _
    simp [execRouteWindowStart, hidle]
  · change execRouteBeat k e x s = _
    unfold execRouteBeat
    dsimp only
    split
    · rw [if_pos (by simp [hidle])]
    · rfl
  · change execRouteWindowEnd k s = _
    unfold execRouteWindowEnd
    dsimp only
    split
    · rw [if_pos (by simp [hidle])]
    · rfl
  · change execStall k s = _
    unfold execStall
    dsimp only
    split
    · rw [if_pos (by simp [hidle])]
    · rfl

/-! ### Windows -/

section
variable {k : CoreId} {w : Fwd} {s : State} (hw : AtWindow s k w)
include hw

theorem exec_windowStart (hrun : (s.core k.val).rt.run = false) : exec (.routeWindowStart k) s =
    if w.waiten && !(s.core k.val).flg.f.getLsbD w.waitf then .next (s.modRt k.val (fun r => { r with wait := true }))
    else .next ((if w.waitclr then s.flagPut (.bin k.val w.waitf) false else s).modRt k.val
      (fun r => { r with run := true, wait := false, beat := 0, rejected := false })) := by
  obtain ⟨-, hworks, hword⟩ := hw
  change execRouteWindowStart k s = _
  unfold execRouteWindowStart
  simp only [routes_of_works hworks, hrun, hword]
  rfl

omit hw in
theorem exec_windowStart_running (hrun : (s.core k.val).rt.run = true) : exec (.routeWindowStart k) s = .next s := by
  change execRouteWindowStart k s = _
  simp [execRouteWindowStart, hrun]

theorem exec_windowEnd : exec (.routeWindowEnd k) s =
    if (s.core k.val).rt.run = false ∨ (w.moves = true ∧ (s.core k.val).rt.beat < w.beats) then .next s
    else .next ((if w.doneen && !(s.core k.val).rt.rejected then s.flagSend
        { target := if w.donek then .cnt k.val (w.donef % 16) else .bin k.val w.donef,
          act := if w.donek then .inc else .set, source := k.val, rank := routerRank, origin := none } else s).modCore k.val
      (fun c => c.routeSettle (c.rt.widx + 1) routeFuel)) := by
  obtain ⟨-, hworks, hword⟩ := hw
  change execRouteWindowEnd k s = _
  unfold execRouteWindowEnd
  simp only [routes_of_works hworks, hword]
  refine if_congr ?_ rfl rfl
  simp

end

theorem fireWatch_rt (c : Core) : c.fireWatch.rt = c.rt := by unfold Core.fireWatch; split <;> rfl

theorem fireWatch_f (c : Core) : c.fireWatch.flg.f = c.flg.f := by unfold Core.fireWatch; split <;> rfl

theorem setBit_clears (f : Word) (b : Nat) {i : Nat} (hi : i < 64) : (Word.setBit f b false).getLsbD i = (f.getLsbD i && !decide (i = b)) := by
  change (f &&& ~~~(BitVec.ofNat 64 (2 ^ b))).getLsbD i = _
  rw [BitVec.getLsbD_and, BitVec.getLsbD_not, BitVec.getLsbD_ofNat, Nat.testBit_two_pow]
  simp [hi, eq_comm]

/-- A window's start clears its flag where WAITCLR asks, and leaves its router. -/
theorem flagPut_bin (s : State) (k f : Nat) : ((s.flagPut (.bin k f) false).core k).rt = (s.core k).rt
    ∧ ∀ i < 64, ((s.flagPut (.bin k f) false).core k).flg.f.getLsbD i = ((s.core k).flg.f.getLsbD i && !decide (i = f)) := by
  simp only [State.flagPut, modCore_core, if_true, fireWatch_rt, fireWatch_f]
  exact ⟨trivial, fun i hi => setBit_clears _ _ hi⟩

/-! ### From word to word (R145, R149) -/

theorem routeSettle_fwd {c : Core} {i n : Nat} {v : Fwd} (h : c.rt.word i = .fwd v) : c.routeSettle i (n + 1) =
    { c with rt := { c.rt with widx := i, beat := 0, run := false, wait := v.waiten && !c.flg.f.getLsbD v.waitf } } := by
  rw [Core.routeSettle, h]

theorem routeSettle_stop {c : Core} {i n : Nat} (h : c.rt.word i = .stop) : c.routeSettle i (n + 1) =
    { c with rt := { c.rt with widx := i, beat := 0, run := false, wait := false, ended := true }, ipend := c.ipend ||| 8 } := by
  rw [Core.routeSettle, h]

theorem routeSettle_loop {c : Core} {i n back cnt : Nat} (h : c.rt.word i = .loop back cnt) :
    let v := ((c.rt.loops.find? (fun e => e.1 == i)).map (·.2)).getD cnt
    c.routeSettle i (n + 1) = (if v = 0
      then ({ c with rt := { c.rt with loops := mdrop c.rt.loops i } } : Core).routeSettle (i + 1) n
      else ({ c with rt := { c.rt with loops := mput c.rt.loops i (v - 1) } } : Core).routeSettle (i - back) n) := by
  dsimp only
  rw [Core.routeSettle, h]

/-! ### The clauses on windows -/

section
variable {k : CoreId} {w : Fwd} {s : State} (hw : AtWindow s k w)
include hw

theorem windowStart_starts (hrun : (s.core k.val).rt.run = false) (hflag : w.waiten = true → (s.core k.val).flg.f.getLsbD w.waitf = true) :
    ∃ t, exec (.routeWindowStart k) s = .next t
      ∧ (t.core k.val).rt = { (s.core k.val).rt with run := true, wait := false, beat := 0, rejected := false }
      ∧ ∀ i < 64, (t.core k.val).flg.f.getLsbD i = ((s.core k.val).flg.f.getLsbD i && !(w.waitclr && decide (i = w.waitf))) := by
  refine ⟨_, (exec_windowStart hw hrun).trans (if_neg ?_), ?_, fun i hi => ?_⟩
  · simpa using hflag
  · rw [State.modRt, modCore_core, if_pos rfl]
    cases hclr : w.waitclr with
    | false => rfl
    | true =>
      rw [if_pos rfl]
      simp only [(flagPut_bin s k.val w.waitf).1]
  · rw [State.modRt, modCore_core, if_pos rfl]
    cases hclr : w.waitclr with
    | false =>
      rw [Bool.false_and, Bool.not_false, Bool.and_true]
      rfl
    | true =>
      rw [Bool.true_and, if_pos rfl]
      exact (flagPut_bin s k.val w.waitf).2 i hi

theorem windowStart_waits (hrun : (s.core k.val).rt.run = false) (hwait : w.waiten = true) (hflag : (s.core k.val).flg.f.getLsbD w.waitf = false) :
    ∃ t, exec (.routeWindowStart k) s = .next t
      ∧ t.core k.val = { s.core k.val with rt := { (s.core k.val).rt with wait := true } } ∧ t.mem = s.mem := by
  refine ⟨_, (exec_windowStart hw hrun).trans (if_pos ?_), ?_, rfl⟩
  · rw [hwait, hflag]
    rfl
  · rw [State.modRt, modCore_core, if_pos rfl]

/-- A window's end as the router leaves it: its DONE action is under way. -/
theorem windowEnd_ends (hrun : (s.core k.val).rt.run = true) (hdone : w.moves = true → w.beats ≤ (s.core k.val).rt.beat) :
    ∃ t, exec (.routeWindowEnd k) s = .next t
      ∧ t.flight = s.flight ++ (if w.doneen && !(s.core k.val).rt.rejected then
          [{ target := if w.donek then .cnt k.val (w.donef % 16) else .bin k.val w.donef,
             act := if w.donek then .inc else .set, source := k.val, rank := routerRank, origin := none }] else [])
      ∧ t.core k.val = (s.core k.val).routeSettle ((s.core k.val).rt.widx + 1) routeFuel := by
  refine ⟨_, (exec_windowEnd hw).trans (if_neg ?_), ?_, ?_⟩
  · rintro (hidle | ⟨hmoves, hlt⟩)
    · rw [hrun] at hidle
      cases hidle
    · exact Nat.not_le.mpr hlt (hdone hmoves)
  · split
    · rfl
    · rw [List.append_nil]
      rfl
  · rw [modCore_core, if_pos rfl]
    split <;> rfl

end

/-- A router that stands at no window goes on from its word. -/
theorem windowStart_settles {k : CoreId} {s : State} (hworks : RouterWorks s k.val) (hrun : (s.core k.val).rt.run = false)
    (hword : ∀ w, (s.core k.val).rt.word (s.core k.val).rt.widx ≠ .fwd w) :
    ∃ t, exec (.routeWindowStart k) s = .next t ∧ t.core k.val = (s.core k.val).routeSettle (s.core k.val).rt.widx routeFuel := by
  refine ⟨s.modCore k.val (fun c => c.routeSettle c.rt.widx routeFuel), ?_, ?_⟩
  · change execRouteWindowStart k s = _
    unfold execRouteWindowStart
    simp only [routes_of_works hworks, hrun]
    cases hc : (s.core k.val).rt.word (s.core k.val).rt.widx with
    | fwd w => exact absurd hc (hword w)
    | _ => rfl
  · rw [modCore_core, if_pos rfl]

end Sys2Proof.Proofs
end

section
/-!
PROOFS. Beats (O32): where a stream's beat lies (R150), what the read and the delivery of a beat leave (R128, R136, R151), and what reaches
the neighbours (R143, R148, R158).
-/
namespace Sys2Proof.Proofs
open Sys2Proof Sys2Proof.Machine Sys2Proof.Stated Sys2Proof.Laws

/-! ### Streams (R128, R136, R150) -/

/-- The group where a stream's beat begins (R150). -/
def streamGroup (e : Word) (b : Nat) : Int :=
  let len := e.toNat / 2 ^ 32 % 2 ^ 16
  let i := if len = 0 then b else b % len
  (e.toNat % 2 ^ 16 : Nat) + i * signedOf 16 (e.toNat / 2 ^ 16)

theorem streamBeat_eq {e : Word} {b off : Nat} :
    StreamBeat e b off ↔ 0 ≤ streamGroup e b ∧ streamGroup e b ≤ 65520 ∧ off = (streamGroup e b).toNat * 16 := Iff.rfl

theorem streamOff_eq (e : Word) (b : Nat) : streamOff e b =
    if 0 ≤ streamGroup e b ∧ streamGroup e b + 15 ≤ 65535 then some ((streamGroup e b).toNat * 16) else none := by
  have hsigned : signedOf 16 (e.toNat / 2 ^ 16 % 2 ^ 16) = signedOf 16 (e.toNat / 2 ^ 16) := by simp [signedOf]
  have hlen : field e 47 32 = e.toNat / 2 ^ 32 % 2 ^ 16 := field_eq_div ..
  have hlow : field e 15 0 = e.toNat % 2 ^ 16 := by rw [field_eq_div, Nat.pow_zero, Nat.div_one]
  have hmid : signedOf 16 (field e 31 16) = signedOf 16 (e.toNat / 2 ^ 16) := by rw [field_eq_div]; exact hsigned
  unfold streamOff streamGroup
  simp only [hlen, hlow, hmid]

theorem streamOff_iff {e : Word} {b off : Nat} : streamOff e b = some off ↔ StreamBeat e b off := by
  rw [streamOff_eq, streamBeat_eq]
  generalize streamGroup e b = g
  split
  · rw [Option.some.injEq]
    constructor
    · rintro rfl
      exact ⟨by omega, by omega, rfl⟩
    · exact fun h => h.2.2.symm
  · refine iff_of_false (fun h => by cases h) fun h => ?_
    omega

theorem streamOff_none_iff {e : Word} {b : Nat} : streamOff e b = none ↔ ∀ off, ¬StreamBeat e b off := by
  rw [Option.eq_none_iff_forall_not_mem]
  exact forall_congr' fun off => not_congr streamOff_iff

/-- A stream's beat is aligned and lies in the scratchpad. -/
theorem streamBeat_bounds {e : Word} {b off : Nat} (h : StreamBeat e b off) : off % 16 = 0 ∧ off + 256 ≤ 0x100000 := by
  rw [streamBeat_eq] at h
  omega

theorem beatBarred_iff {s : State} {k off : Nat} : (s.core k).beatBarred off = false ↔ BeatOpen s k off := by
  simp [Core.beatBarred, BeatOpen]

/-- The bytes of a beat in a core's scratchpad. -/
def beatBytes (k off : Nat) : List Nat := rangeFrom (spadAddr k off) 256

theorem placeOf_beatBytes {k off a : Nat} (hk : k < 768) (ho : off + 256 ≤ 0x100000) (ha : a ∈ beatBytes k off) : ∃ o, placeOf a = .spad k o := by
  obtain ⟨hlo, hhi⟩ := mem_rangeFrom.mp ha
  obtain ⟨j, rfl⟩ := Nat.exists_eq_add_of_le hlo
  exact ⟨_, placeOf_spad_add (placeOf_spad_iff.mpr ⟨rfl, hk, by omega⟩) (by omega)⟩

theorem beatSound_iff {s : State} {k off : Nat} : BeatSound s k off ↔ ∀ a ∈ beatBytes k off, s.holdsError a = false := by
  constructor
  · intro h a ha
    obtain ⟨hlo, hhi⟩ := mem_rangeFrom.mp ha
    obtain ⟨j, rfl⟩ := Nat.exists_eq_add_of_le hlo
    exact h j (by omega)
  · exact fun h j hj => h _ (mem_rangeFrom.mpr ⟨Nat.le_add_right _ _, by omega⟩)

/-! ### The inject read -/

/-- From s to t at most a corrected entry of a scratchpad is counted. -/
structure BeatRead (s t : State) : Prop where
  counted : Counted s t
  detections : t.detections = s.detections
  parts : t.parts = s.parts
  rt : ∀ j, (t.core j).rt = (s.core j).rt

theorem BeatRead.refl (s : State) : BeatRead s s := ⟨.refl s, rfl, rfl, fun _ => rfl⟩

theorem beatRead_of_counted {s t : State} (h : Counted s t) (hd : t.detections = s.detections) : BeatRead s t :=
  ⟨h, hd, by rw [h.frame], fun j => by rw [h.core j]⟩

/-- A read of a scratchpad that succeeds detects nothing. -/
theorem eccRead_spad_detections {s : State} {a k o : Nat} (hp : placeOf a = .spad k o) (herr : s.holdsError a = false) {h : Ecc}
    (hne : h ≠ .uncorrectable) (m : Nat) : (s.eccRead a m h).1.detections = s.detections := by
  rw [eccRead_spad hp, if_neg (by simp [hne, herr])]
  split <;> rfl

/-- A read of an entry of a scratchpad that holds an error fails. -/
theorem eccRead_spad_lost {s : State} {a k o : Nat} (hp : placeOf a = .spad k o) (herr : s.holdsError a = true) (m : Nat) :
    s.eccRead a m .clean = (s.spUncorrectable k o m, false) := by
  simp [State.eccRead, hp, herr]

theorem beatBytes_cons (k off : Nat) : ∃ as, beatBytes k off = spadAddr k off :: as := by
  refine ⟨(List.range 255).map (fun i => spadAddr k off + (i + 1)), ?_⟩
  rw [beatBytes, rangeFrom, List.range_succ_eq_map, List.map_cons, List.map_map]
  rfl

theorem find?_beatBytes {s : State} {k off : Nat} (h : BeatSound s k off) : (beatBytes k off).find? s.holdsError = none :=
  List.find?_eq_none.mpr fun a ha => by simp [beatSound_iff.mp h a ha]

section
variable {s : State} {k off : Nat} {h : Ecc} (hk : k < 768) (ho : off + 256 ≤ 0x100000) (m : Nat)
include hk ho

/-- An inject read of a sound beat. -/
theorem beatRead_eccSpan (hsound : BeatSound s k off) (hne : h ≠ .uncorrectable) :
    (s.eccSpan (beatBytes k off) m h).2 = true ∧ BeatRead s (s.eccSpan (beatBytes k off) m h).1 := by
  have hp : placeOf (spadAddr k off) = .spad k off := placeOf_spad_iff.mpr ⟨rfl, hk, by omega⟩
  have herr : s.holdsError (spadAddr k off) = false := hsound 0 (by decide)
  have hspan : s.eccSpan (beatBytes k off) m h = s.eccRead (spadAddr k off) m h := by
    have hfind := find?_beatBytes hsound
    obtain ⟨as, has⟩ := beatBytes_cons k off
    rw [has] at hfind ⊢
    rw [State.eccSpan, if_neg hne, hfind]
  obtain ⟨hok, hcounted⟩ := counted_eccRead herr hne m
  rw [hspan]
  exact ⟨hok, beatRead_of_counted hcounted (eccRead_spad_detections hp herr hne m)⟩

/-- An inject read of a beat that cannot be corrected. -/
theorem eccSpan_beat_lost (hbad : h = .uncorrectable ∨ ¬BeatSound s k off) :
    ∃ o, s.eccSpan (beatBytes k off) m h = (s.spUncorrectable k o m, false) := by
  obtain ⟨as, has⟩ := beatBytes_cons k off
  by_cases hunc : h = .uncorrectable
  · have hp : placeOf (spadAddr k off) = .spad k off := placeOf_spad_iff.mpr ⟨rfl, hk, by omega⟩
    refine ⟨off, ?_⟩
    rw [has, State.eccSpan, if_pos hunc, hunc]
    exact eccRead_spad_uncorrectable hp s m
  · have hfind : (beatBytes k off).find? s.holdsError ≠ none := by
      intro hnone
      refine hbad.resolve_left hunc (beatSound_iff.mpr fun a ha => ?_)
      simpa using List.find?_eq_none.mp hnone a ha
    obtain ⟨x, hx⟩ := Option.ne_none_iff_exists'.mp hfind
    obtain ⟨o, hp⟩ := placeOf_beatBytes hk ho (List.mem_of_find?_eq_some hx)
    refine ⟨o, ?_⟩
    rw [has] at hx ⊢
    rw [State.eccSpan, if_neg hunc, hx]
    exact eccRead_spad_lost hp (List.find?_some hx) m

end

end Sys2Proof.Proofs
end

section
/-!
PROOFS. What a beat leaves (O32): the router's own part, the delivery into the scratchpad (R130, R151), and the beats that cross the links
to the neighbours (R143, R148, R158).
-/
namespace Sys2Proof.Proofs
open Sys2Proof Sys2Proof.Machine Sys2Proof.Stated Sys2Proof.Laws

/-! ### The router's own part -/

theorem setBuf_buf (r : Router) (d x : MeshLink) (b : List Beat) : (r.setBuf d b).buf x = if x = d then b else r.buf x := by
  cases d <;> cases x <;> rfl

theorem setBuf_ce (r : Router) (d : MeshLink) (b : List Beat) : (r.setBuf d b).ce = r.ce := by cases d <;> rfl

theorem setBuf_run (r : Router) (d : MeshLink) (b : List Beat) : (r.setBuf d b).run = r.run := by cases d <;> rfl

/-- The inputs of a beat, taken from their buffers. -/
def inputsTaken (r : Router) (w : Fwd) (ds : List MeshLink) : Router :=
  ds.foldl (fun r d => if w.uses (.link d) then r.setBuf d (r.buf d).tail else r) r

theorem inputsTaken_buf (w : Fwd) (d : MeshLink) {ds : List MeshLink} (hnd : ds.Nodup) (r : Router) :
    (inputsTaken r w ds).buf d = if d ∈ ds ∧ w.uses (.link d) = true then (r.buf d).tail else r.buf d := by
  induction ds generalizing r with
  | nil => simp [inputsTaken]
  | cons x ds ih =>
    obtain ⟨hx, hnd⟩ := List.nodup_cons.mp hnd
    rw [inputsTaken, List.foldl_cons, ← inputsTaken, ih hnd]
    by_cases hdx : d = x
    · subst hdx
      by_cases huse : w.uses (.link d) = true <;> simp [hx, huse, setBuf_buf]
    · by_cases huse : w.uses (.link x) = true <;> simp [hdx, huse, setBuf_buf]

theorem inputsTaken_run (w : Fwd) (ds : List MeshLink) (r : Router) : (inputsTaken r w ds).run = r.run := by
  refine List.foldlRecOn (motive := fun x : Router => x.run = r.run) _ _ rfl fun x hx d _ => ?_
  split
  · exact (setBuf_run _ _ _).trans hx
  · exact hx

section
variable (r : Router) (w : Fwd) (c : SumSt)

theorem took_buf (d : MeshLink) : (r.took w c).buf d = if w.uses (.link d) then (r.buf d).tail else r.buf d := by
  have hbuf := inputsTaken_buf w d (ds := [.n, .s, .e, .w]) (by decide) r
  have hd : d ∈ ([.n, .s, .e, .w] : List MeshLink) := by cases d <;> decide
  simp only [hd, true_and] at hbuf
  rw [← hbuf]
  cases d <;> rfl

theorem took_rest : (r.took w c).run = r.run ∧ (r.took w c).beat = r.beat + 1
    ∧ (w.uses .inject = true → mget 0 (r.took w c).injCur w.injs = mget 0 r.injCur w.injs + 1)
    ∧ (w.selD ≠ .none → mget 0 (r.took w c).dlvCur w.dlvs = mget 0 r.dlvCur w.dlvs + 1) := by
  refine ⟨?_, rfl, fun huse => ?_, fun hsel => ?_⟩
  · exact inputsTaken_run w [.n, .s, .e, .w] r
  · change mget 0 (if w.uses .inject then mput r.injCur w.injs (mget 0 r.injCur w.injs + 1) else r.injCur) w.injs = _
    rw [if_pos huse, mget_mput, if_pos rfl]
  · change mget 0 (if w.selD != .none then mput r.dlvCur w.dlvs (mget 0 r.dlvCur w.dlvs + 1) else r.dlvCur) w.dlvs = _
    rw [if_pos (bne_iff_ne.mpr hsel), mget_mput, if_pos rfl]

end

/-! ### Links to the neighbours -/

theorem neighbour_cases {k j : Nat} {d : Dir} (h : neighbour k d = some j) :
    d = .w ∧ 0 < k % 24 ∧ j + 1 = k ∨ d = .e ∧ k % 24 < 23 ∧ j = k + 1 ∨ d = .n ∧ 0 < k / 24 ∧ j + 24 = k ∨ d = .s ∧ k / 24 < 31 ∧ j = k + 24 := by
  cases d <;> (unfold neighbour coreCol coreRow at h; simp at h; simp; omega)

theorem neighbour_ne {k j : Nat} {d : Dir} (h : neighbour k d = some j) : j ≠ k := by
  have := neighbour_cases h
  omega

theorem neighbour_lt {k j : Nat} {d : Dir} (hk : k < 768) (h : neighbour k d = some j) : j < 768 := by
  have := neighbour_cases h
  omega

/-- Two links of a core lead to two cores. -/
theorem neighbour_link {k j : Nat} {d d' : MeshLink} (h : neighbour k (linkDir d) = some j) (g : neighbour k (linkDir d') = some j) : d = d' := by
  have hdir : linkDir d = linkDir d' := by
    rcases neighbour_cases h with ⟨hd, h⟩ | ⟨hd, h⟩ | ⟨hd, h⟩ | ⟨hd, h⟩ <;>
      rcases neighbour_cases g with ⟨hd', g⟩ | ⟨hd', g⟩ | ⟨hd', g⟩ | ⟨hd', g⟩ <;> first | exact hd.trans hd'.symm | omega
  cases d <;> cases d' <;> first | rfl | cases hdir

theorem meshPeer_some {s : State} {k j : Nat} {d : MeshLink} (h : s.meshPeer k d = some j) :
    neighbour k (linkDir d) = some j ∧ (∃ p, s.partOfCore j = some p) ∧ s.partOfCore j = s.partOfCore k := by
  unfold State.meshPeer at h
  cases hn : neighbour k (linkDir d) with
  | none => rw [hn] at h; cases h
  | some i =>
    simp only [hn] at h
    split at h
    · next hpart =>
      cases h
      simpa [Option.isSome_iff_exists] using hpart
    · cases h

theorem meshPeer_of_parts {s t : State} (h : t.parts = s.parts) (k : Nat) (d : MeshLink) : t.meshPeer k d = s.meshPeer k d := by
  unfold State.meshPeer
  simp only [partOfCore_of_parts h]

/-! ### A beat that crosses a link (R143) -/

/-- A neighbour's router that takes a beat over a link, n of whose units were corrected. -/
def beatTaken (d : MeshLink) (b : Beat) (n : Nat) (r : Router) : Router :=
  let r := { r with ce := satAdd 0xFF r.ce n }
  r.setBuf (linkFar d) (r.buf (linkFar d) ++ [b])

theorem beatTaken_buf (d : MeshLink) (b : Beat) (n : Nat) (r : Router) :
    (beatTaken d b n r).buf (linkFar d) = r.buf (linkFar d) ++ [b] ∧ (beatTaken d b n r).ce = min 0xFF (r.ce + n) := by
  unfold beatTaken
  dsimp only
  rw [setBuf_buf, if_pos rfl, setBuf_ce]
  exact ⟨congrArg (· ++ [b]) (by cases d <;> rfl), rfl⟩

/-- The corrected units of a beat. -/
def correctedUnits (es : List Ecc) : Nat := (es.filter (fun e => e == .corrected)).length

/-- From s to t only routers change. -/
structure RoutersChanged (s t : State) : Prop where
  frame : t = { s with cores := t.cores }
  core : ∀ i, t.core i = { s.core i with rt := (t.core i).rt }

theorem RoutersChanged.refl (s : State) : RoutersChanged s s := ⟨rfl, fun _ => rfl⟩

theorem RoutersChanged.trans {s t u : State} (h : RoutersChanged s t) (g : RoutersChanged t u) : RoutersChanged s u :=
  ⟨by rw [g.frame, h.frame], fun i => by rw [g.core i, h.core i]⟩

theorem routersChanged_modRt (s : State) (k : Nat) (f : Router → Router) : RoutersChanged s (s.modRt k f) := by
  refine ⟨rfl, fun i => ?_⟩
  rw [State.modRt, modCore_core]
  split
  · next h => rw [h]
  · rfl

theorem modRt_rt (s : State) (k : Nat) (f : Router → Router) (i : Nat) :
    ((s.modRt k f).core i).rt = if i = k then f (s.core k).rt else (s.core i).rt := by
  rw [State.modRt, modCore_core]
  split <;> rfl

section
variable {s : State} {k j : Nat} {d : MeshLink} (hpeer : s.meshPeer k d = some j)
  (hgo : ∀ p, s.partOfCore k = some p → (s.part p).abort = none) (b : Beat)
include hpeer hgo

theorem sendBeat_eq (es : List Ecc) : s.sendBeat k d b es =
    if es.contains .uncorrectable then
      (s.modRt j (fun r => { r with ce := satAdd 0xFF r.ce (correctedUnits es) })).routeFault j 4 (linkPort (linkFar d))
        (some { source := 0x05, ukind := 1, unit := k, master := j, addr := 0 })
    else (s.modRt j (fun r => { r with ce := satAdd 0xFF r.ce (correctedUnits es) })).modRt j
      (fun r => r.setBuf (linkFar d) (r.buf (linkFar d) ++ [b])) := by
  obtain ⟨-, ⟨p, hp⟩, hk⟩ := meshPeer_some hpeer
  have habort : (s.part p).abort.isSome = false := by rw [hgo p (hk ▸ hp), Option.isSome_none]
  simp only [State.sendBeat, hpeer, hp, habort, Bool.false_eq_true, if_false]
  rfl

theorem sendBeat_taken {es : List Ecc} (hes : .uncorrectable ∉ es) : RoutersChanged s (s.sendBeat k d b es)
    ∧ ∀ i, ((s.sendBeat k d b es).core i).rt = if i = j then beatTaken d b (correctedUnits es) (s.core j).rt else (s.core i).rt := by
  rw [sendBeat_eq hpeer hgo, if_neg (by simpa using hes)]
  refine ⟨(routersChanged_modRt _ _ _).trans (routersChanged_modRt _ _ _), fun i => ?_⟩
  simp only [modRt_rt, if_true]
  split <;> rfl

end

/-! ### The beats of one window (R148) -/

/-- Every output of a window over its own link, with the beat it takes and what its units hold. -/
def sendAll (s : State) (k : Nat) (os : List (MeshLink × RSrc)) (b : RSrc → Beat) (es : MeshLink → List Ecc) : State :=
  os.foldl (fun s o => s.sendBeat k o.1 (b o.2) (es o.1)) s

theorem sendAll_taken {k : Nat} {os : List (MeshLink × RSrc)} {b : RSrc → Beat} {es : MeshLink → List Ecc} (hes : ∀ d, .uncorrectable ∉ es d)
    (hnd : (os.map Prod.fst).Nodup) {s : State} (hgo : ∀ p, s.partOfCore k = some p → (s.part p).abort = none)
    (hpeer : ∀ o ∈ os, ∃ j, s.meshPeer k o.1 = some j) :
    RoutersChanged s (sendAll s k os b es)
      ∧ (∀ o ∈ os, ∀ j, s.meshPeer k o.1 = some j →
          ((sendAll s k os b es).core j).rt = beatTaken o.1 (b o.2) (correctedUnits (es o.1)) (s.core j).rt)
      ∧ ∀ i, (∀ o ∈ os, s.meshPeer k o.1 ≠ some i) → ((sendAll s k os b es).core i).rt = (s.core i).rt := by
  induction os generalizing s with
  | nil => exact ⟨.refl s, fun o ho => absurd ho List.not_mem_nil, fun _ _ => rfl⟩
  | cons o os ih =>
    rw [List.map_cons, List.nodup_cons] at hnd
    obtain ⟨j, hj⟩ := hpeer o List.mem_cons_self
    obtain ⟨hframe, hrt⟩ := sendBeat_taken hj hgo (b o.2) (hes o.1)
    have hparts : (s.sendBeat k o.1 (b o.2) (es o.1)).parts = s.parts := by rw [hframe.frame]
    have hmesh (d : MeshLink) := meshPeer_of_parts hparts k d
    obtain ⟨hframe', htaken, hrest⟩ := ih hnd.2 (s := s.sendBeat k o.1 (b o.2) (es o.1))
      (fun p hp => by rw [State.part, hparts]; exact hgo p ((partOfCore_of_parts hparts k).symm.trans hp))
      (fun o' ho' => by rw [hmesh]; exact hpeer o' (List.mem_cons_of_mem _ ho'))
    simp only [hmesh] at htaken hrest
    have hother (i : Nat) (hi : i ≠ j) : ((s.sendBeat k o.1 (b o.2) (es o.1)).core i).rt = (s.core i).rt := by rw [hrt, if_neg hi]
    have hlater : ∀ o' ∈ os, s.meshPeer k o'.1 ≠ some j := fun o' ho' hsame =>
      hnd.1 (List.mem_map.mpr ⟨o', ho', neighbour_link (meshPeer_some hsame).1 (meshPeer_some hj).1⟩)
    refine ⟨hframe.trans hframe', fun o' ho' i hi => ?_, fun i hi => ?_⟩
    · rcases List.mem_cons.mp ho' with rfl | ho'
      · obtain rfl : j = i := Option.some.inj (hj.symm.trans hi)
        exact (hrest j hlater).trans (by rw [hrt, if_pos rfl])
      · exact (htaken o' ho' i hi).trans (by rw [hother i (fun h => hlater o' ho' (h ▸ hi))])
    · exact (hrest i fun o' ho' => hi o' (List.mem_cons_of_mem _ ho')).trans
        (hother i fun h => hi o List.mem_cons_self (h ▸ hj))

theorem outputs_nodup (w : Fwd) : (w.outputs.map Prod.fst).Nodup := by
  have hall : ([(.n, w.selN), (.s, w.selS), (.e, w.selE), (.w, w.selW)] : List (MeshLink × RSrc)).map Prod.fst = [.n, .s, .e, .w] := rfl
  exact (List.filter_sublist.map Prod.fst).nodup (hall ▸ by decide)

/-! ### A delivery (R130, R151) -/

/-- From s to t a beat's bytes are in place at an address; routers and partitions stay. -/
structure BeatPlaced (s t : State) (a : Nat) (b : Beat) : Prop where
  core : ∀ j, t.core j = s.core j
  part : ∀ j, t.partOfCore j = s.partOfCore j
  abort : ∀ p, (t.part p).abort = (s.part p).abort
  bytes : ∀ j < 256, t.getByte (a + j) = b.getD j 0
  outside : ∀ x, (x < a ∨ a + 256 ≤ x) → t.getByte x = s.getByte x

/-- The cells of an aligned span of whole entries cover them. -/
theorem coversGroup_of_aligned_span {a n : Nat} (ha : a % 16 = 0) (hn : n % 16 = 0) {bs : List Byte} (hlen : bs.length = n) :
    ∀ c ∈ (rangeFrom a n).zip bs, coversGroup ((rangeFrom a n).zip bs) 16 (c.1 / 16) = true := by
  intro c hc
  have hrange := mem_rangeFrom.mp (List.of_mem_zip (show (c.1, c.2) ∈ _ from hc)).1
  have hfst : ((rangeFrom a n).zip bs).map Prod.fst = rangeFrom a n := List.map_fst_zip (by simp [rangeFrom, hlen])
  refine List.all_eq_true.mpr fun i hi => ?_
  have hi := List.mem_range.mp hi
  have hmem : c.1 / 16 * 16 + i ∈ ((rangeFrom a n).zip bs).map Prod.fst := by
    rw [hfst, mem_rangeFrom]
    omega
  obtain ⟨d, hd, heq⟩ := List.mem_map.mp hmem
  exact List.any_eq_true.mpr ⟨d, hd, beq_iff_eq.mpr heq⟩

theorem placed_of_noLosses {s : State} {cs : List (Nat × Byte)} (h : s.writeLosses cs = []) (m : Nat) :
    (s.placeCells cs m).cores = s.cores ∧ (s.placeCells cs m).parts = (s.placeAt cs).parts := by
  have hall : cs.filter (fun e => !inLoss [] e.1) = cs := List.filter_eq_self.mpr (fun _ _ => rfl)
  unfold State.placeCells
  rw [h]
  dsimp only [List.foldl_nil]
  rw [hall]
  exact ⟨by rw [(placed_placeAt cs s).1], rfl⟩

/-- An aligned beat in a scratchpad is in place whole. -/
theorem beatPlaced_placeCells (s : State) {a k off : Nat} (hp : placeOf a = .spad k off) (ha : a % 16 = 0) {b : Beat} (hlen : b.length = 256) (m : Nat) :
    BeatPlaced s (s.placeCells ((rangeFrom a 256).zip b) m) a b := by
  have hmemEnd : memEnd ≤ a := memEnd_le_of_placeOf (by simp [hp])
  have hloss : s.writeLosses ((rangeFrom a 256).zip b) = [] := by
    refine writeLosses_of_covered (fun c hc => ?_) (coversGroup_of_aligned_span ha (by decide) hlen)
    exact hmemEnd.trans (mem_rangeFrom.mp (List.of_mem_zip (show (c.1, c.2) ∈ _ from hc)).1).1
  obtain ⟨hcores, hparts⟩ := placed_of_noLosses hloss m
  have hplaced := placed_placeAt ((rangeFrom a 256).zip b) s
  refine ⟨core_of_cores _ _ hcores, fun j => ?_, fun p => ?_, fun j hj => ?_, fun x hx => ?_⟩
  · rw [partOfCore_of_parts hparts, (sameReach_of_placed hplaced).partOfCore]
  · have hpart : (s.placeCells ((rangeFrom a 256).zip b) m).part p = (s.placeAt ((rangeFrom a 256).zip b)).part p := by
      rw [State.part, hparts, State.part]
    rw [hpart, hplaced.2 p]
  · rw [placeCells_getByte_of_noLosses hloss, ← getD_rangeFrom (a := a) hj]
    exact placeAt_zip_getByte (rangeFrom_nodup _ _) (by simp [rangeFrom, hlen]) s (by simpa [rangeFrom] using hj)
  · refine placeCells_outside s _ m fun c hc hcx => ?_
    have := mem_rangeFrom.mp (List.of_mem_zip (show (c.1, c.2) ∈ _ from hc)).1
    omega

end Sys2Proof.Proofs
end

section
/-!
PROOFS. A router's beat and the faults of a beat (O32): what ROUTE_BEAT does, stage by stage (R128, R136, R148, R151, R157).
-/
namespace Sys2Proof.Proofs
open Sys2Proof Sys2Proof.Machine Sys2Proof.Stated Sys2Proof.Laws

/-! ### The stages of a beat -/

/-- Where the inject stream of a window stands. -/
def injectAt (s : State) (k : Nat) (w : Fwd) : Option Nat := streamOff (mget 0 (s.core k).rt.inj w.injs) (mget 0 (s.core k).rt.injCur w.injs)

/-- Where the delivery stream of a window stands. -/
def deliverAt (s : State) (k : Nat) (w : Fwd) : Option Nat := streamOff (mget 0 (s.core k).rt.dlv w.dlvs) (mget 0 (s.core k).rt.dlvCur w.dlvs)

/-- The inject read of a beat. -/
def injectRead (s : State) (k : Nat) (w : Fwd) (h : Ecc) : State × Bool :=
  if w.uses .inject then s.eccSpan (beatBytes k ((injectAt s k w).getD 0)) k h else (s, true)

/-- The beat that the inject stream gives. -/
def injected (s : State) (k : Nat) (w : Fwd) (u : State) : Beat :=
  if w.uses .inject then u.getBytes (spadAddr k ((injectAt s k w).getD 0)) 256 else []

/-- The beat that the operands of a window sum to. -/
def summed (r : Router) (w : Fwd) (inj : Beat) : Beat × SumSt :=
  if w.sumfmt = 0 then ([], {}) else beatSum w.sumfmt (w.order.map (beatOf r inj []))

/-- The delivery of a beat after its inject read. -/
def beatDelivered (s : State) (k : Nat) (w : Fwd) (u : State) : Except (Option (Nat × Rej)) State :=
  if w.selD = .none then .ok u
  else u.deliver k ((deliverAt s k w).getD 0) w.deliverLink
    (beatOf (s.core k).rt (injected s k w u) (summed (s.core k).rt w (injected s k w u)).1 w.selD)

/-- What the far check of a link finds in the units of a beat. -/
def linkUnits (x : List (MeshLink × Ecc)) (d : MeshLink) : List Ecc := (x.filter (fun e => e.1 == d)).map (·.2)

/-- The state after a beat whose delivery is in place. -/
def beatSent (s : State) (k : Nat) (w : Fwd) (x : List (MeshLink × Ecc)) (u v : State) : State :=
  let inj := injected s k w u
  let sm := summed (s.core k).rt w inj
  sendAll (v.modRt k (fun r => r.took w sm.2)) k w.outputs (beatOf (s.core k).rt inj sm.1) (linkUnits x)

/-- The state after a beat whose delivery is rejected. -/
def beatRejected (s : State) (k : Nat) (w : Fwd) (u : State) (rej : Option (Nat × Rej)) : State :=
  ((match rej with
    | some (m, y) => u.windowReject k ((deliverAt s k w).getD 0) 256 m y
    | none => u).modRt k (fun r => { r with rejected := true })).routeFault k 1 portDeliver none

/-- A window that moves a beat. -/
def Moving (s : State) (k : Nat) (w : Fwd) : Prop :=
  (s.core k).rt.run = true ∧ w.moves = true ∧ (s.core k).rt.beat < w.beats ∧ s.beatReady k w = true

section
variable {k : CoreId} {w : Fwd} {s : State} (hw : AtWindow s k w) (hmove : Moving s k.val w) (h : Ecc) (x : List (MeshLink × Ecc))
include hw hmove

theorem exec_beat : exec (.routeBeat k h x) s =
    if w.uses .inject && (injectAt s k.val w).isNone then .next (s.routeFault k.val 2 portInject none)
    else if w.selD != .none && (deliverAt s k.val w).isNone then .next (s.routeFault k.val 2 portDeliver none)
    else if w.uses .inject && (s.core k.val).beatBarred ((injectAt s k.val w).getD 0) then .next (s.routeFault k.val 1 portInject none)
    else if !(injectRead s k.val w h).2 then .next ((injectRead s k.val w h).1.modRt k.val Router.stop)
    else match beatDelivered s k.val w (injectRead s k.val w h).1 with
      | .error rej => .next (beatRejected s k.val w (injectRead s k.val w h).1 rej)
      | .ok v => .next (beatSent s k.val w x (injectRead s k.val w h).1 v) := by
  obtain ⟨-, hworks, hword⟩ := hw
  obtain ⟨hrun, hmoves, hbeat, hready⟩ := hmove
  change execRouteBeat k h x s = _
  unfold execRouteBeat
  simp only [hword]
  rw [if_neg (by simp [routes_of_works hworks, hrun, hmoves, hbeat, hready])]
  rfl

/-- A beat whose streams lie in the scratchpad, and whose inject read is open. -/
theorem exec_beat_read (hinj : w.uses .inject = true → ∃ io, injectAt s k.val w = some io ∧ BeatOpen s k.val io)
    (hdlv : w.selD ≠ .none → ∃ dof, deliverAt s k.val w = some dof) : exec (.routeBeat k h x) s =
    if !(injectRead s k.val w h).2 then .next ((injectRead s k.val w h).1.modRt k.val Router.stop)
    else match beatDelivered s k.val w (injectRead s k.val w h).1 with
      | .error rej => .next (beatRejected s k.val w (injectRead s k.val w h).1 rej)
      | .ok v => .next (beatSent s k.val w x (injectRead s k.val w h).1 v) := by
  rw [exec_beat hw hmove, if_neg, if_neg, if_neg]
  · intro hbar
    obtain ⟨huse, hbar⟩ := Bool.and_eq_true_iff.mp hbar
    obtain ⟨io, hio, hopen⟩ := hinj huse
    rw [hio, Option.getD_some, beatBarred_iff.mpr hopen] at hbar
    cases hbar
  · intro hnone
    obtain ⟨hsel, hnone⟩ := Bool.and_eq_true_iff.mp hnone
    obtain ⟨dof, hdof⟩ := hdlv (bne_iff_ne.mp hsel)
    rw [hdof] at hnone
    cases hnone
  · intro hnone
    obtain ⟨huse, hnone⟩ := Bool.and_eq_true_iff.mp hnone
    obtain ⟨io, hio, -⟩ := hinj huse
    rw [hio] at hnone
    cases hnone

end

/-! ### The inject read and the delivery of a beat -/

section
variable {k : CoreId} {w : Fwd} {s : State} {h : Ecc} (hk : k.val < 768)
include hk

/-- A sound inject read. -/
theorem injectRead_sound (hinj : w.uses .inject = true → ∃ io, injectAt s k.val w = some io ∧ BeatSound s k.val io) (hne : h ≠ .uncorrectable) :
    (injectRead s k.val w h).2 = true ∧ BeatRead s (injectRead s k.val w h).1 := by
  unfold injectRead
  by_cases huse : w.uses .inject = true
  · obtain ⟨io, hio, hsound⟩ := hinj huse
    rw [if_pos huse, hio, Option.getD_some]
    exact beatRead_eccSpan hk (streamBeat_bounds (streamOff_iff.mp hio)).2 k.val hsound hne
  · rw [if_neg huse]
    exact ⟨rfl, .refl s⟩

end

/-- The window check does not see what a read counts. -/
theorem BeatRead.accepts {s u : State} (h : BeatRead s u) (k off len m : Nat) : Accepts u k off len m ↔ Accepts s k off len m := by
  have hwin (n : Nat) : (u.core k).window n = (s.core k).window n := by rw [h.counted.core k]; rfl
  have hrun : (u.core k).runningSched = (s.core k).runningSched := by rw [h.counted.core k]; rfl
  have hadmit (x : Window) : u.winAdmits k x m = s.winAdmits k x m := by rw [h.counted.frame]; rfl
  simp only [Accepts, hwin, hrun, hadmit]

theorem BeatRead.beatOpen {s u : State} (h : BeatRead s u) (k off : Nat) : BeatOpen u k off ↔ BeatOpen s k off := by
  have hres (o : Nat) : (u.core k).residentOther o = (s.core k).residentOther o := by rw [h.counted.core k]; rfl
  simp only [BeatOpen, hres]

/-- The master of a delivery over a link. -/
theorem neighbour_ne_maltster {k m : Nat} {d : Dir} (hk : k < 768) (h : neighbour k d = some m) : m ≠ maltsterId := by
  have := neighbour_lt hk h
  have hid : maltsterId = 0x410 := rfl
  omega

theorem deliver_link {u : State} {k off m : Nat} {d : MeshLink} (hm : neighbour k (linkDir d) = some m) (b : Beat) : u.deliver k off (some d) b =
    match u.windowCheck k off 256 m with
    | some r => .error (some (m, r))
    | none => .ok (u.placeCells ((rangeFrom (spadAddr k off) 256).zip b) m) := by
  simp only [State.deliver, hm, Option.getD_some]
  rfl

theorem deliver_own {u : State} {k off : Nat} (b : Beat) : u.deliver k off none b =
    if (u.core k).beatBarred off then .error none else .ok (u.placeCells ((rangeFrom (spadAddr k off) 256).zip b) k) := rfl

section
variable {s u : State} {k dof : Nat} {w : Fwd} (hread : BeatRead s u) (hk : k < 768) (hdlv : deliverAt s k w = some dof) (hsel : w.selD ≠ .none)
include hread hk hdlv hsel

/-- A delivery that R130 accepts, or the core's own where no resident window bars it, is in place. -/
theorem beatDelivered_placed (hown : w.deliverLink = none → BeatOpen s k dof)
    (hlink : ∀ d, w.deliverLink = some d → ∃ m, neighbour k (linkDir d) = some m ∧ Accepts s k dof 256 m)
    {b : Beat} (hb : beatOf (s.core k).rt (injected s k w u) (summed (s.core k).rt w (injected s k w u)).1 w.selD = b) (hlen : b.length = 256) :
    ∃ v, beatDelivered s k w u = .ok v ∧ BeatPlaced u v (spadAddr k dof) b := by
  obtain ⟨halign, hbound⟩ := streamBeat_bounds (streamOff_iff.mp hdlv)
  have hplaced := beatPlaced_placeCells u (a := spadAddr k dof) (placeOf_spad_iff.mpr ⟨rfl, hk, by omega⟩) (by unfold spadAddr spadBase; omega) hlen
  rw [beatDelivered, if_neg hsel, hdlv, Option.getD_some, hb]
  cases hd : w.deliverLink with
  | none =>
    rw [deliver_own, if_neg (by rw [beatBarred_iff.mpr ((hread.beatOpen k dof).mpr (hown hd))]; decide)]
    exact ⟨_, rfl, hplaced k⟩
  | some d =>
    obtain ⟨m, hm, hacc⟩ := hlink d hd
    rw [deliver_link hm, (windowCheck_none_iff (neighbour_ne_maltster hk hm) (by decide)).mpr ((hread.accepts k dof 256 m).mpr hacc)]
    exact ⟨_, rfl, hplaced m⟩

/-- A delivery that R130 rejects. -/
theorem beatDelivered_rejected {d : MeshLink} {m : Nat} (hd : w.deliverLink = some d) (hm : neighbour k (linkDir d) = some m)
    (hacc : ¬Accepts s k dof 256 m) : ∃ r, beatDelivered s k w u = .error (some (m, r)) := by
  have hcheck := mt (windowCheck_none_iff (s := u) (k := k) (off := dof) (len := 256) (neighbour_ne_maltster hk hm) (by decide)).mp
    (mt (hread.accepts k dof 256 m).mp hacc)
  obtain ⟨r, hr⟩ := Option.ne_none_iff_exists'.mp hcheck
  refine ⟨r, ?_⟩
  rw [beatDelivered, if_neg hsel, hdlv, Option.getD_some, hd, deliver_link hm, hr]

omit hk in
/-- The core's own delivery into a resident window of another schedule. -/
theorem beatDelivered_barred (hd : w.deliverLink = none) (hopen : ¬BeatOpen s k dof) : beatDelivered s k w u = .error none := by
  have hbar : (u.core k).beatBarred dof = true := by
    rw [← Bool.not_eq_false, beatBarred_iff]
    exact mt (hread.beatOpen k dof).mp hopen
  rw [beatDelivered, if_neg hsel, hdlv, Option.getD_some, hd, deliver_own, if_pos hbar]

end

end Sys2Proof.Proofs
end

section
/-!
PROOFS. The clauses on beats and route faults (O32), from the stages of a beat (R136, R143, R148, R151, R157).
-/
namespace Sys2Proof.Proofs
open Sys2Proof Sys2Proof.Machine Sys2Proof.Stated Sys2Proof.Laws

/-! ### A beat that moves -/

/-- From s to t routers stay, and so do the partitions that links and aborts look at. -/
structure RoutersKept (s t : State) : Prop where
  rt : ∀ j, (t.core j).rt = (s.core j).rt
  part : ∀ j, t.partOfCore j = s.partOfCore j
  abort : ∀ p, (t.part p).abort = (s.part p).abort

theorem BeatRead.kept {s u : State} (h : BeatRead s u) : RoutersKept s u :=
  ⟨h.rt, partOfCore_of_parts h.parts, fun p => by rw [State.part, h.parts, State.part]⟩

theorem RoutersKept.placed {s u v : State} {a : Nat} {b : Beat} (h : RoutersKept s u) (g : BeatPlaced u v a b) : RoutersKept s v :=
  ⟨fun j => (congrArg Core.rt (g.core j)).trans (h.rt j), fun j => (g.part j).trans (h.part j), fun p => (g.abort p).trans (h.abort p)⟩

theorem RoutersKept.meshPeer {s t : State} (h : RoutersKept s t) (k : Nat) (d : MeshLink) : t.meshPeer k d = s.meshPeer k d := by
  unfold State.meshPeer
  simp only [h.part]

theorem beatReady_peer {s : State} {k : Nat} {w : Fwd} (h : s.beatReady k w = true) {o : MeshLink × RSrc} (ho : o ∈ w.outputs) :
    ∃ j, s.meshPeer k o.1 = some j := by
  have hcredit := List.all_eq_true.mp (Bool.and_eq_true_iff.mp h).2 o ho
  cases hj : s.meshPeer k o.1 with
  | none => rw [hj] at hcredit; cases hcredit
  | some j => exact ⟨j, rfl⟩

theorem correctedUnits_linkUnits (x : List (MeshLink × Ecc)) (d : MeshLink) :
    correctedUnits (linkUnits x d) = (x.filter (fun e => e.1 == d && e.2 == .corrected)).length := by
  rw [correctedUnits, linkUnits, List.filter_map, List.length_map, List.filter_filter]
  exact congrArg List.length (List.filter_congr fun e _ => Bool.and_comm ..)

theorem mem_linkUnits {x : List (MeshLink × Ecc)} (h : ∀ e ∈ x, e.2 ≠ .uncorrectable) (d : MeshLink) : .uncorrectable ∉ linkUnits x d := by
  intro hmem
  obtain ⟨e, he, heq⟩ := List.mem_map.mp hmem
  exact h e (List.mem_of_mem_filter he) heq

theorem injected_eq {s u : State} (h : u.mem = s.mem) (k : Nat) (w : Fwd) :
    injected s k w u = if w.uses .inject then s.getBytes (spadAddr k ((injectAt s k w).getD 0)) 256 else [] := by
  rw [injected, State.getBytes, h, State.getBytes]

theorem summed_fst (r : Router) (w : Fwd) (inj : Beat) :
    (summed r w inj).1 = if w.sumfmt = 0 then [] else (beatSum w.sumfmt (w.order.map (beatOf r inj []))).1 := by
  rw [summed]
  split <;> rfl

section
variable {k : Nat} {w : Fwd} {s u v : State} {x : List (MeshLink × Ecc)} (hworks : RouterWorks s k) (hmove : Moving s k w) (hkept : RoutersKept s v)
  (hx : ∀ e ∈ x, e.2 ≠ .uncorrectable)
include hworks hmove hkept hx

/-- What a beat leaves once its delivery is in place: the router's own part, and one beat in the buffer at every output's far end. -/
theorem beatSent_leaves :
    (beatSent s k w x u v).mem = v.mem
      ∧ (∃ c, ((beatSent s k w x u v).core k).rt = (s.core k).rt.took w c)
      ∧ ∀ d o, (d, o) ∈ w.outputs → ∃ j, s.meshPeer k d = some j
          ∧ ((beatSent s k w x u v).core j).rt.buf (linkFar d) = (s.core j).rt.buf (linkFar d)
              ++ [beatOf (s.core k).rt (injected s k w u) (summed (s.core k).rt w (injected s k w u)).1 o]
          ∧ ((beatSent s k w x u v).core j).rt.ce
              = min 0xFF ((s.core j).rt.ce + (x.filter (fun e => e.1 == d && e.2 == .corrected)).length) := by
  obtain ⟨-, -, -, hgo⟩ := hworks
  obtain ⟨-, -, -, hready⟩ := hmove
  let z := v.modRt k (fun r => r.took w (summed (s.core k).rt w (injected s k w u)).2)
  have hpeer (d : MeshLink) : z.meshPeer k d = s.meshPeer k d := (meshPeer_of_parts (s := v) rfl k d).trans (hkept.meshPeer k d)
  have hgo' : ∀ p, z.partOfCore k = some p → (z.part p).abort = none := fun p hp =>
    (hkept.abort p).trans (hgo p ((hkept.part k).symm.trans hp))
  obtain ⟨hframe, htaken, hrest⟩ := sendAll_taken (k := k) (os := w.outputs)
    (b := beatOf (s.core k).rt (injected s k w u) (summed (s.core k).rt w (injected s k w u)).1) (es := linkUnits x)
    (mem_linkUnits hx) (outputs_nodup w) hgo' (fun o ho => by rw [hpeer]; exact beatReady_peer hready ho)
  have hmem : (beatSent s k w x u v).mem = z.mem := (congrArg State.mem hframe.frame :)
  refine ⟨hmem, ⟨(summed (s.core k).rt w (injected s k w u)).2, (hrest k fun o _ hself => ?_).trans ?_⟩, fun d o ho => ?_⟩
  · exact neighbour_ne (meshPeer_some hself).1 rfl
  · rw [modRt_rt, if_pos rfl, hkept.rt]
  · obtain ⟨j, hj⟩ := beatReady_peer hready ho
    have hne : j ≠ k := neighbour_ne (meshPeer_some hj).1
    have hrt := htaken (d, o) ho j ((hpeer d).trans hj)
    rw [modRt_rt, if_neg hne, hkept.rt] at hrt
    obtain ⟨hbuf, hce⟩ := beatTaken_buf d (beatOf (s.core k).rt (injected s k w u) (summed (s.core k).rt w (injected s k w u)).1 o)
      (correctedUnits (linkUnits x d)) (s.core j).rt
    refine ⟨j, hj, ?_, ?_⟩
    · rw [← hbuf]
      exact congrArg (·.buf (linkFar d)) hrt
    · rw [← correctedUnits_linkUnits, ← hce]
      exact congrArg Router.ce hrt

end

section
variable {k : CoreId} {w : Fwd} {s : State} (hw : AtWindow s k w) (hmove : Moving s k.val w)
include hw hmove

/-- A sound beat (R148, R151). -/
theorem beat_moves {io dof : Nat} {h : Ecc} {x : List (MeshLink × Ecc)} (hne : h ≠ .uncorrectable) (hx : ∀ e ∈ x, e.2 ≠ .uncorrectable)
    (hinj : w.uses .inject = true →
      StreamBeat (mget 0 (s.core k.val).rt.inj w.injs) (mget 0 (s.core k.val).rt.injCur w.injs) io ∧ BeatOpen s k.val io ∧ BeatSound s k.val io)
    (hdlv : w.selD ≠ .none → StreamBeat (mget 0 (s.core k.val).rt.dlv w.dlvs) (mget 0 (s.core k.val).rt.dlvCur w.dlvs) dof
      ∧ (w.deliverLink = none → BeatOpen s k.val dof))
    (hlink : ∀ d, w.deliverLink = some d → ∃ m, neighbour k.val (linkDir d) = some m ∧ Accepts s k.val dof 256 m) :
    let r := (s.core k.val).rt
    let inj := if w.uses .inject then s.getBytes (spadAddr k.val io) 256 else []
    let sum := if w.sumfmt = 0 then [] else (beatSum w.sumfmt (w.order.map (beatOf r inj []))).1
    (w.selD ≠ .none → (beatOf r inj sum w.selD).length = 256) →
    ∃ t, exec (.routeBeat k h x) s = .next t ∧ (∃ c, (t.core k.val).rt = r.took w c)
      ∧ (∀ d o, (d, o) ∈ w.outputs → ∃ j, s.meshPeer k.val d = some j
          ∧ (t.core j).rt.buf (linkFar d) = (s.core j).rt.buf (linkFar d) ++ [beatOf r inj sum o]
          ∧ (t.core j).rt.ce = min 0xFF ((s.core j).rt.ce + (x.filter (fun e => e.1 == d && e.2 == .corrected)).length))
      ∧ (w.selD ≠ .none → (∀ j < 256, t.getByte (spadAddr k.val dof + j) = (beatOf r inj sum w.selD).getD j 0)
          ∧ ∀ a, (a < spadAddr k.val dof ∨ spadAddr k.val dof + 256 ≤ a) → t.getByte a = s.getByte a)
      ∧ (w.selD = .none → t.mem = s.mem) := by
  intro r inj sum hlen
  have hk : k.val < 768 := by
    have hlt := k.isLt
    obtain ⟨hne, -, -⟩ := hw
    have hid : maltsterCore = 768 := rfl
    omega
  have hinjAt (huse : w.uses .inject = true) : injectAt s k.val w = some io := streamOff_iff.mpr (hinj huse).1
  have hdlvAt (hsel : w.selD ≠ .none) : deliverAt s k.val w = some dof := streamOff_iff.mpr (hdlv hsel).1
  obtain ⟨hok, hread⟩ := injectRead_sound (s := s) (w := w) (h := h) hk (fun huse => ⟨io, hinjAt huse, (hinj huse).2.2⟩) hne
  generalize hu : (injectRead s k.val w h).1 = u at hread
  have hinjected : injected s k.val w u = inj := by
    rw [injected_eq hread.counted.mem]
    by_cases huse : w.uses .inject = true
    · rw [if_pos huse, hinjAt huse, Option.getD_some]
      exact (if_pos huse).symm
    · rw [if_neg huse]
      exact (if_neg huse).symm
  have hsummed : (summed r w inj).1 = sum := summed_fst r w inj
  have hexec : exec (.routeBeat k h x) s = match beatDelivered s k.val w u with
      | .error rej => .next (beatRejected s k.val w u rej)
      | .ok v => .next (beatSent s k.val w x u v) := by
    rw [exec_beat_read hw hmove h x (fun huse => ⟨io, hinjAt huse, (hinj huse).2.1⟩) (fun hsel => ⟨dof, hdlvAt hsel⟩), hok, hu]
    rfl
  have hleaves {v : State} (hkept : RoutersKept s v) := beatSent_leaves (u := u) hw.2.1 hmove hkept hx
  rw [hinjected, hsummed] at hleaves
  by_cases hsel : w.selD = .none
  · obtain ⟨hmem, hown, hout⟩ := hleaves hread.kept
    refine ⟨beatSent s k.val w x u u, ?_, hown, hout, fun hn => absurd hsel hn, fun _ => hmem.trans hread.counted.mem⟩
    rw [hexec, beatDelivered, if_pos hsel]
  · obtain ⟨v, hv, hplaced⟩ := beatDelivered_placed hread hk (hdlvAt hsel) hsel (hdlv hsel).2 hlink
      (b := beatOf r inj sum w.selD) (by rw [hinjected, hsummed]) (hlen hsel)
    obtain ⟨hmem, hown, hout⟩ := hleaves (hread.kept.placed hplaced)
    refine ⟨beatSent s k.val w x u v, by rw [hexec, hv], hown, hout, fun _ => ⟨fun j hj => ?_, fun a ha => ?_⟩, fun hn => absurd hn hsel⟩
    · rw [State.getByte, hmem]
      exact hplaced.bytes j hj
    · rw [State.getByte, hmem]
      exact (hplaced.outside a ha).trans (hread.counted.getByte a)

end

/-! ### Route faults (R157) -/

/-- What a route fault leaves of its router and of its launch. -/
structure Failed (s t : State) (k p cause port : Nat) : Prop where
  flt : (t.core k).rt.flt = true
  fault : (t.core k).rt.fault = { cause := cause, port := port, widx := (s.core k).rt.widx, beat := (s.core k).rt.beat }
  aborts : Aborts s t p { cause := 1, sub := cause, hw := decide (3 ≤ cause) }

section
variable {s u : State} {k p : Nat} (hparts : u.parts = s.parts) (hp : s.partOfCore k = some p) (hl : Launched s p)
  (hwidx : (u.core k).rt.widx = (s.core k).rt.widx) (hbeat : (u.core k).rt.beat = (s.core k).rt.beat)
include hparts hp hl hwidx hbeat

theorem routeFault_failed (cause port : Nat) (det : Option Detection) (hdet : det.isSome = decide (3 ≤ cause)) :
    Failed s (u.routeFault k cause port det) k p cause port := by
  obtain ⟨haborts, hcore, -, -⟩ := routeFault_aborts hparts hp hl cause port det
  rw [hdet] at haborts
  refine ⟨by rw [hcore]; rfl, ?_, haborts⟩
  rw [hcore, ← hwidx, ← hbeat]
  rfl

end

section
variable {k : CoreId} {w : Fwd} {p : Nat} {s : State} (hw : AtWindow s k w) (hp : s.partOfCore k.val = some p) (hl : Launched s p)
include hw hp hl

theorem stall_fails : ∃ t port, exec (.stall k) s = .next t ∧ port < 6 ∧ Failed s t k.val p 3 port
    ∧ t.detections = s.detections ++ [{ source := 0x04, ukind := 1, unit := k.val, master := k.val, addr := 0 }] := by
  obtain ⟨-, hworks, hword⟩ := hw
  let det : Detection := { source := 0x04, ukind := 1, unit := k.val, master := k.val, addr := 0 }
  refine ⟨s.drawFree.2.routeFault k.val 3 (s.drawFree.1.toNat % 6) (some det), s.drawFree.1.toNat % 6, ?_, Nat.mod_lt _ (by decide),
    routeFault_failed (s := s) (u := s.drawFree.2) rfl hp hl rfl rfl 3 _ (some det) rfl, ?_⟩
  · change execStall k s = _
    unfold execStall
    simp only [hword, routes_of_works hworks]
    rfl
  · exact (routeFault_aborts (s := s) (u := s.drawFree.2) rfl hp hl 3 _ (some det)).2.2.2

omit hw in
/-- A route fault of a core that has changed nothing yet. -/
theorem faults_at_once (cause port : Nat) (hcause : cause < 3) : let t := s.routeFault k.val cause port none
    Failed s t k.val p cause port ∧ t.mem = s.mem ∧ t.detections = s.detections := by
  obtain ⟨-, -, hmem, hdet⟩ := routeFault_aborts (u := s) rfl hp hl cause port none
  refine ⟨routeFault_failed rfl hp hl rfl rfl cause port none ?_, hmem, ?_⟩
  · rw [decide_eq_false (Nat.not_le.mpr hcause)]
    rfl
  · rw [hdet, Option.toList_none, List.append_nil]

end

/-- A rejected delivery of a beat, after an inject read that finds no more than a corrected error. -/
theorem beatRejected_fails {s u : State} {k p : Nat} {w : Fwd} (hread : BeatRead s u) (hp : s.partOfCore k = some p) (hl : Launched s p)
    (rej : Option (Nat × Rej)) : let t := beatRejected s k w u rej
    Failed s t k p 1 5 ∧ t.mem = s.mem ∧ t.detections = s.detections ∧ (t.core k).rt.rejected = true
      ∧ ∀ m y, rej = some (m, y) → (t.core k).sp.rej = true ∧ (t.core k).sp.rejSrc = m := by
  let v := (match rej with
    | some (m, y) => u.windowReject k ((deliverAt s k w).getD 0) 256 m y
    | none => u).modRt k (fun r => { r with rejected := true })
  have hv : v.parts = s.parts ∧ v.mem = s.mem ∧ v.detections = s.detections := by
    rw [← hread.parts, ← hread.counted.mem, ← hread.detections]
    unfold v
    cases rej <;> exact ⟨rfl, rfl, rfl⟩
  have hrt : (v.core k).rt = { (s.core k).rt with rejected := true } := by
    rw [← hread.rt k]
    unfold v
    rw [modRt_rt, if_pos rfl]
    cases rej with
    | none => rfl
    | some e => simp only [State.windowReject, modCore_core, if_true]
  obtain ⟨hparts, hmem, hdet⟩ := hv
  obtain ⟨-, hcore, hmem', hdet'⟩ := routeFault_aborts hparts hp hl 1 portDeliver none
  refine ⟨routeFault_failed hparts hp hl (by rw [hrt]) (by rw [hrt]) 1 portDeliver none rfl, hmem'.trans hmem, ?_, ?_, fun m y hrej => ?_⟩
  · exact (hdet'.trans (by rw [Option.toList_none, List.append_nil])).trans hdet
  · change ((v.routeFault k 1 portDeliver none).core k).rt.rejected = true
    rw [hcore]
    change (v.core k).rt.rejected = true
    rw [hrt]
  · have hsp : (v.core k).sp = ((u.windowReject k ((deliverAt s k w).getD 0) 256 m y).core k).sp := by
      unfold v
      rw [hrej, State.modRt, modCore_core, if_pos rfl]
    have hsame : ((beatRejected s k w u rej).core k).sp = (v.core k).sp := (congrArg Core.sp hcore :)
    rw [hsame, hsp, State.windowReject, modCore_core, if_pos rfl]
    exact ⟨rfl, rfl⟩

/-- A beat whose inject read is sound and whose delivery is rejected. -/
theorem exec_beat_rejected {k : CoreId} {w : Fwd} {s : State} (hw : AtWindow s k w) (hmove : Moving s k.val w) (hk : k.val < 768) {h : Ecc}
    (hne : h ≠ .uncorrectable) (hinj : w.uses .inject = true → ∃ io, injectAt s k.val w = some io ∧ BeatOpen s k.val io ∧ BeatSound s k.val io)
    {dof : Nat} (hdlv : deliverAt s k.val w = some dof) {q : Option (Nat × Rej) → Prop}
    (hrej : ∀ u, BeatRead s u → ∃ rej, beatDelivered s k.val w u = .error rej ∧ q rej) (x : List (MeshLink × Ecc)) :
    ∃ u rej, BeatRead s u ∧ q rej ∧ exec (.routeBeat k h x) s = .next (beatRejected s k.val w u rej) := by
  obtain ⟨hok, hread⟩ := injectRead_sound (h := h) hk (fun huse => (hinj huse).imp fun io ⟨hio, _, hsound⟩ => ⟨hio, hsound⟩) hne
  obtain ⟨rej, hdel, hq⟩ := hrej _ hread
  refine ⟨_, rej, hread, hq, ?_⟩
  rw [exec_beat_read hw hmove h x (fun huse => (hinj huse).imp fun io ⟨hio, hopen, _⟩ => ⟨hio, hopen⟩) (fun _ => ⟨dof, hdlv⟩), hok, hdel]
  rfl

/-- A beat that crosses a link, as the far check finds it (R143). -/
theorem sendBeat_checked {s : State} {k p : Nat} (hworks : RouterWorks s k) (hp : s.partOfCore k = some p) (hl : Launched s p) {b : Beat} {d : MeshLink}
    {j : Nat} {es : List Ecc} (hpeer : s.meshPeer k d = some j) : let t := s.sendBeat k d b es
    (t.core j).rt.ce = min 0xFF ((s.core j).rt.ce + (es.filter (fun e => e == .corrected)).length)
      ∧ (.uncorrectable ∉ es → (t.core j).rt.buf (linkFar d) = (s.core j).rt.buf (linkFar d) ++ [b])
      ∧ (.uncorrectable ∈ es → (t.core j).rt.flt = true ∧ (t.core j).rt.fault.cause = 4 ∧ (t.core j).rt.fault.port = linkPort (linkFar d)
          ∧ Aborts s t p { cause := 1, sub := 4, hw := true }
          ∧ t.detections = s.detections ++ [{ source := 0x05, ukind := 1, unit := k, master := j, addr := 0 }]) := by
  intro t
  obtain ⟨-, -, -, hgo⟩ := hworks
  by_cases hunc : .uncorrectable ∈ es
  · obtain ⟨-, -, hpart⟩ := meshPeer_some hpeer
    have ht : t = (s.modRt j (fun r => { r with ce := satAdd 0xFF r.ce (correctedUnits es) })).routeFault j 4 (linkPort (linkFar d))
        (some { source := 0x05, ukind := 1, unit := k, master := j, addr := 0 }) := by
      rw [show t = _ from sendBeat_eq hpeer hgo b es, if_pos (List.contains_iff_mem.mpr hunc)]
    obtain ⟨haborts, hcore, -, hdet⟩ := routeFault_aborts
      (u := s.modRt j (fun r => { r with ce := satAdd 0xFF r.ce (correctedUnits es) })) rfl (hpart.trans hp) hl 4 (linkPort (linkFar d))
      (some { source := 0x05, ukind := 1, unit := k, master := j, addr := 0 })
    rw [← ht] at haborts hcore hdet
    refine ⟨?_, fun h => absurd hunc h, fun _ => ⟨by rw [hcore]; rfl, by rw [hcore]; rfl, by rw [hcore]; rfl, haborts, hdet⟩⟩
    rw [hcore]
    change ((s.modRt j (fun r => { r with ce := satAdd 0xFF r.ce (correctedUnits es) })).core j).rt.ce = _
    rw [modRt_rt, if_pos rfl]
    rfl
  · obtain ⟨-, hrt⟩ := sendBeat_taken hpeer hgo b hunc
    have hj : (t.core j).rt = beatTaken d b (correctedUnits es) (s.core j).rt := by rw [hrt, if_pos rfl]
    obtain ⟨hbuf, hce⟩ := beatTaken_buf d b (correctedUnits es) (s.core j).rt
    rw [hj]
    exact ⟨hce, fun _ => hbuf, fun h => absurd h hunc⟩

/-! ### The statement -/

theorem routerWindowsRun : RouterWindowsRun := by
  refine ⟨fun k w s hw => ⟨fun hrun hflag => ?_, exec_windowStart_running, fun hrun hwait hflag => ?_, ?_, fun hstill => ?_, fun hrun hdone => ?_,
    fun c i n back cnt hloop => ?_⟩, fun k h x s hidle => idle_router hidle h x, fun k s hworks hrun hword => windowStart_settles hworks hrun hword,
    fun bs => ?_⟩
  · exact windowStart_starts hw hrun hflag
  · exact windowStart_waits hw hrun hwait hflag
  · intro io dof h x hne hx hrun hmoves hbeat hready hinj hdlv hlink inj sum hlen
    obtain ⟨t, ht, ⟨c, hown⟩, hout, hput, hkeep⟩ := beat_moves hw ⟨hrun, hmoves, hbeat, hready⟩ hne hx hinj hdlv hlink hlen
    obtain ⟨htrun, htbeat, htinj, htdlv⟩ := took_rest (s.core k.val).rt w c
    rw [← hown] at htrun htbeat htinj htdlv
    refine ⟨t, ht, htbeat, htrun.trans hrun, fun d => ?_, hout, htinj, fun hsel => ⟨htdlv hsel, hput hsel⟩, hkeep⟩
    rw [hown]
    exact took_buf _ w c d
  · rw [exec_windowEnd hw, if_pos hstill]
  · obtain ⟨t, ht, hflight, hcore⟩ := windowEnd_ends hw hrun hdone
    refine ⟨t, ht, hflight, fun v hv => ?_, fun hstop => ?_, hcore⟩
    · rw [hcore, routeFuel, routeSettle_fwd hv]
      exact ⟨rfl, rfl⟩
    · rw [hcore, routeFuel, routeSettle_stop hstop]
      exact ⟨rfl, rfl⟩
  · exact routeSettle_loop hloop
  · refine ⟨fun i hi => sum_int32 bs hi, sum_int32_iovf bs, fun i hi => sum_afx128 bs hi, sum_afx128_silent bs, fun b rest hbs i hi => ?_⟩
    rw [hbs]
    exact sum_fp32 b rest hi

theorem routeFaults : RouteFaults := by
  intro k w p s hw hp hl r moving inject lands readable failed
  have hk : k.val < 768 := lt_of_partOfCore hp
  have hfailed {t : State} {cause port : Nat} (h : Failed s t k.val p cause port) : failed t cause port := ⟨h.flt, h.fault, h.aborts⟩
  have hinjAt {off : Nat} (h : inject off) : injectAt s k.val w = some off := streamOff_iff.mpr h
  have hdlvAt {off : Nat} (h : lands off) : deliverAt s k.val w = some off := streamOff_iff.mpr h
  have hlands (h : w.selD = .none ∨ ∃ o, lands o) (hsel : w.selD ≠ .none) : ∃ dof, deliverAt s k.val w = some dof :=
    (h.resolve_left hsel).imp fun _ => hdlvAt
  refine ⟨?_, fun h x hmove => ⟨fun huse hout => ?_, fun hinj hsel hout => ?_, fun off huse hoff hopen hdlv => ?_,
    fun off huse hoff hopen hdlv hbad => ?_, fun dof d m hne hread hsel hoff hd hm hacc => ?_, fun dof hne hread hsel hoff hd hopen => ?_⟩,
    fun b d j es hpeer => sendBeat_checked hw.2.1 hp hl hpeer⟩
  · obtain ⟨t, port, ht, hport, hf, hdet⟩ := stall_fails hw hp hl
    exact ⟨t, port, ht, hport, hfailed hf, hdet⟩
  · obtain ⟨hf, hmem, hdet⟩ := faults_at_once hp hl 2 portInject (by decide)
    refine ⟨s.routeFault k.val 2 portInject none, ?_, hfailed hf, hmem, hdet⟩
    have hnone : injectAt s k.val w = none := streamOff_none_iff.mpr hout
    rw [exec_beat hw hmove, if_pos (by rw [huse, hnone]; rfl)]
  · obtain ⟨hf, hmem, hdet⟩ := faults_at_once hp hl 2 portDeliver (by decide)
    refine ⟨s.routeFault k.val 2 portDeliver none, ?_, hfailed hf, hmem, hdet⟩
    have hnone : deliverAt s k.val w = none := streamOff_none_iff.mpr hout
    rw [exec_beat hw hmove, if_neg, if_pos (by rw [bne_iff_ne.mpr hsel, hnone]; rfl)]
    intro hno
    obtain ⟨huse, hno⟩ := Bool.and_eq_true_iff.mp hno
    obtain ⟨off, hoff⟩ := hinj huse
    rw [hinjAt hoff] at hno
    cases hno
  · obtain ⟨hf, hmem, hdet⟩ := faults_at_once hp hl 1 portInject (by decide)
    refine ⟨s.routeFault k.val 1 portInject none, ?_, hfailed hf, hmem, hdet⟩
    have hbar : (s.core k.val).beatBarred off = true := by rwa [← Bool.not_eq_false, beatBarred_iff]
    rw [exec_beat hw hmove, hinjAt hoff, if_neg, if_neg, if_pos (by rw [huse, Option.getD_some, hbar]; rfl)]
    · intro hno
      obtain ⟨hsel, hno⟩ := Bool.and_eq_true_iff.mp hno
      obtain ⟨dof, hdof⟩ := hlands hdlv (bne_iff_ne.mp hsel)
      rw [hdof] at hno
      cases hno
    · simp
  · obtain ⟨o, hlost⟩ := eccSpan_beat_lost (s := s) hk (streamBeat_bounds hoff).2 k.val hbad
    have hread : injectRead s k.val w h = (s.spUncorrectable k.val o k.val, false) := by
      rw [injectRead, if_pos huse, hinjAt hoff, Option.getD_some, hlost]
    refine ⟨(s.spUncorrectable k.val o k.val).modRt k.val Router.stop, ?_, ?_, rfl, _, rfl, rfl, rfl⟩
    · rw [exec_beat_read hw hmove h x (fun _ => ⟨off, hinjAt hoff, hopen⟩) (hlands hdlv), hread]
      rfl
    · rw [modRt_rt, if_pos rfl]
      rfl
  · have hinj (huse : w.uses .inject = true) : ∃ io, injectAt s k.val w = some io ∧ BeatOpen s k.val io ∧ BeatSound s k.val io :=
      (hread huse).imp fun io ⟨hio, hrest⟩ => ⟨hinjAt hio, hrest⟩
    obtain ⟨u, rej, hu, ⟨y, hy⟩, hexec⟩ := exec_beat_rejected hw hmove hk hne hinj (hdlvAt hoff) (q := fun rej => ∃ y, rej = some (m, y))
      (fun u hu => (beatDelivered_rejected hu hk (hdlvAt hoff) hsel hd hm hacc).elim fun y hy => ⟨_, hy, y, rfl⟩) x
    obtain ⟨hf, hmem, hdet, hrejected, hnotice⟩ := beatRejected_fails (w := w) hu hp hl rej
    obtain ⟨hrej, hsrc⟩ := hnotice m y hy
    exact ⟨_, hexec, hfailed hf, hmem, hdet, hrej, hsrc, hrejected⟩
  · have hinj (huse : w.uses .inject = true) : ∃ io, injectAt s k.val w = some io ∧ BeatOpen s k.val io ∧ BeatSound s k.val io :=
      (hread huse).imp fun io ⟨hio, hrest⟩ => ⟨hinjAt hio, hrest⟩
    obtain ⟨u, rej, hu, -, hexec⟩ := exec_beat_rejected hw hmove hk hne hinj (hdlvAt hoff) (q := fun _ => True)
      (fun u hu => ⟨_, beatDelivered_barred hu (hdlvAt hoff) hsel hd hopen, trivial⟩) x
    obtain ⟨hf, hmem, -, hrejected, -⟩ := beatRejected_fails (w := w) hu hp hl rej
    exact ⟨_, hexec, hfailed hf, hmem, hrejected⟩

/-- Settles O32: the windows' clauses and the route faults. -/
theorem routerRuns : Obligations.RouterRuns := ⟨routerWindowsRun, routeFaults⟩

end Sys2Proof.Proofs
end

section
/-!
PROOFS. Schedules loaded and unloaded (O48): the resident windows set and freed (R129), the image read and checked (R147, R376, R377), and
what the partition then holds.
-/
namespace Sys2Proof.Proofs
open Sys2Proof Sys2Proof.Machine Sys2Proof.Stated Sys2Proof.Laws

theorem zeroRange_getByte (s : State) (lo n a : Nat) : (s.zeroRange lo n).getByte a = if lo ≤ a ∧ a < lo + n then 0 else s.getByte a := by
  simp only [State.getByte, State.zeroRange, memGet_zero]

/-- A schedule found under its identifier. -/
theorem sched_isSome_iff {q : Part} {id : Nat} : (q.sched id).isSome = true ↔ ∃ x ∈ q.scheds, x.id = id := by
  simp [Part.sched]

/-! ### Resident windows freed (R129) -/

/-- A window that a schedule's unloading frees, its bytes zero. -/
def windowFreed (s : State) (e : Nat × Nat) : State :=
  let w := (s.core e.1).window e.2
  (s.zeroRange (spadAddr e.1 (w.base * 16)) (w.last * 16 + 16 - w.base * 16)).modCore e.1 (fun c =>
    c.setWindow e.2 { c.window e.2 with en := false, res := false, owner := 0 })

theorem windowFreed_window (s : State) (e : Nat × Nat) (k n : Nat) : ((windowFreed s e).core k).window n =
    if (k, n) = e then { (s.core k).window n with en := false, res := false, owner := 0 } else (s.core k).window n := by
  obtain ⟨k', n'⟩ := e
  have hcore (j : Nat) : (s.zeroRange (spadAddr k' (((s.core k').window n').base * 16))
      (((s.core k').window n').last * 16 + 16 - ((s.core k').window n').base * 16)).core j = s.core j := rfl
  rw [windowFreed, modCore_core]
  by_cases hk : k = k'
  · subst hk
    rw [if_pos rfl, setWindow_window, hcore]
    by_cases hn : n = n'
    · subst hn
      rw [if_pos rfl, if_pos rfl]
    · rw [if_neg hn, if_neg (fun h => hn (Prod.mk.inj h).2)]
  · rw [if_neg hk, if_neg (fun h => hk (Prod.mk.inj h).1), hcore]

/-- The extent of a window. -/
def extent (w : Window) : Nat × Nat := (w.base, w.last)

/-- What freeing windows keeps, and what it does to a window among them: its extent stands, it is closed, and its bytes are zero. -/
theorem windowsFreed (es : List (Nat × Nat)) (s : State) :
    let t := es.foldl windowFreed s
    t = { s with cores := t.cores, mem := t.mem, bad := t.bad }
      ∧ (∀ k n, extent ((t.core k).window n) = extent ((s.core k).window n))
      ∧ (∀ a, s.getByte a = 0 → t.getByte a = 0)
      ∧ (∀ k n, ((s.core k).window n).res = false → ((s.core k).window n).en = false →
          ((t.core k).window n).res = false ∧ ((t.core k).window n).en = false)
      ∧ ∀ k n, (k, n) ∈ es → ((t.core k).window n).res = false ∧ ((t.core k).window n).en = false
          ∧ ∀ a, spadAddr k (((s.core k).window n).base * 16) ≤ a → a < spadAddr k (((s.core k).window n).last * 16 + 16) → t.getByte a = 0 := by
  induction es generalizing s with
  | nil => exact ⟨rfl, fun _ _ => rfl, fun _ h => h, fun _ _ hr he => ⟨hr, he⟩, fun _ _ h => absurd h List.not_mem_nil⟩
  | cons e es ih =>
    obtain ⟨hframe, hextent, hzero, hclosed, hfreed⟩ := ih (windowFreed s e)
    have hfirst (k n : Nat) : extent (((windowFreed s e).core k).window n) = extent ((s.core k).window n) := by
      rw [windowFreed_window]
      split <;> rfl
    have hbyte (a : Nat) : (windowFreed s e).getByte a = if spadAddr e.1 (((s.core e.1).window e.2).base * 16) ≤ a
        ∧ a < spadAddr e.1 (((s.core e.1).window e.2).base * 16)
          + (((s.core e.1).window e.2).last * 16 + 16 - ((s.core e.1).window e.2).base * 16) then 0 else s.getByte a := zeroRange_getByte _ _ _ _
    have hstep : (windowFreed s e) = { s with cores := (windowFreed s e).cores, mem := (windowFreed s e).mem, bad := (windowFreed s e).bad } := rfl
    refine ⟨?_, fun k n => (hextent k n).trans (hfirst k n), fun a ha => hzero a ?_, fun k n hr he => hclosed k n ?_ ?_, fun k n hmem => ?_⟩
    · rw [List.foldl_cons, hframe, hstep]
    · rw [hbyte, ha, ite_self]
    · rw [windowFreed_window]
      split
      · rfl
      · exact hr
    · rw [windowFreed_window]
      split
      · rfl
      · exact he
    · rcases List.mem_cons.mp hmem with rfl | hmem
      · have hnow := hclosed k n (by rw [windowFreed_window, if_pos rfl]) (by rw [windowFreed_window, if_pos rfl])
        refine ⟨hnow.1, hnow.2, fun a hlo hhi => hzero a ?_⟩
        rw [hbyte, if_pos]
        dsimp only
        unfold spadAddr at *
        omega
      · obtain ⟨hr, he, hbytes⟩ := hfreed k n hmem
        have hsame := hfirst k n
        rw [extent, extent, Prod.mk.injEq] at hsame
        rw [hsame.1, hsame.2] at hbytes
        exact ⟨hr, he, hbytes⟩

/-! ### SCHED_UNLOAD (R129, R376) -/

/-- The resident windows of a schedule in a partition. -/
def heldWindows (s : State) (p id : Nat) : List (Nat × Nat) :=
  ((s.part p).clusters.flatMap clusterCores).flatMap (fun k =>
    ((List.range 16).filter (fun n => ((s.core k).window n).res && ((s.core k).window n).owner == id)).map (fun n => (k, n)))

theorem mem_heldWindows {s : State} {p id k n : Nat} (hk : clusterOf k ∈ (s.part p).clusters) (hn : n < 16)
    (hres : ((s.core k).window n).res = true) (howner : ((s.core k).window n).owner = id) : (k, n) ∈ heldWindows s p id := by
  refine List.mem_flatMap.mpr ⟨k, List.mem_flatMap.mpr ⟨_, hk, mem_clusterCores k⟩, List.mem_map.mpr ⟨n, ?_, rfl⟩⟩
  simp [hn, hres, howner]

/-- The partition that a schedule's unloading leaves. -/
def unloadedPart (id : Nat) (q : Part) : Part :=
  { q with scheds := q.scheds.filter (fun x => x.id != id), pages := q.pages.filter (fun g => g.image != some id),
           boundary := mdrop q.boundary id, lastSched := if q.lastSched = some id then some 0 else q.lastSched }

section
variable {src : CmdSrc} {tag p : Nat} {s : State} {c : Cmd} (h : Startable s c src tag 0x21) (hp : c.part = some p)
include h hp

theorem exec_schedUnload : exec (.schedUnload src tag) s =
    if ((s.part p).sched (field (c.p 1) 31 0)).isNone then .next (s.refuse c stRejPermission)
    else if s.schedBusy p (field (c.p 1) 31 0) then .next (s.refuse c stRejBusy)
    else .next ((((heldWindows s p (field (c.p 1) 31 0)).foldl windowFreed s).modPart p (unloadedPart (field (c.p 1) 31 0))).finish c {}) := by
  change execSchedUnload src tag s = _
  unfold execSchedUnload
  simp only [cmdFor_of_startable h, Cmd.partOr, hp, Option.getD_some]
  cases (s.part p).sched (field (c.p 1) 31 0) <;> rfl

end

theorem field_low (x : Word) (n : Nat) : field x n 0 = x.toNat % 2 ^ (n + 1) := by
  rw [field_eq_div, Nat.pow_zero, Nat.div_one, Nat.sub_zero]

theorem schedBusy_iff {s : State} {p id : Nat} : s.schedBusy p id = true ↔
    ∃ b ∈ s.cmds, b.part = some p ∧ (b.op = 0x30 ∨ b.op = 0x52) ∧ b.decided = false ∧ (b.p 1).toNat % 2 ^ 32 = id := by
  simp only [State.schedBusy, field_low, List.any_eq_true, Bool.and_eq_true, Bool.or_eq_true, beq_iff_eq, Bool.not_eq_true', and_assoc]

theorem schedUnloads {src : CmdSrc} {tag p : Nat} {s : State} {c : Cmd} (h : Startable s c src tag 0x21) (hp : c.part = some p) :
    let q := s.part p
    let id := (c.p 1).toNat % 2 ^ 32
    let launched : Prop := ∃ b ∈ s.cmds, b.part = some p ∧ (b.op = 0x30 ∨ b.op = 0x52) ∧ b.decided = false ∧ (b.p 1).toNat % 2 ^ 32 = id
    ((∀ x ∈ q.scheds, x.id ≠ id) → ∃ t, exec (.schedUnload src tag) s = .next t ∧ Finished s t c 0x15 0 0 0 ∧ t.parts = s.parts)
    ∧ ((∃ x ∈ q.scheds, x.id = id) → launched → ∃ t, exec (.schedUnload src tag) s = .next t ∧ Finished s t c 0x14 0 0 0 ∧ t.parts = s.parts)
    ∧ ((∃ x ∈ q.scheds, x.id = id) → ¬launched → ∃ t, exec (.schedUnload src tag) s = .next t ∧ Finished s t c 0 0 0 0
        ∧ (t.part p).scheds = q.scheds.filter (fun x => decide (x.id ≠ id)) ∧ (∀ g ∈ (t.part p).pages, g.image ≠ some id)
        ∧ ∀ k < 768, clusterOf k ∈ q.clusters → ∀ n < 16, ((s.core k).window n).res = true → ((s.core k).window n).owner = id →
            ((t.core k).window n).res = false ∧ ((t.core k).window n).en = false
            ∧ ∀ off, ((s.core k).window n).base * 16 ≤ off → off < ((s.core k).window n).last * 16 + 16 → off < 0x100000 → t.getByte (spadAddr k off) = 0) := by
  have hexec := exec_schedUnload h hp
  obtain ⟨-, honly⟩ := only_of_startable h
  have honly : ∀ b ∈ s.cmds, b.src = c.src → b.tag = c.tag → b = c := honly
  have hid : field (c.p 1) 31 0 = (c.p 1).toNat % 2 ^ 32 := field_low _ _
  rw [hid] at hexec
  intro q id launched
  refine ⟨fun hnone => ?_, fun hsome hbusy => ?_, fun hsome hfree => ?_⟩
  · have hno : (q.sched id).isNone = true := by
      rw [Option.isNone_iff_eq_none, ← Option.not_isSome_iff_eq_none, sched_isSome_iff]
      exact fun ⟨x, hx, hxid⟩ => hnone x hx hxid
    obtain ⟨hfin, hparts⟩ := refuse_finished (status := stRejPermission) (by decide) honly
    exact ⟨_, hexec.trans (if_pos hno), hfin, hparts⟩
  · have hyes : ¬(q.sched id).isNone = true := by simpa using Option.isSome_iff_ne_none.mp (sched_isSome_iff.mpr hsome)
    obtain ⟨hfin, hparts⟩ := refuse_finished (status := stRejBusy) (by decide) honly
    exact ⟨_, hexec.trans ((if_neg hyes).trans (if_pos (schedBusy_iff.mpr hbusy))), hfin, hparts⟩
  · have hyes : ¬(q.sched id).isNone = true := by simpa using Option.isSome_iff_ne_none.mp (sched_isSome_iff.mpr hsome)
    obtain ⟨hframe, -, -, -, hfreed⟩ := windowsFreed (heldWindows s p id) s
    generalize hu : (heldWindows s p id).foldl windowFreed s = u at hframe hfreed hexec
    have hhosts : (u.modPart p (unloadedPart id)).hosts = s.hosts := by
      change u.hosts = s.hosts
      rw [hframe]
    have hcmds : (u.modPart p (unloadedPart id)).cmds = s.cmds := by
      change u.cmds = s.cmds
      rw [hframe]
    have hfin := finish_finished (s := s) (c := c) (r := {}) hhosts (by decide) (fun b hb => honly b (hcmds ▸ hb))
    have hans := answered_finish (u.modPart p (unloadedPart id)) c {}
    have hpart : ((u.modPart p (unloadedPart id)).finish c {}).part p = unloadedPart id q := by
      have hupart : u.part p = q := part_of_parts _ _ (by rw [hframe]) p
      rw [part_of_parts _ _ (answered_parts hans), modPart_part, if_pos rfl, hupart]
    refine ⟨_, hexec.trans ((if_neg hyes).trans (if_neg (mt schedBusy_iff.mp hfree))), hfin, ?_, fun g hg => ?_, fun k hk hcl n hn hres howner => ?_⟩
    · rw [hpart]
      exact List.filter_congr fun x _ => Bool.eq_iff_iff.mpr (by simp)
    · rw [hpart] at hg
      exact bne_iff_ne.mp (List.mem_filter.mp hg).2
    · obtain ⟨hr, he, hbytes⟩ := hfreed k n (mem_heldWindows hcl hn hres howner)
      have hcore : ((u.modPart p (unloadedPart id)).finish c {}).core k = u.core k := core_of_cores _ _ (by rw [hans.frame]; rfl) k
      rw [hcore]
      refine ⟨hr, he, fun off hlo hhi _ => ?_⟩
      have hmem : ((u.modPart p (unloadedPart id)).finish c {}).mem = u.mem := (answered_mem hans :)
      rw [State.getByte, hmem]
      exact hbytes _ (by unfold spadAddr; omega) (by unfold spadAddr; omega)

end Sys2Proof.Proofs
end

section
/-!
PROOFS. SCHED_LOAD (O48): the reading of the image (R136, R359), and what a loaded schedule leaves (R129, R376, R377).
-/
namespace Sys2Proof.Proofs
open Sys2Proof Sys2Proof.Machine Sys2Proof.Stated Sys2Proof.Laws

/-! ### The image read (R136, R359) -/

/-- Reads of clean bytes, none of which finds an uncorrectable error. -/
theorem eccAll_mild {as : List Nat} {s : State} (hclean : ∀ a ∈ as, s.holdsError a = false) {h : Hit} (hm : MildHit h) (m : Nat) :
    (s.eccAll as m h).2 = true ∧ Counted s (s.eccAll as m h).1 := by
  induction as generalizing s h with
  | nil => exact ⟨rfl, .refl s⟩
  | cons a as ih =>
    obtain ⟨ha, has⟩ := List.forall_mem_cons.mp hclean
    obtain ⟨hok, hcounted⟩ := counted_eccRead ha (mildHit_now hm) m
    obtain ⟨hok', hcounted'⟩ := ih (s := (s.eccRead a m h.now).1) (fun b hb => (hcounted.holdsError b).trans (has b hb)) (mildHit_skip hm 1)
    simp only [State.eccAll, hok, if_true]
    exact ⟨hok', hcounted.trans hcounted'⟩

theorem eccRead_memory_uncorrectable {a : Nat} (h : (placeOf a).isMemory = true) (s : State) (m : Nat) : (s.eccRead a m .uncorrectable).2 = false := by
  cases hp : placeOf a with
  | mem b => simp [State.eccRead, hp]
  | spad k o => simp [State.eccRead, hp]
  | tun c o => simp [State.eccRead, hp]
  | _ => rw [hp] at h; cases h

/-- Reads one of which finds an uncorrectable error. -/
theorem eccAll_lost {as : List Nat} (hmem : ∀ a ∈ as, (placeOf a).isMemory = true) {n : Nat} (hn : n < as.length) (s : State) (m : Nat) :
    (s.eccAll as m (some (n, .uncorrectable))).2 = false := by
  induction as generalizing s n with
  | nil => exact absurd hn (Nat.not_lt_zero n)
  | cons a as ih =>
    obtain ⟨ha, has⟩ := List.forall_mem_cons.mp hmem
    rw [State.eccAll]
    cases n with
    | zero =>
      have hlost : (s.eccRead a m (Hit.now (some (0, .uncorrectable)))).2 = false := eccRead_memory_uncorrectable ha s m
      rw [if_neg (by simp [hlost]), hlost]
    | succ n =>
      split
      · exact ih has (n := n) (Nat.lt_of_succ_lt_succ hn) _
      · next hlost => simpa using hlost

theorem reported_eccAll (as : List Nat) (s : State) (m : Nat) (h : Hit) : Reported s (s.eccAll as m h).1 := by
  induction as generalizing s h with
  | nil => exact .refl s
  | cons a as ih =>
    rw [State.eccAll]
    split
    · exact (reported_eccRead s a m _).trans (ih _ _)
    · exact reported_eccRead s a m _

theorem freeBytes_frame (n : Nat) (s : State) : (s.freeBytes n).2 = { s with free := (s.freeBytes n).2.free } := by
  induction n generalizing s with
  | zero => rfl
  | succ n ih =>
    change (s.drawFree.2.freeBytes n).2 = { s with free := (s.drawFree.2.freeBytes n).2.free }
    exact (ih s.drawFree.2).trans rfl

/-- From s to t what an image's reading may change is neither memory, a partition, a port nor a command. -/
structure ImageRead (s t : State) : Prop where
  parts : t.parts = s.parts
  mem : t.mem = s.mem
  hosts : t.hosts = s.hosts
  cmds : t.cmds = s.cmds

theorem ImageRead.refl (s : State) : ImageRead s s := ⟨rfl, rfl, rfl, rfl⟩

theorem imageRead_of_counted {s t : State} (h : Counted s t) : ImageRead s t := by
  rw [h.frame]
  exact ⟨rfl, rfl, rfl, rfl⟩

section
variable {s : State} {p a n : Nat} {h : Hit}

theorem cmdRead_untranslated {f : AFault} (hf : masterXlateN s p .read a n = .error f) : s.cmdRead p false a n h = (none, s) := by
  simp [State.cmdRead, hf]

theorem cmdRead_unanswered (hno : (s.part p).valid = false ∨ hostAnswers (s.part p).hostPort a n = false) : s.cmdRead p true a n h = (none, s) := by
  rcases hno with h | h <;> simp [State.cmdRead, h]

theorem cmdRead_host (hv : (s.part p).valid = true) (hans : hostAnswers (s.part p).hostPort a n = true) :
    ∃ bs u, s.cmdRead p true a n h = (some bs, u) ∧ ImageRead s u := by
  refine ⟨(s.freeBytes n).1, (s.freeBytes n).2, by simp [State.cmdRead, hv, hans], ?_⟩
  rw [freeBytes_frame]
  exact ⟨rfl, rfl, rfl, rfl⟩

theorem cmdRead_local {pas : List Nat} (hlen : pas.length = n) (hl : LocalBytes s p .read a pas) : s.cmdRead p false a n h =
    if (s.eccAll pas maltsterId h).2 then (some (pas.map (s.eccAll pas maltsterId h).1.getByte), (s.eccAll pas maltsterId h).1)
    else (none, (s.eccAll pas maltsterId h).1) := by
  obtain ⟨ts, hts, hpas, hbytes⟩ := hl
  have hmem : pas.all (fun x => (placeOf x).isMemory) = true := List.all_eq_true.mpr fun x hx => (hbytes x hx).1
  rw [hlen] at hts
  unfold State.cmdRead
  rw [if_neg (by decide), hts]
  dsimp only
  rw [hpas, if_pos (by rw [hlen, hmem]; simp)]

theorem cmdRead_mild {pas : List Nat} (hlen : pas.length = n) (hl : LocalBytes s p .read a pas) (hm : MildHit h) :
    ∃ bs u, s.cmdRead p false a n h = (some bs, u) ∧ ImageRead s u := by
  have hread := cmdRead_local (h := h) hlen hl
  obtain ⟨ts, -, -, hbytes⟩ := hl
  obtain ⟨hok, hcounted⟩ := eccAll_mild (fun x hx => (hbytes x hx).2) hm maltsterId
  rw [if_pos hok] at hread
  exact ⟨_, _, hread, imageRead_of_counted hcounted⟩

theorem cmdRead_lost {pas : List Nat} (hlen : pas.length = n) (hl : LocalBytes s p .read a pas) {m : Nat} (hm : m < n) :
    ∃ u, s.cmdRead p false a n (some (m, .uncorrectable)) = (none, u) ∧ Reported s u := by
  have hread := cmdRead_local (h := some (m, .uncorrectable)) hlen hl
  obtain ⟨ts, -, -, hbytes⟩ := hl
  rw [if_neg (by rw [eccAll_lost (fun x hx => (hbytes x hx).1) (hlen ▸ hm)]; decide)] at hread
  exact ⟨_, hread, reported_eccAll _ _ _ _⟩

end

/-! ### The schedule in place (R129, R376, R379) -/

theorem putContent_frame (es : List (Nat × List Byte)) (s : State) :
    es.foldl (fun s e => s.putBytes e.1 e.2) s = { s with mem := (es.foldl (fun s e => s.putBytes e.1 e.2) s).mem } :=
  List.foldlRecOn (motive := fun t : State => t = { s with mem := t.mem }) es _ rfl fun t ht e _ => by rw [State.putBytes, ht]

/-- A resident window set in its core's registers, with its initial bytes. -/
def windowLoaded (id : Nat) (s : State) (w : WinDef) : State :=
  ((s.modCore w.core (fun c => c.placeWindow id w)).zeroRange (spadAddr w.core (winLo w)) (winHi w - winLo w)).putBytes
    (spadAddr w.core (winLo w)) ((w.initial.getD []).take (winHi w - winLo w))

theorem loadResident_eq (s : State) (id : Nat) (ws : List WinDef) :
    s.loadResident id ws = (ws.filter (fun w => w.resident)).foldl (windowLoaded id) s := rfl

theorem loadResident_frame (s : State) (id : Nat) (ws : List WinDef) : s.loadResident id ws =
    { s with cores := (s.loadResident id ws).cores, mem := (s.loadResident id ws).mem, bad := (s.loadResident id ws).bad } := by
  rw [loadResident_eq]
  exact List.foldlRecOn (motive := fun t : State => t = { s with cores := t.cores, mem := t.mem, bad := t.bad }) _ _ rfl
    fun t ht w _ => by
      change { t with cores := (windowLoaded id t w).cores, mem := (windowLoaded id t w).mem, bad := (windowLoaded id t w).bad } = _
      rw [ht]

theorem windowLoaded_window {w : WinDef} (hres : w.resident = true) (s : State) (id : Nat) :
    (((windowLoaded id s w).core w.core).window w.slot).res = true ∧ (((windowLoaded id s w).core w.core).window w.slot).owner = id := by
  have hcore : (windowLoaded id s w).core w.core = (s.core w.core).placeWindow id w := by
    change (s.modCore w.core (fun c => c.placeWindow id w)).core w.core = _
    rw [modCore_core, if_pos rfl]
  rw [hcore, Core.placeWindow, setWindow_window, if_pos rfl, hres]
  exact ⟨rfl, rfl⟩

theorem windowLoaded_getByte (s : State) (id : Nat) (w : WinDef) {i : Nat} (hi : i < winHi w - winLo w) :
    (windowLoaded id s w).getByte (spadAddr w.core (winLo w + i)) = (w.initial.getD []).getD i 0 := by
  have haddr : spadAddr w.core (winLo w + i) = spadAddr w.core (winLo w) + i := by
    unfold spadAddr
    omega
  rw [haddr, windowLoaded]
  by_cases hin : i < ((w.initial.getD []).take (winHi w - winLo w)).length
  · rw [putBytes_getByte_inside _ _ hin, List.getD_eq_getElem?_getD, List.getElem?_take_of_lt hi, ← List.getD_eq_getElem?_getD]
  · have hout : (w.initial.getD []).length ≤ i := by
      rw [List.length_take] at hin
      omega
    rw [putBytes_getByte_outside _ _ _ (Or.inr (by omega)), zeroRange_getByte, if_pos (by omega), List.getD_eq_default _ _ hout]

/-- The partition with one more schedule. -/
def loadedPart (id : Nat) (im : SchedImage) (x : Sched) (q : Part) : Part :=
  { q with scheds := q.scheds ++ [x], pages := im.pages.map (fun g => { g with image := some id }) ++ q.pages }

/-- The state with an image's contents and resident windows in place. -/
def imageLoaded (u : State) (id : Nat) (im : SchedImage) (v : Option Nat) : State :=
  (im.content.foldl (fun s e => s.putBytes e.1 e.2) u).loadResident id (imWindows im v)

theorem imageLoaded_frame (u : State) (id : Nat) (im : SchedImage) (v : Option Nat) : imageLoaded u id im v =
    { u with cores := (imageLoaded u id im v).cores, mem := (imageLoaded u id im v).mem, bad := (imageLoaded u id im v).bad } := by
  rw [imageLoaded, loadResident_frame, putContent_frame]

theorem variantNow_of_none_out {q : Part} (h : outClusters q = []) : q.variantNow = none := by
  unfold outClusters at h
  rw [Part.variantNow, List.find?_eq_none]
  exact fun c hc hout => absurd hout (List.filter_eq_nil_iff.mp h c hc)

/-! ### SCHED_LOAD -/

section
variable {src : CmdSrc} {tag p : Nat} {s : State} {c : Cmd} {im : SchedImage} {h : Hit} (hst : Startable s c src tag 0x20) (hp : c.part = some p)
  (him : imagePlaced s p im = true)
include hst hp him

theorem exec_schedLoad_busy (hbusy : ((s.part p).sched (field (c.p 3) 31 0)).isSome = true) :
    exec (.schedLoad src tag im h) s = .next (s.refuse c stRejBusy) := by
  change execSchedLoad src tag im h s = _
  simp [execSchedLoad, cmdFor_of_startable hst, Cmd.partOr, hp, him, hbusy]

theorem exec_schedLoad_unread (hfree : ((s.part p).sched (field (c.p 3) 31 0)).isSome = false) {u : State}
    (hread : s.cmdRead p (bit (c.p 4) 0) (c.p 1).toNat (field (c.p 2) 39 0) h = (none, u)) :
    exec (.schedLoad src tag im h) s = .next (u.refuse c stFault) := by
  change execSchedLoad src tag im h s = _
  simp [execSchedLoad, cmdFor_of_startable hst, Cmd.partOr, hp, him, hfree, hread]

theorem exec_schedLoad_read (hfree : ((s.part p).sched (field (c.p 3) 31 0)).isSome = false) {bs : List Byte} {u : State}
    (hread : s.cmdRead p (bit (c.p 4) 0) (c.p 1).toNat (field (c.p 2) 39 0) h = (some bs, u)) :
    exec (.schedLoad src tag im h) s =
      if scopeOk s p im = false then .next (u.refuse c stRejPermission)
      else if routesOk s im = false then .next (u.refuse c stRejReserved)
      else if windowsMeet (s.part p) im = true ∨ roomOk (s.part p) im (field (c.p 2) 39 0) = false then .next (u.refuse c stNoSpace)
      else .next (((imageLoaded u (field (c.p 3) 31 0) im (s.part p).variantNow).modPart p (loadedPart (field (c.p 3) 31 0) im
        { id := field (c.p 3) 31 0, image := im,
          bytes := schedBytes ((s.part p).clusters.flatMap clusterCores) im (field (c.p 2) 39 0) })).finish c {}) := by
  change execSchedLoad src tag im h s = _
  simp only [execSchedLoad, cmdFor_of_startable hst, Cmd.partOr, hp, Option.getD_some, him, hfree, hread, Bool.not_true, Bool.false_eq_true, if_false,
    Bool.not_eq_true', Bool.or_eq_true]
  rfl

end

/-- The schedule in place, with its windows and pages. -/
theorem schedLoaded {s u : State} (hu : ImageRead s u) {c : Cmd} (honly : ∀ b ∈ s.cmds, b.src = c.src → b.tag = c.tag → b = c) {p : Nat} (id : Nat)
    (im : SchedImage) (x : Sched) : let q := s.part p
    let t := ((imageLoaded u id im q.variantNow).modPart p (loadedPart id im x)).finish c {}
    Finished s t c 0 0 0 0 ∧ (t.part p).scheds = q.scheds ++ [x] ∧ (t.part p).pages = im.pages.map (fun g => { g with image := some id }) ++ q.pages
      ∧ ∀ w, outClusters q = [] → im.windows.filter (fun v => v.resident) = [w] →
          ((t.core w.core).window w.slot).res = true ∧ ((t.core w.core).window w.slot).owner = id
            ∧ ∀ i < winHi w - winLo w, t.getByte (spadAddr w.core (winLo w + i)) = (w.initial.getD []).getD i 0 := by
  intro q t
  have hframe := imageLoaded_frame u id im q.variantNow
  generalize hv : imageLoaded u id im q.variantNow = v at hframe
  have ht : t = (v.modPart p (loadedPart id im x)).finish c {} := by rw [← hv]
  have hhosts : (v.modPart p (loadedPart id im x)).hosts = s.hosts := by
    change v.hosts = s.hosts
    rw [hframe]
    exact hu.hosts
  have hcmds : (v.modPart p (loadedPart id im x)).cmds = s.cmds := by
    change v.cmds = s.cmds
    rw [hframe]
    exact hu.cmds
  have hans := answered_finish (v.modPart p (loadedPart id im x)) c {}
  have hpart : t.part p = loadedPart id im x q := by
    have hvpart : v.part p = q := part_of_parts _ _ ((by rw [hframe] : v.parts = u.parts).trans hu.parts) p
    rw [ht, part_of_parts _ _ (answered_parts hans), modPart_part, if_pos rfl, hvpart]
  refine ⟨?_, by rw [hpart]; rfl, by rw [hpart]; rfl, fun w hout hone => ?_⟩
  · rw [ht]
    exact finish_finished (s := s) (c := c) (r := {}) hhosts (by decide) (fun b hb => honly b (hcmds ▸ hb))
  · have hcore (k : Nat) : t.core k = v.core k := core_of_cores _ _ (by rw [ht, hans.frame]; rfl) k
    have hbyte (a : Nat) : t.getByte a = v.getByte a := by
      have hmem : t.mem = v.mem := by rw [ht]; exact (answered_mem hans :)
      rw [State.getByte, hmem, State.getByte]
    have hload : v = windowLoaded id (im.content.foldl (fun s e => s.putBytes e.1 e.2) u) w := by
      rw [← hv, imageLoaded, variantNow_of_none_out hout, loadResident_eq]
      change (im.windows.filter (fun w => w.resident)).foldl _ _ = _
      rw [hone, List.foldl_cons, List.foldl_nil]
    have hres : w.resident = true := by
      have hmem : w ∈ im.windows.filter (fun v => v.resident) := hone ▸ List.mem_singleton_self w
      exact (List.mem_filter.mp hmem).2
    obtain ⟨hset, howner⟩ := windowLoaded_window hres (im.content.foldl (fun s e => s.putBytes e.1 e.2) u) id
    rw [hcore, hload]
    refine ⟨hset, howner, fun i hi => ?_⟩
    rw [hbyte, hload]
    exact windowLoaded_getByte _ _ _ hi

/-- A refusal after the image's reading. -/
theorem refused_after {s u : State} (hhosts : u.hosts = s.hosts) (hcmds : u.cmds = s.cmds) {c : Cmd}
    (honly : ∀ b ∈ s.cmds, b.src = c.src → b.tag = c.tag → b = c) {status : Nat} (hst : status < 2 ^ 8) :
    Finished s (u.refuse c status) c status 0 0 0 ∧ (u.refuse c status).parts = u.parts ∧ (u.refuse c status).mem = u.mem := by
  have hfin := finish_finished (s := s) (u := u) (c := c) (r := { status := status }) hhosts hst (fun b hb => honly b (hcmds ▸ hb))
  have hans := answered_finish u c { status := status }
  rw [show (resultC1 { status := status }).toNat = 0 from by simp [toNat_resultC1]] at hfin
  exact ⟨hfin, answered_parts hans, answered_mem hans⟩

theorem schedLoads {src : CmdSrc} {tag p : Nat} {s : State} {c : Cmd} {im : SchedImage} {h : Hit} (hst : Startable s c src tag 0x20)
    (hp : c.part = some p) (him : imagePlaced s p im = true) :
    let q := s.part p
    let id := (c.p 3).toNat % 2 ^ 32
    let n := (c.p 2).toNat % 2 ^ 40
    let host := (c.p 4).getLsbD 0
    let refused (status : Nat) : Prop := ∃ t, exec (.schedLoad src tag im h) s = .next t ∧ Finished s t c status 0 0 0 ∧ t.parts = s.parts
      ∧ t.mem = s.mem
    let loaded (good : State → Prop) : Prop := ∃ t, exec (.schedLoad src tag im h) s = .next t ∧ good t
      ∧ (∃ x, (t.part p).scheds = q.scheds ++ [x] ∧ x.id = id ∧ x.image = im)
      ∧ (t.part p).pages = im.pages.map (fun g => { g with image := some id }) ++ q.pages
      ∧ ∀ w, outClusters q = [] → im.windows.filter (fun v => v.resident) = [w] → w.core < 768 → winHi w ≤ 0x100000 →
          ((t.core w.core).window w.slot).res = true ∧ ((t.core w.core).window w.slot).owner = id
            ∧ ∀ i < winHi w - winLo w, t.getByte (spadAddr w.core (winLo w + i)) = (w.initial.getD []).getD i 0
    let room : Prop := windowsMeet q im = false ∧ roomOk q im n = true
    ((∃ x ∈ q.scheds, x.id = id) → refused 0x14)
    ∧ ((∀ x ∈ q.scheds, x.id ≠ id) →
      (∀ f, host = false → masterXlateN s p .read (c.p 1).toNat n = .error f → refused 0x20)
      ∧ (host = true → q.valid = false ∨ hostAnswers q.hostPort (c.p 1).toNat n = false → refused 0x20)
      ∧ (∀ pas m, host = false → pas.length = n → LocalBytes s p .read (c.p 1).toNat pas → m < n → h = some (m, .uncorrectable) →
          ∃ t, exec (.schedLoad src tag im h) s = .next t ∧ Finished s t c 0x20 0 0 0)
      ∧ ((host = true ∧ q.valid = true ∧ hostAnswers q.hostPort (c.p 1).toNat n = true)
            ∨ (host = false ∧ MildHit h ∧ ∃ pas, pas.length = n ∧ LocalBytes s p .read (c.p 1).toNat pas) →
        (scopeOk s p im = false → refused 0x15)
        ∧ (scopeOk s p im = true → routesOk s im = false → refused 0x11)
        ∧ (scopeOk s p im = true → routesOk s im = true → ¬room → refused 0x30)
        ∧ (scopeOk s p im = true → routesOk s im = true → room → loaded (fun t => Finished s t c 0 0 0 0)))) := by
  intro q id n host refused loaded room
  obtain ⟨-, honly⟩ := only_of_startable hst
  have honly : ∀ b ∈ s.cmds, b.src = c.src → b.tag = c.tag → b = c := honly
  have hid : field (c.p 3) 31 0 = id := field_low _ _
  have hn : field (c.p 2) 39 0 = n := field_low _ _
  refine ⟨fun hbusy => ?_, fun hnone => ?_⟩
  · have hexec := exec_schedLoad_busy (h := h) hst hp him (by rw [hid]; exact sched_isSome_iff.mpr hbusy)
    obtain ⟨hfin, hparts, hmem⟩ := refused_after (s := s) (u := s) rfl rfl honly (status := stRejBusy) (by decide)
    exact ⟨_, hexec, hfin, hparts, hmem⟩
  · have hfree : ((s.part p).sched (field (c.p 3) 31 0)).isSome = false := by
      rw [hid, ← Bool.not_eq_true, sched_isSome_iff]
      exact fun ⟨x, hx, hxid⟩ => hnone x hx hxid
    have hunread {u : State} (hread : s.cmdRead p host (c.p 1).toNat n h = (none, u)) : exec (.schedLoad src tag im h) s = .next (u.refuse c stFault) :=
      exec_schedLoad_unread hst hp him hfree (by rw [hn]; exact hread)
    have hfault (hread : s.cmdRead p host (c.p 1).toNat n h = (none, s)) : refused 0x20 :=
      ⟨_, hunread hread, refused_after rfl rfl honly (by decide)⟩
    refine ⟨fun f hhost hf => hfault ?_, fun hhost hno => hfault ?_, fun pas m hhost hlen hl hm hh => ?_, fun hgood => ?_⟩
    · rw [hhost]
      exact cmdRead_untranslated hf
    · rw [hhost]
      exact cmdRead_unanswered hno
    · obtain ⟨u, hread, hrep⟩ := cmdRead_lost hlen hl hm
      rw [← hh, ← hhost] at hread
      exact ⟨_, hunread hread, (refused_after hrep.hosts hrep.cmds honly (by decide)).1⟩
    · obtain ⟨bs, u, hread, hu⟩ : ∃ bs u, s.cmdRead p host (c.p 1).toNat n h = (some bs, u) ∧ ImageRead s u := by
        rcases hgood with ⟨hhost, hv, hans⟩ | ⟨hhost, hm, pas, hlen, hl⟩
        · rw [hhost]
          exact cmdRead_host hv hans
        · rw [hhost]
          exact cmdRead_mild hlen hl hm
      have hexec := exec_schedLoad_read hst hp him hfree (by rw [hn]; exact hread)
      rw [hid, hn] at hexec
      have hrefused {status : Nat} (hstat : status < 2 ^ 8) (he : exec (.schedLoad src tag im h) s = .next (u.refuse c status)) : refused status := by
        obtain ⟨hfin, hparts, hmem⟩ := refused_after hu.hosts hu.cmds honly hstat
        exact ⟨_, he, hfin, hparts.trans hu.parts, hmem.trans hu.mem⟩
      refine ⟨fun hscope => hrefused (by decide) (hexec.trans (if_pos hscope)), fun hscope hroutes => hrefused (by decide) ?_,
        fun hscope hroutes hroom => hrefused (by decide) ?_, fun hscope hroutes hroom => ?_⟩
      · rw [hexec, if_neg (by simp [hscope]), if_pos hroutes]
        rfl
      · rw [hexec, if_neg (by simp [hscope]), if_neg (by simp [hroutes]), if_pos]
        · rfl
        · by_cases hmeet : windowsMeet q im = true
          · exact .inl hmeet
          · exact .inr (by simpa using fun hok => hroom ⟨by simpa using hmeet, hok⟩)
      · obtain ⟨hmeet, hok⟩ := hroom
        obtain ⟨hfin, hscheds, hpages, hwin⟩ := schedLoaded (p := p) hu honly id im
          { id := id, image := im, bytes := schedBytes (q.clusters.flatMap clusterCores) im n }
        refine ⟨_, ?_, hfin, ⟨_, hscheds, rfl, rfl⟩, hpages, fun w hout hone _ _ => hwin w hout hone⟩
        rw [hexec, if_neg (by simp [hscope]), if_neg (by simp [hroutes]), if_neg]
        rintro (hbad | hbad)
        · exact Bool.false_ne_true (hmeet.symm.trans hbad)
        · exact Bool.false_ne_true (hbad.symm.trans hok)

end Sys2Proof.Proofs
end

section
/-!
PROOFS. Commands that a CANCEL ends (O48): which commands stay undecided, and what an unstarted, a suspended or a rolled-back launch leaves
as it ends (R365, R383, R406, R413).
-/
namespace Sys2Proof.Proofs
open Sys2Proof Sys2Proof.Machine Sys2Proof.Stated Sys2Proof.Laws

/-! ### Commands that stay -/

/-- From s to t every command stands as it was or is decided. -/
def CmdsKept (s t : State) : Prop := ∀ b ∈ t.cmds, b ∈ s.cmds ∨ b.decided = true

theorem CmdsKept.trans {s t u : State} (h : CmdsKept s t) (g : CmdsKept t u) : CmdsKept s u := fun b hb =>
  (g b hb).elim (h b) .inr

theorem cmdsKept_of_eq {s t : State} (h : t.cmds = s.cmds) : CmdsKept s t := fun _ hb => .inl (h ▸ hb)

theorem cmdsKept_conclude (s : State) (c : Cmd) (r : Result) : CmdsKept s (s.conclude c r) := by
  intro b hb
  rcases mem_decideCmd (cmds_replyTo.1 hb) with ⟨hmem, -⟩ | ⟨-, rfl⟩
  · exact .inl hmem
  · exact .inr rfl

theorem cmdsKept_finish (s : State) (c : Cmd) (r : Result) : CmdsKept s (s.finish c r) := by
  refine (cmdsKept_conclude s c r).trans fun b hb => ?_
  obtain ⟨a, ha, rfl | ⟨-, rfl⟩⟩ := (swept_nopSteps _ (s.conclude c r)).cmds b hb
  · exact .inl ha
  · exact .inr rfl

/-- No command is outstanding with the source and tag of c but c itself. -/
def Alone (u : State) (c : Cmd) : Prop := ∀ b ∈ u.cmds, b.src = c.src → b.tag = c.tag → b = c ∨ b.decided = true

theorem Alone.kept {u v : State} {c : Cmd} (h : Alone u c) (g : CmdsKept u v) : Alone v c := fun b hb hsrc htag =>
  (g b hb).elim (fun hmem => h b hmem hsrc htag) .inr

/-- The final reply to a command on the management path that stands alone. -/
theorem finish_of_alone {s u : State} {c : Cmd} (hm : c.src = .mgmt) (halone : Alone u c) {r : Result} (hr : r.status < 2 ^ 8) :
    Finished s (u.finish c r) c r.status (resultC1 r).toNat r.c2 r.c3 := by
  refine finished_of_mgmt (s' := u) hm (finished_of_answered (t := u.conclude c r) ⟨?_, fun b hb hsrc htag => ?_⟩ (answered_nopSweep _))
  · exact replyTo_replied (s := u) (u := { u with cmds := decideCmd c u.cmds }) rfl _ _ _ hr
  · rcases mem_decideCmd (cmds_replyTo.1 hb) with ⟨hmem, hne⟩ | ⟨-, rfl⟩
    · exact (halone b hmem hsrc htag).resolve_left hne
    · rfl

theorem resultC1_plain (status : Nat) (x : Word) : (resultC1 { status := status, c2 := x }).toNat = 0 := by simp [toNat_resultC1]

/-! ### A suspended launch that ends (R365, R383) -/

theorem restoreLines_frame (s : State) (ls : List (Nat × List Byte)) : s.restoreLines ls =
    { s with mem := (s.restoreLines ls).mem, bad := (s.restoreLines ls).bad, poison := (s.restoreLines ls).poison } :=
  List.foldlRecOn (motive := fun t : State => t = { s with mem := t.mem, bad := t.bad, poison := t.poison }) ls _ rfl fun t ht e _ => by
    dsimp only [State.putBytes, State.zeroRange]
    rw [ht]

theorem restoreSuspended_keeps (s : State) (p : Nat) (sv : Saved) (im : SchedImage) : (s.restoreSuspended p sv im).cmds = s.cmds
    ∧ (s.restoreSuspended p sv im).part p = { s.part p with boundary := ((s.restoreSuspended p sv im).part p).boundary } := by
  have hput {α : Type} (f : α → Option Nat) (g : α → Byte) (bs : List α) (t : State) :
      (bs.foldl (fun s b => match f b with | some a => s.putByte a (g b) | none => s) t).cmds = t.cmds
        ∧ (bs.foldl (fun s b => match f b with | some a => s.putByte a (g b) | none => s) t).parts = t.parts :=
    List.foldlRecOn (motive := fun u : State => u.cmds = t.cmds ∧ u.parts = t.parts) bs _ ⟨rfl, rfl⟩ fun u hu b _ => by
      cases f b <;> exact hu
  unfold State.restoreSuspended
  extract_lets id v bytes resident carried move s1 s2 old
  obtain ⟨hcmds, hparts⟩ := hput (fun b : Host.Cell => resident b.1) (fun b => b.2) bytes s1
  have hs2 : s2.cmds = s1.cmds ∧ s2.parts = s1.parts := ⟨hcmds, hparts⟩
  have hs1 : s1.cmds = s.cmds ∧ s1.parts = s.parts := by
    unfold s1
    rw [restoreLines_frame]
    exact ⟨rfl, rfl⟩
  constructor
  · exact hs2.1.trans hs1.1
  · rw [modPart_part, if_pos rfl, part_of_parts _ _ (hs2.2.trans hs1.2)]

/-- From s to t commands stay or are decided, and the partition keeps its launch; its suspended launches are those given. -/
structure LaunchKept (s t : State) (p : Nat) (sus : List Saved) : Prop where
  cmds : CmdsKept s t
  launch : (t.part p).launch = (s.part p).launch
  suspended : (t.part p).suspended = sus

theorem launchKept_finish (s : State) (p : Nat) (c : Cmd) (r : Result) : LaunchKept s (s.finish c r) p (s.part p).suspended := by
  have hpart := part_of_parts _ _ (answered_parts (answered_finish s c r)) p
  exact ⟨cmdsKept_finish s c r, by rw [hpart], by rw [hpart]⟩

theorem launchKept_report (s : State) (p : Nat) (c : Cmd) (r r' : Result) (is : List Item) :
    LaunchKept s ((s.writeReport p c r is).2.finish c r') p (s.part p).suspended := by
  have hrep := reported_writeReport s p c r is
  obtain ⟨hcmds, hlaunch, hsus⟩ := launchKept_finish (s.writeReport p c r is).2 p c r'
  refine ⟨(cmdsKept_of_eq hrep.cmds).trans hcmds, hlaunch.trans ?_, hsus.trans ?_⟩
  · rw [hrep.part]
  · rw [hrep.part]

theorem endSuspended_keeps (s : State) (p : Nat) (sv : Saved) (r : Result) (rule : ItemRule) :
    LaunchKept s (s.endSuspended p sv r rule) p ((s.part p).suspended.filter (fun x => x != sv)) := by
  unfold State.endSuspended
  extract_lets s0 s1
  have hs0 : s0.cmds = s.cmds ∧ (s0.part p).launch = (s.part p).launch ∧ (s0.part p).suspended = (s.part p).suspended := by
    unfold s0
    split
    · next x _ =>
      obtain ⟨hcmds, hpart⟩ := restoreSuspended_keeps s p sv x.image
      exact ⟨hcmds, by rw [hpart], by rw [hpart]⟩
    · rw [restoreLines_frame]
      exact ⟨rfl, rfl, rfl⟩
  obtain ⟨hcmds, hlaunch, hsus⟩ := hs0
  have hs1 : LaunchKept s s1 p ((s.part p).suspended.filter (fun x => x != sv)) := by
    unfold s1
    refine ⟨cmdsKept_of_eq hcmds, ?_, ?_⟩
    · rw [modPart_part, if_pos rfl]
      exact hlaunch
    · rw [modPart_part, if_pos rfl]
      exact congrArg _ hsus
  obtain ⟨hcmds1, hlaunch1, hsus1⟩ := hs1
  split
  · next t x _ _ =>
    obtain ⟨hc, hl, hs⟩ := launchKept_report s1 p t { r with c2 := launchC2 sv.launch } (s1.writeReport p t { r with c2 := launchC2 sv.launch }
      (s1.items p sv.launch x.image rule)).1 (s1.items p sv.launch x.image rule)
    exact ⟨hcmds1.trans hc, hl.trans hlaunch1, hs.trans hsus1⟩
  · next t _ _ =>
    obtain ⟨hc, hl, hs⟩ := launchKept_finish s1 p t r
    exact ⟨hcmds1.trans hc, hl.trans hlaunch1, hs.trans hsus1⟩
  · exact ⟨hcmds1, hlaunch1, hsus1⟩

theorem dropSuspended_keeps (s : State) (p : Nat) : CmdsKept s (s.dropSuspended p) ∧ ((s.dropSuspended p).part p).launch = (s.part p).launch := by
  unfold State.dropSuspended
  refine List.foldlRecOn (motive := fun t : State => CmdsKept s t ∧ (t.part p).launch = (s.part p).launch) _ _ ⟨cmdsKept_of_eq rfl, rfl⟩
    fun t ht sv _ => ?_
  obtain ⟨hc, hl, -⟩ := endSuspended_keeps t p sv { status := stAbort, cause := 0x10 } (abortRule 0x10)
  exact ⟨ht.1.trans hc, hl.trans ht.2⟩

/-! ### A rolled-back launch that ends (R365, R406, R413) -/

theorem told_closeActed (s : State) (p : Nat) (lost : Option Nat) (peer : Bool) :
    Told (s.modPart p (fun q => { q with acted := [] })) (s.closeActed p lost peer) := by
  refine told_foldl (fun _ _ => ?_) _ _
  split <;> exact told_recordClose _ _ _ _ _ _

theorem launchClose_ends (s : State) (p : Nat) (lost : Option Nat) (peer : Bool) :
    ((s.closeActed p lost peer).launchClose p).cmds = s.cmds ∧ (((s.closeActed p lost peer).launchClose p).part p).launch = none := by
  constructor
  · change (s.closeActed p lost peer).cmds = s.cmds
    rw [told_closeActed s p lost peer]
    rfl
  · change ((s.closeActed p lost peer).modPart p (fun q =>
      { q with launch := none, abort := none, rolledBack := false, lossy := false, logged := [], cellar := [],
               st := if q.st = .running then .idle else q.st, preq := false }) |>.part p).launch = none
    rw [modPart_part, if_pos rfl]

theorem cancelsDone_keeps (s : State) (p tag : Nat) : CmdsKept s (s.cancelsDone p tag) := by
  unfold State.cancelsDone
  dsimp only
  refine List.foldlRecOn (motive := fun t : State => CmdsKept s t) _ _ (cmdsKept_of_eq rfl) fun t ht e _ => ?_
  split
  · exact ht.trans (cmdsKept_finish _ _ _)
  · exact ht

/-- A launch that ends leaves none in its partition. -/
theorem endLaunch_ends {s : State} {p : Nat} {l : Launch} (hl : (s.part p).launch = some l) (r : Result) (is : List Item) (lost : Option Nat)
    (peer : Bool) : CmdsKept s (s.endLaunch p r is lost peer) ∧ ((s.endLaunch p r is lost peer).part p).launch = none := by
  obtain ⟨hcmds, hlaunch⟩ := launchClose_ends s p lost peer
  unfold State.endLaunch
  rw [hl]
  dsimp only
  split
  · exact ⟨cmdsKept_of_eq hcmds, hlaunch⟩
  · next c _ =>
    obtain ⟨hc, hkept, -⟩ := launchKept_report ((s.closeActed p lost peer).launchClose p) p c { r with c2 := launchC2 l }
      (((s.closeActed p lost peer).launchClose p).writeReport p c { r with c2 := launchC2 l } is).1 is
    refine ⟨(cmdsKept_of_eq hcmds).trans (hc.trans (cancelsDone_keeps _ _ _)), ?_⟩
    rw [cancelsDone_part]
    exact hkept.trans hlaunch

theorem endAborted_ends {s : State} {p : Nat} {l : Launch} (hl : (s.part p).launch = some l) (a : Abort) :
    CmdsKept s (s.endAborted p l a) ∧ ((s.endAborted p l a).part p).launch = none := by
  unfold State.endAborted
  dsimp only
  split
  · obtain ⟨hc, hnone⟩ := endLaunch_ends hl { status := stDataLoss, cause := 0x0C } (s.launchItems p l (abortRule 0x0C)) (some actDataLoss) false
    obtain ⟨hc', hnone'⟩ := dropSuspended_keeps (s.endLaunch p { status := stDataLoss, cause := 0x0C } (s.launchItems p l (abortRule 0x0C))
      (some actDataLoss) false) p
    exact ⟨hc.trans hc', hnone'.trans hnone⟩
  · exact endLaunch_ends hl _ _ _ _

/-! ### A check for pre-emption -/

theorem preemptCheck_frame (s : State) (p : Nat) :
    s.preemptCheck p = { s with cores := (s.preemptCheck p).cores, parts := (s.preemptCheck p).parts } := by
  have heach (u : State) (f : Core → Core) : u.eachCore p f = { u with cores := (u.eachCore p f).cores } :=
    List.foldlRecOn (motive := fun t : State => t = { u with cores := t.cores }) _ _ rfl fun t ht k _ => by
      change { t with cores := (t.modCore k f).cores } = _
      rw [ht]
  unfold State.preemptCheck
  dsimp only
  split
  · rfl
  · split
    · rw [heach]
      rfl
    · rfl

theorem preemptCheck_part (s : State) (p : Nat) : (s.preemptCheck p).part p = { s.part p with preq := ((s.preemptCheck p).part p).preq } := by
  unfold State.preemptCheck
  dsimp only
  split
  · rfl
  · split
    · rw [eachCore_part, modPart_part, if_pos rfl]
    · rfl

theorem preemptCheck_finished {s u : State} {c : Cmd} {status c1 : Nat} {c2 c3 : Word} (h : Finished s u c status c1 c2 c3) (p : Nat) :
    Finished s (u.preemptCheck p) c status c1 c2 c3 := by
  rw [preemptCheck_frame]
  exact h

end Sys2Proof.Proofs
end

section
/-!
PROOFS. CANCEL (O48): the command it finds, and what it does by the state of that command (R365).
-/
namespace Sys2Proof.Proofs
open Sys2Proof Sys2Proof.Machine Sys2Proof.Stated Sys2Proof.Laws

theorem find?_eq_of_unique {α : Type} {l : List α} {q : α → Bool} {x : α} (hx : x ∈ l) (hq : q x = true) (honly : ∀ y ∈ l, q y = true → y = x) :
    l.find? q = some x := by
  obtain ⟨y, hy⟩ := Option.isSome_iff_exists.mp (List.find?_isSome.mpr ⟨x, hx, hq⟩)
  rw [hy, honly y (List.mem_of_find?_eq_some hy) (List.find?_some hy)]

/-! ### A CANCEL that has started (R357) -/

/-- The state with a command started, where no NOP waits. -/
def begun (s : State) (c : Cmd) : State := s.modCmd c (fun c => { c with started := true })

/-- A command that runs. -/
def running (c : Cmd) : Cmd := { c with started := true }

theorem startCmd_eq_begun {s : State} (c : Cmd) (hnop : ∀ b ∈ s.cmds, b.op ≠ 0) : s.startCmd c = begun s c := by
  have hsteps (n : Nat) (u : State) (hu : ∀ b ∈ u.cmds, b.op ≠ 0) : State.nopSteps n u = u := by
    cases n with
    | zero => rfl
    | succ n =>
      have hnone : u.cmds.find? (fun c => c.op == 0 && u.mayStart c) = none := List.find?_eq_none.mpr fun b hb => by simp [hu b hb]
      rw [State.nopSteps, hnone]
  refine hsteps _ _ fun b hb => ?_
  obtain ⟨x, hx, rfl⟩ := List.mem_map.mp hb
  dsimp only
  split
  · exact hnop x hx
  · exact hnop x hx

theorem mem_begun {s : State} {c b : Cmd} (hc : c ∈ s.cmds) : b ∈ (begun s c).cmds ↔ b = running c ∨ b ∈ s.cmds ∧ b ≠ c := by
  constructor
  · intro hb
    obtain ⟨x, hx, rfl⟩ := List.mem_map.mp hb
    by_cases h : x = c
    · subst h
      simp [running]
    · simp [h, hx]
  · rintro (rfl | ⟨hb, hne⟩)
    · exact List.mem_map.mpr ⟨c, hc, by simp [running]⟩
    · exact List.mem_map.mpr ⟨b, hb, by simp [hne]⟩

section
variable {src : CmdSrc} {tag p : Nat} {s : State} {c : Cmd} (h : Startable s c src tag 0x31)
include h

theorem alone_running {b : Cmd} (hb : b ∈ (begun s c).cmds) (hsrc : b.src = c.src) (htag : b.tag = c.tag) : b = running c := by
  obtain ⟨hc, honly⟩ := only_of_startable h
  rcases (mem_begun hc).mp hb with hrun | ⟨hmem, hne⟩
  · exact hrun
  · exact absurd (honly b hmem hsrc htag) hne

theorem cmdOf_begun : (begun s c).cmdOf src tag = some (running c) := by
  obtain ⟨hc, -⟩ := only_of_startable h
  have halone {b : Cmd} := alone_running h (b := b)
  obtain ⟨rfl, rfl, -, -, hdecided, -⟩ := h
  refine find?_eq_of_unique ((mem_begun hc).mpr (.inl rfl)) ?_ fun b hb hq => ?_
  · simp [running, hdecided]
  · simp only [Bool.and_eq_true, beq_iff_eq] at hq
    exact halone hb hq.1.1 hq.1.2

theorem exec_cancel (hp : c.part = some p) (hst : (s.part p).st ≠ .switching) (hnop : ∀ b ∈ s.cmds, b.op ≠ 0) :
    exec (.cancel src tag) s = .next (((begun s c).cancelNow p (running c)).preemptCheck p) := by
  change execCancel src tag s = _
  unfold execCancel
  simp only [cmdFor_of_startable h, startCmd_eq_begun c hnop, cmdOf_begun h, Cmd.partOr, hp, Option.getD_some]
  rw [if_neg (by simpa using hst)]

end

/-! ### The target of a CANCEL -/

/-- The commands that a CANCEL on a source may name by a tag. -/
def InSpace (src : CmdSrc) (p target : Nat) (b : Cmd) : Prop :=
  (b.part = some p ∨ (src = .mgmt ∧ b.part = none)) ∧ ((b.src = .mgmt) ↔ (src = .mgmt)) ∧ b.tag = target

theorem srcQp_eq_none_iff {src : CmdSrc} : srcQp src = none ↔ src = .mgmt := by cases src <;> simp [srcQp]

theorem srcQp_isSome_eq {a b : CmdSrc} : (srcQp a).isSome = (srcQp b).isSome ↔ (a = .mgmt ↔ b = .mgmt) := by
  cases a <;> cases b <;> simp [srcQp]

theorem inSpace_iff {c b : Cmd} {p : Nat} : ((b.part == some p || ((srcQp c.src).isNone && b.part.isNone))
    && (srcQp b.src).isSome == (srcQp c.src).isSome && b.tag == field (c.p 1) 15 0) = true ↔ InSpace c.src p ((c.p 1).toNat % 2 ^ 16) b := by
  simp only [Bool.and_eq_true, Bool.or_eq_true, beq_iff_eq, Option.isNone_iff_eq_none, srcQp_eq_none_iff, srcQp_isSome_eq, InSpace, field_low,
    and_assoc, Nat.reduceAdd]

section
variable {src : CmdSrc} {tag p : Nat} {s : State} {c : Cmd} (h : Startable s c src tag 0x31)
include h

theorem cancelTarget_none (hnone : ∀ b ∈ s.cmds, ¬InSpace src p ((c.p 1).toNat % 2 ^ 16) b) : (begun s c).cancelTarget p (running c) = none := by
  obtain ⟨hc, -⟩ := only_of_startable h
  obtain ⟨rfl, -⟩ := h
  refine List.find?_eq_none.mpr fun b hb hq => ?_
  have hspace := inSpace_iff.mp hq
  rcases (mem_begun hc).mp hb with rfl | ⟨hmem, -⟩
  · exact hnone c hc hspace
  · exact hnone b hmem hspace

theorem cancelTarget_self (hp : c.part = some p) (htarget : (c.p 1).toNat % 2 ^ 16 = tag)
    (honly : ∀ b ∈ s.cmds, InSpace src p ((c.p 1).toNat % 2 ^ 16) b → b = c) : (begun s c).cancelTarget p (running c) = some (running c) := by
  obtain ⟨hc, -⟩ := only_of_startable h
  obtain ⟨rfl, rfl, -⟩ := h
  refine find?_eq_of_unique ((mem_begun hc).mpr (.inl rfl)) (inSpace_iff.mpr ⟨.inl hp, Iff.rfl, htarget.symm⟩) fun b hb hq => ?_
  rcases (mem_begun hc).mp hb with hrun | ⟨hmem, hne⟩
  · exact hrun
  · exact absurd (honly b hmem (inSpace_iff.mp hq)) hne

theorem cancelTarget_other {b : Cmd} (hb : b ∈ s.cmds) (hspace : InSpace src p ((c.p 1).toNat % 2 ^ 16) b)
    (honly : ∀ b' ∈ s.cmds, InSpace src p ((c.p 1).toNat % 2 ^ 16) b' → b' = b) (hne : b ≠ c) :
    (begun s c).cancelTarget p (running c) = some b := by
  obtain ⟨hc, -⟩ := only_of_startable h
  obtain ⟨rfl, -⟩ := h
  refine find?_eq_of_unique ((mem_begun hc).mpr (.inr ⟨hb, hne⟩)) (inSpace_iff.mpr hspace) fun x hx hq => ?_
  have hx' := inSpace_iff.mp hq
  rcases (mem_begun hc).mp hx with rfl | ⟨hmem, -⟩
  · exact absurd (honly c hc hx').symm hne
  · exact honly x hmem hx'

end

/-! ### What a CANCEL does by its target -/

/-- A CANCEL answered with an outcome. -/
def cancelled (s : State) (c : Cmd) (n : Nat) : State := s.finish c { c2 := BitVec.ofNat 64 n }

/-- A CANCEL that waits. -/
def cancelWaits (s : State) (p : Nat) (c : Cmd) : State := s.modPart p (fun q => { q with cancels := q.cancels ++ [(c.src, c.tag)] })

/-- The abort that a CANCEL asks for. -/
def cancelAbort : Abort := { status := stCancelled, cause := 0, sub := 0, hw := false }

/-- The joins of a partition but those of a command. -/
def withoutJoins (b : Cmd) (q : Part) : Part :=
  { q with cask := { q.cask with joins := q.cask.joins.filter (fun j => !(j.src == b.src && j.tag == b.tag)) } }

section
variable {s : State} {p : Nat} {c : Cmd}

theorem cancelNow_none (ht : s.cancelTarget p c = none) : s.cancelNow p c = cancelled s c 0 := by simp only [State.cancelNow, ht]; rfl

variable {b : Cmd} (ht : s.cancelTarget p c = some b)
include ht

theorem cancelNow_decided (hd : b.decided = true) : s.cancelNow p c = cancelled s c 3 := by
  simp only [State.cancelNow, ht, hd, if_true]
  rfl

variable (hd : b.decided = false)
include hd

theorem cancelNow_unstarted (hs : b.started = false) : s.cancelNow p c = cancelled (s.cancelUnstarted p b) c 1 := by
  simp only [State.cancelNow, ht, hd, hs]
  rfl

variable (hs : b.started = true)
include hs

theorem cancelNow_join (hop : b.op = 0x50) : s.cancelNow p c = cancelled ((s.modPart p (withoutJoins b)).refuse b stCancelled) c 1 := by
  simp only [State.cancelNow, ht, hd, hs, hop]
  rfl

theorem cancelNow_dma (hop : b.op ∈ ([0x40, 0x41, 0x42] : List Nat)) :
    s.cancelNow p c = cancelled ((s.dmaCmdStop p (b.src, b.tag)).refuse b stCancelled) c 2 := by
  have hops : b.op = 0x40 ∨ b.op = 0x41 ∨ b.op = 0x42 := by simpa using hop
  have hdma : isDmaOp b.op = true := by simpa [isDmaOp, or_assoc] using hops
  rw [State.cancelNow, ht]
  dsimp only
  rw [hd, hs, if_neg (by decide), if_neg (by decide), if_neg (by omega), if_neg (by omega), if_pos hdma]
  rfl

theorem cancelNow_uncancelled (hop : b.op ∉ ([0x30, 0x40, 0x41, 0x42, 0x50, 0x52] : List Nat)) : s.cancelNow p c = cancelled s c 4 := by
  simp only [List.mem_cons, List.not_mem_nil, or_false, not_or] at hop
  obtain ⟨h30, h40, h41, h42, h50, h52⟩ := hop
  have hdma : ¬isDmaOp b.op = true := by simp [isDmaOp, h40, h41, h42]
  rw [State.cancelNow, ht]
  dsimp only
  rw [hd, hs, if_neg (by decide), if_neg (by decide), if_neg (by omega), if_neg h50, if_neg hdma]
  rfl

variable (hop : b.op = 0x30 ∨ b.op = 0x52)
include hop

theorem cancelNow_launch : s.cancelNow p c =
    match (match (s.part p).launch with | some l => if l.src == b.src && l.tag == b.tag then some l else none | none => none) with
    | some l =>
      if l.committed then cancelled s c 3
      else match (s.part p).abort with
        | none => cancelWaits (s.abortLaunch p cancelAbort) p c
        | some a =>
          if !a.hw then cancelled s c 3
          else if (s.part p).rolledBack then cancelled ((s.modPart p (fun q => { q with abort := some cancelAbort })).endAborted p l cancelAbort) c 2
          else cancelWaits (s.modPart p (fun q => { q with abort := some cancelAbort })) p c
    | none =>
      match (s.part p).suspended.find? (fun x => x.launch.src == b.src && x.launch.tag == b.tag) with
      | some sv => cancelled (s.endSuspended p sv { status := stCancelled } cancelRule) c 2
      | none => cancelled (s.cancelUnstarted p b) c 1 := by
  rw [State.cancelNow, ht]
  dsimp only
  rw [hd, hs, if_neg (by decide), if_neg (by decide), if_pos hop]
  rfl

/-- A CANCEL of the launch in progress. -/
theorem cancelNow_mine {l : Launch} (hl : (s.part p).launch = some l) (hsrc : l.src = b.src) (htag : l.tag = b.tag) : s.cancelNow p c =
    if l.committed then cancelled s c 3
    else match (s.part p).abort with
      | none => cancelWaits (s.abortLaunch p cancelAbort) p c
      | some a =>
        if !a.hw then cancelled s c 3
        else if (s.part p).rolledBack then cancelled ((s.modPart p (fun q => { q with abort := some cancelAbort })).endAborted p l cancelAbort) c 2
        else cancelWaits (s.modPart p (fun q => { q with abort := some cancelAbort })) p c := by
  rw [cancelNow_launch ht hd hs hop, hl]
  dsimp only
  rw [if_pos (by simp [hsrc, htag])]

/-- A CANCEL of a launch that is not in progress. -/
theorem cancelNow_notMine (hl : ∀ l, (s.part p).launch = some l → ¬(l.src = b.src ∧ l.tag = b.tag)) : s.cancelNow p c =
    match (s.part p).suspended.find? (fun x => x.launch.src == b.src && x.launch.tag == b.tag) with
    | some sv => cancelled (s.endSuspended p sv { status := stCancelled } cancelRule) c 2
    | none => cancelled (s.cancelUnstarted p b) c 1 := by
  rw [cancelNow_launch ht hd hs hop]
  cases hq : (s.part p).launch with
  | none => rfl
  | some l =>
    dsimp only
    rw [if_neg (by simpa using hl l hq)]

end

end Sys2Proof.Proofs
end

section
/-!
PROOFS. The clauses on CANCEL (O48): its outcome, and the reply of the command that it ends (R365).
-/
namespace Sys2Proof.Proofs
open Sys2Proof Sys2Proof.Machine Sys2Proof.Stated Sys2Proof.Laws

theorem cancelUnstarted_other {s : State} {p : Nat} {b : Cmd} (h30 : b.op ≠ 0x30) (h52 : b.op ≠ 0x52) :
    s.cancelUnstarted p b = s.refuse b stCancelled := by
  rw [State.cancelUnstarted, if_neg (by omega)]

theorem cancelUnstarted_keeps (s : State) (p : Nat) (b : Cmd) : CmdsKept s (s.cancelUnstarted p b) := by
  unfold State.cancelUnstarted
  split
  · split
    · exact cmdsKept_finish _ _ _
    · exact (launchKept_report s p b _ _ _).cmds
  · exact cmdsKept_finish _ _ _

/-- A launch that is cancelled before it has started is answered CANCELLED. -/
theorem cancelUnstarted_launch {s : State} {p : Nat} {b : Cmd} (hop : b.op = 0x30 ∨ b.op = 0x52)
    (honly : ∀ x ∈ s.cmds, x.src = b.src → x.tag = b.tag → x = b) : ∃ c1 c2, Finished s (s.cancelUnstarted p b) b 0x22 c1 c2 0 := by
  unfold State.cancelUnstarted
  rw [if_pos hop]
  split
  · exact ⟨0, 0, (refuse_finished (status := stCancelled) (by decide) honly).1⟩
  · next x _ =>
    obtain ⟨⟨c1, hfin, -⟩, -⟩ := endUnstarted_finished (p := p) (r := { status := stCancelled }) (by decide) rfl honly
      (imItemsNever x.image (s.part p).variantNow 0x22 0 0)
    exact ⟨c1, 0xFF00, hfin⟩

section
variable {src : CmdSrc} {tag p : Nat} {s : State} {c : Cmd} (h : Startable s c src tag 0x31)
include h

theorem alone_begun : Alone (begun s c) (running c) := fun _ hb hsrc htag => .inl (alone_running h hb hsrc htag)

omit h in
theorem cancelled_part (u : State) (n : Nat) : ((cancelled u (running c) n).preemptCheck p).part p
    = { u.part p with preq := (((cancelled u (running c) n).preemptCheck p).part p).preq } := by
  have hpart : (cancelled u (running c) n).part p = u.part p :=
    part_of_parts _ _ (answered_parts (answered_finish u (running c) { c2 := BitVec.ofNat 64 n })) p
  exact (preemptCheck_part _ _).trans (by rw [hpart])

/-- The outcome of a CANCEL that changes nothing. -/
theorem cancelled_answered (n : Nat) : let t := (cancelled (begun s c) (running c) n).preemptCheck p
    Finished s t c 0 0 (BitVec.ofNat 64 n) 0 ∧ (∃ pre, t.part p = { s.part p with preq := pre }) ∧ t.mem = s.mem := by
  have hfin := finish_finished (s := s) (u := begun s c) rfl (c := running c) (r := { c2 := BitVec.ofNat 64 n })
    (by decide : (0 : Nat) < 2 ^ 8)
    (fun b hb hsrc htag => alone_running h hb hsrc htag)
  rw [resultC1_plain 0] at hfin
  refine ⟨preemptCheck_finished hfin p, ⟨_, cancelled_part _ n⟩, ?_⟩
  rw [preemptCheck_mem]
  exact (answered_mem (answered_finish (begun s c) (running c) { c2 := BitVec.ofNat 64 n }) :)

/-- The outcome of a CANCEL on the management path, after what it does. -/
theorem cancelled_finished (hm : src = .mgmt) {u : State} (hu : CmdsKept (begun s c) u) (n : Nat) :
    Finished s ((cancelled u (running c) n).preemptCheck p) c 0 0 (BitVec.ofNat 64 n) 0 := by
  have hsrc : (running c).src = .mgmt := h.1.trans hm
  have hfin := finish_of_alone (s := s) hsrc ((alone_begun h).kept hu) (r := { c2 := BitVec.ofNat 64 n })
    (by decide : (0 : Nat) < 2 ^ 8)
  rw [resultC1_plain 0] at hfin
  exact preemptCheck_finished hfin p

variable {b : Cmd} (hne : b ≠ c) (honly : ∀ x ∈ s.cmds, x.src = b.src → x.tag = b.tag → x = b)
include hne honly

/-- The target of a CANCEL stands alone. -/
theorem only_target {x : Cmd} (hx : x ∈ (begun s c).cmds) (hsrc : x.src = b.src) (htag : x.tag = b.tag) : x = b := by
  obtain ⟨hc, -⟩ := only_of_startable h
  rcases (mem_begun hc).mp hx with rfl | ⟨hmem, -⟩
  · exact absurd (honly c hc hsrc htag).symm hne
  · exact honly x hmem hsrc htag

/-- A CANCEL on the management path that ends its target with CANCELLED. -/
theorem cancelled_refuses (hm : src = .mgmt) (hbm : b.src = .mgmt) {u : State} (hu : u.cmds = (begun s c).cmds) (n : Nat) :
    let t := (cancelled (u.refuse b stCancelled) (running c) n).preemptCheck p
    Finished s t b 0x22 0 0 0 ∧ Finished s t c 0 0 (BitVec.ofNat 64 n) 0 := by
  have hb : Alone u b := fun x hx hsrc htag => .inl (only_target h hne honly (hu ▸ hx) hsrc htag)
  have hfin := finish_of_alone (s := s) hbm hb (r := { status := stCancelled }) (by decide)
  rw [resultC1_plain stCancelled] at hfin
  exact ⟨preemptCheck_finished (finished_of_answered hfin (answered_finish _ _ _)) p,
    cancelled_finished h hm ((cmdsKept_of_eq hu).trans (cmdsKept_finish u b { status := stCancelled })) n⟩

/-- A CANCEL on the management path of a launch that has not begun. -/
theorem cancelled_launch (hm : src = .mgmt) (hbm : b.src = .mgmt) (hop : b.op = 0x30 ∨ b.op = 0x52) (n : Nat) :
    let t := (cancelled ((begun s c).cancelUnstarted p b) (running c) n).preemptCheck p
    (∃ c1 c2, Finished s t b 0x22 c1 c2 0) ∧ Finished s t c 0 0 (BitVec.ofNat 64 n) 0 := by
  obtain ⟨c1, c2, hfin⟩ := cancelUnstarted_launch (p := p) hop (fun x hx hsrc htag => only_target h hne honly (s := s) hx hsrc htag)
  exact ⟨⟨c1, c2, preemptCheck_finished (finished_of_answered (finished_of_mgmt hbm hfin) (answered_finish _ _ _)) p⟩,
    cancelled_finished h hm (cancelUnstarted_keeps _ p b) n⟩

end

/-! ### A CANCEL that waits for the rollback -/

theorem abortLaunch_part {s : State} {p : Nat} {l : Launch} (hl : (s.part p).launch = some l) (hcom : l.committed = false)
    (hab : (s.part p).abort = none) (a : Abort) : (s.abortLaunch p a).part p = { s.part p with abort := some a } ∧ (s.abortLaunch p a).sent = s.sent := by
  have hset : (s.setPart p { s.part p with abort := some a }).part p = { s.part p with abort := some a } := by rw [setPart_part, if_pos rfl]
  have heq : s.abortLaunch p a
      = ((s.setPart p { s.part p with abort := some a }).mapPartCores p (fun _ c => c.stop)).mapPartClusters p Cluster.halt := by
    unfold State.abortLaunch
    simp only [hl, hcom, hab]
    rfl
  rw [heq]
  exact ⟨hset, rfl⟩

theorem cancelWaits_part (u : State) (p : Nat) (c : Cmd) : ((cancelWaits u p c).preemptCheck p).part p
    = { u.part p with cancels := (u.part p).cancels ++ [(c.src, c.tag)], preq := (((cancelWaits u p c).preemptCheck p).part p).preq } := by
  have hpart : (cancelWaits u p c).part p = { u.part p with cancels := (u.part p).cancels ++ [(c.src, c.tag)] } := by
    rw [cancelWaits, modPart_part, if_pos rfl]
  exact (preemptCheck_part _ _).trans (by rw [hpart])

theorem cancelWaits_sent (u : State) (p : Nat) (c : Cmd) : ((cancelWaits u p c).preemptCheck p).sent = u.sent := by
  rw [preemptCheck_frame]
  rfl

/-! ### The clauses -/

/-- The outcome of a CANCEL that only tells the state of its target. -/
def Answers (src : CmdSrc) (tag p : Nat) (s : State) (c : Cmd) (n : Nat) : Prop :=
  ∃ t pre, exec (.cancel src tag) s = .next t ∧ Finished s t c 0 0 (BitVec.ofNat 64 n) 0 ∧ t.part p = { s.part p with preq := pre } ∧ t.mem = s.mem

/-- The outcome of a CANCEL that ends its target. -/
def Ends (src : CmdSrc) (tag : Nat) (s : State) (c : Cmd) (n : Nat) (good : State → Prop) : Prop :=
  ∃ t, exec (.cancel src tag) s = .next t ∧ good t ∧ (src = .mgmt → Finished s t c 0 0 (BitVec.ofNat 64 n) 0)

/-- A CANCEL that stops the launch in progress and waits. -/
def Stops (src : CmdSrc) (tag p : Nat) (s : State) : Prop :=
  ∃ t a, exec (.cancel src tag) s = .next t ∧ (t.part p).abort = some a ∧ a.status = 0x22 ∧ a.hw = false
    ∧ (t.part p).cancels = (s.part p).cancels ++ [(src, tag)] ∧ t.sent = s.sent

section
variable {src : CmdSrc} {tag p : Nat} {s : State} {c : Cmd} (h : Startable s c src tag 0x31) (hp : c.part = some p)
  (hst : (s.part p).st ≠ .switching) (hnop : ∀ b ∈ s.cmds, b.op ≠ 0)
include h hp hst hnop

theorem exec_cancel_of {u : State} (hnow : (begun s c).cancelNow p (running c) = u) : exec (.cancel src tag) s = .next (u.preemptCheck p) := by
  rw [exec_cancel h hp hst hnop, hnow]

theorem answers_of {n : Nat} (hnow : (begun s c).cancelNow p (running c) = cancelled (begun s c) (running c) n) : Answers src tag p s c n := by
  obtain ⟨hfin, ⟨pre, hpart⟩, hmem⟩ := cancelled_answered h (p := p) n
  exact ⟨_, pre, exec_cancel_of h hp hst hnop hnow, hfin, hpart, hmem⟩

theorem ends_of {n : Nat} {u : State} (hnow : (begun s c).cancelNow p (running c) = cancelled u (running c) n) (hu : CmdsKept (begun s c) u)
    {good : State → Prop} (hgood : good ((cancelled u (running c) n).preemptCheck p)) : Ends src tag s c n good :=
  ⟨_, exec_cancel_of h hp hst hnop hnow, hgood, fun hm => cancelled_finished h hm hu n⟩

theorem stops_of {u : State} (hnow : (begun s c).cancelNow p (running c) = cancelWaits u p (running c))
    (hpart : u.part p = { s.part p with abort := some cancelAbort }) (hsent : u.sent = s.sent) : Stops src tag p s := by
  have hexec := exec_cancel_of h hp hst hnop hnow
  obtain ⟨rfl, rfl, -⟩ := h
  have htpart := cancelWaits_part u p (running c)
  rw [hpart] at htpart
  exact ⟨_, cancelAbort, hexec, by rw [htpart], rfl, rfl, by rw [htpart]; rfl, (cancelWaits_sent _ _ _).trans hsent⟩

variable {b : Cmd} (hb : b ∈ s.cmds) (hspace : InSpace src p ((c.p 1).toNat % 2 ^ 16) b)
  (hunique : ∀ b' ∈ s.cmds, InSpace src p ((c.p 1).toNat % 2 ^ 16) b' → b' = b) (hne : b ≠ c)
include hb hspace hunique hne

theorem answers_decided (hd : b.decided = true) : Answers src tag p s c 3 :=
  answers_of h hp hst hnop (cancelNow_decided (cancelTarget_other h hb hspace hunique hne) hd)

theorem answers_uncancelled (hd : b.decided = false) (hs : b.started = true) (hop : b.op ∉ ([0x30, 0x40, 0x41, 0x42, 0x50, 0x52] : List Nat)) :
    Answers src tag p s c 4 :=
  answers_of h hp hst hnop (cancelNow_uncancelled (cancelTarget_other h hb hspace hunique hne) hd hs hop)

section
variable (honly : ∀ b' ∈ s.cmds, b'.src = b.src → b'.tag = b.tag → b' = b)
include honly

theorem cancels_unstarted (hd : b.decided = false) (hs : b.started = false) (h30 : b.op ≠ 0x30) (h52 : b.op ≠ 0x52) (hm : src = .mgmt) :
    ∃ t, exec (.cancel src tag) s = .next t ∧ Finished s t b 0x22 0 0 0 ∧ Finished s t c 0 0 1 0 := by
  have hnow := cancelNow_unstarted (cancelTarget_other h hb hspace hunique hne) hd hs
  rw [cancelUnstarted_other h30 h52] at hnow
  exact ⟨_, exec_cancel_of h hp hst hnop hnow, cancelled_refuses h hne honly hm (hspace.2.1.mpr hm) rfl 1⟩

theorem cancels_join (hd : b.decided = false) (hs : b.started = true) (hop : b.op = 0x50) (hm : src = .mgmt) :
    ∃ t, exec (.cancel src tag) s = .next t ∧ Finished s t b 0x22 0 0 0 ∧ Finished s t c 0 0 1 0
      ∧ ∀ j ∈ (t.part p).cask.joins, ¬(j.src = b.src ∧ j.tag = b.tag) := by
  have hnow := cancelNow_join (cancelTarget_other h hb hspace hunique hne) hd hs hop
  obtain ⟨hfin, hfin'⟩ := cancelled_refuses (p := p) h hne honly hm (hspace.2.1.mpr hm) (u := (begun s c).modPart p (withoutJoins b)) rfl 1
  refine ⟨_, exec_cancel_of h hp hst hnop hnow, hfin, hfin', fun j hj => ?_⟩
  have hpart : (((begun s c).modPart p (withoutJoins b)).refuse b stCancelled).part p = withoutJoins b (s.part p) := by
    rw [State.refuse, part_of_parts _ _ (answered_parts (answered_finish _ _ _)), modPart_part, if_pos rfl]
    rfl
  rw [cancelled_part, hpart] at hj
  have hother := (List.mem_filter.mp hj).2
  rintro ⟨hsrc, htag⟩
  simp [hsrc, htag] at hother

theorem ends_dma (hd : b.decided = false) (hs : b.started = true) (hop : b.op ∈ ([0x40, 0x41, 0x42] : List Nat)) :
    Ends src tag s c 2 (fun t => src = .mgmt → Finished s t b 0x22 0 0 0) :=
  ends_of h hp hst hnop (cancelNow_dma (cancelTarget_other h hb hspace hunique hne) hd hs hop)
    ((cmdsKept_of_eq rfl).trans (cmdsKept_finish _ b { status := stCancelled }))
    fun hm => (cancelled_refuses h hne honly hm (hspace.2.1.mpr hm) (u := (begun s c).dmaCmdStop p (b.src, b.tag)) rfl 2).1

variable (hd : b.decided = false) (hs : b.started = true) (hop : b.op = 0x30 ∨ b.op = 0x52)
include hd hs hop

theorem ends_waiting_launch (hl : ∀ l, (s.part p).launch = some l → ¬(l.src = b.src ∧ l.tag = b.tag))
    (hsus : ∀ sv ∈ (s.part p).suspended, ¬(sv.launch.src = b.src ∧ sv.launch.tag = b.tag)) :
    Ends src tag s c 1 (fun t => src = .mgmt → ∃ c1 c2, Finished s t b 0x22 c1 c2 0) := by
  have hnone : ((begun s c).part p).suspended.find? (fun x => x.launch.src == b.src && x.launch.tag == b.tag) = none :=
    List.find?_eq_none.mpr fun sv hsv => by simpa using hsus sv hsv
  have hnow := cancelNow_notMine (cancelTarget_other h hb hspace hunique hne) hd hs hop hl
  rw [hnone] at hnow
  exact ends_of h hp hst hnop hnow (cancelUnstarted_keeps _ _ _) fun hm => (cancelled_launch h hne honly hm (hspace.2.1.mpr hm) hop 1).1

end

section
variable (hd : b.decided = false) (hs : b.started = true) (hop : b.op = 0x30 ∨ b.op = 0x52)
include hd hs hop

theorem ends_suspended_launch (hl : ∀ l, (s.part p).launch = some l → ¬(l.src = b.src ∧ l.tag = b.tag)) {sv : Saved}
    (hsus : (s.part p).suspended = [sv]) (hsrc : sv.launch.src = b.src) (htag : sv.launch.tag = b.tag) :
    Ends src tag s c 2 (fun t => (t.part p).suspended = []) := by
  have hsus' : ((begun s c).part p).suspended = [sv] := hsus
  have hnow := cancelNow_notMine (cancelTarget_other h hb hspace hunique hne) hd hs hop hl
  rw [hsus', List.find?_cons_of_pos (by simp [hsrc, htag])] at hnow
  obtain ⟨hkept, -, hleft⟩ := endSuspended_keeps (begun s c) p sv { status := stCancelled } cancelRule
  refine ends_of h hp hst hnop hnow hkept ?_
  rw [cancelled_part]
  refine hleft.trans ?_
  rw [hsus']
  simp

variable {l : Launch} (hl : (s.part p).launch = some l) (hsrc : l.src = b.src) (htag : l.tag = b.tag)
include hl hsrc htag

omit hp hst hnop in
theorem cancelNow_running : (begun s c).cancelNow p (running c) =
    if l.committed then cancelled (begun s c) (running c) 3
    else match (s.part p).abort with
      | none => cancelWaits ((begun s c).abortLaunch p cancelAbort) p (running c)
      | some a =>
        if !a.hw then cancelled (begun s c) (running c) 3
        else if (s.part p).rolledBack then
          cancelled (((begun s c).modPart p (fun q => { q with abort := some cancelAbort })).endAborted p l cancelAbort) (running c) 2
        else cancelWaits ((begun s c).modPart p (fun q => { q with abort := some cancelAbort })) p (running c) :=
  cancelNow_mine (cancelTarget_other h hb hspace hunique hne) hd hs hop hl hsrc htag

theorem answers_committed (hcom : l.committed = true) : Answers src tag p s c 3 :=
  answers_of h hp hst hnop ((cancelNow_running h hb hspace hunique hne hd hs hop hl hsrc htag).trans (if_pos hcom))

theorem stops_running (hcom : l.committed = false) (hab : (s.part p).abort = none) : Stops src tag p s := by
  obtain ⟨hpart, hsent⟩ := abortLaunch_part (s := begun s c) hl hcom hab cancelAbort
  refine stops_of h hp hst hnop ?_ hpart hsent
  rw [cancelNow_running h hb hspace hunique hne hd hs hop hl hsrc htag, hcom, hab]
  rfl

variable {a : Abort} (hcom : l.committed = false) (hab : (s.part p).abort = some a)
include hcom hab

theorem answers_stopped (hhw : a.hw = false) : Answers src tag p s c 3 := by
  refine answers_of h hp hst hnop ?_
  rw [cancelNow_running h hb hspace hunique hne hd hs hop hl hsrc htag, hcom, hab]
  dsimp only
  rw [hhw]
  rfl

theorem stops_faulted (hhw : a.hw = true) (hroll : (s.part p).rolledBack = false) : Stops src tag p s := by
  have hpart : ((begun s c).modPart p (fun q => { q with abort := some cancelAbort })).part p = { s.part p with abort := some cancelAbort } := by
    rw [modPart_part, if_pos rfl]
    rfl
  refine stops_of h hp hst hnop ?_ hpart rfl
  rw [cancelNow_running h hb hspace hunique hne hd hs hop hl hsrc htag, hcom, hab]
  dsimp only
  rw [hhw, hroll]
  rfl

theorem ends_rolledBack (hhw : a.hw = true) (hroll : (s.part p).rolledBack = true) : Ends src tag s c 2 (fun t => (t.part p).launch = none) := by
  have hl' : (((begun s c).modPart p (fun q => { q with abort := some cancelAbort })).part p).launch = some l := by
    rw [modPart_part, if_pos rfl]
    exact hl
  obtain ⟨hkept, hnone⟩ := endAborted_ends hl' cancelAbort
  refine ends_of h hp hst hnop (u := ((begun s c).modPart p (fun q => { q with abort := some cancelAbort })).endAborted p l cancelAbort) ?_ hkept ?_
  · rw [cancelNow_running h hb hspace hunique hne hd hs hop hl hsrc htag, hcom, hab]
    dsimp only
    rw [hhw, hroll]
    rfl
  · rw [cancelled_part]
    exact hnone

end

end

/-- Settles O48: the load and the unloading of a schedule, and CANCEL by its target's state. -/
theorem schedulesAndCancels : Obligations.SchedulesAndCancels := by
  unfold Obligations.SchedulesAndCancels
  refine ⟨fun src tag p s c im h hst hp him => schedLoads hst hp him, fun src tag p s c h hp => schedUnloads h hp,
    fun src tag p s c h hp hsw hnop => ⟨fun hnone => ?_, fun htarget honly => ?_, fun b hb hspace hunique hne honly => ?_⟩⟩
  · exact answers_of h hp hsw hnop (cancelNow_none (cancelTarget_none h hnone))
  · have htag := cancelTarget_self h hp htarget honly
    obtain ⟨-, -, hop, -, hdecided, -⟩ := id h
    exact answers_of h hp hsw hnop (cancelNow_uncancelled htag hdecided rfl (by rw [show (running c).op = c.op from rfl, hop]; decide))
  · have htag : b.tag = (c.p 1).toNat % 2 ^ 16 := hspace.2.2
    refine ⟨answers_decided h hp hsw hnop hb hspace hunique hne, cancels_unstarted h hp hsw hnop hb hspace hunique hne honly,
      cancels_join h hp hsw hnop hb hspace hunique hne honly, answers_uncancelled h hp hsw hnop hb hspace hunique hne,
      ends_dma h hp hsw hnop hb hspace hunique hne honly, fun hd hs hop => ?_⟩
    rw [← htag]
    refine ⟨ends_waiting_launch h hp hsw hnop hb hspace hunique hne honly hd hs hop, fun sv hl hsus hmine => ?_, fun l hl hmine => ?_⟩
    · exact ends_suspended_launch h hp hsw hnop hb hspace hunique hne hd hs hop hl hsus hmine.1 hmine.2
    · obtain ⟨hsrc, hltag⟩ := hmine
      refine ⟨answers_committed h hp hsw hnop hb hspace hunique hne hd hs hop hl hsrc hltag,
        stops_running h hp hsw hnop hb hspace hunique hne hd hs hop hl hsrc hltag, fun a hcom hab => ⟨?_, ?_, ?_⟩⟩
      · exact answers_stopped h hp hsw hnop hb hspace hunique hne hd hs hop hl hsrc hltag hcom hab
      · exact stops_faulted h hp hsw hnop hb hspace hunique hne hd hs hop hl hsrc hltag hcom hab
      · exact ends_rolledBack h hp hsw hnop hb hspace hunique hne hd hs hop hl hsrc hltag hcom hab

end Sys2Proof.Proofs
end
